-- ==== Sys2Proof/Word.lean ====
section
/-!
DEFINITION. The plain word types of the Olugar OLG-7160 and its register-sized data.
-/
namespace Sys2Proof

/-- A byte of memory (R163: a location is one byte). -/
abbrev Byte := BitVec 8

/-- A halfword of instruction memory (R39). -/
abbrev Half := BitVec 16

/-- A 32-bit lane word (R46). -/
abbrev Word := BitVec 32

/-- A 64-bit group-wide word (R46). -/
abbrev DWord := BitVec 64

/-- The 32 lane words of one lane register (R7, R46). -/
abbrev Lanes := Vector Word 32

/-- The lane register whose lane `l` holds `f l`. -/
def Lanes.make (f : Nat → Word) : Lanes := Vector.ofFn (fun i => f i.val)

/-- The word of lane `l`; lanes are 0 to 31. -/
def Lanes.at (v : Lanes) (l : Nat) : Word := v.toArray.getD l 0

end Sys2Proof
end

