-- ==== Sys2Proof/Machine/Num.lean ====
section
/-!
DEFINITION. Number formats and arithmetic (R19 to R38): values, decoding, the three roundings, conversion into
narrow formats, and the transcendentals of R76. Arithmetic is exact on rationals and is rounded once at the end.
-/
namespace Sys2Proof.Machine

/-- The formats of Table 6, in the order of their codes (R22). -/
inductive Fmt where
  | fp32 | bf16 | fp16 | e4m3 | e5m2 | e3m2 | e2m3 | e2m1 | int8 | int32
deriving DecidableEq, Repr

/-- The format of a format code; codes 10 and above are reserved (R22). -/
def Fmt.ofCode (c : Nat) : Option Fmt :=
  match c with
  | 0 => some .fp32 | 1 => some .bf16 | 2 => some .fp16 | 3 => some .e4m3 | 4 => some .e5m2
  | 5 => some .e3m2 | 6 => some .e2m3 | 7 => some .e2m1 | 8 => some .int8 | 9 => some .int32
  | _ => none

/-- Mantissa width (R19, R20); for the integer formats the number of magnitude bits. -/
def Fmt.man : Fmt → Nat
  | .fp32 => 23 | .bf16 => 7 | .fp16 => 10 | .e4m3 => 3 | .e5m2 => 2 | .e3m2 => 2 | .e2m3 => 3 | .e2m1 => 1
  | .int8 => 7 | .int32 => 31

/-- Exponent width; 0 for the integer formats. -/
def Fmt.exp : Fmt → Nat
  | .fp32 => 8 | .bf16 => 8 | .fp16 => 5 | .e4m3 => 4 | .e5m2 => 5 | .e3m2 => 3 | .e2m3 => 2 | .e2m1 => 2
  | .int8 => 0 | .int32 => 0

/-- Exponent bias. -/
def Fmt.bias : Fmt → Int
  | .fp32 => 127 | .bf16 => 127 | .fp16 => 15 | .e4m3 => 7 | .e5m2 => 15 | .e3m2 => 3 | .e2m3 => 1 | .e2m1 => 1
  | .int8 => 0 | .int32 => 0

/-- Bits of a code. -/
def Fmt.width (f : Fmt) : Nat := f.exp + f.man + 1

/-- Whether a format is an integer format. -/
def Fmt.isInt : Fmt → Bool
  | .int8 => true | .int32 => true | _ => false

/-- Whether the all-ones exponent holds infinity and NaN: the three IEEE formats and E5M2. -/
def Fmt.hasInf : Fmt → Bool
  | .fp32 => true | .bf16 => true | .fp16 => true | .e5m2 => true | _ => false

/-- The exponent of the smallest quantum, emin − P + 1 (R24). -/
def Fmt.qmin (f : Fmt) : Int := if f.isInt then 0 else 1 - f.bias - (f.man : Int)

/-- The magnitude code of the largest finite value (R20, Table 1). -/
def Fmt.maxCode : Fmt → Nat
  | .fp32 => 0x7F7F_FFFF | .bf16 => 0x7F7F | .fp16 => 0x7BFF | .e4m3 => 0x7E | .e5m2 => 0x7B
  | .e3m2 => 0x1F | .e2m3 => 0x1F | .e2m1 => 0x7 | .int8 => 127 | .int32 => 0x7FFF_FFFF

/-- A value: NaN with its sign, a signed infinity, or a signed magnitude, so that −0 is a value of its own. -/
inductive FVal where
  | nan (neg : Bool)
  | inf (neg : Bool)
  | num (neg : Bool) (mag : Rat)
deriving DecidableEq, Repr

/-- 2 to an integer power. -/
def pow2 (e : Int) : Rat := if e < 0 then mkRat 1 (2 ^ e.natAbs) else (2 ^ e.natAbs : Nat)

/-- The magnitude of a magnitude code, by R20. -/
def Fmt.magOf (f : Fmt) (c : Nat) : Rat :=
  if f.isInt then (c : Rat)
  else if c < 2 ^ f.man then (c : Rat) * pow2 f.qmin
  else ((2 ^ f.man + c % 2 ^ f.man : Nat) : Rat) * pow2 (f.qmin + (c / 2 ^ f.man : Nat) - 1)

/-- Decode(code, fmt) (R38): the value of a code; bits above the format's width are ignored. -/
def decodeNum (f : Fmt) (code : Nat) : FVal :=
  let c := code % 2 ^ f.width
  let neg := c / 2 ^ (f.width - 1) == 1
  let m := c % 2 ^ (f.width - 1)
  if f.isInt then .num neg (if neg then ((2 ^ f.width - c : Nat) : Rat) else (c : Rat))
  else if f.hasInf && m / 2 ^ f.man == 2 ^ f.exp - 1 then (if m % 2 ^ f.man == 0 then .inf neg else .nan neg)
  else if f == .e4m3 && m == 0x7F then .nan neg
  else .num neg (f.magOf m)

/-- floor(log2 x) for x > 0. -/
def floorLog2 (x : Rat) : Int :=
  let k : Int := (Nat.log2 x.num.natAbs : Int) - (Nat.log2 x.den : Int)
  if pow2 k ≤ x then k else k - 1

/-- The rounding modes of R24 and R25. -/
inductive RoundMode where
  | ne
  | z
  | sr (r : Nat)
deriving DecidableEq, Repr

/-- An exact quotient q = |x| / ulp rounded to an integer in a mode (R24, R25). -/
def roundQuotient (mode : RoundMode) (q : Rat) : Nat :=
  let n := q.floor.natAbs
  let fr := q - (n : Rat)
  match mode with
  | .z => n
  | .ne => if fr > mkRat 1 2 || (fr == mkRat 1 2 && n % 2 == 1) then n + 1 else n
  | .sr r => n + ((fr * 65536).floor.natAbs + r % 65536) / 65536

/-- The exponent of the quantum of a positive magnitude (R24). -/
def Fmt.quantum (f : Fmt) (x : Rat) : Int :=
  if f.isInt then 0 else max (floorLog2 x - (f.man : Int)) f.qmin

/-- The magnitude code of a rounded magnitude. The exponent has no upper bound, so a code above `maxCode` is a
magnitude beyond the format. -/
def Fmt.roundCode (f : Fmt) (mode : RoundMode) (x : Rat) : Nat :=
  if x ≤ 0 then 0
  else
    let q := f.quantum x
    (q - f.qmin).natAbs * 2 ^ f.man + roundQuotient mode (x / pow2 q)

/-- A signed code from its sign and magnitude code. -/
def Fmt.signed (f : Fmt) (neg : Bool) (m : Nat) : Nat := if neg then m + 2 ^ (f.width - 1) else m

/-- The canonical quiet NaN of an IEEE format (R19). -/
def Fmt.canonNaN : Fmt → Nat
  | .bf16 => 0x7FC0 | .fp16 => 0x7E00 | _ => 0x7FC0_0000

/-- A value rounded to FP32, BF16 or FP16 in a mode, overflow giving infinity and NaN the canonical NaN (R19). -/
def roundIeee (f : Fmt) (mode : RoundMode) : FVal → Nat
  | .nan _ => f.canonNaN
  | .inf neg => f.signed neg (f.maxCode + 1)
  | .num neg x => f.signed neg (min (f.roundCode mode x) (f.maxCode + 1))

/-- The value of an FP32 word. -/
def f32 (w : Word) : FVal := decodeNum .fp32 w.toNat

/-- RoundNE to FP32. -/
def toF32 (x : FVal) : Word := BitVec.ofNat 32 (roundIeee .fp32 .ne x)

/-! Exact arithmetic on values, with the special values and zero signs of IEEE 754 (R19). -/

def FVal.neg : FVal → FVal
  | .nan s => .nan s
  | .inf s => .inf (!s)
  | .num s x => .num (!s) x

/-- The exact signed rational of a finite value. -/
def FVal.toRat : FVal → Rat
  | .num true x => -x
  | .num false x => x
  | _ => 0

/-- The value of a rational whose zero has sign `zneg`. -/
def FVal.ofRat (x : Rat) (zneg : Bool) : FVal :=
  if x == 0 then .num zneg 0 else if x < 0 then .num true (-x) else .num false x

def FVal.add : FVal → FVal → FVal
  | .nan _, _ => .nan false
  | _, .nan _ => .nan false
  | .inf s, .inf t => if s == t then .inf s else .nan false
  | .inf s, _ => .inf s
  | _, .inf t => .inf t
  | .num s x, .num t y => FVal.ofRat ((FVal.num s x).toRat + (FVal.num t y).toRat) (s && t && x == 0 && y == 0)

def FVal.sub (a b : FVal) : FVal := a.add b.neg

def FVal.mul : FVal → FVal → FVal
  | .nan _, _ => .nan false
  | _, .nan _ => .nan false
  | .inf s, .inf t => .inf (s != t)
  | .inf s, .num t y => if y == 0 then .nan false else .inf (s != t)
  | .num s x, .inf t => if x == 0 then .nan false else .inf (s != t)
  | .num s x, .num t y => .num (s != t) (x * y)

def FVal.isNaN : FVal → Bool
  | .nan _ => true | _ => false

def FVal.isInf : FVal → Bool
  | .inf _ => true | _ => false

def FVal.isZero : FVal → Bool
  | .num _ x => x == 0 | _ => false

/-- a < b of two values that are no NaN, with +0 = −0. -/
def FVal.lt : FVal → FVal → Bool
  | .nan _, _ => false
  | _, .nan _ => false
  | .inf s, .inf t => s && !t
  | .inf s, .num _ _ => s
  | .num _ _, .inf t => !t
  | .num s x, .num t y => (FVal.num s x).toRat < (FVal.num t y).toRat

/-- a = b of two values that are no NaN, with +0 = −0. -/
def FVal.eq (a b : FVal) : Bool := !a.isNaN && !b.isNaN && !a.lt b && !b.lt a

/-- The sign of a value. -/
def FVal.sign : FVal → Bool
  | .nan s => s | .inf s => s | .num s _ => s

/-- IEEE 754-2019 maximum: NaN wins, and −0 orders below +0 (R19). -/
def FVal.max (a b : FVal) : FVal :=
  if a.isNaN || b.isNaN then .nan false
  else if a.lt b then b else if b.lt a then a else if a.sign then b else a

/-- IEEE 754-2019 minimum. -/
def FVal.min (a b : FVal) : FVal :=
  if a.isNaN || b.isNaN then .nan false
  else if a.lt b then a else if b.lt a then b else if a.sign then a else b

/-! Conversion into narrow formats and INT8 (R26, Table 7). -/

/-- The flags that a conversion raises; lane instructions ignore them. -/
structure ConvFlags where
  ovf : Bool
  nan : Bool
  inv : Bool
  unf : Bool
deriving DecidableEq, Repr

/-- Convert(x, fmt, mode, r) for the formats of Table 7: code and flags. -/
def convertNarrow (f : Fmt) (mode : RoundMode) (x : FVal) : Nat × ConvFlags :=
  let none : ConvFlags := ⟨false, false, false, false⟩
  match x with
  | .nan s =>
    match f with
    | .e4m3 => (f.signed s 0x7F, { none with nan := true })
    | .e5m2 => (f.signed s 0x7E, { none with nan := true })
    | .int8 => (0, { none with nan := true, inv := true })
    | _ => (f.signed s f.maxCode, { none with nan := true, inv := true })
  | .inf s =>
    match f with
    | .e5m2 => (f.signed s 0x7C, none)
    | .int8 => (if s then 0x80 else 0x7F, { none with ovf := true })
    | _ => (f.signed s f.maxCode, { none with ovf := true })
  | .num s x =>
    let c := f.roundCode mode x
    let unf := c == 0 && x != 0
    if f == .int8 then
      if s then
        if c > 128 then (0x80, { none with ovf := true }) else ((256 - c) % 256, { none with unf := unf })
      else if c > 127 then (0x7F, { none with ovf := true }) else (c, { none with unf := unf })
    else if c > f.maxCode then
      match f, mode with
      | .e4m3, .sr _ => (f.signed s 0x7F, { none with ovf := true })
      | .e5m2, .sr _ => (f.signed s 0x7C, { none with ovf := true })
      | _, _ => (f.signed s f.maxCode, { none with ovf := true })
    else (f.signed s c, { none with unf := unf })

/-- The code of an FP32 word converted as a lane instruction converts it (R82). -/
def convertLane (f : Fmt) (mode : RoundMode) (w : Word) : Word := BitVec.ofNat 32 (convertNarrow f mode (f32 w)).1

/-- Widening a code to FP32 (R26): exact, a NaN giving the canonical NaN. -/
def widen (f : Fmt) (code : Nat) : Word := toF32 (decodeNum f code)

/-- maxfinite(fmt) of R35. -/
def Fmt.maxFinite (f : Fmt) : Rat := f.magOf f.maxCode

/-! Integer conversions (R27). -/

/-- The integer part of a magnitude, signed. -/
def truncSigned (neg : Bool) (x : Rat) : Int := if neg then -(x.floor.natAbs : Int) else (x.floor.natAbs : Int)

def toIntZ (w : Word) : Word :=
  match f32 w with
  | .nan _ => 0
  | .inf s => if s then 0x8000_0000 else 0x7FFF_FFFF
  | .num s x =>
    let n := truncSigned s x
    if n < -2147483648 then 0x8000_0000 else if n > 2147483647 then 0x7FFF_FFFF else BitVec.ofInt 32 n

def toUIntZ (w : Word) : Word :=
  match f32 w with
  | .nan _ => 0
  | .inf s => if s then 0 else 0xFFFF_FFFF
  | .num s x => if s then 0 else if x.floor > 4294967295 then 0xFFFF_FFFF else BitVec.ofInt 32 x.floor

/-! The correctly rounded transcendentals (R76). -/

/-- The integer square root, by bits from `i` down. -/
def isqrtFrom (n : Nat) : Nat → Nat → Nat
  | 0, r => if (r + 1) * (r + 1) ≤ n then r + 1 else r
  | i + 1, r => isqrtFrom n i (if (r + 2 ^ (i + 1)) * (r + 2 ^ (i + 1)) ≤ n then r + 2 ^ (i + 1) else r)

/-- floor(√n), for n below 4^(bits + 1). -/
def isqrt (bits n : Nat) : Nat := isqrtFrom n bits 0

/-- √x for a positive rational to more than 300 bits below the point; an inexact root stands between two
neighbours of the scale, so that one later rounding to 24 bits is right. -/
def sqrtApprox (x : Rat) : Rat :=
  let n := (x * pow2 640).floor.natAbs
  let r := isqrt (Nat.log2 n / 2 + 1) n
  if mkRat r 1 * mkRat r 1 == x * pow2 640 then mkRat r (2 ^ 320) else mkRat (2 * r + 1) (2 ^ 321)

/-- ln 2 in units of 2^−256, rounded down. -/
def ln2Scaled : Nat := 0xb17217f7d1cf79abc9e3b39803f2f6af40f343267298b62d8a0d175b8baafa2b

/-- A sum of t^k / k! for k from `k` to `k + n`, in units of 2^−256: `term` is t^(k−1)/(k−1)!. -/
def expSeries (t : Nat) : Nat → Nat → Nat → Nat
  | 0, _, _ => 0
  | n + 1, k, term => let next := term * t / 2 ^ 256 / k; next + expSeries t n (k + 1) next

/-- 2^f for 0 ≤ f < 1 in units of 2^−256, from below, off by less than 2^16 units. -/
def exp2Frac (f : Rat) : Nat :=
  let t := (f * (ln2Scaled : Rat)).floor.natAbs
  2 ^ 256 + expSeries t 64 1 (2 ^ 256)

/-- A sum of z^(2k+1)/(2k+1) for k from `k` on, in units of 2^−256: `pw` is z^(2k+1). -/
def atanhSeries (z2 : Nat) : Nat → Nat → Nat → Nat
  | 0, _, _ => 0
  | n + 1, k, pw => pw / (2 * k + 1) + atanhSeries z2 n (k + 1) (pw * z2 / 2 ^ 256)

/-- log2 m for 1 ≤ m < 2 in units of 2^−256, from below, off by less than 2^16 units. -/
def log2Frac (m : Rat) : Nat :=
  let z := ((m - 1) / (m + 1) * pow2 256).floor.natAbs
  2 * atanhSeries (z * z / 2 ^ 256) 90 0 z * 2 ^ 256 / (ln2Scaled + 1)

def rcpF32 (w : Word) : Word :=
  match f32 w with
  | .nan _ => toF32 (.nan false)
  | .inf s => toF32 (.num s 0)
  | .num s x => if x == 0 then toF32 (.inf s) else toF32 (.num s (1 / x))

def rsqF32 (w : Word) : Word :=
  match f32 w with
  | .nan _ => toF32 (.nan false)
  | .inf s => if s then toF32 (.nan false) else toF32 (.num false 0)
  | .num s x =>
    if x == 0 then toF32 (.inf s) else if s then toF32 (.nan false) else toF32 (.num false (sqrtApprox (1 / x)))

def ex2F32 (w : Word) : Word :=
  match f32 w with
  | .nan _ => toF32 (.nan false)
  | .inf s => if s then toF32 (.num false 0) else toF32 (.inf false)
  | .num s x =>
    let a := (FVal.num s x).toRat
    if a ≥ 128 then toF32 (.inf false)
    else if a ≤ -150 then toF32 (.num false 0)
    else
      let n := a.floor
      let fr := a - (n : Rat)
      if fr == 0 then toF32 (.num false (pow2 n))
      else toF32 (.num false (((exp2Frac fr + 2 ^ 16 : Nat) : Rat) * pow2 (n - 256)))

def lg2F32 (w : Word) : Word :=
  match f32 w with
  | .nan _ => toF32 (.nan false)
  | .inf s => if s then toF32 (.nan false) else toF32 (.inf false)
  | .num s x =>
    if x == 0 then toF32 (.inf true)
    else if s then toF32 (.nan false)
    else
      let e := floorLog2 x
      let m := x / pow2 e
      if m == 1 then toF32 (FVal.ofRat (e : Rat) false)
      else toF32 (FVal.ofRat ((e : Rat) + ((log2Frac m + 2 ^ 16 : Nat) : Rat) * pow2 (-256)) false)

/-- RoundNE(a × 2^n) (R75). An n beyond ±600 gives the same result as ±600. -/
def scaleF32 (w : Word) (n : Int) : Word :=
  match f32 w with
  | .nan _ => toF32 (.nan false)
  | .inf s => toF32 (.inf s)
  | .num s x => toF32 (.num s (x * pow2 (max (-600) (min 600 n))))

/-- FFLOOR (R75). -/
def floorF32 (w : Word) : Word :=
  match f32 w with
  | .nan _ => toF32 (.nan false)
  | .inf s => toF32 (.inf s)
  | .num s x => toF32 (FVal.ofRat ((FVal.num s x).toRat.floor : Rat) s)

/-- FRINT (R75). -/
def rintF32 (w : Word) : Word :=
  match f32 w with
  | .nan _ => toF32 (.nan false)
  | .inf s => toF32 (.inf s)
  | .num s x => toF32 (.num s (roundQuotient .ne x))

/-- DotSum of R78. -/
def dotSum (terms : List (FVal × FVal)) (d : FVal) : FVal :=
  let prods := terms.map fun p => p.1.mul p.2
  let all := prods ++ [d]
  if all.any FVal.isNaN || (all.contains (.inf true) && all.contains (.inf false)) then .nan false
  else if all.contains (.inf true) then .inf true
  else if all.contains (.inf false) then .inf false
  else FVal.ofRat ((all.map FVal.toRat).sum) (all.all fun x => x.isZero && x.sign)

/-- The tree of R32: five steps with strides 16, 8, 4, 2 and 1. -/
def laneTree (op : Word → Word → Word) (t : Nat → Word) : Word :=
  let s16 := fun i => op (t i) (t (i + 16))
  let s8 := fun i => op (s16 i) (s16 (i + 8))
  let s4 := fun i => op (s8 i) (s8 (i + 4))
  let s2 := fun i => op (s4 i) (s4 (i + 2))
  op (s2 0) (s2 1)

def faddW (a b : Word) : Word := toF32 ((f32 a).add (f32 b))
def fsubW (a b : Word) : Word := toF32 ((f32 a).sub (f32 b))
def fmulW (a b : Word) : Word := toF32 ((f32 a).mul (f32 b))
def fmaW (a b d : Word) : Word := toF32 (((f32 a).mul (f32 b)).add (f32 d))
def fmaxW (a b : Word) : Word := toF32 ((f32 a).max (f32 b))
def fminW (a b : Word) : Word := toF32 ((f32 a).min (f32 b))

/-- An operation on the two 16-bit elements of a packed word (R77). -/
def packed (f : Fmt) (op : FVal → FVal → FVal → FVal) (a b d : Word) : Word :=
  let el := fun (sh : Nat) =>
    BitVec.ofNat 16 (roundIeee f .ne (op (decodeNum f (a.extractLsb' sh 16).toNat)
      (decodeNum f (b.extractLsb' sh 16).toNat) (decodeNum f (d.extractLsb' sh 16).toNat)))
  el 16 ++ el 0

/-! Random numbers (R36, R37). -/

/-- The four words of a counter. -/
structure Ctr where
  w0 : Word
  w1 : Word
  w2 : Word
  w3 : Word
deriving DecidableEq, Repr

/-- Word i of a counter block, i in 0 to 3. -/
def Ctr.word (c : Ctr) (i : Nat) : Word :=
  match i % 4 with
  | 0 => c.w0 | 1 => c.w1 | 2 => c.w2 | _ => c.w3

/-- The rounds of Philox4x32. -/
def philoxRounds : Nat → Word → Word → Ctr → Ctr
  | 0, _, _, c => c
  | n + 1, k0, k1, c =>
    let p0 := (0xD2511F53 : DWord) * c.w0.setWidth 64
    let p1 := (0xCD9E8D57 : DWord) * c.w2.setWidth 64
    philoxRounds n (k0 + 0x9E3779B9) (k1 + 0xBB67AE85)
      ⟨p1.extractLsb' 32 32 ^^^ c.w1 ^^^ k0, p1.extractLsb' 0 32, p0.extractLsb' 32 32 ^^^ c.w3 ^^^ k1, p0.extractLsb' 0 32⟩

/-- Philox4x32_10 (R36) under a 64-bit key, low word first. -/
def philox (seed : DWord) (c : Ctr) : Ctr := philoxRounds 10 (seed.extractLsb' 0 32) (seed.extractLsb' 32 32) c

/-- The random word of a logical element index (R87, R88): word n mod 4 of the block of n >> 2. -/
def philoxElement (seed : DWord) (n : DWord) (layer step : Word) : Word :=
  let q := n >>> 2
  (philox seed ⟨q.extractLsb' 0 32, q.extractLsb' 32 32, layer, step⟩).word (n.extractLsb' 0 2).toNat

/-- EpilogueRandom (R37). -/
def epilogueRandom (seed : DWord) (tr tc i j : Nat) : Nat :=
  let n := 128 * i + j
  ((philox seed ⟨BitVec.ofNat 32 (n / 4), BitVec.ofNat 32 tr, BitVec.ofNat 32 tc, 0xFFFF_FFFF⟩).word (n % 4)).toNat % 65536

end Sys2Proof.Machine
end

