-- ==== Sys2Proof/Config.lean ====
section
/-!
DEFINITION. What an implementation fixes and the values the specification leaves open. Every constant here is
opaque: no proof can see what it is, so a theorem about it holds for every value.
-/
namespace Sys2Proof.Config

/-- The number of core-clock cycles that pass over one issue of a group (R16): timing is outside the model, so
the count that selector 9 returns grows by an unconstrained amount (DESIGN CHOICE, log entry 4). -/
opaque freeCycles : Nat → BitVec 64

/-- A value the specification leaves open, one fresh value for each reading of the counter. -/
opaque freeWord : Nat → BitVec 64

/-- The new 64-bit word of a Waldlink ATOMIC at its home: the encoding of the operation in ARG is not given
(R353; DESIGN CHOICE, log entry 21). Arguments: the 128 bits of ARG and the old word. -/
opaque peerAtomic : BitVec 128 → BitVec 64 → BitVec 64

/-- Whether an ECDSA P-384 signature verifies under boot-ROM key `KEYIDX` (R366). Arguments: the key index,
the signed bytes and the signature bytes. The vendor keys are not in the specification (DESIGN CHOICE, log entry 22). -/
opaque signatureVerifies : Nat → List (BitVec 8) → List (BitVec 8) → Bool

/-- The message whose HMAC-SHA-384 under the fused secret is the identity key's private half, and the bytes of the P-384 public
key of a private one (R368 gives neither; DESIGN CHOICE, log entry 22). -/
opaque identityInfo : List (BitVec 8)
opaque publicKey : BitVec 384 → List (BitVec 8)

/-- The signature that the security processor forms with the private identity key over the 304 report bytes
(R368, R369; DESIGN CHOICE, log entry 22). -/
opaque reportSignature : BitVec 384 → List (BitVec 8) → List (BitVec 8)

/-- The boot ROM's identity that M0 takes (R367; DESIGN CHOICE, log entry 22). -/
opaque bootRomIdentity : List (BitVec 8)

/-- How many KVREQ requests a context's queue holds beside one (R250 names a full queue and no depth; DESIGN CHOICE, log entry 24). -/
opaque kvQueueMore : Nat

/-- How many launches a context may have waiting in the pools beside one (R188 names its submission capacity and no number;
DESIGN CHOICE, log entry 29). Argument: the context. -/
opaque submissionMore : Nat → Nat

/-- How many supervisor cores the hub die has beyond the first (R278 gives no number; DESIGN CHOICE, log entry 40). -/
opaque moreSupervisors : Nat

/-- Whether a supervisor core serves a partition (R345 has launches of another partition than the thread's and names none for
it; DESIGN CHOICE, log entry 36). Arguments: the core, the partition. Some core serves each partition: `keeper` is one. -/
opaque serves : Nat → Nat → Bool
opaque keeper : Nat → Nat

/-- What the firmware stages set up before the supervisor runs, which the specification leaves to them (DESIGN CHOICE, log entry 40):
their writes to PARTDIES, QUAR and HSEMCTL in order, by register number and value. -/
opaque bootWrites : List (Nat × BitVec 64)

/-- The supervisor's own ASID and root table, and the bytes of HBM that the firmware writes, its page tables among
them (DESIGN CHOICE, log entry 40). -/
opaque bootAsid : BitVec 16
opaque bootRoot : BitVec 64
opaque bootMemory : List (Nat × BitVec 8)

end Sys2Proof.Config
end

