-- ==== Sys2Proof/Syntax.lean ====
section
/-!
DEFINITION. The instructions and the events of the Olugar OLG-7160: one constructor for each row of the opcode
table, in the table's order. A row with an encoding carries its fields as the word holds them (R41, R42); a row
without one is a step of the device (R4 of "What each step holds") and carries what names the step: the agent,
the die, the queue entry, or what an agent outside the device supplies.
-/
namespace Sys2Proof

/-- A unit of work: its context, its launch id in the context and its unit index (R183, R187). -/
structure UnitKey where
  ctx    : Nat
  launch : Word
  index  : Nat
deriving DecidableEq, Repr

/-- An agent that issues instructions: group `g` of a block, the CSQ thread that runs a unit, or a supervisor
thread (R99, R206, R278). -/
inductive Who where
  | group (u : UnitKey) (g : Nat)
  | thread (u : UnitKey)
  | sup (n : Nat)
deriving DecidableEq, Repr

/-- A core: its die, cluster and index in the cluster (R7). -/
structure CoreId where
  die     : Nat
  cluster : Nat
  core    : Nat
deriving DecidableEq, Repr

/-- Where a residue or parity checker sits (R339): an agent that issues instructions, a command of a die's copy
engines, DCE or update engine, or the MXE of a cluster. -/
inductive CheckSite where
  | agent (w : Who)
  | copy (die i : Nat)
  | dce (die i : Nat)
  | update (die i : Nat)
  | delivery (ctx : Nat) (run : Word)
  | mxe (die cluster cls : Nat)
  | hub
deriving DecidableEq, Repr

/-- One instruction, or one step of the device. -/
inductive Instr where
  /-- IADD (R73). -/
  | iadd (n : BitVec 1) (b : BitVec 7) (a : BitVec 7) (d : BitVec 7)
  /-- ISUB (R73). -/
  | isub (n : BitVec 1) (b : BitVec 7) (a : BitVec 7) (d : BitVec 7)
  /-- IADDS (R73). -/
  | iadds (n : BitVec 1) (b : BitVec 7) (a : BitVec 7) (d : BitVec 7)
  /-- ISUBS (R73). -/
  | isubs (n : BitVec 1) (b : BitVec 7) (a : BitVec 7) (d : BitVec 7)
  /-- IMUL (R73). -/
  | imul (n : BitVec 1) (b : BitVec 7) (a : BitVec 7) (d : BitVec 7)
  /-- IMULHI (R73). -/
  | imulhi (n : BitVec 1) (b : BitVec 7) (a : BitVec 7) (d : BitVec 7)
  /-- IMULHIU (R73). -/
  | imulhiu (n : BitVec 1) (b : BitVec 7) (a : BitVec 7) (d : BitVec 7)
  /-- IMAD (R73). -/
  | imad (b : BitVec 7) (a : BitVec 7) (d : BitVec 7)
  /-- IMIN (R73). -/
  | imin (n : BitVec 1) (b : BitVec 7) (a : BitVec 7) (d : BitVec 7)
  /-- IMAX (R73). -/
  | imax (n : BitVec 1) (b : BitVec 7) (a : BitVec 7) (d : BitVec 7)
  /-- UMIN (R73). -/
  | umin (n : BitVec 1) (b : BitVec 7) (a : BitVec 7) (d : BitVec 7)
  /-- UMAX (R73). -/
  | umax (n : BitVec 1) (b : BitVec 7) (a : BitVec 7) (d : BitVec 7)
  /-- AND (R73). -/
  | and (n : BitVec 1) (b : BitVec 7) (a : BitVec 7) (d : BitVec 7)
  /-- OR (R73). -/
  | or (n : BitVec 1) (b : BitVec 7) (a : BitVec 7) (d : BitVec 7)
  /-- XOR (R73). -/
  | xor (n : BitVec 1) (b : BitVec 7) (a : BitVec 7) (d : BitVec 7)
  /-- ANDN (R73). -/
  | andn (n : BitVec 1) (b : BitVec 7) (a : BitVec 7) (d : BitVec 7)
  /-- SHL (R73). -/
  | shl (n : BitVec 1) (b : BitVec 7) (a : BitVec 7) (d : BitVec 7)
  /-- SHR (R73). -/
  | shr (n : BitVec 1) (b : BitVec 7) (a : BitVec 7) (d : BitVec 7)
  /-- SRA (R73). -/
  | sra (n : BitVec 1) (b : BitVec 7) (a : BitVec 7) (d : BitVec 7)
  /-- ROTL (R73). -/
  | rotl (n : BitVec 1) (b : BitVec 7) (a : BitVec 7) (d : BitVec 7)
  /-- POPC (R73). -/
  | popc (n : BitVec 1) (a : BitVec 7) (d : BitVec 7)
  /-- CLZ (R73). -/
  | clz (n : BitVec 1) (a : BitVec 7) (d : BitVec 7)
  /-- BREV (R73). -/
  | brev (n : BitVec 1) (a : BitVec 7) (d : BitVec 7)
  /-- BFX (R74). -/
  | bfx (n : BitVec 1) (b : BitVec 7) (a : BitVec 7) (d : BitVec 7)
  /-- BFI (R74). -/
  | bfi (n : BitVec 1) (b : BitVec 7) (a : BitVec 7) (d : BitVec 7)
  /-- IABS (R73). -/
  | iabs (n : BitVec 1) (a : BitVec 7) (d : BitVec 7)
  /-- UDIV (R73). -/
  | udiv (n : BitVec 1) (b : BitVec 7) (a : BitVec 7) (d : BitVec 7)
  /-- UREM (R73). -/
  | urem (n : BitVec 1) (b : BitVec 7) (a : BitVec 7) (d : BitVec 7)
  /-- LEA (R73). -/
  | lea (n : BitVec 1) (b : BitVec 7) (a : BitVec 7) (d : BitVec 7)
  /-- LEA2 (R73). -/
  | lea2 (n : BitVec 1) (b : BitVec 7) (a : BitVec 7) (d : BitVec 7)
  /-- LEA4 (R73). -/
  | lea4 (n : BitVec 1) (b : BitVec 7) (a : BitVec 7) (d : BitVec 7)
  /-- LEA8 (R73). -/
  | lea8 (n : BitVec 1) (b : BitVec 7) (a : BitVec 7) (d : BitVec 7)
  /-- FADD (R75). -/
  | fadd (n : BitVec 1) (b : BitVec 7) (a : BitVec 7) (d : BitVec 7)
  /-- FSUB (R75). -/
  | fsub (n : BitVec 1) (b : BitVec 7) (a : BitVec 7) (d : BitVec 7)
  /-- FMUL (R75). -/
  | fmul (n : BitVec 1) (b : BitVec 7) (a : BitVec 7) (d : BitVec 7)
  /-- FMA (R75). -/
  | fma (b : BitVec 7) (a : BitVec 7) (d : BitVec 7)
  /-- FMIN (R75). -/
  | fmin (n : BitVec 1) (b : BitVec 7) (a : BitVec 7) (d : BitVec 7)
  /-- FMAX (R75). -/
  | fmax (n : BitVec 1) (b : BitVec 7) (a : BitVec 7) (d : BitVec 7)
  /-- FABS (R75). -/
  | fabs (n : BitVec 1) (a : BitVec 7) (d : BitVec 7)
  /-- FNEG (R75). -/
  | fneg (n : BitVec 1) (a : BitVec 7) (d : BitVec 7)
  /-- FRCP (R76). -/
  | frcp (n : BitVec 1) (a : BitVec 7) (d : BitVec 7)
  /-- FRSQ (R76). -/
  | frsq (n : BitVec 1) (a : BitVec 7) (d : BitVec 7)
  /-- FEX2 (R76). -/
  | fex2 (n : BitVec 1) (a : BitVec 7) (d : BitVec 7)
  /-- FLG2 (R76). -/
  | flg2 (n : BitVec 1) (a : BitVec 7) (d : BitVec 7)
  /-- FADD_BF2 (R77). -/
  | faddBf2 (n : BitVec 1) (b : BitVec 7) (a : BitVec 7) (d : BitVec 7)
  /-- FMUL_BF2 (R77). -/
  | fmulBf2 (n : BitVec 1) (b : BitVec 7) (a : BitVec 7) (d : BitVec 7)
  /-- FMA_BF2 (R77). -/
  | fmaBf2 (b : BitVec 7) (a : BitVec 7) (d : BitVec 7)
  /-- FMAX_BF2 (R77). -/
  | fmaxBf2 (n : BitVec 1) (b : BitVec 7) (a : BitVec 7) (d : BitVec 7)
  /-- FADD_HF2 (R77). -/
  | faddHf2 (n : BitVec 1) (b : BitVec 7) (a : BitVec 7) (d : BitVec 7)
  /-- FMUL_HF2 (R77). -/
  | fmulHf2 (n : BitVec 1) (b : BitVec 7) (a : BitVec 7) (d : BitVec 7)
  /-- FMA_HF2 (R77). -/
  | fmaHf2 (b : BitVec 7) (a : BitVec 7) (d : BitVec 7)
  /-- FMAX_HF2 (R77). -/
  | fmaxHf2 (n : BitVec 1) (b : BitVec 7) (a : BitVec 7) (d : BitVec 7)
  /-- FDOT2_BF (R78). -/
  | fdot2Bf (b : BitVec 7) (a : BitVec 7) (d : BitVec 7)
  /-- FDOT4_E4 (R78). -/
  | fdot4E4 (b : BitVec 7) (a : BitVec 7) (d : BitVec 7)
  /-- FDOT4_E5 (R78). -/
  | fdot4E5 (b : BitVec 7) (a : BitVec 7) (d : BitVec 7)
  /-- FDOT8_E2M1 (R78). -/
  | fdot8E2m1 (b : BitVec 7) (a : BitVec 7) (d : BitVec 7)
  /-- RADD_F (R79). -/
  | raddF (n : BitVec 1) (a : BitVec 7) (d : BitVec 7)
  /-- RMAX_F (R79). -/
  | rmaxF (n : BitVec 1) (a : BitVec 7) (d : BitVec 7)
  /-- RADD_I (R79). -/
  | raddI (n : BitVec 1) (a : BitVec 7) (d : BitVec 7)
  /-- RMAX_I (R79). -/
  | rmaxI (n : BitVec 1) (a : BitVec 7) (d : BitVec 7)
  /-- FSCALE (R75). -/
  | fscale (n : BitVec 1) (b : BitVec 7) (a : BitVec 7) (d : BitVec 7)
  /-- FFLOOR (R75). -/
  | ffloor (n : BitVec 1) (a : BitVec 7) (d : BitVec 7)
  /-- FRINT (R75). -/
  | frint (n : BitVec 1) (a : BitVec 7) (d : BitVec 7)
  /-- I2F (R80). -/
  | i2f (n : BitVec 1) (a : BitVec 7) (d : BitVec 7)
  /-- U2F (R80). -/
  | u2f (n : BitVec 1) (a : BitVec 7) (d : BitVec 7)
  /-- F2I (R80). -/
  | f2i (n : BitVec 1) (a : BitVec 7) (d : BitVec 7)
  /-- F2U (R80). -/
  | f2u (n : BitVec 1) (a : BitVec 7) (d : BitVec 7)
  /-- CVT_BF2 (R81). -/
  | cvtBf2 (n : BitVec 1) (b : BitVec 7) (a : BitVec 7) (d : BitVec 7)
  /-- CVT_HF2 (R81). -/
  | cvtHf2 (n : BitVec 1) (b : BitVec 7) (a : BitVec 7) (d : BitVec 7)
  /-- CVT_E4 (R82). -/
  | cvtE4 (b : BitVec 7) (a : BitVec 7) (d : BitVec 7)
  /-- CVT_E5 (R82). -/
  | cvtE5 (b : BitVec 7) (a : BitVec 7) (d : BitVec 7)
  /-- CVTSR_E4 (R82). -/
  | cvtsrE4 (b : BitVec 7) (a : BitVec 7) (d : BitVec 7)
  /-- CVTSR_E5 (R82). -/
  | cvtsrE5 (b : BitVec 7) (a : BitVec 7) (d : BitVec 7)
  /-- CVTSR_E3M2 (R82). -/
  | cvtsrE3m2 (b : BitVec 7) (a : BitVec 7) (d : BitVec 7)
  /-- CVTSR_E2M1 (R82). -/
  | cvtsrE2m1 (b : BitVec 7) (a : BitVec 7) (d : BitVec 7)
  /-- CVT_E3M2 (R82). -/
  | cvtE3m2 (a : BitVec 7) (d : BitVec 7)
  /-- CVT_E2M3 (R82). -/
  | cvtE2m3 (a : BitVec 7) (d : BitVec 7)
  /-- CVT_E2M1 (R82). -/
  | cvtE2m1 (a : BitVec 7) (d : BitVec 7)
  /-- CVTSR_BF (R82). -/
  | cvtsrBf (b : BitVec 7) (a : BitVec 7) (d : BitVec 7)
  /-- UNP_BF (R83). -/
  | unpBf (n : BitVec 1) (b : BitVec 7) (a : BitVec 7) (d : BitVec 7)
  /-- UNP_HF (R83). -/
  | unpHf (n : BitVec 1) (b : BitVec 7) (a : BitVec 7) (d : BitVec 7)
  /-- UNP_E4 (R83). -/
  | unpE4 (n : BitVec 1) (b : BitVec 7) (a : BitVec 7) (d : BitVec 7)
  /-- UNP_E5 (R83). -/
  | unpE5 (n : BitVec 1) (b : BitVec 7) (a : BitVec 7) (d : BitVec 7)
  /-- UNP_E3M2 (R83). -/
  | unpE3m2 (n : BitVec 1) (b : BitVec 7) (a : BitVec 7) (d : BitVec 7)
  /-- UNP_E2M3 (R83). -/
  | unpE2m3 (n : BitVec 1) (b : BitVec 7) (a : BitVec 7) (d : BitVec 7)
  /-- UNP_E2M1 (R83). -/
  | unpE2m1 (n : BitVec 1) (b : BitVec 7) (a : BitVec 7) (d : BitVec 7)
  /-- CVTSR_E2M3 (R82). -/
  | cvtsrE2m3 (b : BitVec 7) (a : BitVec 7) (d : BitVec 7)
  /-- ICMPEQ (R84). -/
  | icmpeq (n : BitVec 1) (b : BitVec 7) (a : BitVec 7) (d : BitVec 7)
  /-- ICMPLT (R84). -/
  | icmplt (n : BitVec 1) (b : BitVec 7) (a : BitVec 7) (d : BitVec 7)
  /-- ICMPLTU (R84). -/
  | icmpltu (n : BitVec 1) (b : BitVec 7) (a : BitVec 7) (d : BitVec 7)
  /-- ICMPLE (R84). -/
  | icmple (n : BitVec 1) (b : BitVec 7) (a : BitVec 7) (d : BitVec 7)
  /-- FCMPEQ (R84). -/
  | fcmpeq (n : BitVec 1) (b : BitVec 7) (a : BitVec 7) (d : BitVec 7)
  /-- FCMPLT (R84). -/
  | fcmplt (n : BitVec 1) (b : BitVec 7) (a : BitVec 7) (d : BitVec 7)
  /-- FCMPLE (R84). -/
  | fcmple (n : BitVec 1) (b : BitVec 7) (a : BitVec 7) (d : BitVec 7)
  /-- FCMPUN (R84). -/
  | fcmpun (n : BitVec 1) (b : BitVec 7) (a : BitVec 7) (d : BitVec 7)
  /-- SEL (R85). -/
  | sel (b : BitVec 7) (a : BitVec 7) (d : BitVec 7)
  /-- BALLOT (R85). -/
  | ballot (n : BitVec 1) (a : BitVec 7) (d : BitVec 7)
  /-- MATCH (R85). -/
  | matchLanes (n : BitVec 1) (a : BitVec 7) (d : BitVec 7)
  /-- LANEID (R85). -/
  | laneid (n : BitVec 1) (d : BitVec 7)
  /-- SHFL (R86). -/
  | shfl (n : BitVec 1) (b : BitVec 7) (a : BitVec 7) (d : BitVec 7)
  /-- SHFLUP (R86). -/
  | shflup (n : BitVec 1) (b : BitVec 7) (a : BitVec 7) (d : BitVec 7)
  /-- SHFLDN (R86). -/
  | shfldn (n : BitVec 1) (b : BitVec 7) (a : BitVec 7) (d : BitVec 7)
  /-- SHFLX (R86). -/
  | shflx (n : BitVec 1) (b : BitVec 7) (a : BitVec 7) (d : BitVec 7)
  /-- RNG4 (R87). -/
  | rng4 (n : BitVec 1) (b : BitVec 7) (a : BitVec 7) (d : BitVec 7)
  /-- RNGU (R87). -/
  | rngu (n : BitVec 1) (b : BitVec 7) (a : BitVec 7) (d : BitVec 7)
  /-- RNGB (R87). -/
  | rngb (n : BitVec 1) (b : BitVec 7) (a : BitVec 7) (d : BitVec 7)
  /-- MOV (R89). -/
  | mov (n : BitVec 1) (a : BitVec 7) (d : BitVec 7)
  /-- MOVG (R89). -/
  | movg (n : BitVec 1) (a : BitVec 7) (d : BitVec 7)
  /-- MOVVG (R89). -/
  | movvg (a : BitVec 7) (d : BitVec 7)
  /-- MOVVGL (R89). -/
  | movvgl (l : BitVec 5) (a : BitVec 7) (d : BitVec 7)
  /-- IADDI (R90). -/
  | iaddi (i : BitVec 10) (a : BitVec 7) (d : BitVec 7)
  /-- ANDI (R90). -/
  | andi (i : BitVec 10) (a : BitVec 7) (d : BitVec 7)
  /-- ORI (R90). -/
  | ori (i : BitVec 10) (a : BitVec 7) (d : BitVec 7)
  /-- XORI (R90). -/
  | xori (i : BitVec 10) (a : BitVec 7) (d : BitVec 7)
  /-- SHLI (R90). -/
  | shli (i : BitVec 5) (a : BitVec 7) (d : BitVec 7)
  /-- SHRI (R90). -/
  | shri (i : BitVec 5) (a : BitVec 7) (d : BitVec 7)
  /-- SRAI (R90). -/
  | srai (i : BitVec 5) (a : BitVec 7) (d : BitVec 7)
  /-- ICMPLTI (R90). -/
  | icmplti (i : BitVec 10) (a : BitVec 7) (d : BitVec 7)
  /-- ICMPEQI (R90). -/
  | icmpeqi (i : BitVec 10) (a : BitVec 7) (d : BitVec 7)
  /-- IMULI (R90). -/
  | imuli (i : BitVec 10) (a : BitVec 7) (d : BitVec 7)
  /-- MOVI (R91). -/
  | movi (i : BitVec 17) (d : BitVec 7)
  /-- MOVH (R91). -/
  | movh (i : BitVec 16) (d : BitVec 7)
  /-- SRD (R92). -/
  | srd (i : BitVec 10) (d : BitVec 7)
  /-- IADD_16 (R41). -/
  | iadd16 (n : BitVec 1) (a : BitVec 5) (d : BitVec 5)
  /-- ISUB_16 (R41). -/
  | isub16 (n : BitVec 1) (a : BitVec 5) (d : BitVec 5)
  /-- IMUL_16 (R41). -/
  | imul16 (n : BitVec 1) (a : BitVec 5) (d : BitVec 5)
  /-- AND_16 (R41). -/
  | and16 (n : BitVec 1) (a : BitVec 5) (d : BitVec 5)
  /-- OR_16 (R41). -/
  | or16 (n : BitVec 1) (a : BitVec 5) (d : BitVec 5)
  /-- XOR_16 (R41). -/
  | xor16 (n : BitVec 1) (a : BitVec 5) (d : BitVec 5)
  /-- SHLI_16 (R41). -/
  | shli16 (n : BitVec 1) (i : BitVec 5) (d : BitVec 5)
  /-- SHRI_16 (R41). -/
  | shri16 (n : BitVec 1) (i : BitVec 5) (d : BitVec 5)
  /-- MOV_16 (R41). -/
  | mov16 (n : BitVec 1) (a : BitVec 5) (d : BitVec 5)
  /-- MOVI5 (R41). -/
  | movi5 (n : BitVec 1) (i : BitVec 5) (d : BitVec 5)
  /-- FADD_16 (R41). -/
  | fadd16 (n : BitVec 1) (a : BitVec 5) (d : BitVec 5)
  /-- FSUB_16 (R41). -/
  | fsub16 (n : BitVec 1) (a : BitVec 5) (d : BitVec 5)
  /-- FMUL_16 (R41). -/
  | fmul16 (n : BitVec 1) (a : BitVec 5) (d : BitVec 5)
  /-- FMAX_16 (R41). -/
  | fmax16 (n : BitVec 1) (a : BitVec 5) (d : BitVec 5)
  /-- ICMPLT_16 (R41). -/
  | icmplt16 (n : BitVec 1) (a : BitVec 5) (d : BitVec 5)
  /-- NOP (R41). -/
  | nop
  /-- GADD (R93). -/
  | gadd (b : BitVec 7) (a : BitVec 7) (d : BitVec 7)
  /-- GSUB (R93). -/
  | gsub (b : BitVec 7) (a : BitVec 7) (d : BitVec 7)
  /-- GMUL (R93). -/
  | gmul (b : BitVec 7) (a : BitVec 7) (d : BitVec 7)
  /-- GMAD (R93). -/
  | gmad (b : BitVec 7) (a : BitVec 7) (d : BitVec 7)
  /-- GAND (R93). -/
  | gand (b : BitVec 7) (a : BitVec 7) (d : BitVec 7)
  /-- GOR (R93). -/
  | gor (b : BitVec 7) (a : BitVec 7) (d : BitVec 7)
  /-- GXOR (R93). -/
  | gxor (b : BitVec 7) (a : BitVec 7) (d : BitVec 7)
  /-- GANDN (R93). -/
  | gandn (b : BitVec 7) (a : BitVec 7) (d : BitVec 7)
  /-- GSHL (R93). -/
  | gshl (b : BitVec 7) (a : BitVec 7) (d : BitVec 7)
  /-- GSHR (R93). -/
  | gshr (b : BitVec 7) (a : BitVec 7) (d : BitVec 7)
  /-- GSRA (R93). -/
  | gsra (b : BitVec 7) (a : BitVec 7) (d : BitVec 7)
  /-- GMIN (R93). -/
  | gmin (b : BitVec 7) (a : BitVec 7) (d : BitVec 7)
  /-- GCMPEQ (R93). -/
  | gcmpeq (b : BitVec 7) (a : BitVec 7) (d : BitVec 7)
  /-- GCMPLT (R93). -/
  | gcmplt (b : BitVec 7) (a : BitVec 7) (d : BitVec 7)
  /-- GCMPLTU (R93). -/
  | gcmpltu (b : BitVec 7) (a : BitVec 7) (d : BitVec 7)
  /-- GMAX (R93). -/
  | gmax (b : BitVec 7) (a : BitVec 7) (d : BitVec 7)
  /-- GADDI (R93). -/
  | gaddi (i : BitVec 10) (a : BitVec 7) (d : BitVec 7)
  /-- GMOVI (R43). -/
  | gmovi (i : BitVec 17) (d : BitVec 7)
  /-- GSHI16 (R43). -/
  | gshi16 (i : BitVec 16) (d : BitVec 7)
  /-- GSRD (R94). -/
  | gsrd (b : BitVec 7) (d : BitVec 7)
  /-- GSWR (R94). -/
  | gswr (b : BitVec 7) (a : BitVec 7)
  /-- XLT (R97). -/
  | xlt (b : BitVec 7) (a : BitVec 7) (d : BitVec 7)
  /-- GMOV (R94). -/
  | gmov (a : BitVec 7) (d : BitVec 7)
  /-- BRA (R98). -/
  | bra (x : BitVec 17)
  /-- BRG (R98). -/
  | brg (x : BitVec 17) (p : BitVec 7)
  /-- BRZG (R98). -/
  | brzg (x : BitVec 17) (p : BitVec 7)
  /-- BRV (R101). -/
  | brv (x : BitVec 17) (p : BitVec 7)
  /-- CALL (R98). -/
  | call (x : BitVec 17)
  /-- RET (R98). -/
  | ret
  /-- JMPG (R98). -/
  | jmpg (a : BitVec 7)
  /-- FUSE (R102). -/
  | fuse
  /-- EXIT (R105). -/
  | exit
  /-- EMRD (R104). -/
  | emrd (d : BitVec 7)
  /-- EMWR (R104). -/
  | emwr (a : BitVec 7)
  /-- YIELD (R106). -/
  | yield
  /-- BKPT (R106). -/
  | bkpt
  /-- MSKIP (R103). -/
  | mskip (x : BitVec 17) (p : BitVec 7)
  /-- LD_32 (R135). -/
  | ld32 (f : BitVec 5) (a : BitVec 7) (d : BitVec 7)
  /-- LD_64 (R135). -/
  | ld64 (f : BitVec 5) (a : BitVec 7) (d : BitVec 7)
  /-- LD_128 (R135). -/
  | ld128 (f : BitVec 5) (a : BitVec 7) (d : BitVec 7)
  /-- LD_16 (R135). -/
  | ld16 (f : BitVec 5) (a : BitVec 7) (d : BitVec 7)
  /-- ST_32 (R135). -/
  | st32 (f : BitVec 5) (a : BitVec 7) (d : BitVec 7)
  /-- ST_64 (R135). -/
  | st64 (f : BitVec 5) (a : BitVec 7) (d : BitVec 7)
  /-- ST_128 (R135). -/
  | st128 (f : BitVec 5) (a : BitVec 7) (d : BitVec 7)
  /-- ST_16 (R135). -/
  | st16 (f : BitVec 5) (a : BitVec 7) (d : BitVec 7)
  /-- LD_8 (R135). -/
  | ld8 (f : BitVec 5) (a : BitVec 7) (d : BitVec 7)
  /-- ST_8 (R135). -/
  | st8 (f : BitVec 5) (a : BitVec 7) (d : BitVec 7)
  /-- LDNB (R138). -/
  | ldnb (f : BitVec 5) (a : BitVec 7) (d : BitVec 7)
  /-- STVA (R138). -/
  | stva (f : BitVec 5) (a : BitVec 7) (d : BitVec 7)
  /-- ATADD (R142). -/
  | atadd (c : BitVec 3) (f : BitVec 5) (a : BitVec 7) (d : BitVec 7)
  /-- ATMAX (R142). -/
  | atmax (c : BitVec 3) (f : BitVec 5) (a : BitVec 7) (d : BitVec 7)
  /-- ATXCH (R142). -/
  | atxch (c : BitVec 3) (f : BitVec 5) (a : BitVec 7) (d : BitVec 7)
  /-- ATCAS (R142). -/
  | atcas (c : BitVec 3) (f : BitVec 5) (a : BitVec 7) (d : BitVec 7)
  /-- ATOR (R142). -/
  | ator (c : BitVec 3) (f : BitVec 5) (a : BitVec 7) (d : BitVec 7)
  /-- ATAND (R142). -/
  | atand (c : BitVec 3) (f : BitVec 5) (a : BitVec 7) (d : BitVec 7)
  /-- ATFADD (R142). -/
  | atfadd (c : BitVec 3) (f : BitVec 5) (a : BitVec 7) (d : BitVec 7)
  /-- ATMIN (R142). -/
  | atmin (c : BitVec 3) (f : BitVec 5) (a : BitVec 7) (d : BitVec 7)
  /-- FENCE (R143). -/
  | fence (c : BitVec 3) (f : BitVec 5)
  /-- FENCE_E (R143). -/
  | fenceE (c : BitVec 3) (f : BitVec 5)
  /-- LDAQ (R144). -/
  | ldaq (c : BitVec 3) (f : BitVec 5) (a : BitVec 7) (d : BitVec 7)
  /-- STRL (R144). -/
  | strl (c : BitVec 3) (f : BitVec 5) (a : BitVec 7) (d : BitVec 7)
  /-- GLD (R145). -/
  | gld (f : BitVec 5) (a : BitVec 7) (d : BitVec 7)
  /-- GST (R145). -/
  | gst (f : BitVec 5) (a : BitVec 7) (d : BitVec 7)
  /-- GLDAQ (R145). -/
  | gldaq (c : BitVec 3) (f : BitVec 5) (a : BitVec 7) (d : BitVec 7)
  /-- GSTRL (R145). -/
  | gstrl (c : BitVec 3) (f : BitVec 5) (a : BitVec 7) (d : BitVec 7)
  /-- TDEF (R146). -/
  | tdef (b : BitVec 7) (a : BitVec 7)
  /-- TQRY (R146). -/
  | tqry (b : BitVec 7) (a : BitVec 7) (d : BitVec 7)
  /-- TFREE (R146). -/
  | tfree (a : BitVec 7)
  /-- TSCL (R146). -/
  | tscl (b : BitVec 7) (a : BitVec 7)
  /-- CPY (R154). -/
  | cpy (b : BitVec 7) (a : BitVec 7) (d : BitVec 7)
  /-- CPYT (R155). -/
  | cpyt (b : BitVec 7) (a : BitVec 7) (d : BitVec 7)
  /-- GATH (R156). -/
  | gath (b : BitVec 7) (a : BitVec 7) (d : BitVec 7)
  /-- SCAT (R156). -/
  | scat (b : BitVec 7) (a : BitVec 7) (d : BitVec 7)
  /-- BALLOC (R148). -/
  | balloc (b : BitVec 7) (a : BitVec 7) (d : BitVec 7)
  /-- BFREE (R149). -/
  | bfree (a : BitVec 7)
  /-- BEXP (R150). -/
  | bexp (b : BitVec 7) (a : BitVec 7)
  /-- BARV (R150). -/
  | barv (b : BitVec 7) (a : BitVec 7) (d : BitVec 7)
  /-- BWAIT (R151). -/
  | bwait (b : BitVec 7) (a : BitVec 7) (d : BitVec 7)
  /-- BWAITT (R151). -/
  | bwaitt (b : BitVec 7) (a : BitVec 7) (d : BitVec 7)
  /-- BTEST (R151). -/
  | btest (a : BitVec 7) (d : BitVec 7)
  /-- BREF (R149). -/
  | bref (b : BitVec 7) (a : BitVec 7) (d : BitVec 7)
  /-- MFEED (R212). -/
  | mfeed (a : BitVec 7)
  /-- MDRAIN (R230). -/
  | mdrain (a : BitVec 7)
  /-- MSIG (R231). -/
  | msig (b : BitVec 7) (a : BitVec 7) (d : BitVec 7)
  /-- MRECV (R231). -/
  | mrecv (d : BitVec 7)
  /-- DATT (R243). -/
  | datt (b : BitVec 7) (a : BitVec 7)
  /-- DDIST (R245). -/
  | ddist (b : BitVec 7) (a : BitVec 7)
  /-- DTOPK (R246). -/
  | dtopk (b : BitVec 7) (a : BitVec 7)
  /-- DKVAP (R247). -/
  | dkvap (b : BitVec 7) (a : BitVec 7)
  /-- KVRES (R249). -/
  | kvres (a : BitVec 7) (d : BitVec 7)
  /-- KVREQ (R250). -/
  | kvreq (b : BitVec 7) (a : BitVec 7) (d : BitVec 7)
  /-- KVPIN (R251). -/
  | kvpin (b : BitVec 7) (a : BitVec 7) (d : BitVec 7)
  /-- KVREL (R251). -/
  | kvrel (b : BitVec 7) (a : BitVec 7) (d : BitVec 7)
  /-- LNCH (R187). -/
  | lnch (b : BitVec 7) (a : BitVec 7) (d : BitVec 7)
  /-- LNCHC (R190). -/
  | lnchc (b : BitVec 7) (a : BitVec 7) (d : BitVec 7)
  /-- CANCEL (R193). -/
  | cancel (a : BitVec 7) (d : BitVec 7)
  /-- CCNT (R192). -/
  | ccnt (a : BitVec 7) (d : BitVec 7)
  /-- TICKET (R262). -/
  | ticket (a : BitVec 7) (d : BitVec 7)
  /-- REDEEM (R266). -/
  | redeem (b : BitVec 7) (a : BitVec 7) (d : BitVec 7)
  /-- TKQRY (R264). -/
  | tkqry (b : BitVec 7) (a : BitVec 7) (d : BitVec 7)
  /-- TKDROP (R263). -/
  | tkdrop (a : BitVec 7) (d : BitVec 7)
  /-- UPD (R272). -/
  | upd (b : BitVec 7) (a : BitVec 7)
  /-- WVPUB (R273). -/
  | wvpub (a : BitVec 7) (d : BitVec 7)
  /-- WVRET (R274). -/
  | wvret (b : BitVec 7) (a : BitVec 7) (d : BitVec 7)
  /-- NORM (R271). -/
  | norm (b : BitVec 7) (a : BitVec 7)
  /-- REGQ (R108). -/
  | regq (b : BitVec 7) (a : BitVec 7) (d : BitVec 7)
  /-- SNAPM (R201). -/
  | snapm (d : BitVec 7)
  /-- PGREQ (R157). -/
  | pgreq (b : BitVec 7) (a : BitVec 7) (d : BitVec 7)
  /-- TRAP (R107). -/
  | trap (t : BitVec 4) (a : BitVec 7)
  /-- MMA (R216). -/
  | mma (b : BitVec 7) (a : BitVec 7) (d : BitVec 7)
  /-- MMA_SP (R217). -/
  | mmaSp (b : BitVec 7) (a : BitVec 7) (d : BitVec 7)
  /-- MMAZ (R216). -/
  | mmaz (b : BitVec 7) (a : BitVec 7) (d : BitVec 7)
  /-- MMAZ_SP (R217). -/
  | mmazSp (b : BitVec 7) (a : BitVec 7) (d : BitVec 7)
  /-- EPQ (R225). -/
  | epq (b : BitVec 7) (a : BitVec 7) (d : BitVec 7)
  /-- EPST (R226). -/
  | epst (b : BitVec 7) (a : BitVec 7) (d : BitVec 7)
  /-- EPOV (R227). -/
  | epov (b : BitVec 7) (a : BitVec 7) (d : BitVec 7)
  /-- ACCZ (R227). -/
  | accz (b : BitVec 7) (a : BitVec 7) (d : BitVec 7)
  /-- MBATCH (R222). -/
  | mbatch (d : BitVec 7)
  /-- MWAIT (R223). -/
  | mwait (a : BitVec 7) (d : BitVec 7)
  /-- MCLASS (R220). -/
  | mclass (a : BitVec 7)
  /-- MYLD (R221). -/
  | myld
  /-- MQUAD (R211). -/
  | mquad (b : BitVec 7) (a : BitVec 7) (d : BitVec 7)
  /-- MSCALE (R218). -/
  | mscale (b : BitVec 7) (a : BitVec 7)
  /-- CSRR (R283). -/
  | csrr (a : BitVec 7) (d : BitVec 7)
  /-- CSRW (R283). -/
  | csrw (b : BitVec 7) (a : BitVec 7) (d : BitVec 7)
  /-- CSRS (R283). -/
  | csrs (b : BitVec 7) (a : BitVec 7) (d : BitVec 7)
  /-- CSRC (R283). -/
  | csrc (b : BitVec 7) (a : BitVec 7) (d : BitVec 7)
  /-- TLBI (R315). -/
  | tlbi (b : BitVec 7) (a : BitVec 7)
  /-- TLBIA (R315). -/
  | tlbia (a : BitVec 7)
  /-- PREFW (R317). -/
  | prefw (b : BitVec 7) (a : BitVec 7)
  /-- ZERO (R284). -/
  | zeroRange (b : BitVec 7) (a : BitVec 7) (d : BitVec 7)
  /-- ERET (R279). -/
  | eret
  /-- HALT (R284). -/
  | halt
  /-- HIRQ (R284). -/
  | hirq (a : BitVec 7)
  /-- RTCHK (R359). -/
  | rtchk (a : BitVec 7) (d : BitVec 7)
  /-- CTXSV (R296). -/
  | ctxsv (b : BitVec 7) (a : BitVec 7) (d : BitVec 7)
  /-- CTXLD (R301). -/
  | ctxld (b : BitVec 7) (a : BitVec 7) (d : BitVec 7)
  /-- SNAPB (R345). -/
  | snapb (a : BitVec 7) (d : BitVec 7)
  /-- SNAPC (R345). -/
  | snapc (b : BitVec 7) (a : BitVec 7) (d : BitVec 7)
  /-- STORE_PERFORM (R135). -/
  | storePerform (w : Who)
  /-- TIMED_STORE_PERFORM (R138). -/
  | timedStorePerform (core : CoreId) (i : Nat)
  /-- LDNB_PERFORM (R138). -/
  | ldnbPerform (w : Who)
  /-- GATH_STATUS_ARRIVE (R156). -/
  | gathStatusArrive (die i : Nat)
  /-- BARV_ARRIVAL (R150). -/
  | barvArrival (w : Who)
  /-- BWAIT_RETURN (R151). -/
  | bwaitReturn (w : Who)
  /-- BWAITT_TIMEOUT (R151). -/
  | bwaittTimeout (w : Who)
  /-- COPY_COMMAND_COMPLETE (R154). -/
  | copyCommandComplete (die i : Nat)
  /-- CPYT_WRITE_RELEASE (R155). -/
  | cpytWriteRelease (die i : Nat)
  /-- BULK_QUEUE_PUBLISH (R202). -/
  | bulkQueuePublish (u : UnitKey)
  /-- BULK_ENTRY_START (R160). -/
  | bulkEntryStart (die : Nat)
  /-- BULK_ENTRY_COMPLETE (R161). -/
  | bulkEntryComplete (die i : Nat)
  /-- COMPLETION_RECORD_WRITE (R161). -/
  | completionRecordWrite (u : UnitKey)
  /-- PAGE_REQUEST_COMPLETE (R318). -/
  | pageRequestComplete (part i : Nat)
  /-- LAUNCH_ANSWER (R303). -/
  | launchAnswer (w : Who)
  /-- UNIT_ADMIT (R293). -/
  | unitAdmit (u : UnitKey) (die cluster : Nat) (cores : List Nat)
  /-- LAUNCH_BECOMES_BLOCKING (R294). -/
  | launchBecomesBlocking (ctx : Nat) (id : Word)
  /-- LAUNCH_COMPLETE (R191). -/
  | launchComplete (ctx : Nat) (id : Word)
  /-- LAUNCH_COMMIT (R341). -/
  | launchCommit (ctx : Nat) (id : Word)
  /-- SNAPM_RELEASE (R201). -/
  | snapmRelease (ctx : Nat) (id : Word)
  /-- SLOT_RELEASE (R105). -/
  | slotRelease (w : Who)
  /-- PREEMPTION_STOP (R336). -/
  | preemptionStop (u : UnitKey)
  /-- MXE_STEP (R219). -/
  | mxeStep (die cluster : Nat)
  /-- MQUAD_INSTALL (R211). -/
  | mquadInstall (w : Who)
  /-- MWAIT_RETURN (R223). -/
  | mwaitReturn (w : Who)
  /-- MDRAIN_READ (R230). -/
  | mdrainRead (w : Who)
  /-- MRECV_WAKE (R231). -/
  | mrecvWake (w : Who)
  /-- DCE_PAGE (R240). -/
  | dcePage (die : Nat)
  /-- KV_REQUEST_COMPLETE (R250). -/
  | kvRequestComplete (ctx i : Nat) (frames : List Nat)
  /-- KV_VICTIM_ACTION (R253). -/
  | kvVictimAction (ctx : Nat)
  /-- UPD_START (R272). -/
  | updStart (die i : Nat)
  /-- UPD_TILE_COMMIT (R272). -/
  | updTileCommit (die i : Nat)
  /-- NORM_APPLY (R271). -/
  | normApply (die i : Nat)
  /-- STAGING_BUFFER_TAKE (R268). -/
  | stagingBufferTake (ctx : Nat) (id : Word)
  /-- DELIVERY (R269). -/
  | delivery (ctx : Nat) (id : Word)
  /-- REPLICA_COMMIT (R179). -/
  | replicaCommit (i : Nat)
  /-- REPLICA_LOCK_TIMEOUT (R180). -/
  | replicaLockTimeout (die i : Nat)
  /-- PAGE_WALK (R313). -/
  | pageWalk (die ctx : Nat) (va : BitVec 56) (write : Bool)
  /-- WALK_SLOT_GRANT (R311). -/
  | walkSlotGrant (die : Nat)
  /-- HSEM_CLAIM (R287). -/
  | hsemClaim (port : Bool) (token : Half)
  /-- HSEM_RELEASE (R287). -/
  | hsemRelease (port : Bool) (token : Half)
  /-- HOST_LINK_DOWN (R287). -/
  | hostLinkDown (port : Bool)
  /-- BAR0_CONTROL_WRITE (R287). -/
  | bar0ControlWrite (port : Bool) (offset : Nat) (value : DWord)
  /-- HOST_HDM_ACCESS (R289). -/
  | hostHdmAccess (port write : Bool) (pa : Nat) (data : List Byte)
  /-- SUBMISSION_RING_TAKE (R290). -/
  | submissionRingTake (ctx : Nat)
  /-- ATTESTATION_REQUEST (R369). -/
  | attestationRequest (port : Bool) (nonce : List Byte)
  /-- FAULT_RECORD_DELIVER (R324). -/
  | faultRecordDeliver
  /-- FAULT_RING_DRAIN (R324). -/
  | faultRingDrain (part : Nat)
  /-- ROLLBACK (R343). -/
  | rollback (ctx : Nat) (id : Word)
  /-- CONTEXT_CREATE (R281). -/
  | contextCreate (ctx : Nat) (cfg : DWord)
  /-- CONTEXT_END (R281). -/
  | contextEnd (ctx : Nat)
  /-- ASID_CHANGE (R309). -/
  | asidChange (ctx : Nat) (asid : Bool) (value : DWord)
  /-- FACT_NONE (R330). -/
  | factNone (ctx : Nat) (id : Word)
  /-- FACT_KILL (R330). -/
  | factKill (ctx : Nat) (id : Word)
  /-- FACT_REPLAY (R330). -/
  | factReplay (ctx : Nat) (id : Word)
  /-- FACT_RESUME (R330). -/
  | factResume (ctx : Nat) (id : Word)
  /-- TOPO_RELOAD (R359). -/
  | topoReload (value : DWord)
  /-- ROUTES_RELOAD (R359). -/
  | routesReload (value : DWord)
  /-- HALT_RESUME (R284). -/
  | haltResume (w : Who)
  /-- ECC_CORRECTED (R338). -/
  | eccCorrected (die : Nat) (frame : Option Nat)
  /-- ECC_UNCORRECTABLE (R338). -/
  | eccUncorrectable (key : Nat)
  /-- ROW_RETIRE (R348). -/
  | rowRetire (pa : Nat)
  /-- CHECKER_MISMATCH (R339). -/
  | checkerMismatch (site : CheckSite) (parity : Bool)
  /-- WARM_RESET (R346). -/
  | warmReset (die : Nat) (cause : Byte)
  /-- THROTTLE_EVENT (R370). -/
  | throttleEvent (die : Nat)
  /-- THERMAL_LIMIT (R370); `within` tells a limit that is reached again within 1 s of the last. -/
  | thermalLimit (die : Nat) (within : Bool)
  /-- COLD_POWER_ON (R365). -/
  | coldPowerOn
  /-- DIGEST (R352). -/
  | digest (model : Nat) (ctx : Nat) (version : Word) (digest : BitVec 128) (chk : Word)
  /-- DIGEST_TIMEOUT (R352). -/
  | digestTimeout (ctx model : Nat)
  /-- READ (R316). -/
  | read (i : Nat)
  /-- WRITE (R316). -/
  | write (i : Nat)
  /-- ATOMIC (R316). -/
  | atomic (i : Nat)
  /-- RDDATA (R361). -/
  | rddata (i : Nat)
  /-- WRACK (R361). -/
  | wrack (i : Nat)
  /-- ATRSP (R361). -/
  | atrsp (i : Nat)
  /-- SYNC (R363). -/
  | sync (t2 : DWord)
  /-- FOLLOW (R363). -/
  | follow (t1 : DWord)
  /-- DREQ (R363). -/
  | dreq (port : Nat) (t4 : DWord)
  /-- DRSP (R363). -/
  | drsp (t4 : DWord)
  /-- PACKET_FORWARD (R354). -/
  | packetForward (port : Nat) (header : BitVec 512) (data : List Byte)
  /-- FLOW_STOP (R360). -/
  | flowStop (port vc : Nat) (here : Bool)
  /-- FLOW_GO (R360). -/
  | flowGo (port vc : Nat) (here : Bool)
  /-- LINK_DOWN (R353). -/
  | linkDown (port : Nat)
  /-- LINK_STATE_CHANGE (R356). -/
  | linkStateChange (port : Nat) (ls : BitVec 2)
  /-- PEER_REQUEST_TIMEOUT (R361). -/
  | peerRequestTimeout (i : Nat)
  /-- TIME_EXCHANGE_START (R363). -/
  | timeExchangeStart (port : Nat)
  /-- PACKAGE_TIME_EXCHANGE (R362). -/
  | packageTimeExchange (die : Nat) (measured : DWord)
  /-- PTM_SYNC (R363). -/
  | ptmSync (ns : DWord)
  /-- DISCIPLINE_LOSS (R364). -/
  | disciplineLoss (die : Nat)
  /-- DIE_TIME_TICK (R362). -/
  | dieTimeTick (die : Nat) (add : Nat)
  /-- WORD_THAT_DOES_NOT_EXECUTE (R57). -/
  | wordThatDoesNotExecute (w : Word)
  /-- LINK_LEVEL_REPLAY (R353). -/
  | linkLevelReplay (port : Nat)
  /-- HOST_LINK_UP (R287). -/
  | hostLinkUp (port : Bool)
  /-- POWER_OFF (R367). -/
  | powerOff
  /-- THROTTLE_END (R370). -/
  | throttleEnd (die : Nat)
  /-- ZERO_COMPLETE (R284). -/
  | zeroComplete (w : Who)
deriving DecidableEq, Repr

end Sys2Proof
end

