-- ==== Sys2Proof/Machine/State.lean ====
section
/-!
DEFINITION. The state of the OLG-7160 package: every piece of state the specification names, as plain data. A
`Store` is a canonical list of (number, value) pairs; an unlisted number holds the store's default value.
-/
namespace Sys2Proof.Machine

/-- A sparse file of values by number: numbers strictly rising, no entry equal to the default. -/
abbrev Store (α : Type) := List (Nat × α)

/-- Memory by location number (Ops.lean says which number a location has), in one canonical form. -/
abbrev Memory := List Host.Cell

/-- The causes of Table 1 of Traps and Faults (R322). -/
inductive Cause where
  | illegalOpcode | illegalField | illegalRegister | latchChain | quota | wrongUnit | privileged | illegalScope
  | pcAlign | zeroHalfword | splitDepth | breakpoint
  | pipeResidue | pipeParity
  | range | align | genStore | tensorRecord | tensorId | tensorExtent | spillOverflow | genOff
  | pageNotPresent | permission | asid | pteContention | replicaLockTimeout | pteFormat
  | deadlineMissed | timedInDet | timeUndisciplined
  | barrierHandle | barrierOvercount | copyFault | queueEntry | mxOperand | dceParam
  | ticketUnknown | ticketVersionRetired | shelfFull | updateParam
  | mergeConflict | detViolation
  | routeTurn | routePort | hopLimit | linkDown
  | uncorrectable | digestMismatch | thermal
  | partition | hsem | contextBusy
  | software (n : BitVec 4)
deriving DecidableEq, Repr

/-- The kinds of fault that make a record (R320). -/
inductive FaultKind where
  | precise | postEffect | asynchronous
deriving DecidableEq, Repr

/-- The unit kinds that issue instructions (R58, R278). -/
inductive Kind where
  | core | csq | sup
deriving DecidableEq, Repr

/-- Where an agent runs; die 8 is the hub die. -/
structure Place where
  die     : Nat
  cluster : Nat
  core    : Nat
  slot    : Nat
deriving DecidableEq, Repr

/-- Whose addresses a translation register's FRAME is one of: the device's, those of memory behind a host port by its
type, or a peer's, which go by VA (R162, R307, R316). -/
inductive XtSpace where
  | device
  | outer (mt port : Nat)
  | peer (node : Nat) (pasid : Half)
deriving DecidableEq, Repr

/-- A translation register (R96), with the space of its FRAME (DESIGN CHOICE, log entry 55). -/
structure Xt where
  vbase : BitVec 56
  frame : BitVec 52
  space : XtSpace
  limit : Word
  perm  : BitVec 2
  /-- The level of the page that it is a translation of (R97, R315). -/
  level : Nat
deriving DecidableEq, Repr

/-- The four bypass latches; `none` is void (R50). -/
structure Latches where
  b0 : Option Lanes
  b1 : Option Lanes
  b2 : Option Lanes
  b3 : Option Lanes
deriving DecidableEq, Repr

/-- An entry of a serial stack (R101, R102). -/
structure SerialEntry where
  f       : Word
  pc      : Word
  dormant : Word
  phase   : Bool
  ls      : Word
  em      : Word
  fusePc  : Word
deriving DecidableEq, Repr

/-- A lane-register write of a chain that has not yet ended (R53): the lanes of `mask` take `vals`. -/
structure HeldV where
  reg  : Nat
  mask : Word
  vals : Lanes
deriving DecidableEq, Repr

/-- What a sub-group waits for; its chain is not ended while it waits (R99, R140). -/
inductive Wait where
  | none
  /-- LDNB: destination, lanes and their addresses, time T (R138), the window records that stood at its issue (R128)
  and the die's throttle count then (R332). -/
  | ldnb (d : Nat) (lanes : List (Nat × Nat)) (time : DWord) (windows : Store (BitVec 256)) (throttle : DWord)
  /-- BWAIT and BWAITT: destination, barrier entry, parity, deadline (R151). -/
  | bwait (d bar : Nat) (parity : Bool) (deadline : Option DWord)
  /-- LNCH and LNCHC: destination, the record's address, barrier entry and its handle, co-operative (R187). -/
  | launch (d ea : Nat) (bar : Option Nat) (handle : Half) (coop : Bool)
  | mwait (d : Nat) (batch : Half)
  | mquad (d : Nat) (a b : DWord)
  | mdrain (op : DWord)
  | mrecv (d : Nat)
  | snapm (d : Nat)
  | ctxsv (d : Nat) (u : UnitKey) (image : BitVec 56)
  /-- CSRW, CSRS and CSRC, by 1 to 3, of a register whose change takes time (R281, R283, R309, R330, R359): destination,
  selector, operand. -/
  | csr (d : Nat) (sel : DWord) (op : Nat) (arg : DWord)
  /-- CTXLD of an image in a peer's memory (R301, R316): destination, image, placement word, bytes asked for. -/
  | ctxld (d : Nat) (image : BitVec 56) (place : DWord) (upto : Nat)
  /-- RTCHK of a route record in a peer's memory (R359, R361): destination and VA. -/
  | rtchk (d : Nat) (va : BitVec 56)
  /-- SNAPC with a rollback (R345). -/
  | snapc (d : Nat) (ctx : Nat) (id : Word)
  | zero (d : Nat) (pa len : Nat)
  | halt
  /-- A supervisor thread's access to a peer (R316): the word at `off` of the response goes to g[d]. -/
  | peer (d off : Nat) (tag : Word) (ends : Bool)
deriving DecidableEq, Repr

/-- A sub-group (R99) with its chain (R51 to R53). `ready` is the rotation cycle from which a sub-group of a
deterministic block may issue, `latchDue` those from which its latches may be read, b0 first (R72, R109, R199). -/
structure Sub where
  id      : Nat
  ls      : Word
  em      : Word
  pc      : Word
  parent  : Option Nat
  stack   : List SerialEntry
  parked  : Bool
  pos     : Nat
  headPc  : Word
  headEm  : Word
  latches : Latches
  held    : List HeldV
  wait    : Wait
  /-- The instruction at its PC has begun and holds back the whole group until it is done (R97, R143, R212, R224). -/
  holds   : Bool
  ready    : Nat
  latchDue : List Nat
deriving DecidableEq, Repr

/-- A split-table entry (R100): its parent entry, its dormant lanes and how many of its children have ended. -/
structure Split where
  id      : Nat
  parent  : Option Nat
  dormant : Word
  ended   : Nat
deriving DecidableEq, Repr

/-- A group-wide register write of a chain that has not yet ended (R53). -/
inductive GroupWrite where
  | g (r : Nat) (x : DWord)
  | xt (r : Nat) (x : Xt)
  | scratch (r : Nat) (x : DWord)
deriving DecidableEq, Repr

/-- A held group-wide write and the sub-group whose chain holds it. -/
structure HeldG where
  sub   : Nat
  write : GroupWrite
deriving DecidableEq, Repr

/-- A store-queue entry (R135): the bytes it writes, its scope code, whether it is a release (R144, R169), and in a
deterministic block the rotation cycle in which it performs (R199, R336). -/
structure StoreEntry where
  cells : List (Nat × Byte)
  scope : BitVec 3
  rel   : Bool
  due   : Nat
deriving DecidableEq, Repr

/-- The operations of an atomic (R141, R280). -/
inductive AtomicOp where
  | add | max | xch | cas | or | and | fadd | min
deriving DecidableEq, Repr

/-- An atomic of a deterministic block that has issued and reaches its words in rotation cycle `due` (R199, R336, R337): each
lane with its word's location and its operands, the lane register that the old words go to, and the lanes of its write. -/
structure PendingAtomic where
  due   : Nat
  op    : AtomicOp
  scope : BitVec 3
  lanes : List (Nat × Nat × Word × Word)
  reg   : Nat
  mask  : Word
deriving DecidableEq, Repr

/-- A BARV arrival held until the stores ahead of it have performed (R150), for a barrier entry and its generation. -/
structure HeldArrival where
  bar   : Nat
  gen   : Nat
  count : Nat
  ahead : Nat
deriving DecidableEq, Repr

/-- A lane register that a GATH or SCAT writes (R51, R156). -/
structure GathDst where
  reg     : Nat
  arrived : Bool
deriving DecidableEq, Repr

/-- A register to which a group of a deterministic block owes a result until a rotation cycle (R8, R72, R109, R136):
v registers by 0 to 127, g by 128 and up, xt by 256 and up. -/
structure Due where
  reg   : Nat
  cycle : Nat
deriving DecidableEq, Repr

/-- Whether an agent issues (R105, R296, R327). -/
inductive RunState where
  | running
  /-- A precise or post-effect record awaits delivery and its policy. -/
  | faulted
  | stopped
  | saved
  | ended
deriving DecidableEq, Repr

/-- What a unit reads of its launch and placement (R60, R95). -/
structure Env where
  nGroups : Nat
  nUnits  : Nat
  seed    : DWord
  wver    : Word
  ticket  : Word
  cls     : Nat
  det     : Bool
  coop    : Bool
  redeem  : Bool
  tstart  : DWord
  bcores  : Nat
  /-- The context's BKPT enable and fault policies as they stood at the unit's admission (R283). -/
  debug   : Bool
  fpol    : DWord
  /-- The placement that selectors 4 to 6 return (drawn in deterministic mode). -/
  shown   : Place
deriving DecidableEq, Repr

/-- A CSQ thread's batch state (R222, R223): accepted and completed operations, closed batches with the number of
operations accepted at their close, and the errors since the last MWAIT. -/
structure Batches where
  counter   : Half
  accepted  : Nat
  completed : Nat
  closed    : List (Half × Nat)
  errors    : List (Nat × Byte)
deriving DecidableEq, Repr

/-- A B scale setting (R218): the MSCALE operands and the record of the scale tensor as copied. -/
structure BScale where
  a   : DWord
  b   : DWord
  record : BitVec 512
deriving DecidableEq, Repr

/-- An agent that issues instructions: a group, a CSQ thread or a supervisor thread (R46, R99, R206, R278). -/
structure Agent where
  who      : Who
  kind     : Kind
  place    : Place
  ctx      : Nat
  unit     : UnitKey
  index    : Nat
  bcore    : Nat
  env      : Env
  code     : List Byte
  codeBase : Word
  quota    : Nat
  v        : Store Lanes
  g        : Store DWord
  xt       : Store Xt
  scratch  : Store DWord
  cur      : Sub
  others   : List Sub
  splits   : List Split
  nextId   : Nat
  heldG    : List HeldG
  storeQ   : List StoreEntry
  atomics  : List PendingAtomic
  arrivals : List HeldArrival
  gath     : List GathDst
  /-- The scope at which a fence has made the next store a release (R170). -/
  relNext  : Option (BitVec 3)
  mailbox  : List DWord
  /-- Of a group of a deterministic block: results owed, and the rotation cycle from which it may issue (R136, R199). -/
  due      : List Due
  ready    : Nat
  /-- The die time below which its reads of die time do not fall (R15; DESIGN CHOICE, log entry 57). -/
  timeFloor : DWord
  run      : RunState
  retired  : DWord
  cycle    : DWord
  /-- CSQ threads: effective class, MSCALE and MQUAD operands in force, batches (R206). -/
  eclass   : Nat
  scaleW   : BScale
  quadW    : DWord × DWord
  batches  : Batches
  /-- Supervisor threads: CR.SEPC, CR.SCAUSE, CR.STVEC (R279). -/
  sepc     : DWord
  scause   : DWord
  stvec    : DWord
deriving DecidableEq, Repr

/-- A slot of a barrier handle table (R147). -/
structure HandleSlot where
  gen   : Nat
  bound : Option Nat
deriving DecidableEq, Repr

/-- A barrier entry (R147). -/
structure Barrier where
  live     : Bool
  phase    : Bool
  ea       : Nat
  pending  : Nat
  eb       : Nat
  expected : Nat
  counted  : Nat
  cur      : DWord
  last     : DWord
  refs     : Nat
  gen      : Nat
deriving DecidableEq, Repr

/-- A contribution of a deterministic unit to a location (R182, R154): the operation and its operand bytes. -/
inductive ContribOp where
  | addI32 | addF32 | addBf16 | maxF32 | maxBf16
deriving DecidableEq, Repr

/-- One contribution: its place in the order of issue, the locations of the element's bytes, lowest first, the
operation and the operand code. -/
structure Contrib where
  seq  : Nat
  keys : List Nat
  op   : ContribOp
  code : Word
deriving DecidableEq, Repr

/-- A write beyond the package that is held: the VA that it used and its locations and bytes (R181, R341, R342). -/
structure OutWrite where
  va    : Nat
  cells : List (Nat × Byte)
deriving DecidableEq, Repr

/-- A deterministic unit's snapshot (R181): the memory as it sees it, the locations it wrote, its contributions in
order, and its outward writes, which are applied at the milestone. -/
structure Snapshot where
  mem      : Memory
  written  : List Nat
  contribs : List Contrib
  outward  : List OutWrite
deriving DecidableEq, Repr

/-- A block's bulk queue (R158, R202): the indices the engines hold and whether a publication waits. -/
structure BulkQueue where
  control   : Nat
  serving   : Bool
  published : Bool
  ringBase  : Word
  nent      : Nat
  cons      : Word
  crBase    : Word
  crn       : Nat
  crTail    : Word
  /-- Completion records held while the ring is full (R161), oldest first. -/
  heldRecs  : List (BitVec 128)
deriving DecidableEq, Repr

/-- The rotation of a deterministic block (R199): the cycle t, the place in it of the next offer, pipe 0 and pipe 1 of
each member core in turn, and whether a pre-emption request has been seen (R336). -/
structure Rotation where
  cycle : Nat
  place : Nat
  asked : Bool
deriving DecidableEq, Repr

/-- A unit that has been admitted (R17, R186). -/
structure WorkUnit where
  key     : UnitKey
  kind    : Kind
  die     : Nat
  cluster : Nat
  cores   : List Nat
  /-- The member cores that selectors 4 and 19 show (drawn in deterministic mode, R198). -/
  drawn   : List Nat
  bshared : Nat
  /-- The first page of the block-shared run on each member core (R114). -/
  runs    : List Nat
  env     : Env
  snap    : Option Snapshot
  bulk    : Option BulkQueue
  preempt : Option Who
  saved   : Bool
  ended   : Bool
  /-- SNAPM milestones released so far (R201). -/
  snaps   : Nat
  /-- It had not ended when its launch was cancelled: its snapshot is not merged (R193). -/
  discard : Bool
  /-- A deterministic block's rotation, from its first issue on (R199). -/
  rot     : Option Rotation
  /-- Die time when it was last saved (R15), and its context's generator windows then (R127; DESIGN CHOICE, log entry 71). -/
  savedAt : DWord
  windows : Store (BitVec 256)
deriving DecidableEq, Repr

/-- A tensor reference resolved at acceptance: the record as copied (R124) and the tile (R122, R123). -/
structure TileRef where
  record : BitVec 512
  tr   : Nat
  tc   : Nat
  i2   : Nat
  t    : Bool
deriving DecidableEq, Repr

/-- A bulk-queue entry as taken (R159); `stage`, `bytes`, `status` and `stall` as for a command. -/
structure BulkEntry where
  seq      : Nat
  unit     : UnitKey
  raw      : BitVec 256
  bar      : Option Nat
  index    : Word
  taken    : DWord
  started  : Bool
  /-- The cause of an entry that breaks its table or names no live handle. -/
  bad      : Option Cause
  windows  : Store (BitVec 256)
  stage    : Nat
  bytes    : Nat
  status   : DWord
  stall    : Option DWord
deriving DecidableEq, Repr

/-- What a copy-engine command does (R154, R156, R183). -/
inductive CopyWork where
  | tile (op : Nat) (src dst : TileRef)
  | rows (gather : Bool) (d : Nat) (em : Word) (offs : Lanes) (lbase rowb : Nat) (xt : Xt)
  | node (raw : BitVec 256)
deriving DecidableEq, Repr

/-- An accepted command of a die's copy engines (R153). `time` is the visible-at time of a CPYT. `windows` are the
generator-window records that stood at acceptance (R128). `codes` are the source elements that a CPYT has read. What
a command has done is its `stage`: 0 nothing, 1 its reads of peers asked for, 2 its writes performed; `bytes` and
`status` are what it then counts. `stall` is the die time at which its reads met a locked replica (R180). `missed` says
that a read which a CPYT in time would have come before has gone ahead of it, so that it is late (R176; log entry 58). -/
structure CopyCmd where
  seq      : Nat
  who      : Who
  place    : Place
  unit     : UnitKey
  env      : Env
  work     : CopyWork
  bar      : Option Nat
  handle   : Half
  time     : Option DWord
  /-- The die by whose time a CPYT's writes are held (R155). -/
  dest     : Nat
  windows  : Store (BitVec 256)
  throttle : DWord
  codes    : List (Nat × Nat × Nat)
  stage    : Nat
  bytes    : Nat
  status   : DWord
  stall    : Option DWord
  missed   : Bool
deriving DecidableEq, Repr

/-- An accepted command of a die's DCE (R240): 0 DATT, 1 DDIST, 2 DTOPK, 3 DKVAP, the copied parameter block, the
tensor records it names, and how many of its pages are done. -/
structure DceCmd where
  seq     : Nat
  who     : Who
  place   : Place
  unit    : UnitKey
  env     : Env
  op      : Nat
  block   : BitVec 512
  /-- The context's control registers as they stood at acceptance (R283). -/
  regs    : Store DWord
  recA    : BitVec 512
  recB    : BitVec 512
  windows : Store (BitVec 256)
  bar     : Option Nat
  handle  : Half
  done    : Nat
  status  : DWord
  stall   : Option DWord
  /-- Of its current page: 0 nothing, 1 reads of peers asked for, 2 writes made that have not performed; and what the peers
  have answered. -/
  stage   : Nat
  peer    : DWord
deriving DecidableEq, Repr

/-- An accepted command of a die's update engine (R271, R272). `tiles` are the tiles already handled, `norm` the
value read at the start. -/
structure UpdCmd where
  seq     : Nat
  who     : Who
  place   : Place
  unit    : UnitKey
  env     : Env
  isNorm  : Bool
  block   : BitVec 512
  /-- The context's control registers as they stood at acceptance (R283). -/
  regs    : Store DWord
  /-- The location of RESULT's first byte, or of NORMV's, if it has one. -/
  outAt   : Option Nat
  /-- The location of NORMV's first byte, which UPD reads. -/
  normAt  : Option Nat
  bar     : Option Nat
  handle  : Half
  normBar : Option Nat
  started : Bool
  sum     : Word
  done    : Nat
  skipped : Bool
  already : Bool
  status  : DWord
  stall   : Option DWord
  /-- Of its current tile, or of a shard that it drops or sums: as for a command of the DCE, and what the peers have
  answered. -/
  stage   : Nat
deriving DecidableEq, Repr

/-- What a queued MXE operation does (R210). -/
inductive MxWork where
  /-- MMA: zeroing, sparse, tile, A reference, K-blocks, B format; records of A's scale and bitmap tensors; the
  B scales in force at acceptance (R218). -/
  | mma (zero sparse : Bool) (acc : Nat) (a : TileRef) (nk bfmt : Nat) (scale bitmap : BitVec 512) (bscale : BScale)
  /-- EPQ, EPST, EPOV, ACCZ by 0 to 3: tile, output reference, control word; scale, flag and divisor records. -/
  | epi (op acc : Nat) (out : TileRef) (ctl : DWord) (scale flags divisor : BitVec 512)
  | mscale
  | myld
deriving DecidableEq, Repr

/-- A feed: v88 to v119 of 32 lanes (R212). -/
abbrev Feed := List Lanes

/-- A queued MXE operation: its thread, its own and effective class, and its next K-block (R210, R219, R220). An
epilogue counts there what it has done: 1 its reads of peers asked for, 2 its writes performed and not yet answered.
`fed` are feeds taken that serve one more K-block (R213). -/
structure MxOp where
  seq   : Nat
  who   : Who
  place : Place
  unit  : UnitKey
  env   : Env
  cls   : Nat
  ecls  : Nat
  work  : MxWork
  bar   : Option Nat
  handle : Half
  kb    : Nat
  fed   : List Feed
  windows : Store (BitVec 256)
  bytes : Nat
  status : DWord
  stall : Option DWord
  /-- An MMA has asked peers for its bitmap. -/
  asked : Bool
deriving DecidableEq, Repr

/-- One class's quad binding: the feeder unit and the four group indices (R211). -/
structure Quad where
  unit   : UnitKey
  groups : List Nat
deriving DecidableEq, Repr

/-- A cluster's MXE (R209 to R213). -/
structure Cluster where
  /-- Accumulator words by tile × 16384 + row × 128 + column. -/
  acc    : Store Word
  queue0 : List MxOp
  queue1 : List MxOp
  queue2 : List MxOp
  queue3 : List MxOp
  /-- Feeds by class × 4 + quarter, oldest first, and by class the unit whose groups have staged them (R285). -/
  feeds  : Store (List Feed)
  feeders : Store UnitKey
  quads  : Store Quad
  /-- A granted MYLD: classes below it that still get one step (R221). -/
  yields : List Nat
deriving DecidableEq, Repr

/-- A timed-store entry (R138). -/
structure TimedStore where
  who      : Who
  unit     : UnitKey
  ctx      : Nat
  pc       : Word
  cells    : List (Nat × Byte)
  time     : DWord
  throttle : DWord
deriving DecidableEq, Repr

/-- A core: the context that owns its local memory, and its timed-store table (R138, R285). -/
structure Core where
  owner : Option Nat
  timed : List TimedStore
deriving DecidableEq, Repr

/-- A TLB entry: a pointer entry or a leaf, its ASID, the first VA it covers, its level and its value as read or
written (R312). -/
structure TlbEntry where
  ptr   : Bool
  asid  : Half
  base  : BitVec 56
  level : Nat
  leaf  : DWord
deriving DecidableEq, Repr

/-- On whose behalf a translation is made (R311, R313): an agent's, an engine command's by its number, or a peer's. -/
inductive Asker where
  | agent (w : Who)
  | command (seq : Nat)
  | request
deriving DecidableEq, Repr

/-- A page walk that takes more than a step, or a miss that waits for a slot (R311, R313): the leaf address and value it
read, its attempts so far, the unit whose access missed, and those whose misses share it. -/
structure Walk where
  ctx     : Nat
  va      : BitVec 56
  write   : Bool
  granted : Bool
  attempt : Nat
  leafAt  : Nat
  level   : Nat
  leaf    : DWord
  unit    : Option UnitKey
  askers  : List Asker
  /-- It reads as well as writes: an atomic's (R310). -/
  reads   : Bool
deriving DecidableEq, Repr

/-- A compute die. -/
structure Die where
  time        : DWord
  disciplined : Bool
  /-- Ticks since the discipline last changed one (R362). -/
  sinceSlew   : Nat
  offset      : BitVec 32
  /-- Correction still to be applied, and whether an undisciplined die skips every second tick (R362, R364). -/
  slew        : Int
  halfTick    : Bool
  /-- When it last had a successful exchange (R364). -/
  lastEx      : DWord
  copyQ       : List CopyCmd
  /-- CPYT commands whose data is read and whose writes are held (R155). -/
  heldT       : List CopyCmd
  bulkQ       : List BulkEntry
  dceQ        : List DceCmd
  updQ        : List UpdCmd
  tlb         : List TlbEntry
  walks       : List Walk
  /-- Walks that have ended in contention, with those of their askers that have not had the answer yet (R311, R313). -/
  contended   : List Walk
  throttled   : Bool
  corrected   : Store Nat
deriving DecidableEq, Repr

/-- What a command counts once it has performed (R149, R150, R152): its number, its issuer and unit, the barrier entry and the
handle that named it, its bytes, arrivals and status bits. -/
structure Completion where
  seq      : Nat
  who      : Who
  unit     : UnitKey
  det      : Bool
  bar      : Option Nat
  handle   : Half
  bytes    : Nat
  arrivals : Nat
  status   : DWord
deriving DecidableEq, Repr

/-- A commit to replicated pages (R178, R179): the location and byte pairs of die 0's replica, the dies, whether
its locks are held and since when; what its command then counts. -/
structure Commit where
  /-- The command whose commit it is. -/
  seq    : Nat
  cells  : List (Nat × Byte)
  dies   : List Nat
  locked : Bool
  since  : DWord
  done   : Completion
  /-- Of a CPYT: its T, its die's throttle count at acceptance, the die whose time counts, and whether a read that it would
  have come before has gone ahead (R139, R155, R176). -/
  timed  : Option (DWord × DWord × Nat)
  missed : Bool
deriving DecidableEq, Repr

/-- A launch snapshot (R340, R341): 64 KiB page copies by page number, the staged outward writes in order, and the units of
its copies that were poisoned (R338). -/
structure Replay where
  copies : List (Nat × Memory)
  staged : List OutWrite
  poison : List Nat
deriving DecidableEq, Repr

/-- A launch (R183 to R194). `raw` is its record, `desc` its kernel descriptor. -/
structure Launch where
  ctx       : Nat
  id        : Word
  raw       : BitVec 1024
  desc      : BitVec 256
  code      : List Byte
  params    : List Byte
  commands  : List Byte
  coop      : Bool
  cls       : Nat
  seed      : DWord
  dies      : List Nat
  age       : Nat
  /-- The die whose pool it waits in; `none` for the central pool (R292). -/
  pool      : Option Nat
  /-- The index of the next unit to be admitted. -/
  next      : Nat
  /-- The weight version bound (R260), the bytes by which its slot lies behind slot 0, and the copies of the
  templates made at admission. -/
  bound     : Option Word
  model     : Nat
  shift     : Nat
  templates : Store (BitVec 512)
  bar       : Option Nat
  handle    : Half
  /-- No further unit starts and groups stop at their chain ends (R193, R343). -/
  stopping  : Bool
  cancelled : Bool
  faulted   : Bool
  complete  : Bool
  /-- Its place in the order of completions of its context (R192). -/
  doneSeq   : Nat
  graphInst : Nat
  /-- The redeem run it belongs to, by the run's id (R268). -/
  run       : Option Word
  /-- The submission-ring record whose result word it has, counted from the context's first (R290). -/
  res       : Option Nat
  /-- Younger launches of its class admitted while it did not fit (R294). -/
  passed    : List Nat
  blocking  : Bool
  /-- Its record sets REPLAY, or SNAPB has said so (R340, R345); the snapshot while it has one. -/
  replayable : Bool
  replay    : Option Replay
  /-- CR.STAGING and CR.EXPLOG as they stood when its first unit was admitted (R283). -/
  staging   : DWord
  explog    : DWord
  replays   : Nat
  /-- A rollback is under way: to be replayed after it, or to stand pending (R343, R345). -/
  rollback  : Option Bool
  held      : Bool
  committed : Bool
  /-- The launch-end merge is done (R182): its bytes with the unit that wrote each, and its contributions with their
  units, kept for the graph end. -/
  merged    : Bool
  result    : List (Nat × Byte × Nat)
  contribs  : List (Nat × Contrib)
  /-- The locations that its SNAPM milestones have merged (R201). -/
  merges    : List Nat
  /-- The 64 KiB pages that it has written (R343). -/
  wrote     : List Nat
deriving DecidableEq, Repr

/-- One instance of a graph (R194): its id, phase, and the flags CCNT reports. -/
structure Graph where
  inst      : Nat
  ctx       : Nat
  id        : Word
  phase     : Nat
  closed    : Bool
  cancelled : Bool
  faulted   : Bool
  complete  : Bool
  lastP     : Bool
  doneSeq   : Nat
  run       : Option Word
deriving DecidableEq, Repr

/-- One instance of a phase (R194). -/
structure Phase where
  inst      : Nat
  ctx       : Nat
  id        : Nat
  closed    : Bool
  cancelled : Bool
  faulted   : Bool
  complete  : Bool
  doneSeq   : Nat
deriving DecidableEq, Repr

/-- A redeem run (R268 to R270): its ticket with the version held, the graph entry whose staging buffers it uses, the
buffer taken, its launches, the instance of its backward graph, and the tiles delivered. -/
structure RedeemRun where
  id       : Word
  ticket   : Word
  record   : BitVec 512
  model    : Nat
  version  : Word
  delta    : Nat
  entry    : Nat
  stage    : Nat
  buffer   : Option Nat
  bar      : Option Nat
  handle   : Half
  unit     : UnitKey
  die      : Nat
  fbva     : DWord
  launches : List Word
  /-- The context's control registers as they stood at acceptance (R283). -/
  regs     : Store DWord
  bwd      : Nat
  done     : Nat
  ended    : Bool
  /-- It was cancelled (R266), and how many launches of its context had completed when it ended (R192). -/
  cancelled : Bool
  doneSeq   : Nat
  /-- Its delivery's number among commands, and of the tile under way: as a DCE command's `stage`. -/
  seq       : Nat
  step      : Nat
deriving DecidableEq, Repr

/-- A queued KVREQ (R250), with the unit that asked and the handle that names its barrier. -/
structure KvRequest where
  op     : Nat
  seq    : Nat
  tseq   : Nat
  head   : Nat
  nh     : Nat
  page   : Nat
  npg    : Nat
  bar    : Option Nat
  handle : Half
  unit   : UnitKey
  det    : Bool
  /-- The context's control registers as they stood at acceptance (R283). -/
  regs   : Store DWord
deriving DecidableEq, Repr

/-- A tile committed to a model's version in the making (R272): the launch that committed it, and its share of the
digest (R350). -/
structure Committed where
  model  : Nat
  tile   : Nat
  launch : Word
  digest : BitVec 128
deriving DecidableEq, Repr

/-- A publication whose launch waits for the peer's digest (R352): its digest and the time it was sent. -/
structure WaitPub where
  model   : Nat
  launch  : Word
  version : Word
  digest  : BitVec 128
  time    : DWord
deriving DecidableEq, Repr

/-- A context (R281) beside its control registers, which stand in `State.cr`. -/
structure Context where
  /-- Tensor-table records by id (R119); an absent id is empty. -/
  tensors  : Store (BitVec 512)
  /-- Generator-window records by window (R126); an absent window is OFF. -/
  windows  : Store (BitVec 256)
  nextId   : Word
  /-- Shelf entry generations and the indices in use (R261). -/
  shelfGen : Store Nat
  shelfUse : List Nat
  /-- The residency map by ((sequence × 256 + head) × 16384 + page) (R238). -/
  kvmap    : Store DWord
  kvFree   : List Nat
  kvReqs   : List KvRequest
  /-- Sequences for which an append has asked for a frame (R248). -/
  kvAsk    : List Nat
  /-- Records appended to the KV event ring (R253). -/
  kvEvents : Nat
  /-- Redeem runs in the order of acceptance (R268), and the last reserved graph and phase ids given. -/
  runs     : List RedeemRun
  nextGraph : Nat
  nextPhase : Nat
  /-- Records taken from the submission ring (R290), and whether its PROD has been reported bad. -/
  taken    : Nat
  badProd  : Option Word
  /-- Completions of launches, graphs and phases (R192). -/
  launchDone : Nat
  graphDone  : Nat
  phaseDone  : Nat
  /-- Exposure entries written (R342), tiles committed to versions in the making (R272), and publications that wait
  for a digest (R352). -/
  exposed  : Nat
  committed : List Committed
  waitPub  : List WaitPub
  /-- WVPUBs of REPLAY launches held until commit: model and launch (R340). -/
  heldPub  : List (Nat × Word)
deriving DecidableEq, Repr

/-- A page request of a partition's ring (R318). -/
structure PageRequest where
  ctx  : Nat
  bar  : Option Nat
  slot : Nat
deriving DecidableEq, Repr

/-- A partition's hub-side queues: its page requests between HEAD and TAIL, and records that wait for room in the
fault ring (R318, R324). -/
structure Partition where
  requests : List PageRequest
  pgTail   : Word
  waiting  : List (BitVec 512)
  faultTail : Word
  lost     : Word
  lostFlag : Bool
deriving DecidableEq, Repr

/-- A fault that awaits delivery (R320, R323): what its record needs, before its policy is applied. -/
structure Pending where
  cause    : Cause
  kind     : FaultKind
  sub      : Nat
  lane     : Option Nat
  ctx      : Nat
  launch   : Word
  unit     : Option Nat
  who      : Option Who
  place    : Option Place
  group    : Nat
  csq      : Bool
  em       : Word
  headPc   : Word
  pc       : Word
  inChain  : Bool
  det      : Bool
  addr     : DWord
  detail   : DWord
  aux      : DWord
  throttled : Bool
  time     : DWord
  /-- Of an asynchronous fault, its die and engine, in the order of R325; of one of a deterministic block's group, the
  rotation cycle in which it arose. -/
  engine   : Nat
  cycle    : Option Nat
  /-- The policy where it is not the context's to give: 1 for a launch already killed, 3 for none (R331, R343, R347). -/
  policy   : Option Nat
deriving DecidableEq, Repr

/-- A Waldlink packet (R353): its header beat and its payload, and where it stands: in the receive buffer of port 0 to
11, at 32 to be injected, at 64 + k handed to the link of port k. -/
structure Packet where
  header : BitVec 512
  data   : List Byte
  port   : Nat
  /-- The hub die's time when it came in at its port or was injected (R363). -/
  stamp  : DWord
deriving DecidableEq, Repr

/-- A request to a peer that has no response yet (R361): the supervisor thread that waits for it, or the die and the
sequence number of the engine command, and the location of its bytes. -/
structure PeerRequest where
  tag    : Word
  opc    : Nat
  who    : Option Who
  die    : Nat
  seq    : Nat
  ctx    : Nat
  launch : Word
  sent   : DWord
  key    : Nat
  /-- Of a command: its unit's index, and whether the unit is deterministic (R323). -/
  unit   : Option Nat
  det    : Bool
  /-- A READ of bytes that this device has since asked the peer to write (R29, R316). -/
  stale  : Bool
deriving DecidableEq, Repr

/-- A Waldlink port (R353, R356, R360). -/
structure Port where
  ls       : BitVec 2
  /-- Consecutive link-level replays that have failed. -/
  replays  : Nat
  /-- The VCs that the far receiver has stopped, and those that this port's own receiver has. -/
  stopped  : BitVec 4
  told     : BitVec 4
  /-- The VC of each pair that was served last: of 0 and 1 in bit 0, of 2 and 3 in bit 1 (R360). -/
  turns    : BitVec 2
deriving DecidableEq, Repr

/-- The time exchange in progress with the parent (R363), the sizes of the hop's last 16 offsets, and what ε_fab has from
the hops beyond it. -/
structure Exchange where
  active  : Bool
  t1      : DWord
  t2      : DWord
  t3      : DWord
  recent  : List Nat
  /-- The link delay that the last exchange measured, in half dtu (R363). -/
  delay   : Int
  hopSum  : Nat
deriving DecidableEq, Repr

/-- The host semaphore and the ports (R287). -/
structure Hsem where
  held     : Bool
  port     : Bool
  token    : Half
  lastLost : Option Bool
  up0      : Bool
  up1      : Bool
deriving DecidableEq, Repr

/-- Power and boot (R365). -/
inductive Power where
  | off
  /-- Power is applied and the boot ROM has not run. -/
  | on
  /-- A verification failed at this step of the cold power-on. -/
  | recovery (step : Nat)
  | up
deriving DecidableEq, Repr

/-- An object that a loader installs for a context (R66, R127): its place, its images by ODA address, and the tensor and
window lists by number and ODA address. -/
structure LoadObject where
  ctx     : Nat
  die     : Nat
  cluster : Nat
  core    : Nat
  images  : List (Nat × List Byte)
  tensors : List (Nat × Nat)
  windows : List (Nat × Nat)
deriving DecidableEq, Repr

/-- What holds the writes to a line that a host monitors, so that its release at `.sys` covers them (R169, R289): the device
itself, the agent that made or has acquired them, an engine command of an agent that made them, the location of a release that an acquire may
synchronise with, with the releaser and its scope, or a barrier entry that has counted them. -/
inductive Holder where
  | device
  | agent (w : Who)
  | command (w : Who) (seq : Nat)
  | place (key : Nat) (w : Who) (scope : BitVec 3)
  | barrier (b gen : Nat)
deriving DecidableEq, Repr

/-- What a host does through the recovery window of BAR0 (R365, R366, R368): it has a fused minimum raised for a stage, or reads
the certificate. -/
inductive WindowAccess where
  | raiseMinimum (stage : Nat) (value : Word)
  | readCertificate
deriving DecidableEq, Repr

/-- One turn of the machine: an agent's sub-group issues, a step of the device comes about, or the world acts on it. -/
inductive Turn where
  | issue (w : Who) (sub : Nat)
  | event (i : Instr)
  /-- A loader installs an object (R66). -/
  | load (o : LoadObject)
  /-- The firmware writes a register of level M (R281, R282, R367). -/
  | firmware (n : Nat) (value : DWord)
  /-- A die's TLB gives up an entry (R312). -/
  | evict (die i : Nat)
  /-- A host uses BAR0's recovery window (R365, R366, R368). -/
  | window (a : WindowAccess)
deriving DecidableEq, Repr

/-- The state of the package. `me` is the agent whose turn it is; `agents` are the others. `agenda` is the order
in which the agents and the device's steps take their turns, which the specification leaves to the hardware and
to the world outside (R8, R15). -/
structure State where
  power    : Power
  me       : Agent
  agents   : List Agent
  agenda   : List Turn
  /-- The model's own counter for open values (DESIGN CHOICE, log entry 4). -/
  free     : Nat
  mem      : Memory
  /-- Poisoned 16-byte units (R338), by location number ÷ 16. -/
  poison   : List Nat
  units    : List WorkUnit
  launches : List Launch
  graphs   : List Graph
  phases   : List Phase
  nextAge  : Nat
  nextInst : Nat
  nextSeq  : Nat
  tables   : List (Who × Store HandleSlot)
  barriers : Store Barrier
  clusters : Store Cluster
  dies     : Store Die
  cores    : Store Core
  contexts : Store Context
  /-- Control registers by context × 4096 + number (R282). -/
  cr       : Store DWord
  /-- The owners of the die scratchpads' 64 KiB pages, by location number ÷ 65,536: a context and 1, 65 for the supervisor,
  0 for none (R285). -/
  padOwner : Store Nat
  parts    : Store Partition
  pending  : List Pending
  commits  : List Commit
  /-- The supervisor's own ASID and root table (R278). -/
  supAsid  : Half
  supRoot  : DWord
  /-- Host side: HSEM, MSI-X vectors sent, lines the hosts monitor with what holds the writes to them that await a release,
  lines snooped, what the last HDM read and the last read of the certificate returned (R286 to R289, R368). -/
  hsem     : Hsem
  msix     : List (Bool × Nat)
  /-- What the host that holds HSEM has written to BAR0's other control registers, by offset (R286, R287; log entry 37). -/
  bar0     : Store DWord
  monitors : List (Nat × List Holder)
  snoops   : List Nat
  hdmRead  : List Byte
  barRead  : List Byte
  /-- Fabric: ports, packets on the links and at this device, requests outstanding, delivered responses, the
  topology map and routes as last reloaded (R353 to R361). -/
  ports    : Store Port
  packets  : List Packet
  inbox    : List Packet
  requests : List PeerRequest
  nextTag  : Word
  topo     : List Byte
  routes   : List Byte
  /-- Time: the hub's exchange with its parent, which is the package master's (R362 to R364). -/
  exchange : Exchange
  /-- Reliability: the physical addresses of retired frames, and those of the overflow list; rows in which an uncorrectable
  error has occurred and that are to be retired (R348). -/
  retired  : List Nat
  overflow : List Nat
  badRows  : List Nat
  /-- The hub die's time at the last warm reset of cause THERMAL (R370). -/
  thermalAt : Option DWord
  /-- Bring-up: flash images, fuses, measurement registers and the last attestation reports (R365 to R369). -/
  flash1   : List Byte
  flash2   : List Byte
  revoked  : BitVec 4
  minSvn1  : Word
  minSvn2  : Word
  /-- The fused secret, the identity key's private half that step 1 derives from it, and the key's certificate in flash (R368). -/
  secret   : BitVec 256
  identity : BitVec 384
  certificate : List Byte
  m0       : BitVec 384
  m1       : BitVec 384
  m2       : BitVec 384
  m3       : BitVec 384
  reports  : List (Bool × List Byte)
deriving DecidableEq, Repr

/-- Why the machine stands still. Each is safe: no claim follows from a stop. -/
inductive Fault where
  /-- Raised by `step`: the device has no power, or its boot stopped at a failed verification (R365). -/
  | notRunning
deriving DecidableEq, Repr

/-- Why the model gives a step no meaning. Each is safe: no claim follows from a refusal. -/
inductive Refusal where
  /-- Raised by `exec` alone, for an instruction the model does not have. -/
  | notModelled (mnemonic : String)
  /-- Raised by `step` and by the device's steps: the agenda names an agent that does not issue, or a step that is
  not due in this state; the specification has no such step here. -/
  | notDue
deriving DecidableEq, Repr

/-- No latch holds a lane result (R51). -/
def Latches.void : Latches := ⟨none, none, none, none⟩

/-- A group's one sub-group at the start of its unit (R99), with its PC. -/
def Sub.start (pc : Word) : Sub :=
  { id := 0, ls := 0xFFFF_FFFF, em := 0xFFFF_FFFF, pc := pc, parent := none, stack := [], parked := false, pos := 0,
    headPc := pc, headEm := 0xFFFF_FFFF, latches := .void, held := [], wait := .none, holds := false,
    ready := 0, latchDue := [] }

/-- What a supervisor thread reads of a launch: it has none. -/
def Env.none : Env :=
  { nGroups := 0, nUnits := 0, seed := 0, wver := 0, ticket := 0, cls := 0, det := false, coop := false,
    redeem := false, tstart := 0, bcores := 0, debug := false, fpol := 0, shown := ⟨0, 0, 0, 0⟩ }

/-- An agent at its start with all registers zero and no code (DESIGN CHOICE, log entries 1 and 2). -/
def Agent.start (who : Who) (kind : Kind) (place : Place) : Agent :=
  { who := who, kind := kind, place := place, ctx := 0, unit := ⟨0, 0, 0⟩, index := 0, bcore := 0, env := .none,
    code := [], codeBase := 0, quota := 0, v := [], g := [], xt := [], scratch := [], cur := Sub.start 0,
    others := [], splits := [], nextId := 1, heldG := [], storeQ := [], atomics := [], arrivals := [], gath := [], relNext := none, mailbox := [],
    due := [], ready := 0, timeFloor := 0, run := .running, retired := 0, cycle := 0, eclass := 0, scaleW := ⟨0, 0, 0⟩, quadW := (0, 0),
    batches := ⟨0, 0, 0, [], []⟩, sepc := 0, scause := 0, stvec := 0 }

/-- The package right after reset: power is applied, nothing has run (R365). Every memory and queue is empty and
every register reads 0; DESIGN CHOICE, log entries 1 to 3 name the values the specification does not state. -/
def State.reset : State :=
  { power := .on, me := Agent.start (.sup 0) .sup ⟨8, 0, 0, 0⟩, agents := [], agenda := [], free := 0, mem := [],
    poison := [], units := [], launches := [], graphs := [], phases := [], nextAge := 0, nextInst := 0, nextSeq := 0,
    tables := [], barriers := [], clusters := [], dies := [], cores := [], contexts := [], cr := [], padOwner := [], parts := [],
    pending := [], commits := [], supAsid := 0, supRoot := 0,
    hsem := { held := false, port := false, token := 0, lastLost := none, up0 := false, up1 := false },
    msix := [], bar0 := [], monitors := [], snoops := [], hdmRead := [], barRead := [], ports := [], packets := [], inbox := [], requests := [],
    nextTag := 0, topo := [], routes := [],
    exchange := { active := false, t1 := 0, t2 := 0, t3 := 0, recent := [], delay := 0, hopSum := 0 },
    retired := [], overflow := [], badRows := [], thermalAt := none, flash1 := [], flash2 := [],
    revoked := 0, minSvn1 := 0, minSvn2 := 0, secret := 0, identity := 0, certificate := [], m0 := 0, m1 := 0, m2 := 0, m3 := 0, reports := [] }

end Sys2Proof.Machine
end

