-- ==== Sys2Proof/Machine/Mem.lean ====
section
/-!
DEFINITION. Sparse stores and memory by location, the numbers that locations have, and little-endian bytes.
-/
namespace Sys2Proof.Machine

/-! Sparse stores. -/

/-- The value at number `n`, `dflt` where it is not listed. -/
def Store.get {α : Type} (dflt : α) : Store α → Nat → α
  | [], _ => dflt
  | (k, x) :: r, n => if k = n then x else Store.get dflt r n

/-- The store without number `n`. -/
def Store.erase {α : Type} : Store α → Nat → Store α
  | [], _ => []
  | (k, y) :: r, n => if k = n then Store.erase r n else (k, y) :: Store.erase r n

/-- The store with value `x` at number `n`: the entry goes before the first greater number, and the default is not
listed. -/
def Store.set {α : Type} [DecidableEq α] (dflt : α) : Store α → Nat → α → Store α
  | [], n, x => if x = dflt then [] else [(n, x)]
  | (k, y) :: r, n, x =>
    if k < n then (k, y) :: Store.set dflt r n x
    else if x = dflt then Store.erase ((k, y) :: r) n else (n, x) :: Store.erase ((k, y) :: r) n

/-- The canonical form: numbers strictly rising, and no entry equal to the default. -/
def Store.wf {α : Type} [DecidableEq α] (dflt : α) : Store α → Bool
  | [] => true
  | [(_, x)] => decide (x ≠ dflt)
  | (k, x) :: (l, y) :: r => decide (x ≠ dflt) && decide (k < l) && Store.wf dflt ((l, y) :: r)

/-! Memory. An unlisted byte reads 0 (R285 for SRAM; DESIGN CHOICE, log entry 5 for the rest). -/

/-- The canonical form of memory. -/
abbrev Memory.wf (m : Memory) : Bool := Store.wf (0 : Byte) m

/-- The byte at a location. -/
def Memory.read (m : Memory) (k : Nat) : Byte := Store.get 0 m k

/-- The memory after one byte is written. -/
def Memory.write (m : Memory) (k : Nat) (b : Byte) : Memory := Store.set 0 m k b

/-- The memory after bytes are written in order. -/
def Memory.writeAll (m : Memory) (cells : List (Nat × Byte)) : Memory :=
  cells.foldl (fun m c => Memory.write m c.1 c.2) m

/-! Location numbers: a physical address below 2^52 (R308), local memory above it, and bytes beyond the package. -/

/-- A byte of a die's scratchpad. -/
def spadKey (die off : Nat) : Nat := 2 ^ 40 + die * 2 ^ 28 + off

/-- A byte of a core's local memory. -/
def localKey (die cluster core off : Nat) : Nat := 2 ^ 52 + ((die * 4 + cluster) * 128 + core) * 2 ^ 19 + off

/-- A byte beyond the package, by memory type, port and address (R162, R306): PCIe and CXL.cache reach one host memory. -/
def outerKey (mt port addr : Nat) : Nat := 2 ^ 56 + ((if mt = 2 then 1 else mt) * 2 + port) * 2 ^ 52 + addr

/-! Little-endian numbers in memory (R1). -/

/-- The number of a list of bytes, least significant first. -/
def leNat : List Byte → Nat
  | [] => 0
  | b :: r => b.toNat + 256 * leNat r

/-- The `n` bytes of a number, least significant first. -/
def leBytes : Nat → Nat → List Byte
  | 0, _ => []
  | n + 1, x => BitVec.ofNat 8 (x % 256) :: leBytes n (x / 256)

/-- Keys from `k` on, one for each byte of a list. -/
def cellsAt (k : Nat) : List Byte → List (Nat × Byte)
  | [] => []
  | b :: r => (k, b) :: cellsAt (k + 1) r

/-- Bits `lo + n − 1` to `lo` of a 64-bit word, as a number. -/
def bitsOf (x : DWord) (lo n : Nat) : Nat := (x.toNat / 2 ^ lo) % 2 ^ n

/-- A field of a record: `n` bytes from byte offset `off`, little-endian. -/
def recField {w : Nat} (r : BitVec w) (off n : Nat) : Nat := r.toNat / 2 ^ (8 * off) % 2 ^ (8 * n)

/-- A bit field of a record: `n` bits from bit `lo` of the field at byte offset `off`. -/
def recBits {w : Nat} (r : BitVec w) (off lo n : Nat) : Nat := r.toNat / 2 ^ (8 * off + lo) % 2 ^ n

end Sys2Proof.Machine
end

