-- ==== Sys2Proof/Machine/Walk.lean ====
section
/-!
DEFINITION. The walk of a four-level translation table and its outcomes (R305 to R310).
-/
namespace Sys2Proof.Machine

/-- The outcomes of Table 4 (R310), a page of a peer device (R316), and a miss that has no slot yet. -/
inductive WalkOutcome where
  | unmapped
  | format
  | retired
  | notPresent
  | permission
  | contention
  /-- Translated: the location of the byte, the leaf, and its level. -/
  | frame (key : Nat) (leaf : DWord) (level : Nat)
  /-- Translated to a page of a peer, with the leaf and its level. -/
  | peer (node : Nat) (pasid : Half) (leaf : DWord) (level : Nat)
  /-- The miss waits for a walk slot (R311). -/
  | waits
deriving DecidableEq, Repr

/-- Bytes of a page at a leaf level, and bytes under an entry of the root table (R305). -/
def pageSize (level : Nat) : Nat :=
  match level with
  | 3 => 2 ^ 39 | 2 => 2 ^ 30 | 1 => 2 ^ 21 | _ => 2 ^ 16

/-- The index of a level in a VA (R305, Table 1). -/
def walkIndex (level : Nat) (va : BitVec 56) : Nat :=
  match level with
  | 3 => va.toNat / 2 ^ 39 % 2 ^ 17
  | 2 => va.toNat / 2 ^ 30 % 512
  | 1 => va.toNat / 2 ^ 21 % 512
  | _ => va.toNat / 2 ^ 16 % 32

/-- Whether a range of physical addresses lies in HBM of one die or in the dies' scratchpads (R308). -/
def paExists (pa len : Nat) : Bool :=
  (decide (pa / 2 ^ 37 < 8) && decide (pa % 2 ^ 37 + len ≤ 96 * 10 ^ 9))
    || (decide (2 ^ 40 ≤ pa) && decide (pa + len ≤ 2 ^ 40 + 8 * 2 ^ 28))

/-- The eight-byte entry at a physical address. -/
def readEntry (m : Memory) (pa : Nat) : DWord :=
  BitVec.ofNat 64 (leNat ((List.range 8).map fun i => Memory.read m (pa + i)))

/-- Whether a pointer entry at a level is malformed (R307). -/
def badPointer (level : Nat) (e : DWord) : Bool :=
  bitsOf e 52 4 != 0 || bitsOf e 2 6 != 0 || level == 0
    || (level == 3 || level == 2) && bitsOf e 8 4 != 0

/-- Whether a leaf entry at a level is malformed (R307, R308). -/
def badLeaf (level : Nat) (e : DWord) : Bool :=
  let mt := bitsOf e 8 3
  bitsOf e 52 4 != 0 || bitsOf e 14 2 != 0 || level == 3 || decide (6 ≤ mt) || (e.getLsbD 7 && mt != 0)
    || (if mt = 4 then bitsOf e 44 8 != 0 else (bitsOf e 16 36 * 2 ^ 16) % pageSize level != 0)
    || (mt == 0 && !paExists (bitsOf e 16 36 * 2 ^ 16) (pageSize level))

/-- A leaf that a walk found: its physical address, level and value. -/
structure Found where
  leafAt : Nat
  level  : Nat
  leaf   : DWord
deriving DecidableEq, Repr

/-- The walk from a table at `pa` down `level` levels (R305 to R307): a well-formed leaf, or the outcome that ends
the walk. An entry in a poisoned unit ends it as a retired leaf does (R338). -/
def walkFrom (m : Memory) (poison : List Nat) (va : BitVec 56) : Nat → Nat → Except WalkOutcome Found
  | 0, pa => step0 0 pa
  | level + 1, pa =>
    let at' := pa + 8 * walkIndex (level + 1) va
    let e := readEntry m at'
    if poison.contains (at' / 16) then .error .retired
    else if !e.getLsbD 0 then .error .unmapped
    else if e.getLsbD 1 then (if badLeaf (level + 1) e then .error .format else .ok ⟨at', level + 1, e⟩)
    else if badPointer (level + 1) e then .error .format
    else walkFrom m poison va level (bitsOf e 8 44 * 256)
where
  /-- The last level: only a leaf may stand there. -/
  step0 (level pa : Nat) : Except WalkOutcome Found :=
    let at' := pa + 8 * walkIndex level va
    let e := readEntry m at'
    if poison.contains (at' / 16) then .error .retired
    else if !e.getLsbD 0 then .error .unmapped
    else if !e.getLsbD 1 || badLeaf level e then .error .format
    else .ok ⟨at', level, e⟩

/-- The pointer entries that a walk from a table at `pa` down `level` levels goes through, each with its level (R306). -/
def walkPtrs (m : Memory) (poison : List Nat) (va : BitVec 56) : Nat → Nat → List (Nat × DWord)
  | 0, _ => []
  | level + 1, pa =>
    let at' := pa + 8 * walkIndex (level + 1) va
    let e := readEntry m at'
    if poison.contains (at' / 16) || !e.getLsbD 0 || e.getLsbD 1 || badPointer (level + 1) e then []
    else (level + 1, e) :: walkPtrs m poison va level (bitsOf e 8 44 * 256)

/-- The entries of a table of `n` entries whose first byte is not 0, each with its index. -/
def tableEntries (m : Memory) (pa n : Nat) : List (Nat × DWord) :=
  (m.filter fun c => decide (pa ≤ c.1) && decide (c.1 < pa + 8 * n) && (c.1 - pa) % 8 == 0).map fun c =>
    ((c.1 - pa) / 8, readEntry m c.1)

/-- The host port of a leaf (R306). -/
def leafPort (leaf : DWord) : Nat := if leaf.getLsbD 12 then 1 else 0

/-- The location of a byte under a leaf (R305, R308): the replica of the given die for a replicated page. -/
def leafKey (die level : Nat) (leaf : DWord) (va : BitVec 56) : Nat :=
  let pa := bitsOf leaf 16 36 * 2 ^ 16 + va.toNat % pageSize level
  let mt := bitsOf leaf 8 3
  if mt = 0 then (if leaf.getLsbD 7 then pa + die % 8 * 2 ^ 37 else pa)
  else outerKey mt (leafPort leaf) pa

/-- The VAs at which the table at `pa`, down `level` levels, maps the location `k`, given the VA of its first entry. -/
def vasFrom (m : Memory) (die k : Nat) : Nat → Nat → Nat → List Nat
  | 0, pa, va => (tableEntries m pa 32).filterMap fun x => hit 0 x.2 (va + x.1 * pageSize 0)
  | level + 1, pa, va =>
    (tableEntries m pa (if level = 2 then 2 ^ 17 else 512)).flatMap fun x =>
      let at' := va + x.1 * pageSize (level + 1)
      if x.2.getLsbD 1 then (hit (level + 1) x.2 at').toList
      else if !x.2.getLsbD 0 || badPointer (level + 1) x.2 then []
      else vasFrom m die k level (bitsOf x.2 8 44 * 256) at'
where
  /-- The VA of `k` in the page of a leaf entry, if it lies there. -/
  hit (level : Nat) (e : DWord) (va : Nat) : Option Nat :=
    let f := leafKey die level e (BitVec.ofNat 56 va)
    if e.getLsbD 0 ∧ e.getLsbD 1 ∧ !badLeaf level e ∧ bitsOf e 8 3 ≠ 4 ∧ f ≤ k ∧ k < f + pageSize level then some (va + (k - f))
    else none

/-- Whether a leaf carries the right an access needs: R for a read, W for a write. -/
def leafAllows (leaf : DWord) (write : Bool) : Bool := if write then leaf.getLsbD 4 else leaf.getLsbD 3

/-- The outcome of a well-formed leaf for an access, in the order of Table 4. -/
def leafOutcome (die : Nat) (f : Found) (va : BitVec 56) (write : Bool) : WalkOutcome :=
  if f.leaf.getLsbD 11 then .retired
  else if !f.leaf.getLsbD 2 then .notPresent
  else if !leafAllows f.leaf write then .permission
  else if bitsOf f.leaf 8 3 = 4 then .peer (bitsOf f.leaf 16 12) (BitVec.ofNat 16 (bitsOf f.leaf 28 16)) f.leaf f.level
  else .frame (leafKey die f.level f.leaf va) f.leaf f.level

/-- The walk of a VA without any effect: what the page table says now. -/
def State.peek (s : State) (die : Nat) (root : DWord) (va : BitVec 56) (write : Bool) : WalkOutcome :=
  match walkFrom s.mem s.poison va 3 root.toNat with
  | .error o => o
  | .ok f => leafOutcome die f va write

/-- The frame's location of an outcome, if it has one in this package or beyond its ports. -/
def WalkOutcome.key : WalkOutcome → Option Nat
  | .frame k _ _ => some k
  | _ => none

/-- The location of a byte of a peer's memory, by node, PASID and VA (R316). -/
def peerKey (node : Nat) (pasid : Half) (va : BitVec 56) : Nat := 2 ^ 90 + (node * 2 ^ 16 + pasid.toNat) * 2 ^ 56 + va.toNat

/-- Whether a location is a peer's, and its node, PASID and VA. -/
def isPeerKey (k : Nat) : Bool := decide (2 ^ 90 ≤ k)
def peerNode (k : Nat) : Nat := (k - 2 ^ 90) / 2 ^ 72
def peerPasid (k : Nat) : Half := BitVec.ofNat 16 ((k - 2 ^ 90) / 2 ^ 56)
def peerVa (k : Nat) : BitVec 56 := BitVec.ofNat 56 (k - 2 ^ 90)

/-- The location that a command's byte has; peers' bytes stand under their own numbers. -/
def WalkOutcome.place (o : WalkOutcome) (va : BitVec 56) : Option Nat :=
  match o with
  | .frame k _ _ => some k
  | .peer node pasid _ _ => some (peerKey node pasid va)
  | _ => none

/-- The leaf and the level of an outcome that is Translated (R310). -/
def WalkOutcome.leaf : WalkOutcome → Option (DWord × Nat)
  | .frame _ l n => some (l, n)
  | .peer _ _ l n => some (l, n)
  | _ => none

/-- The outcome for an access that reads beside what it writes, as an atomic does: it needs R too (R310). -/
def WalkOutcome.needing (o : WalkOutcome) (reads : Bool) : WalkOutcome :=
  if reads && o.leaf.any fun l => !l.1.getLsbD 3 then .permission else o

end Sys2Proof.Machine
end

