-- ==== Sys2Proof/Machine/Route.lean ====
section
/-!
DEFINITION. The Waldlink side of an access: the topology map, the route table, the route check (R356 to R359),
packets (R353, R354) and the requests that this device makes of peers (R316, R361).
-/
namespace Sys2Proof.Machine

/-- Byte `i` of a list of bytes; 0 past its end. -/
def byteAt (bs : List Byte) (i : Nat) : Nat := (bs.getD i 0).toNat

/-- The little-endian number of `n` bytes from `i` on. -/
def numAt (bs : List Byte) (i n : Nat) : Nat := leNat ((List.range n).map fun j => bs.getD (i + j) 0)

/-- Whether the bytes from `i` to `j` are all 0. -/
def zeroAt (bs : List Byte) (i j : Nat) : Bool := (List.range (j + 1 - i)).all fun k => byteAt bs (i + k) == 0

/-! The topology map as last reloaded (R356, R359). -/

def topoSelf (t : List Byte) : Nat := numAt t 2 2
def topoMaxHops (t : List Byte) : Nat := byteAt t 4
def topoGm (t : List Byte) : Nat := numAt t 6 2
def topoKind (t : List Byte) (n : Nat) : Nat := byteAt t (64 + 528 * n)

/-- The offset of port record `k` of node `n`. -/
def portAt (n k : Nat) : Nat := 64 + 528 * n + 16 + 16 * k

/-- A port record's fields. -/
structure PortRec where
  ls       : Nat
  valid    : Bool
  peer     : Nat
  dim      : Nat
  dir      : Nat
  updn     : Nat
  dateline : Bool
deriving DecidableEq, Repr

def portRec (t : List Byte) (n k : Nat) : PortRec :=
  let o := portAt n k
  ⟨byteAt t o % 4, byteAt t o / 4 % 2 == 1, numAt t (o + 2) 2, byteAt t (o + 5), byteAt t (o + 6), byteAt t (o + 7),
    byteAt t (o + 8) % 2 == 1⟩

/-- What RouteCheck carries from hop to hop. -/
structure HopState where
  n        : Nat
  seenDown : Bool
  dim      : Option Nat
  dir      : Nat
  vc       : Nat
deriving DecidableEq, Repr

/-- One hop of RouteCheck over a port of the node (R358): the next state, or the cause. -/
def routeHop (cls vcField : Nat) (p : PortRec) (x : HopState) : Except Cause HopState :=
  if !p.valid || p.ls == 0 then .error .routePort
  else if 1 < vcField then .error .routeTurn
  else if cls = 0 then
    if p.dim = 0xFF ∨ (x.dim.any fun d => decide (p.dim < d)) then .error .routeTurn
    else if x.dim = some p.dim ∧ p.dir ≠ x.dir then .error .routeTurn
    else
      let vc := if x.dim = some p.dim then x.vc else 0
      if vcField ≠ vc then .error .routeTurn
      else .ok { x with n := p.peer, dim := some p.dim, dir := p.dir, vc := if p.dateline then 1 else vc }
  else if p.updn = 0xFF ∨ (p.updn = 0 ∧ x.seenDown) ∨ vcField ≠ 0 then .error .routeTurn
  else .ok { x with n := p.peer, seenDown := x.seenDown || p.updn == 1 }

/-- The hops of RouteCheck from hop `h` on, over the waymarks that remain (R358). -/
def routeHops (t : List Byte) (cls : Nat) : List Byte → Nat → HopState → Option Cause
  | [], _, _ => some .hopLimit
  | w :: r, h, x =>
    let port := w.toNat % 32
    if w.toNat / 128 = 1 then
      if 8 < port ∨ topoKind t x.n ≠ 1 then some .routePort
      else if topoMaxHops t < h then some .hopLimit
      else none
    else
      match routeHop cls (w.toNat / 32 % 4) (portRec t x.n port) x with
      | .error c => some c
      | .ok y => routeHops t cls r (h + 1) y

/-- RouteCheck on a 32-byte route record (R358); `none` is OK. -/
def routeCheck (t rec : List Byte) : Option Cause :=
  if 1 < byteAt rec 0 ∨ byteAt rec 1 ≠ 1 ∨ !zeroAt rec 2 7 ∨ !zeroAt rec 24 31 then some .routeTurn
  else routeHops t (byteAt rec 0) ((rec.drop 8).take 16) 0 ⟨topoSelf t, false, none, 0, 0⟩

/-- Route record `i` of a node (R357). -/
def routeRec (routes : List Byte) (node i : Nat) : List Byte := (routes.drop (128 * node + 32 * i)).take 32

/-- The record of a request to a node for a VA (R357). -/
def routeFor (routes : List Byte) (node : Nat) (va : BitVec 56) : List Byte :=
  let r := routeRec routes node (va.toNat / 2 ^ 16 % 4)
  if byteAt r 1 = 1 then r else routeRec routes node 0

/-- The cause for which a request to a node is not injected (R359). -/
def State.routeFault (s : State) (node : Nat) (va : BitVec 56) : Option Cause :=
  routeCheck s.topo (routeFor s.routes node va)

/-- The cause of a peer outcome whose route fails its check. -/
def State.peerFault (s : State) (o : WalkOutcome) (va : BitVec 56) : Option Cause :=
  match o with
  | .peer node _ _ _ => s.routeFault node va
  | _ => none

/-! Packets (R353, R354). -/

/-- One bit of CRC-32C, reflected form. -/
def crcBit (c : Nat) : Nat := if c % 2 = 1 then (c / 2) ^^^ 0x82F63B78 else c / 2

/-- CRC-32C of a list of bytes, from a running value. -/
def crcBytes : List Byte → Nat → Nat
  | [], c => c
  | b :: r, c => crcBytes r (crcBit (crcBit (crcBit (crcBit (crcBit (crcBit (crcBit (crcBit (c ^^^ b.toNat)))))))))

def crc32c (bs : List Byte) : Nat := crcBytes bs 0xFFFFFFFF ^^^ 0xFFFFFFFF

/-- The fields of a header beat beside its CRC (Table 1). -/
structure Header where
  way   : List Byte
  opc   : Nat
  nb    : Nat
  hop   : Nat
  src   : Nat
  pasid : Nat
  va    : Nat
  tag   : Nat
  len   : Nat
  cause : Nat
  arg   : Nat
deriving DecidableEq, Repr

/-- Bytes 0 to 59 of a header with a HOP. -/
def Header.head (h : Header) (hop : Nat) : List Byte :=
  (h.way ++ List.replicate 16 0).take 16 ++ leBytes 1 h.opc ++ leBytes 1 h.nb ++ leBytes 1 hop ++ [0]
    ++ leBytes 2 h.src ++ leBytes 2 h.pasid ++ leBytes 8 h.va ++ leBytes 4 h.tag ++ leBytes 2 h.len
    ++ leBytes 1 h.cause ++ [0] ++ leBytes 16 h.arg ++ [0, 0, 0, 0]

/-- The header beat, with its CRC over HOP 0. -/
def Header.beat (h : Header) : BitVec 512 :=
  BitVec.ofNat 512 (leNat (h.head h.hop ++ leBytes 4 (crc32c (h.head 0))))

/-- The fields of a header beat. -/
def headerOf (b : BitVec 512) : Header :=
  let n := fun off w => b.toNat / 2 ^ (8 * off) % 2 ^ (8 * w)
  { way := leBytes 16 (n 0 16), opc := n 16 1, nb := n 17 1, hop := n 18 1, src := n 20 2, pasid := n 22 2, va := n 24 8,
    tag := n 32 4, len := n 36 2, cause := n 38 1, arg := n 40 16 }

/-- Whether a receiver keeps a packet (R353): its OPC is known, its MBZ bits are 0, its lengths are legal and its CRC
is right. -/
def headerOk (b : BitVec 512) : Bool :=
  let h := headerOf b
  decide (1 ≤ h.opc) && decide (h.opc ≤ 11) && decide (h.nb ≤ 8) && decide (h.src < 4096) && decide (h.va < 2 ^ 56)
    && h.len % 16 == 0 && decide (h.len ≤ 512) && h.beat == b

/-- Packets that stand at this device, not yet forwarded, carry this port number. -/
def atDevice : Nat := 32

/-- The time of the hub die, the package's time master (R362). -/
def State.hubTime (s : State) : DWord := (s.dies.find? fun d => d.1 == 8).elim 0 fun d => d.2.time

/-- A packet is injected at this device (R354). -/
def State.inject (s : State) (h : Header) (data : List Byte) : State :=
  { s with packets := s.packets ++ [⟨h.beat, data, atDevice, s.hubTime⟩] }

/-- The waymarks of a route record. -/
def wayOf (rec : List Byte) : List Byte := (rec.drop 8).take 16

/-- A request to a peer: the packet is injected and the request awaits its response (R316, R361). -/
def State.sendRequest (s : State) (opc node : Nat) (pasid : Half) (va : BitVec 56) (arg : Nat) (data : List Byte)
    (len : Nat) (r : PeerRequest) : State :=
  let h : Header :=
    { way := wayOf (routeFor s.routes node va), opc := opc, nb := (data.length + 63) / 64, hop := 0,
      src := topoSelf s.topo, pasid := pasid.toNat, va := va.toNat, tag := s.nextTag.toNat, len := len, cause := 0,
      arg := arg }
  { (s.inject h data) with requests := s.requests ++ [{ r with tag := s.nextTag, opc := opc, stale := false }], nextTag := s.nextTag + 1 }

/-- The READs under way of a unit's bytes are stale once this device has asked the peer to change them: their answers may
come from before it (R29, R316). -/
def State.markStale (s : State) (unit : Nat) : State :=
  { s with requests := s.requests.map fun q => if q.opc = 1 ∧ q.key / 16 = unit / 16 then { q with stale := true } else q }

/-- A request for the aligned 16-byte unit of a peer's location (DESIGN CHOICE, log entry 21). -/
def State.sendUnit (s : State) (opc unit : Nat) (arg : Nat) (data : List Byte) (r : PeerRequest) : State :=
  (if opc = 1 then s else s.markStale unit).sendRequest opc (peerNode unit) (peerPasid unit) (peerVa unit) arg data 16 { r with key := unit }

/-- The 16-byte units of peers that a list of locations touches, once each: their first locations. -/
def peerUnits (ks : List Nat) : List Nat := ((ks.filter isPeerKey).map fun k => k / 16 * 16).eraseDups

/-- The writes to peers among the bytes written: one WRITE for each 16-byte unit, with the bytes it now has. -/
def State.sendWrites (s : State) (ks : List Nat) (r : PeerRequest) : State :=
  (peerUnits ks).foldl (fun s q => s.sendUnit 2 q 0 ((List.range 16).map fun i => Memory.read s.mem (q + i)) r) s

/-- The reads of peers: one READ for each 16-byte unit. -/
def State.sendReads (s : State) (ks : List Nat) (r : PeerRequest) : State :=
  (peerUnits ks).foldl (fun s q => s.sendUnit 1 q 0 [] r) s

/-- The request of a supervisor thread. -/
def supRequest (a : Agent) (now : DWord) : PeerRequest :=
  { tag := 0, opc := 0, who := some a.who, die := a.place.die, seq := 0, ctx := a.ctx, launch := 0, sent := now, key := 0,
    unit := none, det := false, stale := false }

end Sys2Proof.Machine
end

