-- ==== Sys2Proof/Machine/Ops.lean ====
section
/-!
DEFINITION. The shared operations: sparse stores, memory by location, the registers of an agent with the writes its
chain holds (R53), latches and chains (R50 to R53), taking a trap and returning from one (R279, R320), barriers
(R147 to R152), and the lookups of agents, units, dies and contexts.
-/
namespace Sys2Proof.Machine

/-- The outcome of an instruction or a step. -/
abbrev Out := Host.Outcome State Fault Refusal

/-! Codes of the causes (R322). -/

def Cause.code : Cause → Nat
  | .illegalOpcode => 0x01 | .illegalField => 0x02 | .illegalRegister => 0x03 | .latchChain => 0x04
  | .quota => 0x05 | .wrongUnit => 0x06 | .privileged => 0x07 | .illegalScope => 0x08 | .pcAlign => 0x09
  | .zeroHalfword => 0x0A | .splitDepth => 0x0B | .breakpoint => 0x0C
  | .pipeResidue => 0x20 | .pipeParity => 0x21
  | .range => 0x40 | .align => 0x41 | .genStore => 0x42 | .tensorRecord => 0x43 | .tensorId => 0x44
  | .tensorExtent => 0x45 | .spillOverflow => 0x46 | .genOff => 0x47
  | .pageNotPresent => 0x60 | .permission => 0x61 | .asid => 0x62 | .pteContention => 0x63
  | .replicaLockTimeout => 0x64 | .pteFormat => 0x65
  | .deadlineMissed => 0x80 | .timedInDet => 0x81 | .timeUndisciplined => 0x82
  | .barrierHandle => 0x90 | .barrierOvercount => 0x91 | .copyFault => 0x92 | .queueEntry => 0x93
  | .mxOperand => 0x94 | .dceParam => 0x95
  | .ticketUnknown => 0xA0 | .ticketVersionRetired => 0xA1 | .shelfFull => 0xA2 | .updateParam => 0xA3
  | .mergeConflict => 0xB0 | .detViolation => 0xB1
  | .routeTurn => 0xC0 | .routePort => 0xC1 | .hopLimit => 0xC2 | .linkDown => 0xC3
  | .uncorrectable => 0xD0 | .digestMismatch => 0xD1 | .thermal => 0xD2
  | .partition => 0xE0 | .hsem => 0xE1 | .contextBusy => 0xE2
  | .software n => 0xF0 + n.toNat

/-! What an unlisted entry of each store holds. -/

def Lanes.zero : Lanes := Lanes.make fun _ => 0
def Xt.zero : Xt := ⟨0, 0, .device, 0, 0, 0⟩
def HandleSlot.fresh : HandleSlot := ⟨1, none⟩
def Barrier.fresh : Barrier := ⟨false, false, 0, 0, 0, 0, 0, 0, 0, 0, 1⟩
def Cluster.fresh : Cluster := ⟨[], [], [], [], [], [], [], [], []⟩
def Core.fresh : Core := ⟨none, []⟩
def Die.fresh : Die :=
  { time := 0, disciplined := false, sinceSlew := 0, offset := 0, slew := 0, halfTick := false, lastEx := 0, copyQ := [],
    heldT := [], bulkQ := [], dceQ := [], updQ := [], tlb := [], walks := [], contended := [], throttled := false,
    corrected := [] }
def Context.fresh : Context :=
  { tensors := [], windows := [], nextId := 1, shelfGen := [], shelfUse := [], kvmap := [], kvFree := [],
    kvReqs := [], kvAsk := [], kvEvents := 0, runs := [], nextGraph := 0, nextPhase := 0, taken := 0,
    badProd := none, launchDone := 0, graphDone := 0, phaseDone := 0, exposed := 0, committed := [], waitPub := [],
    heldPub := [] }
def Partition.fresh : Partition := ⟨[], 0, [], 0, 0, false⟩
def Port.fresh : Port := ⟨0, 0, 0, 0, 0⟩

def State.die (s : State) (d : Nat) : Die := Store.get Die.fresh s.dies d
def State.setDie (s : State) (d : Nat) (x : Die) : State := { s with dies := Store.set Die.fresh s.dies d x }
def State.context (s : State) (c : Nat) : Context := Store.get Context.fresh s.contexts c
def State.setContext (s : State) (c : Nat) (x : Context) : State :=
  { s with contexts := Store.set Context.fresh s.contexts c x }
def State.cluster (s : State) (d c : Nat) : Cluster := Store.get Cluster.fresh s.clusters (d * 4 + c)
def State.setCluster (s : State) (d c : Nat) (x : Cluster) : State :=
  { s with clusters := Store.set Cluster.fresh s.clusters (d * 4 + c) x }
def State.core (s : State) (d c k : Nat) : Core := Store.get Core.fresh s.cores ((d * 4 + c) * 128 + k)
def State.setCore (s : State) (d c k : Nat) (x : Core) : State :=
  { s with cores := Store.set Core.fresh s.cores ((d * 4 + c) * 128 + k) x }
def State.part (s : State) (p : Nat) : Partition := Store.get Partition.fresh s.parts p
def State.setPart (s : State) (p : Nat) (x : Partition) : State :=
  { s with parts := Store.set Partition.fresh s.parts p x }

/-- A control register of a context (R282). -/
def State.ctxReg (s : State) (ctx num : Nat) : DWord := Store.get 0 s.cr (ctx * 4096 + num)

/-- A context's control registers as they stand: what an accepted operation uses from then on (R283). -/
def State.regsOf (s : State) (ctx : Nat) : Store DWord := s.cr.filter fun r => r.1 / 4096 == ctx

/-- The registers that are read when they are needed: CTXCFG, GRACE and STATUS (R139, R283). -/
def readLate (num : Nat) : Bool := num == 0x000 || num == 0x003 || num == 0x004

/-- The control registers `cr` with those of a context that an operation captured in place of its own. -/
def crWith (cr : Store DWord) (ctx : Nat) (regs : Store DWord) : Store DWord :=
  (cr.filter fun r => decide (r.1 / 4096 < ctx))
    ++ (cr.filter fun r => r.1 / 4096 == ctx && readLate (r.1 % 4096)).foldl (fun m r => Store.set 0 m r.1 r.2)
      (regs.filter fun r => !readLate (r.1 % 4096))
    ++ (cr.filter fun r => decide (ctx < r.1 / 4096))

/-- A step of an accepted operation, which uses the context's registers as they stood at its acceptance (R283). -/
def underRegs (ctx : Nat) (regs : Store DWord) (f : State → Out) (s : State) : Out :=
  match f { s with cr := crWith s.cr ctx regs } with
  | .next t => .next { t with cr := crWith t.cr ctx (s.regsOf ctx) }
  | o => o

/-- An effect of an accepted operation, under the context's registers as they stood at its acceptance (R283). -/
def State.withRegs (s : State) (ctx : Nat) (regs : Store DWord) (f : State → State) : State :=
  let t := f { s with cr := crWith s.cr ctx regs }
  { t with cr := crWith t.cr ctx (s.regsOf ctx) }

/-- A device-wide control register. -/
def State.devReg (s : State) (num : Nat) : DWord := Store.get 0 s.cr (64 * 4096 + num)

/-- The partition of a context (CTXCFG.PART). -/
def State.partOf (s : State) (ctx : Nat) : Nat := ((s.ctxReg ctx 0x000).extractLsb' 4 3).toNat

/-- The ASID and the root table of a context. -/
def State.asidOf (s : State) (ctx : Nat) : Half := (s.ctxReg ctx 0x001).extractLsb' 0 16
def State.rootOf (s : State) (ctx : Nat) : DWord := s.ctxReg ctx 0x002

/-- The dies of a partition. -/
def State.partDies (s : State) (p : Nat) : BitVec 8 := (s.devReg (0x800 + p)).extractLsb' 0 8

/-- Whether a core is quarantined (R282, R349). -/
def State.quarantined (s : State) (d c k : Nat) : Bool :=
  let bit := 128 * (4 * d + c) + k
  (s.devReg (0x808 + bit / 64)).getLsbD (bit % 64)

/-- The next free value, and the state that has used it (DESIGN CHOICE, log entry 4). -/
def State.freeWord (s : State) : DWord := Config.freeWord s.free
def State.useFree (s : State) : State := { s with free := s.free + 1 }

/-! Agents and units. -/

/-- A supervisor core that serves a partition, and whether a thread's core does (DESIGN CHOICE, log entry 36). -/
def keeperOf (p : Nat) : Nat := Config.keeper p % (Config.moreSupervisors + 1)
def Agent.serves (a : Agent) (p : Nat) : Bool :=
  match a.who with | .sup k => Config.serves k p || k == keeperOf p | _ => false

/-- The agent with a name. -/
def State.agent (s : State) (w : Who) : Option Agent :=
  if s.me.who = w then some s.me else s.agents.find? fun a => a.who == w

/-- The state in which the agent of that name is `a`. -/
def State.setAgent (s : State) (a : Agent) : State :=
  if s.me.who = a.who then { s with me := a }
  else { s with agents := s.agents.map fun b => if b.who = a.who then a else b }

/-- All agents. -/
def State.allAgents (s : State) : List Agent := s.me :: s.agents

/-- The state with every agent changed. -/
def State.mapAgents (s : State) (f : Agent → Agent) : State := { s with me := f s.me, agents := s.agents.map f }

def State.unit (s : State) (u : UnitKey) : Option WorkUnit := s.units.find? fun x => x.key == u

def State.setUnit (s : State) (x : WorkUnit) : State :=
  { s with units := s.units.map fun y => if y.key = x.key then x else y }

/-- The newest launch of a context with an id; new launches stand first. -/
def State.launch (s : State) (ctx : Nat) (id : Word) : Option Launch :=
  s.launches.find? fun l => l.ctx == ctx && l.id == id

def State.setLaunch (s : State) (x : Launch) : State :=
  { s with launches := s.launches.map fun l => if l.age = x.age then x else l }

/-! Memory as a unit sees it: a deterministic unit reads and writes its snapshot (R181). -/

/-- Whether a location is of the memory that a deterministic unit has a snapshot of: die scratchpad and HBM. -/
def snapKey (k : Nat) : Bool := k < 2 ^ 52

def State.snapOf (s : State) (u : UnitKey) : Option Snapshot := (s.unit u).bind fun x => x.snap

/-- The byte that a launch has staged for a location (R341). -/
def stagedByte (l : Launch) (k : Nat) : Option Byte :=
  l.replay.bind fun r => ((r.staged.flatMap fun w => w.cells).reverse.find? fun c => c.1 == k).map fun c => c.2

/-- The byte a unit reads at a location: its snapshot's, or what its launch has staged, or memory's. -/
def State.readByte (s : State) (u : UnitKey) (k : Nat) : Byte :=
  match (if snapKey k then s.snapOf u else none) with
  | some sn => Memory.read sn.mem k
  | none =>
    if k < 2 ^ 56 then Memory.read s.mem k
    else (((s.launch u.ctx u.launch).bind fun l => stagedByte l k)).getD (Memory.read s.mem k)

/-- The bytes a unit reads at a list of locations. -/
def State.readKeys (s : State) (u : UnitKey) (ks : List Nat) : List Byte := ks.map (s.readByte u)

/-- The number of little-endian bytes from a location on. -/
def State.readLE (s : State) (u : UnitKey) (k n : Nat) : Nat :=
  leNat (s.readKeys u ((List.range n).map fun i => k + i))

/-- A list of location numbers with one more, in order and once. -/
def insertKey (k : Nat) : List Nat → List Nat
  | [] => [k]
  | x :: r => if k < x then k :: x :: r else if k = x then x :: r else x :: insertKey k r

/-- The 16-byte units that a list of written cells covers whole. -/
def wholeUnits (cells : List (Nat × Byte)) : List Nat :=
  (cells.map fun c => c.1 / 16).eraseDups.filter fun q =>
    (List.range 16).all fun i => cells.any fun c => c.1 == q * 16 + i

/-- The poisoned units after a write: a unit written whole is no longer poisoned (R338). -/
def clearPoison (poison : List Nat) (cells : List (Nat × Byte)) : List Nat :=
  if poison.isEmpty then poison else let w := wholeUnits cells; poison.filter fun q => !w.contains q

/-- On whose behalf a write is made: a launch of a context, or the device and its supervisor. -/
abbrev Writer := Nat × Word
def deviceWriter : Writer := (64, 0)

/-- The owners of the die scratchpads' pages after a write (R285). -/
def ownPages (m : Store Nat) (w : Writer) (cells : List (Nat × Byte)) : Store Nat :=
  (cells.filter fun c => decide (2 ^ 40 ≤ c.1) && decide (c.1 < 2 ^ 40 + 2 ^ 31)).foldl
    (fun m c => Store.set 0 m (c.1 / 65536) (w.1 + 1)) m

/-- Bytes are zeroed: they hold no poison, and pages wholly among them have no owner (R285). -/
def State.zeroBytes (s : State) (base len : Nat) : State :=
  let inside := fun k => decide (base ≤ k) && decide (k < base + len)
  { s with mem := s.mem.filter fun c => !inside c.1, poison := s.poison.filter fun q => !inside (q * 16),
           padOwner := s.padOwner.filter fun p => !inside (p.1 * 65536) }

/-! The lines that hosts monitor, and what covers the writes to them (R169, R289; log entry 56). -/

/-- The monitored lines with their holders changed. -/
def State.mapMonitors (s : State) (f : Nat → List Holder → List Holder) : State :=
  if s.monitors.isEmpty then s else { s with monitors := s.monitors.map fun m => (m.1, f m.1 m.2) }

/-- Holders with one more. -/
def addHolder (h : Holder) (l : List Holder) : List Holder := if l.contains h then l else h :: l

/-- The monitored lines that writes touch are held by `h`. -/
def State.holdLines (s : State) (h : Holder) (keys : List Nat) : State :=
  s.mapMonitors fun n l => if keys.any fun k => k / 64 == n then addHolder h l else l

/-- `h` comes to hold every line that something in `p` holds: by program order, by a release, or by an acquire (R169). -/
def State.passHold (s : State) (p : Holder → Bool) (h : Holder) : State :=
  s.mapMonitors fun _ l => if l.any p then addHolder h l else l

/-- What holds the writes of a launch's own milestones and completion, and whether a holder is of a launch. -/
def launchHolder (ctx : Nat) (id : Word) : Holder := .agent (.thread ⟨ctx, id, 2 ^ 32⟩)
def whoOf (ctx : Nat) (id : Word) : Who → Bool
  | .group u _ | .thread u => u.ctx == ctx && u.launch == id
  | .sup _ => false
def Holder.ofLaunch (ctx : Nat) (id : Word) : Holder → Bool
  | .agent w | .command w _ => whoOf ctx id w
  | _ => false

/-- A write takes the place of releases at its locations; one of the device is a write that the device holds. -/
def State.noteWrites (s : State) (w : Writer) (cells : List (Nat × Byte)) : State :=
  let s := s.mapMonitors fun _ l => l.filter fun h => match h with
    | .place k _ _ => !cells.any fun c => c.1 == k
    | _ => true
  if w = deviceWriter then s.holdLines .device (cells.map fun c => c.1) else s

/-- The hosts are sent the snoops of the monitored lines for which `p` holds, and hold them no longer (R289). -/
def State.snoop (s : State) (p : Nat × List Holder → Bool) : State :=
  { s with snoops := s.snoops ++ ((s.monitors.filter p).map fun m => m.1), monitors := s.monitors.filter fun m => !p m }

/-- A release at `.sys` of a holder has performed: the hosts are sent the snoops of the monitored lines that it covers, those
with a write that the holder has made or acquired (R169, R289; DESIGN CHOICE, log entry 56). -/
def State.releaseSys (s : State) (h : Holder) : State := s.snoop fun m => m.2.contains h

/-- What holds an agent's writes: a supervisor thread's are the device's. -/
def Agent.holder (a : Agent) : Holder := if a.kind = .sup then .device else .agent a.who

/-- Writes to the context's memory itself: by the device, or by a unit without a snapshot. -/
def State.writeMemAs (s : State) (w : Writer) (cells : List (Nat × Byte)) : State :=
  { s with mem := Memory.writeAll s.mem cells, poison := clearPoison s.poison cells,
           padOwner := ownPages s.padOwner w cells }.noteWrites w cells
def State.writeMem (s : State) (cells : List (Nat × Byte)) : State := s.writeMemAs deviceWriter cells

/-! A context's own tables, which the supervisor installs by VA in the context's space (DEDUCED, log entry 25). -/

/-- The lowest die that keeps a context's replicas. -/
def State.firstDie (s : State) (ctx : Nat) : Nat :=
  ((List.range 8).find? fun d => (s.partDies (s.partOf ctx)).getLsbD d).getD 0

/-- The location of a byte of a context's VA, as its page table says now. -/
def State.ctxKey (s : State) (ctx va : Nat) (write : Bool) : Option Nat :=
  (s.peek (s.firstDie ctx) (s.rootOf ctx) (BitVec.ofNat 56 va) write).place (BitVec.ofNat 56 va)

/-- Bytes of a context's table; a byte that is not readable or is poisoned reads 0 (R338; log entry 25). -/
def State.ctxRead (s : State) (ctx va n : Nat) : List Byte :=
  (List.range n).map fun i =>
    match s.ctxKey ctx (va + i) false with
    | some k => if s.poison.contains (k / 16) then 0 else Memory.read s.mem k
    | none => 0

def State.ctxNum (s : State) (ctx va n : Nat) : Nat := leNat (s.ctxRead ctx va n)

/-- The locations and bytes of a write to a context's table. -/
def State.ctxCells (s : State) (ctx va : Nat) (bs : List Byte) : List (Nat × Byte) :=
  (List.range bs.length).filterMap fun i => (s.ctxKey ctx (va + i) true).map fun k => (k, bs.getD i 0)

/-- Bytes written to a context's table by the device. -/
def State.ctxWrite (s : State) (ctx va : Nat) (bs : List Byte) : State := s.writeMem (s.ctxCells ctx va bs)

/-! Asynchronous faults (R320). -/

/-- What a fault record says beyond its cause: reporting lane, address, detail, second detail, sub-reason, and of
an engine's its place in the order of R325. -/
structure FaultInfo where
  lane   : Option Nat
  addr   : DWord
  detail : DWord
  aux    : DWord
  sub    : Nat
  engine : Nat
deriving DecidableEq, Repr

def FaultInfo.none : FaultInfo := ⟨Option.none, 0, 0, 0, 0, 0⟩

/-- An asynchronous fault of a launch (R320). -/
def raiseAsync (s : State) (c : Cause) (ctx : Nat) (launch : Word) (unit : Option Nat) (det : Bool) (i : FaultInfo)
    (time : DWord) (pc : Word) : State :=
  { s with pending := s.pending ++
      [{ cause := c, kind := .asynchronous, sub := i.sub, lane := none, ctx := ctx, launch := launch, unit := unit,
         who := none, place := none, group := 0, csq := false, em := 0, headPc := 0, pc := pc, inChain := false,
         det := det, addr := i.addr, detail := i.detail, aux := i.aux, throttled := false, time := time,
         engine := i.engine, cycle := Option.none, policy := Option.none }] }

/-! Writes of launches (R340 to R343). -/

/-- The kind of a launch record (R183), the DET flag of a kernel descriptor (R67), and whether a launch is deterministic. -/
def lnKind (r : BitVec 1024) : Nat := recBits r 0x23 4 4
def kdDet (d : BitVec 256) : Bool := recBits d 9 0 1 == 1
def Launch.det (l : Launch) : Bool := lnKind l.raw == 0 && kdDet l.desc

/-- The 64 KiB pages of HBM and scratchpads that writes touch. -/
def pagesOf (cells : List (Nat × Byte)) : List Nat :=
  ((cells.filter fun c => snapKey c.1).map fun c => c.1 / 2 ^ 16).eraseDups

/-- Whether a location lies beyond the package: host, CXL, peer or PCIe-window memory. -/
def outwardKey (k : Nat) : Bool := decide (2 ^ 56 ≤ k)

/-- Whether another incomplete launch has copied a page. -/
def State.copiedByOther (s : State) (l : Launch) (p : Nat) : Bool :=
  s.launches.any fun k => k.age != l.age && !k.complete && k.replay.any fun r => r.copies.any fun c => c.1 == p

/-- Bytes of a context's staging area in use (R340, R342). -/
def State.stagingUsed (s : State) (ctx : Nat) : Nat :=
  ((s.launches.filter fun l => l.ctx == ctx).map fun l =>
    match l.replay with
    | some r => r.copies.length * 2 ^ 16 + (r.staged.map fun w => w.cells.length).sum
    | none => 0).sum

/-- Bytes that the staging area of a launch's context holds: CR.STAGING as the launch has it (R283; log entry 75). -/
def Launch.stagingSize (l : Launch) : Nat := bitsOf l.staging 0 16 * 2 ^ 16

/-- The location of a byte at a VA that a translation register covers (R97, R316). -/
def Xt.key (x : Xt) (va : BitVec 56) : Nat :=
  let at' := x.frame.toNat + (va - x.vbase).toNat
  match x.space with
  | .device => at'
  | .outer mt port => outerKey mt port at'
  | .peer node pasid => peerKey node pasid va

/-- The translation registers that a die's row commands of a context hold. -/
def Die.rowXts (d : Die) (ctx : Nat) : List Xt :=
  d.copyQ.filterMap fun c => match c.work with
    | .rows _ _ _ _ _ _ xt => if c.unit.ctx = ctx then some xt else none
    | _ => none

/-- A VA of a context whose byte a location beyond the package is: by the translations the dies hold, through one of which
a write there has gone; else the lowest at which the page table maps it (DESIGN CHOICE, log entry 12, where that is not the
only one, or there is none). -/
def State.vaOfKey (s : State) (ctx k : Nat) : Nat :=
  let hit := (List.range 8).findSome? fun d =>
    (s.die d).tlb.findSome? fun t =>
      if !t.ptr ∧ t.asid = s.asidOf ctx then
        match leafOutcome d ⟨0, t.level, t.leaf⟩ t.base false with
        | .frame f _ _ => if f ≤ k ∧ k < f + pageSize t.level then some (t.base.toNat + (k - f)) else none
        | _ => none
      else none
  let row := (List.range 8).findSome? fun d => ((s.die d).rowXts ctx).findSome? fun x =>
    let first := x.key x.vbase
    if first ≤ k ∧ k < first + x.limit.toNat then some (x.vbase.toNat + (k - first)) else none
  let table := (vasFrom s.mem (s.firstDie ctx) k 3 (s.rootOf ctx).toNat 0).min?
  if isPeerKey k then (peerVa k).toNat else ((hit.or row).or table).getD (s.freeWord.toNat % 2 ^ 56)

/-- Exposure entries for writes made visible, given as (VA, length) (R342). -/
def State.logExposures (s : State) (l : Launch) : List (Nat × Nat) → State
  | [] => s
  | (va, n) :: r =>
    let reg := l.explog
    let slots := 32 * bitsOf reg 0 12
    let c := s.context l.ctx
    let bs := leBytes 4 l.id.toNat ++ leBytes 2 l.ctx ++ [0, 0] ++ leBytes 8 va ++ leBytes 4 n ++ [0, 0, 0, 0]
      ++ leBytes 8 (s.die (l.dies.headD 0)).time.toNat
    let s := if slots = 0 then s else s.ctxWrite l.ctx (bitsOf reg 12 44 * 2 ^ 12 + 32 * (c.exposed % slots)) bs
    State.logExposures (s.setContext l.ctx { c with exposed := c.exposed + 1 }) l r

/-- The cause for which a write to a peer's location is not injected (R358, R359). -/
def State.keyFault (s : State) (k : Nat) : Option Cause := if isPeerKey k then s.routeFault (peerNode k) (peerVa k) else none

/-- The request that a launch's writes to peers make, where they are not made by one command. -/
def State.launchRequest (s : State) (l : Launch) : PeerRequest :=
  { tag := 0, opc := 0, who := none, die := l.dies.headD 0, seq := 0, ctx := l.ctx, launch := l.id,
    sent := (s.die (l.dies.headD 0)).time, key := 0, unit := none, det := l.det, stale := false }

/-- Writes of a launch that have waited are made by `write`, with a WRITE for each peer's unit; one whose route fails its
check is not made, and the launch is told (R358, R359). -/
def State.sendOut (s : State) (l : Launch) (cells : List (Nat × Byte)) (write : State → List (Nat × Byte) → State) : State :=
  let ok := cells.filter fun c => (s.keyFault c.1).isNone
  let t := (write s ok).sendWrites (ok.map fun c => c.1) (s.launchRequest l)
  match cells.findSome? fun c => s.keyFault c.1 with
  | some c => raiseAsync t c l.ctx l.id none l.det .none (s.die (l.dies.headD 0)).time 0
  | none => t

/-- A launch becomes non-replayable (R342): its copies are freed and its staged writes reach their targets. -/
def State.expose (s : State) (l : Launch) : State :=
  match l.replay with
  | none => s
  | some r =>
    ((s.setLaunch { l with replay := none }).sendOut l (r.staged.flatMap fun w => w.cells) fun s => s.writeMemAs (l.ctx, l.id)).logExposures
      l (r.staged.map fun w => (w.va, w.cells.length))

/-- A unit's launch becomes non-replayable (R342). -/
def State.exposeUnit (s : State) (u : UnitKey) : State :=
  match s.launch u.ctx u.launch with
  | some l => s.expose l
  | none => s

/-- The cells of a write one after another as the writes of consecutive VAs that they are. -/
def groupWrites : List (Nat × Nat × Byte) → List OutWrite
  | [] => []
  | (va, k, b) :: r =>
    match groupWrites r with
    | w :: t => if va + 1 = w.va then ⟨va, (k, b) :: w.cells⟩ :: t else ⟨va, [(k, b)]⟩ :: w :: t
    | [] => [⟨va, [(k, b)]⟩]

/-- What of a write leaves the package, as one write from the VA that it used; where that is not given, by the VAs that its
locations have (DESIGN CHOICE, log entry 12). -/
def State.outWrites (s : State) (ctx : Nat) (va : Option Nat) (cells : List (Nat × Byte)) : List OutWrite :=
  let out := cells.filter fun c => outwardKey c.1
  match va with
  | some v => if out.isEmpty then [] else [⟨v + cells.findIdx fun c => outwardKey c.1, out⟩]
  | none => groupWrites (out.map fun c => (s.vaOfKey ctx c.1, c))

/-- Writes of a launch that no longer can be rolled back, or never could: a launch that has lost its snapshot logs
those that leave the package. -/
def State.plainWrite (s : State) (l : Launch) (va : Option Nat) (cells : List (Nat × Byte)) : State :=
  let s := s.writeMemAs (l.ctx, l.id) cells
  if l.replayable && !l.complete then
    s.logExposures l ((s.outWrites l.ctx va cells).map fun w => (w.va, w.cells.length))
  else s

/-- Pages of a launch's writes that it has not copied yet, and whether the writes cost it its snapshot: a page that another
launch has copied, or a staging area that is too small for the copies and the staged bytes (R341, R342). -/
def Replay.fresh (r : Replay) (cells : List (Nat × Byte)) : List Nat :=
  (pagesOf cells).filter fun p => !r.copies.any fun c => c.1 == p
def State.wouldExpose (s : State) (l : Launch) (r : Replay) (cells : List (Nat × Byte)) : Bool :=
  ((r.fresh cells).any fun p => s.copiedByOther l p)
    || decide (l.stagingSize < s.stagingUsed l.ctx + ((r.fresh cells).length * 2 ^ 16 + (cells.filter fun c => outwardKey c.1).length))

/-- Writes of a launch to its context's memory (R340 to R342): a page is copied before the launch first writes it,
and writes beyond the package are staged. `va` is the VA of the first byte, where it is one write of consecutive VAs. -/
def State.launchWrite (s : State) (ctx : Nat) (id : Word) (va : Option Nat) (cells : List (Nat × Byte)) : State :=
  match s.launch ctx id with
  | none => s.writeMemAs (ctx, id) cells
  | some l =>
    let pages := pagesOf cells
    let l := { l with wrote := pages.foldl (fun w p => insertKey p w) l.wrote }
    let s := s.setLaunch l
    match l.replay with
    | none => s.plainWrite l va cells
    | some r =>
      if s.wouldExpose l r cells then
        let s := s.expose l
        s.plainWrite { l with replay := none } va cells
      else
        let fresh := r.fresh cells
        let copies := fresh.map fun p => (p, s.mem.filter fun c => c.1 / 2 ^ 16 == p)
        let staged := s.outWrites ctx va cells
        let bad := s.poison.filter fun q => fresh.contains (q / 2 ^ 12)
        (s.setLaunch { l with replay := some ⟨r.copies ++ copies, r.staged ++ staged, r.poison ++ bad⟩ }).writeMemAs (ctx, id)
          (cells.filter fun c => !outwardKey c.1)

/-- The walker's write of a leaf on behalf of a unit's launch, or of the supervisor: a release at `.sys` (R313, R340). -/
def State.sysWrite (s : State) (u : Option UnitKey) (cells : List (Nat × Byte)) : State :=
  let s := match u with | some u => s.launchWrite u.ctx u.launch none cells | none => s.writeMem cells
  s.snoop fun m => cells.any fun c => c.1 / 64 == m.1

/-- Whether a unit's writes beyond the package reach their targets at once: it has no snapshot and its launch stages
nothing (R181, R341). -/
def State.goesOut (s : State) (u : UnitKey) : Bool :=
  (s.snapOf u).isNone && !((s.launch u.ctx u.launch).any fun l => l.replay.isSome)

/-- A unit's writes in order. A deterministic unit writes its snapshot, and holds writes beyond the package until
the milestone (R181). `va` is the VA of the first byte, where the cells are one write of consecutive VAs. -/
def State.writeVia (s : State) (u : UnitKey) (va : Option Nat) (cells : List (Nat × Byte)) : State :=
  match s.unit u with
  | some x =>
    match x.snap with
    | some sn =>
      let inner := cells.filter fun c => snapKey c.1
      let own := cells.filter fun c => !snapKey c.1 && !decide (2 ^ 56 ≤ c.1)
      let sn := { sn with mem := Memory.writeAll sn.mem inner,
                          written := (cells.filter fun c => snapKey c.1 || outwardKey c.1).foldl (fun w c => insertKey c.1 w) sn.written,
                          outward := sn.outward ++ s.outWrites u.ctx va cells }
      (s.setUnit { x with snap := some sn }).writeMem own
    | none => s.launchWrite u.ctx u.launch va cells
  | none => s.writeMem cells

/-- A unit's writes to locations. -/
def State.writeCells (s : State) (u : UnitKey) (cells : List (Nat × Byte)) : State := s.writeVia u none cells

/-! Registers of an agent. A read sees the writes that the chain of its own sub-group holds (R53). -/

/-- The lanes of `new` under a mask, those of `old` elsewhere. -/
def Lanes.merge (mask : Word) (new old : Lanes) : Lanes :=
  Lanes.make fun l => if mask.getLsbD l then new.at l else old.at l

/-- The newest held value of a lane of a register. -/
def heldLane : List HeldV → Nat → Nat → Option Word
  | [], _, _ => none
  | h :: r, n, l => if h.reg = n ∧ h.mask.getLsbD l then some (h.vals.at l) else heldLane r n l

/-- v[n] of a lane. -/
def Agent.readV (a : Agent) (n l : Nat) : Word :=
  (heldLane a.cur.held n l).getD ((Store.get Lanes.zero a.v n).at l)

/-- A write of the lanes of a mask to v[n], held by the chain. -/
def Agent.writeV (a : Agent) (n : Nat) (mask : Word) (vals : Lanes) : Agent :=
  { a with cur := { a.cur with held := ⟨n, mask, vals⟩ :: a.cur.held } }

/-- The newest held value of a g register for a sub-group. -/
def heldGVal : List HeldG → Nat → Nat → Option DWord
  | [], _, _ => none
  | ⟨i, .g r x⟩ :: t, sub, n => if i = sub ∧ r = n then some x else heldGVal t sub n
  | _ :: t, sub, n => heldGVal t sub n

def heldXtVal : List HeldG → Nat → Nat → Option Xt
  | [], _, _ => none
  | ⟨i, .xt r x⟩ :: t, sub, n => if i = sub ∧ r = n then some x else heldXtVal t sub n
  | _ :: t, sub, n => heldXtVal t sub n

def heldScratchVal : List HeldG → Nat → Nat → Option DWord
  | [], _, _ => none
  | ⟨i, .scratch r x⟩ :: t, sub, n => if i = sub ∧ r = n then some x else heldScratchVal t sub n
  | _ :: t, sub, n => heldScratchVal t sub n

/-- g[n]; g0 reads zero (R48). -/
def Agent.readG (a : Agent) (n : Nat) : DWord :=
  if n = 0 then 0 else (heldGVal a.heldG a.cur.id n).getD (Store.get 0 a.g n)

/-- A write to g[n]; a write to g0 is discarded (R48). -/
def Agent.writeG (a : Agent) (n : Nat) (x : DWord) : Agent :=
  if n = 0 then a else { a with heldG := ⟨a.cur.id, .g n x⟩ :: a.heldG }

def Agent.readXt (a : Agent) (n : Nat) : Xt :=
  (heldXtVal a.heldG a.cur.id n).getD (Store.get Xt.zero a.xt n)

def Agent.writeXt (a : Agent) (n : Nat) (x : Xt) : Agent := { a with heldG := ⟨a.cur.id, .xt n x⟩ :: a.heldG }

def Agent.readScratch (a : Agent) (n : Nat) : DWord :=
  (heldScratchVal a.heldG a.cur.id n).getD (Store.get 0 a.scratch n)

def Agent.writeScratch (a : Agent) (n : Nat) (x : DWord) : Agent :=
  { a with heldG := ⟨a.cur.id, .scratch n x⟩ :: a.heldG }

/-! Chains (R51 to R53). -/

/-- The registers a group-wide write names: its file and its number. -/
def GroupWrite.reg : GroupWrite → Nat × Nat
  | .g r _ => (0, r) | .xt r _ => (1, r) | .scratch r _ => (2, r)

/-- The register files after the held group-wide writes of a sub-group, oldest first. -/
def applyHeldG (a : Agent) (sub : Nat) : List HeldG → Agent
  | [] => a
  | h :: r =>
    let a := applyHeldG a sub r
    if h.sub = sub then
      match h.write with
      | .g n x => { a with g := Store.set 0 a.g n x }
      | .xt n x => { a with xt := Store.set Xt.zero a.xt n x }
      | .scratch n x => { a with scratch := Store.set 0 a.scratch n x }
    else a

/-- The held writes that stand after a sub-group's chain has ended: a sibling's older write to a register that the
chain wrote has been overtaken (R99: writes take effect in issue order). -/
def remainingHeldG (sub : Nat) : List HeldG → List (Nat × Nat) → List HeldG
  | [], _ => []
  | h :: r, seen =>
    if h.sub = sub then remainingHeldG sub r (h.write.reg :: seen)
    else if seen.contains h.write.reg then remainingHeldG sub r seen
    else h :: remainingHeldG sub r seen

/-- The lane registers after the held writes, oldest first. -/
def applyHeldV (v : Store Lanes) : List HeldV → Store Lanes
  | [] => v
  | h :: r =>
    let v := applyHeldV v r
    Store.set Lanes.zero v h.reg (Lanes.merge h.mask h.vals (Store.get Lanes.zero v h.reg))

/-- The chain ends: its writes become final and its instructions count as retired (R53). -/
def Agent.endChain (a : Agent) : Agent :=
  let b := applyHeldG a a.cur.id a.heldG
  { b with v := applyHeldV a.v a.cur.held, heldG := remainingHeldG a.cur.id a.heldG [],
           retired := a.retired + BitVec.ofNat 64 a.cur.pos,
           cur := { a.cur with pos := 0, headPc := a.cur.pc, headEm := a.cur.em, latches := .void, held := [] } }

/-- The state of the sub-group as it was at its chain's head (R53). -/
def Agent.rollback (a : Agent) : Agent :=
  { a with heldG := a.heldG.filter fun h => h.sub != a.cur.id,
           cur := { a.cur with pc := a.cur.headPc, em := a.cur.headEm, pos := 0, latches := .void, held := [] } }

/-- An instruction has executed: the latches shift (R50), the PC moves, and the chain ends where R51 says so. On a
CSQ thread every instruction is a chain of one. -/
def Agent.retire (a : Agent) (res : Option Lanes) (next : Word) (ends : Bool) : Agent :=
  let c := a.cur
  let a := { a with cur := { c with latches := ⟨res, c.latches.b0, c.latches.b1, c.latches.b2⟩, pc := next, pos := c.pos + 1 } }
  if ends || decide (8 ≤ c.pos + 1) || a.kind == .csq then a.endChain else a

/-- The address of the instruction after one of `size` bytes. -/
def Agent.nextPc (a : Agent) (size : Nat) : Word := a.cur.pc + BitVec.ofNat 32 size

/-- The instruction of the agent whose turn it is has executed and goes on at the next one. -/
def State.retire (s : State) (res : Option Lanes) (size : Nat) (ends : Bool) : State :=
  { s with me := s.me.retire res (s.me.nextPc size) ends }

/-! Traps (R279, R320 to R323). -/

/-- Whether a cause's address goes to SCAUSE (R323). -/
def Cause.isTranslation (c : Cause) : Bool := decide (0x60 ≤ c.code) && decide (c.code ≤ 0x65)

/-- SCAUSE of a cause (R279, R323). -/
def scauseOf (c : Cause) (i : FaultInfo) : DWord :=
  BitVec.ofNat 64 c.code ||| ((if c.isTranslation then i.addr else i.detail) <<< 8)

/-- The record of a fault of the agent whose turn it is, with its resume PC. EM is the sub-group's as the fault leaves it:
that of the chain's head for a precise one, that after the chain for a post-effect one (R53, R320, R323). -/
def pendingOf (a : Agent) (time : DWord) (c : Cause) (k : FaultKind) (i : FaultInfo) (resume : Word) : Pending :=
  { cause := c, kind := k, sub := i.sub, lane := i.lane, ctx := a.ctx, launch := a.unit.launch,
    unit := some a.unit.index, who := some a.who, place := some a.place, group := a.index,
    csq := a.kind == .csq, em := if a.kind ≠ .core then 0 else if k = .precise then a.cur.headEm else a.cur.em, headPc := resume, pc := a.cur.pc,
    inChain := decide (a.cur.pos ≠ 0), det := a.env.det, addr := i.addr, detail := i.detail, aux := i.aux,
    throttled := false, time := time, engine := 0, cycle := Option.none, policy := Option.none }

/-- A PC read from a register: bit 0 of the PC is always 0 (R40; DEDUCED, log entry 35). -/
def evenPc (x : DWord) : Word := x.extractLsb' 0 32 &&& 0xFFFF_FFFE

/-- The entry of a supervisor thread's handler (R279): the resume PC and the cause are saved, and the PC is STVEC. -/
def Agent.enterHandler (a : Agent) (c : Cause) (i : FaultInfo) (resume : Word) : Agent :=
  { a with sepc := resume.setWidth 64, scause := scauseOf c i,
           cur := { a.cur with pc := evenPc a.stvec, headPc := evenPc a.stvec } }

/-- A precise trap (R53, R279, R320): the chain is discarded. A supervisor thread goes on at its handler; the agent
of a unit issues nothing until its fault record has been delivered and a policy applied. -/
def takeTrapWith (s : State) (c : Cause) (i : FaultInfo) : State :=
  let a := s.me
  if a.kind = .sup then { s with me := a.rollback.enterHandler c i a.cur.headPc }
  else
    { s with me := { a.rollback with run := .faulted },
             pending := s.pending ++ [pendingOf a (s.die a.place.die).time c .precise i a.cur.headPc] }

def takeTrap (s : State) (c : Cause) : State := takeTrapWith s c .none

/-- A trap that lets its chain take effect (R106, R107): the resume PC is that of the next instruction. -/
def takeTrapAfter (s : State) (c : Cause) (i : FaultInfo) (size : Nat) : State :=
  let a := s.me
  let next := a.nextPc size
  let b := a.retire none next true
  if a.kind = .sup then { s with me := b.enterHandler c i next }
  else
    { s with me := { b with run := .faulted },
             pending := s.pending ++ [pendingOf a (s.die a.place.die).time c .postEffect i next] }

/-- Return from a supervisor thread's trap (ERET, R284): the PC is SEPC, and the chain ends. -/
def returnFromTrap (s : State) : State :=
  { s with me := s.me.retire none (evenPc s.me.sepc) true }

/-- The asynchronous fault of a command's unit. -/
def raiseFor (s : State) (c : Cause) (u : UnitKey) (det : Bool) (i : FaultInfo) (time : DWord) (pc : Word) : State :=
  raiseAsync s c u.ctx u.launch (some u.index) det i time pc

/-! Barriers (R147 to R152). -/

/-- The number of a barrier entry: the pool of its cluster and its index. The hub's pool follows those of die 7. -/
def barrierKey (die cluster i : Nat) : Nat := (die * 4 + cluster) * 1024 + i

def State.barrier (s : State) (b : Nat) : Barrier := Store.get Barrier.fresh s.barriers b

def State.setBarrier (s : State) (b : Nat) (x : Barrier) : State :=
  { s with barriers := Store.set Barrier.fresh s.barriers b x }

/-- The agent that stands for an agent's handle table: all groups of a block share one (R147). -/
def Agent.tableOwner (a : Agent) : Who :=
  match a.who with
  | .group u _ => .group u 0
  | w => w

def State.table (s : State) (w : Who) : Store HandleSlot := ((s.tables.find? fun t => t.1 == w).map (·.2)).getD []

def State.setTable (s : State) (w : Who) (t : Store HandleSlot) : State :=
  { s with tables := (w, t) :: s.tables.filter fun x => x.1 != w }

/-- The generation after `g`: 1 to 31, never 0 (R147). -/
def nextGen (g : Nat) : Nat := if 31 ≤ g then 1 else g + 1

/-- The barrier that a 16-bit handle names in a table: slot in [10:0], generation in [15:11]. -/
def State.handleIn (s : State) (w : Who) (h : Half) : Option Nat :=
  let slot := (h.extractLsb' 0 11).toNat
  let e := Store.get HandleSlot.fresh (s.table w) slot
  if slot < 64 ∧ e.gen = (h.extractLsb' 11 5).toNat then e.bound else none

/-- The barrier that a handle of the agent whose turn it is names. -/
def State.handle (s : State) (h : Half) : Option Nat := s.handleIn s.me.tableOwner h

/-- A handle of a slot and its generation. -/
def handleOf (slot gen : Nat) : Half := BitVec.ofNat 16 (gen * 2048 + slot)

/-- The status word after one more command reports (R152): flags are ORed, NRCOUNT adds up to 127, NRPAGE and CAUSE
keep the lowest value reported. Bits 4 to 7, which no status word has, are the model's own while a status is gathered: a
read met a locked replica (R179), a read consumed an uncorrectable error (R335), a miss waits for a walk slot (R311),
and NRPAGE holds a page, be it page 0 (R310). -/
def statusMerge (a b : DWord) : DWord :=
  let na := (a.extractLsb' 56 7).toNat
  let nb := (b.extractLsb' 56 7).toNat
  let low := fun (p q : Bool) (x y : Nat) => if p && q then min x y else if p then x else if q then y else 0
  let pa := (a.extractLsb' 16 40).toNat
  let pb := (b.extractLsb' 16 40).toNat
  let page := low (a.getLsbD 7 || pa != 0) (b.getLsbD 7 || pb != 0) pa pb
  let ca := (a.extractLsb' 8 8).toNat
  let cb := (b.extractLsb' 8 8).toNat
  let cause := low (ca != 0) (cb != 0) ca cb
  BitVec.ofNat 64 (min 127 (na + nb) * 2 ^ 56 + page * 2 ^ 16 + cause * 2 ^ 8) ||| ((a ||| b) &&& 0xFF)

/-- A status word as software reads it: bits 4 to 7 are 0 (R152). -/
def statusWord (x : DWord) : DWord := x &&& ~~~0xF0

/-- The flip rule, applied after every change (R150). -/
def Barrier.settle (b : Barrier) : Barrier :=
  if b.live ∧ b.pending = 0 ∧ b.counted = b.expected then
    { b with phase := !b.phase, last := statusWord b.cur, cur := 0, pending := b.ea, expected := b.eb, counted := 0 }
  else b

/-- A reference is released; at 0 the entry returns to the pool, zeroed, its generation advanced (R149). -/
def Barrier.release (b : Barrier) : Barrier :=
  if b.refs ≤ 1 then { Barrier.fresh with gen := nextGen b.gen } else { b with refs := b.refs - 1 }

def Barrier.retain (b : Barrier) : Barrier := { b with refs := b.refs + 1 }

/-- The status a command in error reports: ERR and its cause (R152). -/
def errStatus (c : Cause) : DWord := BitVec.ofNat 64 (c.code * 256 + 2)

/-- What counts into a barrier: its unit, for a report of an overcount. -/
structure Reporter where
  ctx    : Nat
  launch : Word
  unit   : Option Nat
  det    : Bool
  handle : DWord
  time   : DWord
deriving DecidableEq, Repr

/-- A completion counts its bytes, its arrivals and its status into a barrier and drops its reference (R149, R150).
A count that would pass its target is not made; the command then reports ERR with cause 0x91 and its launch is told
(DEDUCED, log entry 23 for the arrivals of completions). -/
def State.countInto (s : State) (b : Nat) (bytes arrivals : Nat) (status : DWord) (r : Reporter) : State :=
  let x := s.barrier b
  if x.counted + bytes ≤ x.expected ∧ arrivals ≤ x.pending then
    s.setBarrier b ({ x with counted := x.counted + bytes, pending := x.pending - arrivals,
                             cur := statusMerge x.cur status }.settle).release
  else
    let s := s.setBarrier b ({ x with cur := statusMerge x.cur (statusMerge status (errStatus .barrierOvercount)) }.settle).release
    raiseAsync s .barrierOvercount r.ctx r.launch r.unit r.det { FaultInfo.none with detail := r.handle } r.time 0

/-- Arrivals are made (R150). -/
def State.arrive (s : State) (b n : Nat) : State :=
  let x := s.barrier b
  s.setBarrier b { x with pending := x.pending - n }.settle

/-- One reference more to a barrier, if a command names one. -/
def State.retainOpt (s : State) (b : Option Nat) : State :=
  match b with
  | some b => s.setBarrier b (s.barrier b).retain
  | none => s

/-- A completion counts bytes into its barrier, if it names one. -/
def State.countOpt (s : State) (b : Option Nat) (bytes : Nat) (status : DWord) (r : Reporter) : State :=
  match b with
  | some b => s.countInto b bytes 0 status r
  | none => s

/-- A completion makes one arrival at its barrier, if it names one (R157, R191, R250, R269, R271, R272). -/
def State.arriveOpt (s : State) (b : Option Nat) (status : DWord) (r : Reporter) : State :=
  match b with
  | some b => s.countInto b 0 1 status r
  | none => s

/-- A sub-group of an agent put in the place of the one that issues: the issuing one joins the others. -/
def Agent.select (a : Agent) (sub : Nat) : Option Agent :=
  if a.cur.id = sub then some a
  else
    match a.others.find? fun c => c.id == sub with
    | some c => some { a with cur := c, others := a.cur :: a.others.filter fun x => x.id != sub }
    | none => none

/-! Waits. Each sub-group waits on its own (R99). -/

/-- All sub-groups of an agent, the one that has issued last first. -/
def Agent.subs (a : Agent) : List Sub := a.cur :: a.others

/-- What the sub-group in front waits for. -/
def Agent.wait (a : Agent) : Wait := a.cur.wait

/-- The sub-group in front waits for `w`. -/
def Agent.setWait (a : Agent) (w : Wait) : Agent := { a with cur := { a.cur with wait := w } }

/-- Whether a wait holds back the whole group: of LDNB, LNCH, LNCHC and MDRAIN (R138, R187, R224). -/
def Wait.holdsGroup (w : Wait) : Bool := match w with | .ldnb _ _ _ _ _ | .launch _ _ _ _ _ | .mdrain _ => true | _ => false

/-- Whether another sub-group than the one in front holds back the group. -/
def Agent.heldBack (a : Agent) : Bool := a.others.any fun c => c.holds || c.wait.holdsGroup

/-- The instruction of the sub-group that issues has begun, and the group issues nothing else until it is done (R97, R143). -/
def State.holdGroup (s : State) : State := { s with me := { s.me with cur := { s.me.cur with holds := true } } }

/-- The agent with a sub-group that waits as `p` says in front, if it has one. -/
def Agent.front (a : Agent) (p : Wait → Bool) : Agent :=
  if p a.cur.wait then a
  else
    match a.others.find? fun c => p c.wait with
    | some c => { a with cur := c, others := a.cur :: a.others.filter fun x => x.id != c.id }
    | none => a

/-- The agent of a name with the sub-group in front that waits as `p` says. -/
def State.waiting (s : State) (w : Who) (p : Wait → Bool) : Option Agent := (s.agent w).map fun a => a.front p

/-- Whether some sub-group of an agent waits as `p` says. -/
def Agent.anyWait (a : Agent) (p : Wait → Bool) : Bool := a.subs.any fun c => p c.wait

/-- The numbers that `Due` gives to v, g and xt registers; g0 is never owed (R48). -/
def vReg (r : Nat) : Nat := r
def gReg (r : Nat) : List Nat := if r = 0 then [] else [128 + r]
def xtReg (r : Nat) : Nat := 256 + r

/-- The register to which a wait owes its result (R8). -/
def Wait.dest (w : Wait) : List Nat :=
  match w with
  | .ldnb d _ _ _ _ => [vReg d]
  | .bwait d _ _ _ | .launch d _ _ _ _ | .mwait d _ | .mquad d _ _ | .mrecv d | .snapm d | .ctxsv d _ _ | .csr d _ _ _
  | .ctxld d _ _ _ | .rtchk d _
  | .snapc d _ _ | .zero d _ _ | .peer d _ _ _ => gReg d
  | .none | .mdrain _ | .halt => []

/-- The rotation cycle of an agent's unit (R199); 0 where it has none. -/
def State.cycleOf (s : State) (a : Agent) : Nat := ((s.unit a.unit).bind fun u => u.rot).elim 0 Rotation.cycle

/-- An agent whose wait has ended with a result in g[d]: a group of a deterministic block owes it for `n` cycles more (R136). -/
def State.oweWide (s : State) (a : Agent) (d n : Nat) : Agent :=
  match (s.unit a.unit).bind fun u => u.rot with
  | some r => { a with due := a.due ++ (512 :: gReg d).map fun x => ⟨x, r.cycle + n⟩ }
  | none => a

/-- Whether an agent's unit is a deterministic block, which issues by its rotation (R199). -/
def State.rotates (s : State) (a : Agent) : Bool := a.kind == .core && (s.unit a.unit).any fun x => x.env.det && x.kind == .core

/-- Where a block's rotation stands: at ROT 0 before its first issue. -/
def WorkUnit.rotation (x : WorkUnit) : Rotation := x.rot.getD ⟨0, 0, false⟩

/-- The rotation by which an agent issues, if it is a deterministic block's group (R199). -/
def State.rotationOf (s : State) (a : Agent) : Option Rotation :=
  if s.rotates a then (s.unit a.unit).map WorkUnit.rotation else none

/-! Releases and acquires, so far as a `.sys` release covers what they hand on (R169, R289; log entry 56). -/

/-- Whether a scope, relative to agent `a`, includes agent `b` (R164). -/
def Agent.scopeHas (a b : Agent) (c : BitVec 3) : Bool :=
  let near := a.place.die == b.place.die && a.place.cluster == b.place.cluster
  match c.toNat with
  | 0 => false
  | 1 => a.who == b.who
  | 2 => if a.kind == .csq then near else a.unit == b.unit
  | 3 => near
  | 4 => a.place.die == b.place.die
  | _ => true

/-- An acquire of an agent reads locations: it synchronises with the releases there that its scope and theirs allow (R169). -/
def State.acquire (s : State) (a : Agent) (c : BitVec 3) (keys : List Nat) : State :=
  s.passHold (fun h => match h with
    | .place k w r => keys.contains k && (s.agent w).any fun b => a.scopeHas b c && b.scopeHas a r
    | _ => false) a.holder

/-- A release of an agent has written locations: it hands on what the agent holds (R169). -/
def State.releaseAt (s : State) (a : Agent) (c : BitVec 3) (keys : List Nat) : State :=
  keys.foldl (fun s k => s.passHold (fun h => h == a.holder) (.place k a.who c)) s

/-- An atomic's write, which `write` makes, leaves the releases at its locations as they were: they stand at the head of what it
goes on with (R169). -/
def State.keepPlaces (s : State) (keys : List Nat) (write : State → State) : State :=
  (write s).mapMonitors fun n l =>
    (((s.monitors.find? fun m => m.1 == n).elim [] fun m => m.2).filter fun h => match h with
      | .place k _ _ => keys.contains k
      | _ => false).foldl (fun l h => addHolder h l) l

/-- The order that an atomic's reads and writes make at a scope (R169, R171). -/
def State.atomicOrder (s : State) (a : Agent) (c : BitVec 3) (keys : List Nat) (write : State → State) : State :=
  let t := (((s.acquire a c keys).keepPlaces keys write).holdLines a.holder keys).releaseAt a c keys
  if c = 6 then t.releaseSys a.holder else t

/-- A fence that orders earlier loads makes acquires of them (R170): of all releases that its scope and theirs allow (DESIGN
CHOICE, log entry 56). -/
def State.fenceAcquire (s : State) (a : Agent) (c : BitVec 3) : State :=
  s.passHold (fun h => match h with
    | .place _ w r => (s.agent w).any fun b => a.scopeHas b c && b.scopeHas a r
    | _ => false) a.holder

/-- What an agent holds is handed to a barrier entry with its arrival, which is a release, and taken up by an observation (R150,
R173). -/
def State.handTo (s : State) (a : Agent) (b : Nat) : State :=
  s.passHold (fun h => h == a.holder) (.barrier b (s.barrier b).gen)
def State.takeFrom (s : State) (a : Agent) (b : Nat) : State :=
  s.passHold (fun h => h == .barrier b (s.barrier b).gen) a.holder

/-- Die time of the die an agent runs on (R15). -/
def State.now (s : State) : DWord := (s.die s.me.place.die).time

end Sys2Proof.Machine
end

