-- ==== Sys2Proof/Machine/Operands.lean ====
section
/-!
DEFINITION. Operand forms: what an instruction needs before it may execute, the decode traps in the order of R59,
the wait for results still owed (R8), and the lane sources, g operands and immediates of R43 to R49.
-/
namespace Sys2Proof.Machine

/-- Which units execute an instruction (R58, R278, R280). -/
inductive Units where
  /-- Cores, CSQ threads and supervisor threads. -/
  | all
  /-- Cores alone. -/
  | core
  /-- Cores and supervisor threads: the fences and the atomics that have a group-wide form. -/
  | coreSup
  /-- CSQ threads alone: majors 0x68 to 0x6B. -/
  | csq
  /-- Supervisor threads alone: majors 0x70 to 0x73. -/
  | sup
deriving DecidableEq, Repr

/-- The trap of an instruction on a unit that does not execute it (R58). -/
def Units.trap (u : Units) (k : Kind) : Option Cause :=
  match u, k with
  | .all, _ => none
  | .core, .core => none
  | .core, _ => some .wrongUnit
  | .coreSup, .csq => some .wrongUnit
  | .coreSup, _ => none
  | .csq, .csq => none
  | .csq, _ => some .wrongUnit
  | .sup, .sup => none
  | .sup, .core => some .privileged
  | .sup, .csq => some .wrongUnit

/-- What an instruction needs of its fields and registers: the conditions of R59 numbered 6 to 10, the lane
registers it reads and writes, and the group-wide registers it names, by the numbers of `Due`. -/
structure Need where
  units   : Units
  field   : Bool
  scope   : Bool
  reg     : Bool
  reads   : List Nat
  writes  : List Nat
  latches : List Nat
  wide    : List Nat
deriving DecidableEq, Repr

/-- Nothing but the unit. -/
def Need.of (u : Units) : Need := ⟨u, false, false, false, [], [], [], []⟩

/-- Every register that an instruction reads or writes, by the numbers of `Due`. -/
def Need.regs (n : Need) : List Nat := n.reads ++ n.writes ++ n.wide

/-- Whether a latch holds a value (R52: a latch that the chain has not filled is void). -/
def Latches.get (x : Latches) (k : Nat) : Option Lanes :=
  match k with
  | 0 => x.b0 | 1 => x.b1 | 2 => x.b2 | _ => x.b3

/-- The trap that an instruction meets in decode, the first in the order of R59. -/
def decodeCause (a : Agent) (n : Need) : Option Cause :=
  match n.units.trap a.kind with
  | some c => some c
  | none =>
    if n.field then some .illegalField
    else if n.scope then some .illegalScope
    else if n.reg then some .illegalRegister
    else if (n.reads ++ n.writes).any fun r => decide (a.quota ≤ r) then some .quota
    else if n.latches.any fun k => (a.cur.latches.get k).isNone then some .latchChain
    else none

/-- The chain ends before the first instruction that reads the destination of a GATH or SCAT (R51). -/
def gathHead (a : Agent) (n : Need) : Agent :=
  if a.gath.any fun g => n.reads.contains g.reg then a.endChain else a

/-- Whether an earlier GATH or SCAT still owes a result to a register that is read or written (R8, R156), or an
instruction for which another sub-group waits, or, in a deterministic block, one whose latency has not passed in
rotation cycle `t` (R72, R109, R136, R199). -/
def owes (t : Nat) (a : Agent) (n : Need) : Bool :=
  (a.gath.any fun g => !g.arrived && (n.reads.contains g.reg || n.writes.contains g.reg))
    || (a.others.any fun c => c.wait.dest.any fun r => n.regs.contains r)
    || (a.due.any fun e => decide (t < e.cycle) && n.regs.contains e.reg)
    || n.latches.any fun k => decide (t < a.cur.latchDue.getD k 0)

/-- The results that have been read are no longer heads of chains. -/
def gathRead (a : Agent) (n : Need) : Agent :=
  if a.gath.isEmpty then a else { a with gath := a.gath.filter fun g => !n.reads.contains g.reg }

/-- An instruction that has passed decode executes; one that meets a decode trap takes it; one that waits for a
result does not issue, and the machine goes on without it. -/
def guard (n : Need) (s : State) (k : State → Out) : Out :=
  let a := gathHead s.me n
  match decodeCause a n with
  | some c => .next (takeTrap { s with me := a } c)
  | none => if owes (s.cycleOf a) a n then .next { s with me := a } else k { s with me := gathRead a n }

/-! Lane sources (R47, R70). -/

/-- The v register of a lane source code, if it names one. -/
def srcReg (c : BitVec 7) : List Nat := if c.toNat < 120 then [c.toNat] else []

/-- The latch of a lane source code, if it names one. -/
def srcLatch (c : BitVec 7) : List Nat := if 120 ≤ c.toNat ∧ c.toNat < 124 then [c.toNat - 120] else []

/-- Src(code, lane) of R70. -/
def Agent.src (a : Agent) (c : BitVec 7) (l : Nat) : Word :=
  if c.toNat < 120 then a.readV c.toNat l
  else if c.toNat < 124 then ((a.cur.latches.get (c.toNat - 120)).getD Lanes.zero).at l
  else (a.readG (c.toNat - 124)).extractLsb' 0 32

/-- Whether a destination code is illegal: 120 to 127 name no destination (R47). -/
def badDest (d : BitVec 7) : Bool := decide (120 ≤ d.toNat)

/-- Whether a g code is illegal (R48). -/
def badG (c : BitVec 7) : Bool := decide (64 ≤ c.toNat)

/-- The g register of a lane source code that names one, by the number of `Due` (R47). -/
def srcWide (c : BitVec 7) : List Nat := if 124 ≤ c.toNat then gReg (c.toNat - 124) else []

/-- v registers `d` to `d + w − 1`. -/
def regSpan (d w : Nat) : List Nat := (List.range w).map fun i => d + i

/-- What a lane instruction with lane sources `srcs` needs: N = 1 requires D = 0 (R54), and D is also read where
`readsD` says so. -/
def laneNeed (n : BitVec 1) (d : BitVec 7) (srcs : List (BitVec 7)) (readsD : Bool) : Need :=
  { units := .core, field := n == 1 && d != 0, scope := false, reg := badDest d,
    reads := srcs.flatMap srcReg ++ (if readsD then srcReg d else []),
    writes := if n == 1 then [] else srcReg d, latches := srcs.flatMap srcLatch, wide := srcs.flatMap srcWide }

/-- The lane result of an instruction: `f` in the active lanes, 0 in the others (R50). -/
def laneResult (em : Word) (f : Nat → Word) : Lanes := Lanes.make fun l => if em.getLsbD l then f l else 0

/-- The effect of a lane instruction (R70): the result goes to v[d] in the active lanes unless N = 1, and to b0. -/
def State.writeLane (s : State) (n : BitVec 1) (d : Nat) (f : Nat → Word) (size : Nat) : State :=
  let r := laneResult s.me.cur.em f
  let a := if n = 1 then s.me else s.me.writeV d s.me.cur.em r
  { s with me := a.retire (some r) (s.me.nextPc size) false }

/-- A lane instruction of one source. -/
def lane1 (f : Word → Word) (n : BitVec 1) (x d : BitVec 7) (s : State) : Out :=
  guard (laneNeed n d [x] false) s fun s =>
    .next (s.writeLane n d.toNat (fun l => f (s.me.src x l)) 4)

/-- A lane instruction of two sources. -/
def lane2 (f : Word → Word → Word) (n : BitVec 1) (y x d : BitVec 7) (s : State) : Out :=
  guard (laneNeed n d [x, y] false) s fun s =>
    .next (s.writeLane n d.toNat (fun l => f (s.me.src x l) (s.me.src y l)) 4)

/-- A lane instruction that also reads its destination; it has no N form (R54). -/
def lane3 (f : Word → Word → Word → Word) (y x d : BitVec 7) (s : State) : Out :=
  guard (laneNeed 0 d [x, y] true) s fun s =>
    .next (s.writeLane 0 d.toNat (fun l => f (s.me.src x l) (s.me.src y l) (s.me.readV d.toNat l)) 4)

/-- A lane instruction of one source that also reads its destination. -/
def lane3One (f : Word → Word → Word) (x d : BitVec 7) (s : State) : Out :=
  guard (laneNeed 0 d [x] true) s fun s =>
    .next (s.writeLane 0 d.toNat (fun l => f (s.me.src x l) (s.me.readV d.toNat l)) 4)

/-- A lane instruction of one source and an immediate (R90). -/
def laneImm (f : Word → Word → Word) (imm : Word) (x d : BitVec 7) (s : State) : Out :=
  guard (laneNeed 0 d [x] false) s fun s =>
    .next (s.writeLane 0 d.toNat (fun l => f (s.me.src x l) imm) 4)

/-- A 5-bit register field of a 16-bit form as a register code (R41). -/
def code5 (r : BitVec 5) : BitVec 7 := r.setWidth 7

/-- What a 16-bit form needs. N = 1 writes b0 alone and still reads D where the operation does (R41). -/
def halfNeed (n : BitVec 1) (d : BitVec 5) (readsD : Bool) (a : List (BitVec 5)) : Need :=
  { units := .core, field := false, scope := false, reg := false,
    reads := a.map BitVec.toNat ++ (if readsD then [d.toNat] else []),
    writes := if n == 1 then [] else [d.toNat], latches := [], wide := [] }

/-- A 16-bit form of two sources: D is the destination and the first source (R41). -/
def half2 (f : Word → Word → Word) (n : BitVec 1) (x d : BitVec 5) (s : State) : Out :=
  guard (halfNeed n d true [x]) s fun s =>
    .next (s.writeLane n d.toNat (fun l => f (s.me.readV d.toNat l) (s.me.readV x.toNat l)) 2)

/-- A 16-bit form of D and an immediate. -/
def halfImm (f : Word → Word → Word) (n : BitVec 1) (imm : Word) (d : BitVec 5) (s : State) : Out :=
  guard (halfNeed n d true []) s fun s =>
    .next (s.writeLane n d.toNat (fun l => f (s.me.readV d.toNat l) imm) 2)

/-! g operands (R48). -/

/-- g[c] of a 7-bit code. -/
def Agent.g7 (a : Agent) (c : BitVec 7) : DWord := a.readG c.toNat

/-- What an instruction with g operands needs. -/
def gNeed (u : Units) (codes : List (BitVec 7)) : Need :=
  { Need.of u with reg := codes.any badG, wide := codes.flatMap fun c => gReg c.toNat }

/-- g[D] := x, and the instruction retires; `ends` says whether it ends its chain. -/
def State.finishG (s : State) (d : BitVec 7) (x : DWord) (ends : Bool) : State :=
  { s with me := (s.me.writeG d.toNat x).retire none (s.me.nextPc 4) ends }

/-- The instruction retires with no register written. -/
def State.finish (s : State) (ends : Bool) : State := s.retire none 4 ends

/-- A group-wide operation of two sources (R93). -/
def group2 (f : DWord → DWord → DWord) (y x d : BitVec 7) (s : State) : Out :=
  guard (gNeed .all [d, x, y]) s fun s => .next (s.finishG d (f (s.me.g7 x) (s.me.g7 y)) false)

/-- A 0 or 1 result. -/
def bit64 (b : Bool) : DWord := if b then 1 else 0
def bit32 (b : Bool) : Word := if b then 1 else 0

end Sys2Proof.Machine
end

