-- ==== Sys2Proof/Machine/Translate.lean ====
section
/-!
DEFINITION. Address translation (R309 to R316): the accessed and dirty bits, the TLB of a die, and what the outcome
of a walk means to each reader.
-/
namespace Sys2Proof.Machine

/-- The leaf with A, and D for a write, set (R313). -/
def markLeaf (leaf : DWord) (write : Bool) : DWord := leaf ||| 0x20 ||| (if write then 0x40 else 0)

/-- The cached leaf that an access may use (R312, R313): one whose A bit is set, and D for a write. -/
def tlbFind (tlb : List TlbEntry) (asid : Half) (va : BitVec 56) (write reads : Bool) : Option TlbEntry :=
  tlb.find? fun t => !t.ptr && t.asid == asid && t.base.toNat / pageSize t.level == va.toNat / pageSize t.level
    && leafAllows t.leaf write && (!reads || leafAllows t.leaf false) && t.leaf.getLsbD 5 && (!write || t.leaf.getLsbD 6)

/-- A TLB with one more entry in place of an older one of the same page or table. -/
def tlbInsert (tlb : List TlbEntry) (t : TlbEntry) : List TlbEntry :=
  t :: tlb.filter fun u => !(u.ptr == t.ptr && u.asid == t.asid && u.level == t.level && u.base == t.base)

/-- The first address of the page that holds a VA. -/
def pageBase (level : Nat) (va : BitVec 56) : BitVec 56 := BitVec.ofNat 56 (va.toNat / pageSize level * pageSize level)

/-- The cached pointer entry of a level that covers a VA (R312). -/
def tlbPtr (tlb : List TlbEntry) (asid : Half) (va : BitVec 56) (level : Nat) : Option DWord :=
  (tlb.find? fun t => t.ptr && t.asid == asid && t.level == level
    && t.base.toNat / pageSize level == va.toNat / pageSize level).map fun t => t.leaf

/-- Where a walk begins: below the lowest cached pointer entry, else at the root (R311, R312). -/
def walkStart (tlb : List TlbEntry) (asid : Half) (va : BitVec 56) (root : DWord) : Nat × Nat :=
  match tlbPtr tlb asid va 1, tlbPtr tlb asid va 2, tlbPtr tlb asid va 3 with
  | some e, _, _ => (0, bitsOf e 8 44 * 256)
  | _, some e, _ => (1, bitsOf e 8 44 * 256)
  | _, _, some e => (2, bitsOf e 8 44 * 256)
  | _, _, _ => (3, root.toNat)

/-- The pointer entries of a walk join a die's TLB (R312). -/
def State.cachePtrs (s : State) (die : Nat) (asid : Half) (va : BitVec 56) (ps : List (Nat × DWord)) : State :=
  s.setDie die { s.die die with
    tlb := ps.foldl (fun t e => tlbInsert t ⟨true, asid, pageBase e.1 va, e.1, e.2⟩) (s.die die).tlb }

/-- A leaf joins a die's TLB. -/
def State.cacheLeaf (s : State) (die : Nat) (asid : Half) (va : BitVec 56) (level : Nat) (leaf : DWord) : State :=
  s.setDie die { s.die die with tlb := tlbInsert (s.die die).tlb ⟨false, asid, pageBase level va, level, leaf⟩ }

/-- The ASID and the root table of a context; 64 is the supervisor's own. -/
def State.walkAsid (s : State) (ctx : Nat) : Half := if ctx < 64 then s.asidOf ctx else s.supAsid
def State.walkRoot (s : State) (ctx : Nat) : DWord := if ctx < 64 then s.rootOf ctx else s.supRoot

/-- The valid context of an ASID, else 64, the supervisor's own (R309). -/
def State.ctxOfAsid (s : State) (asid : Half) : Nat :=
  ((List.range 64).find? fun c => (s.ctxReg c 0x000).getLsbD 0 && s.asidOf c == asid).getD 64

/-- The die whose replica of a replicated page an access reads (R308): its own; from the hub die, which keeps none, the
lowest of the context's partition (DEDUCED, log entry 32). -/
def State.replicaOf (s : State) (die : Nat) (asid : Half) : Nat :=
  if die < 8 then die else if s.ctxOfAsid asid < 64 then s.firstDie (s.ctxOfAsid asid) else 0

/-! Walk slots (R311). -/

/-- The walk slots of a die (R311). -/
def walkSlots (die : Nat) : Nat := if die = 8 then 64 else 384

/-- Whether a die has a free slot. -/
def Die.slotFree (d : Die) (die : Nat) : Bool := decide ((d.walks.filter fun w => w.granted).length < walkSlots die)

/-- Whether a walk is for the page of a VA in an ASID: the leaf's page once it has read one (R311). -/
def State.walkIsFor (s : State) (w : Walk) (asid : Half) (va : BitVec 56) : Bool :=
  s.walkAsid w.ctx == asid && w.va.toNat / pageSize w.level == va.toNat / pageSize w.level

/-- Whether a miss may walk now: its page's walk has a slot, or a slot is free and no older miss waits for one. -/
def State.mayWalk (s : State) (die : Nat) (asid : Half) (va : BitVec 56) : Bool :=
  let d := s.die die
  (d.walks.any fun w => w.granted && s.walkIsFor w asid va) || (d.slotFree die && d.walks.all fun w => w.granted)

/-- The walks for a page end. -/
def State.endWalks (s : State) (die : Nat) (asid : Half) (va : BitVec 56) : State :=
  s.setDie die { s.die die with walks := (s.die die).walks.filter fun w => !s.walkIsFor w asid va }

/-- A walk shared with one more asker. -/
def Walk.join (w : Walk) (k : Asker) : Walk := if w.askers.contains k then w else { w with askers := w.askers ++ [k] }

/-- A miss joins those that wait for a slot, or shares the walk for its page (R311). -/
def State.queueMiss (s : State) (u : Option UnitKey) (k : Asker) (die : Nat) (asid : Half) (va : BitVec 56)
    (write reads : Bool) : State :=
  let d := s.die die
  if d.walks.any fun w => s.walkIsFor w asid va then
    s.setDie die { d with walks := d.walks.map fun w => if s.walkIsFor w asid va then w.join k else w }
  else s.setDie die { d with walks := d.walks ++ [⟨s.ctxOfAsid asid, va, write, false, 1, 0, 0, 0, u, [k], reads⟩] }

/-- The walk for a VA that has ended in contention for an asker that has not had the answer (R313). -/
def State.contendedFor (s : State) (die : Nat) (k : Asker) (asid : Half) (va : BitVec 56) : Bool :=
  (s.die die).contended.any fun w => s.walkIsFor w asid va && w.askers.contains k

/-- An asker has had the answers of walks for which `p` holds. -/
def Die.answered (d : Die) (k : Asker) (p : Walk → Bool) : Die :=
  let ws := d.contended.map fun w => if p w then { w with askers := w.askers.filter fun x => x != k } else w
  { d with contended := ws.filter fun w => !w.askers.isEmpty }

/-- PTE_CONTENTION is answered: to an agent's access, which is one, and to every byte of a command at the page (R313). -/
def State.answerContention (s : State) (die : Nat) (k : Asker) (asid : Half) (va : BitVec 56) : State :=
  match k with
  | .command _ => s
  | _ => s.setDie die ((s.die die).answered k fun w => s.walkIsFor w asid va)

/-- Whether the walk of a miss takes steps of its own: the next turn of the agenda is its PAGE_WALK (DESIGN CHOICE, log
entry 7). -/
def State.walkApart (s : State) (die : Nat) (asid : Half) (va : BitVec 56) (write : Bool) : Bool :=
  match s.agenda with
  | .event (.pageWalk d c v w) :: _ =>
    d == die && s.walkAsid c == asid && v.toNat / pageSize 0 == va.toNat / pageSize 0 && w == write
  | _ => false

/-- A demand access's translation (R310 to R313): a cached leaf, or a walk that sets A and D in the leaf. The walk is part
of the access's step, so that its first CAS succeeds, or it takes steps of its own (PAGE_WALK), for which the access waits
as for a slot; where that walk has met contention, each access that shares it ends in PTE_CONTENTION. `u` is the unit on
whose behalf it is made, and `reads` says that a write reads as well. -/
def State.translate (s : State) (u : Option UnitKey) (k : Asker) (die : Nat) (asid : Half) (root : DWord) (va : BitVec 56)
    (write reads : Bool) : State × WalkOutcome :=
  let d := s.die die
  let rd := s.replicaOf die asid
  match tlbFind d.tlb asid va write reads with
  | some t => (s, leafOutcome rd ⟨0, t.level, t.leaf⟩ va write)
  | none =>
    if s.contendedFor die k asid va then (s.answerContention die k asid va, .contention)
    else if !s.mayWalk die asid va || s.walkApart die asid va write then (s.queueMiss u k die asid va write reads, .waits)
    else
      let b := walkStart d.tlb asid va root
      let s' := (s.endWalks die asid va).cachePtrs die asid va (walkPtrs s.mem s.poison va b.1 b.2)
      match walkFrom s.mem s.poison va b.1 b.2 with
      | .error o => (s', o)
      | .ok f =>
        let o := (leafOutcome rd f va write).needing reads
        if o.leaf.isNone then (s', o)
        else
          let n := markLeaf f.leaf write
          let s' := if n = f.leaf then s' else s'.sysWrite u (cellsAt f.leafAt (leBytes 8 n.toNat))
          (s'.cacheLeaf die asid va f.level n, leafOutcome rd { f with leaf := n } va write)

/-- An engine's translation of one byte for a unit of a context. -/
def State.vaByte (s : State) (u : UnitKey) (k : Asker) (die ctx : Nat) (va : BitVec 56) (write reads : Bool) :
    State × WalkOutcome :=
  s.translate (some u) k die (s.asidOf ctx) (s.rootOf ctx) va write reads

/-- A command that cannot go on because a miss waits for a walk slot leaves only its misses, in the order met (R311): the
state before it with the misses of the state after, and its part in the walks that it shares. -/
def State.keepMisses (s t : State) (die : Nat) : State :=
  let old := (s.die die).walks
  let same := fun (v w : Walk) => v.ctx == w.ctx && v.va.toNat / pageSize 0 == w.va.toNat / pageSize 0
  let new := (t.die die).walks.filter fun w => !w.granted && !old.any fun v => same v w
  s.setDie die { s.die die with
    walks := (old.map fun w => (((t.die die).walks.find? (same w)).elim w fun v => { w with askers := v.askers })) ++ new }

/-- What a command reports of an outcome that is not Translated (R310): its status word's bits (R152). -/
def outcomeStatus (o : WalkOutcome) (va : BitVec 56) (write : Bool) : DWord :=
  let miss : DWord := if write then 4 else 1
  match o with
  | .unmapped => miss ||| BitVec.ofNat 64 (2 ^ 56)
  | .notPresent => miss ||| BitVec.ofNat 64 (2 ^ 56 + va.toNat / 2 ^ 16 * 2 ^ 16 + 0x80)
  | .format => errStatus .pteFormat
  | .retired => errStatus .uncorrectable ||| (if write then 0 else 0x20)
  | .permission => errStatus .permission
  | .contention => errStatus .pteContention
  | .waits => 0x40
  | _ => 0

/-- The status bits of a GATH or SCAT row for one page's outcome (R310). -/
def outcomeRow (o : WalkOutcome) : Word :=
  match o with
  | .unmapped => 3 | .notPresent => 3 | .format => 9 | .retired => 5 | .permission => 5 | .contention => 5
  | _ => 1

/-- The trap of a supervisor thread's access (R310); `none` where it is translated. -/
def outcomeTrap (o : WalkOutcome) : Option Cause :=
  match o with
  | .unmapped => some .pageNotPresent
  | .notPresent => some .pageNotPresent
  | .format => some .pteFormat
  | .retired => some .uncorrectable
  | .permission => some .permission
  | .contention => some .pteContention
  | .waits => none
  | .frame _ _ _ => none
  | .peer _ _ _ _ => none

/-- A command's status word counts each command that met a non-resident page once (R152). -/
def oneCount (st : DWord) : DWord :=
  let c := bitsOf st 56 7
  if c = 0 then st else (st &&& 0x00FF_FFFF_FFFF_FFFF) ||| BitVec.ofNat 64 (2 ^ 56)

/-- The ASID and the root table under which an agent translates: its context's, or the supervisor's own (R278). -/
def State.agentAsid (s : State) (a : Agent) : Half := if a.kind = .sup then s.supAsid else s.asidOf a.ctx
def State.agentRoot (s : State) (a : Agent) : DWord := if a.kind = .sup then s.supRoot else s.rootOf a.ctx

/-- The translation of a byte for the agent whose turn it is. -/
def State.myByte (s : State) (va : BitVec 56) (write reads : Bool) : State × WalkOutcome :=
  s.translate (if s.me.kind = .sup then none else some s.me.unit) (.agent s.me.who) s.me.place.die (s.agentAsid s.me)
    (s.agentRoot s.me) va write reads

/-- What XLT writes for a translated page (R97): FRAME is the address of the VA's byte, in the device's physical space or,
for memory that has none, in that of its type (DESIGN CHOICE, log entry 55). -/
def xltOf (va : BitVec 56) (n : Nat) (o : WalkOutcome) : Xt :=
  match o.leaf with
  | none => ⟨va, 0, .device, 0, 0, 0⟩
  | some (leaf, level) =>
    let mt := bitsOf leaf 8 3
    let at' := bitsOf leaf 16 36 * 2 ^ 16 + va.toNat % pageSize level
    let x : BitVec 52 × XtSpace :=
      match o with
      | .peer node pasid _ _ => (BitVec.ofNat 52 at', .peer node pasid)
      | .frame k _ _ => if mt = 0 then (BitVec.ofNat 52 k, .device) else (BitVec.ofNat 52 at', .outer mt (leafPort leaf))
      | _ => (0, .device)
    ⟨va, x.1, x.2, BitVec.ofNat 32 (min (min n (pageSize level - va.toNat % pageSize level)) (2 ^ 31)), leaf.extractLsb' 3 2, level⟩

/-- XLT (R97): the translation of a VA for the whole group. It never faults; while its walk is under way the group issues
nothing. -/
def execXlt (b a d : BitVec 7) (s : State) : Out :=
  guard { gNeed .all [a, b] with
      reg := badG a || badG b || decide (7 < d.toNat),
      wide := gReg a.toNat ++ gReg b.toNat ++ [xtReg d.toNat] } s fun s =>
    let va := (s.me.g7 a).extractLsb' 0 56
    let n := (s.me.g7 b).toNat
    if n = 0 then .next ({ s with me := s.me.writeXt d.toNat ⟨va, 0, .device, 0, 0, 0⟩ }.finish false)
    else
      let r := s.myByte va false false
      if r.2 = .waits then .next r.1.holdGroup
      else .next ({ r.1 with me := r.1.me.writeXt d.toNat (xltOf va n r.2) }.finish false)

end Sys2Proof.Machine
end

