-- ==== Sys2Proof/Machine/Gen.lean ====
section
/-!
DEFINITION. Generator windows (R126 to R133): their records, the functions of their elements, and the bytes a read
returns.
-/
namespace Sys2Proof.Machine

/-- The kinds of Table 4. -/
def genKind (r : BitVec 256) : Nat := recField r 0 1
def genDiscard (r : BitVec 256) : Bool := recBits r 2 0 1 == 1
def genBits (r : BitVec 256) : Bool := recBits r 2 1 1 == 1
def genSeedKey (r : BitVec 256) : Bool := recBits r 2 2 1 == 1

/-- Whether a format is allowed for a kind (R127). -/
def genFmtOk (kind : Nat) (bits : Bool) (f : Option Fmt) : Bool :=
  match kind, f with
  | 0, _ => true
  | 1, some .fp32 => true | 1, some .bf16 => true | 1, some .fp16 => true | 1, some .e4m3 => true
  | 1, some .e5m2 => true | 1, some .int8 => true | 1, some .int32 => true
  | 2, some .fp32 => !bits | 2, some .bf16 => !bits | 2, some .fp16 => !bits | 2, some .e5m2 => !bits
  | 2, some .int8 => bits
  | 3, some .fp32 => true | 3, some .bf16 => true
  | 4, some .fp32 => true | 4, some .int32 => true
  | _, _ => false

/-- Whether a generator-window record may be installed (R127). -/
def windowOk (r : BitVec 256) : Bool :=
  let kind := genKind r
  let cols := recField r 4 4
  let base := f32 (BitVec.ofNat 32 (recField r 12 4))
  decide (kind ≤ 4) && recBits r 2 3 13 == 0
    && (kind == 2 || kind == 3 || cols == 0)
    && (kind == 4 || (recField r 16 8 == 0 && recField r 24 8 == 0))
    && genFmtOk kind (genBits r) (Fmt.ofCode (recField r 1 1))
    && (!genBits r || kind == 2) && (!genSeedKey r || kind == 4)
    && (kind != 2 || cols != 0)
    && (kind != 3 || (cols % 2 == 0 && cols != 0 && decide (cols ≤ 4096)
          && (match base with | .num false x => decide (0 < x) | _ => false)))

/-- A 32-bit field read as signed. -/
def signed32 (x : Nat) : Int := (BitVec.ofNat 32 x).toInt

/-- RAMP (R129): the code of element n. FP16, for which Table 7 of Number Formats has no column, takes infinity beyond 65,504, as
RoundNE gives it (R19; DESIGN CHOICE, log entry 82). -/
def rampCode (f : Fmt) (r : BitVec 256) (n : Nat) : Nat :=
  let v := (BitVec.ofInt 32 (signed32 (recField r 8 4) + signed32 (recField r 12 4) * n)).toInt
  let x := FVal.ofRat (v : Rat) false
  match f with
  | .int32 => (BitVec.ofInt 32 v).toNat
  | .int8 => (BitVec.ofInt 8 (max (-128) (min 127 v))).toNat
  | .fp32 => roundIeee .fp32 .ne x
  | .bf16 => roundIeee .bf16 .ne x
  | .fp16 => roundIeee .fp16 .ne x
  | f => (convertNarrow f .ne x).1

/-- MASK (R130): whether element n is allowed. -/
def maskAllowed (r : BitVec 256) (n : Nat) : Bool :=
  let cols := recField r 4 4
  let q : Int := (n / cols : Nat)
  let k : Int := (n % cols : Nat)
  let off := signed32 (recField r 8 4)
  let w : Int := (recField r 12 4 : Nat)
  decide (k ≤ q + off) && (w == 0 || decide (q + off - k < w))

/-- The code of −infinity in a format. -/
def negInf (f : Fmt) : Nat :=
  match f with
  | .fp32 => 0xFF80_0000 | .bf16 => 0xFF80 | .fp16 => 0xFC00 | _ => 0xFC

/-- Whether y^d · b^m ≤ 1, that is y ≤ b^(−m/d), for positive rationals. -/
def powLe (y b : Rat) (m d : Nat) : Bool :=
  decide (y.num.natAbs ^ d * b.num.natAbs ^ m ≤ y.den ^ d * b.den ^ m)

/-- The largest magnitude code c below 2^(i+1) + c0 with `magOf c ≤ b^(−m/d)`, by bits from `i` down. -/
def rootCode (b : Rat) (m d : Nat) : Nat → Nat → Nat
  | 0, c => if powLe (Fmt.fp32.magOf (c + 1)) b m d then c + 1 else c
  | i + 1, c => rootCode b m d i (if powLe (Fmt.fp32.magOf (c + 2 ^ (i + 1))) b m d then c + 2 ^ (i + 1) else c)

/-- RoundNE(base^(−2i/d), FP32) as an exact rational (R131): the two neighbours are compared with the root, and the
midpoint decides. -/
def ropeTheta (i d : Nat) (base : Rat) : Rat :=
  let g := Nat.gcd (2 * i) d
  let m := 2 * i / g
  let e := d / g
  let c := rootCode base m e 32 0
  let lo := Fmt.fp32.magOf c
  let mid := (lo + Fmt.fp32.magOf (c + 1)) / 2
  if powLe mid base m e && !(decide (mid.num.natAbs ^ e * base.num.natAbs ^ m = mid.den ^ e * base.den ^ m) && c % 2 == 0)
  then Fmt.fp32.magOf (c + 1) else lo

/-- The nearest integers to atan(2^−s) · 2^63 / π, for s from 0 to 27 (R131). -/
def cordicAngles : List Int :=
  [2305843009213693952, 1361218612134873190, 719230530580881038, 365092647525521947, 183254791493294829,
   91716730292036216, 45869556482713130, 22936177926750895, 11468263948075831, 5734153847876408] ++
  [2867079658191483, 1433540170878135, 716770128161890, 358385069421298, 179192535378193, 89596267772540,
   44798133896700, 22399066949654, 11199533474990, 5599766737515] ++
  [2799883368760, 1399941684380, 699970842190, 349985421095, 174992710548, 87496355274, 43748177637, 21874088818]

/-- The rotation of R131, for angle constants from step `s` on. -/
def cordicSteps : List Int → Nat → Int → Int → Int → Int × Int
  | [], _, x, y, _ => (x, y)
  | a :: r, s, x, y, z =>
    if z ≥ 0 then cordicSteps r (s + 1) (x - y / (2 ^ s : Nat)) (y + x / (2 ^ s : Nat)) (z - a)
    else cordicSteps r (s + 1) (x + y / (2 ^ s : Nat)) (y - x / (2 ^ s : Nat)) (z + a)

/-- CordicRope of R131; K is the nearest integer to 2^30 · ∏ (1 + 2^−2i)^−1/2. -/
def cordicRope (f : Fmt) (p i d : Nat) (base : Rat) (odd : Bool) : Nat :=
  let fr : Nat := ((p : Rat) * ropeTheta i d base * (0x28BE60DB9391054A : Rat)).floor.natAbs % 2 ^ 64
  let qd : Nat := fr / 2 ^ 62
  let z : Nat := fr % 2 ^ 62
  let xy := if z = 0 then ((2 ^ 30 : Int), (0 : Int)) else cordicSteps cordicAngles 0 652032874 0 (z : Int)
  let x := xy.1
  let y := xy.2
  let cs := match qd with
    | 0 => (x, y) | 1 => (-y, x) | 2 => (-x, -y) | _ => (y, -x)
  roundIeee f .ne (FVal.ofRat (((if odd then cs.2 else cs.1) : Int) / (2 ^ 30 : Rat)) false)

/-- ROPE (R131): the code of element n. -/
def ropeCode (f : Fmt) (r : BitVec 256) (n : Nat) : Nat :=
  let d := recField r 4 4
  let j := n % d
  let base := match f32 (BitVec.ofNat 32 (recField r 12 4)) with | .num _ x => x | _ => 1
  cordicRope f (recField r 8 4 + n / d) (j / 2) d base (j % 2 == 1)

/-- RAND (R132): the code of element n under the reading unit's launch seed. -/
def randCode (f : Fmt) (r : BitVec 256) (seed : DWord) (n : Nat) : Nat :=
  let key : DWord := if genSeedKey r then seed else BitVec.ofNat 64 (recField r 24 8)
  let c := (recField r 16 8 + n / 4) % 2 ^ 64
  let w := (philox key ⟨BitVec.ofNat 32 c, BitVec.ofNat 32 (c / 2 ^ 32), BitVec.ofNat 32 (recField r 8 4),
    BitVec.ofNat 32 (recField r 12 4)⟩).word n
  match f with
  | .int32 => w.toNat
  | _ => roundIeee .fp32 .ne (.num false (((w.toNat / 256 : Nat) : Rat) * pow2 (-24)))

/-- Bytes of one element of an unpacked format. -/
def Fmt.bytes : Fmt → Nat
  | .fp32 => 4 | .int32 => 4 | .bf16 => 2 | .fp16 => 2 | _ => 1

/-- The code of element n of a window without BITS (R128). -/
def genElement (r : BitVec 256) (seed : DWord) (n : Nat) : Nat :=
  match Fmt.ofCode (recField r 1 1) with
  | none => 0
  | some f =>
    match genKind r with
    | 1 => rampCode f r n
    | 2 => if maskAllowed r n then 0 else negInf f
    | 3 => ropeCode f r n
    | 4 => randCode f r seed n
    | _ => 0

/-- The byte at an offset of a window that is not OFF (R128, R130). -/
def genByte (r : BitVec 256) (seed : DWord) (off : Nat) : Byte :=
  if genBits r then
    BitVec.ofNat 8 ((List.range 8).foldl (fun m j => if maskAllowed r (8 * off + j) then m + 2 ^ j else m) 0)
  else
    let size := ((Fmt.ofCode (recField r 1 1)).getD .fp32).bytes
    BitVec.ofNat 8 (genElement r seed (off / size) / 2 ^ (8 * (off % size)))

/-- The record of a context's window; a window that has none is OFF (R127). -/
def Context.window (c : Context) (w : Nat) : BitVec 256 := Store.get 0 c.windows w

end Sys2Proof.Machine
end

