-- ==== Sys2Proof/Machine/Address.lean ====
section
/-!
DEFINITION. On-die addresses (R110 to R116): which byte an address names, the checks of a lane's access, held bytes,
and the rules of deterministic units on the cluster window and on reduction regions (R181, R182, R200).
-/
namespace Sys2Proof.Machine

/-- What one byte of an on-die address names: a location, or a byte of a generator window. -/
inductive OdaByte where
  | loc (key : Nat)
  | window (w off : Nat)
deriving DecidableEq, Repr

/-- Whether an agent holds the slot it was admitted to (R111). -/
def Agent.holdsSlot (a : Agent) : Bool := a.kind == .core && a.run != .saved

/-- Whether an offset of a core's local memory is held: the spill backing of an occupied slot, or the block-shared
backing of a block (R114). -/
def State.held (s : State) (d c k off : Nat) : Bool :=
  (s.allAgents.any fun a => a.holdsSlot && a.place.die == d && a.place.cluster == c && a.place.core == k
      && decide (0x7E000 - a.place.slot * 0x2000 ≤ off) && decide (off < 0x80000 - a.place.slot * 0x2000))
    || (s.units.any fun u => !u.ended && !u.saved && u.kind == .core && u.die == d && u.cluster == c
      && (u.cores.zip u.runs).any fun x => x.1 == k && decide (x.2 * 4096 ≤ off)
        && decide (off < (x.2 + (u.bshared + 4096 * u.cores.length - 1) / (4096 * u.cores.length)) * 4096))

/-- The location of an offset of a block's shared memory (R113). -/
def WorkUnit.blockKey (u : WorkUnit) (o : Nat) : Nat :=
  let n := u.cores.length
  let m := o / 4096 % n
  localKey u.die u.cluster (u.cores.getD m 0) (u.runs.getD m 0 * 4096 + o / 4096 / n * 4096 + o % 4096)

/-- Whether a core may be reached through the cluster window (R112). -/
def State.coreReachable (s : State) (a : Agent) (k : Nat) : Bool :=
  !s.quarantined a.place.die a.place.cluster k && (s.partDies (s.partOf a.ctx)).getLsbD a.place.die

/-- The CSQ thread's parameter area (R186). -/
def paramArea (cluster thread : Nat) : Nat := 0xFFFE000 + (4 * cluster + thread) * 0x200

/-- What the byte at an on-die address names for an agent, or the cause of the access (R110 to R114, R145, R186). -/
def State.odaByte (s : State) (a : Agent) (ea : Nat) : Except Cause OdaByte :=
  let p := a.place
  let core := a.kind == .core
  if ea < 0x80000 then
    if core && !s.held p.die p.cluster p.core ea then .ok (.loc (localKey p.die p.cluster p.core ea)) else .error .range
  else if 0x10_0000 ≤ ea ∧ ea < 0x10_2000 then
    if core then .ok (.loc (localKey p.die p.cluster p.core (0x7E000 - p.slot * 0x2000 + (ea - 0x10_0000)))) else .error .range
  else if (0xF_0000 ≤ ea ∧ ea < 0x10_0000) ∨ (0x10_2000 ≤ ea ∧ ea < 0x11_0000) then .error .spillOverflow
  else if 0x400_0000 ≤ ea ∧ ea < 0x800_0000 then
    let k := (ea - 0x400_0000) / 0x80000
    let off := (ea - 0x400_0000) % 0x80000
    if s.coreReachable a k && !s.held p.die p.cluster k off then .ok (.loc (localKey p.die p.cluster k off)) else .error .range
  else if 0x800_0000 ≤ ea ∧ ea < 0x900_0000 then
    match s.unit a.unit with
    | some u => if core && decide (ea - 0x800_0000 < u.bshared) then .ok (.loc (u.blockKey (ea - 0x800_0000))) else .error .range
    | none => .error .range
  else if 0x1000_0000 ≤ ea ∧ ea < 0x2000_0000 then
    let off := ea - 0x1000_0000
    if off < 0xFFF_E000 then .ok (.loc (spadKey p.die off))
    else if a.kind == .csq && decide (paramArea p.cluster p.slot ≤ off) && decide (off < paramArea p.cluster p.slot + 0x200)
    then .ok (.loc (spadKey p.die off))
    else .error .range
  else if 0x2000_0000 ≤ ea ∧ ea < 0x3000_0000 then
    .ok (.window ((ea - 0x2000_0000) / 0x100_0000) ((ea - 0x2000_0000) % 0x100_0000))
  else .error .range

/-- The bytes of an access of `w` bytes, lowest address first, or the cause of its first byte that has none, be it another cause
than a later byte's (R110, R111; DESIGN CHOICE, log entry 81). -/
def State.odaBytes (s : State) (a : Agent) (ea : Nat) : Nat → Except Cause (List OdaByte)
  | 0 => .ok []
  | w + 1 =>
    match s.odaByte a ea with
    | .error c => .error c
    | .ok b =>
      match s.odaBytes a (ea + 1) w with
      | .error c => .error c
      | .ok r => .ok (b :: r)

/-- The checks of R110 on one access: RANGE first, then ALIGN. -/
def State.checkOda (s : State) (a : Agent) (ea w : Nat) : Except Cause (List OdaByte) :=
  match s.odaBytes a ea w with
  | .error c => .error c
  | .ok bs => if ea % w = 0 then .ok bs else .error .align

/-- Whether an address is in the cluster window on a core outside a deterministic unit's block (R181). -/
def State.detClusterFault (s : State) (a : Agent) (ea : Nat) : Bool :=
  a.env.det && decide (0x400_0000 ≤ ea) && decide (ea < 0x800_0000)
    && !((s.unit a.unit).any fun u => u.kind == .core && u.cores.contains ((ea - 0x400_0000) / 0x80000))

/-- A reduction region of a launch record (R183, R200): base field, length, kind. -/
structure Region where
  base : Nat
  len  : Nat
  kind : Nat
deriving DecidableEq, Repr

/-- The reduction regions of a launch record. -/
def regionsOf (raw : BitVec 1024) : List Region :=
  (List.range (recBits raw 0x23 0 4)).map fun i =>
    ⟨recField raw (0x60 + 16 * i) 8, recField raw (0x68 + 16 * i) 4, recField raw (0x6C + 16 * i) 1⟩

/-- Whether a location lies in a region, for a unit of a die (R200). A VA region is looked up page by page. -/
def State.inRegion (s : State) (die ctx key : Nat) (r : Region) : Bool :=
  if r.base / 2 ^ 62 = 0 then
    let b := spadKey die (r.base - 0x1000_0000)
    decide (b ≤ key) && decide (key < b + r.len)
  else
    let b := r.base % 2 ^ 56
    (List.range (r.len / 2 ^ 16 + 2)).any fun i =>
      let page := (b / 2 ^ 16 + i) * 2 ^ 16
      match s.peek die (s.rootOf ctx) (BitVec.ofNat 56 page) false with
      | .frame k _ _ => decide (k ≤ key) && decide (key < k + 2 ^ 16)
          && decide (b ≤ page + (key - k)) && decide (page + (key - k) < b + r.len)
      | _ => false

/-- The kind of the reduction region that a location of a deterministic unit lies in: 1 INT32, 2 FP32, 0 none. -/
def State.regionKind (s : State) (u : UnitKey) (det : Bool) (die key : Nat) : Nat :=
  if det then
    match s.launch u.ctx u.launch with
    | some l => ((regionsOf l.raw).find? fun r => s.inRegion die u.ctx key r).elim 0 Region.kind
    | none => 0
  else 0

/-- The locations of an access's bytes; a generator window's bytes have none. -/
def odaKeys (bs : List OdaByte) : List Nat :=
  bs.filterMap fun b => match b with | .loc k => some k | .window _ _ => none

/-- The window that an access is to, if any. -/
def odaWindow (bs : List OdaByte) : Option Nat :=
  bs.findSome? fun b => match b with | .window w _ => some w | .loc _ => none

/-- The newest value that a store queue holds for a byte. -/
def queuedByte : List StoreEntry → Nat → Option Byte
  | [], _ => none
  | e :: r, k =>
    match queuedByte r k with
    | some b => some b
    | none => (e.cells.reverse.find? fun c => c.1 == k).map (·.2)

/-- A byte as an agent's load reads it: its own queued stores first (R135), then memory, then a window's function. -/
def State.loadByte (s : State) (a : Agent) (b : OdaByte) : Byte :=
  match b with
  | .loc k => (queuedByte a.storeQ k).getD (s.readByte a.unit k)
  | .window w off => genByte ((s.context a.ctx).window w) a.env.seed off

/-- A byte as a load reads it under generator-window records that stood earlier (R128). -/
def State.loadByteUnder (s : State) (a : Agent) (windows : Store (BitVec 256)) (b : OdaByte) : Byte :=
  match b with
  | .loc _ => s.loadByte a b
  | .window w off => genByte (Store.get 0 windows w) a.env.seed off

/-- A load's value, little-endian. -/
def State.loadValue (s : State) (a : Agent) (bs : List OdaByte) : Nat := leNat (bs.map (s.loadByte a))

/-- The trap of a load's access after its address checks: a window that is OFF (R133), bytes of a core outside a
deterministic block (R181), or poisoned data (R338). -/
def State.loadFault (s : State) (a : Agent) (ea : Nat) (bs : List OdaByte) : Option Cause :=
  match odaWindow bs with
  | some w => if genKind ((s.context a.ctx).window w) = 0 then some .genOff else none
  | none =>
    if s.detClusterFault a ea then some .detViolation
    else if (odaKeys bs).any fun k => s.poison.contains (k / 16) then some .uncorrectable
    else none

/-- The trap of a store's access after its address checks: a window without DISCARD (R133), or a deterministic
unit's store to another core or to a reduction region (R181, R182). -/
def State.storeFault (s : State) (a : Agent) (ea : Nat) (bs : List OdaByte) : Option Cause :=
  match odaWindow bs with
  | some w => if genDiscard ((s.context a.ctx).window w) then none else some .genStore
  | none =>
    if s.detClusterFault a ea then some .detViolation
    else if (odaKeys bs).any fun k => s.regionKind a.unit a.env.det a.place.die k != 0 then some .detViolation
    else none

/-- A failing lane of an access: lane, cause and address. -/
structure LaneFault where
  lane  : Nat
  cause : Cause
  addr  : Nat
deriving DecidableEq, Repr

/-- The accesses of the active lanes in ascending order, or the lowest failing lane (R110). -/
def collectLanes (em : Word) (f : Nat → Except LaneFault α) : List Nat → Except LaneFault (List (Nat × α))
  | [] => .ok []
  | l :: r =>
    if em.getLsbD l then
      match f l with
      | .error e => .error e
      | .ok x =>
        match collectLanes em f r with
        | .error e => .error e
        | .ok xs => .ok ((l, x) :: xs)
    else collectLanes em f r

/-- A trap with the failing lane and its address. -/
def laneTrap (s : State) (e : LaneFault) : State :=
  takeTrapWith s e.cause { FaultInfo.none with lane := some e.lane, addr := BitVec.ofNat 64 e.addr }

/-- One lane's checked access: its address and bytes. -/
structure Access where
  ea    : Nat
  bytes : List OdaByte
deriving DecidableEq, Repr

/-- The checks of one lane's access of `w` bytes at `ea`, with the further traps of `fault`. -/
def State.laneAccess (s : State) (a : Agent) (w : Nat) (fault : Nat → List OdaByte → Option Cause) (l ea : Nat) :
    Except LaneFault Access :=
  match s.checkOda a ea w with
  | .error c => .error ⟨l, c, ea⟩
  | .ok bs =>
    match fault ea bs with
    | some c => .error ⟨l, c, ea⟩
    | none => .ok ⟨ea, bs⟩

/-- The lanes 0 to 31. -/
def allLanes : List Nat := List.range 32

/-- The effective address of a lane (R44): the address operand plus the offset, in 32 bits. -/
def Agent.ea (a : Agent) (x : BitVec 7) (off l : Nat) : Nat := (a.src x l + BitVec.ofNat 32 off).toNat

/-! Latencies (R11, R12, R115, R116). -/

/-- The latency of the range that an address lies in (R11, Table 3). -/
def rangeLatency (ea : Nat) : Nat :=
  if ea < 0x400_0000 then 6 else if ea < 0x900_0000 then 20 else if ea < 0x2000_0000 then 64 else 10

/-- The banks and words that an access of `w` bytes addresses, `n` being the cores of the block: own local memory and the
spill window in the core's banks, the windows in those of the target core, the scratchpad in its own. -/
def bankWords (n w ea : Nat) : List (Nat × Nat) :=
  let words := (List.range ((w + 3) / 4)).map fun i => ea / 4 + i
  if ea < 0x400_0000 then words.map fun x => (x % 32, x)
  else if ea < 0x800_0000 then words.map fun x => ((1 + (x * 4 - 0x400_0000) / 0x80000) * 32 + x % 32, x)
  else if ea < 0x900_0000 then words.map fun x => ((129 + (x * 4 - 0x800_0000) / 4096 % max 1 n) * 32 + x % 32, x)
  else if ea < 0x2000_0000 then [(0x8000 + ea / 16 % 64, ea / 16)]
  else []

/-- The conflict term of one instruction: the words in the bank that has most, less one. -/
def conflictTerm (ws : List (Nat × Nat)) : Nat :=
  (ws.map fun x => (ws.filter fun y => y.1 == x.1).length).foldl max 1 - 1

/-- The latency of an access of `w` bytes at the lanes' addresses. Lanes in several ranges take the largest latency and
the largest term (DEDUCED, log entry 59). Lanes of an atomic that address one word count separately (R136). -/
def State.accessLatency (s : State) (a : Agent) (w : Nat) (each : Bool) (eas : List Nat) : Nat :=
  let n := (s.unit a.unit).elim 1 fun u => u.cores.length
  let ws := eas.flatMap (bankWords n w)
  (eas.map rangeLatency).foldl max 0 + conflictTerm (if each then ws else ws.eraseDups)

end Sys2Proof.Machine
end

