-- ==== Sys2Proof/Machine/Lane.lean ====
section
/-!
DEFINITION. The lane instructions of majors 0x00 to 0x2D (R69 to R89), and the operations they compute.
-/
namespace Sys2Proof.Machine

/-! Integer operations (R73, R74). -/

/-- A signed integer saturated to 32 bits. -/
def sat32 (x : Int) : Word :=
  if x < -2147483648 then 0x8000_0000 else if x > 2147483647 then 0x7FFF_FFFF else BitVec.ofInt 32 x

def iaddsW (a b : Word) : Word := sat32 (a.toInt + b.toInt)
def isubsW (a b : Word) : Word := sat32 (a.toInt - b.toInt)
def imulhiW (a b : Word) : Word := (a.signExtend 64 * b.signExtend 64).extractLsb' 32 32
def imulhiuW (a b : Word) : Word := (a.setWidth 64 * b.setWidth 64).extractLsb' 32 32
def iminW (a b : Word) : Word := if a.slt b then a else b
def imaxW (a b : Word) : Word := if a.slt b then b else a
def uminW (a b : Word) : Word := if a.ult b then a else b
def umaxW (a b : Word) : Word := if a.ult b then b else a
def shlW (a b : Word) : Word := if b.toNat < 32 then a <<< b.toNat else 0
def shrW (a b : Word) : Word := if b.toNat < 32 then a >>> b.toNat else 0
def sraW (a b : Word) : Word := a.sshiftRight (min b.toNat 31)
def rotlW (a b : Word) : Word := a.rotateLeft (b.extractLsb' 0 5).toNat

/-- The number of 1 bits. -/
def popcW (a : Word) : Word := BitVec.ofNat 32 ((List.range 32).countP fun i => a.getLsbD i)

/-- The number of leading 0 bits. -/
def clzW (a : Word) : Word := BitVec.ofNat 32 (if a = 0 then 32 else 31 - Nat.log2 a.toNat)

def brevW (a : Word) : Word := a.reverse

/-- BFX (R74). -/
def bfxW (a b : Word) : Word :=
  let pos := (b.extractLsb' 0 5).toNat
  let len := min (b.extractLsb' 8 6).toNat 32
  let f := (a.toNat / 2 ^ pos) % 2 ^ len
  if b.getLsbD 16 && decide (0 < len) && decide (2 ^ (len - 1) ≤ f) then BitVec.ofInt 32 ((f : Int) - 2 ^ len)
  else BitVec.ofNat 32 f

/-- BFI (R74). -/
def bfiW (a b : Word) : Word :=
  let pos := (b.extractLsb' 0 5).toNat
  let len := min (b.extractLsb' 8 5).toNat 16
  let m := BitVec.ofNat 32 ((2 ^ len - 1) * 2 ^ pos)
  (a &&& ~~~m) ||| ((b.extractLsb' 16 16).setWidth 32 <<< pos &&& m)

def iabsW (a : Word) : Word := if a.msb then -a else a
def udivW (a b : Word) : Word := if b = 0 then 0xFFFF_FFFF else a / b
def uremW (a b : Word) : Word := if b = 0 then a else a % b

/-! Comparisons (R84). -/

def icmpltW (a b : Word) : Word := bit32 (a.slt b)
def icmpeqW (a b : Word) : Word := bit32 (a == b)
def fcmpleB (a b : Word) : Bool := (f32 a).lt (f32 b) || (f32 a).eq (f32 b)

/-! Narrow elements (R78, R82, R83). -/

/-- Element i of a word whose elements have `w` bits. -/
def element (x : Word) (w i : Nat) : Nat := x.toNat / 2 ^ (w * i) % 2 ^ w

/-- DotSum over the elements of two words (R78). -/
def dotW (f : Fmt) (w n : Nat) (b a d : Word) : Word :=
  toF32 (dotSum ((List.range n).map fun i => (decodeNum f (element a w i), decodeNum f (element b w i))) (f32 d))

/-- A packing conversion: d shifted left, the new code at the low end (R82). -/
def pack (f : Fmt) (mode : RoundMode) (sh : Nat) (a d : Word) : Word := (d <<< sh) ||| convertLane f mode a

/-- The random mode of a stochastic conversion: r is b[15:0] (R82). -/
def srOf (b : Word) : RoundMode := .sr (b.toNat % 65536)

/-- A packing conversion of two values. -/
def pack2 (f : Fmt) (b a d : Word) : Word := (d <<< 16) ||| (convertLane f .ne b <<< 8) ||| convertLane f .ne a

/-- CVT.BF2 and CVT.HF2 (R81). -/
def cvt2W (f : Fmt) (a b : Word) : Word :=
  BitVec.ofNat 32 (roundIeee f .ne (f32 b) * 65536 + roundIeee f .ne (f32 a))

/-- An unpack: the element of a that the low bits of b choose, `k` of them (R83). -/
def unpack (f : Fmt) (w k : Nat) (a b : Word) : Word := widen f (element a w (b.toNat % 2 ^ k))

/-! Reductions, queries and exchange (R79, R85, R86). -/

/-- A reduction over the active lanes (R32, R79). -/
def reduce (op : Word → Word → Word) (ident : Word) (n : BitVec 1) (x d : BitVec 7) (s : State) : Out :=
  guard (laneNeed n d [x] false) s fun s =>
    let r := laneTree op fun l => if s.me.cur.em.getLsbD l then s.me.src x l else ident
    .next (s.writeLane n d.toNat (fun _ => r) 4)

/-- The mask of the active lanes for which `p` holds. -/
def laneMask (em : Word) (p : Nat → Bool) : Word :=
  BitVec.ofNat 32 ((List.range 32).foldl (fun m l => if em.getLsbD l && p l then m + 2 ^ l else m) 0)

/-- A shuffle: each active lane takes a of lane `j`, or its own a where that lane is absent or inactive (R86). -/
def shuffle (j : Nat → Nat → Option Nat) (n : BitVec 1) (y x d : BitVec 7) (s : State) : Out :=
  guard (laneNeed n d [x, y] false) s fun s =>
    .next (s.writeLane n d.toNat (fun l =>
      match j l (s.me.src y l).toNat with
      | some k => if k < 32 ∧ s.me.cur.em.getLsbD k then s.me.src x k else s.me.src x l
      | none => s.me.src x l) 4)

/-! Random instructions (R87). -/

/-- Whether a code names no pair of v registers. -/
def badPair (c : BitVec 7) : Bool := decide (119 ≤ c.toNat)

/-- What a random instruction needs: two register pairs, and `w` destination registers. -/
def rngNeed (n : BitVec 1) (y x d : BitVec 7) (w : Nat) : Need :=
  { units := .core, field := n == 1 && d != 0, scope := false,
    reg := badPair x || badPair y || decide (120 < d.toNat + w),
    reads := regSpan x.toNat 2 ++ regSpan y.toNat 2, writes := if n == 1 then [] else regSpan d.toNat w, latches := [], wide := [] }

/-- The counter block of RNGU and RNGB for a lane. -/
def Agent.elementWord (a : Agent) (x y : BitVec 7) (l : Nat) : Word :=
  philoxElement a.env.seed (a.readV (x.toNat + 1) l ++ a.readV x.toNat l) (a.readV y.toNat l) (a.readV (y.toNat + 1) l)

/-- RNGU and RNGB: one word of the element's block, as `f` reads it. -/
def rngElement (f : Word → Word) (n : BitVec 1) (y x d : BitVec 7) (s : State) : Out :=
  guard (rngNeed n y x d 1) s fun s => .next (s.writeLane n d.toNat (fun l => f (s.me.elementWord x y l)) 4)

/-- A uniform FP32 value of a random word (R87): (w >> 8) × 2^−24. -/
def uniformW (w : Word) : Word := toF32 (.num false (((w.toNat / 256 : Nat) : Rat) * pow2 (-24)))

/-- Several lane results written to v[d], v[d+1], … in the active lanes. -/
def Agent.writeSpan (a : Agent) (em : Word) (d : Nat) : List Lanes → Agent
  | [] => a
  | r :: rs => (a.writeV d em r).writeSpan em (d + 1) rs

/-! Moves to g registers (R89). -/

/-- What MOVVG and MOVVGL need: a g destination and a pair of v registers. -/
def movvNeed (x d : BitVec 7) : Need :=
  { Need.of .core with reg := badG d || badPair x, reads := regSpan x.toNat 2, wide := gReg d.toNat }

/-- v[x+1] << 32 | v[x] of a lane. -/
def Agent.pair (a : Agent) (x : BitVec 7) (l : Nat) : DWord := a.readV (x.toNat + 1) l ++ a.readV x.toNat l

/-! The instructions. -/

/-- IADD (R73) -/
def execIadd (n : BitVec 1) (b a d : BitVec 7) (s : State) : Out :=
  lane2 (· + ·) n b a d s

/-- ISUB (R73) -/
def execIsub (n : BitVec 1) (b a d : BitVec 7) (s : State) : Out :=
  lane2 (· - ·) n b a d s

/-- IADDS (R73) -/
def execIadds (n : BitVec 1) (b a d : BitVec 7) (s : State) : Out :=
  lane2 iaddsW n b a d s

/-- ISUBS (R73) -/
def execIsubs (n : BitVec 1) (b a d : BitVec 7) (s : State) : Out :=
  lane2 isubsW n b a d s

/-- IMUL (R73) -/
def execImul (n : BitVec 1) (b a d : BitVec 7) (s : State) : Out :=
  lane2 (· * ·) n b a d s

/-- IMULHI (R73) -/
def execImulhi (n : BitVec 1) (b a d : BitVec 7) (s : State) : Out :=
  lane2 imulhiW n b a d s

/-- IMULHIU (R73) -/
def execImulhiu (n : BitVec 1) (b a d : BitVec 7) (s : State) : Out :=
  lane2 imulhiuW n b a d s

/-- IMAD (R73) -/
def execImad (b a d : BitVec 7) (s : State) : Out :=
  lane3 (fun x y z => x * y + z) b a d s

/-- IMIN (R73) -/
def execImin (n : BitVec 1) (b a d : BitVec 7) (s : State) : Out :=
  lane2 iminW n b a d s

/-- IMAX (R73) -/
def execImax (n : BitVec 1) (b a d : BitVec 7) (s : State) : Out :=
  lane2 imaxW n b a d s

/-- UMIN (R73) -/
def execUmin (n : BitVec 1) (b a d : BitVec 7) (s : State) : Out :=
  lane2 uminW n b a d s

/-- UMAX (R73) -/
def execUmax (n : BitVec 1) (b a d : BitVec 7) (s : State) : Out :=
  lane2 umaxW n b a d s

/-- AND (R73) -/
def execAnd (n : BitVec 1) (b a d : BitVec 7) (s : State) : Out :=
  lane2 (· &&& ·) n b a d s

/-- OR (R73) -/
def execOr (n : BitVec 1) (b a d : BitVec 7) (s : State) : Out :=
  lane2 (· ||| ·) n b a d s

/-- XOR (R73) -/
def execXor (n : BitVec 1) (b a d : BitVec 7) (s : State) : Out :=
  lane2 (· ^^^ ·) n b a d s

/-- ANDN (R73) -/
def execAndn (n : BitVec 1) (b a d : BitVec 7) (s : State) : Out :=
  lane2 (fun x y => x &&& ~~~y) n b a d s

/-- SHL (R73) -/
def execShl (n : BitVec 1) (b a d : BitVec 7) (s : State) : Out :=
  lane2 shlW n b a d s

/-- SHR (R73) -/
def execShr (n : BitVec 1) (b a d : BitVec 7) (s : State) : Out :=
  lane2 shrW n b a d s

/-- SRA (R73) -/
def execSra (n : BitVec 1) (b a d : BitVec 7) (s : State) : Out :=
  lane2 sraW n b a d s

/-- ROTL (R73) -/
def execRotl (n : BitVec 1) (b a d : BitVec 7) (s : State) : Out :=
  lane2 rotlW n b a d s

/-- POPC (R73) -/
def execPopc (n : BitVec 1) (a d : BitVec 7) (s : State) : Out :=
  lane1 popcW n a d s

/-- CLZ (R73) -/
def execClz (n : BitVec 1) (a d : BitVec 7) (s : State) : Out :=
  lane1 clzW n a d s

/-- BREV (R73) -/
def execBrev (n : BitVec 1) (a d : BitVec 7) (s : State) : Out :=
  lane1 brevW n a d s

/-- BFX (R74) -/
def execBfx (n : BitVec 1) (b a d : BitVec 7) (s : State) : Out :=
  lane2 bfxW n b a d s

/-- BFI (R74) -/
def execBfi (n : BitVec 1) (b a d : BitVec 7) (s : State) : Out :=
  lane2 bfiW n b a d s

/-- IABS (R73) -/
def execIabs (n : BitVec 1) (a d : BitVec 7) (s : State) : Out :=
  lane1 iabsW n a d s

/-- UDIV (R73) -/
def execUdiv (n : BitVec 1) (b a d : BitVec 7) (s : State) : Out :=
  lane2 udivW n b a d s

/-- UREM (R73) -/
def execUrem (n : BitVec 1) (b a d : BitVec 7) (s : State) : Out :=
  lane2 uremW n b a d s

/-- LEA (R73) -/
def execLea (n : BitVec 1) (b a d : BitVec 7) (s : State) : Out :=
  lane2 (fun x y => x + y * 1) n b a d s

/-- LEA2 (R73) -/
def execLea2 (n : BitVec 1) (b a d : BitVec 7) (s : State) : Out :=
  lane2 (fun x y => x + y * 2) n b a d s

/-- LEA4 (R73) -/
def execLea4 (n : BitVec 1) (b a d : BitVec 7) (s : State) : Out :=
  lane2 (fun x y => x + y * 4) n b a d s

/-- LEA8 (R73) -/
def execLea8 (n : BitVec 1) (b a d : BitVec 7) (s : State) : Out :=
  lane2 (fun x y => x + y * 8) n b a d s

/-- FADD (R75) -/
def execFadd (n : BitVec 1) (b a d : BitVec 7) (s : State) : Out :=
  lane2 faddW n b a d s

/-- FSUB (R75) -/
def execFsub (n : BitVec 1) (b a d : BitVec 7) (s : State) : Out :=
  lane2 fsubW n b a d s

/-- FMUL (R75) -/
def execFmul (n : BitVec 1) (b a d : BitVec 7) (s : State) : Out :=
  lane2 fmulW n b a d s

/-- FMA (R75) -/
def execFma (b a d : BitVec 7) (s : State) : Out :=
  lane3 fmaW b a d s

/-- FMIN (R75) -/
def execFmin (n : BitVec 1) (b a d : BitVec 7) (s : State) : Out :=
  lane2 fminW n b a d s

/-- FMAX (R75) -/
def execFmax (n : BitVec 1) (b a d : BitVec 7) (s : State) : Out :=
  lane2 fmaxW n b a d s

/-- FABS (R75): bit 31 cleared -/
def execFabs (n : BitVec 1) (a d : BitVec 7) (s : State) : Out :=
  lane1 (fun x => x &&& 0x7FFF_FFFF) n a d s

/-- FNEG (R75): bit 31 inverted -/
def execFneg (n : BitVec 1) (a d : BitVec 7) (s : State) : Out :=
  lane1 (fun x => x ^^^ 0x8000_0000) n a d s

/-- FRCP (R76) -/
def execFrcp (n : BitVec 1) (a d : BitVec 7) (s : State) : Out :=
  lane1 rcpF32 n a d s

/-- FRSQ (R76) -/
def execFrsq (n : BitVec 1) (a d : BitVec 7) (s : State) : Out :=
  lane1 rsqF32 n a d s

/-- FEX2 (R76) -/
def execFex2 (n : BitVec 1) (a d : BitVec 7) (s : State) : Out :=
  lane1 ex2F32 n a d s

/-- FLG2 (R76) -/
def execFlg2 (n : BitVec 1) (a d : BitVec 7) (s : State) : Out :=
  lane1 lg2F32 n a d s

/-- FADD.BF2 (R77) -/
def execFaddBf2 (n : BitVec 1) (b a d : BitVec 7) (s : State) : Out :=
  lane2 (fun x y => packed .bf16 (fun p q _ => p.add q) x y 0) n b a d s

/-- FMUL.BF2 (R77) -/
def execFmulBf2 (n : BitVec 1) (b a d : BitVec 7) (s : State) : Out :=
  lane2 (fun x y => packed .bf16 (fun p q _ => p.mul q) x y 0) n b a d s

/-- FMA.BF2 (R77) -/
def execFmaBf2 (b a d : BitVec 7) (s : State) : Out :=
  lane3 (packed .bf16 fun p q r => (p.mul q).add r) b a d s

/-- FMAX.BF2 (R77) -/
def execFmaxBf2 (n : BitVec 1) (b a d : BitVec 7) (s : State) : Out :=
  lane2 (fun x y => packed .bf16 (fun p q _ => p.max q) x y 0) n b a d s

/-- FADD.HF2 (R77) -/
def execFaddHf2 (n : BitVec 1) (b a d : BitVec 7) (s : State) : Out :=
  lane2 (fun x y => packed .fp16 (fun p q _ => p.add q) x y 0) n b a d s

/-- FMUL.HF2 (R77) -/
def execFmulHf2 (n : BitVec 1) (b a d : BitVec 7) (s : State) : Out :=
  lane2 (fun x y => packed .fp16 (fun p q _ => p.mul q) x y 0) n b a d s

/-- FMA.HF2 (R77) -/
def execFmaHf2 (b a d : BitVec 7) (s : State) : Out :=
  lane3 (packed .fp16 fun p q r => (p.mul q).add r) b a d s

/-- FMAX.HF2 (R77) -/
def execFmaxHf2 (n : BitVec 1) (b a d : BitVec 7) (s : State) : Out :=
  lane2 (fun x y => packed .fp16 (fun p q _ => p.max q) x y 0) n b a d s

/-- FDOT (R78): 2 products -/
def execFdot2Bf (b a d : BitVec 7) (s : State) : Out :=
  lane3 (fun x y z => dotW .bf16 16 2 y x z) b a d s

/-- FDOT (R78): 4 products -/
def execFdot4E4 (b a d : BitVec 7) (s : State) : Out :=
  lane3 (fun x y z => dotW .e4m3 8 4 y x z) b a d s

/-- FDOT (R78): 4 products -/
def execFdot4E5 (b a d : BitVec 7) (s : State) : Out :=
  lane3 (fun x y z => dotW .e5m2 8 4 y x z) b a d s

/-- FDOT (R78): 8 products -/
def execFdot8E2m1 (b a d : BitVec 7) (s : State) : Out :=
  lane3 (fun x y z => dotW .e2m1 4 8 y x z) b a d s

/-- RADD.F (R79) -/
def execRaddF (n : BitVec 1) (a d : BitVec 7) (s : State) : Out :=
  reduce faddW 0 n a d s

/-- RMAX.F (R79) -/
def execRmaxF (n : BitVec 1) (a d : BitVec 7) (s : State) : Out :=
  reduce fmaxW 0xFF80_0000 n a d s

/-- RADD.I (R79) -/
def execRaddI (n : BitVec 1) (a d : BitVec 7) (s : State) : Out :=
  reduce (· + ·) 0 n a d s

/-- RMAX.I (R79) -/
def execRmaxI (n : BitVec 1) (a d : BitVec 7) (s : State) : Out :=
  reduce imaxW 0x8000_0000 n a d s

/-- FSCALE (R75) -/
def execFscale (n : BitVec 1) (b a d : BitVec 7) (s : State) : Out :=
  lane2 (fun x y => scaleF32 x y.toInt) n b a d s

/-- FFLOOR (R75) -/
def execFfloor (n : BitVec 1) (a d : BitVec 7) (s : State) : Out :=
  lane1 floorF32 n a d s

/-- FRINT (R75) -/
def execFrint (n : BitVec 1) (a d : BitVec 7) (s : State) : Out :=
  lane1 rintF32 n a d s

/-- I2F (R80) -/
def execI2f (n : BitVec 1) (a d : BitVec 7) (s : State) : Out :=
  lane1 (fun x => toF32 (FVal.ofRat (x.toInt : Rat) false)) n a d s

/-- U2F (R80) -/
def execU2f (n : BitVec 1) (a d : BitVec 7) (s : State) : Out :=
  lane1 (fun x => toF32 (FVal.ofRat (x.toNat : Rat) false)) n a d s

/-- F2I (R80) -/
def execF2i (n : BitVec 1) (a d : BitVec 7) (s : State) : Out :=
  lane1 toIntZ n a d s

/-- F2U (R80) -/
def execF2u (n : BitVec 1) (a d : BitVec 7) (s : State) : Out :=
  lane1 toUIntZ n a d s

/-- CVT.BF2 (R81) -/
def execCvtBf2 (n : BitVec 1) (b a d : BitVec 7) (s : State) : Out :=
  lane2 (cvt2W .bf16) n b a d s

/-- CVT.HF2 (R81) -/
def execCvtHf2 (n : BitVec 1) (b a d : BitVec 7) (s : State) : Out :=
  lane2 (cvt2W .fp16) n b a d s

/-- CVT.E4 (R82) -/
def execCvtE4 (b a d : BitVec 7) (s : State) : Out :=
  lane3 (fun x y z => pack2 .e4m3 y x z) b a d s

/-- CVT.E5 (R82) -/
def execCvtE5 (b a d : BitVec 7) (s : State) : Out :=
  lane3 (fun x y z => pack2 .e5m2 y x z) b a d s

/-- CVTSR.E4 (R82) -/
def execCvtsrE4 (b a d : BitVec 7) (s : State) : Out :=
  lane3 (fun x y z => pack .e4m3 (srOf y) 8 x z) b a d s

/-- CVTSR.E5 (R82) -/
def execCvtsrE5 (b a d : BitVec 7) (s : State) : Out :=
  lane3 (fun x y z => pack .e5m2 (srOf y) 8 x z) b a d s

/-- CVTSR.E3M2 (R82) -/
def execCvtsrE3m2 (b a d : BitVec 7) (s : State) : Out :=
  lane3 (fun x y z => pack .e3m2 (srOf y) 8 x z) b a d s

/-- CVTSR.E2M1 (R82) -/
def execCvtsrE2m1 (b a d : BitVec 7) (s : State) : Out :=
  lane3 (fun x y z => pack .e2m1 (srOf y) 4 x z) b a d s

/-- CVTSR.E2M3 (R82) -/
def execCvtsrE2m3 (b a d : BitVec 7) (s : State) : Out :=
  lane3 (fun x y z => pack .e2m3 (srOf y) 8 x z) b a d s

/-- CVT.E3M2 (R82) -/
def execCvtE3m2 (a d : BitVec 7) (s : State) : Out :=
  lane3One (pack .e3m2 .ne 8) a d s

/-- CVT.E2M3 (R82) -/
def execCvtE2m3 (a d : BitVec 7) (s : State) : Out :=
  lane3One (pack .e2m3 .ne 8) a d s

/-- CVT.E2M1 (R82) -/
def execCvtE2m1 (a d : BitVec 7) (s : State) : Out :=
  lane3One (pack .e2m1 .ne 4) a d s

/-- CVTSR.BF (R82) -/
def execCvtsrBf (b a d : BitVec 7) (s : State) : Out :=
  lane3 (fun x y z => (z <<< 16) ||| BitVec.ofNat 32 (roundIeee .bf16 (srOf y) (f32 x))) b a d s

/-- UNP.BF (R83) -/
def execUnpBf (n : BitVec 1) (b a d : BitVec 7) (s : State) : Out :=
  lane2 (unpack .bf16 16 1) n b a d s

/-- UNP.HF (R83) -/
def execUnpHf (n : BitVec 1) (b a d : BitVec 7) (s : State) : Out :=
  lane2 (unpack .fp16 16 1) n b a d s

/-- UNP.E4 (R83) -/
def execUnpE4 (n : BitVec 1) (b a d : BitVec 7) (s : State) : Out :=
  lane2 (unpack .e4m3 8 2) n b a d s

/-- UNP.E5 (R83) -/
def execUnpE5 (n : BitVec 1) (b a d : BitVec 7) (s : State) : Out :=
  lane2 (unpack .e5m2 8 2) n b a d s

/-- UNP.E3M2 (R83) -/
def execUnpE3m2 (n : BitVec 1) (b a d : BitVec 7) (s : State) : Out :=
  lane2 (unpack .e3m2 8 2) n b a d s

/-- UNP.E2M3 (R83) -/
def execUnpE2m3 (n : BitVec 1) (b a d : BitVec 7) (s : State) : Out :=
  lane2 (unpack .e2m3 8 2) n b a d s

/-- UNP.E2M1 (R83) -/
def execUnpE2m1 (n : BitVec 1) (b a d : BitVec 7) (s : State) : Out :=
  lane2 (unpack .e2m1 4 3) n b a d s

/-- ICMPEQ (R84) -/
def execIcmpeq (n : BitVec 1) (b a d : BitVec 7) (s : State) : Out :=
  lane2 icmpeqW n b a d s

/-- ICMPLT (R84) -/
def execIcmplt (n : BitVec 1) (b a d : BitVec 7) (s : State) : Out :=
  lane2 icmpltW n b a d s

/-- ICMPLTU (R84) -/
def execIcmpltu (n : BitVec 1) (b a d : BitVec 7) (s : State) : Out :=
  lane2 (fun x y => bit32 (x.ult y)) n b a d s

/-- ICMPLE (R84) -/
def execIcmple (n : BitVec 1) (b a d : BitVec 7) (s : State) : Out :=
  lane2 (fun x y => bit32 (x.sle y)) n b a d s

/-- FCMPEQ (R84) -/
def execFcmpeq (n : BitVec 1) (b a d : BitVec 7) (s : State) : Out :=
  lane2 (fun x y => bit32 ((f32 x).eq (f32 y))) n b a d s

/-- FCMPLT (R84) -/
def execFcmplt (n : BitVec 1) (b a d : BitVec 7) (s : State) : Out :=
  lane2 (fun x y => bit32 ((f32 x).lt (f32 y))) n b a d s

/-- FCMPLE (R84) -/
def execFcmple (n : BitVec 1) (b a d : BitVec 7) (s : State) : Out :=
  lane2 (fun x y => bit32 (fcmpleB x y)) n b a d s

/-- FCMPUN (R84) -/
def execFcmpun (n : BitVec 1) (b a d : BitVec 7) (s : State) : Out :=
  lane2 (fun x y => bit32 ((f32 x).isNaN || (f32 y).isNaN)) n b a d s

/-- SEL (R85) -/
def execSel (b a d : BitVec 7) (s : State) : Out :=
  lane3 (fun x y z => if z = 0 then y else x) b a d s

/-- BALLOT (R85) -/
def execBallot (n : BitVec 1) (a d : BitVec 7) (s : State) : Out :=
  guard (laneNeed n d [a] false) s fun s =>
    let m := laneMask s.me.cur.em fun l => s.me.src a l != 0
    .next (s.writeLane n d.toNat (fun _ => m) 4)

/-- MATCH (R85) -/
def execMatchLanes (n : BitVec 1) (a d : BitVec 7) (s : State) : Out :=
  guard (laneNeed n d [a] false) s fun s =>
    .next (s.writeLane n d.toNat (fun l => laneMask s.me.cur.em fun k => s.me.src a k == s.me.src a l) 4)

/-- LANEID (R85) -/
def execLaneid (n : BitVec 1) (d : BitVec 7) (s : State) : Out :=
  guard (laneNeed n d [] false) s fun s =>
    .next (s.writeLane n d.toNat (fun l => BitVec.ofNat 32 l) 4)

/-- SHFL (R86) -/
def execShfl (n : BitVec 1) (b a d : BitVec 7) (s : State) : Out :=
  shuffle (fun _ x => some (x % 32)) n b a d s

/-- SHFLUP (R86) -/
def execShflup (n : BitVec 1) (b a d : BitVec 7) (s : State) : Out :=
  shuffle (fun l x => if l < x % 32 then none else some (l - x % 32)) n b a d s

/-- SHFLDN (R86) -/
def execShfldn (n : BitVec 1) (b a d : BitVec 7) (s : State) : Out :=
  shuffle (fun l x => some (l + x % 32)) n b a d s

/-- SHFLX (R86) -/
def execShflx (n : BitVec 1) (b a d : BitVec 7) (s : State) : Out :=
  shuffle (fun l x => some (l ^^^ (x % 32))) n b a d s

/-- RNG4 (R87): four registers, b0 takes the first word -/
def execRng4 (n : BitVec 1) (b a d : BitVec 7) (s : State) : Out :=
  guard (rngNeed n b a d 4) s fun s =>
    let m := s.me
    let w := fun (i l : Nat) => (philox m.env.seed
      ⟨m.readV a.toNat l, m.readV (a.toNat + 1) l, m.readV b.toNat l, m.readV (b.toNat + 1) l⟩).word i
    let rs := (List.range 4).map fun i => laneResult m.cur.em (w i)
    let m' := if n = 1 then m else m.writeSpan m.cur.em d.toNat rs
    .next { s with me := m'.retire (some (laneResult m.cur.em (w 0))) (m.nextPc 4) false }

/-- RNGU (R87) -/
def execRngu (n : BitVec 1) (b a d : BitVec 7) (s : State) : Out :=
  rngElement uniformW n b a d s

/-- RNGB (R87) -/
def execRngb (n : BitVec 1) (b a d : BitVec 7) (s : State) : Out :=
  rngElement id n b a d s

/-- MOV (R89) -/
def execMov (n : BitVec 1) (a d : BitVec 7) (s : State) : Out :=
  lane1 id n a d s

/-- MOVG (R89): A is a g code -/
def execMovg (n : BitVec 1) (a d : BitVec 7) (s : State) : Out :=
  guard { laneNeed n d [] false with reg := badDest d || badG a, wide := gReg a.toNat } s fun s =>
    .next (s.writeLane n d.toNat (fun _ => (s.me.g7 a).extractLsb' 0 32) 4)

/-- MOVVG (R89): the pair of the lowest active lane -/
def execMovvg (a d : BitVec 7) (s : State) : Out :=
  guard (movvNeed a d) s fun s =>
    let x := match (List.range 32).find? fun l => s.me.cur.em.getLsbD l with
      | some l => s.me.pair a l
      | none => 0
    .next (s.finishG d x false)

/-- MOVVGL (R89): the pair of lane L -/
def execMovvgl (l : BitVec 5) (a d : BitVec 7) (s : State) : Out :=
  guard (movvNeed a d) s fun s =>
    .next (s.finishG d (if s.me.cur.em.getLsbD l.toNat then s.me.pair a l.toNat else 0) false)

/-! The 16-bit forms (R41): each has the effect of its 32-bit equivalent. -/

/-- IADD, 16-bit (R41) -/
def execIadd16 (n : BitVec 1) (a d : BitVec 5) (s : State) : Out :=
  half2 (· + ·) n a d s

/-- ISUB, 16-bit (R41) -/
def execIsub16 (n : BitVec 1) (a d : BitVec 5) (s : State) : Out :=
  half2 (· - ·) n a d s

/-- IMUL, 16-bit (R41) -/
def execImul16 (n : BitVec 1) (a d : BitVec 5) (s : State) : Out :=
  half2 (· * ·) n a d s

/-- AND, 16-bit (R41) -/
def execAnd16 (n : BitVec 1) (a d : BitVec 5) (s : State) : Out :=
  half2 (· &&& ·) n a d s

/-- OR, 16-bit (R41) -/
def execOr16 (n : BitVec 1) (a d : BitVec 5) (s : State) : Out :=
  half2 (· ||| ·) n a d s

/-- XOR, 16-bit (R41) -/
def execXor16 (n : BitVec 1) (a d : BitVec 5) (s : State) : Out :=
  half2 (· ^^^ ·) n a d s

/-- FADD, 16-bit (R41) -/
def execFadd16 (n : BitVec 1) (a d : BitVec 5) (s : State) : Out :=
  half2 faddW n a d s

/-- FSUB, 16-bit (R41) -/
def execFsub16 (n : BitVec 1) (a d : BitVec 5) (s : State) : Out :=
  half2 fsubW n a d s

/-- FMUL, 16-bit (R41) -/
def execFmul16 (n : BitVec 1) (a d : BitVec 5) (s : State) : Out :=
  half2 fmulW n a d s

/-- FMAX, 16-bit (R41) -/
def execFmax16 (n : BitVec 1) (a d : BitVec 5) (s : State) : Out :=
  half2 fmaxW n a d s

/-- ICMPLT, 16-bit (R41) -/
def execIcmplt16 (n : BitVec 1) (a d : BitVec 5) (s : State) : Out :=
  half2 icmpltW n a d s

/-- SHLI, 16-bit (R41) -/
def execShli16 (n : BitVec 1) (i d : BitVec 5) (s : State) : Out :=
  halfImm shlW n (i.setWidth 32) d s

/-- SHRI, 16-bit (R41) -/
def execShri16 (n : BitVec 1) (i d : BitVec 5) (s : State) : Out :=
  halfImm shrW n (i.setWidth 32) d s

/-- MOV, 16-bit (R41): with N = 1, D must be 0 -/
def execMov16 (n : BitVec 1) (a d : BitVec 5) (s : State) : Out :=
  guard { halfNeed n d false [a] with field := n == 1 && d != 0 } s fun s =>
    .next (s.writeLane n d.toNat (fun l => s.me.readV a.toNat l) 2)

/-- MOVI5 (R41): imm5 signed; with N = 1, D must be 0 -/
def execMovi5 (n : BitVec 1) (i d : BitVec 5) (s : State) : Out :=
  guard { halfNeed n d false [] with field := n == 1 && d != 0 } s fun s =>
    .next (s.writeLane n d.toNat (fun _ => i.signExtend 32) 2)

/-- NOP (R41): no effect beyond its place in a chain; CSQ threads execute it too (R58). -/
def execNop (s : State) : Out := guard (Need.of .all) s fun s => .next (s.retire none 2 false)

/-! The immediate forms (R90, R91). -/

/-- IADDI (R90) -/
def execIaddi (i : BitVec 10) (a d : BitVec 7) (s : State) : Out :=
  laneImm (· + ·) (i.signExtend 32) a d s

/-- ANDI (R90) -/
def execAndi (i : BitVec 10) (a d : BitVec 7) (s : State) : Out :=
  laneImm (· &&& ·) (i.setWidth 32) a d s

/-- ORI (R90) -/
def execOri (i : BitVec 10) (a d : BitVec 7) (s : State) : Out :=
  laneImm (· ||| ·) (i.signExtend 32) a d s

/-- XORI (R90) -/
def execXori (i : BitVec 10) (a d : BitVec 7) (s : State) : Out :=
  laneImm (· ^^^ ·) (i.signExtend 32) a d s

/-- SHLI (R90) -/
def execShli (i : BitVec 5) (a d : BitVec 7) (s : State) : Out :=
  laneImm shlW (i.setWidth 32) a d s

/-- SHRI (R90) -/
def execShri (i : BitVec 5) (a d : BitVec 7) (s : State) : Out :=
  laneImm shrW (i.setWidth 32) a d s

/-- SRAI (R90) -/
def execSrai (i : BitVec 5) (a d : BitVec 7) (s : State) : Out :=
  laneImm sraW (i.setWidth 32) a d s

/-- ICMPLTI (R90) -/
def execIcmplti (i : BitVec 10) (a d : BitVec 7) (s : State) : Out :=
  laneImm icmpltW (i.signExtend 32) a d s

/-- ICMPEQI (R90) -/
def execIcmpeqi (i : BitVec 10) (a d : BitVec 7) (s : State) : Out :=
  laneImm icmpeqW (i.signExtend 32) a d s

/-- IMULI (R90) -/
def execImuli (i : BitVec 10) (a d : BitVec 7) (s : State) : Out :=
  laneImm (· * ·) (i.signExtend 32) a d s

/-- MOVI (R91) -/
def execMovi (i : BitVec 17) (d : BitVec 7) (s : State) : Out :=
  guard (laneNeed 0 d [] false) s fun s =>
    .next (s.writeLane 0 d.toNat (fun _ => i.signExtend 32) 4)

/-- MOVH (R91): the low half is kept -/
def execMovh (i : BitVec 16) (d : BitVec 7) (s : State) : Out :=
  guard (laneNeed 0 d [] true) s fun s =>
    .next (s.writeLane 0 d.toNat (fun l => i ++ (s.me.readV d.toNat l).extractLsb' 0 16) 4)

end Sys2Proof.Machine
end

