-- ==== Sys2Proof/Machine/LoadStore.lean ====
section
/-!
DEFINITION. Loads, stores, timed accesses, atomics, fences and ordered accesses (R134 to R145, R280), and the steps
in which stores perform.
-/
namespace Sys2Proof.Machine

/-! Loads (R134, R135). -/

/-- Registers of an access of `w` bytes. -/
def accessRegs (w : Nat) : Nat := if w ≤ 4 then 1 else w / 4

/-- The value a lane loaded, among the lanes' values. -/
def laneVal (xs : List (Nat × Nat)) (l : Nat) : Nat := ((xs.find? fun x => x.1 == l).map (·.2)).getD 0

/-- Word i of a loaded value, in the active lanes. -/
def loadedLanes (em : Word) (xs : List (Nat × Nat)) (i : Nat) : Lanes :=
  laneResult em fun l => BitVec.ofNat 32 (laneVal xs l / 2 ^ (32 * i))

/-- What a load needs. -/
def loadNeed (w : Nat) (a d : BitVec 7) : Need :=
  { units := .core, field := false, scope := false, reg := decide (120 < d.toNat + accessRegs w),
    reads := srcReg a, writes := regSpan d.toNat (accessRegs w), latches := srcLatch a, wide := srcWide a }

/-- An access that is an acquire at a scope has read its bytes (R144, R169). -/
def State.acquired (s : State) (acq : Option (BitVec 3)) (xs : List (List OdaByte)) : State :=
  match acq with
  | some c => s.acquire s.me c (xs.flatMap odaKeys)
  | none => s

/-- The effect of a load of `w` bytes at `base + off` (R135). An acquire ends its chain. -/
def State.loadLanes (s : State) (w off : Nat) (a d : BitVec 7) (acq : Option (BitVec 3)) : State :=
  let m := s.me
  match collectLanes m.cur.em (fun l => s.laneAccess m w (fun ea bs => s.loadFault m ea bs) l (m.ea a off l)) allLanes with
  | .error e => laneTrap s e
  | .ok xs =>
    let vals := xs.map fun x => (x.1, s.loadValue m x.2.bytes)
    let rs := (List.range (accessRegs w)).map fun i => loadedLanes m.cur.em vals i
    { s.acquired acq (xs.map fun x => x.2.bytes) with
      me := (m.writeSpan m.cur.em d.toNat rs).retire (some (loadedLanes m.cur.em vals 0)) (m.nextPc 4) acq.isSome }

/-- A plain load. -/
def laneLoad (w : Nat) (f : BitVec 5) (a d : BitVec 7) (s : State) : Out :=
  guard (loadNeed w a d) s fun s => .next (s.loadLanes w (f.toNat * w) a d none)

/-- LD.32 (R135). -/
def execLd32 (f : BitVec 5) (a d : BitVec 7) (s : State) : Out := laneLoad 4 f a d s
/-- LD.64 (R135). -/
def execLd64 (f : BitVec 5) (a d : BitVec 7) (s : State) : Out := laneLoad 8 f a d s
/-- LD.128 (R135). -/
def execLd128 (f : BitVec 5) (a d : BitVec 7) (s : State) : Out := laneLoad 16 f a d s
/-- LD.16 (R135). -/
def execLd16 (f : BitVec 5) (a d : BitVec 7) (s : State) : Out := laneLoad 2 f a d s
/-- LD.8 (R135). -/
def execLd8 (f : BitVec 5) (a d : BitVec 7) (s : State) : Out := laneLoad 1 f a d s

/-! Stores (R134, R135). -/

/-- Entries of a group's store queue (R135). -/
def storeDepth : Nat := 16

/-- What a store needs: any lane source up to 4 bytes, v registers above. -/
def storeNeed (w : Nat) (a d : BitVec 7) : Need :=
  { units := .core, field := false, scope := false, reg := decide (4 < w) && decide (120 < d.toNat + accessRegs w),
    reads := srcReg a ++ (if w ≤ 4 then srcReg d else regSpan d.toNat (accessRegs w)), writes := [],
    latches := srcLatch a ++ (if w ≤ 4 then srcLatch d else []),
    wide := srcWide a ++ (if w ≤ 4 then srcWide d else []) }

/-- The bytes a lane stores. -/
def Agent.storeBytes (a : Agent) (w : Nat) (d : BitVec 7) (l : Nat) : List Byte :=
  if w ≤ 4 then leBytes w (a.src d l).toNat
  else (List.range (accessRegs w)).flatMap fun i => leBytes 4 (a.readV (d.toNat + i) l).toNat

/-- The bytes that go to memory: those of a generator window are dropped (R133). -/
def placeBytes (bs : List OdaByte) (xs : List Byte) : List (Nat × Byte) :=
  (bs.zip xs).filterMap fun p => match p.1 with | .loc k => some (k, p.2) | .window _ _ => none

/-- The cells of a store, in lane order: the highest lane's value is written last (R135). -/
def Agent.storeCells (a : Agent) (w : Nat) (d : BitVec 7) (xs : List (Nat × Access)) : List (Nat × Byte) :=
  xs.flatMap fun x => placeBytes x.2.bytes (a.storeBytes w d x.1)

/-- The wider of two scopes (R164: each includes those of lower code). -/
def widerScope : Option (BitVec 3) → Option (BitVec 3) → Option (BitVec 3)
  | some x, some y => some (if x.toNat < y.toNat then y else x)
  | x, y => x.or y

/-- One entry joins the store queue; a fence before it makes it a release at its scope too (R170). -/
def Agent.queueStore (a : Agent) (cells : List (Nat × Byte)) (rel : Option (BitVec 3)) (due : Nat) : Agent :=
  let r := widerScope rel a.relNext
  { a with storeQ := a.storeQ ++ [⟨cells, r.getD 0, r.isSome, due⟩], relNext := none }

/-- The rotation cycle in which a store of a deterministic block performs: at its latency, not before the store ahead of it, and
after the atomics ahead of it (R135, R171, R336). Other stores perform in steps of their own. -/
def State.storeDue (s : State) (w : Nat) (eas : List Nat) : Nat :=
  match s.rotationOf s.me with
  | none => 0
  | some r =>
    max (r.cycle + s.accessLatency s.me w false eas)
      (max (s.me.storeQ.getLast?.elim 0 StoreEntry.due) (s.me.atomics.getLast?.elim 0 fun p => p.due + 1))

/-- The effect of a store of `w` bytes (R135); a full queue holds the group back. -/
def State.storeLanes (s : State) (w off : Nat) (a d : BitVec 7) (rel : Option (BitVec 3)) : State :=
  let m := s.me
  if storeDepth ≤ m.storeQ.length then s
  else
    match collectLanes m.cur.em (fun l => s.laneAccess m w (fun ea bs => s.storeFault m ea bs) l (m.ea a off l)) allLanes with
    | .error e => laneTrap s e
    | .ok xs =>
      let due := s.storeDue w (xs.map fun x => x.2.ea)
      { s with me := (m.queueStore (m.storeCells w d xs) rel due).retire none (m.nextPc 4) true }

/-- A plain store. -/
def laneStore (w : Nat) (f : BitVec 5) (a d : BitVec 7) (s : State) : Out :=
  guard (storeNeed w a d) s fun s => .next (s.storeLanes w (f.toNat * w) a d none)

/-- ST.32 (R135). -/
def execSt32 (f : BitVec 5) (a d : BitVec 7) (s : State) : Out := laneStore 4 f a d s
/-- ST.64 (R135). -/
def execSt64 (f : BitVec 5) (a d : BitVec 7) (s : State) : Out := laneStore 8 f a d s
/-- ST.128 (R135). -/
def execSt128 (f : BitVec 5) (a d : BitVec 7) (s : State) : Out := laneStore 16 f a d s
/-- ST.16 (R135). -/
def execSt16 (f : BitVec 5) (a d : BitVec 7) (s : State) : Out := laneStore 2 f a d s
/-- ST.8 (R135). -/
def execSt8 (f : BitVec 5) (a d : BitVec 7) (s : State) : Out := laneStore 1 f a d s

/-! Stores perform (R135, R144, R150). -/

/-- A store that waits ahead of held arrivals has performed. -/
def stepArrivals (hs : List HeldArrival) : List HeldArrival := hs.map fun h => { h with ahead := h.ahead - 1 }

/-- The group 0 of a unit's block, on the core whose BCORE is 0, for whom the control block lies (R158). -/
def WorkUnit.queueOwner (x : WorkUnit) (a : Agent) : Agent :=
  { a with kind := .core, unit := x.key, ctx := x.key.ctx, place := ⟨x.die, x.cluster, x.cores.headD 0, 0⟩ }

/-- Whether a unit's bulk queue is in service: it leaves when the block has ended and every published entry has completed
(R202). -/
def State.inService (s : State) (x : WorkUnit) : Bool :=
  x.bulk.any fun q => q.serving
    && (!x.ended || q.published || !q.heldRecs.isEmpty || (s.die x.die).bulkQ.any fun b => b.unit == x.key)

/-- The locations of a control block's words that only the engines and the time before service set: RINGBASE, NENT, CONS,
CRBASE, CRN and CRTAIL (R202). -/
def State.queueWords (s : State) (a : Agent) (x : WorkUnit) : List Nat :=
  match x.bulk with
  | some q =>
    if s.inService x then
      [(0, 6), (12, 10), (24, 4)].flatMap fun r =>
        match s.odaBytes (x.queueOwner a) (q.control + r.1) r.2 with | .ok bs => odaKeys bs | .error _ => []
    else []
  | none => []

/-- A program's writes without those that an in-service bulk queue lets have no effect (R202). -/
def State.programCells (s : State) (a : Agent) (cells : List (Nat × Byte)) : List (Nat × Byte) :=
  if s.units.any s.inService then
    let ws := s.units.flatMap (s.queueWords a)
    cells.filter fun c => !ws.contains c.1
  else cells

/-- A release at die scope or wider that covers the PROD word of its block's bulk queue publishes it (R202). -/
def State.notePublish (s : State) (a : Agent) (e : StoreEntry) : State :=
  if e.rel && decide (4 ≤ e.scope.toNat) then
    match s.unit a.unit with
    | some x =>
      match x.bulk with
      | some q =>
        match s.odaBytes (x.queueOwner a) (q.control + 8) 4 with
        | .ok bs =>
          if e.cells.any fun c => (odaKeys bs).contains c.1
          then s.setUnit { x with bulk := some { q with published := true } } else s
        | .error _ => s
      | none => s
    | none => s
  else s

/-- The oldest store of an agent performs. -/
def State.performOne (s : State) (a : Agent) : State :=
  match a.storeQ with
  | [] => s
  | e :: r =>
    let s := (s.setAgent { a with storeQ := r, arrivals := stepArrivals a.arrivals }).writeCells a.unit (s.programCells a e.cells)
    let s := s.notePublish a e
    let keys := e.cells.map (·.1)
    let s := (s.sendWrites keys (supRequest a (s.die a.place.die).time)).holdLines a.holder keys
    let s := if e.rel then s.releaseAt a e.scope keys else s
    if e.rel && e.scope == 6 then s.releaseSys a.holder else s

/-- Whether an agent has writes to peers without a response: a release at `.sys` waits for them (R361). -/
def State.peerWrites (s : State) (w : Who) : Bool := s.requests.any fun r => r.who == some w && r.opc == 2

/-- Whether the oldest store of an agent may perform now: a release at `.sys` waits for its agent's writes to peers
(R169, R361), and a store of a deterministic block for its cycle (R336). -/
def State.mayPerform (s : State) (a : Agent) : Bool :=
  match a.storeQ with
  | [] => false
  | e :: _ =>
    !(e.rel && e.scope == 6 && s.peerWrites a.who)
      && match s.rotationOf a with | none => true | some r => decide (e.due ≤ r.cycle)

/-- The queued stores of the agent whose turn it is perform, oldest first, as far as they may. -/
def drainFrom : Nat → State → State
  | 0, s => s
  | n + 1, s => if s.mayPerform s.me then drainFrom n (s.performOne s.me) else s

def State.drain (s : State) : State := drainFrom s.me.storeQ.length s

/-- An instruction that the store queue must drain for: it does not issue while a store cannot perform (R142). -/
def State.drained (s : State) (k : State → Out) : Out :=
  if s.drain.me.storeQ.isEmpty then k s.drain else .next s.drain

/-- A fence waits for the agent's stores and atomics, and the group issues nothing else meanwhile (R143). -/
def State.fenced (s : State) (k : State → Out) : Out :=
  if s.drain.me.storeQ.isEmpty && s.drain.me.atomics.isEmpty then k s.drain else .next s.drain.holdGroup

/-- STORE_PERFORM (R135): the oldest store of an agent performs. -/
def execStorePerform (w : Who) (s : State) : Out :=
  match s.agent w with
  | none => .refused .notDue
  | some a => if s.mayPerform a then .next (s.performOne a) else .refused .notDue

/-! Timed loads and stores (R137 to R140). -/

/-- What a timed access needs beside its registers. -/
def timedTrap (s : State) : Option Cause :=
  if s.me.env.det then some .timedInDet
  else if !(s.die s.me.place.die).disciplined then some .timeUndisciplined
  else none

/-- LDNB (R138): the sub-group waits for its result, with the window records that stand now (R128). With EM = 0 it waits
all the same, and may be late (DESIGN CHOICE, log entry 60). -/
def execLdnb (f : BitVec 5) (a d : BitVec 7) (s : State) : Out :=
  guard { loadNeed 4 a d with wide := srcWide a ++ gReg f.toNat } s fun s =>
    match timedTrap s with
    | some c => .next (takeTrap s c)
    | none =>
      let m := s.me
      match collectLanes m.cur.em (fun l => s.laneAccess m 4 (fun ea bs => s.loadFault m ea bs) l (m.ea a 0 l)) allLanes with
      | .error e => .next (laneTrap s e)
      | .ok xs =>
        .next { s with me := m.setWait (.ldnb d.toNat (xs.map fun x => (x.1, x.2.ea)) (m.readG f.toNat)
          (s.context m.ctx).windows (s.devReg (0x858 + m.place.die))) }

/-- STVA (R138): the writes go to the core's timed-store table; a full table holds the group back. With EM = 0 it takes
an entry all the same, and may be late (DESIGN CHOICE, log entry 60). -/
def execStva (f : BitVec 5) (a d : BitVec 7) (s : State) : Out :=
  guard { storeNeed 4 a d with wide := srcWide a ++ srcWide d ++ gReg f.toNat } s fun s =>
    match timedTrap s with
    | some c => .next (takeTrap s c)
    | none =>
      let m := s.me
      let k := s.core m.place.die m.place.cluster m.place.core
      if 32 ≤ k.timed.length then .next s
      else
        match collectLanes m.cur.em (fun l => s.laneAccess m 4 (fun ea bs => s.storeFault m ea bs) l (m.ea a 0 l)) allLanes with
        | .error e => .next (laneTrap s e)
        | .ok xs =>
          let t : TimedStore := ⟨m.who, m.unit, m.ctx, m.cur.pc, m.storeCells 4 d xs, m.readG f.toNat, s.devReg (0x858 + m.place.die)⟩
          .next ((s.setCore m.place.die m.place.cluster m.place.core { k with timed := k.timed ++ [t] }).finish true)

/-- Whether an operation of time T that performs now is late (R139): T + G has passed, G being the grace. -/
def State.isLate (s : State) (ctx : Nat) (t now : DWord) : Bool :=
  decide (t.toNat + bitsOf (s.ctxReg ctx 0x003) 0 32 < now.toNat)

/-- Whether lateness faults (LATEPOL, R332). -/
def State.lateFaults (s : State) (ctx : Nat) : Bool := (s.ctxReg ctx 0x000).getLsbD 7

/-- The sticky LATE bit of a context (R139). -/
def State.setLateBit (s : State) (ctx : Nat) : State :=
  { s with cr := Store.set 0 s.cr (ctx * 4096 + 0x004) (s.ctxReg ctx 0x004 ||| 1) }

/-- What a late STVA or CPYT does (R139, R332). `thr` is the die's throttle count at acceptance. -/
def State.reportLate (s : State) (u : UnitKey) (die : Nat) (t thr : DWord) (pc : Word) : State :=
  let now := (s.die die).time
  if s.isLate u.ctx t now then
    if s.lateFaults u.ctx then
      let s := raiseFor s .deadlineMissed u false { FaultInfo.none with detail := t, aux := now } now pc
      { s with pending := s.pending.dropLast ++ (s.pending.getLast?.toList.map fun p =>
          { p with throttled := s.devReg (0x858 + die) != thr }) }
    else s.setLateBit u.ctx
  else s

/-- Whether a timed operation of a die has come due and is in time: it is then the first to perform (R138, R175). -/
def State.inTime (s : State) (die ctx : Nat) (t : DWord) : Bool :=
  let now := (s.die die).time
  decide (t.toNat ≤ now.toNat) && !s.isLate ctx t now

/-- The timed stores of a die that are due and in time: T, core and place in the core's table. -/
def State.storesDue (s : State) (die : Nat) : List (Nat × Nat × Nat) :=
  s.cores.flatMap fun c =>
    if c.1 / 512 = die then
      ((List.range c.2.timed.length).zip c.2.timed).filterMap fun x =>
        if s.inTime die x.2.ctx x.2.time then some (x.2.time.toNat, c.1, x.1) else none
    else []

/-- Whether one timed store goes before another: by T, then by core in the order of the agent keys, then in issue order
(R142, R175). -/
def timedBefore (x y : Nat × Nat × Nat) : Bool :=
  decide (x.1 < y.1) || x.1 == y.1 && (decide (x.2.1 < y.2.1) || x.2.1 == y.2.1 && decide (x.2.2 < y.2.2))

/-- Whether a timed store of the same T, to a byte that this one writes too, goes before it, be they in time or late
(R175). -/
def State.tieBefore (s : State) (t : TimedStore) (me : Nat × Nat × Nat) : Bool :=
  s.cores.any fun c => ((List.range c.2.timed.length).zip c.2.timed).any fun x =>
    timedBefore (x.2.time.toNat, c.1, x.1) me && x.2.time == t.time
      && x.2.cells.any fun p => t.cells.any fun q => q.1 == p.1

/-- TIMED_STORE_PERFORM (R138): a timed store performs at the first slot at which die time has reached its T, those in
time, and those of one T to one byte, in the order of R175. -/
def execTimedStorePerform (core : CoreId) (i : Nat) (s : State) : Out :=
  let k := s.core core.die core.cluster core.core
  match k.timed[i]? with
  | none => .refused .notDue
  | some t =>
    let me := (t.time.toNat, (core.die * 4 + core.cluster) * 128 + core.core, i)
    if (s.die core.die).time.toNat < t.time.toNat
      ∨ (s.inTime core.die t.ctx t.time ∧ (s.storesDue core.die).any fun x => timedBefore x me)
      ∨ s.tieBefore t me then .refused .notDue
    else
      let s := s.setCore core.die core.cluster core.core { k with timed := k.timed.eraseIdx i }
      let s := (s.writeCells t.unit (s.programCells s.me t.cells)).holdLines (.agent t.who) (t.cells.map (·.1))
      .next (s.reportLate t.unit core.die t.time t.throttle t.pc)

/-- CPYTs to a die with T at or before `t` that have not performed are late from here on: a read that should have come
after them has gone ahead (R176; DESIGN CHOICE, log entry 58). -/
def State.missCopies (s : State) (dest : Option Nat) (t : Nat) : State :=
  let miss := fun (c : CopyCmd) =>
    { c with missed := c.missed || (c.time.any fun x => decide (x.toNat ≤ t)) && dest.all (fun d => d == c.dest) }
  let missC := fun (c : Commit) =>
    { c with missed := c.missed || !c.locked && c.timed.any fun x => decide (x.1.toNat ≤ t) && dest.all fun d => d == x.2.2 }
  { s with commits := s.commits.map missC,
           dies := s.dies.map fun d => (d.1, { d.2 with copyQ := d.2.copyQ.map miss, heldT := d.2.heldT.map miss }) }

/-- What an LDNB reads of one of its lanes, with whether the data is poisoned. -/
def State.ldnbLane (s : State) (a : Agent) (windows : Store (BitVec 256)) (ea : Nat) : Nat × Bool :=
  match s.checkOda a ea 4 with
  | .ok bs => (leNat (bs.map (s.loadByteUnder a windows)), (odaKeys bs).any fun k => s.poison.contains (k / 16))
  | .error _ => (0, false)

/-- The agent and the LDNB that has come due (R138). -/
def State.ldnbDue (s : State) (a : Agent) (w : Wait) : Bool :=
  match w with
  | .ldnb _ _ t _ _ => decide (t.toNat ≤ (s.die a.place.die).time.toNat)
  | _ => false

/-- LDNB_PERFORM (R138): the read performs, its result arrives and the chain ends. Poisoned data makes the read fault
(R338). A late one traps after its effect under FAULT (R139, R320). -/
def execLdnbPerform (w : Who) (s : State) : Out :=
  match (s.agent w).map fun a => a.front (s.ldnbDue a) with
  | none => .refused .notDue
  | some a =>
    match a.wait with
    | .ldnb d lanes t windows thr =>
      let now := (s.die a.place.die).time
      if now.toNat < t.toNat then .refused .notDue
      else
        let reads := lanes.map fun x => (x, s.ldnbLane a windows x.2)
        match reads.find? fun x => x.2.2 with
        | some x =>
          let i := { FaultInfo.none with lane := some x.1.1, addr := BitVec.ofNat 64 x.1.2 }
          .next { s.setAgent { (a.setWait .none).rollback with run := .faulted } with
            pending := s.pending ++ [pendingOf a now .uncorrectable .precise i a.cur.headPc] }
        | none =>
          let s := s.missCopies (some a.place.die) t.toNat
          let r := loadedLanes a.cur.em (reads.map fun x => (x.1.1, x.2.1)) 0
          let b := ((a.setWait .none).writeV d a.cur.em r).retire (some r) (a.nextPc 4) true
          if s.isLate a.ctx t now then
            if s.lateFaults a.ctx then
              let p := pendingOf a now .deadlineMissed .postEffect { FaultInfo.none with detail := t, aux := now } (a.nextPc 4)
              let s := s.setAgent { b with run := .faulted }
              .next { s with pending := s.pending ++ [{ p with throttled := s.devReg (0x858 + a.place.die) != thr }] }
            else .next ((s.setAgent b).setLateBit a.ctx)
          else .next (s.setAgent b)
    | _ => .refused .notDue

/-! Atomics (R141, R142, R280). -/

/-- The new word (Table 4). -/
def AtomicOp.new (op : AtomicOp) (o b c : Word) : Word :=
  match op with
  | .add => o + b
  | .max => imaxW o b
  | .xch => b
  | .cas => if o = b then c else o
  | .or => o ||| b
  | .and => o &&& b
  | .fadd => faddW o b
  | .min => iminW o b

/-- The new 64-bit word of the group-wide form (R280). -/
def AtomicOp.new64 (op : AtomicOp) (o b c : DWord) : DWord :=
  match op with
  | .add => o + b
  | .max => if o.slt b then b else o
  | .xch => b
  | .cas => if o = b then c else o
  | .or => o ||| b
  | .and => o &&& b
  | .fadd => o
  | .min => if o.slt b then o else b

/-- What the lane form of an atomic needs. -/
def atomicNeed (op : AtomicOp) (c : BitVec 3) (f : BitVec 5) (a d : BitVec 7) : Need :=
  { units := .core, field := false, scope := c == 7, reg := badDest d || (op == .cas && f == 31),
    reads := srcReg a ++ (if op = .cas then regSpan f.toNat 2 else [f.toNat]), writes := srcReg d, latches := srcLatch a,
    wide := srcWide a }

/-- The contribution that an atomic of a deterministic unit makes to a reduction region of kind `r` (R182, R200). -/
def contribOf (op : AtomicOp) (r : Nat) : Option ContribOp :=
  match op, r with
  | .add, 1 => some .addI32
  | .fadd, 2 => some .addF32
  | _, _ => none

/-- The trap of an atomic's access after its address checks: windows never (R133), other cores' memory and reduction
regions under R181 and R182, poisoned data (R338). -/
def State.atomicFault (s : State) (a : Agent) (op : AtomicOp) (ea : Nat) (bs : List OdaByte) : Option Cause :=
  match odaWindow bs with
  | some _ => some .genStore
  | none =>
    if s.detClusterFault a ea then some .detViolation
    else if (odaKeys bs).any fun k => let r := s.regionKind a.unit a.env.det a.place.die k; r != 0 && (contribOf op r).isNone
    then some .detViolation
    else if (odaKeys bs).any fun k => s.poison.contains (k / 16) then some .uncorrectable
    else none

/-- A contribution updates the unit's snapshot and is kept for the milestone (R182). One to the unit's own local memory
or block window, of which it has no snapshot, takes effect there at once (R154, R181). -/
def State.contribute (s : State) (u : UnitKey) (c : Contrib) (cells : List (Nat × Byte)) : State :=
  match s.unit u with
  | some x =>
    if c.keys.all fun k => !snapKey k && !outwardKey k then s.writeCells u cells
    else
    match x.snap with
    | some sn => s.setUnit { x with snap := some { sn with mem := Memory.writeAll sn.mem cells, contribs := sn.contribs ++ [c] } }
    | none => s
  | none => s

/-- One lane's read and write at a word for an agent (R142): the old word and the state after. -/
def State.atomicWord (s : State) (a : Agent) (op : AtomicOp) (key : Nat) (b c : Word) : State × Word :=
  let u := a.unit
  let o := BitVec.ofNat 32 (s.readLE u key 4)
  let cells := cellsAt key (leBytes 4 (op.new o b c).toNat)
  match contribOf op (s.regionKind u a.env.det a.place.die key) with
  | some co => ({ s with nextSeq := s.nextSeq + 1 }.contribute u ⟨s.nextSeq, (List.range 4).map fun i => key + i, co, b⟩ cells, o)
  | none => (s.writeCells u (s.programCells a cells), o)

/-- The lanes' atomics in ascending order, with the old words. -/
def State.atomicLanes (s : State) (a : Agent) (op : AtomicOp) : List (Nat × Nat × Word × Word) → State × List (Nat × Nat)
  | [] => (s, [])
  | (l, key, b, c) :: r =>
    let (s, o) := s.atomicWord a op key b c
    let (s, os) := State.atomicLanes s a op r
    (s, (l, o.toNat) :: os)

/-- What the lanes of an atomic do: each one's word and operands. -/
def Agent.atomicWork (a : Agent) (f : Nat) (xs : List (Nat × Access)) : List (Nat × Nat × Word × Word) :=
  xs.map fun x => (x.1, (odaKeys x.2.bytes).headD 0, a.readV f x.1, a.readV (f + 1) x.1)

/-- The locations of an atomic's words. -/
def atomicKeys (work : List (Nat × Nat × Word × Word)) : List Nat :=
  work.flatMap fun x => (List.range 4).map fun i => x.2.1 + i

/-- An atomic of an agent reaches its words (R142): a release at its scope for its write (R171), which may publish a bulk queue
(R202). The state after, and the old words. -/
def State.performAtomic (s : State) (a : Agent) (op : AtomicOp) (c : BitVec 3) (work : List (Nat × Nat × Word × Word)) :
    State × List (Nat × Nat) :=
  let keys := atomicKeys work
  let write := fun (t : State) => State.notePublish (t.atomicLanes a op work).1 a (StoreEntry.mk (keys.map fun k => (k, 0)) c true 0)
  (s.atomicOrder a c keys write, (s.atomicLanes a op work).2)

/-- An atomic of a deterministic block's group has issued: it reaches its words at its latency, after the atomics ahead of it
(R136, R336, R337). -/
def State.queueAtomic (s : State) (r : Rotation) (op : AtomicOp) (c : BitVec 3) (d : Nat) (eas : List Nat)
    (work : List (Nat × Nat × Word × Word)) : State :=
  let m := s.me
  let due := max (r.cycle + s.accessLatency m 4 true eas) (m.atomics.getLast?.elim 0 PendingAtomic.due)
  { s with me := ({ m with atomics := m.atomics ++ [PendingAtomic.mk due op c work d m.cur.em] }).retire none (m.nextPc 4) true }

/-- The oldest atomic of a group that has issued reaches its words: the old words stand in the lane register, and arrivals
behind it come nearer (R142, R150, R336). -/
def State.performPending (s : State) (a : Agent) : State :=
  match a.atomics with
  | [] => s
  | p :: r =>
    let t := s.performAtomic a p.op p.scope p.lanes
    let v := Lanes.merge p.mask (loadedLanes p.mask t.2 0) (Store.get Lanes.zero a.v p.reg)
    t.1.setAgent { a with atomics := r, v := Store.set Lanes.zero a.v p.reg v, arrivals := stepArrivals a.arrivals }

/-- The lane form of an atomic (R142). -/
def State.atomicCore (s : State) (op : AtomicOp) (c : BitVec 3) (f : BitVec 5) (a d : BitVec 7) : Out :=
  let m := s.me
  match collectLanes m.cur.em (fun l => s.laneAccess m 4 (fun ea bs => s.atomicFault m op ea bs) l (m.ea a 0 l)) allLanes with
  | .error e => .next (laneTrap s e)
  | .ok [] => .next { s with me := (m.writeV d.toNat m.cur.em Lanes.zero).retire (some Lanes.zero) (m.nextPc 4) true }
  | .ok xs => s.drained fun s =>
    let work := m.atomicWork f.toNat xs
    match s.rotationOf s.me with
    | some r => .next (s.queueAtomic r op c d.toNat (xs.map fun x => x.2.ea) work)
    | none =>
      let t := s.performAtomic s.me op c work
      let r := loadedLanes m.cur.em t.2 0
      .next { t.1 with me := (t.1.me.writeV d.toNat m.cur.em r).retire (some r) (t.1.me.nextPc 4) true }

/-- A supervisor thread's address of `w` bytes (R278, R280): ALIGN, then the outcome of the walk (R310), then the
route to a peer (R359), then, for an access that reads, poisoned data (R338). An access whose miss waits for a walk slot
has no location yet. -/
def State.supAccess (s : State) (va : BitVec 56) (w : Nat) (write reads : Bool) : State × Except Cause (Option Nat) :=
  if va.toNat % w ≠ 0 then (s, .error .align)
  else
    let (s, o) := s.myByte va write (write && reads)
    match (outcomeTrap o).or (s.peerFault o va) with
    | some c => (s, .error c)
    | none => (s, if reads && (o.place va).any fun k => s.poison.contains (k / 16) then .error .uncorrectable else .ok (o.place va))

/-- A supervisor thread asks a peer and waits for the response (R316). -/
def State.askPeer (s : State) (opc key arg : Nat) (d : BitVec 7) (off : Nat) (ends : Bool) : State :=
  { s.sendUnit opc (if opc = 3 then key else key / 16 * 16) arg [] (supRequest s.me s.now) with
    me := s.me.setWait (.peer d.toNat off s.nextTag ends) }

/-- A trap of a supervisor's access, with its address. -/
def supTrap (s : State) (c : Cause) (va : BitVec 56) : State :=
  takeTrapWith s c { FaultInfo.none with addr := va.setWidth 64 }

/-- The group-wide form of an atomic (R280). -/
def State.atomicSup (s : State) (op : AtomicOp) (c : BitVec 3) (f : BitVec 5) (a d : BitVec 7) : Out :=
  let va := (s.me.g7 a).extractLsb' 0 56
  match s.supAccess va 8 true true with
  | (s, .error e) => .next (supTrap s e va)
  | (s, .ok none) => .next s
  | (s, .ok (some key)) => s.drained fun s =>
    if c = 6 ∧ s.peerWrites s.me.who then .next s
    else if isPeerKey key then
      .next (s.askPeer 3 key ((s.me.readG f.toNat).toNat + (s.me.readG (f.toNat + 1)).toNat * 2 ^ 64) d 0 true)
    else
      let o := BitVec.ofNat 64 (s.readLE s.me.unit key 8)
      let n := op.new64 o (s.me.readG f.toNat) (s.me.readG (f.toNat + 1))
      let write := fun (s : State) => s.writeCells s.me.unit (cellsAt key (leBytes 8 n.toNat))
      .next ((s.atomicOrder s.me c ((List.range 8).map fun i => key + i) write).finishG d o true)

/-- An atomic: the lane form on a core, the group-wide form on a supervisor thread, which has no ATFADD (R280). -/
def atomic (op : AtomicOp) (c : BitVec 3) (f : BitVec 5) (a d : BitVec 7) (s : State) : Out :=
  if s.me.kind = .sup ∧ op ≠ .fadd then
    guard { gNeed .coreSup [a, d] with scope := c == 7, reg := badG a || badG d || (op == .cas && f == 31) } s fun s =>
      s.atomicSup op c f a d
  else guard (atomicNeed op c f a d) s fun s => s.atomicCore op c f a d

/-- ATADD (R142). -/
def execAtadd (c : BitVec 3) (f : BitVec 5) (a d : BitVec 7) (s : State) : Out := atomic .add c f a d s
/-- ATMAX (R142). -/
def execAtmax (c : BitVec 3) (f : BitVec 5) (a d : BitVec 7) (s : State) : Out := atomic .max c f a d s
/-- ATXCH (R142). -/
def execAtxch (c : BitVec 3) (f : BitVec 5) (a d : BitVec 7) (s : State) : Out := atomic .xch c f a d s
/-- ATCAS (R142). -/
def execAtcas (c : BitVec 3) (f : BitVec 5) (a d : BitVec 7) (s : State) : Out := atomic .cas c f a d s
/-- ATOR (R142). -/
def execAtor (c : BitVec 3) (f : BitVec 5) (a d : BitVec 7) (s : State) : Out := atomic .or c f a d s
/-- ATAND (R142). -/
def execAtand (c : BitVec 3) (f : BitVec 5) (a d : BitVec 7) (s : State) : Out := atomic .and c f a d s
/-- ATFADD (R33, R142). -/
def execAtfadd (c : BitVec 3) (f : BitVec 5) (a d : BitVec 7) (s : State) : Out := atomic .fadd c f a d s
/-- ATMIN (R142). -/
def execAtmin (c : BitVec 3) (f : BitVec 5) (a d : BitVec 7) (s : State) : Out := atomic .min c f a d s

/-! Fences (R143, R170, R172). -/

/-- Whether the agent has engine commands that have not yet performed. -/
def State.hasCommands (s : State) : Bool :=
  let d := s.die s.me.place.die
  let w := s.me.who
  (d.copyQ ++ d.heldT).any (fun c => c.who == w) || d.dceQ.any (fun c => c.who == w) || d.updQ.any (fun c => c.who == w)
    || s.commits.any fun c => c.done.who == w

/-- FENCE (R143): kinds `rel` and `ar` wait for the earlier stores and atomics, not for those of the timed-store table, which
stand outside the order (R138, R167; DESIGN CHOICE, log entry 76); they make the next store a release at this scope too
(R170). `acq` and `ar` make acquires of the earlier loads. At `.lane` it orders nothing. -/
def execFence (c : BitVec 3) (f : BitVec 5) (s : State) : Out :=
  guard { Need.of .coreSup with field := !(f == 1 || f == 2 || f == 3), scope := c == 7 } s fun s =>
    let s := if c = 0 ∨ f = 2 then s else s.fenceAcquire s.me c
    if c = 0 ∨ f = 1 then .next (s.finish true)
    else s.fenced fun s =>
      if c = 6 ∧ s.peerWrites s.me.who then .next s.holdGroup
      else
        let s := if c = 6 then s.releaseSys s.me.holder else s
        .next ({ s with me := { s.me with relNext := widerScope s.me.relNext (some c) } }.finish true)

/-- FENCE.E (R143, R172): it also waits for the agent's engine commands, whose writes are then behind it. -/
def execFenceE (c : BitVec 3) (f : BitVec 5) (s : State) : Out :=
  guard { Need.of .coreSup with field := !(f == 2 || f == 3), scope := c == 7 } s fun s =>
    if c = 0 then .next (s.finish true)
    else s.fenced fun s =>
      if s.hasCommands || (c == 6 && s.peerWrites s.me.who) then .next s.holdGroup
      else
        let s := s.passHold (fun h => match h with | .command w _ => w == s.me.who | _ => false) s.me.holder
        .next ((if c = 6 then s.releaseSys s.me.holder else s).finish true)

/-- LDAQ (R144). -/
def execLdaq (c : BitVec 3) (f : BitVec 5) (a d : BitVec 7) (s : State) : Out :=
  guard { loadNeed 4 a d with scope := c == 7 } s fun s => .next (s.loadLanes 4 (f.toNat * 4) a d (some c))

/-- STRL (R144). -/
def execStrl (c : BitVec 3) (f : BitVec 5) (a d : BitVec 7) (s : State) : Out :=
  guard { storeNeed 4 a d with scope := c == 7 } s fun s => .next (s.storeLanes 4 (f.toNat * 4) a d (some c))

/-! Group-wide loads and stores (R145). -/

/-- The effective address of a group-wide access on a core or a CSQ thread. -/
def Agent.gea (a : Agent) (x : BitVec 7) (f : BitVec 5) : Nat := ((a.g7 x).extractLsb' 0 32 + BitVec.ofNat 32 (f.toNat * 8)).toNat

/-- The virtual address of a supervisor thread's access (R278). -/
def Agent.gva (a : Agent) (x : BitVec 7) (f : BitVec 5) : BitVec 56 := (a.g7 x).extractLsb' 0 56 + BitVec.ofNat 56 (f.toNat * 8)

/-- A trap of a group-wide access: no lane reports, the address is recorded. -/
def addrTrap (s : State) (c : Cause) (ea : Nat) : State := takeTrapWith s c { FaultInfo.none with addr := BitVec.ofNat 64 ea }

/-- GLD and GLDAQ. -/
def State.groupLoad (s : State) (f : BitVec 5) (a d : BitVec 7) (acq : Option (BitVec 3)) : State :=
  if s.me.kind = .sup then
    let va := s.me.gva a f
    match s.supAccess va 8 false true with
    | (s, .error e) => supTrap s e va
    | (s, .ok none) => s
    | (s, .ok (some key)) =>
      if isPeerKey key then s.askPeer 1 key 0 d (key % 16) acq.isSome
      else
        let bs := (List.range 8).map fun i => OdaByte.loc (key + i)
        (s.acquired acq [bs]).finishG d (BitVec.ofNat 64 (s.loadValue s.me bs)) acq.isSome
  else
    let ea := s.me.gea a f
    match s.laneAccess s.me 8 (fun ea bs => s.loadFault s.me ea bs) 0 ea with
    | .error e => addrTrap s e.cause ea
    | .ok x => (s.acquired acq [x.bytes]).finishG d (BitVec.ofNat 64 (s.loadValue s.me x.bytes)) acq.isSome

/-- GST and GSTRL; a full queue holds the agent back. -/
def State.groupStore (s : State) (f : BitVec 5) (a d : BitVec 7) (rel : Option (BitVec 3)) : State :=
  if storeDepth ≤ s.me.storeQ.length then s
  else
    let data := leBytes 8 (s.me.g7 d).toNat
    if s.me.kind = .sup then
      let va := s.me.gva a f
      match s.supAccess va 8 true false with
      | (s, .error e) => supTrap s e va
      | (s, .ok none) => s
      | (s, .ok (some key)) => { s with me := (s.me.queueStore (cellsAt key data) rel 0).retire none (s.me.nextPc 4) true }
    else
      let ea := s.me.gea a f
      match s.laneAccess s.me 8 (fun ea bs => s.storeFault s.me ea bs) 0 ea with
      | .error e => addrTrap s e.cause ea
      | .ok x => { s with me := (s.me.queueStore (placeBytes x.bytes data) rel (s.storeDue 8 [ea])).retire none (s.me.nextPc 4) true }

/-- GLD (R145). -/
def execGld (f : BitVec 5) (a d : BitVec 7) (s : State) : Out :=
  guard (gNeed .all [a, d]) s fun s => .next (s.groupLoad f a d none)

/-- GST (R145). -/
def execGst (f : BitVec 5) (a d : BitVec 7) (s : State) : Out :=
  guard (gNeed .all [a, d]) s fun s => .next (s.groupStore f a d none)

/-- GLDAQ (R145). -/
def execGldaq (c : BitVec 3) (f : BitVec 5) (a d : BitVec 7) (s : State) : Out :=
  guard { gNeed .all [a, d] with scope := c == 7 } s fun s => .next (s.groupLoad f a d (some c))

/-- GSTRL (R145). -/
def execGstrl (c : BitVec 3) (f : BitVec 5) (a d : BitVec 7) (s : State) : Out :=
  guard { gNeed .all [a, d] with scope := c == 7 } s fun s => .next (s.groupStore f a d (some c))

end Sys2Proof.Machine
end

