-- ==== Sys2Proof/Machine/Barriers.lean ====
section
/-!
DEFINITION. The barrier instructions and their events (R147 to R151).
-/
namespace Sys2Proof.Machine

/-- The pool of the cluster of the agent whose turn it is. -/
def State.poolKey (s : State) (i : Nat) : Nat := barrierKey s.me.place.die s.me.place.cluster i

/-- A slot of a handle table. -/
def State.slotOf (s : State) (w : Who) (slot : Nat) : HandleSlot := Store.get HandleSlot.fresh (s.table w) slot

/-- A slot of a handle table is set. -/
def State.setSlot (s : State) (w : Who) (slot : Nat) (x : HandleSlot) : State :=
  s.setTable w (Store.set HandleSlot.fresh (s.table w) slot x)

/-- The lowest slot that is free. -/
def State.freeSlot (s : State) (w : Who) : Option Nat :=
  (List.range 64).find? fun i => (s.slotOf w i).bound.isNone

/-- The lowest-indexed free entry of the agent's pool. -/
def State.freeEntry (s : State) : Option Nat := (List.range 1024).find? fun i => !(s.barrier (s.poolKey i)).live

/-- A barrier entry is bound to a slot: the state and the handle. -/
def State.bind (s : State) (w : Who) (slot bar : Nat) : State × Half :=
  (s.setSlot w slot { s.slotOf w slot with bound := some bar }, handleOf slot (s.slotOf w slot).gen)

/-- A slot is emptied, its generation advances, and its reference is released (R149). -/
def State.unbind (s : State) (w : Who) (slot : Nat) : State :=
  match (s.slotOf w slot).bound with
  | none => s
  | some b =>
    (s.setSlot w slot ⟨nextGen (s.slotOf w slot).gen, none⟩).setBarrier b (s.barrier b).release

/-- Every slot of a unit's table is released as if by BFREE (R149); the table is then that of a unit that starts. -/
def State.releaseTable (s : State) (w : Who) : State :=
  let s := (List.range 64).foldl (fun s i => s.unbind w i) s
  { s with tables := s.tables.filter fun t => t.1 != w }

/-- A failing BALLOC or BREF answers with bit 63 and a reason. -/
def refusal (reason : Nat) : DWord := BitVec.ofNat 64 (2 ^ 63 + reason)

/-- The slot that BALLOC binds, if it is free (R148). -/
def State.ballocSlot (s : State) (x : DWord) : Option Nat :=
  let w := s.me.tableOwner
  if x.getLsbD 6 then s.freeSlot w
  else if (s.slotOf w (bitsOf x 0 6)).bound.isNone then some (bitsOf x 0 6) else none

/-- BALLOC (R148): arguments, then the slot, then the pool. -/
def execBalloc (b a d : BitVec 7) (s : State) : Out :=
  guard (gNeed .all [d, a, b]) s fun s =>
    let x := s.me.g7 a
    let ea := bitsOf x 16 16
    let eb := (s.me.g7 b).toNat
    if ea = 0 ∨ bitsOf x 7 9 ≠ 0 ∨ bitsOf x 32 32 ≠ 0 ∨ 2 ^ 40 ≤ eb then .next (s.finishG d (refusal 3) true)
    else
      match s.ballocSlot x with
      | none => .next (s.finishG d (refusal 2) true)
      | some slot =>
        match s.freeEntry with
        | none => .next (s.finishG d (refusal 1) true)
        | some i =>
          let k := s.poolKey i
          let gen := (s.barrier k).gen
          let t := (s.setBarrier k ⟨true, false, ea, ea, eb, eb, 0, 0, 0, 1, gen⟩).bind s.me.tableOwner slot k
          .next (t.1.finishG d (BitVec.ofNat 64 (t.2.toNat + (i + gen * 2 ^ 10) * 2 ^ 32)) true)

/-- A trap of a barrier instruction: the handle is the detail of an overcount (R323). -/
def overcount (s : State) (h : Half) : State :=
  takeTrapWith s .barrierOvercount { FaultInfo.none with detail := h.setWidth 64 }

/-- The handle in a g register. -/
def Agent.handleArg (a : Agent) (x : BitVec 7) : Half := (a.g7 x).extractLsb' 0 16

/-- An instruction that names a handle: BARRIER_HANDLE where it is not live (R147). -/
def withHandle (s : State) (h : Half) (k : Nat → Out) : Out :=
  match s.handle h with
  | none => .next (takeTrap s .barrierHandle)
  | some b => k b

/-- BFREE (R149). -/
def execBfree (a : BitVec 7) (s : State) : Out :=
  guard (gNeed .all [a]) s fun s =>
    withHandle s (s.me.handleArg a) fun _ =>
      .next ((s.unbind s.me.tableOwner ((s.me.handleArg a).extractLsb' 0 11).toNat).finish true)

/-- BREF (R149): the entry of a cluster barrier id is bound into a slot. A dead id is tested before a taken slot (DESIGN
CHOICE, log entry 61). -/
def execBref (b a d : BitVec 7) (s : State) : Out :=
  guard (gNeed .all [d, a, b]) s fun s =>
    let id := s.me.g7 a
    let k := s.poolKey (bitsOf id 0 10)
    let x := s.barrier k
    let slot := bitsOf (s.me.g7 b) 0 6
    let w := s.me.tableOwner
    if !x.live || x.gen != bitsOf id 10 6 then .next (takeTrap s .barrierHandle)
    else if (s.slotOf w slot).bound.isSome then .next (s.finishG d (refusal 2) true)
    else
      let t := (s.setBarrier k x.retain).bind w slot k
      .next (t.1.finishG d (t.2.setWidth 64) true)

/-- BEXP (R150). -/
def execBexp (b a : BitVec 7) (s : State) : Out :=
  guard (gNeed .all [a, b]) s fun s =>
    withHandle s (s.me.handleArg a) fun k =>
      let x := s.barrier k
      let n := (s.me.g7 b).toNat
      if 2 ^ 40 ≤ x.expected + n then .next (overcount s (s.me.handleArg a))
      else .next ((s.setBarrier k { x with expected := x.expected + n }.settle).finish true)

/-- Arrivals still held for a barrier entry (R150). -/
def State.heldArrivals (s : State) (k gen : Nat) : Nat :=
  (s.allAgents.flatMap fun a => (a.arrivals.filter fun h => h.bar == k && h.gen == gen).map fun h => h.count).sum

/-- BARV (R150): the arrival is made at once where no earlier store is queued, else it is held behind them. A deterministic
block's is held until the end of its rotation cycle, so that the cycle's BEXPs go before it (R150, R199). -/
def execBarv (b a d : BitVec 7) (s : State) : Out :=
  guard (gNeed .all [d, a, b]) s fun s =>
    withHandle s (s.me.handleArg a) fun k =>
      let x := s.barrier k
      let n := (s.me.g7 b).toNat
      if n = 0 ∨ 2 ^ 16 ≤ n ∨ x.pending < n + s.heldArrivals k x.gen then .next (overcount s (s.me.handleArg a))
      else
        let q := s.me.storeQ.length + s.me.atomics.length
        let t :=
          if q = 0 ∧ !s.rotates s.me then (s.handTo s.me k).arrive k n
          else { s with me := { s.me with arrivals := s.me.arrivals ++ [⟨k, x.gen, n, q⟩] } }
        .next (t.finishG d (bit64 x.phase) true)

/-- A held arrival of an agent takes effect; where its entry has been freed meanwhile, it has none (DESIGN CHOICE, log entry
77). -/
def State.makeArrival (s : State) (a : Agent) (h : HeldArrival) : State :=
  let s := s.setAgent { a with arrivals := a.arrivals.erase h }
  if (s.barrier h.bar).gen = h.gen then (s.handTo a h.bar).arrive h.bar h.count else s

/-- BARV_ARRIVAL (R150): the oldest held arrival whose stores have performed takes effect. Those of a deterministic block take
effect in its rotation (R199). -/
def execBarvArrival (w : Who) (s : State) : Out :=
  match s.agent w with
  | none => .refused .notDue
  | some a =>
    match a.arrivals.find? fun h => h.ahead == 0 with
    | none => .refused .notDue
    | some h => if s.rotates a then .refused .notDue else .next (s.makeArrival a h)

/-- g[d] := x for an agent that has waited; its chain ends (R151). -/
def Agent.wake (a : Agent) (d : Nat) (x : DWord) : Agent :=
  ((a.setWait .none).writeG d x).retire none (a.nextPc 4) true

/-- BWAIT (R151). -/
def execBwait (b a d : BitVec 7) (s : State) : Out :=
  guard (gNeed .all [d, a, b]) s fun s =>
    withHandle s (s.me.handleArg a) fun k =>
      let p := (s.me.g7 b).getLsbD 0
      if (s.barrier k).phase != p then .next ((s.takeFrom s.me k).finishG d (s.barrier k).last true)
      else .next { s with me := s.me.setWait (.bwait d.toNat k p none) }

/-- What a timed-out BWAITT writes (R151). -/
def timeoutWord (x : Barrier) : DWord := 0x8000_0000_0000_0000 ||| statusWord x.cur

/-- BWAITT (R151): the conditions of R140 first, then the handle. -/
def execBwaitt (b a d : BitVec 7) (s : State) : Out :=
  guard (gNeed .all [d, a, b]) s fun s =>
    match timedTrap s with
    | some c => .next (takeTrap s c)
    | none =>
      withHandle s (s.me.handleArg a) fun k =>
        let p := (s.me.g7 b).getLsbD 63
        let t : DWord := (s.me.g7 b) &&& 0x7FFF_FFFF_FFFF_FFFF
        if (s.barrier k).phase != p then .next ((s.takeFrom s.me k).finishG d (s.barrier k).last true)
        else if t.toNat ≤ s.now.toNat then .next (s.finishG d (timeoutWord (s.barrier k)) true)
        else .next { s with me := s.me.setWait (.bwait d.toNat k p (some t)) }

/-- BTEST (R151); in deterministic mode it faults (R197). -/
def execBtest (a d : BitVec 7) (s : State) : Out :=
  guard (gNeed .all [d, a]) s fun s =>
    if s.me.env.det then .next (takeTrap s .detViolation)
    else
      withHandle s (s.me.handleArg a) fun k =>
        let x := s.barrier k
        .next ((s.takeFrom s.me k).finishG d (BitVec.ofNat 64 ((if x.phase then 1 else 0) + x.pending * 2 ^ 16
          + min (x.expected - x.counted) (2 ^ 32 - 1) * 2 ^ 32)) true)

/-- Whether a wait at a barrier is over: the phase differs from the parity waited for (R151). -/
def State.flipped (s : State) (w : Wait) : Bool :=
  match w with
  | .bwait _ k p _ => (s.barrier k).phase != p
  | _ => false

/-- Whether a wait at a barrier has passed its deadline first (R151); die time equal to the deadline has (DESIGN CHOICE, log
entry 78). -/
def State.timedOut (s : State) (die : Nat) (w : Wait) : Bool :=
  match w with
  | .bwait _ k p (some t) => (s.barrier k).phase == p && decide (t.toNat ≤ (s.die die).time.toNat)
  | _ => false

/-- BWAIT_RETURN (R151): the phase differs from the parity waited for. -/
def execBwaitReturn (w : Who) (s : State) : Out :=
  match s.waiting w s.flipped with
  | none => .refused .notDue
  | some a =>
    match a.wait with
    | .bwait d k p _ =>
      if (s.barrier k).phase != p
      then .next ((s.takeFrom a k).setAgent (s.oweWide (a.wake d (s.barrier k).last) d 4)) else .refused .notDue
    | _ => .refused .notDue

/-- BWAITT_TIMEOUT (R151): the deadline has passed first. -/
def execBwaittTimeout (w : Who) (s : State) : Out :=
  match (s.agent w).map fun a => a.front (s.timedOut a.place.die) with
  | none => .refused .notDue
  | some a =>
    match a.wait with
    | .bwait d k p (some t) =>
      if (s.barrier k).phase == p && decide (t.toNat ≤ (s.die a.place.die).time.toNat)
      then .next (s.setAgent (a.wake d (timeoutWord (s.barrier k)))) else .refused .notDue
    | _ => .refused .notDue

end Sys2Proof.Machine
end

