-- ==== Sys2Proof/Machine/GroupWide.lean ====
section
/-!
DEFINITION. The group-wide instructions of majors 0x40 to 0x47 but XLT, and SRD (R60, R92 to R95).
-/
namespace Sys2Proof.Machine

def gshlW (a b : DWord) : DWord := if b.toNat < 64 then a <<< b.toNat else 0
def gshrW (a b : DWord) : DWord := if b.toNat < 64 then a >>> b.toNat else 0
def gsraW (a b : DWord) : DWord := a.sshiftRight (min b.toNat 63)
def gminW (a b : DWord) : DWord := if a.slt b then a else b
def gmaxW (a b : DWord) : DWord := if a.slt b then b else a

/-- Free entries of a core's split table (R100), or of a deterministic group's own four (R95). -/
def State.splitFree (s : State) : Nat :=
  if s.me.env.det then 4 - s.me.splits.length
  else
    64 - ((s.allAgents.filter fun a => a.place.die == s.me.place.die && a.place.cluster == s.me.place.cluster
      && a.place.core == s.me.place.core && a.kind == .core).map fun a => a.splits.length).sum

/-- Whether a selector is allocated (R60, R95). -/
def selectorOk (sel : Nat) : Bool := decide (sel ≤ 21) || (decide (32 ≤ sel) && decide (sel ≤ 35))

/-- Die time as a group reads it: its successive reads never decrease, also where it has been restored on a die whose
time lies behind (R15; DESIGN CHOICE, log entry 57). -/
def State.dieTime (s : State) : DWord := if s.now.toNat < s.me.timeFloor.toNat then s.me.timeFloor else s.now

/-- RETIRED as an instruction reads it: with those of its own chain before it, which count if the read takes effect (R53, R60; DONE
of R337; DEDUCED, log entry 87). -/
def Agent.retiredNow (a : Agent) : DWord := a.retired + BitVec.ofNat 64 a.cur.pos

/-- The value of a special register (R60, R95); LANE reads 0 here. Where a group has several sub-groups, SERIALFREE is
that of the one that issues; on a CSQ thread, SPLITFREE is that of core 0 of its cluster, SERIALFREE is 16 and BCORES and
BCORE are 0 (DESIGN CHOICE, log entry 62). -/
def State.special (s : State) (sel : Nat) : DWord :=
  let a := s.me
  let e := a.env
  match sel with
  | 0 => 0
  | 1 => BitVec.ofNat 64 a.index
  | 2 => BitVec.ofNat 64 a.unit.index
  | 3 => a.unit.launch.setWidth 64
  | 4 => BitVec.ofNat 64 e.shown.core
  | 5 => BitVec.ofNat 64 e.shown.cluster
  | 6 => BitVec.ofNat 64 e.shown.die
  | 7 => BitVec.ofNat 64 e.nGroups
  | 8 => BitVec.ofNat 64 e.nUnits
  | 9 => if e.det then a.retiredNow else a.cycle
  | 10 => a.retiredNow
  | 11 => if e.det then e.tstart else s.dieTime
  | 12 => e.seed
  | 13 => BitVec.ofNat 64 a.quota
  | 14 => e.wver.setWidth 64
  | 15 => e.ticket.setWidth 64
  | 16 => BitVec.ofNat 64 s.splitFree
  | 17 => BitVec.ofNat 64 (16 - a.cur.stack.length)
  | 18 => BitVec.ofNat 64 e.bcores
  | 19 => BitVec.ofNat 64 a.bcore
  | 20 => BitVec.ofNat 64 e.cls
  | 21 => bit64 e.det ||| (bit64 e.coop <<< 1) ||| (bit64 e.redeem <<< 2)
  | n => a.readScratch (n - 32)

/-- GADD (R93) -/
def execGadd (b a d : BitVec 7) (s : State) : Out :=
  group2 (· + ·) b a d s

/-- GSUB (R93) -/
def execGsub (b a d : BitVec 7) (s : State) : Out :=
  group2 (· - ·) b a d s

/-- GMUL (R93) -/
def execGmul (b a d : BitVec 7) (s : State) : Out :=
  group2 (· * ·) b a d s

/-- GMAD (R93): g[D] is the third source -/
def execGmad (b a d : BitVec 7) (s : State) : Out :=
  guard (gNeed .all [d, a, b]) s fun s =>
    .next (s.finishG d (s.me.g7 a * s.me.g7 b + s.me.g7 d) false)

/-- GAND (R93) -/
def execGand (b a d : BitVec 7) (s : State) : Out :=
  group2 (· &&& ·) b a d s

/-- GOR (R93) -/
def execGor (b a d : BitVec 7) (s : State) : Out :=
  group2 (· ||| ·) b a d s

/-- GXOR (R93) -/
def execGxor (b a d : BitVec 7) (s : State) : Out :=
  group2 (· ^^^ ·) b a d s

/-- GANDN (R93) -/
def execGandn (b a d : BitVec 7) (s : State) : Out :=
  group2 (fun x y => x &&& ~~~y) b a d s

/-- GSHL (R93) -/
def execGshl (b a d : BitVec 7) (s : State) : Out :=
  group2 gshlW b a d s

/-- GSHR (R93) -/
def execGshr (b a d : BitVec 7) (s : State) : Out :=
  group2 gshrW b a d s

/-- GSRA (R93) -/
def execGsra (b a d : BitVec 7) (s : State) : Out :=
  group2 gsraW b a d s

/-- GMIN (R93) -/
def execGmin (b a d : BitVec 7) (s : State) : Out :=
  group2 gminW b a d s

/-- GCMPEQ (R93) -/
def execGcmpeq (b a d : BitVec 7) (s : State) : Out :=
  group2 (fun x y => bit64 (x == y)) b a d s

/-- GCMPLT (R93) -/
def execGcmplt (b a d : BitVec 7) (s : State) : Out :=
  group2 (fun x y => bit64 (x.slt y)) b a d s

/-- GCMPLTU (R93) -/
def execGcmpltu (b a d : BitVec 7) (s : State) : Out :=
  group2 (fun x y => bit64 (x.ult y)) b a d s

/-- GMAX (R93) -/
def execGmax (b a d : BitVec 7) (s : State) : Out :=
  group2 gmaxW b a d s

/-- GADDI (R93) -/
def execGaddi (i : BitVec 10) (a d : BitVec 7) (s : State) : Out :=
  guard (gNeed .all [d, a]) s fun s => .next (s.finishG d (s.me.g7 a + i.signExtend 64) false)

/-- GMOVI (R43) -/
def execGmovi (i : BitVec 17) (d : BitVec 7) (s : State) : Out :=
  guard (gNeed .all [d]) s fun s => .next (s.finishG d (i.signExtend 64) false)

/-- GSHI16 (R43) -/
def execGshi16 (i : BitVec 16) (d : BitVec 7) (s : State) : Out :=
  guard (gNeed .all [d]) s fun s =>
    .next (s.finishG d ((s.me.g7 d <<< 16) ||| i.setWidth 64) false)

/-- GSRD (R60, R94) -/
def execGsrd (b d : BitVec 7) (s : State) : Out :=
  guard { gNeed .all [d] with field := !selectorOk b.toNat } s fun s =>
    .next (s.finishG d (s.special b.toNat) false)

/-- GSWR (R94): only selectors 32 to 35 are writable. A CSQ thread's are its own until it is saved, and read 0 after its
restore (DESIGN CHOICE, log entry 62). -/
def execGswr (b a : BitVec 7) (s : State) : Out :=
  guard { gNeed .all [a] with field := decide (b.toNat < 32) || decide (35 < b.toNat) } s fun s =>
    .next ({ s with me := s.me.writeScratch (b.toNat - 32) (s.me.g7 a) }.finish false)

/-- GMOV (R94) -/
def execGmov (a d : BitVec 7) (s : State) : Out :=
  guard (gNeed .all [d, a]) s fun s => .next (s.finishG d (s.me.g7 a) false)

/-- SRD (R60, R92): LANE differs by lane, every other selector is read once -/
def execSrd (i : BitVec 10) (d : BitVec 7) (s : State) : Out :=
  guard { laneNeed 0 d [] false with field := !selectorOk i.toNat } s fun s =>
    let x := (s.special i.toNat).extractLsb' 0 32
    .next (s.writeLane 0 d.toNat (fun l => if i.toNat = 0 then BitVec.ofNat 32 l else x) 4)

end Sys2Proof.Machine
end

