-- ==== Sys2Proof/Machine/Control.lean ====
section
/-!
DEFINITION. Branches, divergence, EM, ending, yielding, trapping and the register quota (R98 to R108).
-/
namespace Sys2Proof.Machine

/-- A B-format target (R45): the branch's own address plus twice the displacement. -/
def Agent.target (a : Agent) (x : BitVec 17) : Word := a.cur.pc + (x.signExtend 32 <<< 1)

/-- A transfer: no lane result, the chain ends (R51). -/
def State.jump (s : State) (target : Word) : State := { s with me := s.me.retire none target true }

/-- A branch that is taken when `c` holds (R98); one that is not taken does not end the chain. -/
def State.branchIf (s : State) (c : Bool) (target : Word) : State := if c then s.jump target else s.finish false

/-- BRA (R98). -/
def execBra (x : BitVec 17) (s : State) : Out :=
  guard (Need.of .all) s fun s => .next (s.jump (s.me.target x))

/-- BRG (R98). -/
def execBrg (x : BitVec 17) (p : BitVec 7) (s : State) : Out :=
  guard (gNeed .all [p]) s fun s => .next (s.branchIf (s.me.g7 p != 0) (s.me.target x))

/-- BRZG (R98). -/
def execBrzg (x : BitVec 17) (p : BitVec 7) (s : State) : Out :=
  guard (gNeed .all [p]) s fun s => .next (s.branchIf (s.me.g7 p == 0) (s.me.target x))

/-- CALL (R98): g62 takes the address of the next instruction. -/
def execCall (x : BitVec 17) (s : State) : Out :=
  guard { Need.of .all with wide := gReg 62 } s fun s =>
    .next ({ s with me := s.me.writeG 62 ((s.me.nextPc 4).setWidth 64) }.jump (s.me.target x))

/-- A jump to a register's low 32 bits: an odd target traps PC_ALIGN and nothing is transferred (R40). -/
def State.jumpReg (s : State) (x : DWord) : State :=
  if x.getLsbD 0 then takeTrap s .pcAlign else s.jump (x.extractLsb' 0 32)

/-- RET (R98). -/
def execRet (s : State) : Out := guard { Need.of .all with wide := gReg 62 } s fun s => .next (s.jumpReg (s.me.readG 62))

/-- JMPG (R98). -/
def execJmpg (a : BitVec 7) (s : State) : Out := guard (gNeed .all [a]) s fun s => .next (s.jumpReg (s.me.g7 a))

/-! Divergence (R99 to R103). -/

/-- A sub-group at the head of a chain: its PC, lanes, mask, parent and stack. -/
def Sub.head (id : Nat) (ls em pc : Word) (parent : Option Nat) (stack : List SerialEntry) : Sub :=
  { id := id, ls := ls, em := em, pc := pc, parent := parent, stack := stack, parked := false, pos := 0,
    headPc := pc, headEm := em, latches := .void, held := [], wait := .none, holds := false, ready := 0,
    latchDue := [] }

/-- BRV's two ways out of a divergence (R101): a split while the serial stack is empty and an entry is free, else
the serial fallback. `t` and `f` are the lanes that take the branch and those that do not. -/
def State.diverge (s : State) (t f target next : Word) : State :=
  let a := s.me.retire none next true
  let g := a.cur
  if g.stack.isEmpty ∧ 0 < s.splitFree then
    let e : Split := ⟨a.nextId, g.parent, g.ls &&& ~~~g.em, 0⟩
    { s with me := { a with cur := Sub.head (a.nextId + 1) t t target (some a.nextId) [],
                            others := Sub.head (a.nextId + 2) f f next (some a.nextId) [] :: a.others,
                            splits := e :: a.splits, nextId := a.nextId + 3 } }
  else if g.stack.length < 16 then
    let e : SerialEntry := ⟨f, next, g.ls &&& ~~~g.em, false, 0, 0, 0⟩
    { s with me := { a with cur := Sub.head g.id t t target g.parent (e :: g.stack) } }
  else takeTrap s .splitDepth

/-- BRV (R101). -/
def execBrv (x : BitVec 17) (p : BitVec 7) (s : State) : Out :=
  guard { Need.of .core with reads := srcReg p, latches := srcLatch p, wide := srcWide p } s fun s =>
    let em := s.me.cur.em
    let t := laneMask em fun l => s.me.src p l != 0
    let f := em &&& ~~~t
    if f = 0 then .next (s.jump (s.me.target x))
    else if t = 0 then .next (s.jump (s.me.nextPc 4))
    else .next (s.diverge t f (s.me.target x) (s.me.nextPc 4))

/-- The sub-group that goes on after its FUSE. -/
def Sub.goOn (c : Sub) : Sub := Sub.head c.id c.ls c.em (c.pc + 4) c.parent c.stack

/-- One step of case 4 of R102 for one parked sub-group `g` among `rest`; `none` where it stays parked. -/
def fuseOne (g : Sub) (rest : List Sub) (splits : List Split) : Option (List Sub × List Split) :=
  match g.parent with
  | none => some (g.goOn :: rest, splits)
  | some e =>
    match splits.find? fun x => x.id == e with
    | none => none
    | some x =>
      match rest.find? fun h => h.parent == some e with
      | some h =>
        if h.parked then
          if h.pc = g.pc then
            let fused := { Sub.head g.id (g.ls ||| h.ls ||| x.dormant) (g.em ||| h.em) g.pc x.parent [] with parked := true }
            some (fused :: rest.filter fun y => y.id != h.id, splits.filter fun y => y.id != e)
          else some (g.goOn :: rest.map fun y => if y.id = h.id then y.goOn else y, splits)
        else none
      | none =>
        if 0 < x.ended then
          let fused := { Sub.head g.id (g.ls ||| x.dormant) g.em g.pc x.parent [] with parked := true }
          some (fused :: rest, splits.filter fun y => y.id != e)
        else none

/-- The first sub-group that R102 case 4 moves, and the sub-groups after the move. -/
def fuseFirst (before after : List Sub) (splits : List Split) : Option (List Sub × List Split) :=
  match after with
  | [] => none
  | g :: rest =>
    if g.parked then
      match fuseOne g (before ++ rest) splits with
      | some r => some r
      | none => fuseFirst (before ++ [g]) rest splits
    else fuseFirst (before ++ [g]) rest splits

/-- R102 case 4 until no parked sub-group moves. -/
def fuseAll : Nat → List Sub → List Split → List Sub × List Split
  | 0, subs, splits => (subs, splits)
  | n + 1, subs, splits =>
    match fuseFirst [] subs splits with
    | some (subs', splits') => fuseAll n subs' splits'
    | none => (subs, splits)

/-- The agent with its sub-groups: the one with number `id` issues next where it still exists. With none left the
group has ended (R105). -/
def Agent.regroup (a : Agent) (id : Nat) (subs : List Sub) (splits : List Split) : Agent :=
  match subs with
  | [] => { a with others := [], splits := splits, run := .ended }
  | c :: r =>
    match subs.find? fun x => x.id == id with
    | some x => { a with cur := x, others := subs.filter fun y => y.id != id, splits := splits }
    | none => { a with cur := c, others := r, splits := splits }

/-- Every parked sub-group of the agent meets R102 again. -/
def Agent.settleFuse (a : Agent) : Agent :=
  let r := fuseAll (2 * (a.others.length + a.splits.length) + 4) (a.cur :: a.others) a.splits
  a.regroup a.cur.id r.1 r.2

/-- FUSE on an agent whose chain has ended (R102). -/
def Agent.fuse (a : Agent) : Agent :=
  let g := a.cur
  match g.stack with
  | e :: r =>
    if e.phase then
      { a with cur := Sub.head g.id (e.ls ||| g.ls ||| e.dormant) (e.em ||| g.em) (g.pc + 4) g.parent r }
    else
      let e' := { e with ls := g.ls, em := g.em, fusePc := g.pc, phase := true }
      { a with cur := Sub.head g.id e.f e.f e.pc g.parent (e' :: r) }
  | [] =>
    match g.parent with
    | none => { a with cur := g.goOn }
    | some _ => { a with cur := { g with parked := true } }.settleFuse

/-- FUSE (R102): the chain ends first, with the FUSE as its last instruction. -/
def execFuse (s : State) : Out :=
  guard (Need.of .core) s fun s => .next { s with me := (s.me.retire none s.me.cur.pc true).fuse }

/-- One more child of a split entry has ended; when both have, the entry is freed and counts for its own parent. -/
def childEnded : Nat → Nat → List Split → List Split
  | 0, _, splits => splits
  | n + 1, e, splits =>
    match splits.find? fun x => x.id == e with
    | none => splits
    | some x =>
      if x.ended = 0 then splits.map fun y => if y.id = e then { y with ended := 1 } else y
      else
        let rest := splits.filter fun y => y.id != e
        match x.parent with
        | some p => childEnded n p rest
        | none => rest

/-- EXIT on the issuing sub-group, by its serial stack (R105): the entries whose lanes have all ended are popped.
`none` where the sub-group ends. -/
def exitSerial (g : Sub) : List SerialEntry → Option Sub
  | [] => none
  | e :: r =>
    if e.phase then
      if e.em = 0 then exitSerial g r
      else some (Sub.head g.id (e.ls ||| e.dormant) e.em (e.fusePc + 4) g.parent r)
    else some (Sub.head g.id e.f e.f e.pc g.parent ({ e with ls := 0, em := 0, phase := true } :: r))

/-- EXIT on an agent whose chain has ended (R105). -/
def Agent.exit (a : Agent) : Agent :=
  match exitSerial a.cur a.cur.stack with
  | some c => { a with cur := c }
  | none =>
    let splits :=
      match a.cur.parent with
      | some e => childEnded (a.splits.length + 1) e a.splits
      | none => a.splits
    match a.others with
    | [] => { a with splits := splits, run := .ended }
    | c :: r => ({ a with cur := c, others := r, splits := splits } : Agent).settleFuse

/-- EXIT (R105). -/
def execExit (s : State) : Out :=
  guard (Need.of .all) s fun s => .next { s with me := (s.me.retire none (s.me.nextPc 4) true).exit }

/-- MSKIP (R103). -/
def execMskip (x : BitVec 17) (p : BitVec 7) (s : State) : Out :=
  guard (gNeed .core [p]) s fun s =>
    let m := (s.me.g7 p).extractLsb' 0 32 &&& s.me.cur.ls
    if m = 0 then .next (s.jump (s.me.target x))
    else .next ({ s with me := { s.me with cur := { s.me.cur with em := m } } }.finish true)

/-- EMRD (R104). -/
def execEmrd (d : BitVec 7) (s : State) : Out :=
  guard (gNeed .core [d]) s fun s => .next (s.finishG d (s.me.cur.ls ++ s.me.cur.em) false)

/-- EMWR (R104): EM stays within LS, and governs the next instruction. -/
def execEmwr (a : BitVec 7) (s : State) : Out :=
  guard (gNeed .core [a]) s fun s =>
    let m := (s.me.g7 a).extractLsb' 0 32 &&& s.me.cur.ls
    .next ({ s with me := { s.me with cur := { s.me.cur with em := m } } }.finish false)

/-- YIELD (R106): ends the chain and has no other effect. -/
def execYield (s : State) : Out := guard (Need.of .core) s fun s => .next (s.finish true)

/-- BKPT (R106): with the debug enable set that the context had when the unit was admitted (R283), BREAKPOINT after the
chain has taken effect. -/
def execBkpt (s : State) : Out :=
  guard (Need.of .core) s fun s =>
    if s.me.env.debug then .next (takeTrapAfter s .breakpoint .none 4)
    else .next (s.finish true)

/-- TRAP (R107): the chain takes effect, and g[A] is the fault detail. -/
def execTrap (t : BitVec 4) (a : BitVec 7) (s : State) : Out :=
  guard (gNeed .all [a]) s fun s =>
    .next (takeTrapAfter s (.software t) { FaultInfo.none with detail := s.me.g7 a } 4)

/-! The register quota (R108). -/

/-- Whether an agent is a group of the issuing group's block on its core that occupies its slot. -/
def State.donee (s : State) (t : Nat) (b : Agent) : Bool :=
  b.unit == s.me.unit && b.kind == .core && b.index == t && b.place.die == s.me.place.die
    && b.place.cluster == s.me.place.cluster && b.place.core == s.me.place.core
    && b.run != .ended && b.run != .saved

/-- `n` registers from `q` on read 0. -/
def zeroRegs (v : Store Lanes) (q n : Nat) : Store Lanes :=
  (regSpan q n).foldl (fun v r => Store.set Lanes.zero v r Lanes.zero) v

/-- The status of REGQ (R108): 0 where the registers are given. -/
def State.regqStatus (s : State) (t n : Nat) : Nat :=
  if n = 0 ∨ n % 8 ≠ 0 then 1
  else
    match s.agents.find? (s.donee t) with
    | none => 2
    | some b =>
      if t = s.me.index then 2
      else if s.me.quota < n + 8 ∨ 120 < b.quota + n then 3
      else 0

/-- REGQ (R108). -/
def execRegq (b a d : BitVec 7) (s : State) : Out :=
  guard (gNeed .core [d, a, b]) s fun s =>
    let t := (s.me.g7 a).toNat
    let n := (s.me.g7 b).toNat
    let st := s.regqStatus t n
    let s' := s.finishG d (BitVec.ofNat 64 st) true
    if st = 0 then
      .next { s' with
        me := { s'.me with quota := s'.me.quota - n },
        agents := s'.agents.map fun x =>
          if s.donee t x then { x with v := zeroRegs x.v x.quota n, quota := x.quota + n } else x }
    else .next s'

end Sys2Proof.Machine
end

