-- ==== Sys2Proof/Machine/Tensor.lean ====
section
/-!
DEFINITION. Tensor records and references (R119 to R125), the tensor-table instructions (R146), and how an engine
reads and writes elements through a record.
-/
namespace Sys2Proof.Machine

/-! The fields of a tensor record (R119). -/

def trSpace (r : BitVec 512) : Nat := recBits r 0 62 2
def trBase (r : BitVec 512) : Nat := recBits r 0 0 62
def trFmt (r : BitVec 512) : Nat := recField r 8 1
def trRank (r : BitVec 512) : Nat := recField r 9 1
def trFlag (r : BitVec 512) (bit : Nat) : Bool := recBits r 10 bit 1 == 1
def trTread (r : BitVec 512) : Bool := trFlag r 0
def trRing (r : BitVec 512) : Bool := trFlag r 1
def trRepl (r : BitVec 512) : Bool := trFlag r 2
def trSparse (r : BitVec 512) : Bool := trFlag r 3
def trBcast (r : BitVec 512) (d : Nat) : Bool := trFlag r (4 + d)
def trUpdw (r : BitVec 512) : Bool := trFlag r 8
def trRows (r : BitVec 512) : Nat := recField r 12 2
def trCols (r : BitVec 512) : Nat := recField r 14 2
def trMod (r : BitVec 512) : Nat := recField r 0x2C 4
def trGran (r : BitVec 512) : Nat := recField r 0x32 1
def trWver (r : BitVec 512) : Nat := recField r 0x38 4

/-- The extent of a dimension; 1 at and beyond RANK. -/
def trExt (r : BitVec 512) (d : Nat) : Nat := if d < trRank r then recField r (0x10 + 4 * d) 4 else 1

/-- The stride of a dimension 1 to 3. -/
def trStr (r : BitVec 512) (d : Nat) : Nat := recField r (0x20 + 4 * (d - 1)) 4

/-- A named tensor id: its valid bit and id, at byte offset `off`. -/
def trRef (r : BitVec 512) (off : Nat) : Option Nat := if recBits r off 15 1 = 1 then some (recBits r off 0 12) else none

def trFormat (r : BitVec 512) : Fmt := (Fmt.ofCode (trFmt r)).getD .fp32

/-- Bytes of `n` elements of a row, packed under R23. -/
def rowBytes (f : Fmt) (n : Nat) : Nat :=
  match f with
  | .e3m2 => (n + 3) / 4 * 3
  | .e2m3 => (n + 3) / 4 * 3
  | .e2m1 => (n + 1) / 2
  | f => n * f.bytes

/-- N_d of R120. -/
def trCount (r : BitVec 512) (d : Nat) : Nat :=
  if trBcast r d then 1 else if d = 1 ∧ trRing r then trMod r else recField r (0x10 + 4 * d) 4

/-- span_d of R120. -/
def trSpan (r : BitVec 512) : Nat → Nat
  | 0 => rowBytes (trFormat r) (trCount r 0)
  | d + 1 => if trBcast r (d + 1) then trSpan r d else trStr r (d + 1) * trCount r (d + 1)

/-- The storage ranges of Table 3 of The Machine a Program Sees, without the generator windows. -/
def storageRanges : List (Nat × Nat) :=
  [(0, 0x8_0000), (0x10_0000, 0x2000), (0x400_0000, 0x400_0000), (0x800_0000, 0x100_0000), (0x1000_0000, 0x1000_0000)]

/-- Whether a span of bytes lies within one range that the space allows (sub-reason 12). -/
def trPlaced (r : BitVec 512) : Bool :=
  let b := trBase r
  let n := trSpan r (trRank r - 1)
  match trSpace r with
  | 0 => storageRanges.any fun x => decide (x.1 ≤ b) && decide (b + n ≤ x.1 + x.2)
  | 1 => decide (b + n ≤ 2 ^ 56)
  | 2 => decide (0x2000_0000 ≤ b) && decide (b < 0x3000_0000) && decide (b % 0x100_0000 + n ≤ 0x100_0000)
  | _ => false

/-- Whether the TREAD flag's own conditions hold (sub-reason 8, R117). -/
def treadOk (r : BitVec 512) : Bool :=
  !trTread r || (trSpace r == 0 && decide (2 ≤ trRank r) && trBase r % 128 == 0 && trStr r 1 % 128 == 0
    && (decide (trBase r < 0x8_0000) || (decide (0x400_0000 ≤ trBase r) && decide (trBase r < 0x800_0000))))

/-- The dimensions 1 to 3 below RANK. -/
def trDims (r : BitVec 512) : List Nat := [1, 2, 3].filter fun d => decide (d < trRank r)

/-- The conditions of Table 2, as (sub-reason, whether it holds). -/
def recordConditions (r : BitVec 512) : List (Nat × Bool) :=
  let sp := trSpace r
  let high := [0, 1, 2, 3].filter fun d => decide (trRank r ≤ d)
  [ (1, sp == 3),
    (2, (if sp = 1 then recBits r 0 56 6 != 0 || trBase r % 256 != 0 else recBits r 0 32 30 != 0 || trBase r % 64 != 0)),
    (3, decide (10 ≤ trFmt r)),
    (4, trRank r == 0 || decide (4 < trRank r)),
    (5, ([0, 1, 2, 3].any fun d => decide (d < trRank r) && recField r (0x10 + 4 * d) 4 == 0) || trRows r == 0 || trCols r == 0),
    (6, (trDims r).any fun d => if trBcast r d then trStr r d != 0 else decide (trStr r d < trSpan r (d - 1))),
    (7, trRing r && (trMod r == 0 || decide (trRank r < 2))),
    (8, recBits r 10 9 7 != 0 || (high.any fun d => trBcast r d) || (trRepl r && sp != 1) || !treadOk r),
    (9, decide (2 < trGran r) || (trGran r != 0 && (trRef r 0x30).isNone)) ] ++
  [ (10, trSparse r && (trRef r 0x34).isNone),
    (11, (high.any fun d => recField r (0x10 + 4 * d) 4 != 0) || (([1, 2, 3].filter fun d => decide (trRank r ≤ d)).any fun d => trStr r d != 0)
        || recField r 0x33 1 != 0 || recField r 0x36 2 != 0 || recField r 0x3E 2 != 0
        || recBits r 0x30 12 3 != 0 || recBits r 0x34 12 3 != 0 || recBits r 0x3C 12 3 != 0),
    (12, !trPlaced r) ]

/-- The lowest failing sub-reason of a record, if any (R120). -/
def recordCheck (r : BitVec 512) : Option Nat := ((recordConditions r).find? fun c => c.2).map (·.1)

/-- The record of a defined tensor id. An all-zero record is no legal one (RANK 0), so it stands for an empty entry. -/
def Context.tensor (c : Context) (id : Nat) : Option (BitVec 512) :=
  let r := Store.get 0 c.tensors id
  if r = 0 then none else some r

/-! Weight versions (R260). -/

/-- A template: REPL set and no version yet. -/
def isTemplate (r : BitVec 512) : Bool := trRepl r && trWver r == 0xFFFF_FFFF

/-- The copy of a template for a version: BASE advanced to the version's slot, WVER set. -/
def bindTemplate (r : BitVec 512) (shift : Nat) (v : Word) : BitVec 512 :=
  let base := (trBase r + shift) % 2 ^ 62
  BitVec.ofNat 512 (r.toNat - trBase r + base - 0xFFFF_FFFF * 2 ^ 448 + v.toNat * 2 ^ 448)

/-- A template as a launch's commands find it: the copy made at its admission, or nothing without a binding. -/
def Launch.template (l : Launch) (id : Nat) (r : BitVec 512) : Option (BitVec 512) :=
  l.bound.map fun v =>
    let x := Store.get 0 l.templates id
    if x = 0 then bindTemplate r l.shift v else x

/-- The tensor table as a launch's commands find it. -/
def Launch.tensors (l : Option Launch) (ts : Store (BitVec 512)) : Store (BitVec 512) :=
  ts.filterMap fun x => if isTemplate x.2 then (l.bind fun l => l.template x.1 x.2).map fun r => (x.1, r) else some x

/-- A context as the commands of the agent whose turn it is find it. -/
def State.myContext (s : State) : Context :=
  let c := s.context s.me.ctx
  { c with tensors := Launch.tensors (s.launch s.me.unit.ctx s.me.unit.launch) c.tensors }

/-- A tensor record as TQRY reads it: the bound copy of a template, else the record itself. -/
def State.queryTensor (s : State) (id : Nat) : Option (BitVec 512) :=
  ((s.context s.me.ctx).tensor id).map fun r =>
    if isTemplate r then (((s.launch s.me.unit.ctx s.me.unit.launch).bind fun l => l.template id r)).getD r else r

/-! Where elements lie (R121). -/

/-- The index of a dimension after BCAST, RANK and RING. -/
def trIndex (r : BitVec 512) (d i : Nat) : Nat :=
  if trBcast r d || decide (trRank r ≤ d) then 0 else if d = 1 ∧ trRing r then i % trMod r else i

/-- The byte address of byte `e` of the row at indices i1, i2, i3, skewed under TREAD (R117, R121). -/
def trByte (r : BitVec 512) (e i1 i2 i3 : Nat) : Nat :=
  let i1 := trIndex r 1 i1
  let e := if trTread r then e / 128 * 128 + (e / 4 % 32 + i1) % 32 * 4 + e % 4 else e
  trBase r + e + (if 1 < trRank r then i1 * trStr r 1 else 0)
    + trIndex r 2 i2 * (if 2 < trRank r then trStr r 2 else 0) + trIndex r 3 i3 * (if 3 < trRank r then trStr r 3 else 0)

/-- The bytes of its row that an element occupies, and the bit at which it starts in them (R23). -/
def elemRow (f : Fmt) (i0 : Nat) : List Nat × Nat :=
  let six := fun (_ : Unit) =>
    let b := i0 / 4 * 3
    match i0 % 4 with
    | 0 => ([b], 0) | 1 => ([b, b + 1], 6) | 2 => ([b + 1, b + 2], 4) | _ => ([b + 2], 2)
  match f with
  | .e3m2 => six ()
  | .e2m3 => six ()
  | .e2m1 => ([i0 / 2], i0 % 2 * 4)
  | f => ((List.range f.bytes).map fun i => i0 * f.bytes + i, 0)

/-- The byte addresses of an element and its first bit in them (TensorAddr, R121). -/
def elemAddrs (r : BitVec 512) (i0 i1 i2 i3 : Nat) : List Nat × Nat :=
  let x := elemRow (trFormat r) (trIndex r 0 i0)
  (x.1.map fun e => trByte r e i1 i2 i3, x.2)

/-! How an engine command reaches bytes. -/

/-- On whose behalf an engine works: the issuing agent as it stood at acceptance, the engine's die, the generator-window
records in force (R124, R128), and the command's number. -/
structure Issuer where
  agent   : Agent
  die     : Nat
  windows : Store (BitVec 256)
  seq     : Nat
deriving DecidableEq, Repr

/-- An agent that stands for a command's issuer. -/
def issuerAgent (who : Who) (place : Place) (unit : UnitKey) (env : Env) : Agent :=
  let kind := match who with
    | .group _ _ => Kind.core | .thread _ => Kind.csq | .sup _ => Kind.sup
  { Agent.start who kind place with unit := unit, ctx := unit.ctx, env := env }

/-- What a byte of an engine's operand is: a location, a byte of a window, or nothing, with the status it reports. -/
inductive EngineByte where
  | loc (key : Nat)
  | win (w off : Nat)
  | miss (status : DWord)
deriving DecidableEq, Repr

/-- The byte that a space and an address name to an engine (R118, R310). A deterministic CSQ thread's engine commands may use the
cluster window, which the thread itself may not (R181, R214). -/
def State.engineByte (s : State) (e : Issuer) (space addr : Nat) (write : Bool) : State × EngineByte :=
  if space = 1 then
    let va := BitVec.ofNat 56 addr
    let (s, o) := s.vaByte e.agent.unit (.command e.seq) e.die e.agent.ctx va write false
    match s.peerFault o va, o.place va with
    | some c, _ => (s, .miss (errStatus c))
    | none, some k => (s, .loc k)
    | none, none => (s, .miss (outcomeStatus o va write))
  else
    match s.odaByte e.agent addr with
    | .error c => (s, .miss (errStatus c))
    | .ok (.loc k) => if e.agent.kind == .core && s.detClusterFault e.agent addr then (s, .miss (errStatus .detViolation)) else (s, .loc k)
    | .ok (.window w off) => (s, .win w off)

/-- Whether a byte of a die's replica is locked by a commit (R179). -/
def State.replicaLocked (s : State) (die k : Nat) : Bool :=
  s.commits.any fun c => c.locked && c.dies.contains die && c.cells.any fun x => x.1 + die * 2 ^ 37 == k

/-- An engine reads one byte: a byte that is not there reads as 0 and reports (R118). -/
def State.engineRead (s : State) (e : Issuer) (space addr : Nat) : State × Byte × DWord :=
  match s.engineByte e space addr false with
  | (s, .loc k) =>
    if s.replicaLocked e.die k then (s, 0, 0x10)
    else if s.poison.contains (k / 16) then (s, 0, errStatus .uncorrectable ||| 0x20)
    else (s, s.readByte e.agent.unit k, 0)
  | (s, .win w off) =>
    let r := Store.get 0 e.windows w
    if genKind r = 0 then (s, 0, errStatus .genOff) else (s, genByte r e.agent.env.seed off, 0)
  | (s, .miss st) => (s, 0, st)

/-- The location to which an engine writes a byte: none where it is dropped, with what it reports (R133, R154). -/
def State.engineDest (s : State) (e : Issuer) (space addr : Nat) : State × Option Nat × DWord :=
  match s.engineByte e space addr true with
  | (s, .loc k) => (s, some k, 0)
  | (s, .win w _) => (s, none, if genDiscard (Store.get 0 e.windows w) then 0 else errStatus .genStore)
  | (s, .miss st) => (s, none, st)

/-- An engine reads a list of byte addresses. -/
def State.engineBytes (s : State) (e : Issuer) (space : Nat) : List Nat → State × List Byte × DWord
  | [] => (s, [], 0)
  | a :: r =>
    let (s, b, st) := s.engineRead e space a
    let (s, bs, st') := State.engineBytes s e space r
    (s, b :: bs, statusMerge st st')

/-- Whether a location lies in a reduction region of an engine command's deterministic launch: a plain write there is refused
with DET_VIOLATION (R182, R200; log entry 63). -/
def State.regionBars (s : State) (e : Issuer) (k : Nat) : Bool := s.regionKind e.agent.unit e.agent.env.det e.die k != 0

/-- Where an engine's bytes at a list of addresses go: each one's address and location, and what the others report. -/
def State.engineDests (s : State) (e : Issuer) (space : Nat) : List (Nat × Byte) → State × List (Nat × Nat × Byte) × DWord
  | [] => (s, [], 0)
  | (a, b) :: r =>
    let (s, k, st) := s.engineDest e space a
    let bad := k.any (s.regionBars e)
    let here := if bad then [] else k.toList.map fun k => (a, k, b)
    let (s, cs, st') := State.engineDests s e space r
    (s, here ++ cs, statusMerge (if bad then errStatus .detViolation else st) st')

/-- An engine command's bytes are written, each run of consecutive addresses as one write; VAs stand with them in space 1
(R342). -/
def State.putBytes (s : State) (e : Issuer) (space : Nat) (cs : List (Nat × Nat × Byte)) : State :=
  let s := (groupWrites cs).foldl
    (fun s w => s.writeVia e.agent.unit (if space = 1 then some w.va else none) w.cells) s
  s.holdLines (.command e.agent.who e.seq) (cs.map fun c => c.2.1)

/-- An engine writes bytes at a list of addresses: the state, the locations written and what it reports. -/
def State.engineWrite (s : State) (e : Issuer) (space : Nat) (xs : List (Nat × Byte)) : State × List Nat × DWord :=
  let (s, cs, st) := s.engineDests e space xs
  (s.putBytes e space cs, cs.map fun c => c.2.1, st)

/-- The code of an element (R121). One whose bytes lie on two pages is read, and written, byte by byte: those on a page
that is not resident read as 0 or are dropped (R118; DESIGN CHOICE, log entry 64). -/
def State.elemRead (s : State) (e : Issuer) (r : BitVec 512) (i0 i1 i2 i3 : Nat) : State × Nat × DWord :=
  let x := elemAddrs r i0 i1 i2 i3
  let (s, bs, st) := s.engineBytes e (trSpace r) x.1
  (s, leNat bs / 2 ^ x.2 % 2 ^ (trFormat r).width, st)

/-- Bytes with `n` bits from bit `lo` replaced. -/
def spliceBits (bs : List Byte) (lo n code : Nat) : List Byte :=
  let x := leNat bs
  leBytes bs.length (x - x / 2 ^ lo % 2 ^ n * 2 ^ lo + code % 2 ^ n * 2 ^ lo)

/-- Elements of a packed group (R23). -/
def Fmt.group (f : Fmt) : Nat := match f with | .e3m2 => 4 | .e2m3 => 4 | .e2m1 => 2 | _ => 1

/-- The slots of an element's packed group after the last element of its row: an engine that writes any element of a row's last
group writes them (R23; DEDUCED, log entry 79). -/
def tailSlots (f : Fmt) (i0 ext : Nat) : List Nat :=
  (List.range f.group).filterMap fun i =>
    let t := i0 / f.group * f.group + i
    if ext ≤ t then some t else none

/-- One code is written at the position of an element, the bits beside it kept. -/
def State.slotWrite (s : State) (e : Issuer) (r : BitVec 512) (i0 i1 i2 i3 code : Nat) : State × List Nat × DWord :=
  let x := elemAddrs r i0 i1 i2 i3
  let w := (trFormat r).width
  if w = 8 * x.1.length then s.engineWrite e (trSpace r) (x.1.zip (leBytes x.1.length code))
  else
    let (s, bs, _) := s.engineBytes e (trSpace r) x.1
    s.engineWrite e (trSpace r) (x.1.zip (spliceBits bs x.2 w code))

/-- Code 0 is written at the slots of a list. -/
def State.zeroSlots (s : State) (e : Issuer) (r : BitVec 512) (i1 i2 i3 : Nat) : List Nat → State × List Nat × DWord
  | [] => (s, [], 0)
  | t :: ts =>
    let (s, ks, st) := s.slotWrite e r t i1 i2 i3 0
    let (s, ks', st') := State.zeroSlots s e r i1 i2 i3 ts
    (s, ks ++ ks', statusMerge st st')

/-- An element is written; the unused slots of a row's last packed group are written as code 0 (R23). -/
def State.elemWrite (s : State) (e : Issuer) (r : BitVec 512) (i0 i1 i2 i3 code : Nat) : State × List Nat × DWord :=
  let (s, ks, st) := s.slotWrite e r i0 i1 i2 i3 code
  let (s, ks', st') := s.zeroSlots e r i1 i2 i3 (tailSlots (trFormat r) i0 (trExt r 0))
  (s, ks ++ ks', statusMerge st st')

/-! References (R122, R123). -/

/-- A reference's fields. -/
def refId (g : DWord) : Nat := bitsOf g 0 12
def refRow (g : DWord) : Nat := bitsOf g 12 20
def refCol (g : DWord) : Nat := bitsOf g 32 20
def refT (g : DWord) : Bool := g.getLsbD 52
def refI2 (g : DWord) : Nat := bitsOf g 56 8

/-- A reference resolved in a context: its record and tile, or the cause of R122. -/
def Context.tile (c : Context) (g : DWord) : Except Cause TileRef :=
  match c.tensor (refId g) with
  | none => .error .tensorId
  | some r =>
    if bitsOf g 53 3 ≠ 0 ∨ (refT g ∧ !trTread r) then .error .tensorId
    else if trExt r 1 ≤ refRow g * trRows r ∨ trExt r 0 ≤ refCol g * trCols r ∨ trExt r 2 ≤ refI2 g then .error .tensorExtent
    else .ok ⟨r, refRow g, refCol g, refI2 g, refT g⟩

/-- Rows and columns of a tile as the command sees it, after T. -/
def TileRef.rows (t : TileRef) : Nat := if t.t then trCols t.record else trRows t.record
def TileRef.cols (t : TileRef) : Nat := if t.t then trRows t.record else trCols t.record

/-- The logical indices i0 and i1 of the command's element (i, j) (R123). -/
def TileRef.at (t : TileRef) (i j : Nat) : Nat × Nat :=
  let p := if t.t then (j, i) else (i, j)
  (t.tc * trCols t.record + p.2, t.tr * trRows t.record + p.1)

/-- Whether an element lies within the extent, and so is formed (R29, R123). -/
def TileRef.formed (t : TileRef) (i j : Nat) : Bool :=
  decide ((t.at i j).1 < trExt t.record 0) && decide ((t.at i j).2 < trExt t.record 1)

/-- Element (i, j) of a tile: zero beyond the extent (R123). -/
def State.tileRead (s : State) (e : Issuer) (t : TileRef) (i3 i j : Nat) : State × Nat × DWord :=
  if t.formed i j then s.elemRead e t.record (t.at i j).1 (t.at i j).2 t.i2 i3 else (s, 0, 0)

/-- Element (i, j) of a tile is written; a write beyond the extent is dropped. -/
def State.tileWrite (s : State) (e : Issuer) (t : TileRef) (i3 i j code : Nat) : State × List Nat × DWord :=
  if t.formed i j then s.elemWrite e t.record (t.at i j).1 (t.at i j).2 t.i2 i3 code else (s, [], 0)

/-- Elements written one after another, each given by its position and code. -/
def State.tileWriteAll (s : State) (e : Issuer) (t : TileRef) (i3 : Nat) : List (Nat × Nat × Nat) → State × List Nat × DWord
  | [] => (s, [], 0)
  | (i, j, c) :: r =>
    let (s, ks, st) := s.tileWrite e t i3 i j c
    let (s, ks', st') := State.tileWriteAll s e t i3 r
    (s, ks ++ ks', statusMerge st st')

/-- The formed bytes of a tile, row by row of the stored tile: of each row, the whole packed groups in which its elements lie
(R154). -/
def TileRef.byteCount (t : TileRef) : Nat :=
  let r := t.record
  let rows := min (trRows r) (trExt r 1 - t.tr * trRows r)
  let first := t.tc * trCols r
  let cols := min (trCols r) (trExt r 0 - first)
  if cols = 0 then 0 else rows * rowBytes (trFormat r) (first % (trFormat r).group + cols)

/-! The tensor-table instructions (R146). -/

/-- A selector: a tensor id, or a generator window; `none` where an MBZ bit is set. -/
inductive Selector where
  | tensor (id : Nat)
  | window (w : Nat)
deriving DecidableEq, Repr

def selectorOf (g : DWord) : Option Selector :=
  if bitsOf g 12 4 ≠ 0 ∨ bitsOf g 17 47 ≠ 0 then none
  else if g.getLsbD 16 then (if bitsOf g 4 8 ≠ 0 then none else some (.window (bitsOf g 0 4)))
  else some (.tensor (bitsOf g 0 12))

/-- A precise trap with a sub-reason (R120). -/
def subTrap (s : State) (c : Cause) (sub : Nat) : State := takeTrapWith s c { FaultInfo.none with sub := sub }

/-- Whether an address is of a range that no image may lie in: the spill window and its guards, the block window, and the
generator windows and what is above them (R146). -/
def imageBarred (ea : Nat) : Bool :=
  decide (0xF_0000 ≤ ea ∧ ea < 0x11_0000) || decide (0x800_0000 ≤ ea ∧ ea < 0x900_0000) || decide (0x2000_0000 ≤ ea)

/-- Bytes of an on-die image that own local memory, the cluster window or the die scratchpad holds (R146, R187):
RANGE for any other place, then ALIGN. -/
def State.image (s : State) (ea n : Nat) : Except Cause (List Byte) :=
  if imageBarred ea || imageBarred (ea + n - 1) then .error .range
  else
    match s.checkOda s.me ea n with
    | .error c => .error c
    | .ok bs =>
      match s.loadFault s.me ea bs with
      | some c => .error c
      | none => .ok (bs.map (s.loadByte s.me))

/-- The tensor record at an entry is set. -/
def State.setTensor (s : State) (ctx id : Nat) (r : BitVec 512) : State :=
  let c := s.context ctx
  s.setContext ctx { c with tensors := Store.set 0 c.tensors id r }

def State.setWindow (s : State) (ctx w : Nat) (r : BitVec 256) : State :=
  let c := s.context ctx
  s.setContext ctx { c with windows := Store.set 0 c.windows w r }

/-- TDEF (R146). -/
def execTdef (b a : BitVec 7) (s : State) : Out :=
  guard (gNeed .core [a, b]) s fun s =>
    let ea := bitsOf (s.me.g7 a) 0 32
    match selectorOf (s.me.g7 b) with
    | none => .next (takeTrap s .tensorId)
    | some (.tensor id) =>
      match s.image ea 64 with
      | .error c => .next (addrTrap s c ea)
      | .ok bs =>
        let r := BitVec.ofNat 512 (leNat bs)
        match recordCheck r with
        | some sub => .next (subTrap s .tensorRecord sub)
        | none => .next ((s.setTensor s.me.ctx id r).finish true)
    | some (.window w) =>
      match s.image ea 32 with
      | .error c => .next (addrTrap s c ea)
      | .ok bs =>
        let r := BitVec.ofNat 256 (leNat bs)
        if windowOk r then .next ((s.setWindow s.me.ctx w r).finish true) else .next (subTrap s .tensorRecord 14)

/-- The word that TQRY reads of an empty tensor entry: SPACE 11 in word 0 (R146). -/
def emptyTensorWord (w : Nat) : DWord := if w = 0 then 0xC000_0000_0000_0000 else 0

/-- TQRY (R146). -/
def execTqry (b a d : BitVec 7) (s : State) : Out :=
  guard (gNeed .core [d, a, b]) s fun s =>
    let c := s.context s.me.ctx
    match selectorOf (s.me.g7 a) with
    | none => .next (takeTrap s .tensorId)
    | some (.tensor id) =>
      let w := bitsOf (s.me.g7 b) 0 3
      let x := match s.queryTensor id with
        | some r => BitVec.ofNat 64 (recField r (8 * w) 8)
        | none => emptyTensorWord w
      .next (s.finishG d x true)
    | some (.window k) =>
      .next (s.finishG d (BitVec.ofNat 64 (recField (c.window k) (8 * bitsOf (s.me.g7 b) 0 2) 8)) true)

/-- TFREE (R146). -/
def execTfree (a : BitVec 7) (s : State) : Out :=
  guard (gNeed .core [a]) s fun s =>
    match selectorOf (s.me.g7 a) with
    | none => .next (takeTrap s .tensorId)
    | some (.tensor id) => .next ((s.setTensor s.me.ctx id 0).finish true)
    | some (.window w) => .next ((s.setWindow s.me.ctx w 0).finish true)

/-- A record with the 24 bits of SCALE and GRAN replaced (R146). -/
def setScale (r : BitVec 512) (x : DWord) : BitVec 512 :=
  (r &&& ~~~((0xFF_FFFF : BitVec 512) <<< 0x180)) ||| ((x.setWidth 512 &&& 0xFF_FFFF) <<< 0x180)

/-- TSCL (R146): sub-reason 9 is tested before 11, the lower one being reported (R120). -/
def execTscl (b a : BitVec 7) (s : State) : Out :=
  guard (gNeed .core [a, b]) s fun s =>
    match selectorOf (s.me.g7 a) with
    | some (.tensor id) =>
      match (s.context s.me.ctx).tensor id with
      | none => .next (takeTrap s .tensorId)
      | some r =>
        let x := s.me.g7 b
        let n := setScale r x
        if 2 < trGran n ∨ (trGran n ≠ 0 ∧ (trRef n 0x30).isNone) then .next (subTrap s .tensorRecord 9)
        else if bitsOf x 12 3 ≠ 0 ∨ bitsOf x 24 40 ≠ 0 then .next (subTrap s .tensorRecord 11)
        else .next ((s.setTensor s.me.ctx id n).finish true)
    | _ => .next (takeTrap s .tensorId)

end Sys2Proof.Machine
end

