-- ==== Sys2Proof/Machine/Engine.lean ====
section
/-!
DEFINITION. What the engines of a die share: what a command counts when it completes, contributions of deterministic
units, commits to replicated pages (R149 to R153, R178, R179, R182, R335).
-/
namespace Sys2Proof.Machine

/-- A command that has performed is asked nothing more of: walks that have ended in contention for it are answered (R313). -/
def State.forget (s : State) (seq : Nat) : State :=
  if s.dies.all fun d => d.2.contended.isEmpty then s
  else { s with dies := s.dies.map fun d => (d.1, d.2.answered (.command seq) fun _ => true) }

/-- A command has performed: its barrier takes its count and status, and a consumed uncorrectable error is reported
to its launch (R150, R152, R335). What its writes hold is handed to the barrier (R169). -/
def State.complete (s : State) (c : Completion) (time : DWord) : State :=
  let s := s.forget c.seq
  let s := if c.status.getLsbD 5 then raiseFor s .uncorrectable c.unit c.det .none time 0 else s
  match c.bar with
  | none => s
  | some b =>
    (s.passHold (fun h => h == .command c.who c.seq) (.barrier b (s.barrier b).gen)).countInto b c.bytes c.arrivals (oneCount (c.status &&& ~~~0x70))
      ⟨c.unit.ctx, c.unit.launch, some c.unit.index, c.det, c.handle.setWidth 64, time⟩

/-- A handle operand of a command: 0 names no barrier (R147). -/
def State.cmdHandle (s : State) (h : Half) : Except Cause (Option Nat) :=
  if h = 0 then .ok none
  else
    match s.handle h with
    | some b => .ok (some b)
    | none => .error .barrierHandle

/-- The locations of an element's bytes at its destination; none where a byte has none (R118, R133). -/
def State.destKeys (s : State) (e : Issuer) (space : Nat) : List Nat → State × Option (List Nat) × DWord
  | [] => (s, some [], 0)
  | a :: r =>
    let (s, k, st) := s.engineDest e space a
    let (s, ks, st') := State.destKeys s e space r
    (s, (match k, ks with | some k, some ks => some (k :: ks) | _, _ => none), statusMerge st st')

/-- The elementwise operations of the copy engines (R154): 1 add.f32, 2 add.bf16, else max. -/
def combineCode (op : Nat) (f : Fmt) (old x : Nat) : Nat :=
  let a := decodeNum f old
  let b := decodeNum f x
  roundIeee f .ne (if op = 1 ∨ op = 2 then a.add b else a.max b)

/-- The contribution that such an operation is in deterministic mode (R182). -/
def contribKind (op : Nat) (f : Fmt) : ContribOp :=
  if op = 1 then .addF32 else if op = 2 then .addBf16 else if f = .fp32 then .maxF32 else .maxBf16

/-- One elementwise update at the locations of an element: in place, or as a contribution in deterministic mode. `addrs` are its
addresses. -/
def State.combineAt (s : State) (e : Issuer) (op : Nat) (f : Fmt) (space : Nat) (addrs ks : List Nat) (x : Nat) : State :=
  let u := e.agent.unit
  let bs := leBytes ks.length (combineCode op f (leNat (s.readKeys u ks)) x)
  if e.agent.env.det then s.contribute u ⟨e.seq, ks, contribKind op f, BitVec.ofNat 32 x⟩ (ks.zip bs)
  else s.putBytes e space (addrs.zip (ks.zip bs))

/-- An elementwise update at the bytes of a destination element: the locations written, and what it reports. The element is read
as well as written, so that a locked replica stalls it (R179), and poison (R338) or a page that forbids the read (R310) leaves
it as it was. -/
def State.updateElem (s : State) (e : Issuer) (op : Nat) (f : Fmt) (space : Nat) (addrs : List Nat) (x : Nat) :
    State × List Nat × DWord :=
  match s.destKeys e space addrs with
  | (s, none, st) => (s, [], st)
  | (s, some ks, st) =>
    let (s, _, rd) := s.engineBytes e space addrs
    if rd ≠ 0 then (s, [], statusMerge st rd) else (s.combineAt e op f space addrs ks x, ks, st)

/-- Elementwise updates of bytes at consecutive addresses, `w` bytes an element. -/
def State.combineBytes (s : State) (e : Issuer) (op : Nat) (f : Fmt) (space w : Nat) :
    Nat → List Nat → State × List Nat × DWord
  | _, [] => (s, [], 0)
  | addr, x :: r =>
    let (s, ks, st) := s.updateElem e op f space ((List.range w).map fun i => addr + i) x
    let (s, ks', st') := State.combineBytes s e op f space w (addr + w) r
    (s, ks ++ ks', statusMerge st st')

/-- After a command's writes: 16-byte units written whole are no longer poisoned (R338). -/
def State.cleanUnits (s : State) (u : UnitKey) (ks : List Nat) : State :=
  if (s.snapOf u).isSome then s else { s with poison := clearPoison s.poison (ks.map fun k => (k, 0)) }

/-- The dies that keep replicas for a context (R308). -/
def State.replicaDies (s : State) (ctx : Nat) : List Nat :=
  (List.range 8).filter fun d => (s.partDies (s.partOf ctx)).getLsbD d

/-- A deterministic unit's snapshot takes a command's writes to replicated pages on every replica at once; its contributions are
made on each (R178, R182). -/
def State.spreadWrites (s : State) (e : Issuer) (ks : List Nat) : State :=
  let u := e.agent.unit
  let moved := fun (d k : Nat) => k - e.die * 2 ^ 37 + d * 2 ^ 37
  let cs := ((s.snapOf u).elim [] fun sn => sn.contribs).filter fun c => c.seq == e.seq && c.keys.all fun k => ks.contains k
  let plain := ks.eraseDups.filter fun k => !cs.any fun c => c.keys.contains k
  ((s.replicaDies u.ctx).filter fun d => d != e.die).foldl (fun (t : State) d =>
    cs.foldl (fun (t : State) c =>
      t.contribute u { c with keys := c.keys.map (moved d) } (c.keys.map fun k => (moved d k, s.readByte u k)))
      (t.writeCells u (plain.map fun k => (moved d k, s.readByte u k)))) s

/-- A launch that writes a replicated page has every replica's page copied at its first write of one (R340): the bytes of the
other replicas are written as they stand. -/
def State.copyReplicas (s : State) (u : UnitKey) (die : Nat) (cells : List (Nat × Byte)) : State :=
  s.launchWrite u.ctx u.launch none (((s.replicaDies u.ctx).filter fun d => d != die).flatMap fun d =>
    cells.map fun c => (c.1 + d * 2 ^ 37, Memory.read s.mem (c.1 + d * 2 ^ 37)))

/-- A write to replicated pages becomes a commit (R178): `before` is the state before the bytes at `ks` were written,
in which readers still see the old bytes, poisoned as they were (R338). `timed` is a CPYT's time. -/
def State.commitWrites (before after : State) (e : Issuer) (ks : List Nat) (timed : Option (DWord × DWord × Nat))
    (done : Completion) : State :=
  let u := e.agent.unit
  let cells := ks.eraseDups.map fun k => (k - e.die * 2 ^ 37, after.readByte u k)
  if (after.snapOf u).isSome then after.spreadWrites e ks
  else
    let after := after.copyReplicas u e.die cells
    let was := before.poison.filter fun q => !after.poison.contains q && cells.any fun c =>
      (after.replicaDies u.ctx).any fun d => (c.1 + d * 2 ^ 37) / 16 == q
    { after with mem := Memory.writeAll after.mem (ks.map fun k => (k, Memory.read before.mem k)), poison := after.poison ++ was,
                 commits := after.commits ++ [⟨e.seq, cells, after.replicaDies u.ctx, false, 0, done, timed, false⟩] }

/-- Whether a commit that has not completed touches one of the locations on a die: a command that would make another
commit of them waits, and so reads what the first has written (R178, R179). -/
def State.commitPending (s : State) (die : Nat) (ks : List Nat) : Bool :=
  s.commits.any fun c => c.dies.contains die && c.cells.any fun x => ks.contains (x.1 + die * 2 ^ 37)

/-- Whether a commit of a command is under way. -/
def State.commits? (s : State) (seq : Nat) : Bool := s.commits.any fun c => c.seq == seq

/-- Whether a status says that a read met a locked replica (R179), or that a miss waits for a walk slot (R311). -/
def metLock (st : DWord) : Bool := st.getLsbD 4
def metWait (st : DWord) : Bool := st.getLsbD 6

/-- Whether two commits touch a common byte. -/
def Commit.meets (a b : Commit) : Bool := a.cells.any fun x => b.cells.any fun y => x.1 == y.1

/-- The cells of a commit on every replica. -/
def Commit.allCells (c : Commit) : List (Nat × Byte) := c.dies.flatMap fun d => c.cells.map fun x => (x.1 + d * 2 ^ 37, x.2)

/-- A commit's writes to every replica. -/
def Commit.apply (c : Commit) (s : State) : State :=
  (s.launchWrite c.done.unit.ctx c.done.unit.launch none c.allCells).holdLines (.command c.done.who c.seq)
    (c.allCells.map fun x => x.1)

/-- The time of the die that a unit's commit completes on. -/
def State.dieOfUnit (s : State) (u : UnitKey) : Nat := ((s.unit u).map (·.die)).getD 0

/-- Whether a CPYT's commit is late now (R139, R155). -/
def State.commitLate (s : State) (c : Commit) : Bool :=
  c.timed.any fun t => s.isLate c.done.unit.ctx t.1 (s.die t.2.2).time

/-- A commit has written every replica: it counts, with LATE where it is a CPYT's and late (R155). -/
def State.endCommit (s : State) (c : Commit) (now : DWord) : State :=
  let done := if s.commitLate c then { c.done with status := c.done.status ||| 8 } else c.done
  let s := s.complete done now
  match c.timed with
  | some t => s.reportLate c.done.unit t.2.2 t.1 t.2.1 0
  | none => s

/-- One step of a commit (R179): it takes its locks on every replica; then it writes every replica, releases them and
counts. Commits to common bytes go in the order of their locks; a CPYT that a read has gone ahead of performs late (R176). -/
def State.commitStep (s : State) (i : Nat) : Out :=
  match s.commits[i]? with
  | none => .refused .notDue
  | some c =>
    let now := (s.die (s.dieOfUnit c.done.unit)).time
    if c.locked then .next (({ c.apply s with commits := s.commits.eraseIdx i }).endCommit c now)
    else if (s.commits.any fun x => x.locked && x.meets c) ∨ (c.missed ∧ !s.commitLate c) then .refused .notDue
    else .next { s with commits := s.commits.set i { c with locked := true, since := now } }

/-- Whether the requests that a command made of peers are all answered (R361). -/
def State.answered (s : State) (die seq : Nat) : Bool :=
  !(s.requests.any fun r => r.who.isNone && r.die == die && r.seq == seq)

/-- The request of an engine command. -/
def cmdRequest (die seq : Nat) (u : UnitKey) (now : DWord) (det : Bool) : PeerRequest :=
  { tag := 0, opc := 0, who := none, die := die, seq := seq, ctx := u.ctx, launch := u.launch, sent := now, key := 0,
    unit := some u.index, det := det, stale := false }

/-- The peers' locations among the bytes at a list of addresses, by the translations through which they will be read: a cached
leaf, or the page table (R315, R316). -/
def State.peerKeysOf (s : State) (e : Issuer) (space : Nat) (addrs : List Nat) : List Nat :=
  if space = 1 then
    addrs.filterMap fun a =>
      let va := BitVec.ofNat 56 a
      let o := (s.vaByte e.agent.unit (.command e.seq) e.die e.agent.ctx va false false).2
      match (if o = .waits then s.peek e.die (s.rootOf e.agent.ctx) va false else o) with
      | .peer node pasid _ _ => if (s.routeFault node va).isNone then some (peerKey node pasid va) else none
      | _ => none
  else []

end Sys2Proof.Machine
end

