-- ==== Sys2Proof/Machine/Copy.lean ====
section
/-!
DEFINITION. The copy engines: CPY, CPYT, GATH and SCAT with the steps in which they perform (R153 to R156), and the
page requests of PGREQ (R157, R318).
-/
namespace Sys2Proof.Machine

/-! Acceptance (R153 to R155). -/

/-- The shape of a copy's operands and the formats that its operation allows (R154). -/
def copyShapeOk (op : Nat) (src dst : TileRef) : Bool :=
  let fs := trFormat src.record
  let fd := trFormat dst.record
  src.rows == dst.rows && src.cols == dst.cols &&
    (match op with
     | 0 => fs == fd || (!fs.isInt && !fd.isInt)
     | 1 => fs == .fp32 && fd == .fp32
     | 2 => fs == .bf16 && fd == .bf16
     | _ => fs == fd && (fs == .fp32 || fs == .bf16))

/-- Whether a command may write through a record (sub-reason 13 of R120). -/
def mayWrite (r : BitVec 512) : Bool := !(([0, 1, 2, 3].any fun d => trBcast r d) || trUpdw r)

/-- The checks of CPY in the order of R153: the operation, its tiles and its barrier, or the cause with its sub-reason. -/
def State.copyCheck (s : State) (ctl src dst : DWord) : Except (Cause × Nat) (Option Nat × Nat × TileRef × TileRef) :=
  let c := s.myContext
  match s.cmdHandle (ctl.extractLsb' 0 16) with
  | .error x => .error (x, 0)
  | .ok bar =>
    match c.tile src with
    | .error x => .error (x, 0)
    | .ok a =>
      match c.tile dst with
      | .error x => .error (x, 0)
      | .ok b =>
        if !mayWrite b.record then .error (.tensorRecord, 13)
        else if bitsOf ctl 18 46 ≠ 0 ∨ !copyShapeOk (bitsOf ctl 16 2) a b then .error (.copyFault, 0)
        else .ok (bar, bitsOf ctl 16 2, a, b)

/-- Accepted commands that a die's copy engines hold (R153). -/
def Die.copyHeld (d : Die) : Nat := d.copyQ.length + d.heldT.length

/-- The die whose time and throttle count a timed copy answers to (R155): that of its first destination byte, and the issuing die
where that byte lies on no die (DESIGN CHOICE, log entry 84). -/
def State.destDie (s : State) (die ctx : Nat) (t : TileRef) : Nat :=
  if trSpace t.record = 1 then
    let va := BitVec.ofNat 56 ((elemAddrs t.record (t.at 0 0).1 (t.at 0 0).2 t.i2 0).1.headD 0)
    match s.peek die (s.rootOf ctx) va true with
    | .frame k _ _ => if k < 2 ^ 40 then k / 2 ^ 37 else if k < 2 ^ 52 then (k - 2 ^ 40) / 2 ^ 28 else die
    | _ => die
  else die

/-- An engine command is accepted on the die of the agent whose turn it is: CPYTs that it should read and that have not
performed are late (R176). -/
def State.missOnAccept (s : State) (die : Nat) : State :=
  if (s.die die).time.toNat < 8 then s else s.missCopies none ((s.die die).time.toNat - 8)

/-- A command joins the copy engines' queue; it holds a reference to its barrier (R149). -/
def State.acceptCopy (s : State) (work : CopyWork) (bar : Option Nat) (handle : Half) (time : Option DWord)
    (dest : Nat) : State :=
  let s := s.missOnAccept s.me.place.die
  let a := s.me
  let d := s.die a.place.die
  let c : CopyCmd :=
    { seq := s.nextSeq, who := a.who, place := a.place, unit := a.unit, env := a.env, work := work, bar := bar,
      handle := handle, time := time, dest := dest, windows := (s.context a.ctx).windows,
      throttle := s.devReg (0x858 + dest), codes := [], stage := 0, bytes := 0, status := 0, stall := none, missed := false }
  ({ s with nextSeq := s.nextSeq + 1 }.retainOpt bar).setDie a.place.die { d with copyQ := d.copyQ ++ [c] }

/-- CPY and CPYT after their decode checks. -/
def State.copyTile (s : State) (time : Option DWord) (b a d : BitVec 7) : State :=
  let ctl := s.me.g7 b
  match s.copyCheck ctl (s.me.g7 a) (s.me.g7 d) with
  | .error x => subTrap s x.1 x.2
  | .ok (bar, op, src, dst) =>
    if 256 ≤ (s.die s.me.place.die).copyHeld then s
    else
      let dest := s.destDie s.me.place.die s.me.ctx dst
      (s.acceptCopy (.tile op src dst) bar (ctl.extractLsb' 0 16) time dest).finish true

/-- CPY (R154). A full queue holds the group back (R153). -/
def execCpy (b a d : BitVec 7) (s : State) : Out :=
  guard (gNeed .core [d, a, b]) s fun s => .next (s.copyTile none b a d)

/-- CPYT (R155): T is g[B + 1]. -/
def execCpyt (b a d : BitVec 7) (s : State) : Out :=
  guard { gNeed .core [d, a, b] with
      reg := badG d || badG a || decide (62 < b.toNat),
      wide := [d.toNat, a.toNat, b.toNat, b.toNat + 1].flatMap gReg } s fun s =>
    match timedTrap s with
    | some c => .next (takeTrap s c)
    | none => .next (s.copyTile (some (s.me.readG (b.toNat + 1))) b a d)

/-- Whether the spill backing of an occupied slot of a core meets a span (R111, R114). -/
def State.meetsSpill (s : State) (p : Place) (lo n : Nat) : Bool :=
  s.allAgents.any fun a => a.holdsSlot && a.place.die == p.die && a.place.cluster == p.cluster && a.place.core == p.core
    && decide (lo < 0x80000 - a.place.slot * 0x2000) && decide (0x7E000 - a.place.slot * 0x2000 < lo + n)

/-- Whether the block-shared backing of a block on a core meets a span (R113, R114). -/
def State.meetsShared (s : State) (p : Place) (lo n : Nat) : Bool :=
  s.units.any fun u => !u.ended && !u.saved && u.kind == .core && u.die == p.die && u.cluster == p.cluster
    && (u.cores.zip u.runs).any fun x => x.1 == p.core && decide (x.2 * 4096 < lo + n)
      && decide (lo < (x.2 + (u.bshared + 4096 * u.cores.length - 1) / (4096 * u.cores.length)) * 4096)

/-- GATH and SCAT of the issuing group that have not arrived (R153). -/
def Agent.gathOut (a : Agent) : Nat := (a.gath.filter fun g => !g.arrived).length

/-- GATH and SCAT (R156): v[D] is reserved until the statuses arrive. A span that reaches a block's shared backing faults RANGE
(R113); what stands in the span is tested here alone, and not again as the rows move (DEDUCED, log entry 80). -/
def rowCopy (gather : Bool) (b a d : BitVec 7) (s : State) : Out :=
  guard { units := .core, field := false, scope := false, reg := badDest d || decide (120 ≤ a.toNat) || badG b,
          reads := srcReg a, writes := srcReg d, latches := [],
          wide := gReg b.toNat ++ [xtReg (bitsOf (s.me.g7 b) 0 3)] } s fun s =>
    let ctl := s.me.g7 b
    let lbase := bitsOf ctl 32 32
    let rowb := bitsOf ctl 16 16
    if bitsOf ctl 3 13 ≠ 0 ∨ lbase % 16 ≠ 0 ∨ rowb % 16 ≠ 0 ∨ rowb < 16 ∨ 4096 < rowb ∨ 0x80000 < lbase + 32 * rowb
        ∨ s.meetsSpill s.me.place lbase (32 * rowb) then .next (takeTrap s .copyFault)
    else if s.meetsShared s.me.place lbase (32 * rowb) then .next (addrTrap s .range lbase)
    else if 256 ≤ (s.die s.me.place.die).copyHeld ∨ 8 ≤ s.me.gathOut then .next s
    else
      let work := CopyWork.rows gather d.toNat s.me.cur.em (Lanes.make fun l => s.me.readV a.toNat l) lbase rowb
        (s.me.readXt (bitsOf ctl 0 3))
      let s := s.acceptCopy work none 0 none s.me.place.die
      .next ({ s with me := { s.me with gath := s.me.gath ++ [GathDst.mk d.toNat false] } }.finish true)

/-- GATH (R156). -/
def execGath (b a d : BitVec 7) (s : State) : Out := rowCopy true b a d s
/-- SCAT (R156). -/
def execScat (b a d : BitVec 7) (s : State) : Out := rowCopy false b a d s

/-! CPY performs (R154). -/

/-- The engine's view of a command. -/
def CopyCmd.issuer (c : CopyCmd) (die : Nat) : Issuer := ⟨issuerAgent c.who c.place c.unit c.env, die, c.windows, c.seq⟩

/-- The positions (i, j) of a destination tile that are formed. -/
def TileRef.positions (t : TileRef) : List (Nat × Nat) :=
  (List.range t.rows).flatMap fun i => ((List.range t.cols).map fun j => (i, j)).filter fun p => t.formed p.1 p.2

/-- The source elements at a list of positions: code 0 beyond the source's extent. -/
def State.readCodes (s : State) (e : Issuer) (t : TileRef) : List (Nat × Nat) → State × List (Nat × Nat × Nat) × DWord
  | [] => (s, [], 0)
  | p :: r =>
    let (s, c, st) := s.tileRead e t 0 p.1 p.2
    let (s, cs, st') := State.readCodes s e t r
    (s, (p.1, p.2, c) :: cs, statusMerge st st')

/-- The code of a copied element in the destination's format (R26, R154). -/
def copyCode (fs fd : Fmt) (c : Nat) : Nat :=
  if fs = fd then c
  else
    match fd with
    | .fp32 => roundIeee .fp32 .ne (decodeNum fs c)
    | .bf16 => roundIeee .bf16 .ne (decodeNum fs c)
    | .fp16 => roundIeee .fp16 .ne (decodeNum fs c)
    | f => (convertNarrow f .ne (decodeNum fs c)).1

/-- The elements of an add or max, one after another. -/
def State.combineTile (s : State) (e : Issuer) (op : Nat) (dst : TileRef) :
    List (Nat × Nat × Nat) → State × List Nat × DWord
  | [] => (s, [], 0)
  | (i, j, c) :: r =>
    let (s, ks, st) := s.updateElem e op (trFormat dst.record) (trSpace dst.record)
      (elemAddrs dst.record (dst.at i j).1 (dst.at i j).2 dst.i2 0).1 c
    let (s, ks', st') := State.combineTile s e op dst r
    (s, ks ++ ks', statusMerge st st')

/-- The writes of a tile command from its source codes. -/
def State.writeTile (s : State) (e : Issuer) (op : Nat) (src dst : TileRef) (cs : List (Nat × Nat × Nat)) :
    State × List Nat × DWord :=
  if op = 0 then
    s.tileWriteAll e dst 0 (cs.map fun c => (c.1, c.2.1, copyCode (trFormat src.record) (trFormat dst.record) c.2.2))
  else s.combineTile e op dst cs

/-- The byte addresses of a tile's elements at a list of positions. -/
def TileRef.addrs (t : TileRef) (ps : List (Nat × Nat)) : List Nat :=
  (ps.filter fun p => t.formed p.1 p.2).flatMap fun p => (elemAddrs t.record (t.at p.1 p.2).1 (t.at p.1 p.2).2 t.i2 0).1

def CopyCmd.completion (c : CopyCmd) : Completion :=
  ⟨c.seq, c.who, c.unit, c.env.det, c.bar, c.handle, c.bytes, 0, c.status⟩

/-- The queue a copy command stands in: accepted, or with its data read and its writes held (R155). -/
def Die.withCopy (d : Die) (held : Bool) (q : List CopyCmd) : Die := if held then { d with heldT := q } else { d with copyQ := q }
def Die.copies (d : Die) (held : Bool) : List CopyCmd := if held then d.heldT else d.copyQ

/-- A command leaves its queue. -/
def State.dropCopy (s : State) (die : Nat) (held : Bool) (i : Nat) : State :=
  let d := s.die die
  s.setDie die (d.withCopy held ((d.copies held).eraseIdx i))

/-- A command stands changed in its queue. -/
def State.setCopy (s : State) (die : Nat) (held : Bool) (i : Nat) (c : CopyCmd) : State :=
  let d := s.die die
  s.setDie die (d.withCopy held ((d.copies held).set i c))

/-- A command's writes have performed: it waits for its peers' acknowledgements, its commit takes over, or it counts
and leaves (R150, R162, R178). -/
def State.endCopy (before s : State) (die : Nat) (held : Bool) (i : Nat) (c : CopyCmd) (repl : Bool) (ks : List Nat) : State :=
  let e := c.issuer die
  let now := (s.die die).time
  if repl then
    (State.commitWrites before s e ks (c.time.map fun t => (t, c.throttle, c.dest)) c.completion).dropCopy die held i
  else
  let s := s.cleanUnits c.unit ks
  if s.goesOut c.unit ∧ ks.any isPeerKey then
    (s.sendWrites ks (cmdRequest die c.seq c.unit now c.env.det)).setCopy die held i { c with stage := 2 }
  else (s.dropCopy die held i).complete c.completion now

/-- A copy command whose reads cannot go on: it waits for a walk slot (R311), or for a locked replica, from the die time
at which it first met it (R179, R180). -/
def State.stallCopy (s t : State) (die : Nat) (held : Bool) (i : Nat) (c : CopyCmd) (st : DWord) : Out :=
  if metWait st then .next (s.keepMisses t die)
  else if c.stall.isSome then .refused .notDue
  else .next (s.setCopy die held i { c with stall := some (s.die die).time })

/-- The write half of a tile command. It waits while one of its misses has no walk slot (R311), while an element that it adds to
is locked, and while another commit to its bytes is under way (R179). -/
def State.performTile (s : State) (die : Nat) (held : Bool) (i : Nat) (c : CopyCmd) (op : Nat) (src dst : TileRef)
    (cs : List (Nat × Nat × Nat)) (st : DWord) : Out :=
  let r := s.writeTile (c.issuer die) op src dst cs
  let repl := trRepl dst.record && !c.env.det
  if metWait r.2.2 || metLock r.2.2 then s.stallCopy r.1 die held i c r.2.2
  else if repl && s.commitPending die r.2.1 then .refused .notDue
  else
    let c := { c with bytes := dst.byteCount, status := statusMerge c.status (statusMerge st r.2.2) }
    let s' := if trRepl dst.record ∧ c.env.det then r.1.spreadWrites (c.issuer die) r.2.1 else r.1
    .next (State.endCopy s s' die held i c repl r.2.1)

/-- The command counts after its peers have acknowledged. -/
def State.countCopy (s : State) (die : Nat) (held : Bool) (i : Nat) (c : CopyCmd) : State :=
  (s.dropCopy die held i).complete c.completion (s.die die).time

/-! Bulk-queue work: one entry's transfer (R159). -/

/-- The fields of a bulk entry (Table 12). -/
def beOp (r : BitVec 256) : Nat := recField r 0 2
def beFlag (r : BitVec 256) (b : Nat) : Bool := recBits r 2 b 1 == 1
def beSource (r : BitVec 256) : Nat := if beFlag r 0 then recField r 4 4 else recBits r 4 0 56
def beDest (r : BitVec 256) : Nat := if beFlag r 1 then recField r 12 4 else recBits r 12 0 56
def beLength (r : BitVec 256) : Nat := recField r 20 4
def beCompl (r : BitVec 256) : Nat := recField r 24 4
def beDeadl (r : BitVec 256) : Nat := recField r 28 4

/-- Whether an entry keeps the rules of Table 12. Bits [63:32] of SOURCE or DEST beside an ODA must be 0 (DESIGN CHOICE,
log entry 65). -/
def bulkOk (r : BitVec 256) (node : Bool) : Bool :=
  let fill := beOp r == 5
  decide (beOp r ≤ 5) && recBits r 2 5 11 == 0
    && (fill || ((if beFlag r 0 then recField r 8 4 == 0 else recBits r 4 56 8 == 0) && beSource r % 16 == 0))
    && (if beFlag r 1 then recField r 16 4 == 0 else recBits r 12 56 8 == 0) && beDest r % 16 == 0
    && beLength r % 16 == 0 && beLength r != 0 && (node || beFlag r 2 || recBits r 24 16 16 == 0)

/-- The source bytes of an entry: what it reads, or the pattern of FILL. -/
def State.bulkSource (s : State) (e : Issuer) (r : BitVec 256) : State × List Byte × DWord :=
  if beOp r = 5 then (s, (List.replicate (beLength r / 8) (leBytes 8 (recField r 4 8))).flatten, 0)
  else s.engineBytes e (if beFlag r 0 then 0 else 1) ((List.range (beLength r)).map fun i => beSource r + i)

/-- Elements of `w` bytes of a list of bytes. -/
def groupBytes (w : Nat) : Nat → List Byte → List Nat
  | 0, _ => []
  | n + 1, bs => leNat (bs.take w) :: groupBytes w n (bs.drop w)

/-- The transfer of an entry from its source bytes: locations written and status. -/
def State.bulkMove (s : State) (e : Issuer) (r : BitVec 256) (bs : List Byte) : State × List Nat × DWord :=
  let space := if beFlag r 1 then 0 else 1
  match beOp r with
  | 0 => (s, [], 0)
  | 2 => s.combineBytes e 1 .fp32 space 4 (beDest r) (groupBytes 4 (beLength r / 4) bs)
  | 3 => s.combineBytes e 2 .bf16 space 2 (beDest r) (groupBytes 2 (beLength r / 2) bs)
  | 4 => s.combineBytes e 3 .fp32 space 4 (beDest r) (groupBytes 4 (beLength r / 4) bs)
  | _ => s.engineWrite e space (cellsAt (beDest r) bs)

/-- The addresses that an entry reads. -/
def bulkReads (r : BitVec 256) : List Nat :=
  if beOp r = 0 ∨ beOp r = 5 then [] else (List.range (beLength r)).map fun i => beSource r + i

/-- A unit of an engine node has ended with its command (R183, R191); such a unit has no agent, and its kind is
`.sup`. -/
def State.endNode (s : State) (u : UnitKey) : State :=
  match s.unit u with
  | some x => if x.kind = .sup then s.setUnit { x with ended := true } else s
  | none => s

/-- The addresses of its destination that an entry reads: those of an elementwise operation. -/
def bulkUpdates (r : BitVec 256) : List Nat :=
  if 2 ≤ beOp r ∧ beOp r ≤ 4 then (List.range (beLength r)).map fun i => beDest r + i else []

/-- The peers' locations that an entry reads. -/
def State.bulkPeers (s : State) (e : Issuer) (r : BitVec 256) : List Nat :=
  s.peerKeysOf e (if beFlag r 0 then 0 else 1) (bulkReads r) ++ s.peerKeysOf e (if beFlag r 1 then 0 else 1) (bulkUpdates r)

/-- COPY_COMMAND_COMPLETE (R154): a tile command or a copy node performs and counts. A command that reads a peer first
asks it; one that meets a locked replica stalls; a CPYT's writes are held from here (R155). -/
def execCopyCommandComplete (die i : Nat) (s : State) : Out :=
  match (s.die die).copyQ[i]? with
  | none => .refused .notDue
  | some c =>
    let e := c.issuer die
    let now := (s.die die).time
    if !s.answered die c.seq then .refused .notDue
    else
      match c.work with
      | .rows .. => .refused .notDue
      | .tile op src dst =>
        let ps := dst.positions
        let peers := s.peerKeysOf e (trSpace src.record) (src.addrs ps)
          ++ if op = 0 then [] else s.peerKeysOf e (trSpace dst.record) (dst.addrs ps)
        if c.stage = 2 then .next (s.countCopy die false i c)
        else if c.stage = 0 ∧ !peers.isEmpty then
          .next ((s.sendReads peers (cmdRequest die c.seq c.unit now c.env.det)).setCopy die false i { c with stage := 1 })
        else
          let r := s.readCodes e src ps
          if metLock r.2.2 || metWait r.2.2 then s.stallCopy r.1 die false i c r.2.2
          else if c.time.isSome then
            let s := r.1.dropCopy die false i
            let d := s.die die
            .next (s.setDie die { d with heldT := d.heldT ++ [{ c with codes := r.2.1, status := statusMerge c.status r.2.2 }] })
          else r.1.performTile die false i c op src dst r.2.1 r.2.2
      | .node raw =>
        let peers := s.bulkPeers e raw
        if c.stage = 2 then .next ((s.countCopy die false i c).endNode c.unit)
        else if !bulkOk raw true then .next ((s.dropCopy die false i).endNode c.unit)
        else if c.stage = 0 ∧ !peers.isEmpty then
          .next ((s.sendReads peers (cmdRequest die c.seq c.unit now c.env.det)).setCopy die false i { c with stage := 1 })
        else
          let r := s.bulkSource e raw
          let t := r.1.bulkMove e raw r.2.1
          if metLock r.2.2 || metWait r.2.2 then s.stallCopy r.1 die false i c r.2.2
          else if metLock t.2.2 || metWait t.2.2 then s.stallCopy t.1 die false i c t.2.2
          else
            let c := { c with status := statusMerge c.status (statusMerge r.2.2 t.2.2) }
            let s := State.endCopy r.1 t.1 die false i c false t.2.1
            .next (if t.2.1.any isPeerKey ∧ s.goesOut c.unit then s else s.endNode c.unit)

/-- Whether a CPYT whose writes are held is to perform now: its T has come and it is in time (R155, R176). -/
def State.copyDue (s : State) (c : CopyCmd) : Bool :=
  !c.missed && c.stage != 2 && c.time.any fun t => s.inTime c.dest c.unit.ctx t

/-- CPYT_WRITE_RELEASE (R155): held writes perform once the destination die's time has reached T. One that a read has gone
ahead of performs late (R176). Writes to replicated pages perform with their commit and those to a peer with its answer, and
whether they are late is judged then. -/
def execCpytWriteRelease (die i : Nat) (s : State) : Out :=
  match (s.die die).heldT[i]? with
  | none => .refused .notDue
  | some c =>
    match c.work, c.time with
    | .tile op src dst, some t =>
      let d := c.dest
      let late := s.isLate c.unit.ctx t (s.die d).time
      if (s.die d).time.toNat < t.toNat ∨ !s.answered die c.seq then .refused .notDue
      else if c.stage = 2 then
        .next ((s.countCopy die true i { c with status := if late then c.status ||| 8 else c.status }).reportLate c.unit d t c.throttle 0)
      else if c.missed && !late then .refused .notDue
      else
        match s.performTile die true i { c with status := if late then c.status ||| 8 else c.status } op src dst c.codes 0 with
        | .next s' =>
          let counted := (s'.die die).heldT.length < (s.die die).heldT.length && !s'.commits? c.seq
          .next (if counted then s'.reportLate c.unit d t c.throttle 0 else s')
        | o => o
    | _, _ => .refused .notDue

/-! GATH and SCAT perform (R156). -/

/-- The cause for which a row that a translation register covers cannot be reached: its peer has no good route (R359). -/
def State.xtFault (s : State) (xt : Xt) (va : BitVec 56) : Option Cause :=
  match xt.space with | .peer node _ => s.routeFault node va | _ => none

/-- The location of one byte of a row and the row's status bits: by FRAME where the whole row is covered, else by the
TLB (R97, R310). Bits 4 to 6 of a status are the model's own while the row is under way, as in a status word: a locked
replica, a consumed uncorrectable error, a miss without a walk slot. -/
def State.rowByte (s : State) (e : Issuer) (xt : Xt) (covered write : Bool) (va : BitVec 56) : State × Option Nat × Word :=
  if covered then
    if xt.perm.getLsbD (if write then 1 else 0) && (s.xtFault xt va).isNone then (s, some (xt.key va), 1) else (s, none, 5)
  else
    let (s, o) := s.vaByte e.agent.unit (.command e.seq) e.die e.agent.ctx va write false
    match s.peerFault o va, o.place va with
    | some _, _ => (s, none, 5)
    | none, some k => (s, some k, 1)
    | none, none => (s, none, outcomeRow o ||| (if o = .waits then 0x40 else if o = .retired ∧ !write then 0x20 else 0))

/-- The bytes of a row from byte `off` on: those to be written, each with its VA and location, and the status bits. A poisoned
byte is not delivered (R338), and a SCAT's byte in a reduction region is dropped (R200; log entry 63): both report 0x5. -/
def State.rowBytes (s : State) (e : Issuer) (xt : Xt) (covered gather : Bool) (va : BitVec 56) (lkey : Nat) :
    Nat → Nat → State × List (Nat × Nat × Byte) × Word
  | 0, _ => (s, [], 1)
  | n + 1, off =>
    let (s, k, st) := s.rowByte e xt covered (!gather) (va + BitVec.ofNat 56 off)
    let u := e.agent.unit
    let from' := if gather then k else some (lkey + off)
    let poisoned := from'.any fun k => s.poison.contains (k / 16)
    let locked := gather && k.any fun k => s.replicaLocked e.die k
    let region := !gather && k.any (s.regionBars e)
    let w : Option (Nat × Byte) :=
      if gather then some (lkey + off, match k with | some k => if poisoned then 0 else s.readByte u k | none => 0)
      else if poisoned || region then none else k.map fun k => (k, s.readByte u (lkey + off))
    let (s, ws, st') := State.rowBytes s e xt covered gather va lkey n (off + 1)
    (s, (w.map fun c => (va.toNat + off, c)).toList ++ ws,
      st ||| st' ||| (if poisoned then 0x25 else 0) ||| (if locked then 0x10 else 0) ||| (if region then 5 else 0))

/-- The VA of a lane's row, and whether it lies wholly within the translation register. -/
def rowVa (xt : Xt) (off : Word) : Nat := xt.vbase.toNat + off.toNat
def rowCovered (xt : Xt) (off : Word) (rowb : Nat) : Bool := decide (off.toNat + rowb ≤ xt.limit.toNat)

/-- The rows of a list of lanes: locations written and each lane's status. A row's bytes are one write (R342). -/
def State.moveRows (s : State) (e : Issuer) (gather : Bool) (offs : Lanes) (lbase rowb : Nat) (xt : Xt) :
    List Nat → State × List Nat × List (Nat × Nat)
  | [] => (s, [], [])
  | l :: r =>
    let va := rowVa xt (offs.at l)
    let p := e.agent.place
    let (s, ks, st) :=
      if 2 ^ 56 < va + rowb then (s, [], (9 : Word))
      else
        let (s, ws, st) := s.rowBytes e xt (rowCovered xt (offs.at l) rowb) gather (BitVec.ofNat 56 va)
          (localKey p.die p.cluster p.core (lbase + l * rowb)) rowb 0
        let cells := ws.map fun w => w.2
        (if gather then s.writeCells e.agent.unit cells else s.putBytes e 1 ws, cells.map fun c => c.1, st)
    let (s, ks', sts) := State.moveRows s e gather offs lbase rowb xt r
    (s, ks ++ ks', (l, st.toNat) :: sts)

/-- The peers' locations that rows read or write. -/
def State.rowPeers (s : State) (e : Issuer) (offs : Lanes) (rowb : Nat) (xt : Xt) (lanes : List Nat) : List Nat :=
  let within := lanes.filter fun l => decide (rowVa xt (offs.at l) + rowb ≤ 2 ^ 56)
  let vas := fun (c : Bool) => (within.filter fun l => rowCovered xt (offs.at l) rowb == c).flatMap
    fun l => (List.range rowb).map fun i => rowVa xt (offs.at l) + i
  s.peerKeysOf e 1 (vas false) ++ ((vas true).filterMap fun a =>
    let va := BitVec.ofNat 56 a
    if isPeerKey (xt.key va) && (s.xtFault xt va).isNone then some (xt.key va) else none)

/-- The statuses of lanes, each the union of those that a list gives it. -/
def joinRows (lanes : List Nat) (xs : List (Nat × Nat)) : List (Nat × Nat) :=
  lanes.map fun l => (l, (xs.filter fun x => x.1 == l).foldl (fun n x => n ||| x.2) 0)

/-- The statuses arrive in v[D] of the group, if it is still there. -/
def State.arriveRows (s : State) (who : Who) (d : Nat) (em : Word) (sts : List (Nat × Nat)) : State :=
  match s.agent who with
  | none => s
  | some a =>
    let vals := Lanes.merge em (loadedLanes em (sts.map fun x => (x.1, x.2 % 16)) 0) (Store.get Lanes.zero a.v d)
    s.setAgent { a with v := Store.set Lanes.zero a.v d vals,
                        gath := a.gath.map fun g => if g.reg = d then { g with arrived := true } else g }

/-- The rows of a command have moved: a consumed uncorrectable error is reported to its launch (R335, R338), and the
statuses arrive. -/
def State.endRows (s : State) (die i : Nat) (c : CopyCmd) (d : Nat) (em : Word) (sts : List (Nat × Nat)) : State :=
  let t := ((s.dropCopy die false i).forget c.seq).arriveRows c.who d em sts
  if sts.any fun x => x.2 / 32 % 2 == 1 then raiseFor t .uncorrectable c.unit c.env.det .none (s.die die).time 0 else t

/-- GATH_STATUS_ARRIVE (R156): the rows move and the statuses arrive. -/
def execGathStatusArrive (die i : Nat) (s : State) : Out :=
  match (s.die die).copyQ[i]? with
  | none => .refused .notDue
  | some c =>
    match c.work with
    | .rows gather d em offs lbase rowb xt =>
      let e := c.issuer die
      let lanes := allLanes.filter fun l => em.getLsbD l
      let peers := s.rowPeers e offs rowb xt lanes
      let req := cmdRequest die c.seq c.unit (s.die die).time c.env.det
      if !s.answered die c.seq then .refused .notDue
      else if c.stage = 2 then .next (s.endRows die i c d em (joinRows lanes (c.codes.map fun x => (x.1, x.2.1))))
      else if gather ∧ c.stage = 0 ∧ !peers.isEmpty then
        .next ((s.sendReads peers req).setCopy die false i { c with stage := 1 })
      else
        let r := s.moveRows e gather offs lbase rowb xt lanes
        let sts := c.codes ++ r.2.2.map fun x => (x.1, x.2, 0)
        let any := BitVec.ofNat 64 (r.2.2.foldl (fun n x => n ||| x.2) 0)
        if metLock any || metWait any then s.stallCopy r.1 die false i c any
        else
        let s := r.1.cleanUnits c.unit r.2.1
        if !gather ∧ s.goesOut c.unit ∧ r.2.1.any isPeerKey then
          .next ((s.sendWrites r.2.1 req).setCopy die false i { c with stage := 2, codes := sts })
        else .next (s.endRows die i c d em (joinRows lanes (sts.map fun x => (x.1, x.2.1))))
    | _ => .refused .notDue

/-! PGREQ (R157, R318). -/

/-- The outcomes of the pages that a range touches: the walk of each as of a demand read, which alone may meet contention
(R310, R313; DEDUCED, log entry 66). -/
def State.pageOutcomes (s : State) (u : UnitKey) (k : Asker) (die ctx : Nat) : Nat → Nat → State × List (Nat × WalkOutcome)
  | 0, _ => (s, [])
  | n + 1, page =>
    let (s, o) := s.vaByte u k die ctx (BitVec.ofNat 56 (page * 2 ^ 16)) false false
    let (s, r) := State.pageOutcomes s u k die ctx n (page + 1)
    (s, (page, o) :: r)

/-- The location of a byte of a supervisor's own VA. -/
def State.supKey (s : State) (va : Nat) (write : Bool) : Option Nat :=
  match s.peek 8 s.supRoot (BitVec.ofNat 56 va) write with
  | .frame k _ _ => some k
  | _ => none

/-- Bytes written at a supervisor's VA; those on pages that do not translate are dropped. -/
def State.supWrite (s : State) (va : Nat) (bs : List Byte) : State :=
  s.writeMem ((List.range bs.length).filterMap fun i => (s.supKey (va + i) true).map fun k => (k, bs.getD i 0))

/-- Bytes read at a supervisor's VA; poisoned ones read 0 (R338; DEDUCED, log entry 25). -/
def State.supRead (s : State) (va n : Nat) : List Byte :=
  (List.range n).map fun i =>
    match s.supKey (va + i) false with
    | some k => if s.poison.contains (k / 16) then 0 else Memory.read s.mem k
    | none => 0

/-- Supervisor threads that wait at HALT and serve a partition are woken (R284, R318, R324). -/
def State.wakeHalted (s : State) (p : Nat) : State :=
  s.mapAgents fun a => if a.wait = .halt ∧ a.serves p then (a.setWait .none).retire none (a.nextPc 4) true else a

/-- The base of a partition's page-request ring. -/
def State.pgRing (s : State) (p : Nat) : Nat := bitsOf (s.devReg (0x890 + p)) 12 44 * 2 ^ 12

/-- The 15-bit cluster barrier id of an entry (R148). -/
def State.barrierId (s : State) (b : Nat) : Nat := b % 1024 + (s.barrier b).gen * 2 ^ 10

/-- The record of a page request. -/
def pageRecord (va len ctx id : Nat) (time : DWord) : List Byte :=
  leBytes 8 va ++ leBytes 4 len ++ leBytes 1 ctx ++ [0] ++ leBytes 2 id ++ leBytes 8 time.toNat ++ leBytes 8 0

/-- A request joins its partition's ring. -/
def State.queuePage (s : State) (va len : Nat) (bar : Option Nat) : State :=
  let ctx := s.me.ctx
  let p := s.partOf ctx
  let q := s.part p
  let slot := q.pgTail.toNat % 256
  let tail := q.pgTail + 1
  let id := match bar with | some b => s.barrierId b | none => 0
  let s := s.supWrite (s.pgRing p + 64 + 32 * slot) (pageRecord va len ctx id s.now)
  let s := (s.supWrite (s.pgRing p) (leBytes 4 tail.toNat)).releaseSys .device
  ((s.retainOpt bar).setPart p { q with requests := q.requests ++ [⟨ctx, bar, slot⟩], pgTail := tail }).wakeHalted p

/-- The status of PGREQ from its pages (R157, R310): some page unmapped, malformed or retired, then contention or a
full ring, then some page not present. -/
def State.pgStatus (s : State) (ps : List (Nat × WalkOutcome)) : Nat :=
  let p := s.partOf s.me.ctx
  let head := leNat (s.supRead (s.pgRing p + 4) 4)
  let full := ((s.part p).pgTail - BitVec.ofNat 32 head).toNat == 256
  if ps.any fun x => x.2 == .unmapped || x.2 == .format || x.2 == .retired then 3
  else if ps.any fun x => x.2 == .contention then 2
  else if ps.any fun x => x.2 == .notPresent then (if full then 2 else 0)
  else 1

/-- PGREQ (R157). It never faults on its values: a handle that is not live counts as none, operands out of range answer 3,
and g[A][63:56] is ignored (DESIGN CHOICE, log entry 66). -/
def execPgreq (b a d : BitVec 7) (s : State) : Out :=
  guard (gNeed .core [d, a, b]) s fun s =>
    let ctl := s.me.g7 b
    let len := bitsOf ctl 0 32
    let va := bitsOf (s.me.g7 a) 0 56
    let h := ctl.extractLsb' 32 16
    let bar := s.handle h
    if len = 0 ∨ 2 ^ 30 < len ∨ bitsOf ctl 48 16 ≠ 0 ∨ 2 ^ 56 < va + len then .next (s.finishG d 3 true)
    else
      let die := s.me.place.die
      let (t, ps) := s.pageOutcomes s.me.unit (.agent s.me.who) die s.me.ctx ((va + len - 1) / 2 ^ 16 + 1 - va / 2 ^ 16) (va / 2 ^ 16)
      if ps.any fun x => x.2 == .waits then .next (s.keepMisses t die)
      else
        let st := t.pgStatus ps
        let r : Reporter := ⟨s.me.ctx, s.me.unit.launch, some s.me.unit.index, s.me.env.det, h.setWidth 64, s.now⟩
        let t :=
          if st = 1 then (t.retainOpt bar).arriveOpt bar 0 r
          else if st = 0 then
            t.queuePage ((ps.find? fun x => x.2 == .notPresent).elim 0 fun x => x.1 * 2 ^ 16) len bar
          else t
        .next (t.finishG d (BitVec.ofNat 64 st) true)

/-- PAGE_REQUEST_COMPLETE (R318): the command processor sees STATE 1, or the request's context is cancelled; the
barrier's one arrival is made and the reference released. -/
def execPageRequestComplete (part i : Nat) (s : State) : Out :=
  let q := s.part part
  match q.requests[i]? with
  | none => .refused .notDue
  | some r =>
    let done := s.supRead (s.pgRing part + 64 + 32 * r.slot + 13) 1 == [1]
    if done || !(s.ctxReg r.ctx 0x000).getLsbD 0 then
      let s := s.setPart part { q with requests := q.requests.eraseIdx i }
      .next (s.arriveOpt r.bar 0 ⟨r.ctx, 0, none, false, 0, (s.die 8).time⟩)
    else .refused .notDue

end Sys2Proof.Machine
end

