-- ==== Sys2Proof/Machine/Bulk.lean ====
section
/-!
DEFINITION. The bulk queue of a block: publication, the entries taken, their transfers and their completion records
(R158 to R161, R202).
-/
namespace Sys2Proof.Machine

/-- Who acts for a unit's bulk queue: its group 0, on the core whose BCORE is 0 (R158). -/
def State.bulkIssuer (s : State) (x : WorkUnit) : Issuer :=
  let p : Place := ⟨x.die, x.cluster, x.cores.headD 0, 0⟩
  ⟨issuerAgent (.group x.key 0) p x.key x.env, x.die, (s.context x.key.ctx).windows, 0⟩

/-- The locations of `n` bytes of the control block's or a ring's range; none where any has none. -/
def State.bulkKeys (s : State) (e : Issuer) (base n : Nat) : Option (List Nat) :=
  match s.odaBytes e.agent base n with
  | .error _ => none
  | .ok bs => if (odaWindow bs).isSome then none else some (odaKeys bs)

/-- A little-endian number in a queue's memory; poisoned bytes read 0 (R338; DESIGN CHOICE, log entry 67). -/
def State.bulkNum (s : State) (e : Issuer) (base n : Nat) : Nat :=
  match s.bulkKeys e base n with
  | some ks => leNat (ks.map fun k => if s.poison.contains (k / 16) then 0 else s.readByte e.agent.unit k)
  | none => 0

/-- Poisoned bytes that the engines have read in a queue's memory, at spans of it, are reported to its launch (R335, R338). -/
def State.queuePoison (s : State) (x : WorkUnit) (e : Issuer) (spans : List (Nat × Nat)) : State :=
  if spans.any fun p => ((s.bulkKeys e p.1 p.2).getD []).any fun k => s.poison.contains (k / 16)
  then raiseFor s .uncorrectable x.key x.env.det .none (s.die x.die).time 0 else s

/-- A number written in a queue's memory. -/
def State.bulkSet (s : State) (e : Issuer) (base n x : Nat) : State :=
  match s.bulkKeys e base n with
  | some ks => s.writeCells e.agent.unit (ks.zip (leBytes n x))
  | none => s

/-- Whether a number is a power of two from 2 to a limit. -/
def powerUpTo (n limit : Nat) : Bool := decide (2 ≤ n) && decide (n ≤ limit) && n.isPowerOfTwo

/-- Whether two on-die addresses stand in one storage range. -/
def sameRange (a b : Nat) : Bool :=
  storageRanges.any fun x => decide (x.1 ≤ a) && decide (a < x.1 + x.2) && decide (x.1 ≤ b) && decide (b < x.1 + x.2)

/-- The control block as the engines read it (Table 11). -/
def State.readControl (s : State) (e : Issuer) (ctl : Nat) : BulkQueue :=
  { control := ctl, serving := true, published := false, ringBase := BitVec.ofNat 32 (s.bulkNum e ctl 4),
    nent := s.bulkNum e (ctl + 4) 2, cons := BitVec.ofNat 32 (s.bulkNum e (ctl + 12) 4),
    crBase := BitVec.ofNat 32 (s.bulkNum e (ctl + 16) 4), crn := s.bulkNum e (ctl + 20) 2,
    crTail := BitVec.ofNat 32 (s.bulkNum e (ctl + 24) 4), heldRecs := [] }

/-- PROD, the notify word. -/
def State.prodOf (s : State) (e : Issuer) (ctl : Nat) : Word := BitVec.ofNat 32 (s.bulkNum e (ctl + 8) 4)

/-- Whether a control block can serve (R202). -/
def State.controlOk (s : State) (e : Issuer) (q : BulkQueue) : Bool :=
  q.ringBase.toNat % 32 == 0 && powerUpTo q.nent 1024 && q.crBase.toNat % 16 == 0 && powerUpTo q.crn 4096
    && s.bulkNum e (q.control + 6) 2 == 0 && s.bulkNum e (q.control + 22) 2 == 0
    && decide ((s.prodOf e q.control - q.cons).toNat ≤ q.nent)
    && (s.bulkKeys e q.control 32).isSome
    && sameRange q.control q.ringBase.toNat && (s.bulkKeys e q.ringBase.toNat (32 * q.nent)).isSome
    && sameRange q.control q.crBase.toNat && (s.bulkKeys e q.crBase.toNat (16 * q.crn)).isSome

/-- The deadline of an entry taken at a die time (R159). -/
def bulkDeadline (deadl : Nat) (taken : DWord) : Nat :=
  let t := taken.toNat / 2 ^ 40 * 2 ^ 40 + deadl * 2 ^ 8
  if t + 2 ^ 39 < taken.toNat then t + 2 ^ 40 else t

/-- An entry as the engines take it: its handle is resolved now (R159). -/
def State.takeEntry (s : State) (x : WorkUnit) (raw : BitVec 256) (index : Word) : State :=
  let h : Half := BitVec.ofNat 16 (recField raw 24 2)
  let bar := if beFlag raw 2 ∨ h = 0 then none else s.handleIn (.group x.key 0) h
  let bad :=
    if !bulkOk raw false then some Cause.queueEntry
    else if !beFlag raw 2 ∧ h ≠ 0 ∧ bar.isNone then some Cause.barrierHandle else none
  let d := s.die x.die
  let b : BulkEntry :=
    { seq := s.nextSeq, unit := x.key, raw := raw, bar := bar, index := index, taken := d.time, started := false,
      bad := bad, stage := 0, bytes := 0, status := 0, stall := none, windows := (s.context x.key.ctx).windows }
  let s := ({ s with nextSeq := s.nextSeq + 1 }.retainOpt bar).setDie x.die { d with bulkQ := d.bulkQ ++ [b] }
  s.missOnAccept x.die

/-- The entries between CONS and PROD are taken in index order. -/
def State.takeEntries (s : State) (x : WorkUnit) (e : Issuer) (q : BulkQueue) : Nat → Word → State
  | 0, _ => s
  | n + 1, i =>
    let raw := BitVec.ofNat 256 (s.bulkNum e (q.ringBase.toNat + 32 * (i.toNat % q.nent)) 32)
    State.takeEntries (s.takeEntry x raw i) x e q n (i + 1)

/-- The state with a unit's queue as it now is. -/
def State.setBulk (s : State) (u : UnitKey) (q : BulkQueue) : State :=
  match s.unit u with
  | some x => s.setUnit { x with bulk := some q }
  | none => s

/-- A fault of a bulk queue (R158, R202, R335). -/
def State.queueFault (s : State) (x : WorkUnit) : State :=
  raiseFor s .queueEntry x.key x.env.det .none (s.die x.die).time 0

/-- BULK_QUEUE_PUBLISH (R160, R202): a release to PROD has performed. The first brings the queue into service; the engines
then take what lies between CONS and PROD, and hold CONS whatever the program wrote there. Of a saved unit they take
nothing: its entries stay in the ring. -/
def execBulkQueuePublish (u : UnitKey) (s : State) : Out :=
  match s.unit u with
  | none => .refused .notDue
  | some x =>
    match x.bulk with
    | none => .refused .notDue
    | some b =>
      if !b.published || x.saved then .refused .notDue
      else
        let e := s.bulkIssuer x
        let q := if b.serving then { b with published := false } else s.readControl e b.control
        let s := s.queuePoison x e [(b.control, 32)]
        if !b.serving ∧ !s.controlOk e q then .next ((s.setBulk u { b with published := false }).queueFault x)
        else
          let prod := s.prodOf e q.control
          let n := (prod - q.cons).toNat
          if q.nent < n then .next ((s.setBulk u q).queueFault x)
          else
            let s := s.queuePoison x e ((List.range n).map fun i => (q.ringBase.toNat + 32 * ((q.cons.toNat + i) % q.nent), 32))
            let s := (s.takeEntries x e q n q.cons).bulkSet e (q.control + 12) 4 prod.toNat
            .next (s.setBulk u { q with cons := prod })

/-- Whether an entry may start: with ORDER set, every earlier entry of its ring has completed (R160). -/
def bulkReady (q : List BulkEntry) (i : Nat) (b : BulkEntry) : Bool :=
  !b.started && (!beFlag b.raw 4 || !((q.take i).any fun c => c.unit == b.unit))

/-- Whether a unit is deterministic. -/
def State.unitDet (s : State) (u : UnitKey) : Bool := ((s.unit u).map fun x => x.env.det).getD false

/-- The deadline that an entry has: none in deterministic mode (R160). -/
def State.deadlineOf (s : State) (b : BulkEntry) : Option Nat :=
  if beFlag b.raw 3 ∧ !s.unitDet b.unit then some (bulkDeadline (beDeadl b.raw) b.taken) else none

/-- Whether a deadline goes before another: earlier ones first, and any before none. -/
def deadlineBefore : Option Nat → Option Nat → Bool
  | some a, some b => decide (a < b)
  | some _, none => true
  | none, _ => false

/-- The entry that starts next among those that are ready: the earliest deadline, then the order taken (R160). -/
def State.nextBulk (s : State) (q : List BulkEntry) : List (Nat × BulkEntry) → Option (Nat × BulkEntry) → Option (Nat × BulkEntry)
  | [], best => best
  | (i, b) :: r, best =>
    if bulkReady q i b then
      match best with
      | none => State.nextBulk s q r (some (i, b))
      | some (k, c) => State.nextBulk s q r (if deadlineBefore (s.deadlineOf b) (s.deadlineOf c) then some (i, b) else some (k, c))
    else State.nextBulk s q r best

/-- Numbered elements of a list. -/
def numbered {α : Type} (xs : List α) : List (Nat × α) := (List.range xs.length).zip xs

/-- BULK_ENTRY_START (R160). -/
def execBulkEntryStart (die : Nat) (s : State) : Out :=
  let d := s.die die
  match s.nextBulk d.bulkQ (numbered d.bulkQ) none with
  | none => .refused .notDue
  | some (i, b) => .next (s.setDie die { d with bulkQ := d.bulkQ.set i { b with started := true } })

/-- A completion record (Table 13). -/
def bulkRecord (b : BulkEntry) (st : DWord) (time : DWord) : BitVec 128 :=
  let stat := (bit64 (st.getLsbD 0)).toNat + 2 * (bit64 (st.getLsbD 1)).toNat + 4 * (bit64 (st.getLsbD 2)).toNat
    + 8 * (bit64 (st.getLsbD 3)).toNat
  BitVec.ofNat 128 (leNat (leBytes 4 (beCompl b.raw) ++ leBytes 2 stat
    ++ leBytes 2 (if st.getLsbD 1 then bitsOf st 8 8 else 0) ++ leBytes 8 time.toNat))

/-- Held records are written while the completion ring has room, and CRTAIL advances with each (R161). -/
def State.writeRecords (s : State) (x : WorkUnit) (e : Issuer) : Nat → BulkQueue → State
  | 0, q => s.setBulk x.key q
  | n + 1, q =>
    let head := BitVec.ofNat 32 (s.bulkNum e (q.control + 28) 4)
    match q.heldRecs with
    | [] => s.setBulk x.key q
    | r :: rs =>
      if (q.crTail - head).toNat = q.crn then s.setBulk x.key q
      else
        let s := s.bulkSet e (q.crBase.toNat + 16 * (q.crTail.toNat % q.crn)) 16 r.toNat
        let s := s.bulkSet e (q.control + 24) 4 (q.crTail + 1).toNat
        State.writeRecords s x e n { q with crTail := q.crTail + 1, heldRecs := rs }

/-- A record joins those of its unit, in completion order, and what fits is written. -/
def State.addRecord (s : State) (u : UnitKey) (r : BitVec 128) : State :=
  match s.unit u with
  | some x =>
    match x.bulk with
    | some q => (s.queuePoison x (s.bulkIssuer x) [(q.control + 28, 4)]).writeRecords x (s.bulkIssuer x) (q.heldRecs.length + 1) { q with heldRecs := q.heldRecs ++ [r] }
    | none => s
  | none => s

/-- An entry completes: LATE by its deadline, then its record, or its count on its barrier (R160, R161). -/
def State.endBulk (s : State) (die i : Nat) (b : BulkEntry) (st : DWord) : State :=
  let d := s.die die
  let late := (s.deadlineOf b).any fun t => decide (t < d.time.toNat)
  let st := if late then st ||| 8 else st
  let det := s.unitDet b.unit
  let s := s.setDie die { d with bulkQ := d.bulkQ.eraseIdx i }
  let bar := if beFlag b.raw 2 then none else b.bar
  let s := s.complete ⟨b.seq, .group b.unit 0, b.unit, det, bar, BitVec.ofNat 16 (beCompl b.raw), beLength b.raw, 0, st⟩ d.time
  if beFlag b.raw 2 then s.addRecord b.unit (bulkRecord b st (if det then 0 else d.time)) else s

/-- BULK_ENTRY_COMPLETE (R159, R161): a started entry transfers its bytes and completes; a bad one completes in error
and moves nothing. -/
def execBulkEntryComplete (die i : Nat) (s : State) : Out :=
  let d := s.die die
  match d.bulkQ[i]? with
  | none => .refused .notDue
  | some b =>
    match s.unit b.unit with
    | none => .refused .notDue
    | some x =>
      let e : Issuer := { s.bulkIssuer x with windows := b.windows, seq := b.seq }
      let req := cmdRequest die b.seq b.unit d.time x.env.det
      let peers := s.bulkPeers e b.raw
      if !b.started ∨ !s.answered die b.seq then .refused .notDue
      else
        match b.bad with
        | some c => .next (s.endBulk die i b (errStatus c))
        | none =>
          if b.stage = 2 then .next (s.endBulk die i b b.status)
          else if b.stage = 0 ∧ !peers.isEmpty then
            .next ((s.sendReads peers req).setDie die { d with bulkQ := d.bulkQ.set i { b with stage := 1 } })
          else
            let r := s.bulkSource e b.raw
            let t := r.1.bulkMove e b.raw r.2.1
            if metWait r.2.2 || metWait t.2.2 then .next (s.keepMisses t.1 die)
            else if metLock r.2.2 || metLock t.2.2 then
              if b.stall.isSome then .refused .notDue
              else .next (s.setDie die { d with bulkQ := d.bulkQ.set i { b with stall := some d.time } })
            else
              let st := statusMerge b.status (statusMerge r.2.2 t.2.2)
              let s := t.1.cleanUnits b.unit t.2.1
              if s.goesOut b.unit ∧ t.2.1.any isPeerKey then
                let s := s.sendWrites t.2.1 req
                let d := s.die die
                .next (s.setDie die { d with bulkQ := d.bulkQ.set i { b with stage := 2, status := st } })
              else .next (s.endBulk die i b st)

/-- COMPLETION_RECORD_WRITE (R161): held records are written once CRHEAD has advanced. -/
def execCompletionRecordWrite (u : UnitKey) (s : State) : Out :=
  match s.unit u with
  | none => .refused .notDue
  | some x =>
    match x.bulk with
    | none => .refused .notDue
    | some q =>
      let e := s.bulkIssuer x
      let head := BitVec.ofNat 32 (s.bulkNum e (q.control + 28) 4)
      if x.saved ∨ q.heldRecs.isEmpty ∨ (q.crTail - head).toNat = q.crn then .refused .notDue
      else .next ((s.queuePoison x e [(q.control + 28, 4)]).writeRecords x e q.heldRecs.length q)

end Sys2Proof.Machine
end

