-- ==== Sys2Proof/Machine/KvCache.lean ====
section
/-!
DEFINITION. The KV space of a context: its geometry, the residency map, the residency instructions, and what the
supervisor does when frames run short (R236 to R238, R249 to R253).
-/
namespace Sys2Proof.Machine

/-! Geometry and pages (R236, R237). -/

/-- The KV geometry of a context: format and head dimension, if one is set. -/
def State.kvGeom (s : State) (ctx : Nat) : Option (Fmt × Nat) :=
  let x := s.ctxReg ctx 0x006
  if x.getLsbD 2 then some (if x.getLsbD 0 then .e4m3 else .bf16, if x.getLsbD 1 then 128 else 64) else none

/-- RB, the bytes of one row (R237). -/
def rowBytesOf (f : Fmt) (hd : Nat) : Nat := hd * f.bytes

/-- The bytes of a page's frame. -/
def State.kvFrameBytes (s : State) (ctx : Nat) : Nat := (s.kvGeom ctx).elim 0 fun x => 128 * rowBytesOf x.1 x.2

/-- A page of a KV space. -/
structure KvPage where
  seq  : Nat
  head : Nat
  page : Nat
deriving DecidableEq, Repr

def KvPage.index (p : KvPage) : Nat := (p.seq * 256 + p.head) * 16384 + p.page
def kvSeqOf (index : Nat) : Nat := index / (256 * 16384)

/-! Residency-map entries (Table 1). -/

def kvState (e : DWord) : Nat := bitsOf e 62 2
def kvPins (e : DWord) : Nat := bitsOf e 56 4
def kvRefs (e : DWord) : Nat := bitsOf e 48 8
def kvAddr (e : DWord) : Nat := bitsOf e 0 48

/-- An entry of its fields. -/
def kvEntry (state pins refs addr : Nat) : DWord :=
  BitVec.ofNat 64 (state * 2 ^ 62 + pins * 2 ^ 56 + refs * 2 ^ 48 + addr)

/-- The frame of a RESIDENT entry: its physical address. -/
def kvFrame (e : DWord) : Nat := kvAddr e * 16

def Context.kv (c : Context) (p : KvPage) : DWord := Store.get 0 c.kvmap p.index

def Context.setKv (c : Context) (p : KvPage) (e : DWord) : Context := { c with kvmap := Store.set 0 c.kvmap p.index e }

/-- REFS of every entry that names a frame changed by `f`; a frame whose REFS reaches 0 joins the free frames. -/
def Context.mapRefs (c : Context) (addr : Nat) (f : Nat → Nat) : Context :=
  { c with kvmap := c.kvmap.map fun x =>
      if kvState x.2 = 1 ∧ kvAddr x.2 = addr then (x.1, kvEntry 1 (kvPins x.2) (f (kvRefs x.2)) addr) else x }

/-- An entry leaves its frame: the others that name it have one reference less, and a frame that no entry names is
free (R238). -/
def Context.leaveFrame (c : Context) (p : KvPage) (new : DWord) : Context :=
  let e := c.kv p
  let c := c.setKv p new
  if kvState e = 1 then
    if kvRefs e ≤ 1 then { c with kvFree := c.kvFree ++ [kvAddr e] } else c.mapRefs (kvAddr e) (· - 1)
  else c

/-- The frames that a context has: its free ones, and those that its pages lie in. -/
def Context.frames (c : Context) : List Nat :=
  (c.kvFree ++ (c.kvmap.filter fun x => kvState x.2 == 1).map fun x => kvAddr x.2).eraseDups

/-! The sequence table (R252). -/

/-- A sequence-table entry and where it stands. -/
structure SeqEntry where
  va     : Nat
  seq    : Nat
  prio   : Nat
  state  : Nat
  tokens : Nat
  bytes  : Nat
  rateps : Nat
deriving DecidableEq, Repr

def State.seqTable (s : State) (ctx : Nat) : Nat := (s.ctxReg ctx 0x009).toNat % 2 ^ 56

/-- BWUS, the swap bandwidth. -/
def State.bwus (s : State) (ctx : Nat) : Nat := s.ctxNum ctx (s.seqTable ctx) 4

/-- The entries in use of a context's sequence table, which follow its header; with SEQTAB 0 there is no table (DESIGN CHOICE, log
entry 24). -/
def State.seqEntries (s : State) (ctx : Nat) : List SeqEntry :=
  if s.seqTable ctx = 0 then [] else
  ((List.range 65536).map fun i =>
    let va := s.seqTable ctx + 32 + 32 * i
    (⟨va, s.ctxNum ctx va 2, s.ctxNum ctx (va + 2) 1, s.ctxNum ctx (va + 3) 1, s.ctxNum ctx (va + 4) 4, s.ctxNum ctx (va + 8) 8,
      s.ctxNum ctx (va + 16) 4⟩ : SeqEntry)).filter fun e => e.state != 0

/-- LASTUSE of a sequence takes the time of a DCE command on it. -/
def State.touchSeq (s : State) (ctx seq : Nat) (time : DWord) : State :=
  if s.seqTable ctx = 0 then s
  else
    match (s.seqEntries ctx).find? fun e => e.seq == seq with
    | some e => s.ctxWrite ctx (e.va + 24) (leBytes 8 time.toNat)
    | none => s

/-- The bytes of the frames that a sequence alone holds. -/
def Context.soleBytes (c : Context) (frame seq : Nat) : Nat :=
  frame * (c.kvmap.filter fun x => kvSeqOf x.1 == seq && kvState x.2 == 1 && kvRefs x.2 == 1).length

/-- BYTES of every entry after the map has changed. -/
def State.refreshSeqs (s : State) (ctx : Nat) : State :=
  if s.seqTable ctx = 0 then s
  else
    (s.seqEntries ctx).foldl (fun s e =>
      s.ctxWrite ctx (e.va + 8) (leBytes 8 ((s.context ctx).soleBytes (s.kvFrameBytes ctx) e.seq))) s

/-- A sequence's STATE is set. -/
def State.setSeqState (s : State) (ctx seq st : Nat) : State :=
  if s.seqTable ctx = 0 then s
  else
    match (s.seqEntries ctx).find? fun e => e.seq == seq with
    | some e => s.ctxWrite ctx (e.va + 3) (leBytes 1 st)
    | none => s

/-- A sequence's TOKENS, the positions that it holds, changed (DEDUCED, log entry 24). -/
def State.setTokens (s : State) (ctx seq : Nat) (f : Nat → Nat) : State :=
  if s.seqTable ctx = 0 then s
  else
    match (s.seqEntries ctx).find? fun e => e.seq == seq with
    | some e => s.ctxWrite ctx (e.va + 4) (leBytes 4 (f e.tokens))
    | none => s

/-! KV references and the residency instructions (R236, R249 to R251). -/

def kvSeq (g : DWord) : Nat := bitsOf g 0 16
def kvHead (g : DWord) : Nat := bitsOf g 16 8
def kvPos (g : DWord) : Nat := bitsOf g 24 20
def kvNh (g : DWord) : Nat := bitsOf g 44 8 + 1

/-- Whether a KV reference is legal (R236). -/
def kvRefOk (g : DWord) : Bool := bitsOf g 52 12 == 0 && decide (kvHead g + kvNh g ≤ 256)

/-- The pages of heads `head` to `head + nh − 1` from page `page` on. -/
def kvPages (seq head nh page npg : Nat) : List KvPage :=
  (List.range nh).flatMap fun h => (List.range npg).map fun p => ⟨seq, head + h, page + p⟩

/-- KVRES (R249). -/
def execKvres (a d : BitVec 7) (s : State) : Out :=
  guard (gNeed .core [d, a]) s fun s =>
    let g := s.me.g7 a
    if !kvRefOk g ∨ kvNh g ≠ 1 then .next (takeTrap s .illegalField)
    else if s.me.env.det then .next (takeTrap s .detViolation)
    else
      let e := (s.context s.me.ctx).kv ⟨kvSeq g, kvHead g, kvPos g / 64⟩
      .next (s.finishG d (e &&& 0xFFFF_0000_0000_0000) true)

/-- The pages of a KV reference and a page count; none where the count is out of its range. -/
def kvSpan (g : DWord) (npg : Nat) : Option (List KvPage) :=
  if 1 ≤ npg ∧ kvPos g / 64 + npg ≤ 16384 then some (kvPages (kvSeq g) (kvHead g) (kvNh g) (kvPos g / 64) npg) else none

/-- The status of KVPIN (R251): all pages or none. -/
def Context.pinStatus (c : Context) (ps : List KvPage) : Nat :=
  if ps.any fun p => kvState (c.kv p) != 1 then 1
  else if ps.any fun p => kvPins (c.kv p) == 15 then 2 else 0

/-- The pins of pages changed. -/
def Context.setPins (c : Context) (ps : List KvPage) (f : Nat → Nat) : Context :=
  ps.foldl (fun c p =>
    let e := c.kv p
    c.setKv p (kvEntry (kvState e) (f (kvPins e)) (kvRefs e) (kvAddr e))) c

/-- KVPIN and KVREL: the status from the pages, and the change of pins for status 0. -/
def pinForm (status : Context → List KvPage → Nat) (f : Nat → Nat) (b a d : BitVec 7) (s : State) : Out :=
  guard (gNeed .core [d, a, b]) s fun s =>
    let g := s.me.g7 a
    let w := s.me.g7 b
    if !kvRefOk g ∨ bitsOf w 15 49 ≠ 0 then .next (takeTrap s .illegalField)
    else
      let c := s.context s.me.ctx
      match kvSpan g (bitsOf w 0 15) with
      | none => .next (s.finishG d 1 true)
      | some ps =>
        let st := status c ps
        let s := if st = 0 then s.setContext s.me.ctx (c.setPins ps f) else s
        .next (s.finishG d (BitVec.ofNat 64 st) true)

/-- KVPIN (R251). -/
def execKvpin (b a d : BitVec 7) (s : State) : Out := pinForm Context.pinStatus (· + 1) b a d s

/-- The status of KVREL (R251). -/
def Context.unpinStatus (c : Context) (ps : List KvPage) : Nat := if ps.all fun p => kvPins (c.kv p) != 0 then 0 else 1

/-- KVREL (R251). -/
def execKvrel (b a d : BitVec 7) (s : State) : Out := pinForm Context.unpinStatus (· - 1) b a d s

/-- The pages of a request. -/
def KvRequest.pages (r : KvRequest) : List KvPage := kvPages r.seq r.head r.nh r.page r.npg

/-- The pages of a request that need a frame: SWAPPED ones of RESIDE, UNMAPPED and DROPPED ones of ALLOC. -/
def Context.wanted (c : Context) (r : KvRequest) : List KvPage :=
  r.pages.filter fun p =>
    let st := kvState (c.kv p)
    match r.op with
    | 0 => st == 2
    | 1 => st == 0 || st == 3
    | _ => false

/-- Whether a request is refused (R250). -/
def Context.refuses (c : Context) (r : KvRequest) : Bool :=
  match r.op with
  | 0 => r.pages.any fun p => let st := kvState (c.kv p); st == 0 || st == 3
  | 1 => false
  | _ => r.pages.any fun p =>
      kvState (c.kv { p with seq := r.tseq }) != 0 || kvState (c.kv p) != 1 || decide (255 ≤ kvRefs (c.kv p))

/-- Whether a sequence has a pinned page. -/
def Context.hasPinned (c : Context) (seq : Nat) : Bool := c.kvmap.any fun x => kvSeqOf x.1 == seq && kvPins x.2 != 0

/-- The candidates for a victim on behalf of a sequence (R253). -/
def State.candidates (s : State) (ctx req : Nat) : List SeqEntry :=
  (s.seqEntries ctx).filter fun e => e.state == 1 && e.seq != req && !(s.context ctx).hasPinned e.seq

/-- The frame quota of a context, in frames (CR.FRAMEQ). -/
def State.frameQuota (s : State) (ctx : Nat) : Nat := bitsOf (s.ctxReg ctx 0x008) 0 32

/-- Whether the frame quota cannot hold a request even after pre-emption (R250): its frames beside those in which some
sequence that cannot be a victim has a page. -/
def State.overQuota (s : State) (ctx : Nat) (r : KvRequest) : Bool :=
  let c := s.context ctx
  let can := (s.candidates ctx r.seq).map SeqEntry.seq
  let fixed := ((c.kvmap.filter fun x => kvState x.2 == 1 && !can.contains (kvSeqOf x.1)).map fun x => kvAddr x.2).eraseDups
  decide (s.frameQuota ctx < (c.wanted r).length + fixed.length)

/-- The status that KVREQ answers (R250). -/
def State.kvStatus (s : State) (ctx : Nat) (r : KvRequest) : Nat :=
  let c := s.context ctx
  if c.refuses r then 3
  else if r.op ≠ 2 ∧ (c.wanted r).isEmpty then 1
  else if s.overQuota ctx r then 4
  else if Config.kvQueueMore + 1 ≤ c.kvReqs.length then 2 else 0

/-- KVREQ (R250). It never faults on its values: a handle that is not live counts as none (DESIGN CHOICE, log entry 66). -/
def execKvreq (b a d : BitVec 7) (s : State) : Out :=
  guard (gNeed .core [d, a, b]) s fun s =>
    let g := s.me.g7 a
    let w := s.me.g7 b
    let op := bitsOf w 32 2
    let ctx := s.me.ctx
    if !kvRefOk g ∨ op = 3 ∨ bitsOf w 34 14 ≠ 0 ∨ w.getLsbD 15 ∨ (op ≠ 2 ∧ bitsOf w 48 16 ≠ 0)
    then .next (takeTrap s .illegalField)
    else
      let bar := s.handle (w.extractLsb' 16 16)
      let r : KvRequest :=
        { op := op, seq := kvSeq g, tseq := bitsOf w 48 16, head := kvHead g, nh := kvNh g, page := kvPos g / 64,
          npg := bitsOf w 0 15, bar := bar, handle := w.extractLsb' 16 16, unit := s.me.unit, det := s.me.env.det,
          regs := s.regsOf ctx }
      let st := if (kvSpan g r.npg).isNone then 3 else s.kvStatus ctx r
      let c := s.context ctx
      let s :=
        if st = 0 then (s.retainOpt bar).setContext ctx { c with kvReqs := c.kvReqs ++ [r] }
        else if st = 1 then
          (s.retainOpt bar).arriveOpt bar 0 ⟨ctx, s.me.unit.launch, some s.me.unit.index, s.me.env.det, r.handle.setWidth 64, s.now⟩
        else s
      .next (s.finishG d (BitVec.ofNat 64 st) true)

/-! The supervisor's work (R250, R253). -/

/-- The location of a byte of the host memory to which pages are swapped, by host VA. -/
def swapKey (va : Nat) : Nat := 2 ^ 58 + va

/-- The bytes of a frame moved from one run of locations to another; a poisoned unit stays poisoned (R338). -/
def State.moveFrame (s : State) (src dst n : Nat) : State :=
  let t := s.writeMem ((List.range n).map fun i => (dst + i, Memory.read s.mem (src + i)))
  let bad := (s.poison.filter fun q => decide (src ≤ q * 16) && decide (q * 16 < src + n)).map fun q => q + dst / 16 - src / 16
  { t with poison := t.poison ++ bad }

/-- Whether a range meets a retired frame (R348). -/
def State.meetsRetired (s : State) (pa n : Nat) : Bool :=
  (s.retired ++ s.overflow).any fun r => decide (r < pa + n) && decide (pa < r + 2 ^ 16)

/-- A record of the context's KV event ring (R253). -/
def State.kvEvent (s : State) (ctx seq action prio moved : Nat) : State :=
  let c := s.context ctx
  let ring := s.ctxReg ctx 0x00A
  let n := bitsOf ring 0 12 * 16
  let s := s.setContext ctx { c with kvEvents := c.kvEvents + 1 }
  if n = 0 then s
  else s.ctxWrite ctx (bitsOf ring 12 44 * 2 ^ 12 + 16 * (c.kvEvents % n))
    (leBytes 2 seq ++ leBytes 1 action ++ leBytes 1 prio ++ leBytes 4 moved ++ leBytes 8 (s.die 8).time.toNat)

/-- A wanted page takes the first free frame: zeroed for ALLOC, filled from the host for RESIDE. Where a frame was free, nothing
that has asked for one is left wanting (R248, R253). -/
def State.givePage (s : State) (ctx : Nat) (p : KvPage) : State :=
  let c := s.context ctx
  match c.kvFree with
  | [] => s
  | f :: free =>
    let e := c.kv p
    let n := s.kvFrameBytes ctx
    let s :=
      if kvState e = 2 then s.moveFrame (swapKey (kvAddr e * 256)) (f * 16) n
      else s.writeMem (cellsAt (f * 16) (List.replicate n 0))
    s.setContext ctx ({ c with kvFree := free, kvAsk := [] }.setKv p (kvEntry 1 (kvPins e) 1 f))

/-- A page of the target sequence names the frame of the source's page (R250). -/
def Context.forkPage (c : Context) (tseq : Nat) (p : KvPage) : Context :=
  let e := c.kv p
  let c := c.mapRefs (kvAddr e) (· + 1)
  c.setKv { p with seq := tseq } (kvEntry 1 0 (kvRefs e + 1) (kvAddr e))

/-- The positions that the target of a FORK holds then: those of the source up to the end of the pages named. -/
def State.forkTokens (s : State) (ctx : Nat) (r : KvRequest) : State :=
  let n := ((s.seqEntries ctx).find? fun e => e.seq == r.seq).elim 0 SeqEntry.tokens
  s.setTokens ctx r.tseq fun t => max t (min n (64 * (r.page + r.npg)))

/-- The effect of a request whose frames are at hand. -/
def State.runRequest (s : State) (ctx : Nat) (r : KvRequest) : State :=
  let c := s.context ctx
  if r.op = 2 then
    ((s.setContext ctx (r.pages.foldl (fun c p => c.forkPage r.tseq p) c)).refreshSeqs ctx).forkTokens ctx r
  else
    let ps := c.wanted r
    let s := (ps.foldl (fun s p => s.givePage ctx p) s).refreshSeqs ctx
    let s := s.setSeqState ctx r.seq 1
    let prio := ((s.seqEntries ctx).find? fun e => e.seq == r.seq).elim 0 SeqEntry.prio
    if r.op = 0 then s.kvEvent ctx r.seq 3 prio ps.length else s

/-- Whether two runs of bytes meet. -/
def meets (a n b m : Nat) : Bool := decide (a < b + m) && decide (b < a + n)

/-- Whether frames, by their physical addresses ÷ 16, may join a context's: each aligned to its size and of memory that
exists (R237), not retired (R348), apart from the others and from every context's, and within the quota (R250). -/
def State.framesOk (s : State) (ctx : Nat) : List Nat → Bool
  | [] => true
  | f :: r =>
    let n := s.kvFrameBytes ctx
    n != 0 && f * 16 % n == 0 && paExists (f * 16) n && !s.meetsRetired (f * 16) n && !(r.any fun g => meets (f * 16) n (g * 16) n)
      && ((List.range 64).all fun k => !(s.context k).frames.any fun g => meets (f * 16) n (g * 16) (s.kvFrameBytes k))
      && decide ((s.context ctx).frames.length + r.length + 1 ≤ s.frameQuota ctx) && State.framesOk s ctx r

/-- A request completes (R250). -/
def State.completeRequest (s : State) (ctx i : Nat) (r : KvRequest) (frames : List Nat) : Out :=
  let c := s.context ctx
  let c' := { c with kvFree := c.kvFree ++ frames }
  if c'.refuses r ∨ c'.kvFree.length < (c'.wanted r).length ∨ !s.framesOk ctx frames then .refused .notDue
  else
    let s := (s.setContext ctx { c' with kvReqs := c.kvReqs.eraseIdx i }).runRequest ctx r
    .next (s.arriveOpt r.bar 0 ⟨ctx, r.unit.launch, some r.unit.index, r.det, r.handle.setWidth 64, (s.die 8).time⟩)

/-- KV_REQUEST_COMPLETE (R250): the supervisor completes a request, giving the context further free frames (by their
physical addresses ÷ 16) where it gives some; the barrier receives its arrival. -/
def execKvRequestComplete (ctx i : Nat) (frames : List Nat) (s : State) : Out :=
  match (s.context ctx).kvReqs[i]? with
  | none => .refused .notDue
  | some r => underRegs ctx r.regs (fun s => s.completeRequest ctx i r frames) s

/-- The swap and the drop cost of a sequence, both × BWUS, in ps × bytes per µs (R253). -/
def swapCost (e : SeqEntry) : Nat := e.bytes * 10 ^ 6
def dropCost (bwus : Nat) (e : SeqEntry) : Nat := e.tokens * e.rateps * bwus

/-- Whether a candidate's action is swap. -/
def swaps (bwus : Nat) (e : SeqEntry) : Bool := decide (swapCost e < dropCost bwus e)

/-- A candidate's restore cost × BWUS. -/
def restoreCost (bwus : Nat) (e : SeqEntry) : Nat := if swaps bwus e then swapCost e else dropCost bwus e

/-- Whether a candidate goes before another: lowest PRIO, then smallest restore cost, then lowest SEQ. With BWUS 0
no swap is ever cheaper, and the drop costs stand for themselves. -/
def victimBefore (bwus : Nat) (x y : SeqEntry) : Bool :=
  let cx := if bwus = 0 then x.tokens * x.rateps else restoreCost bwus x
  let cy := if bwus = 0 then y.tokens * y.rateps else restoreCost bwus y
  decide (x.prio < y.prio) || (x.prio == y.prio && (decide (cx < cy) || (cx == cy && decide (x.seq < y.seq))))

def chooseVictim (bwus : Nat) : List SeqEntry → Option SeqEntry
  | [] => none
  | x :: r =>
    match chooseVictim bwus r with
    | none => some x
    | some y => if victimBefore bwus x y then some x else some y

/-- The host VAs ÷ 256 at which swapped pages of any context lie, with their bytes. -/
def State.swappedPages (s : State) : List (Nat × Nat) :=
  (List.range 64).flatMap fun k =>
    ((s.context k).kvmap.filter fun x => kvState x.2 == 2).map fun x => (kvAddr x.2, s.kvFrameBytes k)

/-- The host VA ÷ 256 to which a page is swapped: open, but apart from every other swapped page (R253; DESIGN CHOICE, log
entry 24). Where the open place is not, the page goes to the start of the space or behind another swapped page: one of these
is apart from all while there is room. -/
def State.swapPlace (s : State) (ctx : Nat) : Option Nat :=
  let n := s.kvFrameBytes ctx
  let taken := s.swappedPages
  let places := bitsOf s.freeWord 8 48 :: 0 :: taken.map fun x => x.1 + (x.2 + 255) / 256
  places.find? fun h => decide (h * 256 + n ≤ 2 ^ 56) && taken.all fun x => !meets (h * 256) n (x.1 * 256) x.2

/-- A page of the victim is swapped, where the host has room for it, or dropped. -/
def State.evictPage (s : State) (ctx : Nat) (swap : Bool) (p : KvPage) : State :=
  let c := s.context ctx
  let e := c.kv p
  if swap then
    if kvState e = 1 then
      match s.swapPlace ctx with
      | none => s
      | some host =>
        let s := (s.useFree).moveFrame (kvFrame e) (swapKey (host * 256)) (s.kvFrameBytes ctx)
        s.setContext ctx (c.leaveFrame p (kvEntry 2 0 1 host))
    else s
  else if kvState e = 0 then s
  else s.setContext ctx (c.leaveFrame p (kvEntry 3 0 0 0))

/-- The pages of a sequence that the map lists. -/
def Context.pagesOf (c : Context) (seq : Nat) : List KvPage :=
  (c.kvmap.filter fun x => kvSeqOf x.1 == seq).map fun x => ⟨seq, x.1 / 16384 % 256, x.1 % 16384⟩

/-- The sequence on whose behalf a frame is wanted (R248, R253): that of an append that found none, while none is free, or
of a request that lacks frames. -/
def Context.frameWanted (c : Context) : Option Nat :=
  match c.kvAsk.filter fun _ => c.kvFree.isEmpty with
  | q :: _ => some q
  | [] => (c.kvReqs.find? fun r => decide (c.kvFree.length < (c.wanted r).length)).map fun r => r.seq

/-- KV_VICTIM_ACTION (R253): a victim's pages are swapped or dropped, and the action is recorded. -/
def execKvVictimAction (ctx : Nat) (s : State) : Out :=
  let c := s.context ctx
  match c.frameWanted with
  | none => .refused .notDue
  | some q =>
    let bw := s.bwus ctx
    match chooseVictim bw (s.candidates ctx q) with
    | none => .refused .notDue
    | some v =>
      let swap := swaps bw v
      let ps := c.pagesOf v.seq
      let moved := (ps.filter fun p => kvState (c.kv p) == 1).length
      let s := (ps.foldl (fun s p => s.evictPage ctx swap p) s).refreshSeqs ctx
      let s := s.setSeqState ctx v.seq (if swap then 2 else 3)
      let s := if swap then s else s.setTokens ctx v.seq fun _ => 0
      let c := s.context ctx
      let s := s.setContext ctx (if c.kvFree.isEmpty then c else { c with kvAsk := [] })
      .next (s.kvEvent ctx v.seq (if swap then 1 else 2) v.prio moved)

end Sys2Proof.Machine
end

