-- ==== Sys2Proof/Machine/Matrix.lean ====
section
/-!
DEFINITION. The cluster sequencer's matrix operations, the matrix engine's steps, and the vector side: feeds, drains
and mailboxes (R206 to R231), with the accumulation order and the quantisation of R28 to R35.
-/
namespace Sys2Proof.Machine

/-! Accumulators, class maps and queues (R209, R210). -/

/-- Whether a context's class owns an accumulator tile (R209). -/
def State.ownsTile (s : State) (ctx cls a : Nat) : Bool := (s.ctxReg ctx 0x005).getLsbD (16 * cls + a)

/-- ACC[a](i, j). -/
def Cluster.accAt (c : Cluster) (a i j : Nat) : Word := Store.get 0 c.acc (a * 16384 + i * 128 + j)

def Cluster.setAcc (c : Cluster) (a i j : Nat) (x : Word) : Cluster :=
  { c with acc := Store.set 0 c.acc (a * 16384 + i * 128 + j) x }

/-- ACC[a] := +0. -/
def Cluster.zeroAcc (c : Cluster) (a : Nat) : Cluster := { c with acc := c.acc.filter fun x => x.1 / 16384 != a }

def Cluster.queue (c : Cluster) (cls : Nat) : List MxOp :=
  match cls with
  | 0 => c.queue0 | 1 => c.queue1 | 2 => c.queue2 | _ => c.queue3

def Cluster.setQueue (c : Cluster) (cls : Nat) (q : List MxOp) : Cluster :=
  match cls with
  | 0 => { c with queue0 := q } | 1 => { c with queue1 := q } | 2 => { c with queue2 := q } | _ => { c with queue3 := q }

/-- The feeds staged for a class and quarter, oldest first. -/
def Cluster.feed (c : Cluster) (cls q : Nat) : List Feed := Store.get [] c.feeds (4 * cls + q)

def Cluster.setFeed (c : Cluster) (cls q : Nat) (x : List Feed) : Cluster :=
  { c with feeds := Store.set [] c.feeds (4 * cls + q) x }

/-- A feed joins the FIFO of a class and a quarter, staged by a unit's group (R212, R285). -/
def Cluster.pushFeed (c : Cluster) (u : UnitKey) (cls q : Nat) (f : Feed) : Cluster :=
  { c.setFeed cls q (c.feed cls q ++ [f]) with feeders := Store.set ⟨0, 0, 0⟩ c.feeders cls u }

/-- The binding of a class that has none. -/
def Quad.unbound : Quad := ⟨⟨0, 0, 0⟩, []⟩

def Cluster.quad (c : Cluster) (cls : Nat) : Quad := Store.get Quad.unbound c.quads cls

/-- The cluster of the agent whose turn it is. -/
def State.myCluster (s : State) : Cluster := s.cluster s.me.place.die s.me.place.cluster

def State.setMyCluster (s : State) (c : Cluster) : State := s.setCluster s.me.place.die s.me.place.cluster c

/-! Acceptance (R207, R208, R214, R215, R224). -/

/-- A record that a command names: an id that is not given needs none. -/
def Context.named (c : Context) (id : Option Nat) : Option (BitVec 512) :=
  match id with
  | none => some 0
  | some id => c.tensor id

/-- The lowest sub-reason whose condition holds; the list is in ascending order. -/
def lowestSub (xs : List (Nat × Bool)) : Option Nat := (xs.find? fun x => x.2).map (·.1)

/-- An MXE operation is accepted: the thread's earlier stores perform first (R208), and a full queue holds the thread
back (R207). -/
def State.acceptMx (s : State) (work : MxWork) (bar : Option Nat) (handle : Half) : Out :=
  let c := s.me.env.cls
  if 8 ≤ (s.myCluster.queue c).length then .next s
  else s.drained fun s =>
    let s := s.missOnAccept s.me.place.die
    let a := s.me
    let op : MxOp :=
      { seq := s.nextSeq, who := a.who, place := a.place, unit := a.unit, env := a.env, cls := c, ecls := a.eclass,
        work := work, bar := bar, handle := handle, kb := 0, fed := [], windows := (s.context a.ctx).windows,
        bytes := 0, status := 0, stall := none, asked := false }
    let k := s.myCluster
    let s := ({ s with nextSeq := s.nextSeq + 1 }.retainOpt bar).setMyCluster (k.setQueue c (k.queue c ++ [op]))
    .next ({ s with me := { s.me with batches := { s.me.batches with accepted := s.me.batches.accepted + 1 } } }.finish true)

/-- The tile of A that K-block `kb` reads (R214). -/
def TileRef.kblock (t : TileRef) (kb : Nat) : TileRef :=
  if t.t then { t with tr := t.tr + kb } else { t with tc := t.tc + kb }

/-- The extent check of R122. -/
def TileRef.inExtent (t : TileRef) : Bool :=
  decide (t.tr * trRows t.record < trExt t.record 1) && decide (t.tc * trCols t.record < trExt t.record 0)

/-- The last index of a 128-wide tile that lies within an extent. -/
def lastIn (tile ext : Nat) : Nat := min (tile * 128 + 127) (ext - 1)

/-- The position of A's scale for K-block `kb` and a logical row along M (R218). -/
def scaleAt (t : TileRef) (kb y : Nat) : Nat × Nat :=
  ((if t.t then t.tr else t.tc) + kb, if trGran t.record = 1 then y else y / 128)

/-- The logical row along M of the command's row (R218). -/
def TileRef.rowOf (t : TileRef) (i : Nat) : Nat := (if t.t then t.tc else t.tr) * 128 + i

/-- The position of the B scale of column j and K-block `kb` (R218). -/
def BScale.at (w : BScale) (j kb : Nat) : Nat × Nat :=
  let ct := bitsOf w.a 32 20
  (if bitsOf w.b 0 8 = 1 then ct * 128 + j else ct, bitsOf w.a 16 16 + kb)

/-- Whether a position lies within a record's first two extents. -/
def inTensor (r : BitVec 512) (p : Nat × Nat) : Bool := decide (p.1 < trExt r 0) && decide (p.2 < trExt r 1)

/-- The formats that R30 pairs freely. -/
def Fmt.isNarrow : Fmt → Bool
  | .e4m3 => true | .e5m2 => true | .e3m2 => true | .e2m3 => true | .e2m1 => true | _ => false

/-- Whether the formats of A and B form a pair (R30, R31). -/
def pairOk (a b : Fmt) : Bool :=
  (a.isNarrow && b.isNarrow) || (a == b && (a == .int8 || a == .bf16 || a == .fp16))

/-- Whether A's record is as R214 asks. -/
def State.recordAOk (s : State) (r : BitVec 512) (sparse : Bool) (bitmap : BitVec 512) : Bool :=
  let p := s.me.place
  trSpace r == 0 && decide (0x400_0000 ≤ trBase r) && decide (trBase r < 0x800_0000)
    && !s.quarantined p.die p.cluster ((trBase r - 0x400_0000) / 0x80000)
    && decide (1 ≤ trFmt r) && decide (trFmt r ≤ 8) && trRows r == 128 && trCols r == 128
    && (!sparse || (trSparse r && trFormat bitmap == .int8))

/-- Whether every index that an MMA uses lies in its tensor (R214, R215). -/
def mmaExtents (t : TileRef) (nk : Nat) (scale bitmap : BitVec 512) (sparse : Bool) (w : BScale) : Bool :=
  let r := t.record
  let last := max nk 1 - 1
  let m := if t.t then lastIn t.tc (trExt r 0) else lastIn t.tr (trExt r 1)
  let x := if t.t then lastIn t.tc (trExt r 0) else lastIn (t.tc + last) (trExt r 0)
  let y := if t.t then lastIn (t.tr + last) (trExt r 1) else lastIn t.tr (trExt r 1)
  ((List.range nk).all fun kb => (t.kblock kb).inExtent)
    && (trGran r == 0 || inTensor scale (scaleAt t last m))
    && (!sparse || inTensor bitmap (x / 8, y))
    && (bitsOf w.b 0 8 == 0 || inTensor w.record (w.at 127 last))

/-- The checks of an MMA (R215). -/
def State.mmaCheck (s : State) (zero sparse : Bool) (gd ga gb : DWord) : Except (Cause × Nat) MxWork :=
  let c := s.myContext
  match c.tile ga with
  | .error x => .error (x, 0)
  | .ok t =>
    let r := t.record
    let nk := bitsOf gb 8 8
    let a := bitsOf gd 0 4
    let sp := sparse && trSparse r
    match c.named (if trGran r = 0 then none else trRef r 0x30), c.named (if sp then trRef r 0x34 else none) with
    | some scale, some bitmap =>
      if !mmaExtents t nk scale bitmap sp s.me.scaleW then .error (.tensorExtent, 0)
      else
        match lowestSub
          [ (1, bitsOf gd 4 60 != 0 || bitsOf gb 16 48 != 0 || bitsOf gb 4 4 != 0),
            (2, !s.ownsTile s.me.ctx s.me.env.cls a),
            (3, !s.recordAOk r sparse bitmap),
            (4, !((Fmt.ofCode (bitsOf gb 0 4)).any fun f => pairOk (trFormat r) f)),
            (5, nk == 0),
            (6, trGran r != 0 && (trFormat scale != .fp32 || trSpace scale != 0)) ] with
        | some sub => .error (.mxOperand, sub)
        | none => .ok (.mma zero sparse a t nk (bitsOf gb 0 4) scale bitmap s.me.scaleW)
    | _, _ => .error (.tensorId, 0)

/-- The four MMA forms (R214). -/
def mmaForm (zero sparse : Bool) (b a d : BitVec 7) (s : State) : Out :=
  guard (gNeed .csq [d, a, b]) s fun s =>
    match s.mmaCheck zero sparse (s.me.g7 d) (s.me.g7 a) (s.me.g7 b) with
    | .error x => .next (subTrap s x.1 x.2)
    | .ok w => s.acceptMx w none 0

/-- MMA (R216). -/
def execMma (b a d : BitVec 7) (s : State) : Out := mmaForm false false b a d s
/-- MMA.SP (R217). -/
def execMmaSp (b a d : BitVec 7) (s : State) : Out := mmaForm false true b a d s
/-- MMAZ (R216). -/
def execMmaz (b a d : BitVec 7) (s : State) : Out := mmaForm true false b a d s
/-- MMAZ.SP (R217). -/
def execMmazSp (b a d : BitVec 7) (s : State) : Out := mmaForm true true b a d s

/-- Whether a base is where an epilogue may write (R224). -/
def outputPlaced (r : BitVec 512) : Bool :=
  trSpace r == 1 || (trSpace r == 0 && ((decide (0x400_0000 ≤ trBase r) && decide (trBase r < 0x800_0000))
    || (decide (0x1000_0000 ≤ trBase r) && decide (trBase r < 0x2000_0000))))

/-- Whether an epilogue of kind `op` may have an output of a format code (R224). -/
def outputFmt (op fmt : Nat) : Bool :=
  match op with
  | 0 => decide (3 ≤ fmt) && decide (fmt ≤ 8)
  | 1 => decide (fmt ≤ 2)
  | 2 => decide (fmt ≤ 8)
  | _ => true

/-- Whether the scale, flag and divisor indices of tile (tr, tc) lie in their tensors (R215, R224, R225). -/
def epiExtents (out : TileRef) (scale flags divisor : Option (BitVec 512)) : Bool :=
  let r := out.record
  let last := lastIn out.tr (trExt r 1)
  (scale.all fun x => inTensor x (out.tc, if trGran r = 1 then last else out.tr))
    && (flags.all fun x => inTensor x (4 * out.tc + 3, out.tr))
    && (divisor.all fun x => decide (last < trExt x 0))

/-- The MBZ bits of the operand words of an epilogue (Table 5). -/
def epiMbz (op : Nat) (gd ga ctl : DWord) (usesOut : Bool) : Bool :=
  bitsOf gd 4 60 != 0 || bitsOf ctl 32 32 != 0 || ctl.getLsbD 19
    || (!(decide (op < 2) && ctl.getLsbD 17) && bitsOf ctl 20 12 != 0)
    || (decide (2 ≤ op) && (ctl.getLsbD 17 || ctl.getLsbD 18))
    || ((op == 1 || op == 2) && ctl.getLsbD 16)
    || (!usesOut && ga != 0)

/-- A named record, where an id is given. -/
def recIf (id : Option Nat) (r : BitVec 512) : Option (BitVec 512) := id.map fun _ => r

/-- The checks of an epilogue (R215): 0 EPQ, 1 EPST, 2 EPOV, 3 ACCZ. -/
def State.epiCheck (s : State) (op : Nat) (gd ga ctl : DWord) : Except (Cause × Nat) (Option Nat × MxWork) :=
  let c := s.myContext
  let usesOut := decide (op < 3) || ctl.getLsbD 16
  match s.cmdHandle (ctl.extractLsb' 0 16) with
  | .error x => .error (x, 0)
  | .ok bar =>
    match (if usesOut then c.tile ga else .ok ⟨0, 0, 0, 0, false⟩) with
    | .error x => .error (x, 0)
    | .ok out =>
      let r := out.record
      let a := bitsOf gd 0 4
      let sref := if op = 0 then trRef r 0x30 else none
      let fref := if usesOut then trRef r 0x3C else none
      let dref := if op < 2 ∧ ctl.getLsbD 17 then some (bitsOf ctl 20 12) else none
      match c.named sref, c.named fref, c.named dref with
      | some scale, some flags, some divisor =>
        let written := (if op < 2 then [r] else []) ++ (recIf sref scale).toList ++ (recIf fref flags).toList
        if usesOut && !epiExtents out (recIf sref scale) (recIf fref flags) (recIf dref divisor) then .error (.tensorExtent, 0)
        else if written.any fun x => !mayWrite x then .error (.tensorRecord, 13)
        else
          match lowestSub
            [ (1, epiMbz op gd ga ctl usesOut),
              (2, !s.ownsTile s.me.ctx s.me.env.cls a),
              (6, sref.isSome && (trFormat scale != .fp32 || trSpace scale != 0)),
              (7, (usesOut && (trRows r != 128 || trCols r != 128 || !outputPlaced r || !outputFmt op (trFmt r)
                    || (op == 0 && (sref.isNone || trGran r == 0)) || (decide (2 ≤ op) && fref.isNone)
                    || (fref.isSome && trFormat flags != .int32)))
                  || (dref.isSome && (trFormat divisor != .fp32 || trRank divisor != 1))) ] with
          | some sub => .error (.mxOperand, sub)
          | none => .ok (bar, .epi op a out ctl scale flags divisor)
      | _, _, _ => .error (.tensorId, 0)

/-- The epilogue forms (R224). -/
def epiForm (op : Nat) (b a d : BitVec 7) (s : State) : Out :=
  guard (gNeed .csq [d, a, b]) s fun s =>
    match s.epiCheck op (s.me.g7 d) (s.me.g7 a) (s.me.g7 b) with
    | .error x => .next (subTrap s x.1 x.2)
    | .ok w => s.acceptMx w.2 w.1 ((s.me.g7 b).extractLsb' 0 16)

/-- EPQ (R225). -/
def execEpq (b a d : BitVec 7) (s : State) : Out := epiForm 0 b a d s
/-- EPST (R226). -/
def execEpst (b a d : BitVec 7) (s : State) : Out := epiForm 1 b a d s
/-- EPOV (R227). -/
def execEpov (b a d : BitVec 7) (s : State) : Out := epiForm 2 b a d s
/-- ACCZ (R227). -/
def execAccz (b a d : BitVec 7) (s : State) : Out := epiForm 3 b a d s

/-- MSCALE (R218): queued like an MMA, it sets the B scales of the MMAs accepted after it. -/
def execMscale (b a : BitVec 7) (s : State) : Out :=
  guard (gNeed .csq [a, b]) s fun s =>
    let x := s.me.g7 a
    let y := s.me.g7 b
    let gran := bitsOf y 0 8
    let id := if x.getLsbD 15 then some (bitsOf x 0 12) else none
    match s.myContext.named id with
    | none => .next (takeTrap s .tensorId)
    | some r =>
      let w : BScale := ⟨x, y, r⟩
      if id.isSome ∧ (gran = 1 ∨ gran = 2) ∧ !inTensor r (w.at 0 0) then .next (takeTrap s .tensorExtent)
      else
        match lowestSub
          [ (1, bitsOf x 12 3 != 0 || bitsOf x 52 12 != 0 || bitsOf y 8 56 != 0),
            (6, decide (2 < gran) || (gran == 0) == id.isSome
              || (id.isSome && (trFormat r != .fp32 || trSpace r != 0))) ] with
        | some sub => .next (subTrap s .mxOperand sub)
        | none =>
          if 8 ≤ (s.myCluster.queue s.me.env.cls).length then .next s
          else { s with me := { s.me with scaleW := w } }.acceptMx .mscale none 0

/-! Batches and classes (R220 to R223). -/

/-- MBATCH (R222). -/
def execMbatch (d : BitVec 7) (s : State) : Out :=
  guard (gNeed .csq [d]) s fun s =>
    let b := s.me.batches
    let n := b.counter + 1
    let closed := (n, b.accepted) :: b.closed.filter fun x => x.1 != n && x.1 != n - 32768
    .next ({ s with me := { s.me with batches := { b with counter := n, closed := closed } } }.finishG d (n.setWidth 64) true)

/-- Whether a batch has completed (R222). -/
def Batches.done (b : Batches) (n : Half) : Bool :=
  (b.closed.find? fun x => x.1 == n).all fun x => decide (x.2 ≤ b.completed)

/-- What MWAIT writes (R223). -/
def Batches.report (b : Batches) : DWord :=
  match b.errors with
  | [] => 0
  | e :: _ => BitVec.ofNat 64 (2 ^ 63 + e.2.toNat * 2 ^ 8)

/-- MWAIT (R223). -/
def execMwait (a d : BitVec 7) (s : State) : Out :=
  guard (gNeed .csq [d, a]) s fun s =>
    let x := s.me.g7 a
    let n : Half := x.extractLsb' 0 16
    let b := s.me.batches
    match lowestSub [(1, bitsOf x 16 48 != 0), (9, decide (32768 ≤ (b.counter - n).toNat))] with
    | some sub => .next (subTrap s .mxOperand sub)
    | none =>
      if b.done n then
        .next ({ s with me := { s.me with batches := { b with errors := [] } } }.finishG d b.report true)
      else .next { s with me := s.me.setWait (.mwait d.toNat n) }

/-- MWAIT_RETURN (R223): the batch waited for has completed. -/
def execMwaitReturn (w : Who) (s : State) : Out :=
  match s.agent w with
  | none => .refused .notDue
  | some a =>
    match a.wait with
    | .mwait d n =>
      if a.batches.done n then
        .next (s.setAgent ({ a with batches := { a.batches with errors := [] } }.wake d a.batches.report))
      else .refused .notDue
    | _ => .refused .notDue

/-- MCLASS (R220). -/
def execMclass (a : BitVec 7) (s : State) : Out :=
  guard (gNeed .csq [a]) s fun s =>
    let x := s.me.g7 a
    match lowestSub [(1, bitsOf x 2 62 != 0), (10, decide (s.me.env.cls < bitsOf x 0 2))] with
    | some sub => .next (subTrap s .mxOperand sub)
    | none => .next ({ s with me := { s.me with eclass := bitsOf x 0 2 } }.finish true)

/-- MYLD (R221). -/
def execMyld (s : State) : Out := guard (Need.of .csq) s fun s => s.acceptMx .myld none 0

/-! The quad binding (R211). -/

/-- The group indices that MQUAD's second operand names. -/
def quadGroups (b : DWord) : List Nat := (List.range 4).map fun q => bitsOf b (8 * q) 8

/-- The binding that MQUAD's operands name, if the unit runs on the thread's cluster and has those groups. -/
def State.quadFor (s : State) (ctx : Nat) (p : Place) (a b : DWord) : Option Quad :=
  match s.unit ⟨ctx, a.extractLsb' 0 32, bitsOf a 32 20⟩ with
  | none => none
  | some x =>
    if x.kind = .core ∧ !x.ended ∧ !x.saved ∧ x.die = p.die ∧ x.cluster = p.cluster
        ∧ (quadGroups b).all fun g => decide (g < x.env.nGroups)
    then some ⟨x.key, quadGroups b⟩ else none

/-- MQUAD's effect on the cluster once its class's queue is empty, and what it writes (R211). -/
def State.installQuad (s : State) (w : Agent) (a b : DWord) : Cluster × DWord :=
  let k := s.cluster w.place.die w.place.cluster
  let c := w.env.cls
  let n := ((List.range 4).map fun q => (k.feed c q).length).sum
  let k := (List.range 4).foldl (fun k q => k.setFeed c q []) k
  let word := fun (st : Nat) => BitVec.ofNat 64 (st + n * 2 ^ 8)
  if a = 0 then ({ k with quads := Store.set Quad.unbound k.quads c Quad.unbound }, word 2)
  else
    match s.quadFor w.ctx w.place a b with
    | none => (k, word 1)
    | some q => ({ k with quads := Store.set Quad.unbound k.quads c q }, word 0)

/-- The operands of the binding in force, which a thread's saved state holds (R206). -/
def Agent.bindQuad (w : Agent) (a b r : DWord) : Agent :=
  if bitsOf r 0 8 = 1 then w else { w with quadW := if a = 0 then (0, 0) else (a, b) }

/-- MQUAD (R211): it waits until its class's queue is empty. -/
def execMquad (b a d : BitVec 7) (s : State) : Out :=
  guard (gNeed .csq [d, a, b]) s fun s =>
    let x := s.me.g7 a
    let y := s.me.g7 b
    if bitsOf x 52 12 ≠ 0 ∨ bitsOf y 32 32 ≠ 0 then .next (subTrap s .mxOperand 1)
    else if (s.myCluster.queue s.me.env.cls).isEmpty then
      let r := s.installQuad s.me x y
      .next (({ s with me := s.me.bindQuad x y r.2 }.setMyCluster r.1).finishG d r.2 true)
    else .next { s with me := s.me.setWait (.mquad d.toNat x y) }

/-- MQUAD_INSTALL (R211): the class's queue has become empty. -/
def execMquadInstall (w : Who) (s : State) : Out :=
  match s.agent w with
  | none => .refused .notDue
  | some a =>
    match a.wait with
    | .mquad d x y =>
      if ((s.cluster a.place.die a.place.cluster).queue a.env.cls).isEmpty then
        let r := s.installQuad a x y
        .next ((s.setCluster a.place.die a.place.cluster r.1).setAgent ((a.bindQuad x y r.2).wake d r.2))
      else .refused .notDue
    | _ => .refused .notDue

/-! Feeds (R212, R213). -/

/-- v88 to v119 of a group, lanes whose EM bit is 0 giving zero. -/
def Agent.feedOf (a : Agent) : Feed :=
  (List.range 32).map fun r => laneResult a.cur.em fun l => a.readV (88 + r) l

/-- MFEED (R212): a full FIFO holds the group back. -/
def execMfeed (a : BitVec 7) (s : State) : Out :=
  guard { gNeed .core [a] with reads := regSpan 88 32 } s fun s =>
    let x := s.me.g7 a
    let q := bitsOf x 0 2
    let c := bitsOf x 2 2
    let k := s.myCluster
    let b := k.quad c
    match lowestSub
      [ (1, bitsOf x 4 60 != 0), (8, !(b.unit == s.me.unit && b.groups[q]? == some s.me.index)) ] with
    | some sub => .next (subTrap s .mxOperand sub)
    | none =>
      if 2 ≤ (k.feed c q).length then .next s.holdGroup
      else .next ((s.setMyCluster (k.pushFeed s.me.unit c q s.me.feedOf)).finish true)

/-- B(k, j) of a quarter's feeds (Table 2); `sub` chooses the K-block of an E2M1 feed. -/
def feedCode (f : Fmt) (sub : Nat) (feeds : List Feed) (r j : Nat) : Nat :=
  let word := fun (h l : Nat) => (((feeds.getD h []).getD r Lanes.zero).at l).toNat
  match f with
  | .bf16 => word (j / 64) (j % 64 / 2) / 2 ^ (16 * (j % 2)) % 2 ^ 16
  | .fp16 => word (j / 64) (j % 64 / 2) / 2 ^ (16 * (j % 2)) % 2 ^ 16
  | .e2m1 => word 0 (j / 4) / 2 ^ (16 * sub + 4 * (j % 4)) % 2 ^ 4
  | f => word 0 (j / 4) / 2 ^ (8 * (j % 4)) % 2 ^ f.width

/-- Feeds that a step of an MMA takes from each quarter (Table 2). -/
def feedsNeeded (op : MxOp) : Nat :=
  match op.work with
  | .mma _ _ _ _ _ bfmt _ _ _ =>
    match Fmt.ofCode bfmt with
    | some .bf16 => 2
    | some .fp16 => 2
    | some .e2m1 => if op.fed.isEmpty then 1 else 0
    | _ => 1
  | _ => 0

/-! The sums of R30 and R31. -/

/-- KBlockNarrow (R30): the products are formed exactly and summed exactly. -/
def kBlockNarrow (ps : List (FVal × FVal)) (sA sB : Word) : Word :=
  fmulW (toF32 (dotSum ps (.num false 0))) (fmulW sA sB)

/-- The balanced tree of R31 over 2^n values. -/
def pairTree : Nat → (Nat → Word) → Nat → Word
  | 0, p, i => p i
  | n + 1, p, i => faddW (pairTree n p (2 * i)) (pairTree n p (2 * i + 1))

/-- The block of a BF16 or FP16 operation (R31); an unformed product enters the tree as +0. -/
def kBlockWide (p : Nat → Option (FVal × FVal)) (sA sB : Word) : Word :=
  fmulW (pairTree 7 (fun i => match p i with | some x => toF32 (x.1.mul x.2) | none => 0) 0) (fmulW sA sB)

/-- The element of a tensor that an MXE operation reads in passing, and what the read reports. -/
def State.elemAt (s : State) (e : Issuer) (r : BitVec 512) (p : Nat × Nat) : Nat × DWord := (s.elemRead e r p.1 p.2 0 0).2

/-- Elements read one after another: their codes and what the reads report. -/
def State.elemsAt (s : State) (e : Issuer) (r : BitVec 512) : List (Nat × Nat) → State × List Nat × DWord
  | [] => (s, [], 0)
  | p :: t =>
    let (s, c, st) := s.elemRead e r p.1 p.2 0 0
    let (s, cs, st') := State.elemsAt s e r t
    (s, c :: cs, statusMerge st st')

/-- An operand of the K-block: what the step of an MMA reads. -/
structure KBlock where
  fa     : Fmt
  fb     : Fmt
  /-- A's code at (i, k), where it is formed. -/
  a      : Nat → Nat → Option Nat
  /-- B's code at (k, j). -/
  b      : Nat → Nat → Nat
  /-- Whether A's bitmap has the bit of (i, k) (R217); always so in a dense form. -/
  has    : Nat → Nat → Bool
  sparse : Bool
  sA     : Nat → Word
  sB     : Nat → Word

/-- The product (i, k, j), where it is formed (R30, R217). -/
def KBlock.product (x : KBlock) (i j k : Nat) : Option (FVal × FVal) :=
  match x.a i k with
  | none => none
  | some c =>
    let v := decodeNum x.fb (x.b k j)
    if x.sparse && (!x.has i k || v.isZero) then none else some (decodeNum x.fa c, v)

/-- The K-block's value for accumulator (i, j) (R30, R31). -/
def KBlock.value (x : KBlock) (i j : Nat) : Word :=
  if x.fa = .bf16 ∨ x.fa = .fp16 then kBlockWide (x.product i j) (x.sA i) (x.sB j)
  else kBlockNarrow ((List.range 128).filterMap (x.product i j)) (x.sA i) (x.sB j)

/-- The accumulator after one K-block (R216): rows beyond A's extent keep their values. -/
def Cluster.addBlock (c : Cluster) (a : Nat) (rows : List Nat) (x : KBlock) : Cluster :=
  rows.foldl (fun c i => (List.range 128).foldl (fun c j => c.setAcc a i j (faddW (c.accAt a i j) (x.value i j))) c) c

/-- The engine's view of an operation. -/
def MxOp.issuer (op : MxOp) : Issuer := ⟨issuerAgent op.who op.place op.unit op.env, op.place.die, op.windows, op.seq⟩

/-- The code of 1.0 in FP32. -/
def oneF32 : Word := 0x3F80_0000

/-- K-block `kb` of an MMA: A, its bitmap and the scales as memory now holds them, B from the feeds (R213 to R218). -/
def State.kBlockOf (s : State) (op : MxOp) (sparse : Bool) (t : TileRef) (bfmt : Nat) (scale bitmap : BitVec 512)
    (w : BScale) (kb sub : Nat) (feeds : List (List Feed)) : KBlock :=
  let e := op.issuer
  let tk := t.kblock kb
  let fb := (Fmt.ofCode bfmt).getD .e4m3
  { fa := trFormat t.record, fb := fb,
    a := fun i k => if tk.formed i k then some (s.tileRead e tk 0 i k).2.1 else none,
    b := fun k j => feedCode fb sub (feeds.getD (k / 32) []) (k % 32) j,
    has := fun i k => (s.elemAt e bitmap ((tk.at i k).1 / 8, (tk.at i k).2)).1.testBit ((tk.at i k).1 % 8),
    sparse := sparse,
    sA := fun i => if trGran t.record = 0 then oneF32 else BitVec.ofNat 32 (s.elemAt e scale (scaleAt t kb (t.rowOf i))).1,
    sB := fun j => if bitsOf w.b 0 8 = 0 then oneF32 else BitVec.ofNat 32 (s.elemAt e w.record (w.at j kb)).1 }

/-- The formed positions of A's tile for a K-block, row by row. -/
def TileRef.blockPositions (t : TileRef) (kb : Nat) : List (Nat × Nat) :=
  let tk := t.kblock kb
  ((List.range 128).filter fun i => tk.formed i 0).flatMap fun i =>
    ((List.range 128).filter fun k => tk.formed i k).map fun k => (i, k)

/-- The elements of the bitmap that a K-block uses (R217). -/
def TileRef.bitmapAt (t : TileRef) (kb : Nat) : List (Nat × Nat) :=
  (t.blockPositions kb).map fun p => (((t.kblock kb).at p.1 p.2).1 / 8, ((t.kblock kb).at p.1 p.2).2)

/-- What an MMA's reads for a K-block report (R338): those of A's tile, its bitmap and the scales of both sides. -/
def State.blockReads (s : State) (op : MxOp) (sparse : Bool) (t : TileRef) (scale bitmap : BitVec 512) (w : BScale) (kb : Nat) :
    State × DWord :=
  let e := op.issuer
  let rows := (List.range 128).filter fun i => t.formed i 0
  let a := s.readCodes e (t.kblock kb) (t.blockPositions kb)
  let bm := if sparse then a.1.elemsAt e bitmap (t.bitmapAt kb).eraseDups else (a.1, [], 0)
  let sa := if trGran t.record = 0 then (bm.1, [], 0)
    else bm.1.elemsAt e scale (rows.map fun i => scaleAt t kb (t.rowOf i)).eraseDups
  let sb := if bitsOf w.b 0 8 = 0 then (sa.1, [], 0)
    else sa.1.elemsAt e w.record ((List.range 128).map fun j => w.at j kb).eraseDups
  (sb.1, statusMerge a.2.2 (statusMerge bm.2.2 (statusMerge sa.2.2 sb.2.2)))

/-- The reads of several K-blocks. -/
def State.blocksReads (s : State) (op : MxOp) (sparse : Bool) (t : TileRef) (scale bitmap : BitVec 512) (w : BScale) :
    List Nat → State × DWord
  | [] => (s, 0)
  | kb :: r =>
    let x := s.blockReads op sparse t scale bitmap w kb
    let y := State.blocksReads x.1 op sparse t scale bitmap w r
    (y.1, statusMerge x.2 y.2)

/-! Epilogues (R224 to R229). -/

/-- What an epilogue finds in a tile: overflow count, flag bits and ABSMAX (Table 8). -/
structure TileFlags where
  count  : Nat
  bits   : Nat
  absmax : Nat
deriving DecidableEq, Repr

def TileFlags.join (a b : TileFlags) : TileFlags := ⟨a.count + b.count, a.bits ||| b.bits, max a.absmax b.absmax⟩

/-- The flags of one formed element: its FP32 value and the flags of its conversion. -/
def flagsOf (y : Word) (f : ConvFlags) : TileFlags :=
  ⟨if f.ovf then 1 else 0,
   (if f.ovf then 1 else 0) + (if f.nan then 2 else 0) + (if f.inv then 4 else 0) + (if f.unf then 8 else 0),
   match f32 y with | .num _ _ => y.toNat % 2 ^ 31 | _ => 0⟩

/-- An FP32 value stored as EPST stores it (R226). -/
def storeCode (f : Fmt) (y : Word) : Nat × ConvFlags :=
  let none : ConvFlags := ⟨false, false, false, false⟩
  match f32 y with
  | .nan _ => (if f = .fp32 then y.toNat else f.canonNaN, { none with nan := true })
  | .inf s => (if f = .fp32 then y.toNat else f.signed s (f.maxCode + 1), none)
  | .num s x =>
    if f = .fp32 then (y.toNat, none)
    else
      let c := f.roundCode .ne x
      if f.maxCode < c then (f.signed s f.maxCode, { none with ovf := true })
      else (f.signed s c, { none with unf := c == 0 && x != 0 })

/-- The exact quotient of a value by a positive scale. -/
def FVal.dividedBy (v : FVal) (s : Rat) : FVal :=
  match v with
  | .num n x => .num n (x / s)
  | v => v

/-- The magnitude of a finite value; 0 for the others. -/
def FVal.finiteMag : FVal → Rat
  | .num _ x => x | _ => 0

/-- The scale of a granule from its formed values (R35). -/
def granuleScale (f : Fmt) (ys : List Word) : Word :=
  let m := (ys.map fun y => (f32 y).finiteMag).foldl max 0
  if m = 0 then oneF32
  else
    let s := toF32 (.num false (m / f.maxFinite))
    if s = 0 then 1 else s

/-- One element quantised with its granule's scale (R35). -/
def quantCode (f : Fmt) (mode : RoundMode) (s y : Word) : Nat × ConvFlags :=
  convertNarrow f mode ((f32 y).dividedBy (f32 s).finiteMag)

/-- x or, with DIV, the row-divided value (R225). -/
def rowDivide (l x : Word) : Word :=
  match f32 l, f32 x with
  | .num n y, v =>
    if y = 0 then 0
    else
      match v with
      | .nan _ => toF32 (.nan false)
      | .inf s => toF32 (.inf (s != n))
      | .num s z => toF32 (.num (s != n) (z / y))
  | .inf n, .num s _ => toF32 (.num (s != n) 0)
  | _, _ => toF32 (.nan false)

/-- A formed element of an epilogue: its position and its FP32 value. -/
structure EpElem where
  i : Nat
  j : Nat
  y : Word
deriving DecidableEq, Repr

/-- The formed elements of an epilogue, row by row, with what reading the divisor reports. -/
def State.epiRows (s : State) (e : Issuer) (k : Cluster) (a : Nat) (out : TileRef) (divisor : Option (BitVec 512)) :
    State × List (List EpElem) × DWord :=
  let rows := (List.range 128).filter fun i => out.formed i 0
  let l : State × List Nat × DWord := match divisor with
    | some r => s.elemsAt e r (rows.map fun i => (out.tr * 128 + i, 0))
    | none => (s, rows.map fun _ => 0, 0)
  (l.1, (rows.zip l.2.1).map fun p =>
    ((List.range 128).filter fun j => out.formed p.1 j).map fun j =>
      let x := k.accAt a p.1 j
      (⟨p.1, j, if divisor.isSome then rowDivide (BitVec.ofNat 32 p.2) x else x⟩ : EpElem), l.2.2)

/-- What an epilogue forms: elements with their codes, scales by position, flags. -/
structure EpResult where
  codes  : List (Nat × Nat × Nat)
  scales : List ((Nat × Nat) × Word)
  flags  : TileFlags
deriving DecidableEq, Repr

/-- The elements of a list, each with the code and flags of `f`. -/
def epForm (f : EpElem → Nat × ConvFlags) (xs : List EpElem) : EpResult :=
  { codes := xs.map fun x => (x.i, x.j, (f x).1), scales := [],
    flags := (xs.map fun x => flagsOf x.y (f x).2).foldl TileFlags.join ⟨0, 0, 0⟩ }

def EpResult.join (a b : EpResult) : EpResult := ⟨a.codes ++ b.codes, a.scales ++ b.scales, a.flags.join b.flags⟩

/-- A granule quantised (R35); one with no formed element gives nothing. -/
def epGranule (f : Fmt) (sr : Bool) (seed : DWord) (out : TileRef) (at' : Nat × Nat) (xs : List EpElem) : EpResult :=
  let s := granuleScale f (xs.map EpElem.y)
  let r := epForm (fun x =>
    quantCode f (if sr then .sr (epilogueRandom seed out.tr out.tc x.i x.j) else .ne) s x.y) xs
  if xs.isEmpty then r else { r with scales := [(at', s)] }

/-- What an epilogue forms of its elements, as the output's format directs (R225 to R227). An EPOV output with no
granule has scale 1.0 (R34). -/
def epResult (out : TileRef) (sr : Bool) (seed : DWord) (rows : List (List EpElem)) : EpResult :=
  let f := trFormat out.record
  if f = .fp32 ∨ f = .bf16 ∨ f = .fp16 then epForm (fun x => storeCode f x.y) rows.flatten
  else
    match trGran out.record with
    | 0 => epForm (fun x => quantCode f .ne oneF32 x.y) rows.flatten
    | 1 => (rows.map fun r => epGranule f sr seed out (out.tc, out.tr * 128 + (r.head?.elim 0 EpElem.i)) r).foldl EpResult.join
        ⟨[], [], ⟨0, 0, 0⟩⟩
    | _ => epGranule f sr seed out (out.tc, out.tr) rows.flatten

/-- Scales are written at their positions. -/
def State.writeScales (s : State) (e : Issuer) (r : BitVec 512) : List ((Nat × Nat) × Word) → State × List Nat × DWord
  | [] => (s, [], 0)
  | (p, x) :: t =>
    let (s, ks, st) := s.elemWrite e r p.1 p.2 0 0 x.toNat
    let (s, ks', st') := State.writeScales s e r t
    (s, ks ++ ks', statusMerge st st')

/-- Words 0 to 3 of a tile's flag record are written. -/
def State.writeFlagWords (s : State) (e : Issuer) (r : BitVec 512) (out : TileRef) (ws : List Nat) : State × List Nat × DWord :=
  s.writeScales e r ((List.range 4).map fun k => ((4 * out.tc + k, out.tr), BitVec.ofNat 32 (ws.getD k 0)))

/-- The flag record after an epilogue: bits ORed, count added up to its limit, ABSMAX raised (R28). -/
def flagWords (old : List Nat) (f : TileFlags) : List Nat :=
  [min (old.getD 0 0 + f.count) (2 ^ 32 - 1), old.getD 1 0 ||| f.bits, max (old.getD 2 0) f.absmax, old.getD 3 0]

/-- The update of a tile's flag record. -/
def State.updateFlags (s : State) (e : Issuer) (r : BitVec 512) (out : TileRef) (f : TileFlags) : State × List Nat × DWord :=
  let old := s.elemsAt e r ((List.range 4).map fun k => (4 * out.tc + k, out.tr))
  let (s, ks, st) := old.1.writeFlagWords e r out (flagWords old.2.1 f)
  (s, ks, statusMerge old.2.2 st)

/-- The byte addresses, by space, that an epilogue reads: its divisor and its flag record. -/
def epiReads (op : Nat) (out : TileRef) (flags divisor : Option (BitVec 512)) : List (Nat × List Nat) :=
  (if op < 3 then flags.toList else []).map (fun r =>
    (trSpace r, (List.range 4).flatMap fun k => (elemAddrs r (4 * out.tc + k) out.tr 0 0).1))
  ++ divisor.toList.map fun r =>
    (trSpace r, ((List.range 128).filter fun i => out.formed i 0).flatMap fun i => (elemAddrs r (out.tr * 128 + i) 0 0 0).1)

/-- What an epilogue has done: the state, the locations written through replicated records and through others, the
bytes it counts and what it reports. -/
structure EpDone where
  after  : State
  repl   : List Nat
  plain  : List Nat
  bytes  : Nat
  status : DWord

/-- The optional records of an epilogue. -/
def epiRecords (op : Nat) (out : TileRef) (ctl : DWord) (flags divisor : BitVec 512) : Option (BitVec 512) × Option (BitVec 512) :=
  (if op = 3 ∧ !ctl.getLsbD 16 then none else recIf (trRef out.record 0x3C) flags,
   if op < 2 ∧ ctl.getLsbD 17 then some divisor else none)

/-- The effect of an epilogue on memory (R225 to R228). -/
def State.epiRun (s : State) (op : MxOp) (kind a : Nat) (out : TileRef) (ctl : DWord) (scale flags divisor : BitVec 512) : EpDone :=
  let e := op.issuer
  let (fr, dv) := epiRecords kind out ctl flags divisor
  let split := fun (r : BitVec 512) (ks : List Nat) => if trRepl r then (ks, []) else (([] : List Nat), ks)
  if kind = 3 then
    match fr with
    | none => ⟨s, [], [], 0, 0⟩
    | some r =>
      let w := s.writeFlagWords e r out []
      ⟨w.1, (split r w.2.1).1, (split r w.2.1).2, 16, w.2.2⟩
  else
    let rows := s.epiRows e (s.cluster op.place.die op.place.cluster) a out dv
    let x := epResult out (kind == 0 && ctl.getLsbD 16) op.env.seed rows.2.1
    let w := if kind = 2 then (rows.1, [], 0) else rows.1.tileWriteAll e out 0 x.codes
    let sc := if kind = 0 then w.1.writeScales e scale x.scales else (w.1, [], 0)
    let fl := match fr with
      | none => (sc.1, [], 0)
      | some r => sc.1.updateFlags e r out x.flags
    let fk := split flags fl.2.1
    let ok := split out.record w.2.1
    { after := fl.1, repl := ok.1 ++ fk.1, plain := ok.2 ++ sc.2.1 ++ fk.2,
      bytes := (if kind = 2 then 0 else out.byteCount) + (if kind = 0 then 4 * x.scales.length else 0)
        + (if fr.isSome then 16 else 0),
      status := statusMerge rows.2.2 (statusMerge w.2.2 (statusMerge sc.2.2 fl.2.2)) }

/-! The engine's steps (R210, R219, R221). -/

/-- Whether an operation at the head of its queue can take a step: its feeds are staged, and what it asked of peers
and its commit are done. -/
def State.mxReady (s : State) (k : Cluster) (op : MxOp) : Bool :=
  ((List.range 4).all fun q => decide (feedsNeeded op ≤ (k.feed op.cls q).length))
    && s.answered op.place.die op.seq && !s.commits? op.seq

/-- The ready heads of a cluster's queues. -/
def State.mxHeads (s : State) (k : Cluster) : List MxOp :=
  ((List.range 4).filterMap fun c => (k.queue c).head?).filter fun op => s.mxReady k op

/-- Whether an operation goes before another: by effective class, then by own class (R219). -/
def MxOp.before (a b : MxOp) : Bool := decide (b.ecls < a.ecls) || (a.ecls == b.ecls && decide (b.cls < a.cls))

/-- Operations in the order of R219. -/
def insertOp (x : MxOp) : List MxOp → List MxOp
  | [] => [x]
  | y :: r => if x.before y then x :: y :: r else y :: insertOp x r

def orderOps (xs : List MxOp) : List MxOp := xs.foldr insertOp []

/-- The head operation that the next step is of, and the classes that a MYLD still grants a step. -/
def State.mxChoose (s : State) (k : Cluster) : Option (MxOp × List Nat) :=
  let heads := s.mxHeads k
  let granted := k.yields.filter fun c => heads.any fun op => op.cls == c
  match granted with
  | c :: r => (heads.find? fun op => op.cls == c).map fun op => (op, r)
  | [] => (orderOps heads).head?.map fun op => (op, [])

/-- The head of a class's queue stands changed. -/
def State.setHead (s : State) (op : MxOp) : State :=
  let k := s.cluster op.place.die op.place.cluster
  s.setCluster op.place.die op.place.cluster (k.setQueue op.cls (op :: (k.queue op.cls).tail))

/-- Whether an operation can complete in error: an epilogue (R216, R229). -/
def MxOp.mayFail (op : MxOp) : Bool := match op.work with | .epi _ _ _ _ _ _ _ => true | _ => false

/-- The head of a class's queue has completed: it leaves, and its thread's batches take note (R222, R223, R229). -/
def State.popHead (s : State) (op : MxOp) : State :=
  let k := s.cluster op.place.die op.place.cluster
  let s := s.setCluster op.place.die op.place.cluster (k.setQueue op.cls (k.queue op.cls).tail)
  match s.agent op.who with
  | none => s
  | some a =>
    let b := a.batches
    let err := if !op.mayFail ∨ bitsOf op.status 0 3 = 0 then [] else [(b.completed, (op.status.extractLsb' 8 8 : Byte))]
    s.setAgent { a with batches := { b with completed := b.completed + 1, errors := b.errors ++ err } }

/-- What an operation counts. -/
def MxOp.completion (op : MxOp) : Completion :=
  ⟨op.seq, op.who, op.unit, op.env.det, op.bar, op.handle, op.bytes, 0, op.status⟩

/-- An operation counts and leaves its queue; MWAIT reports the errors of R229, of which an overcount is none. -/
def State.endOp (s : State) (op : MxOp) : State :=
  (s.complete op.completion (s.die op.place.die).time).popHead op

/-- An operation's reads cannot go on: it waits for a walk slot (R311), or for a locked replica, from the die time at which
it first met it (R179, R180). -/
def State.stallHead (s t : State) (op : MxOp) (st : DWord) : Out :=
  if metWait st then .next (s.keepMisses t op.place.die)
  else if op.stall.isSome then .refused .notDue
  else .next (s.setHead { op with stall := some (s.die op.place.die).time })

/-- What an epilogue reports of a page that is not resident: an error with its cause, beside NR or DROP (R229). -/
def missError (st : DWord) : DWord :=
  if st.getLsbD 0 || st.getLsbD 2 then statusMerge st (errStatus .pageNotPresent) else st

/-- A step of an MMA: one K-block, or two of an E2M1 pair (Table 1). Of peers it first asks for what it reads there. -/
def State.mmaStep (s : State) (op : MxOp) (zero sparse : Bool) (acc : Nat) (t : TileRef) (nk bfmt : Nat)
    (scale bitmap : BitVec 512) (w : BScale) : Out :=
  let k := s.cluster op.place.die op.place.cluster
  let n := feedsNeeded op
  let e2 := Fmt.ofCode bfmt == some .e2m1
  let feeds := if n = 0 then op.fed.map fun f => [f] else (List.range 4).map fun q => (k.feed op.cls q).take n
  let k := (List.range 4).foldl (fun k q => k.setFeed op.cls q ((k.feed op.cls q).drop n)) k
  let k := if zero ∧ op.kb = 0 then k.zeroAcc acc else k
  let kbs := if e2 ∧ trFormat t.record = .e2m1 ∧ op.kb + 1 < nk then [op.kb, op.kb + 1] else [op.kb]
  let rows := (List.range 128).filter fun i => t.formed i 0
  let k' := kbs.foldl (fun k kb =>
    k.addBlock acc rows (s.kBlockOf op sparse t bfmt scale bitmap w kb (if e2 then kb % 2 else 0) feeds)) k
  let asked := if op.asked ∨ !sparse then []
    else s.peerKeysOf op.issuer (trSpace bitmap)
      (kbs.flatMap fun kb => (t.bitmapAt kb).eraseDups.flatMap fun p => (elemAddrs bitmap p.1 p.2 0 0).1)
  let r := s.blocksReads op sparse t scale bitmap w kbs
  if !asked.isEmpty then
    .next ((s.sendReads asked (cmdRequest op.place.die op.seq op.unit (s.die op.place.die).time op.env.det)).setHead { op with asked := true })
  else if metWait r.2 || metLock r.2 then s.stallHead r.1 op r.2
  else
    let s := r.1.setCluster op.place.die op.place.cluster k'
    let s := if r.2.getLsbD 5 then raiseFor s .uncorrectable op.unit op.env.det .none (s.die op.place.die).time 0 else s
    let kb := op.kb + kbs.length
    .next (if nk ≤ kb then s.popHead op
      else s.setHead { op with kb := kb, asked := false, stall := none,
                               fed := if e2 ∧ kb % 2 = 1 then feeds.map fun f => f.headD [] else [] })

/-- A step of an epilogue (R224 to R229): reads of peers are asked for first; it waits while another commit to the bytes
that it writes is under way (R29, R179); its own writes to peers and its commit keep it at the head until they have
performed; then it counts. -/
def State.epiStep (s : State) (op : MxOp) (kind a : Nat) (out : TileRef) (ctl : DWord) (scale flags divisor : BitVec 512) : Out :=
  let e := op.issuer
  let req := cmdRequest op.place.die op.seq op.unit (s.die op.place.die).time op.env.det
  let rs := epiRecords kind out ctl flags divisor
  let asked := (epiReads kind out rs.1 rs.2).flatMap fun x => s.peerKeysOf e x.1 x.2
  if op.kb = 2 then .next (s.endOp { op with status := missError op.status })
  else if op.kb = 0 ∧ !asked.isEmpty then .next ((s.sendReads asked req).setHead { op with kb := 1 })
  else
    let r := s.epiRun op kind a out ctl scale flags divisor
    let repl := !r.repl.isEmpty
    if metWait r.status || metLock r.status then s.stallHead r.after op r.status
    else if repl && s.commitPending op.place.die r.repl then .refused .notDue
    else
      let op := { op with bytes := r.bytes, status := statusMerge op.status r.status }
      let s' := if repl then State.commitWrites s r.after e r.repl none { op.completion with bar := none, status := 0 } else r.after
      let s' := s'.cleanUnits op.unit r.plain
      let k := s'.cluster op.place.die op.place.cluster
      let s' := if kind = 3 ∨ (kind < 2 ∧ ctl.getLsbD 18) then s'.setCluster op.place.die op.place.cluster (k.zeroAcc a) else s'
      let out := s'.goesOut op.unit && r.plain.any isPeerKey
      let s' := if out then s'.sendWrites r.plain req else s'
      if out || (repl && !op.env.det) then .next (s'.setHead { op with kb := 2 })
      else .next (s'.endOp { op with status := missError op.status })

/-- MXE_STEP (R219): the next step of the ready operation of the highest effective class, or of a class that a MYLD
granted a step. -/
def execMxeStep (die cluster : Nat) (s : State) : Out :=
  let k := s.cluster die cluster
  match s.mxChoose k with
  | none => .refused .notDue
  | some (op, yields) =>
    let s := s.setCluster die cluster { k with yields := yields }
    match op.work with
    | .mma zero sparse acc a nk bfmt scale bitmap w => s.mmaStep op zero sparse acc a nk bfmt scale bitmap w
    | .epi kind acc out ctl scale flags divisor => s.epiStep op kind acc out ctl scale flags divisor
    | .mscale => .next (s.popHead op)
    | .myld =>
      let lower := (orderOps ((s.mxHeads k).filter fun x => decide (x.ecls < op.ecls))).map MxOp.cls
      .next ((s.setCluster die cluster { k with yields := lower ++ yields.filter fun c => !lower.contains c }).popHead op)

/-! Drains and mailboxes (R230, R231). -/

/-- MDRAIN (R230): the group waits for a step boundary. -/
def execMdrain (a : BitVec 7) (s : State) : Out :=
  guard { gNeed .core [a] with writes := regSpan 88 32 } s fun s =>
    let x := s.me.g7 a
    match lowestSub
      [ (1, bitsOf x 12 52 != 0 || bitsOf x 6 2 != 0), (2, !s.ownsTile s.me.ctx (bitsOf x 4 2) (bitsOf x 0 4)) ] with
    | some sub => .next (subTrap s .mxOperand sub)
    | none => .next { s with me := s.me.setWait (.mdrain x) }

/-- Whether a queued operation names a tile. -/
def MxOp.names (op : MxOp) (a : Nat) : Bool :=
  match op.work with
  | .mma _ _ acc _ _ _ _ _ _ => acc == a
  | .epi _ acc _ _ _ _ _ => acc == a
  | _ => false

/-- The block that MDRAIN copies: register 88 + j of lane l (R230). -/
def drainWord (k : Cluster) (x : DWord) (j l : Nat) : Word :=
  k.accAt (bitsOf x 0 4) (32 * bitsOf x 8 2 + l) (32 * bitsOf x 10 2 + j)

/-- Whether a sub-group waits at MDRAIN, or at MRECV. -/
def Wait.isMdrain : Wait → Bool
  | .mdrain _ => true | _ => false
def Wait.isMrecv : Wait → Bool
  | .mrecv _ => true | _ => false

/-- MDRAIN_READ (R230): the whole block is read at one step boundary. -/
def execMdrainRead (w : Who) (s : State) : Out :=
  match s.waiting w Wait.isMdrain with
  | none => .refused .notDue
  | some a =>
    match a.wait with
    | .mdrain x =>
      let k := s.cluster a.place.die a.place.cluster
      if a.env.det && ((k.queue (bitsOf x 4 2)).any fun op => op.names (bitsOf x 0 4)) then .refused .notDue
      else
        let b := a.writeSpan a.cur.em 88 ((List.range 32).map fun j => laneResult a.cur.em (drainWord k x j))
        .next (s.setAgent ((b.setWait .none).retire none (a.nextPc 4) true))
    | _ => .refused .notDue

/-- A word is appended to a mailbox. -/
def Agent.post (a : Agent) (sender : Nat) (w : Word) : Agent :=
  { a with mailbox := a.mailbox ++ [BitVec.ofNat 64 (sender * 2 ^ 32 + w.toNat)] }

/-- MSIG (R231, R296): the word is appended with release at block scope; a saved group's mailbox counts as full. A group
that the block does not have counts as one that has ended (DEDUCED, log entry 54, as is the trap of a set MBZ bit). -/
def execMsig (b a d : BitVec 7) (s : State) : Out :=
  guard (gNeed .core [d, a, b]) s fun s =>
    let x := s.me.g7 a
    if bitsOf x 7 57 ≠ 0 then .next (subTrap s .mxOperand 1)
    else if s.me.env.det then .next (takeTrap s .detViolation)
    else
      match s.agent (.group s.me.unit (bitsOf x 0 7)) with
      | none => .next (s.finishG d 2 true)
      | some t =>
        if t.run = .ended then .next (s.finishG d 2 true)
        else if t.run = .saved ∨ 4 ≤ t.mailbox.length then .next (s.finishG d 1 true)
        else s.drained fun s =>
          let t := (s.agent t.who).getD t
          .next ((s.setAgent (t.post s.me.index ((s.me.g7 b).extractLsb' 0 32))).finishG d 0 true)

/-- MRECV (R231): the oldest word, or a wait for one. -/
def execMrecv (d : BitVec 7) (s : State) : Out :=
  guard (gNeed .core [d]) s fun s =>
    if s.me.env.det then .next (takeTrap s .detViolation)
    else
      match s.me.mailbox with
      | w :: r => .next ({ s with me := { s.me with mailbox := r } }.finishG d w true)
      | [] => .next { s with me := s.me.setWait (.mrecv d.toNat) }

/-- MRECV_WAKE (R231): the mailbox holds a word. -/
def execMrecvWake (w : Who) (s : State) : Out :=
  match s.waiting w Wait.isMrecv with
  | none => .refused .notDue
  | some a =>
    match a.wait, a.mailbox with
    | .mrecv d, x :: r => .next (s.setAgent ({ a with mailbox := r }.wake d x))
    | _, _ => .refused .notDue

end Sys2Proof.Machine
end

