-- ==== Sys2Proof/Machine/DecodeEngine.lean ====
section
/-!
DEFINITION. The decode engine: DATT, DDIST, DTOPK and DKVAP with the pages in which they execute (R239 to R248).
-/
namespace Sys2Proof.Machine

/-! Acceptance (R240). -/

/-- Bytes of a tensor row of `hd` elements padded to a multiple of 16 (R245). -/
def paddedRow (f : Fmt) (hd : Nat) : Nat := (rowBytesOf f hd + 15) / 16 * 16

/-- Whether an area is where a command may name one (sub-reason 4): aligned, wholly in own local memory, the cluster
window or the die scratchpad, and of bytes that exist there and that the scheduler does not hold. -/
def State.areaOk (s : State) (a : Agent) (base n align : Nat) : Bool :=
  base % align == 0
    && (decide (base + n ≤ 0x80000) || (decide (0x400_0000 ≤ base) && decide (base + n ≤ 0x800_0000))
      || (decide (0x1000_0000 ≤ base) && decide (base + n ≤ 0x2000_0000)))
    && (match s.odaBytes a base n with | .ok _ => true | .error _ => false)

/-- The tensor ids of a SRC field with TENS set, and its first head. -/
def srcK (src : Nat) : Nat := src % 2 ^ 12
def srcV (src : Nat) : Nat := src / 2 ^ 16 % 2 ^ 12
def srcHead (src : Nat) : Nat := src / 2 ^ 32 % 2 ^ 8

/-- The MBZ bits of a SRC field (R241). -/
def srcMbz (tens : Bool) (src : Nat) : Bool :=
  if tens then src / 2 ^ 12 % 2 ^ 4 != 0 || src / 2 ^ 28 % 2 ^ 4 != 0 || src / 2 ^ 40 != 0 else src / 2 ^ 24 != 0

/-- Whether a K or V record is as R244 asks. A command that names tensors has its HD from their EXT0 (DEDUCED, log entry 68). -/
def kvRecordOk (r : BitVec 512) : Bool := trFmt r == 1 || trFmt r == 3

/-- Whether the K and V records of a command that there are do not fall under sub-reason 5 of Table 3. -/
def kvRecordsOk (k v : Option (BitVec 512)) : Bool :=
  k.all kvRecordOk && v.all kvRecordOk &&
    k.all fun k => v.all fun v => trFmt v == trFmt k && trExt v 0 == trExt k 0 && trExt v 1 == trExt k 1

/-- The format, the head dimension and the first head of a command's rows. -/
structure KvShape where
  fmt   : Fmt
  hd    : Nat
  head0 : Nat
deriving DecidableEq, Repr

/-- The shape of DATT and DKVAP: by the records in TENS mode, else by the context's geometry. -/
def State.kvShape (s : State) (ctx : Nat) (tens : Bool) (src : Nat) (k : Option (BitVec 512)) : Option KvShape :=
  if tens then k.map fun r => ⟨trFormat r, trExt r 0, srcHead src⟩
  else (s.kvGeom ctx).map fun g => ⟨g.1, g.2, src / 2 ^ 16 % 2 ^ 8⟩

/-- The fields of a DATT block (Table 4). -/
def dattSrc (b : BitVec 512) : Nat := recField b 0 8
def dattP0 (b : BitVec 512) : Nat := recField b 8 4
def dattNpos (b : BitVec 512) : Nat := recField b 0xC 4
def dattNhead (b : BitVec 512) : Nat := recField b 0x10 1
def dattQph (b : BitVec 512) : Nat := recField b 0x11 1
def dattFlag (b : BitVec 512) (i : Nat) : Bool := recBits b 0x12 i 1 == 1
def dattWin (b : BitVec 512) : Nat := recField b 0x14 1
def dattQoda (b : BitVec 512) : Nat := recField b 0x18 4
def dattSoda (b : BitVec 512) : Nat := recField b 0x1C 4
def dattStata (b : BitVec 512) : Nat := recField b 0x20 4
def dattScale (b : BitVec 512) : Word := BitVec.ofNat 32 (recField b 0x24 4)

/-- NB, the blocks of a span of positions (R243). -/
def dattBlocks (b : BitVec 512) : Nat := (dattP0 b + dattNpos b - 1) / 64 + 1 - dattP0 b / 64

def stateRow (hd : Nat) : Nat := 16 + 4 * hd

/-- Whether the rows and arrays of a command all stand where they may (sub-reason 4). Without a record or a geometry the rows
have no length, and their places alone are tested. -/
def State.areasOk (s : State) (a : Agent) (xs : List (Nat × Nat × Nat)) : Bool := xs.all fun x => s.areaOk a x.1 (max 1 x.2.1) x.2.2

/-- The conditions of Table 3 for DATT. -/
def State.dattConditions (s : State) (b : BitVec 512) (k v : Option (BitVec 512)) (sh : Option KvShape) : List (Nat × Bool) :=
  let a := s.me
  let tens := dattFlag b 3
  let nq := dattNhead b * dattQph b
  let last := dattP0 b + dattNpos b
  let past := fun (r : Option (BitVec 512)) =>
    r.any fun r => decide (trExt r 1 < last) || decide (trExt r 2 < srcHead (dattSrc b) + dattNhead b)
  let head0 := if tens then srcHead (dattSrc b) else dattSrc b / 2 ^ 16 % 2 ^ 8
  let counts := dattNpos b == 0 || decide (4096 < dattNpos b) || dattNhead b == 0 || decide (16 < dattNhead b)
    || dattQph b == 0 || decide (8 < dattQph b) || decide (32 < nq)
  [ (1, srcMbz tens (dattSrc b) || recBits b 0x12 4 12 != 0 || recBits b 0x14 4 4 != 0
        || (!dattFlag b 0 && dattWin b != 0) || recField b 0x15 3 != 0 || recField b 0x28 24 != 0),
    (2, counts),
    (3, decide (2 ^ 20 < last) || decide (256 < head0 + dattNhead b) || (tens && (past k || past v))),
    (4, !counts && !s.areasOk a
        [ (dattQoda b, nq * sh.elim 0 fun x => rowBytesOf x.fmt x.hd, 16), (dattSoda b, nq * sh.elim 16 fun x => stateRow x.hd, 16),
          (dattStata b, dattBlocks b * dattNhead b, 1) ]),
    (5, tens && !kvRecordsOk k v),
    (6, dattFlag b 0 && genKind ((s.context a.ctx).window (dattWin b % 16)) != 2),
    (7, tens && ((k.toList ++ v.toList).any fun r => trTread r || (trRing r && decide (trMod r < dattNpos b)))),
    (8, !tens && sh.isNone) ]

/-- The fields of a DKVAP block (Table 7). -/
def apPos (b : BitVec 512) : Nat := recField b 8 4
def apNhead (b : BitVec 512) : Nat := recField b 0xC 1
def apTens (b : BitVec 512) : Bool := recBits b 0xD 0 1 == 1
def apKoda (b : BitVec 512) : Nat := recField b 0x10 4
def apVoda (b : BitVec 512) : Nat := recField b 0x14 4
def apStata (b : BitVec 512) : Nat := recField b 0x18 4

/-- The conditions of Table 3 for DKVAP. -/
def State.apConditions (s : State) (b : BitVec 512) (k v : Option (BitVec 512)) (sh : Option KvShape) : List (Nat × Bool) :=
  let a := s.me
  let tens := apTens b
  let past := fun (r : Option (BitVec 512)) =>
    r.any fun r => decide (trExt r 1 ≤ apPos b) || decide (trExt r 2 < srcHead (dattSrc b) + apNhead b)
  let head0 := if tens then srcHead (dattSrc b) else dattSrc b / 2 ^ 16 % 2 ^ 8
  let counts := apNhead b == 0 || decide (16 < apNhead b)
  [ (1, srcMbz tens (dattSrc b) || recBits b 0xD 1 7 != 0 || recField b 0xE 2 != 0 || recField b 0x1C 36 != 0),
    (2, counts),
    (3, (!tens && decide (2 ^ 20 ≤ apPos b)) || decide (256 < head0 + apNhead b) || (tens && (past k || past v))),
    (4, !counts && !s.areasOk a
        [ (apKoda b, apNhead b * sh.elim 0 fun x => rowBytesOf x.fmt x.hd, 16),
          (apVoda b, apNhead b * sh.elim 0 fun x => rowBytesOf x.fmt x.hd, 16), (apStata b, apNhead b, 1) ]),
    (5, tens && !kvRecordsOk k v),
    (7, tens && ((k.toList ++ v.toList).any fun r => trTread r)),
    (8, !tens && sh.isNone) ]

/-- The fields of a DDIST block (Table 5). -/
def distMetric (b : BitVec 512) : Nat := recField b 2 1
def distNq (b : BitVec 512) : Nat := recField b 3 1
def distNv (b : BitVec 512) : Nat := recField b 4 4
def distQoda (b : BitVec 512) : Nat := recField b 8 4
def distIoda (b : BitVec 512) : Nat := recField b 0xC 4
def distOoda (b : BitVec 512) : Nat := recField b 0x10 4
def distStata (b : BitVec 512) : Nat := recField b 0x14 4

/-- The conditions of Table 3 for DDIST. -/
def State.distConditions (s : State) (b : BitVec 512) (r : Option (BitVec 512)) : List (Nat × Bool) :=
  let a := s.me
  let nq := distNq b
  let nv := distNv b
  let counts := nq == 0 || decide (32 < nq) || nv == 0 || decide (65536 < nv) || (r.any fun r => decide (4096 < trExt r 0))
  [ (1, recBits b 0 12 4 != 0 || recField b 0x18 40 != 0),
    (2, counts),
    (4, !counts && !s.areasOk a
        [ (distIoda b, 4 * nv, 4), (distOoda b, 4 * nq * nv, 4), (distStata b, nv, 1),
          (distQoda b, nq * r.elim 0 fun r => paddedRow (trFormat r) (trExt r 0), 16) ]),
    (5, decide (2 < distMetric b) || r.any fun r => trRank r != 2 || !(trFmt r == 0 || trFmt r == 1 || trFmt r == 3)) ]

/-- The fields of a DTOPK block (Table 6). -/
def topSoda (b : BitVec 512) : Nat := recField b 0 4
def topNs (b : BitVec 512) : Nat := recField b 4 4
def topIoda (b : BitVec 512) : Nat := recField b 8 4
def topIbase (b : BitVec 512) : Nat := recField b 0xC 4
def topLoda (b : BitVec 512) : Nat := recField b 0x10 4
def topK (b : BitVec 512) : Nat := recField b 0x14 2
def topNq (b : BitVec 512) : Nat := recField b 0x16 1
def topFirst (b : BitVec 512) : Bool := recBits b 0x17 1 1 == 1
def topAsc (b : BitVec 512) : Bool := recBits b 0x17 0 1 == 1
def topStata (b : BitVec 512) : Nat := recField b 0x18 4

def topList (k : Nat) : Nat := 16 + 8 * k

/-- The conditions of Table 3 for DTOPK. -/
def State.topConditions (s : State) (b : BitVec 512) : List (Nat × Bool) :=
  let a := s.me
  let nq := topNq b
  let counts := nq == 0 || decide (32 < nq) || topNs b == 0 || decide (65536 < topNs b) || topK b == 0 || decide (1024 < topK b)
  [ (1, recBits b 0x17 2 6 != 0 || recField b 0x1C 36 != 0),
    (2, counts),
    (4, !counts && !(s.areaOk a (topSoda b) (4 * nq * topNs b) 4
        && (topIoda b == 0 || s.areaOk a (topIoda b) (4 * topNs b) 4)
        && s.areaOk a (topLoda b) (nq * topList (topK b)) 4 && s.areaOk a (topStata b) nq 1)) ]

/-- The conditions of Table 3 for a command, with the tensor ids that it names and whether it writes through them. -/
def State.dceConditions (s : State) (op : Nat) (b : BitVec 512) : List (Nat × Bool) × List Nat :=
  let c := s.myContext
  let src := dattSrc b
  match op with
  | 0 =>
    let tens := dattFlag b 3
    let k := if tens then c.tensor (srcK src) else none
    let v := if tens then c.tensor (srcV src) else none
    (s.dattConditions b k v (s.kvShape s.me.ctx tens src k), if tens then [srcK src, srcV src] else [])
  | 1 => (s.distConditions b (c.tensor (recBits b 0 0 12)), [recBits b 0 0 12])
  | 2 => (s.topConditions b, [])
  | _ =>
    let tens := apTens b
    let k := if tens then c.tensor (srcK src) else none
    let v := if tens then c.tensor (srcV src) else none
    (s.apConditions b k v (s.kvShape s.me.ctx tens src k), if tens then [srcK src, srcV src] else [])

/-- A command joins the DCE's queue (R240). -/
def State.acceptDce (s : State) (op : Nat) (b : BitVec 512) (ids : List Nat) (bar : Option Nat) (handle : Half) : State :=
  let s := s.missOnAccept s.me.place.die
  let a := s.me
  let d := s.die a.place.die
  let c := s.myContext
  let cmd : DceCmd :=
    { seq := s.nextSeq, who := a.who, place := a.place, unit := a.unit, env := a.env, op := op, block := b,
      recA := (c.tensor (ids.getD 0 0)).getD 0, recB := (c.tensor (ids.getD 1 0)).getD 0, windows := c.windows,
      regs := s.regsOf a.ctx, bar := bar, handle := handle, done := 0, status := 0, stall := none, stage := 0, peer := 0 }
  let s := ({ s with nextSeq := s.nextSeq + 1 }.retainOpt bar).setDie a.place.die { d with dceQ := d.dceQ ++ [cmd] }
  if (op = 0 ∨ op = 3) ∧ ids.isEmpty then s.touchSeq a.ctx (dattSrc b % 2 ^ 16) s.now else s

/-- The four DCE commands (R240), with their checks in order; a full queue holds the group back. -/
def dceForm (op : Nat) (b a : BitVec 7) (s : State) : Out :=
  guard (gNeed .core [a, b]) s fun s =>
    let ga := s.me.g7 a
    let gb := s.me.g7 b
    let h := gb.extractLsb' 0 16
    if bitsOf ga 32 32 ≠ 0 ∨ bitsOf gb 16 48 ≠ 0 then .next (takeTrap s .illegalField)
    else
      match s.image (bitsOf ga 0 32) 64 with
      | .error c => .next (addrTrap s c (bitsOf ga 0 32))
      | .ok bs =>
        match s.cmdHandle h with
        | .error c => .next (takeTrap s c)
        | .ok bar =>
          let blk := BitVec.ofNat 512 (leNat bs)
          let x := s.dceConditions op blk
          match lowestSub x.1 with
          | some sub => .next (subTrap s .dceParam sub)
          | none =>
            let rs := x.2.map fun id => s.myContext.tensor id
            if rs.any Option.isNone then .next (takeTrap s .tensorId)
            else if op = 3 ∧ rs.any (fun r => r.any fun r => !mayWrite r) then .next (subTrap s .tensorRecord 13)
            else if 64 ≤ (s.die s.me.place.die).dceQ.length then .next s
            else .next ((s.acceptDce op blk x.2 bar h).finish true)

/-- DATT (R241). -/
def execDatt (b a : BitVec 7) (s : State) : Out := dceForm 0 b a s
/-- DDIST (R245). -/
def execDdist (b a : BitVec 7) (s : State) : Out := dceForm 1 b a s
/-- DTOPK (R246). -/
def execDtopk (b a : BitVec 7) (s : State) : Out := dceForm 2 b a s
/-- DKVAP (R247). -/
def execDkvap (b a : BitVec 7) (s : State) : Out := dceForm 3 b a s

/-! What the steps share. -/

def DceCmd.issuer (c : DceCmd) (die : Nat) : Issuer := ⟨issuerAgent c.who c.place c.unit c.env, die, c.windows, c.seq⟩

/-- A little-endian number of `w` bytes of an area, and what its read reports. -/
def State.areaNum (s : State) (e : Issuer) (w base : Nat) : Nat × DWord :=
  let r := s.engineBytes e 0 ((List.range w).map fun i => base + i)
  (leNat r.2.1, r.2.2)

/-- `n` such numbers one after another, and what their reads report. -/
def State.areaNums (s : State) (e : Issuer) (w base n : Nat) : List Nat × DWord :=
  let xs := (List.range n).map fun i => s.areaNum e w (base + w * i)
  (xs.map (·.1), (xs.map (·.2)).foldl statusMerge 0)

/-- Bytes written in an area, and what the write reports; a unit written whole is then no longer poisoned. -/
def State.areaSet (s : State) (e : Issuer) (base : Nat) (bs : List Byte) : State × DWord :=
  let r := s.engineWrite e 0 (cellsAt base bs)
  (r.1.cleanUnits e.agent.unit r.2.1, r.2.2)

/-- The same for the steps of a list, each a part of one page. -/
def areaAll (f : State → Nat → State × DWord) : List Nat → State → State × DWord
  | [], s => (s, 0)
  | i :: r, s =>
    let x := f s i
    let y := areaAll f r x.1
    (y.1, statusMerge x.2 y.2)

/-- The bytes of a list of FP32 words. -/
def wordBytes (ws : List Word) : List Byte := ws.flatMap fun w => leBytes 4 w.toNat

/-- Whether a read failed (R239). -/
def readFailed (st : DWord) : Bool := st.getLsbD 1

/-- ERR and CAUSE of what an access reported. -/
def errorPart (st : DWord) : DWord := st &&& 0xFF02

/-- The status bits that a status code adds to the command's status word (R239, R335), beside those that hold the page
back. A read or a write that a window refuses has that as its cause too, of which the lowest stands (R133, R152). -/
def codeStatus (code : Nat) (write : Bool) (st : DWord) : DWord :=
  (st &&& 0x50) |||
    (if code = 4 then (if write && readFailed st && !st.getLsbD 5 then errorPart st
        else statusMerge (errStatus .uncorrectable ||| 0x20) (errorPart st))
     else if code = 0 ∨ 5 ≤ code then 0
     else statusMerge (BitVec.ofNat 64 (2 ^ 56) ||| (if write then 4 else 1)) (st &&& ~~~0x70))

/-- The code of what an engine's access reported: an error, a page that is not resident, or nothing. -/
def reportCode (st : DWord) (write : Bool) : Nat :=
  if readFailed st then 4 else if st.getLsbD (if write then 2 else 0) then 1 else 0

/-- The status code of a residency-map entry (R239). -/
def kvCode (e : DWord) : Nat := match kvState e with | 1 => 0 | 2 => 1 | 3 => 2 | _ => 3

/-- The largest of a list of FP32 words by R19. -/
def maxWord : List Word → Word
  | [] => 0xFF80_0000
  | [x] => x
  | x :: r => fmaxW x (maxWord r)

/-- Tree64 (R243): the balanced tree over 64 slots. -/
def tree64 (x : Nat → Word) : Word := pairTree 6 x 0

/-! DATT (R243, R244). -/

/-- The running state of one query row. -/
structure SoftRow where
  m    : Word
  l    : Word
  qpos : Word
  lse  : Word
  acc  : List Word
deriving DecidableEq, Repr

def SoftRow.of (ws : List Word) : SoftRow :=
  ⟨ws.getD 0 0, ws.getD 1 0, ws.getD 2 0, ws.getD 3 0, ws.drop 4⟩

def SoftRow.bytes (r : SoftRow) : List Byte := wordBytes ([r.m, r.l, r.qpos, r.lse] ++ r.acc)

/-- The code of −infinity. -/
def minusInf : Word := 0xFF80_0000

/-- A block's positions with their scores and V rows. -/
structure Scored where
  slot : Nat
  s    : Word
  v    : List Word
deriving DecidableEq, Repr

/-- One block of the online softmax of one row (R243). -/
def SoftRow.block (st : SoftRow) (f : List Scored) : SoftRow :=
  if f.isEmpty then st
  else
    let mt := maxWord (f.map Scored.s)
    let u := if mt = minusInf then 0 else mt
    let e := fun (x : Scored) => ex2F32 (fsubW x.s u)
    let slot := fun (g : Scored → Word) (i : Nat) => (f.find? fun x => x.slot == i).elim 0 g
    let lt := tree64 (slot e)
    let m2 := fmaxW st.m mt
    let w := if m2 = minusInf then 0 else m2
    let a := ex2F32 (fsubW st.m w)
    let c := ex2F32 (fsubW mt w)
    { st with m := m2, l := fmaW lt c (fmulW st.l a),
              acc := (List.range st.acc.length).map fun d =>
                fmaW (tree64 (slot fun x => fmulW (e x) (x.v.getD d 0))) c (fmulW (st.acc.getD d 0) a) }

/-- FIRST and FINAL (R243). -/
def SoftRow.first (st : SoftRow) : SoftRow := { st with m := minusInf, l := 0, acc := st.acc.map fun _ => 0 }

def SoftRow.final (st : SoftRow) : SoftRow :=
  let q := if st.l.toNat % 2 ^ 31 = 0 then 0 else rcpF32 st.l
  { st with acc := st.acc.map fun x => fmulW x q, lse := faddW st.m (lg2F32 st.l) }

/-- The allowed test of R130 for a query position and a position. -/
def dattAllowed (r : BitVec 256) (qpos : Word) (p : Nat) : Bool :=
  let q : Int := (qpos.toNat : Nat)
  let off := signed32 (recField r 8 4)
  let w : Int := (recField r 12 4 : Nat)
  decide ((p : Int) ≤ q + off) && (w == 0 || decide (q + off - p < w))

/-- The byte addresses of the first `n` elements, of whole bytes, of a row of a tensor. -/
def rowAddrs (r : BitVec 512) (n i1 i2 : Nat) : List Nat := (List.range n).flatMap fun d => (elemAddrs r d i1 i2 0).1

/-- A row of a tensor read by an engine: the codes of its first `n` elements. -/
def State.tensorRow (s : State) (e : Issuer) (r : BitVec 512) (n i1 i2 : Nat) : State × List Nat × DWord :=
  let x := s.engineBytes e (trSpace r) (rowAddrs r n i1 i2)
  (x.1, groupBytes (trFormat r).bytes n x.2.1, x.2.2)

/-- A row of a page's frame: the codes of its elements. A poisoned row is not delivered (R338). -/
def State.frameRow (s : State) (e : Issuer) (f : Fmt) (hd at' : Nat) : State × List Nat × DWord :=
  let ks := (List.range (rowBytesOf f hd)).map fun i => at' + i
  let bad := ks.any fun k => s.poison.contains (k / 16)
  (s, groupBytes f.bytes hd (if bad then ks.map fun _ => 0 else s.readKeys e.agent.unit ks),
    if bad then errStatus .uncorrectable ||| 0x20 else 0)

/-- The K (or V) row of a position and a head: from the frame of its page, or through the record. -/
def State.kvRow (s : State) (e : Issuer) (tens : Bool) (r : BitVec 512) (sh : KvShape) (frame : Nat) (isV : Bool) (p h : Nat) :
    State × List Nat × DWord :=
  if tens then s.tensorRow e r sh.hd p h
  else
    let rb := rowBytesOf sh.fmt sh.hd
    s.frameRow e sh.fmt sh.hd (frame + (if isV then 64 * rb else 0) + p % 64 * rb)

/-- Such rows of a list of positions. -/
def State.kvRows (s : State) (row : State → Nat → State × List Nat × DWord) : List Nat → State × List (List Nat) × DWord
  | [] => (s, [], 0)
  | p :: r =>
    let x := row s p
    let y := State.kvRows x.1 row r
    (y.1, x.2.1 :: y.2.1, statusMerge x.2.2 y.2.2)

/-- The positions of block b of a span. -/
def blockPositions (p0 npos b : Nat) : List Nat := (List.range npos).filterMap fun i =>
  if (p0 + i) / 64 = b then some (p0 + i) else none

/-- The state row and the query row of each query of a head, and what each one's reads report. -/
def State.dattRows (s : State) (e : Issuer) (b : BitVec 512) (sh : KvShape) (hi : Nat) : List ((List Nat × DWord) × (List Nat × DWord)) :=
  (List.range (dattQph b)).map fun j =>
    let r := hi * dattQph b + j
    (s.areaNums e 4 (dattSoda b + r * stateRow sh.hd) (4 + sh.hd),
     s.areaNums e sh.fmt.bytes (dattQoda b + r * rowBytesOf sh.fmt sh.hd) sh.hd)

/-- One page of a DATT: its status is read once, and it advances the rows of its head (R239, R243). A query or state row
that cannot be read fails the page, and such a state row is not written (DESIGN CHOICE, log entry 67). -/
def State.dattPage (s : State) (c : DceCmd) (e : Issuer) (sh : KvShape) (hi bi : Nat) : State × DWord :=
  let b := c.block
  let tens := dattFlag b 3
  let h := sh.head0 + hi
  let blk := dattP0 b / 64 + bi
  let ent := (s.context c.unit.ctx).kv ⟨dattSrc b % 2 ^ 16, h, blk⟩
  let there := tens || kvState ent == 1
  let ps := if there then blockPositions (dattP0 b) (dattNpos b) blk else []
  let ks := s.kvRows (fun s p => s.kvRow e tens c.recA sh (kvFrame ent) false p h) ps
  let vs := ks.1.kvRows (fun s p => s.kvRow e tens c.recB sh (kvFrame ent) true p h) ps
  let s := vs.1
  let rows := s.dattRows e b sh hi
  let st := statusMerge c.peer (statusMerge ks.2.2 vs.2.2)
  let code := if rows.any fun r => readFailed r.1.2 || readFailed r.2.2 then 4 else if there then reportCode st false else kvCode ent
  let row := fun (s : State) (j : Nat) =>
    let r := rows.getD j (([], 0), ([], 0))
    let x := SoftRow.of (r.1.1.map (BitVec.ofNat 32))
    let x := if bi = 0 ∧ dattFlag b 1 then x.first else x
    let q := r.2.1.map (decodeNum sh.fmt)
    let f := ((ps.zip (ks.2.1.zip vs.2.1)).filter fun p =>
      code == 0 && (!dattFlag b 0 || dattAllowed (Store.get 0 c.windows (dattWin b)) x.qpos p.1)).map fun p =>
        (⟨p.1 % 64, fmulW (toF32 (dotSum (q.zip (p.2.1.map (decodeNum sh.fmt))) (.num false 0))) (dattScale b),
          p.2.2.map (widen sh.fmt)⟩ : Scored)
    let x := x.block f
    let x := if bi + 1 = dattBlocks b ∧ dattFlag b 2 then x.final else x
    if readFailed r.1.2 then (s, 0) else s.areaSet e (dattSoda b + (hi * dattQph b + j) * stateRow sh.hd) x.bytes
  let w := areaAll row (List.range (dattQph b)) s
  let t := w.1.areaSet e (dattStata b + bi * dattNhead b + hi) [BitVec.ofNat 8 code]
  (t.1, statusMerge (codeStatus code false st) (statusMerge w.2 t.2))

/-! DDIST (R245). -/

/-- |x|² and the like: the exact sum of products of finite values. -/
def sumOf (xs : List (FVal × FVal)) (f : Rat → Rat → Rat) : Rat := (xs.map fun p => f p.1.toRat p.2.toRat).sum

/-- The FP32 code nearest to √t, ties to even, from a code at most one away: the midpoints beside it are compared
with t exactly. -/
def nearSqrt (t : Rat) (c : Nat) : Nat :=
  let mid := fun (n : Nat) => (Fmt.fp32.magOf n + Fmt.fp32.magOf (n + 1)) / 2
  let up := mid c * mid c
  let down := if c = 0 then 0 else mid (c - 1) * mid (c - 1)
  if up < t ∨ (up = t ∧ c % 2 = 1) then c + 1
  else if c ≠ 0 ∧ (t < down ∨ (t = down ∧ c % 2 = 1)) then c - 1
  else c

/-- RoundNE of √t to FP32 for t at most 1 (R245). -/
def sqrtCode (t : Rat) : Nat := nearSqrt t (Fmt.fp32.roundCode .ne (sqrtApprox t))

/-- A score (R245). -/
def distScore (metric : Nat) (ps : List (FVal × FVal)) : Word :=
  let all := ps.map (·.1) ++ ps.map (·.2)
  if all.any FVal.isNaN then toF32 (.nan false)
  else
    match metric with
    | 0 => if all.any FVal.isInf then toF32 (.inf false) else toF32 (FVal.ofRat (sumOf ps fun a b => (a - b) * (a - b)) false)
    | 1 => toF32 (dotSum ps (.num false 0))
    | _ =>
      if all.any FVal.isInf then toF32 (.nan false)
      else
        let q := sumOf ps fun a _ => a * a
        let x := sumOf ps fun _ b => b * b
        let ip := sumOf ps fun a b => a * b
        if q = 0 ∨ x = 0 ∨ ip = 0 then 0
        else BitVec.ofNat 32 (Fmt.fp32.signed (decide (ip < 0)) (sqrtCode (ip * ip / (q * x))))

/-- The score of a row whose status is not 0 (R245). -/
def worstScore (metric : Nat) : Word := if metric = 0 then 0x7F80_0000 else minusInf

/-- One row of a DDIST: its status and its score for every query. An index or a query row that cannot be read fails the
row (DESIGN CHOICE, log entry 67). -/
def State.distPage (s : State) (c : DceCmd) (e : Issuer) (j : Nat) : State × DWord :=
  let b := c.block
  let f := trFormat c.recA
  let n := trExt c.recA 0
  let idx := s.areaNum e 4 (distIoda b + 4 * j)
  let there := decide (idx.1 < trExt c.recA 1)
  let x := if there then s.tensorRow e c.recA n idx.1 0 else (s, [], 0)
  let s := x.1
  let qs := (List.range (distNq b)).map fun q => s.areaNums e f.bytes (distQoda b + q * paddedRow f n) n
  let st := if there then statusMerge c.peer x.2.2 else 0
  let code := if readFailed idx.2 || qs.any fun q => readFailed q.2 then 4 else if there then reportCode st false else 3
  let one := fun (s : State) (q : Nat) =>
    let score := if code = 0 then
        distScore (distMetric b) (((qs.getD q ([], 0)).1.map (decodeNum f)).zip (x.2.1.map (decodeNum f)))
      else worstScore (distMetric b)
    s.areaSet e (distOoda b + 4 * (q * distNv b + j)) (leBytes 4 score.toNat)
  let w := areaAll one (List.range (distNq b)) s
  let t := w.1.areaSet e (distStata b + j) [BitVec.ofNat 8 code]
  (t.1, statusMerge (codeStatus code false st) (statusMerge w.2 t.2))

/-! DTOPK (R246). -/

/-- An entry of a list. -/
structure Scoring where
  score : Word
  index : Nat
deriving DecidableEq, Repr

/-- Whether an entry is better than another: by score, then by lower index. Between −0 and +0 under one index, which
the specification leaves equal, `neg` decides (DESIGN CHOICE, log entry 24). -/
def Scoring.better (asc neg : Bool) (a b : Scoring) : Bool :=
  let x := f32 a.score
  let y := f32 b.score
  if (if asc then x.lt y else y.lt x) then true
  else if (if asc then y.lt x else x.lt y) then false
  else decide (a.index < b.index) || (a.index == b.index && a.score != b.score && x.sign == neg)

/-- A list in order with one more entry. -/
def insertScoring (asc neg : Bool) (a : Scoring) : List Scoring → List Scoring
  | [] => [a]
  | b :: r => if Scoring.better asc neg a b then a :: b :: r else b :: insertScoring asc neg a r

/-- The best entry of each index, of a list that is in order. -/
def firstOfEach : List Nat → List Scoring → List Scoring
  | _, [] => []
  | seen, a :: r => if seen.contains a.index then firstOfEach seen r else a :: firstOfEach (a.index :: seen) r

/-- The best k entries of a union. -/
def bestOf (asc neg : Bool) (k : Nat) (xs : List Scoring) : List Scoring :=
  (firstOfEach [] ((xs.filter fun a => !(f32 a.score).isNaN).foldr (insertScoring asc neg) [])).take k

/-- The bytes of a list. -/
def listBytes (k : Nat) (xs : List Scoring) : List Byte :=
  leBytes 4 xs.length ++ List.replicate 12 0 ++ (xs.flatMap fun a => leBytes 4 a.score.toNat ++ leBytes 4 a.index)
    ++ List.replicate (8 * (k - xs.length)) 0

/-- One query of a DTOPK. A score, an index or a list that cannot be read fails the query, whose list then stays as it is
(DESIGN CHOICE, log entry 67). -/
def State.topPage (s : State) (c : DceCmd) (e : Issuer) (q : Nat) : State × DWord :=
  let b := c.block
  let k := topK b
  let at' := topLoda b + q * topList k
  let count := if topFirst b then (0, 0) else s.areaNum e 4 at'
  let old := s.areaNums e 4 (at' + 16) (2 * min count.1 k)
  let scores := s.areaNums e 4 (topSoda b + 4 * (q * topNs b)) (topNs b)
  let index := if topIoda b = 0 then ((List.range (topNs b)).map fun j => (topIbase b + j) % 2 ^ 32, 0)
    else s.areaNums e 4 (topIoda b) (topNs b)
  let all := ((List.range (min count.1 k)).map fun i => (⟨BitVec.ofNat 32 (old.1.getD (2 * i) 0), old.1.getD (2 * i + 1) 0⟩ : Scoring))
    ++ (scores.1.zip index.1).map fun x => (⟨BitVec.ofNat 32 x.1, x.2⟩ : Scoring)
  let bad := readFailed (statusMerge count.2 (statusMerge old.2 (statusMerge scores.2 index.2)))
  let code := if bad then 4 else if all.any fun a => (f32 a.score).isNaN then 6 else 0
  let w := if bad then (s, 0)
    else s.useFree.areaSet e at' (listBytes k (bestOf (topAsc b) (s.freeWord.getLsbD 0) k all))
  let t := w.1.areaSet e (topStata b + q) [BitVec.ofNat 8 code]
  (t.1, statusMerge (codeStatus code false 0) (statusMerge w.2 t.2))

/-! DKVAP (R247, R248). -/

/-- The codes of a row written through a record: locations written and status. -/
def State.writeRow (s : State) (e : Issuer) (r : BitVec 512) (pos h : Nat) : Nat → List Nat → State × List Nat × DWord
  | _, [] => (s, [], 0)
  | d, x :: xs =>
    let (s, ks, st) := s.elemWrite e r d pos h 0 x
    let (s, ks', st') := State.writeRow s e r pos h (d + 1) xs
    (s, ks ++ ks', statusMerge st st')

/-- A row written to its tensor: through a record with REPL set it is a commit of the command (R178). -/
def State.putRow (s : State) (c : DceCmd) (e : Issuer) (r : BitVec 512) (pos h : Nat) (xs : List Nat) : State × List Nat × DWord :=
  let w := s.writeRow e r pos h 0 xs
  let t := w.1.cleanUnits c.unit w.2.1
  (if trRepl r then State.commitWrites s t e w.2.1 none ⟨c.seq, c.who, c.unit, c.env.det, none, 0, 0, 0, 0⟩ else t, w.2)

/-- Bytes written to the frames of pages: one in a reduction region is not, and reports that (R200). -/
def State.frameWrite (s : State) (e : Issuer) (cells : List (Nat × Byte)) : State × DWord :=
  let ok := cells.filter fun x => !s.regionBars e x.1
  (((s.writeCells e.agent.unit ok).cleanUnits e.agent.unit (ok.map (·.1))).holdLines (.command e.agent.who e.seq) (ok.map (·.1)),
    if ok.length = cells.length then 0 else errStatus .detViolation)

/-- A K and a V row written in a frame's slot, and what the write reports. -/
def State.frameRows (s : State) (e : Issuer) (f : Fmt) (hd frame pos : Nat) (ks vs : List Byte) : State × DWord :=
  let rb := rowBytesOf f hd
  let at' := frame + pos % 64 * rb
  s.frameWrite e (cellsAt at' ks ++ cellsAt (at' + 64 * rb) vs)

/-- Copy on write (R248): the page takes a free frame, which receives the whole old frame. -/
def State.copyOnWrite (s : State) (e : Issuer) (ctx : Nat) (p : KvPage) (g : Nat) (free : List Nat) : State × DWord :=
  let c := s.context ctx
  let ent := c.kv p
  let n := s.kvFrameBytes ctx
  let u := e.agent.unit
  let cells := (List.range n).map fun i => (g * 16 + i, s.readByte u (kvFrame ent + i))
  let w := s.frameWrite e cells
  let c := { c with kvFree := free, kvAsk := [] }.mapRefs (kvAddr ent) (· - 1)
  ((w.1.setContext ctx (c.setKv p (kvEntry 1 (kvPins ent) 1 g))).refreshSeqs ctx, w.2)

/-- Whether a frame holds poisoned bytes. -/
def State.framePoisoned (s : State) (pa n : Nat) : Bool := s.poison.any fun q => meets (q * 16) 16 pa n

/-- A head of a DKVAP in KV mode, from its rows' bytes: the status code, and what its writes report (R247, R248). -/
def State.appendFrame (s : State) (c : DceCmd) (e : Issuer) (sh : KvShape) (h : Nat) (ks vs : List Byte) : State × Nat × DWord :=
  let ctx := c.unit.ctx
  let pos := apPos c.block
  let cx := s.context ctx
  let p : KvPage := ⟨dattSrc c.block % 2 ^ 16, h, pos / 64⟩
  let ent := cx.kv p
  let held := fun (s : State) => s.setTokens ctx p.seq fun t => max t (pos + 1)
  let rows := fun (s : State) (frame : Nat) (st : DWord) =>
    let w := s.frameRows e sh.fmt sh.hd frame pos ks vs
    (held w.1, reportCode (statusMerge st w.2) true, statusMerge st w.2)
  if kvState ent ≠ 1 then (s, kvCode ent, 0)
  else if kvRefs ent ≤ 1 then rows s (kvFrame ent) 0
  else
    match cx.kvFree with
    | [] => (s.setContext ctx { cx with kvAsk := cx.kvAsk ++ [p.seq] }, 5, 0)
    | g :: free =>
      if s.framePoisoned (kvFrame ent) (s.kvFrameBytes ctx) then (s, 4, errStatus .uncorrectable ||| 0x20)
      else
        let t := s.copyOnWrite e ctx p g free
        rows t.1 (g * 16) t.2

/-- The status byte of a head of a DKVAP, and what it adds to the command's status word. -/
def State.appendEnd (s : State) (c : DceCmd) (e : Issuer) (hi code : Nat) (st : DWord) : State × DWord :=
  let t := s.areaSet e (apStata c.block + hi) [BitVec.ofNat 8 code]
  (t.1, statusMerge (codeStatus code true st) t.2)

/-- What a step of a command has done: the locations of a tensor that it wrote, what that write reports where its status
byte is still to be written, and else what the page adds to the command's status word. -/
structure DceDone where
  after  : State
  keys   : List Nat
  report : Option DWord
  status : DWord

/-- One head of a DKVAP. A source row that cannot be read fails the head, and nothing of it is written (R239). -/
def State.appendPage (s : State) (c : DceCmd) (e : Issuer) (sh : KvShape) (hi : Nat) : DceDone :=
  let b := c.block
  let h := sh.head0 + hi
  let rb := rowBytesOf sh.fmt sh.hd
  let ks := s.areaNums e 1 (apKoda b + hi * rb) rb
  let vs := s.areaNums e 1 (apVoda b + hi * rb) rb
  let kb := ks.1.map (BitVec.ofNat 8)
  let vb := vs.1.map (BitVec.ofNat 8)
  let plain := fun (x : State × DWord) => (⟨x.1, [], none, x.2⟩ : DceDone)
  if readFailed (statusMerge ks.2 vs.2) then plain (s.appendEnd c e hi 4 (statusMerge ks.2 vs.2))
  else if apTens b then
    let x := s.putRow c e c.recA (apPos b) h (groupBytes sh.fmt.bytes sh.hd kb)
    let y := x.1.putRow c e c.recB (apPos b) h (groupBytes sh.fmt.bytes sh.hd vb)
    ⟨y.1, x.2.1 ++ y.2.1, some (statusMerge x.2.2 y.2.2), statusMerge x.2.2 y.2.2⟩
  else
    let x := s.appendFrame c e sh h kb vb
    plain (x.1.appendEnd c e hi x.2.1 x.2.2)

/-! Scheduling and counting (R240). -/

/-- The steps that a command takes: pages of DATT, rows of DDIST, queries of DTOPK, heads of DKVAP. -/
def dcePages (c : DceCmd) : Nat :=
  match c.op with
  | 0 => dattNhead c.block * dattBlocks c.block
  | 1 => distNv c.block
  | 2 => topNq c.block
  | _ => apNhead c.block

/-- The byte count of a command (R243, R245 to R247). -/
def dceCount (c : DceCmd) (sh : KvShape) : Nat :=
  let b := c.block
  match c.op with
  | 0 => dattNhead b * dattQph b * stateRow sh.hd + dattBlocks b * dattNhead b
  | 1 => 4 * distNq b * distNv b + distNv b
  | 2 => topNq b * topList (topK b) + topNq b
  | _ => apNhead b * (2 * rowBytesOf sh.fmt sh.hd + 1)

/-- The shape of an accepted command. -/
def State.shapeOf (s : State) (c : DceCmd) : KvShape :=
  let tens := if c.op = 0 then dattFlag c.block 3 else apTens c.block
  (s.kvShape c.unit.ctx tens (dattSrc c.block) (some c.recA)).getD ⟨.bf16, 64, 0⟩

/-- The next page of a command. -/
def State.dceStep (s : State) (c : DceCmd) (die : Nat) : DceDone :=
  let e := c.issuer die
  let sh := s.shapeOf c
  let plain := fun (x : State × DWord) => (⟨x.1, [], none, x.2⟩ : DceDone)
  match c.op with
  | 0 => plain (s.dattPage c e sh (c.done / dattBlocks c.block) (c.done % dattBlocks c.block))
  | 1 => plain (s.distPage c e c.done)
  | 2 => plain (s.topPage c e c.done)
  | _ => s.appendPage c e sh c.done

/-- The peers' locations that the next page of a command reads. -/
def State.dcePeers (s : State) (c : DceCmd) (die : Nat) : List Nat :=
  let e := c.issuer die
  let sh := s.shapeOf c
  let b := c.block
  let of := fun (r : BitVec 512) (n i1 i2 : Nat) => s.peerKeysOf e (trSpace r) (rowAddrs r n i1 i2)
  match c.op with
  | 0 =>
    if dattFlag b 3 then
      (blockPositions (dattP0 b) (dattNpos b) (dattP0 b / 64 + c.done % dattBlocks b)).flatMap fun p =>
        let h := sh.head0 + c.done / dattBlocks b
        of c.recA sh.hd p h ++ of c.recB sh.hd p h
    else []
  | 1 =>
    let i := (s.areaNum e 4 (distIoda b + 4 * c.done)).1
    if i < trExt c.recA 1 then of c.recA (trExt c.recA 0) i 0 else []
  | _ => []

/-- The command that goes on at a page boundary: of the highest class, then the oldest (R240). -/
def bestDce : List DceCmd → Option DceCmd
  | [] => none
  | c :: r =>
    match bestDce r with
    | none => some c
    | some x => if c.env.cls < x.env.cls ∨ (c.env.cls = x.env.cls ∧ x.seq < c.seq) then some x else some c

/-- Whether a command stands within a page. -/
def DceCmd.midPage (c : DceCmd) : Bool := c.stage != 0 || c.stall.isSome

/-- The command that goes on: one within a page, which another cannot take the engine from (R295); else at a page boundary. -/
def chooseDce (q : List DceCmd) : Option DceCmd := (q.find? DceCmd.midPage).or (bestDce q)

/-- A command stands changed in its die's queue. -/
def State.setDce (s : State) (die : Nat) (c : DceCmd) : State :=
  let d := s.die die
  s.setDie die { d with dceQ := d.dceQ.map fun x => if x.seq = c.seq then c else x }

/-- A page of a command is done; after the last one the command counts (R240). -/
def State.endPage (s : State) (die : Nat) (c : DceCmd) (st : DWord) : State :=
  let c := { c with done := c.done + 1, status := statusMerge c.status st, stage := 0, peer := 0, stall := none }
  if c.done < dcePages c then s.setDce die c
  else
    let d := s.die die
    ((s.setDie die { d with dceQ := d.dceQ.filter fun x => x.seq != c.seq }).complete
      ⟨c.seq, c.who, c.unit, c.env.det, c.bar, c.handle, dceCount c (s.shapeOf c), 0, c.status⟩ d.time).endNode c.unit

/-- The head that a DKVAP has written through records has performed: its status byte (R239). -/
def State.endAppend (s : State) (die : Nat) (c : DceCmd) : State :=
  let x := s.appendEnd c (c.issuer die) c.done (reportCode c.peer true) c.peer
  x.1.endPage die c x.2

/-- The next page of a command: of peers it first asks for what it reads there; it waits for a walk slot (R311), for a
locked replica (R179), while another commit to the bytes that it writes is under way, and until its own writes to peers and
its commits have performed. -/
def State.dcePage (s : State) (die : Nat) (c : DceCmd) : Out :=
  let now := (s.die die).time
  let req := cmdRequest die c.seq c.unit now c.env.det
  let asked := if c.stage = 0 then s.dcePeers c die else []
  if !s.answered die c.seq || s.commits? c.seq then .refused .notDue
  else if c.stage = 2 then .next (s.endAppend die c)
  else if !asked.isEmpty then .next ((s.sendReads asked req).setDce die { c with stage := 1 })
  else
    let r := s.dceStep c die
    if metWait r.status then .next (s.keepMisses r.after die)
    else if metLock r.status then
      if c.stall.isSome then .refused .notDue else .next (s.setDce die { c with stall := some now })
    else
      match r.report with
      | none => .next (r.after.endPage die c r.status)
      | some st =>
        let c' := { c with peer := st, stage := 2 }
        if r.after.commits? c.seq && s.commitPending die r.keys then .refused .notDue
        else if r.after.goesOut c.unit && r.keys.any isPeerKey then .next ((r.after.sendWrites r.keys req).setDce die c')
        else if r.after.commits? c.seq then .next (r.after.setDce die c')
        else .next (r.after.endAppend die c')

/-- DCE_PAGE (R240): the next page of the chosen command, under the registers that stood at its acceptance (R283). -/
def execDcePage (die : Nat) (s : State) : Out :=
  match chooseDce (s.die die).dceQ with
  | none => .refused .notDue
  | some c => underRegs c.unit.ctx c.regs (fun s => s.dcePage die c) s

end Sys2Proof.Machine
end

