-- ==== Sys2Proof/Machine/Merge.lean ====
section
/-!
DEFINITION. Launch records, the order of launches (R183, R185), and the milestones of deterministic mode: what a
snapshot starts from and how snapshots and results merge (R181, R182, R200).
-/
namespace Sys2Proof.Machine

/-! The fields of a launch record (R183). -/

def lnKernel (r : BitVec 1024) : Nat := recField r 0 8
def lnParam (r : BitVec 1024) : Nat := recField r 8 8
def lnPlen (r : BitVec 1024) : Nat := recField r 0x10 2
def lnFlag (r : BitVec 1024) (i : Nat) : Bool := recBits r 0x12 i 1 == 1
def lnLastP (r : BitVec 1024) : Bool := lnFlag r 6
def lnLastG (r : BitVec 1024) : Bool := lnFlag r 5
def lnBulkq (r : BitVec 1024) : Bool := lnFlag r 4
def lnSeedr (r : BitVec 1024) : Bool := lnFlag r 3
def lnReplay (r : BitVec 1024) : Bool := lnFlag r 2
def lnWvbind (r : BitVec 1024) : Bool := lnFlag r 1
def lnUnits (r : BitVec 1024) : Nat := recField r 0x14 4
def lnSeed (r : BitVec 1024) : DWord := BitVec.ofNat 64 (recField r 0x18 8)
def lnClass (r : BitVec 1024) : Nat := recField r 0x20 1
def lnNoper (r : BitVec 1024) : Nat := recField r 0x21 1
def lnMask (r : BitVec 1024) : Nat := recField r 0x22 1
def lnNred (r : BitVec 1024) : Nat := recBits r 0x23 0 4
def lnGraph (r : BitVec 1024) : Nat := recField r 0x24 4
def lnNode (r : BitVec 1024) : Nat := recField r 0x28 2
def lnPhase (r : BitVec 1024) : Nat := recField r 0x2A 2
def lnBulkqa (r : BitVec 1024) : Nat := recField r 0x2C 4
def lnAfter (r : BitVec 1024) : Nat := recField r 0x30 4
def lnModel (r : BitVec 1024) : Nat := recField r 0x34 2
def lnTstart (r : BitVec 1024) : DWord := BitVec.ofNat 64 (recField r 0x38 8)
def lnOper (r : BitVec 1024) (i : Nat) : Nat := recField r (0x40 + 8 * i) 8

/-- The declared tile operands: tensor id and mode. -/
def lnOpers (r : BitVec 1024) : List (Nat × Nat) :=
  (List.range (min 4 (lnNoper r))).map fun i => (lnOper r i % 2 ^ 12, lnOper r i / 2 ^ 12 % 4)

/-! Kernel descriptors (R67, R184). -/

def kdKind (d : BitVec 256) : Nat := recField d 0 2
def kdRegs (d : BitVec 256) : Nat := recField d 2 1
def kdGroups (d : BitVec 256) : Nat := recField d 3 1
def kdShared (d : BitVec 256) : Nat := recField d 4 4
def kdClass (d : BitVec 256) : Nat := recField d 8 1
def kdSeedGiven (d : BitVec 256) : Bool := recBits d 9 1 1 == 1
def kdCodeLen (d : BitVec 256) : Nat := recField d 12 4
def kdSeed (d : BitVec 256) : DWord := BitVec.ofNat 64 (recField d 16 8)

/-! The order of launches (R185). -/

/-- Whether two records declare one tensor id, at least one of them to write or accumulate. -/
def sharesOperand (a b : BitVec 1024) : Bool :=
  (lnOpers a).any fun x => (lnOpers b).any fun y => x.1 == y.1 && (x.2 != 0 || y.2 != 0)

/-- The launch that AFTER names: the newest of the context accepted before with that id. -/
def State.afterOf (s : State) (l : Launch) : Option Nat :=
  if lnAfter l.raw = 0 then none
  else ((s.launches.filter fun k => k.ctx == l.ctx && decide (k.age < l.age) && k.id.toNat == lnAfter l.raw).map fun k => k.age).max?

/-- Whether R185 orders L after K directly. -/
def State.orders (s : State) (k l : Launch) : Bool :=
  k.ctx == l.ctx && decide (k.age < l.age)
    && (s.afterOf l == some k.age || (l.graphInst != 0 && k.graphInst == l.graphInst && sharesOperand k.raw l.raw))

/-- The launches before one, directly or through others, by age. -/
def State.before (s : State) : Nat → Launch → List Nat
  | 0, _ => []
  | n + 1, l => ((s.launches.filter fun k => s.orders k l).flatMap fun k => k.age :: State.before s n k).eraseDups

/-- Whether R185 orders L after K, directly or through others. -/
def State.isBefore (s : State) (k l : Launch) : Bool := (s.before s.launches.length l).contains k.age

def State.graph (s : State) (inst : Nat) : Option Graph := s.graphs.find? fun g => g.inst == inst
def State.phase (s : State) (inst : Nat) : Option Phase := s.phases.find? fun p => p.inst == inst
def State.setGraph (s : State) (g : Graph) : State := { s with graphs := s.graphs.map fun x => if x.inst = g.inst then g else x }
def State.setPhase (s : State) (p : Phase) : State := { s with phases := s.phases.map fun x => if x.inst = p.inst then p else x }

/-! Contributions (R182). -/

/-- The elementwise operation of a contribution, and its format where it is one of the engines'. -/
def ContribOp.code (op : ContribOp) (old x : Nat) : Nat :=
  match op with
  | .addI32 => (BitVec.ofNat 32 old + BitVec.ofNat 32 x).toNat
  | .addF32 => combineCode 1 .fp32 old x
  | .addBf16 => combineCode 2 .bf16 old x
  | .maxF32 => combineCode 3 .fp32 old x
  | .maxBf16 => combineCode 3 .bf16 old x

/-- The bytes of a contribution's element once it has been applied to a memory. -/
def Contrib.cells (c : Contrib) (m : Memory) : List (Nat × Byte) :=
  c.keys.zip (leBytes c.keys.length (c.op.code (leNat (c.keys.map fun k => Memory.read m k)) c.code.toNat))

/-- Contributions applied one after another. -/
def applyContribs (m : Memory) (cs : List Contrib) : Memory := cs.foldl (fun m c => Memory.writeAll m (c.cells m)) m

/-- Contributions in program order. -/
def insertContrib (c : Contrib) : List Contrib → List Contrib
  | [] => [c]
  | x :: r => if c.seq < x.seq then c :: x :: r else x :: insertContrib c r

def sortContribs (cs : List Contrib) : List Contrib := cs.foldl (fun r c => insertContrib c r) []

/-! What one writer brings to a milestone. -/

/-- A writer: its task id (NODE, unit), its bytes, those of them that leave the package with their writes in order, its
contributions in order. -/
structure Part where
  node     : Nat
  unit     : Nat
  cells    : List (Nat × Byte)
  outward  : List OutWrite
  contribs : List Contrib
deriving DecidableEq, Repr

/-- The last value that a list of writes gives a location. -/
def lastOut (ws : List OutWrite) (k : Nat) : Byte :=
  (((ws.flatMap fun w => w.cells).reverse.find? fun c => c.1 == k).map fun c => c.2).getD 0

/-- What a unit's snapshot brings. Where the unit both writes a byte and contributes to it, it is a writer of that
byte, and its last value stands. -/
def Snapshot.part (sn : Snapshot) (node unit : Nat) : Part :=
  let own := fun (c : Contrib) => c.keys.any fun k => sn.written.contains k
  let keys := (sn.contribs.filter own).foldl (fun w c => c.keys.foldl (fun w k => insertKey k w) w) sn.written
  ⟨node, unit, keys.map fun k => (k, if outwardKey k then lastOut sn.outward k else Memory.read sn.mem k), sn.outward,
    sortContribs (sn.contribs.filter fun c => !own c)⟩

def Part.writes (p : Part) (k : Nat) : Bool := p.cells.any fun c => c.1 == k
def Part.contributes (p : Part) (k : Nat) : Bool := p.contribs.any fun c => c.keys.contains k

/-- The address of a location, as MERGE_CONFLICT reports it: the ODA in a scratchpad, else the VA (R323). -/
def State.addressOf (s : State) (ctx k : Nat) : Nat :=
  if 2 ^ 40 ≤ k ∧ k < 2 ^ 40 + 2 ^ 31 then 0x1000_0000 + k % 2 ^ 28 else s.vaOfKey ctx k

/-- A conflict: the address and the two lowest task ids (R182). -/
structure Conflict where
  addr : Nat
  a    : Nat × Nat
  b    : Nat × Nat
deriving DecidableEq, Repr

/-- The lower of two task ids, NODE first. -/
def taskBefore (a b : Nat × Nat) : Bool := decide (a.1 < b.1) || (a.1 == b.1 && decide (a.2 < b.2))

/-- A task id in its place among others. -/
def insertTask (x : Nat × Nat) : List (Nat × Nat) → List (Nat × Nat)
  | [] => [x]
  | y :: r => if taskBefore x y then x :: y :: r else y :: insertTask x r

/-- The two lowest of a list of task ids. -/
def twoLowest (xs : List (Nat × Nat)) : (Nat × Nat) × (Nat × Nat) :=
  let r := xs.foldl (fun r x => insertTask x r) []
  (r.getD 0 (0, 0), r.getD 1 (0, 0))

/-- The conflict of one byte among parts, where `free a b` says that no order holds between them. -/
def State.byteConflict (s : State) (ctx : Nat) (free : Part → Part → Bool) (ps : List Part) (k : Nat) : Option Conflict :=
  let ws := ps.filter fun p => p.writes k
  let touch := ps.filter fun p => p.writes k || p.contributes k
  if ws.any fun p => touch.any fun q => free p q then
    let t := twoLowest (touch.map fun p => (p.node, p.unit))
    some ⟨s.addressOf ctx k, t.1, t.2⟩
  else none

/-- The conflict with the lowest address (R182). -/
def lowestConflict (cs : List Conflict) : Option Conflict :=
  cs.foldl (fun best c =>
    match best with
    | none => some c
    | some b => if c.addr < b.addr then some c else some b) none

/-- The conflict with the lowest address among parts. -/
def State.conflictOf (s : State) (ctx : Nat) (free : Part → Part → Bool) (ps : List Part) : Option Conflict :=
  let keys := (ps.flatMap fun p => p.cells.map (·.1)).eraseDups
  lowestConflict (keys.filterMap (s.byteConflict ctx free ps))

/-- The record of a conflict: the address and the two task ids (R323). -/
def Conflict.info (c : Conflict) : FaultInfo :=
  { FaultInfo.none with addr := BitVec.ofNat 64 c.addr, detail := BitVec.ofNat 64 (c.a.1 * 2 ^ 32 + c.a.2),
                        aux := BitVec.ofNat 64 (c.b.1 * 2 ^ 32 + c.b.2) }

/-! Results of launches in a graph (R181, R182). -/

/-- What a launch's result brings to its graph. -/
def Launch.part (l : Launch) : Part :=
  ⟨lnNode l.raw, 0, l.result.map fun x => (x.1, x.2.1), [], l.contribs.map fun x => x.2⟩

/-- The unit that wrote or contributed to a byte of a launch's result. -/
def Launch.writerOf (l : Launch) (k : Nat) : Nat :=
  match l.result.find? fun x => x.1 == k with
  | some x => x.2.2
  | none => ((l.contribs.find? fun x => x.2.keys.contains k).map fun x => x.1).getD 0

/-- The byte that stands after the ordered writers of a location: the last in the order of R185, and the higher NODE
where that leaves several. -/
def State.lastByte (s : State) (ls : List Launch) (k : Nat) : Option (Nat × Byte) :=
  let ws := ls.filterMap fun l => (l.result.find? fun x => x.1 == k).map fun x => (l, x.2.1)
  let last := ws.filter fun w => !ws.any fun x => s.isBefore w.1 x.1
  (last.foldl (fun best w =>
    match best with
    | none => some w
    | some b => if lnNode b.1.raw < lnNode w.1.raw then some w else some b) none).map fun w => (k, w.2)

/-- Launches by ascending NODE. -/
def insertNode (l : Launch) : List Launch → List Launch
  | [] => [l]
  | x :: r => if lnNode l.raw < lnNode x.raw then l :: x :: r else x :: insertNode l r

def byNode (ls : List Launch) : List Launch := ls.foldr insertNode []

/-- The contributions of results in ascending NODE, without those to bytes that a later launch in the order of R185
writes. -/
def State.openContribs (s : State) (ls : List Launch) : List (Launch × Contrib) :=
  (byNode ls).flatMap fun l => ((l.contribs.map fun x => x.2).filter fun c =>
    !ls.any fun w => s.isBefore l w && c.keys.any fun k => w.result.any fun x => x.1 == k).map fun c => (l, c)

/-- The locations of the package that the results of launches have written; what they wrote beyond it has left already. -/
def resultKeys (ls : List Launch) : List Nat :=
  ((ls.flatMap fun l => l.result.map (·.1)).filter fun k => !outwardKey k).eraseDups

/-- The memory that the results of launches of one graph make of a memory (R181, R182). -/
def State.foldResults (s : State) (m : Memory) (ls : List Launch) : Memory :=
  applyContribs (Memory.writeAll m ((resultKeys ls).filterMap (s.lastByte ls)))
    (((s.openContribs ls).map fun x => x.2).filter fun c => !c.keys.any outwardKey)

/-- The launches of a graph that R185 orders before one of it. -/
def State.graphBefore (s : State) (l : Launch) : List Launch :=
  if l.graphInst = 0 then []
  else s.launches.filter fun k => k.graphInst == l.graphInst && k.ctx == l.ctx && s.isBefore k l

/-- The snapshot that a unit of a launch starts from (R181). -/
def State.startSnapshot (s : State) (l : Launch) : Snapshot :=
  ⟨s.foldResults (s.mem.filter fun c => snapKey c.1) (s.graphBefore l), [], [], []⟩

/-! Milestones. -/

/-- The units of a launch. -/
def State.unitsOf (s : State) (ctx : Nat) (id : Word) : List WorkUnit :=
  s.units.filter fun u => u.key.ctx == ctx && u.key.launch == id

/-- Units by ascending index. -/
def insertUnit (u : WorkUnit) : List WorkUnit → List WorkUnit
  | [] => [u]
  | x :: r => if u.key.index < x.key.index then u :: x :: r else x :: insertUnit u r

def byIndex (us : List WorkUnit) : List WorkUnit := us.foldr insertUnit []

/-- The snapshots that reach a milestone, in ascending task id; those of cancelled units are discarded (R193). -/
def State.snapParts (s : State) (l : Launch) : List Part :=
  (byIndex (s.unitsOf l.ctx l.id)).filterMap fun u =>
    if u.discard then none else u.snap.map fun sn => sn.part (lnNode l.raw) u.key.index

/-- A write that a milestone makes for a launch, which the launch's completion then covers (R169, R191): staged, or made with a WRITE for each
peer's unit, where the launch has no snapshot or loses it (R341, R342, R361). -/
def State.milestoneWrite (s : State) (l : Launch) (va : Option Nat) (cells : List (Nat × Byte)) : State :=
  let staged := (s.launch l.ctx l.id).any fun k => k.replay.any fun r => !s.wouldExpose k r cells
  (if staged then s.launchWrite l.ctx l.id va cells else s.sendOut l cells fun s => s.launchWrite l.ctx l.id va).holdLines
    (launchHolder l.ctx l.id) (cells.map fun c => c.1)

/-- Bytes that units have written, and contributions, written by their launch. -/
def State.applyParts (s : State) (l : Launch) (ps : List Part) : State :=
  let s := s.milestoneWrite l none ((ps.flatMap fun p => p.cells).filter fun c => !outwardKey c.1)
  (ps.flatMap fun p => p.contribs).foldl (fun s c => s.milestoneWrite l none (c.cells s.mem)) s

/-- The writes beyond the package that units have held (R181). -/
def State.applyOutward (s : State) (l : Launch) (ps : List Part) : State :=
  (ps.flatMap fun p => p.outward).foldl (fun s w => s.milestoneWrite l (some w.va) w.cells) s

/-- No order holds between two units of one launch. -/
def otherUnit (p q : Part) : Bool := p.unit != q.unit

/-- The locations that parts write or contribute to, with those of a list. -/
def mergedKeys (ps : List Part) (old : List Nat) : List Nat :=
  (ps.flatMap fun p => p.cells.map (·.1) ++ p.contribs.flatMap fun c => c.keys).foldl (fun ks k => insertKey k ks) old

/-- A launch has merged parts into its context's memory at an SNAPM (R201). -/
def State.noteMerged (s : State) (ctx : Nat) (id : Word) (ps : List Part) : State :=
  match s.launch ctx id with
  | some l => s.setLaunch { l with merges := mergedKeys ps l.merges }
  | none => s

/-- A milestone at which a launch's snapshots reach its context's memory: MERGE_CONFLICT, or the merged state. -/
def State.mergeUnits (s : State) (l : Launch) : State :=
  let ps := s.snapParts l
  match s.conflictOf l.ctx otherUnit ps with
  | some c => raiseAsync s .mergeConflict l.ctx l.id none true c.info (s.die (l.dies.headD 0)).time 0
  | none => ((s.applyParts l ps).applyOutward l ps).noteMerged l.ctx l.id ps

/-- The launch stands merged with a result. -/
def State.setMerged (s : State) (ctx : Nat) (id : Word) (r : List (Nat × Byte × Nat)) (cs : List (Nat × Contrib)) : State :=
  match s.launch ctx id with
  | some l => s.setLaunch { l with merged := true, result := r, contribs := cs }
  | none => s

/-- The launch-end merge (R182): of a launch in no graph, to memory; of one in a graph, to its result, with the writes beyond the
package made at once (DESIGN CHOICE, log entry 83). -/
def State.mergeLaunch (s : State) (l : Launch) : State :=
  let ps := s.snapParts l
  if l.graphInst = 0 then (s.mergeUnits l).setMerged l.ctx l.id [] []
  else
    match s.conflictOf l.ctx otherUnit ps with
    | some _ => (s.mergeUnits l).setMerged l.ctx l.id [] []
    | none =>
      (s.applyOutward l ps).setMerged l.ctx l.id
        (ps.flatMap fun p => p.cells.map fun c => (c.1, c.2, p.unit))
        (ps.flatMap fun p => p.contribs.map fun c => (p.unit, c))

/-! The graph end (R182). -/

/-- Whether a launch's result writes a byte, or contributes to it. -/
def Launch.writes (l : Launch) (k : Nat) : Bool := l.result.any fun x => x.1 == k
def Launch.touches (l : Launch) (k : Nat) : Bool := l.writes k || l.contribs.any fun x => x.2.keys.contains k

/-- The conflict of one byte among a graph's launches: a writer and another that the order leaves free. -/
def State.graphByte (s : State) (ls : List Launch) (k : Nat) : Option Conflict :=
  let touch := ls.filter fun l => l.touches k
  if touch.any fun p => p.writes k && touch.any fun q => p.age != q.age && !s.isBefore p q && !s.isBefore q p then
    let t := twoLowest (touch.map fun l => (lnNode l.raw, l.writerOf k))
    some ⟨s.addressOf ((ls.map fun l => l.ctx).headD 0) k, t.1, t.2⟩
  else none

def State.graphConflict (s : State) (ls : List Launch) : Option Conflict :=
  let keys := (ls.flatMap fun l => l.result.map (·.1)).eraseDups
  lowestConflict (keys.filterMap (s.graphByte ls))

/-- The results of a graph's launches merge into the context's memory, or MERGE_CONFLICT goes to the launch whose NODE
is the higher of the two (R182). -/
def State.mergeGraph (s : State) (g : Graph) : State :=
  let ls := s.launches.filter fun l => l.graphInst == g.inst && l.ctx == g.ctx && l.merged
  match s.graphConflict ls with
  | some c =>
    let name := ((ls.filter fun l => lnNode l.raw == c.b.1).map fun l => l.id).headD 0
    raiseAsync s .mergeConflict g.ctx name none true c.info (s.die (s.firstDie g.ctx)).time 0
  | none =>
    (s.openContribs ls).foldl (fun s x =>
      if x.2.keys.any outwardKey then s.milestoneWrite x.1 none (x.2.cells s.mem) else s.writeMem (x.2.cells s.mem))
      (s.writeMem ((resultKeys ls).filterMap (s.lastByte ls)))

end Sys2Proof.Machine
end

