-- ==== Sys2Proof/Machine/Admit.lean ====
section
/-!
DEFINITION. Ready pools, placement and admission (R113, R114, R186, R189, R195, R197, R198, R260, R285, R292 to R294),
and the state in which a unit starts.
-/
namespace Sys2Proof.Machine

/-! Model records (R257). -/

/-- The VA of a model's record. -/
def State.modelAt (s : State) (ctx m : Nat) : Nat := (s.ctxReg ctx 0x00B).toNat % 2 ^ 56 + 128 * m

/-- A model's record; an id above 255 names none, and without a table (CR.MODELS = 0) every entry is absent (DESIGN CHOICE, log
entry 46). -/
def State.model (s : State) (ctx m : Nat) : BitVec 1024 :=
  if m < 256 ∧ s.modelAt ctx 0 ≠ 0 then BitVec.ofNat 1024 (leNat (s.ctxRead ctx (s.modelAt ctx m) 128)) else 0

def mdVcur (r : BitVec 1024) : Word := BitVec.ofNat 32 (recField r 0 4)
def mdRw (r : BitVec 1024) : Nat := recField r 4 1
def mdOpt (r : BitVec 1024) : Nat := recField r 5 1
def mdDisc (r : BitVec 1024) : Nat := recField r 6 1
def mdTiles (r : BitVec 1024) : Nat := recField r 8 4
def mdPend (r : BitVec 1024) : Nat := recField r 0xC 4
def mdStale (r : BitVec 1024) (i : Nat) : Word := BitVec.ofNat 32 (recField r (0x10 + 4 * i) 4)
def mdLscale (r : BitVec 1024) : Word := BitVec.ofNat 32 (recField r 0x30 4)
def mdGood (r : BitVec 1024) : Nat := recField r 0x34 4
def mdNgrow (r : BitVec 1024) : Nat := recField r 0x38 4
def mdVbase (r : BitVec 1024) : Nat := recField r 0x40 8
def mdVstr (r : BitVec 1024) : Nat := recField r 0x48 8
def mdMaster (r : BitVec 1024) : Nat := recField r 0x50 8
def mdGacc (r : BitVec 1024) : Nat := recField r 0x58 8
def mdOstate (r : BitVec 1024) : Nat := recField r 0x60 8
def mdGflags (r : BitVec 1024) : Nat := recField r 0x68 8

/-- An entry with no tiles is absent. -/
def mdAbsent (r : BitVec 1024) : Bool := mdTiles r == 0

/-- The slot of a version (R258). -/
def mdSlot (r : BitVec 1024) (v : Word) : Nat := v.toNat % (mdRw r + 1)

/-! Resources (R189). -/

/-- Cores that a block needs, and slots on its member core `k`. -/
def Launch.cores (l : Launch) : Nat := (kdGroups l.desc + 15) / 16
def Launch.slotsOn (l : Launch) (k : Nat) : Nat := min 16 (kdGroups l.desc - 16 * k)

/-- 4 KiB pages of block-shared backing on each member core (R113). -/
def sharedPages (bshared n : Nat) : Nat := (bshared + 4096 * n - 1) / (4096 * n)
def Launch.pages (l : Launch) : Nat := if kdShared l.desc = 0 then 0 else sharedPages (kdShared l.desc) l.cores

/-- Agents that occupy slots of a core. -/
def State.onCore (s : State) (d c k : Nat) : List Agent :=
  s.allAgents.filter fun a => a.holdsSlot && a.place.die == d && a.place.cluster == c && a.place.core == k

/-- Free slots of a core, lowest first. -/
def State.freeSlots (s : State) (d c k : Nat) : List Nat :=
  (List.range 16).filter fun i => !(s.onCore d c k).any fun a => a.place.slot == i

/-- The runs of block-shared backing held on a core, as (first page, pages) (R114). -/
def State.runsOn (s : State) (d c k : Nat) : List (Nat × Nat) :=
  (s.units.filter fun u => !u.ended && !u.saved && u.kind == .core && u.die == d && u.cluster == c).flatMap fun u =>
    ((u.cores.zip u.runs).filter fun x => x.1 == k).map fun x => (x.2, sharedPages u.bshared u.cores.length)

/-- The highest run of free pages below 0x6_0000, by its first page (R114). -/
def State.highRun (s : State) (d c k n : Nat) : Option Nat :=
  (((List.range 97).map fun i => 96 - i).filter fun p => decide (p + n ≤ 96)).find? fun p =>
    (s.runsOn d c k).all fun x => decide (x.1 + x.2 ≤ p) || decide (p + n ≤ x.1)

/-- Whether member core `m` of a block fits on a core now (R189, R197, R285, R349). -/
def State.coreFits (s : State) (l : Launch) (d c k m : Nat) : Bool :=
  let on := s.onCore d c k
  !s.quarantined d c k && decide (l.slotsOn m ≤ (s.freeSlots d c k).length)
    && (l.pages == 0 || (s.highRun d c k l.pages).isSome)
    && on.all (fun a => a.ctx == l.ctx && !a.env.det) && (!l.det || on.isEmpty)

/-- Cores of a cluster that are not quarantined, ascending. -/
def State.liveCores (s : State) (d c : Nat) : List Nat := (List.range 128).filter fun k => !s.quarantined d c k

/-- Whether the thread of a class is free. -/
def State.threadFree (s : State) (d c cls : Nat) : Bool :=
  !s.allAgents.any fun a => a.kind == .csq && a.run != .saved && a.place.die == d && a.place.cluster == c && a.place.slot == cls

/-- Whether an engine of a node's kind has a place in its queue (R293). -/
def State.queueRoom (s : State) (kind d : Nat) : Bool :=
  match kind with
  | 1 => decide ((s.die d).copyHeld < 256)
  | 2 => decide ((s.die d).dceQ.length < 64)
  | _ => decide ((s.die d).updQ.length < 64)

/-- Whether a unit of a launch fits at a place. -/
def State.fitsAt (s : State) (l : Launch) (d c : Nat) (cores : List Nat) : Bool :=
  decide (d < 8) && decide (c < 4) && l.dies.contains d && (s.partDies (s.partOf l.ctx)).getLsbD d
    && (if lnKind l.raw ≠ 0 then cores.isEmpty && c == 0 && s.queueRoom (lnKind l.raw) d
        else if kdKind l.desc = 2 then cores.isEmpty && s.threadFree d c l.cls
        else cores.length == l.cores && cores.eraseDups.length == cores.length && cores.all (fun k => decide (k < 128))
          && (numbered cores).all fun x => s.coreFits l d c x.2 x.1)

/-- The place that a deterministic unit draws (R198). -/
def State.draw (s : State) (l : Launch) (u : Nat) : Nat × Nat × List Nat :=
  let w := philox l.seed ⟨BitVec.ofNat 32 u, BitVec.ofNat 32 (lnNode l.raw), BitVec.ofNat 32 (lnGraph l.raw), 0xFFFF_FFFE⟩
  let d := l.dies.getD (w.w0.toNat % l.dies.length) 0
  let c := w.w1.toNat % 4
  let q := s.liveCores d c
  (d, c, if kdKind l.desc = 2 then [] else (List.range l.cores).map fun k => q.getD ((w.w2.toNat + k) % q.length) 128)

/-- Cores of a cluster for a block, if it fits there: wholly free cores for its full members, and for the last the
core with the fewest free slots that suffice, so that as many blocks fit as can. -/
def State.pickCores (s : State) (l : Launch) (d c : Nat) : Option (List Nat) :=
  let n := l.cores
  let last := (s.liveCores d c).filter fun k => s.coreFits l d c k (n - 1)
  let best := last.foldl (fun b k =>
    match b with
    | none => some k
    | some j => if (s.freeSlots d c k).length < (s.freeSlots d c j).length then some k else some j) none
  best.bind fun k =>
    let full := ((s.liveCores d c).filter fun j => j != k && s.coreFits l d c j 0).take (n - 1)
    if full.length + 1 = n then some (full ++ [k]) else none

/-- A place in a cluster for the next unit of a launch, if there is one. -/
def State.placeIn (s : State) (l : Launch) (u d c : Nat) : Option (Nat × Nat × List Nat) :=
  let p :=
    if l.det then (let x := s.draw l u; if x.1 = d ∧ x.2.1 = c then some x else none)
    else if lnKind l.raw = 0 ∧ kdKind l.desc = 1 then (s.pickCores l d c).map fun ks => (d, c, ks)
    else some (d, c, [])
  p.filter fun x => s.fitsAt l x.1 x.2.1 x.2.2

/-- A place on a die, and one on any allowed die, the lowest first. -/
def State.placeOn (s : State) (l : Launch) (u d : Nat) : Option (Nat × Nat × List Nat) :=
  (List.range 4).findSome? fun c => s.placeIn l u d c
def State.anyPlace (s : State) (l : Launch) (u : Nat) : Option (Nat × Nat × List Nat) :=
  l.dies.findSome? fun d => s.placeOn l u d

/-- Whether one unit could never fit on the allowed dies (R188 reason 4, R189). -/
def State.neverFits (s : State) (l : Launch) : Bool :=
  let n := l.cores
  let enough := fun (d c : Nat) => decide (n ≤ (s.liveCores d c).length)
  let all := l.dies.flatMap fun d => (List.range 4).map fun c => (d, c)
  if l.dies.isEmpty then true
  else if lnKind l.raw ≠ 0 ∨ kdKind l.desc = 2 then false
  else if 96 < l.pages then true
  else if l.det ∧ !(all.all fun p => enough p.1 p.2) then
    (List.range (lnUnits l.raw)).any fun u => let x := s.draw l u; !enough x.1 x.2.1
  else !(all.any fun p => enough p.1 p.2)

/-! A unit starts (R186, R206). -/

/-- The environment of a unit of a launch. -/
def Launch.env (l : Launch) (n : Nat) (shown : Place) : Env :=
  { nGroups := if kdKind l.desc = 1 ∧ lnKind l.raw = 0 then kdGroups l.desc else 0, nUnits := lnUnits l.raw,
    seed := l.seed, wver := l.bound.getD 0, ticket := 0, cls := l.cls, det := l.det, coop := l.coop,
    redeem := l.run.isSome, tstart := lnTstart l.raw, bcores := n, debug := false, fpol := 0, shown := shown }

/-- The redeem run of a launch. -/
def State.runOf (s : State) (l : Launch) : Option RedeemRun :=
  l.run.bind fun id => (s.context l.ctx).runs.find? fun r => r.id == id

/-- The ticket id, the ticket's bytes, FBVA and the staging buffer's VA of a run. -/
def RedeemRun.bufferVa (r : RedeemRun) (tiles : Nat) : Nat := r.stage + 65536 * tiles * r.buffer.getD 0

/-- The g registers that a unit's agent starts with. -/
def State.startRegs (s : State) (l : Launch) (at60 at61 : Nat) : Store DWord :=
  let base := Store.set 0 (Store.set 0 [] 60 (BitVec.ofNat 64 at60)) 61 (BitVec.ofNat 64 at61)
  match s.runOf l with
  | some r =>
    Store.set 0 (Store.set 0 base 59 r.fbva) 58 (BitVec.ofNat 64 (r.bufferVa (mdTiles (s.model l.ctx r.model))))
  | none => base

/-- The bytes of a run's ticket record. -/
def State.ticketBytes (s : State) (l : Launch) : List Byte :=
  match s.runOf l with
  | some r => leBytes 64 r.record.toNat
  | none => []

/-- A unit's environment with its run's ticket, and with its context's BKPT enable and fault policies as they now stand
(R283). -/
def State.envOf (s : State) (l : Launch) (n : Nat) (shown : Place) : Env :=
  { l.env n shown with ticket := match s.runOf l with | some r => r.ticket | none => 0,
                       debug := (s.ctxReg l.ctx 0x000).getLsbD 1, fpol := s.ctxReg l.ctx 0x011 }

/-- The address of the first instruction of a unit's code, behind its 32-byte descriptor (R67): a PC is the low half of its
instruction's VA (DEDUCED, log entry 26). -/
def Launch.codeStart (l : Launch) : Word := BitVec.ofNat 32 (lnKernel l.raw) + 32

/-- An agent of a unit at its start. -/
def State.startAgent (s : State) (l : Launch) (who : Who) (kind : Kind) (p : Place) (u : UnitKey) (i n : Nat)
    (g : Store DWord) (shown : Place) : Agent :=
  { Agent.start who kind p with
    ctx := l.ctx, unit := u, index := i, bcore := i / 16, env := s.envOf l n shown, code := l.code,
    codeBase := l.codeStart, quota := kdRegs l.desc, g := g, cur := Sub.start l.codeStart, eclass := l.cls }

/-- Agents join the machine. -/
def State.addAgents (s : State) (as : List Agent) : State := { s with agents := s.agents ++ as }

/-- Local memory of a core is zeroed and changes owner, where its owner is another context (R285). -/
def State.takeCore (s : State) (ctx d c k : Nat) : State :=
  let x := s.core d c k
  if x.owner = some ctx then s
  else
    let s := if x.owner.isSome then s.zeroBytes (localKey d c k 0) (2 ^ 19) else s
    s.setCore d c k { x with owner := some ctx }

/-- The place of group `i` of a block. -/
def State.groupPlace (s : State) (d c : Nat) (cores : List Nat) (i : Nat) : Place :=
  let k := cores.getD (i / 16) 0
  ⟨d, c, k, (s.freeSlots d c k).getD (i % 16) 0⟩

/-- The place that a group's selectors 4 to 6 show: in deterministic mode the drawn one (R198). -/
def State.startGroups (s : State) (l : Launch) (u : UnitKey) (d c : Nat) (cores : List Nat) : State :=
  let n := l.params.length
  let ticket := s.ticketBytes l
  let places := (List.range (kdGroups l.desc)).map fun i => (i, s.groupPlace d c cores i)
  let g := s.startRegs l (0x10_2000 - n) (0x10_2000 - n)
  let agents := places.map fun x => s.startAgent l (.group u x.1) .core x.2 u x.1 cores.length g x.2
  let cells := places.flatMap fun x =>
    let top := localKey x.2.die x.2.cluster x.2.core (0x80000 - x.2.slot * 0x2000)
    cellsAt (top - n - ticket.length) (ticket ++ l.params)
  (s.writeMem cells).addAgents agents

/-- Bytes written to memory before a unit's first instruction, which its snapshot holds too (R181, R186). -/
def State.writeStart (s : State) (u : UnitKey) (cells : List (Nat × Byte)) : State :=
  let s := s.writeMem cells
  match s.unit u with
  | some x => s.setUnit { x with snap := x.snap.map fun sn => { sn with mem := Memory.writeAll sn.mem (cells.filter fun c => snapKey c.1) } }
  | none => s

/-- A CSQ unit's thread starts: its parameters stand in its own area, and its class has no quad binding (R186, R206). -/
def State.startThread (s : State) (l : Launch) (u : UnitKey) (d c : Nat) : State :=
  let area := paramArea c l.cls
  let ticket := s.ticketBytes l
  let p : Place := ⟨d, c, 0, l.cls⟩
  let a := s.startAgent l (.thread u) .csq p u 0 0 (s.startRegs l (0x1000_0000 + area + ticket.length) 0) p
  let k := s.cluster d c
  ((s.writeStart u (cellsAt (spadKey d area) (ticket ++ l.params))).setCluster d c
    { k with quads := Store.set Quad.unbound k.quads l.cls Quad.unbound }).addAgents [a]

/-! Engine nodes (R183, R293). -/

/-- The agent that stands for an engine node's unit: it names on-die addresses as a CSQ thread does (DESIGN CHOICE, log entry 27). -/
def State.nodeAgent (s : State) (l : Launch) (u : UnitKey) (d : Nat) : Agent :=
  let p : Place := ⟨d, 0, 0, l.cls⟩
  { Agent.start (.thread u) .csq p with ctx := l.ctx, unit := u, env := s.envOf l 0 p }

/-- The bytes of the command of a node's unit. -/
def Launch.command (l : Launch) (i n : Nat) : List Byte := (l.commands.drop (n * i)).take n

/-- A copy node's unit: one bulk entry (R183). -/
def State.startCopyNode (s : State) (l : Launch) (u : UnitKey) (d : Nat) : State :=
  let me := s.me
  let t := { s with me := s.nodeAgent l u d }.acceptCopy (.node (BitVec.ofNat 256 (leNat (l.command u.index 32)))) none 0 none d
  { t with me := me }

/-- A decode node's unit: the command block is checked as its instruction checks one; one that fails ends with no
effect. Which of the four operations it is, the specification does not say (DESIGN CHOICE, log entry 27). -/
def State.startDecodeNode (s : State) (l : Launch) (u : UnitKey) (d : Nat) : State :=
  let me := s.me
  let op := s.freeWord.toNat % 4
  let s := { s.useFree with me := s.nodeAgent l u d }
  let blk := BitVec.ofNat 512 (leNat (l.command u.index 64))
  let x := s.dceConditions op blk
  let rs := x.2.map fun id => s.myContext.tensor id
  let bad := (lowestSub x.1).isSome || rs.any Option.isNone || (op == 3 && rs.any fun r => r.any fun r => !mayWrite r)
  let t := if bad then s.endNode u else s.acceptDce op blk x.2 none 0
  { t with me := me }

end Sys2Proof.Machine
end

