-- ==== Sys2Proof/Machine/Sha.lean ====
section
/-!
DEFINITION. SHA-384 (FIPS 180-4), which forms the digests of weight versions (R350) and the boot measurements (R367). The
constants of the standard are computed from their definition, fraction bits of roots of primes.
-/
namespace Sys2Proof.Machine

/-- `x` with those of its bits below `n` set that leave its `k`-th power at most `m`, from the top on. -/
def growRoot (k m : Nat) : Nat → Nat → Nat
  | 0, x => x
  | n + 1, x => growRoot k m n (if (x + 2 ^ n) ^ k ≤ m then x + 2 ^ n else x)

/-- The first 64 fraction bits of the `k`-th root of a number below 512. -/
def rootFraction (k p : Nat) : DWord := BitVec.ofNat 64 (growRoot k (p * 2 ^ (64 * k)) 69 0)

/-- The primes below 440. -/
def smallPrimes : List Nat :=
  (List.range 440).filter fun p => decide (2 ≤ p) && (List.range 19).all fun d => p == d + 2 || p % (d + 2) != 0

/-- The round constants: from the cube roots of the first 80 primes. -/
def roundConstants : List DWord := (smallPrimes.take 80).map (rootFraction 3)

/-- The working words at the start of SHA-384, h first: from the square roots of the ninth to the sixteenth prime. -/
def startWords : List DWord := ((smallPrimes.drop 8).take 8).reverse.map (rootFraction 2)

/-- A big-endian number of bytes. -/
def beNat (bs : List Byte) : Nat := leNat bs.reverse

/-- The exclusive or of a word rotated right by each of some numbers. -/
def turned (ns : List Nat) (x : DWord) : DWord := ns.foldl (fun y n => y ^^^ x.rotateRight n) 0

/-- One round of the working words, h first, with the sum of its message word and constant. -/
def roundOn (add : DWord) : List DWord → List DWord
  | [h, g, f, e, d, c, b, a] =>
    let choice := g ^^^ (e &&& (f ^^^ g))
    let major := (a &&& (b ||| c)) ||| (b &&& c)
    let t := h + turned [14, 18, 41] e + choice + add
    [g, f, e, d + t, c, b, a, t + turned [28, 34, 39] a + major]
  | ws => ws

/-- The message words of a block, newest first, `n` more of them. -/
def schedule : Nat → List DWord → List DWord
  | 0, ws => ws
  | n + 1, ws =>
    let back := fun i => ws.getD (i - 1) 0
    let low := turned [1, 8] (back 15) ^^^ (back 15 >>> 7)
    let high := turned [19, 61] (back 2) ^^^ (back 2 >>> 6)
    schedule n ((back 16 + low + back 7 + high) :: ws)

/-- The working words after a block of 128 bytes. -/
def absorb (ws : List DWord) (bs : List Byte) : List DWord :=
  let first := (List.range 16).map fun i => BitVec.ofNat 64 (beNat ((bs.drop (8 * i)).take 8))
  let adds := List.zipWith (· + ·) (schedule 64 first.reverse).reverse roundConstants
  List.zipWith (· + ·) ws (adds.foldl (fun s x => roundOn x s) ws)

/-- A message with its padding: whole blocks, the last ending in the number of its bits. -/
def padded (bs : List Byte) : List Byte :=
  bs ++ [0x80] ++ List.replicate ((239 - bs.length % 128) % 128) 0 ++ (leBytes 16 (8 * bs.length)).reverse

/-- SHA-384 of a list of bytes: 48 bytes in the order of the standard. -/
def sha384 (bs : List Byte) : List Byte :=
  let m := padded bs
  let ws := (List.range (m.length / 128)).foldl (fun ws i => absorb ws ((m.drop (128 * i)).take 128)) startWords
  (ws.reverse.take 6).flatMap fun x => (leBytes 8 x.toNat).reverse

end Sys2Proof.Machine
end

