-- ==== Sys2Proof/Machine/Update.lean ====
section
/-!
DEFINITION. The update engine: UPD and NORM with the steps in which they perform (R258, R259, R271, R272, R350).
-/
namespace Sys2Proof.Machine

/-! Real numbers rounded once (R272). -/

def FVal.one : FVal := .num false 1

/-- A quotient, with the special values of IEEE 754. -/
def FVal.quot : FVal → FVal → FVal
  | .nan _, _ => .nan false
  | _, .nan _ => .nan false
  | .inf _, .inf _ => .nan false
  | .inf s, .num t _ => .inf (s != t)
  | .num s _, .inf t => .num (s != t) 0
  | .num s x, .num t y => if y = 0 then (if x = 0 then .nan false else .inf (s != t)) else .num (s != t) (x / y)

/-- A power with a whole exponent. -/
def FVal.power : FVal → Nat → FVal
  | .nan _, _ => .nan false
  | .inf s, n => .inf (s && n % 2 == 1)
  | .num s x, n => .num (s && n % 2 == 1) (x ^ n)

/-- A square root; one that is no rational stands for itself to more than 300 bits. -/
def FVal.root : FVal → FVal
  | .nan _ => .nan false
  | .inf s => if s then .nan false else .inf false
  | .num s x => if x = 0 then .num s 0 else if s then .nan false else .num false (sqrtApprox x)

/-- The largest number below 2^(i+1) beyond `c` of which `ok` holds, by bits from `i` down. -/
def searchCode (ok : Nat → Bool) : Nat → Nat → Nat
  | 0, c => if ok (c + 1) then c + 1 else c
  | i + 1, c => searchCode ok i (if ok (c + 2 ^ (i + 1)) then c + 2 ^ (i + 1) else c)

/-- The FP32 magnitude code to which a positive number rounds, ties to even: `above x` says that it lies above x. It
is no rational, so no tie arises. -/
def roundAbove (above : Rat → Bool) : Nat :=
  let c := searchCode (fun n => decide (n ≤ Fmt.fp32.maxCode) && above (Fmt.fp32.magOf n)) 30 0
  if above ((Fmt.fp32.magOf c + Fmt.fp32.magOf (c + 1)) / 2) then c + 1 else c

/-- Whether a√q + b is positive, for a q that is no square. -/
def surdPositive (a b q : Rat) : Bool :=
  if 0 ≤ a ∧ 0 ≤ b then !(a == 0 && b == 0)
  else if a ≤ 0 ∧ b ≤ 0 then false
  else if 0 ≤ a then decide (b * b < a * a * q)
  else decide (a * a * q < b * b)

/-- Whether w − x/(√q + e) lies above t. -/
def adamAbove (w x q e t : Rat) : Bool :=
  let p := surdPositive (w - t) ((w - t) * e - x) q
  if surdPositive 1 e q then p else !p

/-- RoundNE of w − x/(√q + e), for x ≠ 0 and a q that is no square. -/
def adamSurd (w x q e : Rat) : Word :=
  let neg := !adamAbove w x q e 0
  let m := if neg then roundAbove (adamAbove (-w) (-x) q e) else roundAbove (adamAbove w x q e)
  BitVec.ofNat 32 (Fmt.fp32.signed neg m)

/-- Whether a positive rational has a rational square root. -/
def isSquare (q : Rat) : Bool :=
  let root := fun n => isqrt (Nat.log2 n / 2 + 1) n
  root q.num.natAbs * root q.num.natAbs == q.num.natAbs && root q.den * root q.den == q.den

/-- Adam's new weight (R272): one rounding of the exact expression. `mh` is m/(1 − MU^STEPT) and `q` is
u/(1 − BETA2^STEPT). -/
def adamWeight (w lr wd eps mh q : FVal) : Word :=
  let plain := toF32 (w.sub (lr.mul ((mh.quot (q.root.add eps)).add (wd.mul w))))
  match w, lr, wd, eps, mh, q with
  | .num ws wx, .num ls lx, .num ds dx, .num es ex, .num ms mx, .num qs qx =>
    let r := fun s x => (FVal.num s x).toRat
    if qs || isSquare qx || lx * mx == 0 then plain
    else adamSurd (r ws wx - r ls lx * r ds dx * r ws wx) (r ls lx * r ms mx) qx (r es ex)
  | _, _, _, _, _, _ => plain

/-! Shard blocks (Table 4 of R272, and R271). -/

def ubModel (b : BitVec 512) : Nat := recField b 0 2
def ubClip (b : BitVec 512) : Bool := recBits b 2 0 1 == 1
def ubLead (b : BitVec 512) : Bool := recBits b 2 1 1 == 1
def ubTile0 (b : BitVec 512) : Nat := recField b 4 4
def ubNt (b : BitVec 512) : Nat := recField b 8 4
def ubNormh (b : BitVec 512) : Half := BitVec.ofNat 16 (recField b 0xC 2)
def ubNpar (b : BitVec 512) : Bool := recBits b 0xE 0 1 == 1
def ubNormv (b : BitVec 512) : Nat := recField b 0x10 4
def ubWord (b : BitVec 512) (off : Nat) : Word := BitVec.ofNat 32 (recField b off 4)
def ubNum (b : BitVec 512) (off : Nat) : FVal := f32 (ubWord b off)
def ubStept (b : BitVec 512) : Nat := recField b 0x30 4

/-- NORMV of a NORM's block. -/
def nbNormv (b : BitVec 512) : Nat := recField b 12 4

/-- The first location of NORMV: a multiple of 4 in the cluster window or the die scratchpad (R271), or for UPD in own local
memory too, as for its block (R272; DEDUCED, log entry 28). -/
def State.normPlace (s : State) (own : Bool) (addr : Nat) : Option Nat :=
  if addr % 4 ≠ 0 ∨ (addr < 0x400_0000 ∧ !(own && decide (addr < 0x8_0000))) ∨ (0x800_0000 ≤ addr ∧ addr < 0x1000_0000)
      ∨ 0x2000_0000 ≤ addr then none
  else
    match s.odaBytes s.me addr 4 with
    | .ok bs => (odaKeys bs).head?
    | .error _ => none

/-- Whether a shard lies in its model. -/
def shardOk (r : BitVec 1024) (tile0 nt : Nat) : Bool := !mdAbsent r && nt != 0 && decide (tile0 + nt ≤ mdTiles r)

/-- Whether a shard block keeps Table 4. -/
def State.shardBlockOk (s : State) (b : BitVec 512) : Bool :=
  let r := s.model s.me.ctx (ubModel b)
  shardOk r (ubTile0 b) (ubNt b) && recBits b 2 2 14 == 0 && recBits b 0xE 1 15 == 0 && recField b 0x38 8 == 0
    && (ubNormh b != 0 || !(ubClip b || ubLead b)) && (ubNormh b == 0 || (s.normPlace true (ubNormv b)).isSome)
    && (mdOpt r == 0 || ubStept b != 0)

/-- Whether a NORM's block is legal (R271). -/
def State.normBlockOk (s : State) (b : BitVec 512) : Bool :=
  shardOk (s.model s.me.ctx (ubModel b)) (ubTile0 b) (ubNt b) && recField b 2 2 == 0 && (s.normPlace false (nbNormv b)).isSome

/-! Acceptance. -/

/-- A command joins the update engine's queue; it holds a reference to each barrier it names (R149, R272). -/
def State.acceptUpd (s : State) (isNorm : Bool) (b : BitVec 512) (outAt normAt bar : Option Nat) (handle : Half)
    (normBar : Option Nat) : State :=
  let s := s.missOnAccept s.me.place.die
  let a := s.me
  let d := s.die a.place.die
  let c : UpdCmd :=
    { seq := s.nextSeq, who := a.who, place := a.place, unit := a.unit, env := a.env, isNorm := isNorm, block := b,
      regs := s.regsOf a.ctx,
      outAt := outAt, normAt := normAt, bar := bar, handle := handle, normBar := normBar, started := false, sum := 0,
      done := 0, skipped := false, already := false, status := 0, stall := none, stage := 0 }
  (({ s with nextSeq := s.nextSeq + 1 }.retainOpt bar).retainOpt normBar).setDie a.place.die { d with updQ := d.updQ ++ [c] }

/-- Whether the update engine's queue has no place. -/
def State.updFull (s : State) : Bool := decide (64 ≤ (s.die s.me.place.die).updQ.length)

/-- A block as the context's memory holds it, on which the update engine acts in deterministic mode too (R272): the checks
of any such image, and its bytes past the unit's snapshot. -/
def State.updImage (s : State) (ea n : Nat) : Except Cause (List Byte) :=
  match s.image ea n with
  | .error c => .error c
  | .ok bs =>
    match s.odaBytes s.me ea n with
    | .ok ks => .ok ((odaKeys ks).map fun k => s.readByte { s.me.unit with index := 2 ^ 32 } k)
    | .error _ => .ok bs

/-- What UPD and NORM share: their operands in the order of R271 and R272. A full queue holds the group back. -/
def updForm (size : Nat) (b a : BitVec 7) (s : State) (k : State → Nat → BitVec 512 → Option Nat → Half → State) : Out :=
  guard (gNeed .core [a, b]) s fun s =>
    let ga := s.me.g7 a
    let gb := s.me.g7 b
    let h := gb.extractLsb' 0 16
    let ea := bitsOf ga 0 32
    if bitsOf ga 32 32 ≠ 0 ∨ bitsOf gb 16 48 ≠ 0 then .next (takeTrap s .illegalField)
    else
      match s.updImage ea size with
      | .error c => .next (addrTrap s c ea)
      | .ok bs =>
        match s.cmdHandle h with
        | .error c => .next (takeTrap s c)
        | .ok bar => .next (k s ea (BitVec.ofNat 512 (leNat bs)) bar h)

/-- UPD (R272). -/
def execUpd (b a : BitVec 7) (s : State) : Out :=
  updForm 64 b a s fun s ea blk bar h =>
    match s.cmdHandle (ubNormh blk) with
    | .error c => takeTrap s c
    | .ok nb =>
      if !s.shardBlockOk blk then takeTrap s .updateParam
      else if s.updFull then s
      else
        let place := match s.odaBytes s.me (ea + 0x34) 4 with | .ok bs => (odaKeys bs).head? | .error _ => none
        (s.acceptUpd false blk place (if nb.isSome then s.normPlace true (ubNormv blk) else none) bar h nb).finish true

/-- NORM (R271). -/
def execNorm (b a : BitVec 7) (s : State) : Out :=
  updForm 16 b a s fun s _ blk bar h =>
    if !s.normBlockOk blk then takeTrap s .updateParam
    else if s.updFull then s
    else (s.acceptUpd true blk (s.normPlace false (nbNormv blk)) none bar h none).finish true

/-- An update node's unit (R183): its block is checked as UPD checks one; one that fails ends with no effect, and so
does one that names a norm barrier, for which a node has no handle table (DESIGN CHOICE, log entry 27). -/
def State.startUpdateNode (s : State) (l : Launch) (u : UnitKey) (d : Nat) : State :=
  let me := s.me
  let s := { s with me := s.nodeAgent l u d }
  let blk := BitVec.ofNat 512 (leNat (l.command u.index 64))
  let t := if ubNormh blk ≠ 0 ∨ !s.shardBlockOk blk then s.endNode u
    else s.acceptUpd false blk (s.ctxKey l.ctx (lnKernel l.raw + 64 * u.index + 0x34) true) none none 0 none
  { t with me := me }

/-! The engine's memory. In deterministic mode too it acts on the context's memory itself (R181, R272). -/

/-- The engine's view of a command. It acts for no unit, so no snapshot stands between it and the context's memory. -/
def UpdCmd.issuer (c : UpdCmd) (die : Nat) : Issuer :=
  ⟨issuerAgent c.who c.place { c.unit with index := 2 ^ 32 } c.env, die, [], c.seq⟩

/-- FP32 words from a VA on. -/
def State.updWords (s : State) (e : Issuer) (va n : Nat) : State × List Word × DWord :=
  let r := s.engineBytes e 1 ((List.range (4 * n)).map fun i => va + i)
  (r.1, (groupBytes 4 n r.2.1).map (BitVec.ofNat 32), r.2.2)

/-- Where a byte at a VA is written: on a replicated page, every replica; nowhere in a reduction region (R200). -/
def State.updDest (s : State) (e : Issuer) (va : Nat) : State × List Nat × DWord :=
  let v := BitVec.ofNat 56 va
  let (s, o) := s.vaByte e.agent.unit (.command e.seq) e.die e.agent.ctx v true false
  match s.peerFault o v, o with
  | some c, _ => (s, [], errStatus c)
  | none, .frame k leaf _ =>
    if s.regionBars e k then (s, [], errStatus .detViolation)
    else (s, if leaf.getLsbD 7 then (s.replicaDies e.agent.ctx).map fun d => k - e.die * 2 ^ 37 + d * 2 ^ 37 else [k], 0)
  | none, .peer node pasid _ _ => (s, [peerKey node pasid v], 0)
  | none, o => (s, [], outcomeStatus o v true)

/-- The VAs, locations and bytes of a write at VAs. -/
def State.updCells (s : State) (e : Issuer) : List (Nat × Byte) → State × List (Nat × Nat × Byte) × DWord
  | [] => (s, [], 0)
  | (va, b) :: r =>
    let (s, ks, st) := s.updDest e va
    let (s, cs, st') := State.updCells s e r
    (s, (ks.map fun k => (va, k, b)) ++ cs, statusMerge st st')

/-- Bytes written at VAs, all at once: the locations written and what the write reports. -/
def State.updWrite (s : State) (e : Issuer) (xs : List (Nat × Byte)) : State × List Nat × DWord :=
  let r := s.updCells e xs
  let keys := r.2.1.map fun c => c.2.1
  let write := fun (s : State) (va : Option Nat) => s.launchWrite e.agent.ctx e.agent.unit.launch va
  let s := write r.1 none ((r.2.1.filter fun c => !outwardKey c.2.1).map fun c => c.2)
  let s := (groupWrites (r.2.1.filter fun c => outwardKey c.2.1)).foldl (fun s w => write s (some w.va) w.cells) s
  (s.holdLines (.command e.agent.who e.seq) keys, keys, r.2.2)

/-- Four bytes written at a location: none in a reduction region, which the write reports (R200). -/
def State.updPut (s : State) (e : Issuer) (k : Nat) (x : Word) : State × DWord :=
  if s.regionBars e k then (s, errStatus .detViolation)
  else
    ((s.launchWrite e.agent.ctx e.agent.unit.launch none (cellsAt k (leBytes 4 x.toNat))).holdLines (.command e.agent.who e.seq)
      ((List.range 4).map fun i => k + i), 0)

/-- A field of a model's record is set, as a write of a launch that `h` holds (R169). -/
def State.setModel (s : State) (u : UnitKey) (h : Holder) (m off n x : Nat) : State :=
  let cells := s.ctxCells u.ctx (s.modelAt u.ctx m + off) (leBytes n x)
  (s.launchWrite u.ctx u.launch none cells).holdLines h (cells.map fun c => c.1)

/-- Whether the slot of a version is held (R259): by a launch that is bound, or by a redeem run. -/
def State.slotHeld (s : State) (ctx m : Nat) (v : Word) : Bool :=
  let r := s.model ctx m
  (s.launches.any fun l => l.ctx == ctx && !l.complete && l.model == m && l.bound.any fun w => mdSlot r w == mdSlot r v)
    || (s.context ctx).runs.any fun x => !x.ended && x.model == m && mdSlot r x.version == mdSlot r v

/-! UPD (R272). -/

/-- k of R272: what the gradients are multiplied by. -/
def updScale (b : BitVec 512) (sum : Word) : Word :=
  let ls := ubNum b 0x2C
  let nrm := f32 (toF32 ((f32 (toF32 (f32 sum).root)).quot ls))
  let clip := ubNum b 0x28
  let c := if ubClip b && clip.lt nrm then f32 (toF32 (clip.quot nrm)) else FVal.one
  toF32 (c.quot ls)

/-- New first state, second state and weight of an element. -/
structure OptElem where
  m : Word
  u : Word
  w : Word
deriving DecidableEq, Repr

/-- One element of SGD with momentum. -/
def sgdElem (b : BitVec 512) (g : Word) (x : OptElem) : OptElem :=
  let m := fmaW (ubWord b 0x18) x.m g
  let y := toF32 ((f32 m).add ((ubNum b 0x24).mul (f32 x.w)))
  ⟨m, x.u, toF32 ((f32 x.w).sub ((ubNum b 0x14).mul (f32 y)))⟩

/-- One element of Adam; `c1` and `c2` are 1 − MU^STEPT and 1 − BETA2^STEPT. -/
def adamElem (b : BitVec 512) (c1 c2 : FVal) (g : Word) (x : OptElem) : OptElem :=
  let mu := ubNum b 0x18
  let b2 := ubNum b 0x1C
  let gv := f32 g
  let m := toF32 ((mu.mul (f32 x.m)).add ((FVal.one.sub mu).mul gv))
  let u := toF32 ((b2.mul (f32 x.u)).add (((FVal.one.sub b2).mul gv).mul gv))
  ⟨m, u, adamWeight (f32 x.w) (ubNum b 0x14) (ubNum b 0x24) (ubNum b 0x20) ((f32 m).quot c1) ((f32 u).quot c2)⟩

/-- The elements of a tile after an optimiser step. -/
def optTile (opt : Nat) (b : BitVec 512) (k : Word) (ga : List Word) (xs : List OptElem) : List OptElem :=
  let c := fun off => FVal.one.sub ((ubNum b off).power (ubStept b))
  let c1 := c 0x18
  let c2 := c 0x1C
  (ga.zip xs).map fun p =>
    let g := fmulW p.1 k
    if opt = 0 then sgdElem b g p.2 else adamElem b c1 c2 g p.2

/-- The BF16 tile, the E4M3 tile and its scale (R35: RNE, granule 2) of a tile of weights. -/
def bf16Tile (ws : List Word) : List Byte := ws.flatMap fun w => leBytes 2 (roundIeee .bf16 .ne (f32 w))
def e4m3Scale (ws : List Word) : Word := granuleScale .e4m3 ws
def e4m3Tile (ws : List Word) : List Byte :=
  let s := e4m3Scale ws
  ws.flatMap fun w => leBytes 1 (quantCode .e4m3 .ne s w).1

/-- The share of a tile in the digest (R350): the first 16 bytes of the SHA-384 in the order in which SHA-384 gives them, the
first as the lowest byte of D (R351; DESIGN CHOICE, log entry 69). -/
def tileDigest (i : Nat) (ws : List Word) : BitVec 128 :=
  BitVec.ofNat 128 (leNat ((sha384 (leBytes 4 i ++ bf16Tile ws ++ e4m3Tile ws ++ leBytes 4 (e4m3Scale ws).toNat)).take 16))

/-- Everything that the commit of a tile writes, by VA, but for PEND. -/
def tileCells (r : BitVec 1024) (i : Nat) (xs : List OptElem) : List (Nat × Byte) :=
  let ws := xs.map OptElem.w
  let slot := mdVbase r + mdSlot r (mdVcur r + 1) * mdVstr r
  let n := mdTiles r
  cellsAt (mdMaster r + 65536 * i) (wordBytes ws) ++ cellsAt (mdOstate r + 131072 * i) (wordBytes (xs.map OptElem.m))
    ++ cellsAt (mdOstate r + 131072 * i + 65536) (wordBytes (xs.map OptElem.u))
    ++ cellsAt (slot + 32768 * i) (bf16Tile ws) ++ cellsAt (slot + 32768 * n + 16384 * i) (e4m3Tile ws)
    ++ cellsAt (slot + 49152 * n + 4 * i) (leBytes 4 (e4m3Scale ws).toNat)
    ++ cellsAt (mdGacc r + 65536 * i) (List.replicate 65536 0) ++ cellsAt (mdGflags r + 16 * i) (List.replicate 16 0)

/-- The VAs of the FP32 words that the step on a tile reads: gradients, first and second state, weights. -/
def tileReads (r : BitVec 1024) (i : Nat) : List Nat :=
  [mdGacc r + 65536 * i, mdOstate r + 131072 * i, mdOstate r + 131072 * i + 65536, mdMaster r + 65536 * i]

/-- The commit of one tile (R272): the state, the locations written, and what its reads and writes report. -/
def State.commitTile (s : State) (e : Issuer) (c : UpdCmd) (i : Nat) : State × List Nat × DWord :=
  let u := c.unit
  let m := ubModel c.block
  let r := s.model u.ctx m
  let ga := s.updWords e (mdGacc r + 65536 * i) 16384
  let ms := ga.1.updWords e (mdOstate r + 131072 * i) 16384
  let us := ms.1.updWords e (mdOstate r + 131072 * i + 65536) 16384
  let ws := us.1.updWords e (mdMaster r + 65536 * i) 16384
  let old := (ms.2.1.zip (us.2.1.zip ws.2.1)).map fun x => (⟨x.1, x.2.1, x.2.2⟩ : OptElem)
  let xs := optTile (mdOpt r) c.block (updScale c.block c.sum) ga.2.1 old
  let w := ws.1.updWrite e (tileCells r i xs)
  let t := w.1.setModel u (.command c.who c.seq) m 0xC 4 (mdPend r + 1)
  let x := t.context u.ctx
  (t.setContext u.ctx { x with committed := x.committed ++ [⟨m, i, u.launch, tileDigest i (xs.map OptElem.w)⟩] }, w.2.1,
   statusMerge ga.2.2 (statusMerge ms.2.2 (statusMerge us.2.2 (statusMerge ws.2.2 w.2.2))))

/-- Whether a tile is already committed to the version in the making. -/
def State.isCommitted (s : State) (ctx m i : Nat) : Bool := (s.context ctx).committed.any fun c => c.model == m && c.tile == i

/-- What LEAD does to the loss scale (R272). -/
def State.leadStep (s : State) (c : UpdCmd) : State :=
  let m := ubModel c.block
  let r := s.model c.unit.ctx m
  let ls := ubWord c.block 0x2C
  let put := fun (s : State) (off x : Nat) => s.setModel c.unit (.command c.who c.seq) m off 4 x
  let set := fun (s : State) (scale : Word) => put (put s 0x30 scale.toNat) 0x34 0
  if c.skipped then set s (toF32 ((f32 ls).mul (.num false (mkRat 1 2))))
  else if mdNgrow r ≤ mdGood r + 1 then set s (fminW (toF32 ((f32 ls).mul (.num false 2))) (toF32 (.num false 16777216)))
  else put s 0x34 (mdGood r + 1)

def UpdCmd.completion (c : UpdCmd) : Completion := ⟨c.seq, c.who, c.unit, c.env.det, c.bar, c.handle, 0, 1, c.status⟩

/-- A command leaves the update engine's queue and makes its arrival; a node's unit ends with it (R271, R272). -/
def State.endUpd (s : State) (die i : Nat) (c : UpdCmd) : State :=
  let d := s.die die
  ((s.setDie die { d with updQ := d.updQ.eraseIdx i }).complete c.completion d.time).endNode c.unit

/-- A command stands changed in its queue. -/
def State.setUpd (s : State) (die i : Nat) (c : UpdCmd) : State :=
  let d := s.die die
  s.setDie die { d with updQ := d.updQ.set i c }

/-- An UPD has handled its tiles: LEAD, RESULT, and its arrival. -/
def State.finishUpd (s : State) (die i : Nat) (c : UpdCmd) : State :=
  let res : Word := if c.skipped then 1 else if c.already then 2 else 0
  let s := if ubLead c.block then s.leadStep c else s
  let w := c.outAt.elim (s, 0) fun k => s.updPut (c.issuer die) k res
  w.1.endUpd die i { c with status := statusMerge c.status w.2 }

/-- A command that could act now. -/
def State.updRunnable (s : State) (c : UpdCmd) : Bool :=
  c.isNorm || (c.started && (c.skipped || !s.slotHeld c.unit.ctx (ubModel c.block) (mdVcur (s.model c.unit.ctx (ubModel c.block)) + 1)))

/-- Whether a command stands within a tile or its one sum, and whether it has the engine at a tile commit. -/
def UpdCmd.midTile (c : UpdCmd) : Bool := c.stage != 0 || c.stall.isSome
def UpdCmd.underWay (c : UpdCmd) : Bool := c.midTile || decide (0 < c.done)

/-- Whether another command has the engine: one within a tile; at a tile commit one of higher class, or one of no lower class that
has begun before this one (R295). -/
def State.updYields (s : State) (die : Nat) (c : UpdCmd) : Bool :=
  !c.midTile && (s.die die).updQ.any fun x => x.seq != c.seq && (x.midTile
    || (s.updRunnable x && (decide (c.env.cls < x.env.cls) || (!c.underWay && x.underWay && decide (c.env.cls ≤ x.env.cls)))))

/-- The shard's gradients are dropped after a bad sum (R272). -/
def State.dropShard (s : State) (e : Issuer) (c : UpdCmd) : State × List Nat × DWord :=
  let r := s.model c.unit.ctx (ubModel c.block)
  let n := ubNt c.block
  s.updWrite e (cellsAt (mdGacc r + 65536 * ubTile0 c.block) (List.replicate (65536 * n) 0)
    ++ cellsAt (mdGflags r + 16 * ubTile0 c.block) (List.replicate (16 * n) 0))

/-- A command's reads or writes cannot go on: it waits for a walk slot (R311), or for a locked replica, from the die time
at which it first met it (R179, R180). -/
def State.stallUpd (s t : State) (die i : Nat) (c : UpdCmd) (st : DWord) : Out :=
  if metWait st then .next (s.keepMisses t die)
  else if c.stall.isSome then .refused .notDue
  else .next (s.setUpd die i { c with stall := some (s.die die).time })

/-- A part of a command has been done in `r`: it stalls, or waits while another commit to its bytes is under way, or for its
peers' acknowledgements, or goes on as `k` says. -/
def State.updDone (s : State) (die i : Nat) (c : UpdCmd) (r : State × List Nat × DWord) (k : State → UpdCmd → State) : Out :=
  if metWait r.2.2 || metLock r.2.2 then s.stallUpd r.1 die i c r.2.2
  else if s.commitPending die r.2.1 then .refused .notDue
  else
    let c := { c with status := statusMerge c.status r.2.2, stall := none }
    if r.2.1.any isPeerKey && r.1.goesOut (c.issuer die).agent.unit then
      .next ((r.1.sendWrites r.2.1 (cmdRequest die c.seq c.unit (s.die die).time c.env.det)).setUpd die i { c with stage := 2 })
    else .next (k r.1 { c with stage := 0 })

/-- The peers' locations among the FP32 words of several tiles. -/
def State.updPeers (s : State) (e : Issuer) (vas : List Nat) : List Nat :=
  vas.flatMap fun va => s.peerKeysOf e 1 ((List.range 65536).map fun j => va + j)

/-- UPD_START (R272): the norm barrier has flipped; its reference is released and NORMV is read once. NORMV in a poisoned unit
reads 0 and is reported (R338; DESIGN CHOICE, log entry 67). -/
def State.startUpd (s : State) (die i : Nat) (c : UpdCmd) : Out :=
  if c.isNorm || c.started || c.normBar.any fun b => (s.barrier b).phase == ubNpar c.block then .refused .notDue
  else
    let bad := c.normAt.any fun k => s.poison.contains (k / 16)
    let sum : Word := if bad then 0 else c.normAt.elim 0 fun k => BitVec.ofNat 32 (leNat ((List.range 4).map fun j => Memory.read s.mem (k + j)))
    let s := match c.normBar with
      | some b => s.setBarrier b (s.barrier b).release
      | none => s
    let v := f32 sum
    .next (s.setUpd die i { c with started := true, sum := sum, normBar := none, skipped := v.isNaN || v.isInf,
                                   status := if bad then errStatus .uncorrectable ||| 0x20 else 0 })

/-- The step of a command of a die's update engine, under the registers that stood at its acceptance (R283). -/
def updStep (die i : Nat) (f : State → UpdCmd → Out) (s : State) : Out :=
  match (s.die die).updQ[i]? with
  | none => .refused .notDue
  | some c => if s.answered die c.seq then underRegs c.unit.ctx c.regs (fun s => f s c) s else .refused .notDue

/-- UPD_START (R272). -/
def execUpdStart (die i : Nat) (s : State) : Out := updStep die i (fun s c => s.startUpd die i c) s

/-- The next tile of a shard, as one commit, or the dropping of a shard after a bad sum (R272). It waits while the slot is
held (R259), while a replica it touches is locked (R179), and while another command has the engine; of peers it first asks for what it reads there. -/
def State.stepUpd (s : State) (die i : Nat) (c : UpdCmd) : Out :=
  let m := ubModel c.block
  let e := c.issuer die
  let tile := ubTile0 c.block + c.done
  let next := fun (s : State) (c : UpdCmd) =>
    let c := { c with done := c.done + 1, stage := 0 }
    if ubNt c.block ≤ c.done then s.finishUpd die i c else s.setUpd die i c
  if !c.started || s.updYields die c then .refused .notDue
  else if c.skipped then
    if c.stage = 2 then .next (s.finishUpd die i c)
    else s.updDone die i c (s.dropShard e c) fun s c => s.finishUpd die i c
  else if c.stage = 2 then .next (next s c)
  else if s.isCommitted c.unit.ctx m tile then .next (next s { c with already := true })
  else if !s.updRunnable c then .refused .notDue
  else
    let asked := if c.stage = 0 then s.updPeers e (tileReads (s.model c.unit.ctx m) tile) else []
    if !asked.isEmpty then
      .next ((s.sendReads asked (cmdRequest die c.seq c.unit (s.die die).time c.env.det)).setUpd die i { c with stage := 1 })
    else s.updDone die i c (s.commitTile e c tile) next

/-- UPD_TILE_COMMIT (R272). -/
def execUpdTileCommit (die i : Nat) (s : State) : Out := updStep die i (fun s c => s.stepUpd die i c) s

/-! NORM (R271). -/

/-- The sum of squares of a tile. -/
def tileNorm (ga : List Word) : Word :=
  pairTree 14 (fun i => fmulW (ga.getD i 0) (ga.getD i 0)) 0

/-- The shard's sum over `n` tiles from `i` on, and whether a tile's OVF, NAN or INV is set. -/
def State.shardNorm (s : State) (e : Issuer) (r : BitVec 1024) : Nat → Nat → Word → State × Word × Bool × DWord
  | 0, _, p => (s, p, false, 0)
  | n + 1, i, p =>
    let (s, ga, st) := s.updWords e (mdGacc r + 65536 * i) 16384
    let (s, fl, st2) := s.updWords e (mdGflags r + 16 * i + 4) 1
    let (s, q, bad, st3) := State.shardNorm s e r n (i + 1) (faddW p (tileNorm ga))
    (s, q, bad || (fl.getD 0 0) &&& 7 != 0, statusMerge st (statusMerge st2 st3))

/-- What a NORM does once its shard is there: the sum is added into NORMV. NORMV in a poisoned unit is not read, and so not
changed (R338). -/
def State.applyNorm (s : State) (e : Issuer) (c : UpdCmd) : State × List Nat × DWord :=
  let r := s.shardNorm e (s.model c.unit.ctx (ubModel c.block)) (ubNt c.block) (ubTile0 c.block) 0
  let p : Word := if r.2.2.1 then 0x7F80_0000 else r.2.1
  match c.outAt with
  | none => (r.1, [], r.2.2.2)
  | some k =>
    if r.1.poison.contains (k / 16) then (r.1, [], statusMerge r.2.2.2 (errStatus .uncorrectable ||| 0x20))
    else
      let old := BitVec.ofNat 32 (leNat ((List.range 4).map fun j => Memory.read r.1.mem (k + j)))
      let w := r.1.updPut e k (faddW old p)
      (w.1, [], statusMerge r.2.2.2 w.2)

/-- The step of a NORM (R271): of peers it first asks for the tiles and flag records that it reads there. -/
def State.stepNorm (s : State) (die i : Nat) (c : UpdCmd) : Out :=
  let e := c.issuer die
  let r := s.model c.unit.ctx (ubModel c.block)
  let tiles := (List.range (ubNt c.block)).map fun j => ubTile0 c.block + j
  if !c.isNorm || s.updYields die c then .refused .notDue
  else
    let asked := if c.stage = 0 then
        s.updPeers e (tiles.map fun j => mdGacc r + 65536 * j)
          ++ s.peerKeysOf e 1 (tiles.flatMap fun j => (List.range 16).map fun b => mdGflags r + 16 * j + b)
      else []
    if !asked.isEmpty then
      .next ((s.sendReads asked (cmdRequest die c.seq c.unit (s.die die).time c.env.det)).setUpd die i { c with stage := 1 })
    else s.updDone die i c (s.applyNorm e c) fun s c => s.endUpd die i c

/-- NORM_APPLY (R271): the shard's sum is added into NORMV, and the command arrives. -/
def execNormApply (die i : Nat) (s : State) : Out := updStep die i (fun s c => s.stepNorm die i c) s

end Sys2Proof.Machine
end

