-- ==== Sys2Proof/Machine/Launch.lean ====
section
/-!
DEFINITION. Launching: the checks of a launch record, acceptance, LNCH and LNCHC with their answer, and the admission
of units (R183 to R195, R260, R292 to R294, R340, R342).
-/
namespace Sys2Proof.Machine

/-! Legal values (R183, R188). -/

/-- Whether a tile operand entry is legal: entries at and beyond NOPER are MBZ. -/
def operOk (r : BitVec 1024) (i : Nat) : Bool :=
  if i < lnNoper r then lnOper r i / 2 ^ 12 % 4 != 3 && lnOper r i / 2 ^ 14 == 0 else lnOper r i == 0

/-- Whether a reduction region is legal: a scratchpad range or a VA range, its length and its kind. -/
def regionOk (r : BitVec 1024) (i : Nat) : Bool :=
  let base := recField r (0x60 + 16 * i) 8
  let len := recField r (0x68 + 16 * i) 4
  let kind := recField r (0x6C + 16 * i) 1
  if i < lnNred r then
    (if base / 2 ^ 62 = 0 then decide (base < 2 ^ 32) && decide (0x1000_0000 ≤ base) && decide (base + len ≤ 0x2000_0000)
      else base / 2 ^ 62 == 1 && decide (base % 2 ^ 62 < 2 ^ 56))
      && len != 0 && len % 4 == 0 && (kind == 1 || kind == 2) && recField r (0x6D + 16 * i) 3 == 0
  else recField r (0x60 + 16 * i) 8 == 0 && recField r (0x68 + 16 * i) 8 == 0

/-- Whether two regions of a record overlap (R200). -/
def regionsOverlap (r : BitVec 1024) : Bool :=
  match regionsOf r with
  | [a, b] => decide (a.base / 2 ^ 62 = b.base / 2 ^ 62) && decide (a.base < b.base + b.len) && decide (b.base < a.base + a.len)
  | _ => false

/-- Whether the control block that BULKQA names lies in the block window or in local memory (R158, R183). -/
def bulkqaOk (r : BitVec 1024) : Bool :=
  !lnBulkq r || decide (lnBulkqa r % 2 ^ 31 + 32 ≤ if 2 ^ 31 ≤ lnBulkqa r then 0x8_0000 else 0x100_0000)

/-- Whether every field of Table 1 keeps its legal values. -/
def recordOk (r : BitVec 1024) : Bool :=
  decide (lnKind r ≤ 3) && (lnKind r != 0 || lnKernel r % 64 == 0) && lnPlen r % 8 == 0 && decide (lnPlen r ≤ 512)
    && recBits r 0x12 7 9 == 0 && recBits r 0x12 0 1 == 0 && decide (1 ≤ lnUnits r) && decide (lnUnits r ≤ 2 ^ 20)
    && (decide (lnClass r ≤ 3) || lnClass r == 0xFF) && decide (lnNoper r ≤ 4) && decide (lnNred r ≤ 2)
    && decide (lnGraph r < 2 ^ 31) && decide (lnPhase r < 2 ^ 15) && recField r 0x36 2 == 0
    && bulkqaOk r && ([0, 1, 2, 3].all fun i => operOk r i) && ([0, 1].all fun i => regionOk r i) && !regionsOverlap r

/-- Whether a descriptor can be used (reason 2). -/
def descOk (d : BitVec 256) : Bool :=
  (kdKind d == 1 || kdKind d == 2) && recBits d 9 2 6 == 0 && recField d 10 2 == 0 && recField d 24 8 == 0
    && decide (kdClass d ≤ 3)
    && (if kdKind d = 1 then kdRegs d % 8 == 0 && decide (8 ≤ kdRegs d) && decide (kdRegs d ≤ 120)
          && decide (1 ≤ kdGroups d) && decide (kdGroups d ≤ 128)
        else kdRegs d == 0 && kdGroups d == 0)

/-- Whether a context's bytes can be read: each translates and none is poisoned. -/
def State.ctxReadable (s : State) (ctx va n : Nat) : Bool :=
  (List.range n).all fun i =>
    match s.ctxKey ctx (va + i) false with
    | some k => !s.poison.contains (k / 16)
    | none => false

/-- The incomplete instance that an id names (R194). -/
def State.graphNamed (s : State) (ctx : Nat) (id : Word) : Option Graph :=
  s.graphs.find? fun g => g.ctx == ctx && g.id == id && !g.complete
def State.phaseNamed (s : State) (ctx id : Nat) : Option Phase :=
  s.phases.find? fun p => p.ctx == ctx && p.id == id && !p.complete

/-- Whether the graph and the phase that a record names are open to it (R193, R194). -/
def State.namesOpen (s : State) (ctx : Nat) (r : BitVec 1024) : Bool :=
  let g := s.graphNamed ctx (BitVec.ofNat 32 (lnGraph r))
  let p := s.phaseNamed ctx (lnPhase r)
  (lnGraph r == 0 || g.all fun g => !g.closed && !g.cancelled)
    && (lnPhase r == 0 || p.all fun p => !p.cancelled && (lnGraph r == 0 || g.isSome || !p.closed))

/-! The launch that a record asks for. -/

/-- The dies of a list of mask bits that a context's partition has. -/
def State.allowedDies (s : State) (ctx mask : Nat) : List Nat :=
  (List.range 8).filter fun d => mask / 2 ^ d % 2 == 1 && (s.partDies (s.partOf ctx)).getLsbD d

/-- The descriptor that a record names, as it stands in memory. -/
def State.descOf (s : State) (ctx : Nat) (r : BitVec 1024) : BitVec 256 :=
  if lnKind r = 0 then BitVec.ofNat 256 (leNat (s.ctxRead ctx (lnKernel r) 32)) else 0

/-- The seed and the class of a launch (R184). An engine node has no descriptor; its 0xFF is class 0 (DESIGN CHOICE, log entry 29). -/
def seedOf (r : BitVec 1024) (d : BitVec 256) : DWord :=
  if lnSeedr r then lnSeed r else if lnKind r = 0 ∧ kdSeedGiven d then kdSeed d else 0
def classOf (r : BitVec 1024) (d : BitVec 256) : Nat :=
  if lnClass r ≠ 0xFF then lnClass r else if lnKind r = 0 then kdClass d else 0

/-- Bytes of one command of an engine node. -/
def commandBytes (kind : Nat) : Nat := if kind = 1 then 32 else 64

/-- A launch of a record: what acceptance reads once (R186). Bytes that cannot be read stand as 0 (DESIGN CHOICE, log entry 29). -/
def State.draft (s : State) (ctx : Nat) (r : BitVec 1024) (coop : Bool) (dies : List Nat) (pool : Option Nat)
    (bar : Option Nat) (handle : Half) : Launch :=
  let d := s.descOf ctx r
  { ctx := ctx, id := (s.context ctx).nextId, raw := r, desc := d,
    code := if lnKind r = 0 then s.ctxRead ctx (lnKernel r + 32) (kdCodeLen d) else [],
    params := if lnParam r = 0 then List.replicate (lnPlen r) 0 else s.ctxRead ctx (lnParam r) (lnPlen r),
    commands := if lnKind r = 0 then [] else s.ctxRead ctx (lnKernel r) (commandBytes (lnKind r) * lnUnits r),
    coop := coop, cls := classOf r d, seed := seedOf r d, dies := dies, age := s.nextAge + 1, pool := pool, next := 0,
    bound := none, model := 0, shift := 0, templates := [], bar := bar, handle := handle, stopping := false,
    cancelled := false, faulted := false, complete := false, doneSeq := 0, graphInst := 0, run := none, res := none,
    passed := [], blocking := false, replayable := lnReplay r, replay := none, staging := 0, explog := 0, replays := 0, rollback := none,
    held := false, committed := false, merged := false, result := [], contribs := [], merges := [], wrote := [] }

/-- Launches that wait in a pool. -/
def State.waitingIn (s : State) (pool : Option Nat) : Nat :=
  (s.launches.filter fun l => l.pool == pool && !l.complete && !l.stopping && decide (l.next < lnUnits l.raw)).length

/-- Whether a pool has no place (R292). -/
def State.poolFull (s : State) (pool : Option Nat) : Bool :=
  decide ((if pool.isSome then 256 else 4096) ≤ s.waitingIn pool)

/-- Whether a context's submission capacity is full (R188): it has as many launches waiting as it may have. -/
def State.submissionFull (s : State) (ctx : Nat) : Bool :=
  decide (Config.submissionMore ctx + 1 ≤
    (s.launches.filter fun l => l.ctx == ctx && !l.complete && !l.stopping && decide (l.next < lnUnits l.raw)).length)

/-- The highest class that a context may use (CTXCFG.MAXCLASS). -/
def State.maxClass (s : State) (ctx : Nat) : Nat := bitsOf (s.ctxReg ctx 0x000) 2 2

/-- The model whose current version a record binds, where there is one. -/
def State.bindable (s : State) (ctx : Nat) (r : BitVec 1024) : Bool :=
  let m := s.model ctx (lnModel r)
  !mdAbsent m && mdVcur m != 0

/-! Acceptance (R187, R191, R194). -/

/-- The phase instance that a record's new graph joins or starts. -/
def State.joinPhase (s : State) (ctx : Nat) (r : BitVec 1024) : State × Nat :=
  if lnPhase r = 0 then (s, 0)
  else
    match s.phaseNamed ctx (lnPhase r) with
    | some p => (s, p.inst)
    | none =>
      let i := s.nextInst + 1
      ({ s with nextInst := i,
                phases := ⟨i, ctx, lnPhase r, false, false, false, false, 0⟩ :: s.phases }, i)

/-- The graph instance that a record joins or starts; LASTG and LASTP close it and its phase. -/
def State.joinGraph (s : State) (ctx : Nat) (r : BitVec 1024) : State × Nat :=
  if lnGraph r = 0 then (s, 0)
  else
    let id := BitVec.ofNat 32 (lnGraph r)
    let (s, g) : State × Graph :=
      match s.graphNamed ctx id with
      | some g => (s, g)
      | none =>
        let (s, p) := s.joinPhase ctx r
        let i := s.nextInst + 1
        ({ s with nextInst := i }, ⟨i, ctx, id, p, false, false, false, false, false, 0, none⟩)
    let g := { g with closed := g.closed || lnLastG r, lastP := g.lastP || lnLastP r }
    let s := { s with graphs := g :: s.graphs.filter fun x => x.inst != g.inst }
    let s := if lnLastP r then
        match s.phase g.phase with
        | some p => s.setPhase { p with closed := true }
        | none => s
      else s
    (s, g.inst)

/-- The id after one: ids ascend modulo 2^32, and 0 is skipped (R187). -/
def nextLaunchId (id : Word) : Word := if id + 1 = 0 then 1 else id + 1

/-- A launch is accepted: it has the next id of its context and the next age. -/
def State.accept (s : State) (l : Launch) : State :=
  let c := s.context l.ctx
  let s := { s.setContext l.ctx { c with nextId := nextLaunchId c.nextId } with nextAge := s.nextAge + 1 }
  { s with launches := { l with id := c.nextId, age := s.nextAge } :: s.launches }

/-- A launch of a record that passed its checks is accepted in its graph. -/
def State.acceptRecord (s : State) (l : Launch) : State :=
  let (s, g) := s.joinGraph l.ctx l.raw
  s.accept { l with graphInst := g }

/-! Admission (R189, R195, R260, R292 to R294). -/

/-- Whether the launches that R185 orders before one have completed. -/
def State.predecessorsDone (s : State) (l : Launch) : Bool :=
  (s.launches.all fun k => !s.orders k l || k.complete)
    && (match s.graph l.graphInst with
        | some g => g.phase == 0 || s.graphs.all fun x => x.phase != g.phase || decide (g.inst ≤ x.inst) || x.complete
        | none => true)

/-- Whether a launch has its place in its pool: one of a redeem run waits until the pool has room (R268, R292). -/
def State.inPool (s : State) (l : Launch) : Bool :=
  l.run.isNone || decide ((s.launches.filter fun k => k.pool == l.pool && !k.complete && !k.stopping
    && decide (k.next < lnUnits k.raw) && decide (k.age < l.age)).length < 4096)

/-- Whether a launch's next unit may be offered. -/
def State.ready (s : State) (l : Launch) : Bool :=
  !l.complete && !l.stopping && !l.held && l.rollback.isNone && decide (l.next < lnUnits l.raw) && s.predecessorsDone l
    && s.inPool l && (l.run.isNone || (s.runOf l).any fun r => r.buffer.isSome)

/-- The engine that a launch's units take: a core, a CSQ thread, or an engine by its node kind. -/
def Launch.engine (l : Launch) : Nat := if lnKind l.raw = 0 then 10 + kdKind l.desc else lnKind l.raw

/-- Whether an older launch of its class holds a launch back from the resources it waits for (R195, R294). -/
def State.heldBack (s : State) (l : Launch) : Bool :=
  s.launches.any fun k => k.pool == l.pool && k.cls == l.cls && decide (k.age < l.age) && s.ready k
    && (k.coop || k.blocking || decide (64 ≤ k.passed.length)) && k.engine == l.engine
    && k.dies.any fun d => l.dies.contains d

/-- The version that a launch's first admission binds (R260), with its model and the bytes its slot lies behind
slot 0. -/
def State.bindVersion (s : State) (l : Launch) : Launch :=
  let m := match s.runOf l with | some r => r.model | none => lnModel l.raw
  let r := s.model l.ctx m
  let v := if l.run.isSome then l.bound else if lnWvbind l.raw then some (mdVcur r) else none
  match v with
  | none => l
  | some v =>
    let shift := mdSlot r v * mdVstr r
    { l with bound := some v, model := m, shift := shift,
             templates := ((s.context l.ctx).tensors.filter fun t => isTemplate t.2).map fun t => (t.1, bindTemplate t.2 shift v) }

/-- What the admission of a launch's first unit fixes: its binding and its snapshot (R260, R340), and CR.STAGING and CR.EXPLOG for
all its units (R283; DESIGN CHOICE, log entry 75). -/
def State.firstAdmission (s : State) (l : Launch) : Launch :=
  if l.next ≠ 0 then l
  else
    let l := { s.bindVersion l with staging := s.ctxReg l.ctx 0x013, explog := s.ctxReg l.ctx 0x014 }
    if l.replayable && l.replay.isNone then { l with replay := some ⟨[], [], []⟩ } else l

/-- The bulk queue of a unit whose record gives one (R158). -/
def Launch.bulkQueue (l : Launch) : Option BulkQueue :=
  if lnBulkq l.raw ∧ lnKind l.raw = 0 ∧ kdKind l.desc = 1 then
    let a := lnBulkqa l.raw
    some ⟨if 2 ^ 31 ≤ a then a - 2 ^ 31 else 0x800_0000 + a, false, false, 0, 0, 0, 0, 0, 0, []⟩
  else none

/-- The unit of an admission. -/
def Launch.workUnit (l : Launch) (s : State) (d c : Nat) (cores : List Nat) : WorkUnit :=
  let kind := if lnKind l.raw ≠ 0 then Kind.sup else if kdKind l.desc = 2 then Kind.csq else Kind.core
  { key := ⟨l.ctx, l.id, l.next⟩, kind := kind, die := d, cluster := c, cores := cores, drawn := cores,
    bshared := kdShared l.desc,
    runs := if l.pages = 0 then cores.map fun _ => 0 else cores.map fun k => (s.highRun d c k l.pages).getD 0,
    env := s.envOf l cores.length ⟨d, c, cores.headD 0, 0⟩,
    snap := if l.det then some (s.startSnapshot l) else none, bulk := l.bulkQueue, preempt := none, saved := false,
    ended := false, snaps := 0, discard := false, rot := none, savedAt := 0, windows := [] }

/-- A unit is admitted at a place (R186, R189, R293). -/
def State.admitAt (s : State) (l : Launch) (d c : Nat) (cores : List Nat) : State :=
  let l := s.firstAdmission l
  let s := s.setLaunch l
  let u : UnitKey := ⟨l.ctx, l.id, l.next⟩
  let s := cores.foldl (fun s k => s.takeCore l.ctx d c k) s
  let x := l.workUnit s d c cores
  let s := { s.setLaunch { l with next := l.next + 1 } with units := x :: s.units.filter fun y => y.key != u }
  match x.kind with
  | .core => s.startGroups l u d c cores
  | .csq => s.startThread l u d c
  | .sup =>
    match lnKind l.raw with
    | 1 => s.startCopyNode l u d
    | 2 => s.startDecodeNode l u d
    | _ => s.startUpdateNode l u d

/-- Every unit that is left of a launch is admitted, or none (R190). -/
def State.admitAll : Nat → State → Nat → Word → Option State
  | 0, s, _, _ => some s
  | n + 1, s, ctx, id =>
    match s.launch ctx id with
    | none => none
    | some l =>
      if lnUnits l.raw ≤ l.next then some s
      else
        match s.anyPlace l l.next with
        | none => none
        | some p => State.admitAll n (s.admitAt l p.1 p.2.1 p.2.2) ctx id

/-- Whether a launch fits now: its next unit, or of a co-operative launch all that are left (R190, R195). -/
def State.fitsNow (s : State) (l : Launch) : Bool :=
  if l.coop then (State.admitAll (lnUnits l.raw) s l.ctx l.id).isSome else (s.anyPlace l l.next).isSome

/-- Whether a launch of its pool is offered before one: a higher class, then an older age (R195). -/
def State.offeredBefore (s : State) (l : Launch) : Bool :=
  s.launches.any fun k => k.pool == l.pool && (decide (l.cls < k.cls) || (k.cls == l.cls && decide (k.age < l.age)))
    && s.ready k && !s.heldBack k && s.fitsNow k

/-- Older launches of a class that a younger one is admitted past while they do not fit (R294). -/
def State.notePassed (s : State) (l : Launch) : State :=
  { s with launches := s.launches.map fun k =>
      if k.pool == l.pool && k.cls == l.cls && decide (k.age < l.age) && s.ready k && !s.fitsNow k && !k.passed.contains l.age
      then { k with passed := l.age :: k.passed } else k }

/-- A unit is admitted past older launches that do not fit. -/
def State.admitUnit (s : State) (l : Launch) (d c : Nat) (cores : List Nat) : State := (s.notePassed l).admitAt l d c cores

/-- The die from which a launch's next unit is handed on: the lowest allowed die that can admitUnit it (R292). -/
def State.handDie (s : State) (l : Launch) : Option Nat :=
  l.dies.find? fun d => (s.placeOn l l.next d).isSome

/-- UNIT_ADMIT (R293): the next unit of a launch, at a place that the resource check allows. A deterministic unit has
its drawn place (R198); of a co-operative launch all units are admitted at once (R190). -/
def execUnitAdmit (u : UnitKey) (die cluster : Nat) (cores : List Nat) (s : State) : Out :=
  match s.launch u.ctx u.launch with
  | none => .refused .notDue
  | some l =>
    if u.index ≠ l.next ∨ !s.ready l ∨ s.heldBack l ∨ s.offeredBefore l then .refused .notDue
    else if l.coop then
      match State.admitAll (lnUnits l.raw) (s.notePassed l) l.ctx l.id with
      | some t => .next t
      | none => .refused .notDue
    else if l.det then
      if s.draw l l.next = (die, cluster, cores) ∧ s.fitsAt l die cluster cores then .next (s.admitUnit l die cluster cores)
      else .refused .notDue
    else if s.handDie l = some die ∧ s.fitsAt l die cluster cores then .next (s.admitUnit l die cluster cores)
    else .refused .notDue

/-- LAUNCH_BECOMES_BLOCKING (R294). -/
def execLaunchBecomesBlocking (ctx : Nat) (id : Word) (s : State) : Out :=
  match s.launch ctx id with
  | none => .refused .notDue
  | some l =>
    if decide (64 ≤ l.passed.length) && !l.blocking && s.ready l then .next (s.setLaunch { l with blocking := true })
    else .refused .notDue

/-! Refusals (R188). -/

/-- The lowest reason for which a record is refused, but for reasons 3 and 5. -/
def State.recordReason (s : State) (ctx : Nat) (l : Launch) : Option Nat :=
  let r := l.raw
  if !recordOk r ∨ !s.namesOpen ctx r then some 1
  else if lnKind r = 0 ∧ (!s.ctxReadable ctx (lnKernel r) 32 ∨ !descOk l.desc) then some 2
  else none

/-- Whether a launch accepted as the newest of its graph would have an unfinished predecessor. -/
def State.hasUnfinished (s : State) (l : Launch) : Bool :=
  let t := s.acceptRecord l
  match t.launches with
  | [] => false
  | k :: _ => !t.predecessorsDone k

/-- The answer to a record (R188): a refusal's reason, or the state with the launch accepted, of a co-operative launch
with all its units admitted. The reasons are tried from the lowest. -/
def State.answer (s : State) (ctx : Nat) (l : Launch) : Except Nat State :=
  match s.recordReason ctx l with
  | some n => .error n
  | none =>
    if s.poolFull l.pool ∨ s.submissionFull ctx then .error 3
    else if s.neverFits l then .error 4
    else
      let t := s.acceptRecord l
      let whole := if l.coop then State.admitAll (lnUnits l.raw) (t.notePassed { l with age := t.nextAge }) ctx (s.context ctx).nextId
        else some t
      match whole with
      | none => .error 5
      | some t =>
        if s.maxClass ctx < l.cls ∨ (l.coop ∧ s.hasUnfinished l) then .error 6
        else if lnWvbind l.raw ∧ !s.bindable ctx l.raw then .error 7
        else .ok t

/-! LNCH and LNCHC (R187). -/

/-- The 128 bytes of a launch record: RANGE for any of them, then ALIGN to 64. -/
def State.recordImage (s : State) (ea : Nat) : Except Cause (List Byte) :=
  match s.image ea 64, s.image (ea + 64) 64 with
  | .ok a, .ok b => .ok (a ++ b)
  | .error .range, _ => .error .range
  | _, .error .range => .error .range
  | .error c, _ => .error c
  | _, .error c => .error c

/-- The record of an answer: its bytes as they then stand (R186). -/
def State.recordNow (s : State) (a : Agent) (ea : Nat) : List Byte :=
  match { s with me := a }.recordImage ea with
  | .ok bs => bs
  | .error _ => List.replicate 128 0

/-- The group waits for the pool's answer; its launch can no longer be rolled back (R342). -/
def launchForm (coop : Bool) (b a d : BitVec 7) (s : State) : Out :=
  guard (gNeed .core [d, a, b]) s fun s =>
    let gb := s.me.g7 b
    let h := gb.extractLsb' 0 16
    let ea := bitsOf (s.me.g7 a) 0 32
    if bitsOf gb 16 48 ≠ 0 then .next (takeTrap s .illegalField)
    else
      match s.recordImage ea with
      | .error c => .next (addrTrap s c ea)
      | .ok _ =>
        match s.cmdHandle h with
        | .error c => .next (takeTrap s c)
        | .ok bar =>
          let s := (s.exposeUnit s.me.unit).retainOpt bar
          .next { s with me := s.me.setWait (.launch d.toNat ea bar h coop) }

/-- LNCH (R187). -/
def execLnch (b a d : BitVec 7) (s : State) : Out := launchForm false b a d s
/-- LNCHC (R187, R190). -/
def execLnchc (b a d : BitVec 7) (s : State) : Out := launchForm true b a d s

/-- A reference that a refused launch took is released. -/
def State.releaseOpt (s : State) (b : Option Nat) : State :=
  match b with
  | some b => s.setBarrier b (s.barrier b).release
  | none => s

/-- The launch that an agent's LNCH or LNCHC asks for: a mask of 0 names the issuing die, and a launch of that die
alone goes to its pool (R183, R292). -/
def State.draftFor (s : State) (a : Agent) (bs : List Byte) (bar : Option Nat) (h : Half) (coop : Bool) : Launch :=
  let r := BitVec.ofNat 1024 (leNat bs)
  let dies := s.allowedDies a.ctx (if lnMask r = 0 then 2 ^ a.place.die else lnMask r)
  s.draft a.ctx r coop dies (if dies = [a.place.die] then some a.place.die else none) bar h

/-- Whether a sub-group waits for the pool's answer. -/
def Wait.isLaunch : Wait → Bool
  | .launch .. => true | _ => false

/-- LAUNCH_ANSWER (R188): the pool reads the record and what it names, and answers with an id or a refusal; the chain ends. -/
def execLaunchAnswer (w : Who) (s : State) : Out :=
  match s.waiting w Wait.isLaunch with
  | none => .refused .notDue
  | some a =>
    match a.wait with
    | .launch d ea bar h coop =>
      let l := s.draftFor a (s.recordNow a ea) bar h coop
      match s.answer a.ctx l with
      | .error n => .next ((s.setAgent (a.wake d (refusal n))).releaseOpt bar)
      | .ok t =>
        let id := (s.context a.ctx).nextId
        .next (t.setAgent (a.wake d (id.setWidth 64)))
    | _ => .refused .notDue

end Sys2Proof.Machine
end

