-- ==== Sys2Proof/Machine/Shelf.lean ====
section
/-!
DEFINITION. The proofing shelf and the redeem runs of a context (R258, R261, R268, R270).
-/
namespace Sys2Proof.Machine

/-- Whether a version is retained (R258). -/
def retained (r : BitVec 1024) (v : Word) : Bool :=
  let delta := (mdVcur r - v).toNat
  v != 0 && decide (v.toNat ≤ (mdVcur r).toNat) && decide (delta < mdRw r) && !(mdDisc r).testBit delta

/-! The shelf (R261). -/

/-- Where a shelf entry stands. -/
def State.shelfAt (s : State) (ctx i : Nat) : Nat := bitsOf (s.ctxReg ctx 0x00C) 6 50 * 2 ^ 6 + 64 * i

/-- The capacity of a context's shelf. -/
def State.shelfSize (s : State) (ctx : Nat) : Nat := bitsOf (s.ctxReg ctx 0x00D) 0 27

/-- The generation of an entry, from 1 to 63. -/
def Context.shelfGenOf (c : Context) (i : Nat) : Nat := Store.get 1 c.shelfGen i

/-- The generation after one. -/
def nextShelfGen (g : Nat) : Nat := if 63 ≤ g then 1 else g + 1

def ticketIndex (id : Word) : Nat := bitsOf (id.setWidth 64) 0 26
def ticketGen (id : Word) : Nat := bitsOf (id.setWidth 64) 26 6

/-- The entry of a ticket id that is known: in use, within the capacity, with its generation. -/
def State.ticketEntry (s : State) (ctx : Nat) (id : Word) : Option Nat :=
  let c := s.context ctx
  let i := ticketIndex id
  if c.shelfUse.contains i ∧ i < s.shelfSize ctx ∧ c.shelfGenOf i = ticketGen id then some i else none

/-- The bytes of an entry. -/
def State.ticketRecord (s : State) (ctx i : Nat) : List Byte := s.ctxRead ctx (s.shelfAt ctx i) 64

def tkState (bs : List Byte) : Nat := byteAt bs 4
def tkModel (bs : List Byte) : Nat := numAt bs 6 2
def tkVersion (bs : List Byte) : Word := BitVec.ofNat 32 (numAt bs 8 4)
def tkGraph (bs : List Byte) : Nat := numAt bs 12 4
def tkKey (bs : List Byte) : DWord := BitVec.ofNat 64 (numAt bs 16 8)
def tkCheck (bs : List Byte) : Nat := numAt bs 60 4

/-- CRC-32C of bytes 0 to 59 with the state as ISSUED. -/
def ticketCrc (bs : List Byte) : Nat := crc32c (bs.take 4 ++ [1] ++ (bs.drop 5).take 55)

/-- An entry's bytes from `off` on are set, as a write of a launch that `h` holds (R169). -/
def State.setTicket (s : State) (ctx : Nat) (launch : Word) (h : Holder) (i off : Nat) (bs : List Byte) : State :=
  let cells := s.ctxCells ctx (s.shelfAt ctx i + off) bs
  (s.launchWrite ctx launch none cells).holdLines h (cells.map fun c => c.1)

/-- STATE[7:0] of an entry is set by the device. -/
def State.setTicketState (s : State) (ctx : Nat) (launch : Word) (h : Holder) (i st : Nat) : State :=
  s.setTicket ctx launch h i 4 (leBytes 1 st)

/-- ISSUED tickets that record a version. -/
def State.issuedTickets (s : State) (ctx m : Nat) (v : Word) : Nat :=
  ((s.context ctx).shelfUse.filter fun i =>
    let t := s.ticketRecord ctx i
    tkState t == 1 && tkModel t == m && tkVersion t == v).length

/-! Redeem runs (R268 to R270). -/

/-- The run whose first forward launch has an id (R266). -/
def State.redeemRun (s : State) (ctx : Nat) (id : Word) : Option RedeemRun := (s.context ctx).runs.find? fun r => r.id == id

/-- A run stands changed. -/
def State.setRun (s : State) (ctx : Nat) (r : RedeemRun) : State :=
  let c := s.context ctx
  s.setContext ctx { c with runs := c.runs.map fun x => if x.id = r.id then r else x }

/-- The launches of a run. -/
def State.runLaunches (s : State) (ctx : Nat) (r : RedeemRun) : List Launch := s.launches.filter fun l => l.ctx == ctx && l.run == some r.id

/-- A run ends: its buffer and its hold are released, and its handle has one arrival (R269, R270). Without delivery
the ticket returns to ISSUED; FAULTED and CANCELLED are then read with CCNT (DESIGN CHOICE, log entry 30). -/
def State.endRun (s : State) (ctx : Nat) (r : RedeemRun) (delivered : Bool) : State :=
  let s := s.setRun ctx { r with ended := true, buffer := none, doneSeq := (s.context ctx).launchDone }
  let s := if delivered then s
    else s.withRegs ctx r.regs fun s =>
      match s.ticketEntry ctx r.ticket with
      | some i => s.setTicketState ctx r.id .device i 1
      | none => s
  s.arriveOpt r.bar 0 ⟨ctx, r.unit.launch, some r.unit.index, false, r.handle.setWidth 64, (s.die r.die).time⟩

end Sys2Proof.Machine
end

