-- ==== Sys2Proof/Machine/Ending.lean ====
section
/-!
DEFINITION. How units and launches end: slots, cancellation, counters, completion, commit and milestones (R105, R182,
R190 to R194, R201, R270, R328, R341).
-/
namespace Sys2Proof.Machine

/-! Groups and units end (R105). -/

/-- Whether every sub-group of an agent stands between chains. -/
def Agent.atRest (a : Agent) : Bool := a.cur.pos == 0 && a.others.all fun c => c.pos == 0

/-- A sub-group back at its chain's head, with nothing held and waiting for nothing (R53). -/
def Sub.toHead (c : Sub) : Sub :=
  { c with pc := c.headPc, em := c.headEm, pos := 0, latches := .void, held := [], wait := .none, holds := false, latchDue := [] }

/-- The sub-groups that `p` names stand at their chains' heads. -/
def Agent.undo (a : Agent) (p : Sub → Bool) : Agent :=
  let f := fun (c : Sub) => if p c then c.toHead else c
  { a with heldG := a.heldG.filter fun h => !a.subs.any fun c => p c && c.id == h.sub, cur := f a.cur, others := a.others.map f }

/-- The agent's chains are undone and it ends. -/
def Agent.stopNow (a : Agent) : Agent := { a.undo (fun _ => true) with run := .ended }

/-- An agent leaves the machine. With none left, an ended supervisor thread stands in its place. -/
def State.removeAgent (s : State) (w : Who) : State :=
  if s.me.who = w then
    match s.agents with
    | a :: r => { s with me := a, agents := r }
    | [] => { s with me := { Agent.start (.sup 0) .sup ⟨8, 0, 0, 0⟩ with run := .ended } }
  else { s with agents := s.agents.filter fun a => a.who != w }

/-- Feeds that a unit's groups staged, and the bindings that name it, are dropped (R285). -/
def Cluster.dropUnit (k : Cluster) (u : UnitKey) : Cluster :=
  (List.range 4).foldl (fun k c =>
    let k := if (k.quad c).unit = u ∧ (k.quad c) ≠ Quad.unbound then { k with quads := Store.set Quad.unbound k.quads c Quad.unbound } else k
    if Store.get ⟨0, 0, 0⟩ k.feeders c = u then
      { k with feeds := (List.range 4).foldl (fun f q => Store.set [] f (c * 4 + q) []) k.feeds,
               feeders := Store.set ⟨0, 0, 0⟩ k.feeders c ⟨0, 0, 0⟩ }
    else k) k

/-- A unit has ended: its handles are released and what it owned in the MXE is dropped (R105, R149, R285). -/
def State.endUnit (s : State) (u : UnitKey) : State :=
  match s.unit u with
  | none => s
  | some x =>
    let s := (s.releaseTable (.group u 0)).releaseTable (.thread u)
    let s := s.setCluster x.die x.cluster ((s.cluster x.die x.cluster).dropUnit u)
    s.setUnit { x with ended := true, preempt := none }

/-- Whether a group that has ended may leave its slot: its stores and atomics have performed and its GATH and SCAT have arrived. -/
def Agent.drained (a : Agent) : Bool := a.storeQ.isEmpty && a.atomics.isEmpty && a.arrivals.isEmpty && a.gath.all GathDst.arrived

/-- SLOT_RELEASE (R105): with its last group, the unit ends. -/
def execSlotRelease (w : Who) (s : State) : Out :=
  match s.agent w with
  | none => .refused .notDue
  | some a =>
    if a.run != .ended || a.kind == .sup || !a.drained then .refused .notDue
    else
      let s := s.removeAgent w
      .next (if s.allAgents.any fun b => b.unit == a.unit && b.kind != .sup then s else s.endUnit a.unit)

/-! Cancellation (R193). -/

/-- Whether a wait is discarded where its agent is stopped (R140, R193, R201, R207, R295). -/
def Wait.discardable : Wait → Bool
  | .ldnb .. => true
  | .bwait .. => true
  | .mwait .. => true
  | .mquad .. => true
  | .mrecv _ => true
  | .snapm _ => true
  | _ => false

/-- Discardable waits are undone back to their chains' heads. -/
def Agent.discard (a : Agent) : Agent := a.undo fun c => c.wait.discardable

/-- Whether no sub-group of an agent waits. -/
def Agent.waitsNot (a : Agent) : Bool := a.subs.all fun c => c.wait == .none

/-- A cancelled launch's agent: a discardable wait is undone; an agent that then stands between chains, or stopped, or
saved, ends; any other goes on to its chain end. -/
def Agent.cancel (a : Agent) : Agent :=
  match a.run with
  | .ended => a
  | .faulted => a
  | .stopped => a.stopNow
  | .saved => a.stopNow
  | .running => let b := a.discard; if b.waitsNot && b.atRest then b.stopNow else b

/-- Saved units of a launch end with it. -/
def State.endSaved (s : State) (ctx : Nat) (id : Word) : State :=
  ((s.unitsOf ctx id).filter fun u => u.saved && !u.ended).foldl (fun (s : State) (u : WorkUnit) =>
    ((s.allAgents.filter fun a => a.unit == u.key).foldl (fun s a => s.removeAgent a.who) s).endUnit u.key) s

/-- No further unit of a launch starts, its agents stop, and units that have not ended will not merge. -/
def State.stopLaunch (s : State) (l : Launch) : State :=
  let s := s.setLaunch { l with stopping := true, held := false, rollback := none }
  let s := s.endSaved l.ctx l.id
  let s : State := { s with units := s.units.map fun (u : WorkUnit) =>
    if u.key.ctx == l.ctx && u.key.launch == l.id && !u.ended then { u with discard := true } else u }
  s.mapAgents fun a => if a.kind != .sup && a.unit.ctx == l.ctx && a.unit.launch == l.id then a.cancel else a

/-- A launch is cancelled. -/
def State.cancelLaunch (s : State) (l : Launch) : State :=
  if l.complete then s else s.stopLaunch { l with cancelled := true }

/-- A launch by its context and id as it now stands, cancelled. -/
def State.cancelId (s : State) (ctx : Nat) (id : Word) : State :=
  match s.launch ctx id with
  | some l => s.cancelLaunch l
  | none => s

/-- Launches of a list cancelled, one after another. -/
def State.cancelAll (s : State) (ls : List Launch) : State := ls.foldl (fun s l => s.cancelId l.ctx l.id) s

/-- The graph and the phase of a launch read FAULTED (R328). -/
def State.faultGraph (s : State) (l : Launch) : State :=
  match s.graph l.graphInst with
  | some g =>
    let s := s.setGraph { g with faulted := true }
    match s.phase g.phase with
    | some p => s.setPhase { p with faulted := true }
    | none => s
  | none => s

/-- A launch is killed (R328): FAULTED, its graph and phase FAULTED, and the launches of its graph ordered after it
cancelled. -/
def State.killLaunch (s : State) (l : Launch) : State :=
  if l.complete then s
  else
    let later := s.launches.filter fun k => k.graphInst == l.graphInst && l.graphInst != 0 && !k.complete && s.isBefore l k
    ((s.stopLaunch { l with faulted := true }).faultGraph l).cancelAll later

/-! Completion of graphs and phases (R192, R194). -/

/-- A phase completes once it is closed and its graphs are complete. -/
def State.settlePhase (s : State) (inst : Nat) : State :=
  match s.phase inst with
  | none => s
  | some p =>
    if p.closed && !p.complete && s.graphs.all fun g => g.phase != inst || g.complete then
      let c := s.context p.ctx
      (s.setContext p.ctx { c with phaseDone := c.phaseDone + 1 }).setPhase { p with complete := true, doneSeq := c.phaseDone + 1 }
    else s

/-- A graph completes once it is closed and its launches are complete; its results merge (R182). -/
def State.settleGraph (s : State) (inst : Nat) : State :=
  match s.graph inst with
  | none => s
  | some g =>
    if g.closed && !g.complete && s.launches.all fun l => l.graphInst != inst || l.complete then
      let s := s.mergeGraph g
      let c := s.context g.ctx
      ((s.setContext g.ctx { c with graphDone := c.graphDone + 1 }).setGraph
        { g with complete := true, doneSeq := c.graphDone + 1 }).settlePhase g.phase
    else s

/-! CANCEL and CCNT (R192, R193). -/

/-- The newest instance that an id names at the graph or phase level. -/
def State.graphOf (s : State) (ctx : Nat) (id : Word) : Option Graph := s.graphs.find? fun g => g.ctx == ctx && g.id == id
def State.phaseOf (s : State) (ctx : Nat) (id : Word) : Option Phase := s.phases.find? fun p => p.ctx == ctx && p.id == id.toNat

/-- A graph is cancelled: closed, with all its launches. -/
def State.cancelGraph (s : State) (g : Graph) : State :=
  let s := s.setGraph { g with closed := true, cancelled := true }
  (s.cancelAll (s.launches.filter fun l => l.graphInst == g.inst && !l.complete)).settleGraph g.inst

/-- A phase is cancelled: its graphs are closed and their launches cancelled. -/
def State.cancelPhase (s : State) (p : Phase) : State :=
  let s := s.setPhase { p with closed := true, cancelled := true }
  let gs := s.graphs.filter fun g => g.phase == p.inst && !g.complete
  let s := gs.foldl (fun s g =>
    let s := s.setGraph { g with closed := true }
    (s.cancelAll (s.launches.filter fun l => l.graphInst == g.inst && !l.complete)).settleGraph g.inst) s
  s.settlePhase p.inst

/-- Whether a launch was cancelled or killed; one that STOP or REPLAY has made read FAULTED was not (R327 to R329, R334). -/
def Launch.failed (l : Launch) : Bool := l.cancelled || (l.faulted && l.stopping)

/-- A run that was cancelled, or one of whose launches was cancelled or killed, ends without delivery once its launches have
completed (R266, R270). -/
def State.settleRun (s : State) (ctx : Nat) (id : Word) : State :=
  match s.redeemRun ctx id with
  | none => s
  | some r =>
    let ls := s.runLaunches ctx r
    if r.ended || !(r.cancelled || ls.any fun l => l.complete && l.failed) then s
    else
      let s := s.cancelAll (ls.filter fun l => !l.complete && !l.stopping)
      if (s.runLaunches ctx r).all Launch.complete then s.endRun ctx r false else s

/-- A run is cancelled, with every launch of it that has not completed (R266). -/
def State.cancelRun (s : State) (ctx : Nat) (r : RedeemRun) : State :=
  ((s.setRun ctx { r with cancelled := true }).cancelAll ((s.runLaunches ctx r).filter fun l => !l.complete)).settleRun ctx r.id

/-- Whether a completion of a level still reads (R192). -/
def countsStill (now seq : Nat) : Bool := decide (now - seq ≤ 4096)

/-- CANCEL's effect and status. -/
def State.cancel (s : State) (ctx level : Nat) (id : Word) : State × Nat :=
  let c := s.context ctx
  match level with
  | 0 =>
    match s.redeemRun ctx id with
    | some r =>
      if r.ended then (s, if countsStill c.launchDone r.doneSeq then 1 else 2) else (s.cancelRun ctx r, 0)
    | none =>
      match s.launch ctx id with
      | none => (s, 2)
      | some l =>
        if l.complete then (s, if countsStill c.launchDone l.doneSeq then 1 else 2) else (s.cancelLaunch l, 0)
  | 1 =>
    match s.graphOf ctx id with
    | none => (s, 2)
    | some g => if g.complete then (s, if countsStill c.graphDone g.doneSeq then 1 else 2) else (s.cancelGraph g, 0)
  | 2 =>
    match s.phaseOf ctx id with
    | none => (s, 2)
    | some p => if p.complete then (s, if countsStill c.phaseDone p.doneSeq then 1 else 2) else (s.cancelPhase p, 0)
  | _ =>
    if id ≠ 0 then (s, 2)
    else (s.cancelAll (s.launches.filter fun l => l.ctx == ctx && !l.complete), 0)

/-- CANCEL (R193). The CANCEL ends its chain; a unit that cancels its own launch stops there. -/
def execCancel (a d : BitVec 7) (s : State) : Out :=
  guard (gNeed .core [d, a]) s fun s =>
    let x := s.me.g7 a
    if bitsOf x 32 30 ≠ 0 then .next (takeTrap s .illegalField)
    else
      let st := (s.cancel s.me.ctx (bitsOf x 62 2) (x.extractLsb' 0 32)).2
      let t := s.finishG d (BitVec.ofNat 64 st) true
      .next (t.cancel s.me.ctx (bitsOf x 62 2) (x.extractLsb' 0 32)).1

/-- The word of CCNT. -/
def countWord (done cancelled faulted : Bool) (remain : Nat) : DWord :=
  BitVec.ofNat 64 ((if done then 2 ^ 63 else 0) + (if cancelled then 2 ^ 62 else 0) + (if faulted then 2 ^ 61 else 0) + remain)

/-- What CCNT reads of an unknown id. -/
def unknownCount : DWord := 0x0000_0000_FFFF_FFFF

/-- Units of a launch that have not ended. -/
def State.unitsLeft (s : State) (l : Launch) : Nat :=
  ((s.unitsOf l.ctx l.id).filter fun u => !u.ended).length + (if l.stopping then 0 else lnUnits l.raw - l.next)

/-- CCNT's value (R192). -/
def State.count (s : State) (ctx level : Nat) (id : Word) : DWord :=
  let c := s.context ctx
  match level with
  | 0 =>
    match s.redeemRun ctx id, s.launch ctx id with
    | some r, _ =>
      let ls := s.runLaunches ctx r
      if r.ended && !countsStill c.launchDone r.doneSeq then unknownCount
      else countWord r.ended (r.cancelled || ls.any Launch.cancelled) (ls.any Launch.faulted) (ls.filter fun l => !l.complete).length
    | none, some l =>
      if l.complete && !countsStill c.launchDone l.doneSeq then unknownCount
      else countWord l.complete l.cancelled l.faulted (s.unitsLeft l)
    | none, none => unknownCount
  | 1 =>
    match s.graphOf ctx id with
    | none => unknownCount
    | some g =>
      if g.complete && !countsStill c.graphDone g.doneSeq then unknownCount
      else countWord g.complete g.cancelled g.faulted (s.launches.filter fun l => l.graphInst == g.inst && !l.complete).length
  | 2 =>
    match s.phaseOf ctx id with
    | none => unknownCount
    | some p =>
      if p.complete && !countsStill c.phaseDone p.doneSeq then unknownCount
      else countWord p.complete p.cancelled p.faulted (s.graphs.filter fun g => g.phase == p.inst && !g.complete).length
  | _ => if id ≠ 0 then unknownCount else BitVec.ofNat 64 (s.launches.filter fun l => l.ctx == ctx && !l.complete).length

/-- CCNT (R192); in deterministic mode it faults (R197). -/
def execCcnt (a d : BitVec 7) (s : State) : Out :=
  guard (gNeed .core [d, a]) s fun s =>
    let x := s.me.g7 a
    if bitsOf x 32 30 ≠ 0 then .next (takeTrap s .illegalField)
    else if s.me.env.det then .next (takeTrap s .detViolation)
    else .next (s.finishG d (s.count s.me.ctx (bitsOf x 62 2) (x.extractLsb' 0 32)) true)

/-! Completion of launches (R191). -/

/-- Whether a unit is of a launch. -/
def ofLaunch (ctx : Nat) (id : Word) (u : UnitKey) : Bool := u.ctx == ctx && u.launch == id

/-- Whether a die or a cluster holds a command of a launch that has not counted. -/
def Die.busyFor (d : Die) (ctx : Nat) (id : Word) : Bool :=
  (d.copyQ ++ d.heldT).any (fun c => ofLaunch ctx id c.unit) || d.bulkQ.any (fun c => ofLaunch ctx id c.unit)
    || d.dceQ.any (fun c => ofLaunch ctx id c.unit) || d.updQ.any fun c => ofLaunch ctx id c.unit
def Cluster.busyFor (k : Cluster) (ctx : Nat) (id : Word) : Bool :=
  (k.queue0 ++ k.queue1 ++ k.queue2 ++ k.queue3).any fun c => ofLaunch ctx id c.unit

/-- Whether a unit's bulk queue is still in service: a publication has not been read, or a completion record is held
(R161, R202). -/
def WorkUnit.queueServes (u : WorkUnit) : Bool := u.bulk.any fun q => q.published || !q.heldRecs.isEmpty

/-- Whether something of a launch is still under way: a command, a published bulk entry or a completion record, a commit, a
timed store, a request to a peer, or a fault record that has not been delivered. -/
def State.busyFor (s : State) (ctx : Nat) (id : Word) : Bool :=
  (s.dies.any fun d => d.2.busyFor ctx id) || (s.clusters.any fun k => k.2.busyFor ctx id)
    || (s.units.any fun u => ofLaunch ctx id u.key && u.queueServes)
    || (s.commits.any fun c => ofLaunch ctx id c.done.unit)
    || (s.cores.any fun k => k.2.timed.any fun t => ofLaunch ctx id t.unit)
    || (s.requests.any fun r => r.who.isNone && r.ctx == ctx && r.launch == id)
    || (s.pending.any fun p => p.ctx == ctx && p.launch == id)

/-- Whether every unit of a launch has ended (R191). -/
def State.allEnded (s : State) (l : Launch) : Bool := s.unitsLeft l == 0

/-- Whether a publication of a launch waits for its peer's digest (R352). -/
def State.awaitsDigest (s : State) (ctx : Nat) (id : Word) : Bool := (s.context ctx).waitPub.any fun w => w.launch == id

/-- Whether nothing but its merge and its commit stands between a launch and its completion. -/
def State.settled (s : State) (l : Launch) : Bool :=
  !l.complete && !l.held && l.rollback.isNone && s.allEnded l && !s.busyFor l.ctx l.id && !s.awaitsDigest l.ctx l.id

/-- A launch's result word in its context's ring takes DONE, CANCELLED and FAULTED, unless a later record has taken its
place (R290). -/
def State.reportRes (s : State) (l : Launch) : State :=
  match l.res with
  | none => s
  | some i =>
    let n := 2 ^ bitsOf (s.ctxReg l.ctx 0x00F) 0 7
    if i + n < (s.context l.ctx).taken then s
    else
      let x := l.id.toNat + 2 ^ 62 + (if l.cancelled then 2 ^ 61 else 0) + (if l.faulted then 2 ^ 60 else 0)
      (s.ctxWrite l.ctx ((s.ctxReg l.ctx 0x010).toNat % 2 ^ 56 + 0x40 + 8 * (i % n)) (leBytes 8 x)).passHold
        (Holder.ofLaunch l.ctx l.id) .device |>.releaseSys .device

/-- The writes of a launch stand behind the arrival that its completion makes (R191). -/
def State.passLaunch (s : State) (l : Launch) : State :=
  match l.bar with
  | some b => s.passHold (Holder.ofLaunch l.ctx l.id) (.barrier b (s.barrier b).gen)
  | none => s

/-- A launch completes (R191): its counter, its barrier's arrival, its result word, its graph and its run. -/
def State.finishLaunch (s : State) (l : Launch) : State :=
  let c := s.context l.ctx
  let s := s.setContext l.ctx { c with launchDone := c.launchDone + 1 }
  let s := s.setLaunch { l with complete := true, doneSeq := c.launchDone + 1, replay := none }
  let s := (s.passLaunch l).arriveOpt l.bar 0 ⟨l.ctx, l.id, none, l.det, l.handle.setWidth 64, (s.die (l.dies.headD 0)).time⟩
  let s := s.reportRes l
  let s := s.settleGraph l.graphInst
  match l.run with
  | some id => s.settleRun l.ctx id
  | none => s

/-- The digest of a model's version in the making (R350). -/
def State.digestOf (s : State) (ctx m : Nat) : BitVec 128 :=
  ((s.context ctx).committed.filter fun c => c.model == m).foldl (fun d c => d ^^^ c.digest) 0

/-- Where a model's digest entry stands (R351). -/
def State.digestAt (s : State) (ctx m : Nat) : Nat := bitsOf (s.ctxReg ctx 0x015) 12 44 * 2 ^ 12 + 32 * m

/-- Whether a context has a digest table: one at VA 0 there is not (DEDUCED, log entry 46). -/
def State.hasDigests (s : State) (ctx : Nat) : Bool := bitsOf (s.ctxReg ctx 0x015) 12 44 != 0

/-- The flags of a model's entry in the digest table (R351): bit 0 EN, bit 1 HALT. -/
def State.digestFlag (s : State) (ctx m i : Nat) : Bool :=
  s.hasDigests ctx && (BitVec.ofNat 32 (s.ctxNum ctx (s.digestAt ctx m) 4)).getLsbD i

/-- What a publication does (R273): VCUR advances, PEND and DISC move on; its D enters the digest table (R351), and the
version in the making begins anew (R350). -/
def State.publish (s : State) (ctx : Nat) (launch : Word) (h : Holder) (m : Nat) : State :=
  let r := s.model ctx m
  let u : UnitKey := ⟨ctx, launch, 0⟩
  let d := leBytes 16 (s.digestOf ctx m).toNat
  let s := ((s.setModel u h m 0 4 (mdVcur r + 1).toNat).setModel u h m 0xC 4 0).setModel u h m 6 1 (2 * mdDisc r % 256)
  let cells := if s.hasDigests ctx then s.ctxCells ctx (s.digestAt ctx m + 8) d else []
  let s := (s.launchWrite ctx launch none cells).holdLines h (cells.map fun c => c.1)
  let c := s.context ctx
  s.setContext ctx { c with committed := c.committed.filter fun x => x.model != m }

/-- The publications that a launch holds take effect, unless their model is halted (R340, R352). -/
def State.publishHeld (s : State) (l : Launch) : State :=
  let mine := ((s.context l.ctx).heldPub.filter fun p => p.2 == l.id).map fun p => p.1
  let s := mine.foldl (fun s m => if s.digestFlag l.ctx m 1 then s else s.publish l.ctx l.id (launchHolder l.ctx l.id) m) s
  let c := s.context l.ctx
  s.setContext l.ctx { c with heldPub := c.heldPub.filter fun p => p.2 != l.id }

/-- A launch commits (R341): its staged bytes reach their targets, its held publications take effect, and its page copies
are freed. -/
def State.commitLaunch (s : State) (l : Launch) : State :=
  let staged := match l.replay with | some r => r.staged.flatMap fun w => w.cells | none => []
  let s := (s.setLaunch { l with replay := none, replayable := false, committed := true }).sendOut l staged fun s =>
    s.writeMemAs (l.ctx, l.id)
  (s.holdLines (launchHolder l.ctx l.id) (staged.map fun c => c.1)).publishHeld l

/-- LAUNCH_COMMIT (R341): the launch's last unit has ended and its commands have counted; a deterministic launch merges
first. -/
def execLaunchCommit (ctx : Nat) (id : Word) (s : State) : Out :=
  match s.launch ctx id with
  | none => .refused .notDue
  | some l =>
    if !s.settled l || l.replay.isNone then .refused .notDue
    else
      let t := if l.det && !l.merged then s.mergeLaunch l else s
      match t.launch ctx id with
      | none => .next t
      | some l => .next (if t.settled l then t.commitLaunch l else t)

/-- A launch that has lost its snapshot completes, with what it has published and held (R340, R342; DESIGN CHOICE, log entry
12). -/
def State.finishExposed (s : State) (l : Launch) : State :=
  let t := s.publishHeld l
  match t.launch l.ctx l.id with
  | some l => t.finishLaunch l
  | none => t

/-- LAUNCH_COMPLETE (R191). A deterministic launch first merges (R182); a MERGE_CONFLICT is delivered before it
completes. A launch that still has a snapshot completes after its commit. -/
def execLaunchComplete (ctx : Nat) (id : Word) (s : State) : Out :=
  match s.launch ctx id with
  | none => .refused .notDue
  | some l =>
    if !s.settled l || l.replay.isSome then .refused .notDue
    else if l.det && !l.merged then
      let t := s.mergeLaunch l
      match t.launch ctx id with
      | some l => .next (if t.settled l then t.finishExposed l else t)
      | none => .next t
    else .next (s.finishExposed l)

/-! The co-operative milestone (R201). -/

/-- Whether a wait is at the milestone. -/
def Wait.isSnapm : Wait → Bool
  | .snapm _ => true | _ => false

/-- SNAPM (R201). -/
def execSnapm (d : BitVec 7) (s : State) : Out :=
  guard (gNeed .core [d]) s fun s =>
    if s.me.env.coop then .next { s with me := s.me.setWait (.snapm d.toNat) }
    else .next (s.finishG d (refusal 1) true)

/-- Whether an agent has reached the milestone. -/
def Agent.atMilestone (a : Agent) : Bool := a.run == .ended || a.anyWait Wait.isSnapm

/-- A unit of a launch goes on with its snapshot refreshed: it has the results that it started from (R181), and over them
what its launch's milestones have merged into memory. -/
def State.refreshSnapshot (s : State) (l : Launch) (u : WorkUnit) : State :=
  let mem := Memory.writeAll (s.startSnapshot l).mem (l.merges.map fun k => (k, Memory.read s.mem k))
  s.setUnit { u with snap := u.snap.map fun _ => ⟨mem, [], [], []⟩, snaps := u.snaps + 1 }

/-- The sub-groups of an agent that wait at the milestone go on, with its ordinal. -/
def Agent.passMilestone (ordinal : DWord) : Nat → Agent → Agent
  | 0, a => a
  | n + 1, a =>
    let b := a.front Wait.isSnapm
    match b.wait with
    | .snapm d => Agent.passMilestone ordinal n (b.wake d ordinal)
    | _ => a

/-- The agents of a launch. -/
def State.launchAgents (s : State) (ctx : Nat) (id : Word) : List Agent :=
  s.allAgents.filter fun a => a.kind != .sup && ofLaunch ctx id a.unit

/-- SNAPM_RELEASE (R201): every unit has reached the milestone and its stores have performed. The snapshots merge in
deterministic mode, elsewhere each group has made a FENCE.dev ar, and each is released with its snapshot refreshed. -/
def execSnapmRelease (ctx : Nat) (id : Word) (s : State) : Out :=
  match s.launch ctx id with
  | none => .refused .notDue
  | some l =>
    let as := s.launchAgents ctx id
    let waiting := as.any fun a => a.anyWait Wait.isSnapm && a.run == .running
    if !l.coop || l.stopping || l.rollback.isSome || l.next < lnUnits l.raw || !waiting
        || !(as.all fun a => a.atMilestone && a.storeQ.isEmpty && a.atomics.isEmpty)
        || (s.unitsOf ctx id).any fun u => u.saved || u.preempt.isSome then .refused .notDue
    else
      let s := if l.det then s.mergeUnits l else s
      let merged := (s.launch ctx id).getD l
      let s := (s.unitsOf ctx id).foldl (fun s u => s.refreshSnapshot merged u) s
      let ordinal := ((s.unitsOf ctx id).map WorkUnit.snaps).foldl max 0
      let s := as.foldl (fun s a => s.passHold (Holder.ofLaunch ctx id) a.holder) s
      .next (s.mapAgents fun a =>
        if a.kind != .sup && ofLaunch ctx id a.unit && a.run == .running then
          let b := a.passMilestone (BitVec.ofNat 64 ordinal) a.subs.length
          if l.det then b else { b with relNext := widerScope b.relNext (some 5) }
        else a)

end Sys2Proof.Machine
end

