-- ==== Sys2Proof/Machine/Tickets.lean ====
section
/-!
DEFINITION. Claim tickets, redemption, publication of weight versions and their digests (R262 to R274, R350 to R352).
-/
namespace Sys2Proof.Machine

/-! TICKET, TKDROP and TKQRY (R262 to R264). -/

/-- The first free entry among `n` from `k` on, round a shelf of `size` entries. -/
def freeEntryFrom (used : List Nat) (size : Nat) : Nat → Nat → Option Nat
  | 0, _ => none
  | n + 1, k => if used.contains (k % size) then freeEntryFrom used size n (k + 1) else some (k % size)

/-- A free entry of a context's shelf: which one, the specification leaves open (DESIGN CHOICE, log entry 30). -/
def State.freeShelf (s : State) (ctx : Nat) : Option Nat :=
  let n := s.shelfSize ctx
  if n = 0 then none
  else
    let used := (s.context ctx).shelfUse
    freeEntryFrom used n (min n (used.length + 1)) (s.freeWord.toNat % n)

/-- The refusal of TICKET (R262). -/
def ticketReason (l : Launch) (img : List Byte) : Option Nat :=
  let st := numAt img 4 2
  if l.bound.isNone then some 1
  else if l.run.isSome then some 2
  else if 4095 < numAt img 12 4 ∨ st / 2 ^ 9 ≠ 0 ∨ (st / 2 ^ 8 % 2 = 1 ∧ !zeroAt img 40 59) then some 3
  else none

/-- The record that TICKET writes (Table 2). -/
def ticketOf (l : Launch) (id : Word) (img : List Byte) : List Byte :=
  let head := leBytes 4 id.toNat ++ [1, img.getD 5 0] ++ leBytes 2 l.model ++ leBytes 4 (l.bound.getD 0).toNat
    ++ (img.drop 12).take 4 ++ leBytes 8 l.seed.toNat ++ (img.drop 24).take 36
  head ++ leBytes 4 (crc32c head)

/-- A ticket is issued at an entry: the state and its id. -/
def State.issueTicket (s : State) (l : Launch) (i : Nat) (img : List Byte) : State × Word :=
  let c := s.context l.ctx
  let id := BitVec.ofNat 32 (c.shelfGenOf i * 2 ^ 26 + i)
  let s := s.useFree.setTicket l.ctx l.id s.me.holder i 0 (ticketOf l id img)
  (s.setContext l.ctx { s.context l.ctx with shelfUse := i :: c.shelfUse }, id)

/-- TICKET (R262). From its issue on the launch cannot be rolled back, whatever it answers (R342). -/
def execTicket (a d : BitVec 7) (s : State) : Out :=
  guard (gNeed .core [d, a]) s fun s =>
    let x := s.me.g7 a
    if bitsOf x 32 32 ≠ 0 then .next (takeTrap s .illegalField)
    else
      match s.image (bitsOf x 0 32) 64, s.launch s.me.ctx s.me.unit.launch with
      | .error c, _ => .next (addrTrap s c (bitsOf x 0 32))
      | .ok _, none => .next (s.finishG d (refusal 1) true)
      | .ok img, some l =>
        let s := s.exposeUnit s.me.unit
        match ticketReason l img with
        | some n => .next (s.finishG d (refusal n) true)
        | none =>
          match s.freeShelf l.ctx with
          | none => .next (takeTrap s .shelfFull)
          | some i =>
            let r := s.issueTicket l i img
            .next (r.1.finishG d (r.2.setWidth 64) true)

/-- A shelf entry is freed; its generation advances (R261, R263). -/
def State.freeTicket (s : State) (ctx i : Nat) : State :=
  let c := s.context ctx
  s.setContext ctx { c with shelfUse := c.shelfUse.erase i, shelfGen := Store.set 1 c.shelfGen i (nextShelfGen (c.shelfGenOf i)) }

/-- Whether a redeem run of a ticket is incomplete. -/
def State.redeeming (s : State) (ctx : Nat) (id : Word) : Bool := (s.context ctx).runs.any fun r => r.ticket == id && !r.ended

/-- TKDROP (R263). -/
def execTkdrop (a d : BitVec 7) (s : State) : Out :=
  guard (gNeed .core [d, a]) s fun s =>
    let x := s.me.g7 a
    let id := x.extractLsb' 0 32
    let ctx := s.me.ctx
    if bitsOf x 32 32 ≠ 0 then .next (takeTrap s .illegalField)
    else
      let s := s.exposeUnit s.me.unit
      match s.ticketEntry ctx id with
      | none => .next (s.finishG d 2 true)
      | some i =>
        if s.redeeming ctx id then .next (s.finishG d 3 true)
        else
          let st := tkState (s.ticketRecord ctx i)
          .next ((s.freeTicket ctx i).finishG d (if st = 1 then 0 else 1) true)

/-- TKQRY (R264). -/
def execTkqry (b a d : BitVec 7) (s : State) : Out :=
  guard (gNeed .core [d, a, b]) s fun s =>
    let x := s.me.g7 a
    let sel := s.me.g7 b
    let w := bitsOf sel 0 4
    let isModel := sel.getLsbD 4
    let ctx := s.me.ctx
    if bitsOf sel 5 59 ≠ 0 ∨ (if isModel then bitsOf x 8 56 ≠ 0 else bitsOf x 32 32 ≠ 0 ∨ 7 < w) then
      .next (takeTrap s .illegalField)
    else if isModel then
      let r := s.model ctx (bitsOf x 0 8)
      .next (s.finishG d (if mdAbsent r then 0 else BitVec.ofNat 64 (recField r (8 * w) 8)) true)
    else
      match s.ticketEntry ctx (x.extractLsb' 0 32) with
      | none => .next (s.finishG d 0 true)
      | some i => .next (s.finishG d (BitVec.ofNat 64 (numAt (s.ticketRecord ctx i) (8 * w) 8)) true)

/-! REDEEM (R265 to R268). -/

/-- A redeem-graph entry (Table 3). -/
def State.redeemEntry (s : State) (ctx i : Nat) : BitVec 512 :=
  BitVec.ofNat 512 (leNat (s.ctxRead ctx ((s.ctxReg ctx 0x00E).toNat % 2 ^ 56 + 64 * i) 64))

def rgFwd (r : BitVec 512) : Nat := recField r 0 8
def rgNfwd (r : BitVec 512) : Nat := recField r 8 2
def rgNbwd (r : BitVec 512) : Nat := recField r 0xA 2
def rgBwd (r : BitVec 512) : Nat := recField r 0x10 8
def rgStage (r : BitVec 512) : Nat := recField r 0x18 8
def rgNstage (r : BitVec 512) : Nat := recField r 0x20 2

/-- Whether an entry keeps Table 3; an empty one does not. -/
def redeemEntryOk (r : BitVec 512) : Bool :=
  decide (1 ≤ rgNfwd r) && decide (rgNfwd r ≤ 64) && decide (1 ≤ rgNbwd r) && decide (rgNbwd r ≤ 64)
    && decide (1 ≤ rgNstage r) && decide (rgNstage r ≤ 256) && recField r 0xC 4 == 0 && recField r 0x22 30 == 0

/-- A field of a record with another value. -/
def putField {w : Nat} (r : BitVec w) (off n x : Nat) : BitVec w :=
  BitVec.ofNat w (r.toNat - recField r off n * 2 ^ (8 * off) + x % 2 ^ (8 * n) * 2 ^ (8 * off))

/-- A record of a run with the run's class, its graph and phase ids, and without LASTG and LASTP: the device closes both. -/
def runRecord (r : BitVec 1024) (cls : Option Nat) (graph : Word) (phase : Nat) : BitVec 1024 :=
  putField (putField (putField (putField r 0x20 1 (cls.getD (lnClass r))) 0x24 4 graph.toNat) 0x2A 2 phase) 0x12 2
    (recField r 0x12 2 &&& 0xFF9F)

/-- What every launch of a run is given in place of its record's own (R268). -/
structure RunPlan where
  ctx     : Nat
  key     : DWord
  cls     : Option Nat
  die     : Nat
  run     : Word
  model   : Nat
  version : Word
deriving DecidableEq, Repr

/-- The launch of one record of a run. -/
def State.runDraft (s : State) (p : RunPlan) (r : BitVec 1024) : Launch :=
  let l := s.draft p.ctx r false (s.allowedDies p.ctx (if lnMask r = 0 then 2 ^ p.die else lnMask r)) none none 0
  { l with seed := p.key, run := some p.run, bound := some p.version, model := p.model }

/-- Whether a record of a run of a graph fails R268: with its own ids, which name no graph or phase, its fields keep Table 1, and
with the run's graph id, which its draw uses (R198), its units fit. -/
def State.runRecordBad (s : State) (p : RunPlan) (graph : Word) (r : BitVec 1024) : Bool :=
  let l := s.runDraft p (runRecord r p.cls 0 0)
  !recordOk (putField r 0x20 1 l.cls) || (s.recordReason p.ctx l).isSome || s.neverFits (s.runDraft p (runRecord r p.cls graph 0))
    || decide (s.maxClass p.ctx < l.cls)
    || (lnKind r == 0 && kdKind l.desc == 2 && decide (448 < lnPlen r))

/-- The records at a VA, 128 bytes apart. -/
def State.recordsAt (s : State) (ctx va n : Nat) : List (BitVec 1024) :=
  (List.range n).map fun i => BitVec.ofNat 1024 (leNat (s.ctxRead ctx (va + 128 * i) 128))

/-- The next reserved id that `used` does not hold, from `k` on, in a range of `size` ids. -/
def freshId (used : List Nat) (size : Nat) : Nat → Nat → Nat
  | 0, k => k % size
  | n + 1, k => if used.contains (k % size) then freshId used size n (k + 1) else k % size

/-- A fresh graph of a run, closed, in a phase: the state, its instance and its id. -/
def State.newRunGraph (s : State) (ctx phase : Nat) (run : Word) : State × Nat × Word :=
  let used := (s.graphs.filter fun g => g.ctx == ctx && !g.complete && decide (2 ^ 31 ≤ g.id.toNat)).map fun g => g.id.toNat - 2 ^ 31
  let c := s.context ctx
  let n := freshId used (2 ^ 31) (used.length + 1) (c.nextGraph + 1)
  let id := BitVec.ofNat 32 (2 ^ 31 + n)
  let i := s.nextInst + 1
  let s := s.setContext ctx { c with nextGraph := n }
  ({ s with nextInst := i, graphs := ⟨i, ctx, id, phase, true, false, false, false, true, 0, some run⟩ :: s.graphs }, i, id)

/-- A fresh phase of a run, closed: the state, its instance and its id. -/
def State.newRunPhase (s : State) (ctx : Nat) : State × Nat × Nat :=
  let used := (s.phases.filter fun p => p.ctx == ctx && !p.complete && decide (2 ^ 15 ≤ p.id)).map fun p => p.id - 2 ^ 15
  let c := s.context ctx
  let n := freshId used (2 ^ 15) (used.length + 1) (c.nextPhase + 1)
  let i := s.nextInst + 1
  let s := s.setContext ctx { c with nextPhase := n }
  ({ s with nextInst := i, phases := ⟨i, ctx, 2 ^ 15 + n, true, false, false, false, 0⟩ :: s.phases }, i, 2 ^ 15 + n)

/-- The ids of the two graphs of a run that starts now. -/
def State.runGraphIds (s : State) (ctx : Nat) (run : Word) : Word × Word :=
  let f := s.newRunGraph ctx 0 run
  (f.2.2, (f.1.newRunGraph ctx 0 run).2.2)

/-- The launches of one graph of a run are accepted in record order. -/
def State.acceptRun (s : State) (p : RunPlan) (inst : Nat) (graph : Word) (phase : Nat) (rs : List (BitVec 1024)) : State :=
  rs.foldl (fun s r => s.accept { s.runDraft p (runRecord r p.cls graph phase) with graphInst := inst }) s

/-- A run starts (R266, R268): its ids, its two graphs and its launches; the run is recorded. -/
def State.startRun (s : State) (p : RunPlan) (r : RedeemRun) (fwd bwd : List (BitVec 1024)) : State :=
  let (s, pi, pid) := s.newRunPhase p.ctx
  let (s, fi, fid) := s.newRunGraph p.ctx pi p.run
  let (s, bi, bid) := s.newRunGraph p.ctx pi p.run
  let first := s.nextAge
  let s := (s.acceptRun p fi fid pid fwd).acceptRun p bi bid pid bwd
  let ids := ((s.launches.filter fun l => decide (first < l.age)).map fun l => l.id).reverse
  let c := s.context p.ctx
  s.setContext p.ctx { c with runs := c.runs ++ [{ r with launches := ids, bwd := bi }] }

/-- REDEEM after its block's checks. -/
def State.redeem (s : State) (d : BitVec 7) (id : Word) (blk : List Byte) (bar : Option Nat) (h : Half) : State :=
  let ctx := s.me.ctx
  let s := s.exposeUnit s.me.unit
  match s.ticketEntry ctx id with
  | none => subTrap s .ticketUnknown 1
  | some i =>
    let t := s.ticketRecord ctx i
    let g := s.redeemEntry ctx (tkGraph t)
    let m := s.model ctx (tkModel t)
    let cls := byteAt blk 10
    let rid := (s.context ctx).nextId
    let p : RunPlan := ⟨ctx, tkKey t, if cls = 0xFF then none else some cls, s.me.place.die, rid, tkModel t, tkVersion t⟩
    let fwd := s.recordsAt ctx (rgFwd g) (rgNfwd g)
    let bwd := s.recordsAt ctx (rgBwd g) (rgNbwd g)
    let delta := (mdVcur m - tkVersion t).toNat
    let ids := s.runGraphIds ctx rid
    if ticketCrc t ≠ tkCheck t then subTrap s .ticketUnknown 2
    else if !zeroAt blk 11 31 ∨ (4 ≤ cls ∧ cls ≠ 0xFF) ∨ 4095 < tkGraph t ∨ !redeemEntryOk g ∨ mdAbsent m
        ∨ fwd.any (s.runRecordBad p ids.1) ∨ bwd.any (s.runRecordBad p ids.2) then takeTrap s .updateParam
    else if tkState t ≠ 1 then s.finishG d (BitVec.ofNat 64 (2 ^ 32)) true
    else if 8 ≤ delta then (s.setTicketState ctx s.me.unit.launch s.me.holder i 3).finishG d (BitVec.ofNat 64 (2 ^ 33)) true
    else if !retained m (tkVersion t) then takeTrap s .ticketVersionRetired
    else
      let r : RedeemRun :=
        { id := rid, ticket := id, record := BitVec.ofNat 512 (leNat (t.set 4 2)), model := tkModel t, version := tkVersion t,
          delta := delta, entry := tkGraph t, stage := rgStage g, buffer := none, bar := bar, handle := h,
          unit := s.me.unit, die := s.me.place.die, fbva := BitVec.ofNat 64 (numAt blk 0 8), launches := [],
          regs := s.regsOf ctx, bwd := 0, done := 0, ended := false, cancelled := false, doneSeq := 0, seq := s.nextSeq,
          step := 0 }
      let s := { s with nextSeq := s.nextSeq + 1 }.setTicketState ctx s.me.unit.launch s.me.holder i 2
      ((s.retainOpt bar).startRun p r fwd bwd).finishG d (rid.setWidth 64) true

/-- REDEEM (R266). -/
def execRedeem (b a d : BitVec 7) (s : State) : Out :=
  guard (gNeed .core [d, a, b]) s fun s =>
    let x := s.me.g7 a
    let y := s.me.g7 b
    if bitsOf x 32 32 ≠ 0 ∨ bitsOf y 32 32 ≠ 0 then .next (takeTrap s .illegalField)
    else if s.me.env.det then .next (takeTrap s .detViolation)
    else
      match s.image (bitsOf y 0 32) 32 with
      | .error c => .next (addrTrap s c (bitsOf y 0 32))
      | .ok blk =>
        let h := BitVec.ofNat 16 (numAt blk 8 2)
        match s.cmdHandle h with
        | .error c => .next (takeTrap s c)
        | .ok bar => .next (s.redeem d (x.extractLsb' 0 32) blk bar h)

/-- Whether a run has been cancelled or killed in one of its launches. -/
def State.runFailing (s : State) (ctx : Nat) (r : RedeemRun) : Bool :=
  r.cancelled || (s.runLaunches ctx r).any fun l => l.stopping || l.cancelled

/-- The first run of its graph entry that waits takes a free buffer; which one, the specification leaves open (DESIGN
CHOICE, log entry 30). -/
def State.takeBuffer (s : State) (ctx : Nat) (r : RedeemRun) : Out :=
  let rs := (s.context ctx).runs.filter fun r => !r.ended
  let first := rs.find? fun x => x.entry == r.entry && x.buffer.isNone && !s.runFailing ctx x
  let used := rs.filterMap fun x => if x.entry = r.entry then x.buffer else none
  let free := (List.range (rgNstage (s.redeemEntry ctx r.entry))).filter fun i => !used.contains i
  if r.buffer.isSome || (first.map RedeemRun.id) != some r.id then .refused .notDue
  else
    match free with
    | [] => .refused .notDue
    | b :: _ => .next (s.useFree.setRun ctx { r with buffer := some (free.getD (s.freeWord.toNat % free.length) b) })

/-- A step of a run that has not ended, under the registers that stood at its acceptance (R283). -/
def runStep (ctx : Nat) (id : Word) (f : State → RedeemRun → Out) (s : State) : Out :=
  match (s.context ctx).runs.find? fun r => r.id == id && !r.ended with
  | none => .refused .notDue
  | some r => underRegs ctx r.regs (fun s => f s r) s

/-- STAGING_BUFFER_TAKE (R268). -/
def execStagingBufferTake (ctx : Nat) (id : Word) (s : State) : Out := runStep ctx id (fun s r => s.takeBuffer ctx r) s

/-! Delivery (R269). -/

/-- One element of the accumulator after a delivery. -/
def deliverWord (stale g x : Word) : Word := faddW g (fmulW stale x)

/-- The flags that a tile's delivery raises: OVF where a finite element became infinite, NAN where one became NaN. -/
def deliverFlags (old new : List Word) : Nat :=
  let ps := old.zip new
  let ovf := ps.any fun p => !(f32 p.1).isNaN && !(f32 p.1).isInf && (f32 p.2).isInf
  let nan := ps.any fun p => !(f32 p.1).isNaN && (f32 p.2).isNaN
  (if ovf then 1 else 0) + (if nan then 2 else 0)

/-- Who delivers a run's gradients: the update engine of the die of its REDEEM, for the run and no unit of it. -/
def RedeemRun.issuer (r : RedeemRun) (ctx : Nat) : Issuer :=
  let u : UnitKey := ⟨ctx, r.id, 2 ^ 32⟩
  ⟨issuerAgent (.thread u) ⟨r.die, 0, 0, 0⟩ u .none, r.die, [], r.seq⟩

/-- The delivery of one tile, as one commit: the state, the locations written, and what its reads and writes report. -/
def State.deliverTile (s : State) (ctx : Nat) (r : RedeemRun) (i : Nat) : State × List Nat × DWord :=
  let m := s.model ctx r.model
  let e := r.issuer ctx
  let ga := s.updWords e (mdGacc m + 65536 * i) 16384
  let xs := ga.1.updWords e (r.bufferVa (mdTiles m) + 65536 * i) 16384
  let fl := xs.1.updWords e (mdGflags m + 16 * i + 4) 1
  let new := (ga.2.1.zip xs.2.1).map fun p => deliverWord (mdStale m r.delta) p.1 p.2
  let w := fl.1.updWrite e (cellsAt (mdGacc m + 65536 * i) (wordBytes new)
    ++ cellsAt (mdGflags m + 16 * i + 4) (leBytes 4 ((fl.2.1.getD 0 0).toNat ||| deliverFlags ga.2.1 new)))
  (w.1, w.2.1, statusMerge ga.2.2 (statusMerge xs.2.2 (statusMerge fl.2.2 w.2.2)))

/-- A tile of a run has been delivered: the next one is due, or, with the last, the run completes. -/
def State.tileDelivered (s : State) (ctx : Nat) (r : RedeemRun) : State :=
  let r := { r with done := r.done + 1, step := 0 }
  if mdTiles (s.model ctx r.model) ≤ r.done then s.endRun ctx r true else s.setRun ctx r

/-- An uncorrectable error that a delivery consumed is reported to the run (R338). -/
def State.reportDelivery (s : State) (ctx : Nat) (r : RedeemRun) (st : DWord) : State :=
  if st.getLsbD 5 then raiseAsync s .uncorrectable ctx r.id none false .none (s.die r.die).time 0 else s

/-- The next tile of a run is delivered. Of peers it first asks for what it reads there, and it awaits their
acknowledgements of what it writes there; a read that meets a locked replica stalls (R179). -/
def State.deliver (s : State) (ctx : Nat) (r : RedeemRun) : Out :=
  let e := r.issuer ctx
  let m := s.model ctx r.model
  let req := { cmdRequest r.die r.seq e.agent.unit (s.die r.die).time false with unit := none }
  if r.step = 2 then .next (s.tileDelivered ctx r)
  else
    let asked := if r.step = 0 then
        s.updPeers e [mdGacc m + 65536 * r.done, r.bufferVa (mdTiles m) + 65536 * r.done]
          ++ s.peerKeysOf e 1 ((List.range 4).map fun j => mdGflags m + 16 * r.done + 4 + j)
      else []
    if !asked.isEmpty then .next ((s.sendReads asked req).setRun ctx { r with step := 1 })
    else
      let t := s.deliverTile ctx r r.done
      if metWait t.2.2 then .next (s.keepMisses t.1 r.die)
      else if metLock t.2.2 || s.commitPending r.die t.2.1 then .refused .notDue
      else
        let u := t.1.reportDelivery ctx r t.2.2
        if t.2.1.any isPeerKey then .next ((u.sendWrites t.2.1 req).setRun ctx { r with step := 2 })
        else .next (u.tileDelivered ctx r)

/-- Whether a fault of one of a run's launches awaits its policy: a conflict of its graphs' ends may (R182, R270). -/
def State.runFaulted (s : State) (ctx : Nat) (r : RedeemRun) : Bool := s.pending.any fun p => p.ctx == ctx && r.launches.contains p.launch

/-- DELIVERY (R269): after the backward graph the next tile is delivered; with the last the run completes. -/
def execDelivery (ctx : Nat) (id : Word) (s : State) : Out :=
  runStep ctx id (fun s r =>
    if s.runFailing ctx r || s.runFaulted ctx r || !(s.graph r.bwd).any Graph.complete || !s.answered r.die r.seq then .refused .notDue
    else s.deliver ctx r) s

/-! Publication (R273, R274, R350 to R352). -/

/-- The node of the peer of the digest exchange. -/
def State.digestPeer (s : State) (ctx : Nat) : Nat := bitsOf (s.ctxReg ctx 0x015) 0 12

/-- The payload of a digest packet (DESIGN CHOICE, log entry 31). -/
def digestBytes (m : Nat) (version : Word) (d : BitVec 128) (chk : Nat) : List Byte :=
  leBytes 4 m ++ leBytes 4 version.toNat ++ leBytes 16 d.toNat ++ leBytes 4 chk ++ [0, 0, 0, 0]

/-- Where the peer's packet with a digest stands among those delivered here. -/
def State.digestItem (s : State) (ctx m : Nat) (version : Word) (d : BitVec 128) (chk : Word) : Option Nat :=
  s.inbox.findIdx? fun p =>
    let h := headerOf p.header
    h.opc == 11 && h.src == s.digestPeer ctx && p.data.take 32 == digestBytes m version d chk.toNat

/-- The packet that tells the peer a digest. -/
def State.sendDigest (s : State) (ctx m : Nat) (version : Word) (d : BitVec 128) : State :=
  let node := s.digestPeer ctx
  if node = 0xFFF ∨ (s.routeFault node 0).isSome then s
  else
    let chk := s.ctxRead ctx (s.digestAt ctx m + 24) 4
    let data := digestBytes m version d (leNat chk)
    let h : Header :=
      { way := wayOf (routeFor s.routes node 0), opc := 11, nb := 1, hop := 0, src := topoSelf s.topo, pasid := 0, va := 0,
        tag := 0, len := 32, cause := 0, arg := 0 }
    s.inject h data

/-- A publication's digest is sent, and its launch waits for the peer's (R352). -/
def State.exchangeDigest (s : State) (ctx m : Nat) (launch : Word) (version : Word) (d : BitVec 128) (time : DWord) : State :=
  if s.digestFlag ctx m 0 then
    let s := s.sendDigest ctx m version d
    let c := s.context ctx
    s.setContext ctx { c with waitPub := c.waitPub ++ [⟨m, launch, version, d, time⟩] }
  else s

/-- The answer of a WVPUB that changes nothing. -/
def pendWord (r : BitVec 1024) : DWord := BitVec.ofNat 64 (2 ^ 63 + mdPend r)

/-- WVPUB after its checks: at once, or, of a launch that sets REPLAY, held until its commit, or, where it has lost its snapshot,
its completion (R340; DESIGN CHOICE, log entry 12). -/
def State.wvpub (s : State) (d : BitVec 7) (m : Nat) : State :=
  let ctx := s.me.ctx
  let id := s.me.unit.launch
  let r := s.model ctx m
  let new := mdVcur r + 1
  let held := (s.launch ctx id).any fun l => l.replayable
  let c := s.context ctx
  if held ∧ c.heldPub.contains (m, id) then takeTrap s .updateParam
  else if mdPend r ≠ mdTiles r ∨ s.digestFlag ctx m 1 then s.finishG d (pendWord r) true
  else
    let t := s.exchangeDigest ctx m id new (s.digestOf ctx m) s.now
    let t := if held then t.setContext ctx { t.context ctx with heldPub := c.heldPub ++ [(m, id)] } else t.publish ctx id s.me.holder m
    t.finishG d (new.setWidth 64) true

/-- WVPUB (R273); in deterministic mode it faults (R266). -/
def execWvpub (a d : BitVec 7) (s : State) : Out :=
  guard (gNeed .core [d, a]) s fun s =>
    let x := s.me.g7 a
    if bitsOf x 8 56 ≠ 0 then .next (takeTrap s .illegalField)
    else if s.me.env.det then .next (takeTrap s .detViolation)
    else if mdAbsent (s.model s.me.ctx (bitsOf x 0 8)) then .next (takeTrap s .updateParam)
    else .next (s.wvpub d (bitsOf x 0 8))

/-- WVRET (R274); in deterministic mode it faults (R266). -/
def execWvret (b a d : BitVec 7) (s : State) : Out :=
  guard (gNeed .core [d, a, b]) s fun s =>
    let x := s.me.g7 a
    let y := s.me.g7 b
    let ctx := s.me.ctx
    let m := bitsOf x 0 8
    let r := s.model ctx m
    let v := y.extractLsb' 0 32
    if bitsOf x 8 56 ≠ 0 ∨ bitsOf y 32 32 ≠ 0 then .next (takeTrap s .illegalField)
    else if s.me.env.det then .next (takeTrap s .detViolation)
    else if mdAbsent r then .next (takeTrap s .updateParam)
    else
      let t := s.exposeUnit s.me.unit
      if v = mdVcur r then .next (t.finishG d (refusal 1) true)
      else if !retained r v then .next (t.finishG d (refusal 2) true)
      else
        let u := t.setModel s.me.unit s.me.holder m 6 1 (mdDisc r ||| 2 ^ (mdVcur r - v).toNat)
        .next (u.finishG d (BitVec.ofNat 64 (s.issuedTickets ctx m v)) true)

/-- The publication that waits for a digest of a model. -/
def State.waitingPub (s : State) (ctx m : Nat) : Option WaitPub := (s.context ctx).waitPub.find? fun w => w.model == m

/-- A publication no longer waits. -/
def State.dropWait (s : State) (ctx : Nat) (w : WaitPub) : State :=
  let c := s.context ctx
  s.setContext ctx { c with waitPub := c.waitPub.erase w }

/-- The policy of a cause's class in a context (R326): 0 STOP, 1 KILL, 2 REPLAY. -/
def causeClass (c : Cause) : Nat :=
  let n := c.code
  if n < 0x80 then n / 0x20 else n / 0x10 - 4
def policyIn (fpol : DWord) (c : Cause) : Nat := bitsOf fpol (2 * causeClass c) 2

/-- The policies that a fault of a launch meets: those that stood at the admission of its unit, or of its first where it
names none (R283; DEDUCED, log entry 70). -/
def State.policyReg (s : State) (ctx : Nat) (launch : Word) (unit : Option Nat) : DWord :=
  match s.units.find? fun u => ofLaunch ctx launch u.key && unit.all fun i => u.key.index == i with
  | some u => u.env.fpol
  | none => s.ctxReg ctx 0x011

/-- Whether a launch can be rolled back and replayed for a cause (R329); after a digest mismatch only once (R352). -/
def Launch.canReplay (l : Launch) (c : Cause) : Bool :=
  l.replay.isSome && decide (l.replays < (if c = .digestMismatch then 1 else 2))

/-- Whether a launch is of a redeem run that has not ended: a fault of the run's delivery names it (R269, R334, R338, R339). -/
def State.inRun (s : State) (l : Launch) : Bool := l.run.any fun id => (s.redeemRun l.ctx id).any fun r => !r.ended

/-- The policy that a fault of a launch meets (R326, R329, R331, R333): 3 where the launch already ends, but for the conflict
of a graph end and a fault of a run's delivery. A digest mismatch that cannot be replayed kills (R352). -/
def State.policyFor (s : State) (l : Launch) (unit : Option Nat) (c : Cause) : Nat :=
  if l.failed || (l.complete && c != .mergeConflict && !s.inRun l) || l.stopping || l.rollback.isSome then 3
  else if c = .digestMismatch ∧ !l.canReplay c then 1
  else match policyIn (s.policyReg l.ctx l.id unit) c with
    | 0 => 0
    | 2 => if l.canReplay c then 2 else 1
    | _ => 1

/-- DIGEST (R352): the peer's digest of a version arrives. Equal ones agree; different ones raise DIGEST_MISMATCH
against the launch, and HALT is set where it carries REPLAYED or cannot be replayed. -/
def execDigest (m ctx : Nat) (version : Word) (digest : BitVec 128) (chk : Word) (s : State) : Out :=
  match s.waitingPub ctx m, s.digestItem ctx m version digest chk with
  | some w, some i =>
    if w.version ≠ version then .refused .notDue
    else
      let s := { s with inbox := s.inbox.eraseIdx i }.dropWait ctx w
      let at' := s.digestAt ctx m
      if w.digest = digest then
        .next ((s.ctxWrite ctx (at' + 4) (leBytes 4 version.toNat)).ctxWrite ctx (at' + 24) [0, 0, 0, 0])
      else
        let s := s.ctxWrite ctx (at' + 28) (leBytes 4 chk.toNat)
        let again := (s.launch ctx w.launch).any fun l => l.canReplay .digestMismatch
        let s := if again then s else s.ctxWrite ctx at' (leBytes 1 (s.ctxNum ctx at' 1 ||| 2))
        .next (raiseAsync s .digestMismatch ctx w.launch none ((s.launch ctx w.launch).any Launch.det) .none (s.die (s.firstDie ctx)).time 0)
  | _, _ => .refused .notDue

/-- DIGEST_TIMEOUT (R352): no digest of the peer has arrived after 40,000,000 dtu. -/
def execDigestTimeout (ctx m : Nat) (s : State) : Out :=
  match s.waitingPub ctx m with
  | none => .refused .notDue
  | some w =>
    let now := (s.die (s.firstDie ctx)).time
    if now.toNat < w.time.toNat + 40000000 then .refused .notDue
    else .next (raiseAsync (s.dropWait ctx w) .linkDown ctx w.launch none ((s.launch ctx w.launch).any Launch.det) .none now 0)

end Sys2Proof.Machine
end

