-- ==== Sys2Proof/Machine/Save.lean ====
section
/-!
DEFINITION. Saving and restoring a unit: pre-emption points, the image, CTXSV and CTXLD (R174, R295 to R302, R331).
-/
namespace Sys2Proof.Machine

/-! The image (R298 to R300). -/

def zeros (n : Nat) : List Byte := List.replicate n 0

/-- Sub-groups and split entries in ascending order of their numbers. -/
def insertSub (c : Sub) : List Sub → List Sub
  | [] => [c]
  | x :: r => if c.id < x.id then c :: x :: r else x :: insertSub c r
def Agent.subsInOrder (a : Agent) : List Sub := a.subs.foldl (fun l c => insertSub c l) []

/-- The index of a split entry among an agent's, 0xFF for none. -/
def Agent.splitIndex (a : Agent) (e : Option Nat) : Nat :=
  match e with
  | none => 0xFF
  | some e => a.splits.findIdx fun x => x.id == e

/-- The codes of a split entry's children: sub-groups, then split entries with bit 7; a child that has ended is 0xFF
(DEDUCED, log entry 33). -/
def Agent.childCodes (a : Agent) (e : Nat) : List Nat :=
  let subs := ((numbered a.subsInOrder).filter fun x => x.2.parent == some e).map fun x => x.1
  let splits := ((numbered a.splits).filter fun x => x.2.parent == some e).map fun x => 0x80 + x.1
  (subs ++ splits ++ [0xFF, 0xFF]).take 2

/-- A sub-group entry; a thread's has LS and EM 0. -/
def Agent.subBytes (a : Agent) (c : Sub) : List Byte :=
  let mask := fun (m : Word) => if a.kind = .csq then 0 else m.toNat
  leBytes 4 c.pc.toNat ++ leBytes 4 (mask c.ls) ++ leBytes 4 (mask c.em) ++ leBytes 1 (a.splitIndex c.parent)
    ++ leBytes 1 (if c.parked then 1 else 0) ++ leBytes 1 c.stack.length ++ [0]

/-- A split entry. -/
def Agent.splitBytes (a : Agent) (e : Split) : List Byte :=
  leBytes 4 e.dormant.toNat ++ leBytes 1 (a.splitIndex e.parent) ++ (a.childCodes e.id).flatMap (leBytes 1) ++ zeros 9

/-- A serial entry. -/
def serialBytes (e : SerialEntry) : List Byte :=
  leBytes 4 e.f.toNat ++ leBytes 4 e.pc.toNat ++ leBytes 4 e.dormant.toNat ++ leBytes 4 (if e.phase then 1 else 0)
    ++ leBytes 4 e.ls.toNat ++ leBytes 4 e.em.toNat ++ leBytes 4 e.fusePc.toNat ++ zeros 4

/-- Bytes of a record, rounded up to a multiple of 256. -/
def up256 (n : Nat) : Nat := (n + 255) / 256 * 256

/-- RECLEN of a group and of a thread. -/
def groupLen (quota nsub nsplit nser : Nat) : Nat := up256 (0x400 + 128 * quota + 8192 + 16 * (nsub + nsplit) + 32 * nser)
def threadLen : Nat := 0x500

/-- The location of a group's spill window. -/
def spillKey (p : Place) : Nat := localKey p.die p.cluster p.core (0x7E000 - p.slot * 0x2000)

/-- A byte of memory that a save copies; a poisoned one is not delivered as data, and reads 0 (R338). -/
def State.saveByte (s : State) (k : Nat) : Byte := if s.poison.contains (k / 16) then 0 else Memory.read s.mem k

/-- The first 0x400 bytes of a record. -/
def Agent.recordHead (a : Agent) (stopped : Bool) (len : Nat) : List Byte :=
  let group := a.kind == .core
  let nser := (a.subsInOrder.map fun c => c.stack.length).sum
  let box := a.mailbox.take 4
  leBytes 1 (if group then a.index else 0) ++ leBytes 1 (if group then a.quota else 0) ++ leBytes 1 (a.others.length + 1)
    ++ leBytes 1 a.splits.length ++ leBytes 2 nser ++ leBytes 1 (if stopped then 1 else 0) ++ [0]
    ++ leBytes 8 a.retired.toNat ++ leBytes 4 len ++ zeros 4 ++ leBytes 8 (if a.env.det then 0 else a.cycle.toNat) ++ zeros 32
    ++ ((List.range 4).flatMap fun i => leBytes 8 (if group then (Store.get 0 a.scratch i).toNat else 0))
    ++ (if group then leBytes 1 box.length ++ zeros 7 ++ (List.range 4).flatMap fun i => leBytes 8 (box.getD i 0).toNat
        else zeros 40)
    ++ zeros 120
    ++ ((List.range 64).flatMap fun i => leBytes 8 (Store.get 0 a.g i).toNat)
    ++ (List.range 8).flatMap fun i =>
        let x := Store.get Xt.zero a.xt i
        leBytes 8 x.vbase.toNat ++ leBytes 8 x.frame.toNat ++ leBytes 4 x.limit.toNat ++ leBytes 1 x.perm.toNat ++ zeros 11

/-- The record of a group or a thread (R300). -/
def State.recordBytes (s : State) (a : Agent) (stopped : Bool) : List Byte :=
  let subs := a.subsInOrder
  if a.kind = .csq then
    let bs := a.recordHead stopped threadLen ++ a.subBytes a.cur
    bs ++ zeros (threadLen - bs.length)
  else
    let nser := (subs.map fun c => c.stack.length).sum
    let len := groupLen a.quota subs.length a.splits.length nser
    let bs := a.recordHead stopped len
      ++ ((List.range a.quota).flatMap fun r => (List.range 32).flatMap fun l => leBytes 4 ((Store.get Lanes.zero a.v r).at l).toNat)
      ++ (List.range 8192).map (fun i => s.saveByte (spillKey a.place + i)) ++ subs.flatMap a.subBytes ++ a.splits.flatMap a.splitBytes
      ++ subs.flatMap fun c => c.stack.reverse.flatMap serialBytes
    bs ++ zeros (len - bs.length)

/-- Slots of a table that are bound to an entry. -/
def State.slotsOf (s : State) (w : Who) (b : Nat) : Nat :=
  ((List.range 64).filter fun i => (s.slotOf w i).bound == some b).length

/-- Whether an entry is captured: only slots of this unit refer to it (R297). -/
def State.captured (s : State) (w : Who) (b : Nat) : Bool := (s.barrier b).refs == s.slotsOf w b

/-- A slot record (R299). -/
def State.slotBytes (s : State) (w : Who) (i : Nat) : List Byte :=
  let x := s.slotOf w i
  match x.bound with
  | none => leBytes 1 x.gen ++ zeros 63
  | some b =>
    let e := s.barrier b
    let bid := s.barrierId b
    if s.captured w b then
      leBytes 1 (x.gen + 128) ++ [0] ++ leBytes 2 bid ++ leBytes 2 e.ea ++ leBytes 2 e.pending ++ leBytes 8 e.eb
        ++ leBytes 8 e.expected ++ leBytes 8 e.counted ++ leBytes 8 (statusWord e.cur).toNat ++ leBytes 8 (statusWord e.last).toNat
        ++ leBytes 1 (if e.phase then 1 else 0) ++ leBytes 1 e.gen ++ zeros 14
    else leBytes 1 (x.gen + 128) ++ [1] ++ leBytes 2 bid ++ zeros 60

/-- A placement word (R301). -/
def placeWord (die cluster : Nat) (cores : List Nat) : Nat :=
  die + cluster * 2 ^ 3 + ((numbered cores).map fun x => x.2 * 2 ^ (8 + 7 * x.1)).sum

/-- The agent whose handle table a unit's agents share. -/
def WorkUnit.owner (x : WorkUnit) : Who := if x.kind = .csq then .thread x.key else .group x.key 0

/-- The header of an image of `size` bytes for a unit and its agents (R298). -/
def headerBytes (x : WorkUnit) (as : List Agent) (size : Nat) : List Byte :=
  let a := as.headD (Agent.start x.owner x.kind ⟨0, 0, 0, 0⟩)
  let csq := x.kind == .csq
  let e := x.env
  leBytes 2 1 ++ leBytes 1 (if csq then 2 else 1)
    ++ leBytes 1 ((if e.det then 1 else 0) + (if e.coop then 2 else 0) + (if e.redeem then 4 else 0))
    ++ leBytes 1 as.length ++ leBytes 1 (if csq then 0 else x.cores.length) ++ leBytes 1 e.cls
    ++ leBytes 1 (x.rot.elim 0 Rotation.cycle % 8) ++ leBytes 1 x.key.ctx ++ zeros 3 ++ leBytes 4 x.key.launch.toNat
    ++ leBytes 4 x.key.index ++ leBytes 4 x.bshared ++ leBytes 4 size ++ leBytes 2 (x.die + x.cluster * 8) ++ zeros 2
    ++ leBytes 8 (if e.det then placeWord e.shown.die e.shown.cluster (if csq then [] else x.drawn) else 0)
    ++ leBytes 2 (if csq then a.batches.counter.toNat else 0) ++ leBytes 1 (if csq then a.eclass else 0) ++ [0] ++ zeros 4
    ++ leBytes 8 (if csq then a.scaleW.a.toNat else 0) ++ leBytes 8 (if csq then a.scaleW.b.toNat else 0)
    ++ leBytes 8 (if csq then a.quadW.1.toNat else 0) ++ leBytes 8 (if csq then a.quadW.2.toNat else 0) ++ zeros 176

/-- Whether a group stands stopped, or will when its record has been delivered (R300, R331). -/
def State.standsStopped (s : State) (a : Agent) : Bool :=
  a.run == .stopped || (a.run == .faulted && s.pending.any fun p => p.who == some a.who
    && (s.launch p.ctx p.launch).any fun l => p.policy.getD (s.policyFor l p.unit p.cause) == 0)

/-- The image of a unit whose agents are `as` (R298 to R300). The image gives generator windows no place; a save keeps
them beside the unit (DESIGN CHOICE, log entry 71). -/
def State.unitImage (s : State) (x : WorkUnit) (as : List Agent) : List Byte :=
  let slots := (List.range 64).flatMap fun i => s.slotBytes x.owner i
  let recs := as.flatMap fun a => s.recordBytes a (s.standsStopped a)
  let shared := (List.range x.bshared).map fun o => s.saveByte (x.blockKey o)
  headerBytes x as (0x1100 + recs.length + shared.length) ++ slots ++ recs ++ shared

/-- Where in its image a unit's poisoned bytes stand: those of its spill windows and of its block-shared memory. -/
def State.imagePoison (s : State) (x : WorkUnit) (as : List Agent) : List Nat :=
  if s.poison.isEmpty then []
  else
    let bad := fun (k : Nat) => s.poison.contains (k / 16)
    let r := as.foldl (fun (r : List Nat × Nat) a =>
      let at' := r.2 + 0x400 + 128 * a.quota
      (r.1 ++ (if a.kind = .csq then [] else
        ((List.range 8192).filter fun i => bad (spillKey a.place + i)).map fun i => at' + i),
        r.2 + (s.recordBytes a false).length)) ([], 0x1100)
    r.1 ++ ((List.range x.bshared).filter fun o => bad (x.blockKey o)).map fun o => r.2 + o

/-! CTXSV (R296). -/

/-- The agents of a unit that have not ended, groups in ascending index. -/
def State.liveAgents (s : State) (u : UnitKey) : List Agent :=
  let as := s.allAgents.filter fun a => a.kind != .sup && a.unit == u && a.run != .ended
  (List.range 128).flatMap fun i => as.filter fun a => a.index == i

/-- Whether the engines hold a command of a unit that has not counted; bulk entries not yet taken stay in their ring (R160). -/
def State.unitBusy (s : State) (x : WorkUnit) : Bool :=
  let u := x.key
  (s.dies.any fun d => (d.2.copyQ ++ d.2.heldT).any (fun c => c.unit == u) || d.2.bulkQ.any (fun c => c.unit == u)
      || d.2.dceQ.any (fun c => c.unit == u) || d.2.updQ.any fun c => c.unit == u)
    || (s.clusters.any fun k => (k.2.queue0 ++ k.2.queue1 ++ k.2.queue2 ++ k.2.queue3).any fun c => c.unit == u)
    || s.commits.any fun c => c.done.unit == u

/-- Whether an agent stands at a point of Table 2, with its stores performed and its results arrived. -/
def Agent.atPoint (a : Agent) : Bool := a.waitsNot && a.atRest && a.drained

/-- An agent as its pre-emption stops it: its discardable waits are undone, of a deterministic block's group only those at the
head of their chains (R140, R336). -/
def Agent.standDown (a : Agent) : Agent :=
  if a.run = .running then a.undo fun c => c.wait.discardable && (!a.env.det || a.kind == .csq || c.pos == 0) else a

/-- The agents of a unit as its pre-emption stops them. -/
def State.standDown (s : State) (u : UnitKey) : State :=
  s.mapAgents fun a => if a.kind != .sup && a.unit == u then a.standDown else a

/-- Whether the latencies of a group's instructions have ended, and its stores and atomics performed, before a rotation cycle
(R336). -/
def Agent.settledAt (a : Agent) (t : Nat) : Bool :=
  let past := fun (c : Nat) => c == 0 || decide (c < t)
  (a.due.all fun d => past d.cycle) && (a.subs.all fun c => past c.ready) && past a.ready

/-- Whether a deterministic block may stop at its rotation's place: at the start of a cycle that follows the one in which
its pre-emption request was seen (R336). -/
def WorkUnit.atCycle (x : WorkUnit) (as : List Agent) : Bool :=
  x.rot.all fun r => r.asked && r.place == 0 && as.all fun a => a.settledAt r.cycle

/-- Whether a unit stands where its pre-emption stops it (R295, R336). -/
def State.atStop (s : State) (x : WorkUnit) : Bool :=
  let as := s.liveAgents x.key
  (as.all fun a => a.standDown.atPoint && !s.peerWrites a.who) && !s.unitBusy x && x.atCycle as

/-- The length of the image of a unit. -/
def State.imageLen (s : State) (x : WorkUnit) (as : List Agent) : Nat := (s.unitImage x as).length

/-- The location of a byte of a supervisor's VA, a peer's too where the route to it passes its check. -/
def State.supPlace (s : State) (va : Nat) (write : Bool) : Option Nat :=
  let v := BitVec.ofNat 56 va
  let o := s.peek 8 s.supRoot v write
  if (s.peerFault o v).isSome then none else o.place v

/-- Whether a range of the supervisor's VA space is mapped writable, or readable. -/
def State.supMapped (s : State) (va n : Nat) (write : Bool) : Bool :=
  (List.range ((va + n - 1) / 2 ^ 16 + 1 - va / 2 ^ 16)).all fun i => (s.supPlace ((va / 2 ^ 16 + i) * 2 ^ 16) write).isSome

/-- The first poisoned byte in a range of the supervisor's VA space. -/
def State.supPoisoned (s : State) (va n : Nat) : Option (BitVec 56) :=
  if s.poison.isEmpty then none
  else ((List.range n).find? fun i => (s.supPlace (va + i) false).any fun k => s.poison.contains (k / 16)).map fun i =>
    BitVec.ofNat 56 (va + i)

/-- The trap of a supervisor thread at an access of its own, or of one that has waited (R279). -/
def State.trapThread (s : State) (a : Agent) (c : Cause) (i : FaultInfo) : State :=
  s.setAgent ((a.rollback.setWait .none).enterHandler c i a.cur.headPc)

/-- Bytes written at a supervisor's VA, with a WRITE for each unit of a peer. -/
def State.imageWrite (s : State) (va : Nat) (bs : List Byte) (r : PeerRequest) : State :=
  let cells := (List.range bs.length).filterMap fun i => (s.supPlace (va + i) true).map fun k => (k, bs.getD i 0)
  (s.writeMem cells).sendWrites (cells.map fun c => c.1) r

/-- Bytes at a supervisor's VA are poisoned, where they are in this device's storage. -/
def State.poisonAt (s : State) (vas : List Nat) : State :=
  let units := (vas.filterMap fun v => (s.supPlace v true).filter fun k => !outwardKey k).map fun k => k / 16
  { s with poison := units.foldl (fun l q => if l.contains q then l else q :: l) s.poison }

/-- Bytes read at a supervisor's VA, those of a peer as its answers have brought them. -/
def State.imageRead (s : State) (va n : Nat) : List Byte :=
  (List.range n).map fun i => match s.supPlace (va + i) false with | some k => Memory.read s.mem k | none => 0

/-- The peers' locations in a range of the supervisor's VAs. -/
def State.imagePeers (s : State) (va n : Nat) : List Nat :=
  (List.range n).filterMap fun i => (s.supPlace (va + i) false).filter isPeerKey

/-- Captured entries return to their pool, and their slots are unbound; entries left in place keep their references. -/
def State.captureSlots (s : State) (w : Who) : State :=
  let t := (List.range 64).foldl (fun (t : State) i =>
    match (s.slotOf w i).bound with
    | some b => if s.captured w b then t.setSlot w i { s.slotOf w i with bound := none } else t
    | none => t) s
  ((List.range 64).filterMap fun i => ((s.slotOf w i).bound).filter fun b => s.captured w b).eraseDups.foldl
    (fun (t : State) b => t.setBarrier b { Barrier.fresh with gen := nextGen (s.barrier b).gen }) t

/-- What stays of a saved agent beside its image: its name, its code, the batches of a thread, which stay in place (R302), and
what an image has no place for, the spaces of its translation registers (DESIGN CHOICE, log entry 55). -/
def Agent.asSaved (a : Agent) : Agent :=
  { Agent.start a.who a.kind a.place with
    ctx := a.ctx, unit := a.unit, index := a.index, bcore := a.bcore, env := a.env, code := a.code, codeBase := a.codeBase, xt := a.xt,
    scaleW := a.scaleW, quadW := a.quadW, batches := a.batches, run := .saved }

/-- Whether a holder is of a unit. -/
def Holder.ofUnit (u : UnitKey) : Holder → Bool
  | .agent (.group v _) | .agent (.thread v) | .command (.group v _) _ | .command (.thread v) _ => v == u
  | _ => false

/-- Blocks of a launch that no save holds any longer have not been asked to stop (R296, R301). -/
def State.clearAsked (s : State) (ctx : Nat) (id : Word) : State :=
  (s.unitsOf ctx id).foldl (fun (s : State) x =>
    let held := x.preempt.isSome || (x.env.coop && (s.unitsOf ctx id).any fun y => !y.ended && (y.saved || y.preempt.isSome))
    if held then s else s.setUnit { x with rot := x.rot.map fun r => { r with asked := false } }) s

/-- The unit is saved for a supervisor thread: its image is written, with the poison of what it copies (R338), its context's
generator windows are kept (R127), and its slots and what they held are free. -/
def State.saveUnit (s : State) (x : WorkUnit) (image : BitVec 56) (w : Agent) : State :=
  let as := s.liveAgents x.key
  let now := (s.die x.die).time
  let bad := (s.imagePoison x as).map fun i => image.toNat + i
  let s := (s.imageWrite image.toNat (s.unitImage x as) (supRequest w (s.die w.place.die).time)).poisonAt bad
  let s := ((s.captureSlots x.owner).passHold (Holder.ofUnit x.key) .device).releaseSys .device
  let s := s.setUnit { x with
    saved := true, preempt := none, savedAt := if x.savedAt.toNat < now.toNat then now else x.savedAt,
    windows := (s.context x.key.ctx).windows }
  s.mapAgents fun a => if a.kind != .sup && a.unit == x.key && a.run != .ended then a.asSaved else a

/-- PREEMPTION_STOP (R296): the agents of a unit that is to be saved have reached their points. Discardable waits are undone;
once every agent stands, has drained, and the unit's commands have counted, the image is written and the CTXSV completes.
Where the image's range, as long as it now is, is not mapped writable, nothing is done and the unit goes on. A unit that has ended meanwhile reads
unknown. -/
def execPreemptionStop (u : UnitKey) (s : State) : Out :=
  match s.unit u with
  | none => .refused .notDue
  | some x =>
    match s.allAgents.find? fun a => match a.wait with | .ctxsv _ v _ => v == u | _ => false with
    | none => .refused .notDue
    | some w =>
      match w.wait with
      | .ctxsv d _ image =>
        let as := s.liveAgents u
        if x.ended then .next (s.setAgent (w.wake d 1))
        else if as.isEmpty || !s.atStop x then .refused .notDue
        else if !s.supMapped image.toNat (s.imageLen x as) true then
          .next (((s.setUnit { x with preempt := none }).clearAsked u.ctx u.launch).setAgent (w.wake d 2))
        else .next (((s.standDown u).saveUnit x image w).setAgent (w.wake d 0))
      | _ => .refused .notDue

/-- The unit that a CTXSV names. -/
def saveTarget (x : DWord) : UnitKey := ⟨bitsOf x 52 6, x.extractLsb' 0 32, bitsOf x 32 20⟩

/-- CTXSV (R296): the unit's agents are asked to stop, and the thread waits. -/
def execCtxsv (b a d : BitVec 7) (s : State) : Out :=
  guard (gNeed .sup [d, a, b]) s fun s =>
    let x := s.me.g7 a
    let va := (s.me.g7 b).extractLsb' 0 56
    if bitsOf x 58 6 ≠ 0 then .next (takeTrap s .illegalField)
    else if va.toNat % 256 ≠ 0 then .next (supTrap s .align va)
    else
      match s.unit (saveTarget x) with
      | none => .next (s.finishG d 1 true)
      | some u =>
        if u.ended || u.saved || u.kind == .sup || u.preempt.isSome then .next (s.finishG d 1 true)
        else if !s.supMapped va.toNat (s.imageLen u (s.liveAgents u.key)) true then .next (s.finishG d 2 true)
        else
          .next { s.setUnit { u with preempt := some s.me.who } with
            me := s.me.setWait (.ctxsv d.toNat u.key va) }

/-! CTXLD (R301, R302). -/

/-- Where the records of `n` groups start in an image, and where the last ends. -/
def recordStarts (im : List Byte) : Nat → Nat → List Nat × Nat
  | 0, at' => ([], at')
  | n + 1, at' =>
    let r := recordStarts im n (at' + numAt im (at' + 0x10) 4)
    (at' :: r.1, r.2)

/-- The counts of a record: quota, sub-groups, split entries, serial entries. -/
def recQuota (im : List Byte) (o : Nat) : Nat := byteAt im (o + 1)
def recNsub (im : List Byte) (o : Nat) : Nat := byteAt im (o + 2)
def recNsplit (im : List Byte) (o : Nat) : Nat := byteAt im (o + 3)
def recNser (im : List Byte) (o : Nat) : Nat := numAt im (o + 4) 2

/-- Where the parts of a record start. -/
def spillAt (im : List Byte) (o : Nat) : Nat := o + 0x400 + 128 * recQuota im o
def subsAt (im : List Byte) (csq : Bool) (o : Nat) : Nat := if csq then o + 0x400 else spillAt im o + 8192
def splitsAt (im : List Byte) (csq : Bool) (o : Nat) : Nat := subsAt im csq o + 16 * recNsub im o
def serialsAt (im : List Byte) (csq : Bool) (o : Nat) : Nat := splitsAt im csq o + 16 * recNsplit im o

/-- Whether a record's MBZ fields are 0 and its lengths agree (R300). -/
def recordFits (im : List Byte) (csq : Bool) (o : Nat) : Bool :=
  let nsub := recNsub im o
  let depths := (List.range nsub).map fun i => byteAt im (subsAt im csq o + 16 * i + 14)
  decide (1 ≤ nsub) && decide (nsub ≤ 65) && decide (recNsplit im o ≤ 64) && depths.sum == recNser im o
    && depths.all (fun n => decide (n ≤ 16))
    && numAt im (o + 0x10) 4 == (if csq then threadLen else groupLen (recQuota im o) nsub (recNsplit im o) (recNser im o))
    && (!csq || (recQuota im o == 0 && nsub == 1 && recNsplit im o == 0)) && decide (recQuota im o ≤ 120)
    && decide (byteAt im (o + 6) ≤ 1) && zeroAt im (o + 7) (o + 7) && zeroAt im (o + 0x14) (o + 0x17)
    && zeroAt im (o + 0x20) (o + 0x3F) && decide (byteAt im (o + 0x60) ≤ 4) && zeroAt im (o + 0x61) (o + 0x67)
    && ((List.range 8).all fun i => zeroAt im (o + 0x300 + 32 * i + 21) (o + 0x300 + 32 * i + 31))
    && ((List.range nsub).all fun i => zeroAt im (subsAt im csq o + 16 * i + 15) (subsAt im csq o + 16 * i + 15))
    && ((List.range (recNsplit im o)).all fun i => zeroAt im (splitsAt im csq o + 16 * i + 7) (splitsAt im csq o + 16 * i + 15))
    && ((List.range (recNser im o)).all fun i => zeroAt im (serialsAt im csq o + 32 * i + 28) (serialsAt im csq o + 32 * i + 31))

/-- The unit that an image is of. -/
def imageUnit (im : List Byte) : UnitKey := ⟨byteAt im 8, BitVec.ofNat 32 (numAt im 0x0C 4), numAt im 0x10 4⟩

/-- Whether an image's header fits the saved unit that it names (R298). -/
def headerFits (im : List Byte) (x : WorkUnit) : Bool :=
  let e := x.env
  let csq := x.kind == .csq
  numAt im 0 2 == 1 && byteAt im 2 == (if csq then 2 else 1)
    && byteAt im 3 == (if e.det then 1 else 0) + (if e.coop then 2 else 0) + (if e.redeem then 4 else 0)
    && decide (1 ≤ byteAt im 4) && decide (byteAt im 4 ≤ 128) && byteAt im 5 == (if csq then 0 else x.cores.length)
    && byteAt im 6 == e.cls && decide (byteAt im 7 < 8) && zeroAt im 9 0xB && numAt im 0x14 4 == x.bshared
    && decide (numAt im 0x1C 2 < 32) && zeroAt im 0x1E 0x1F && zeroAt im 0x2B 0x2F && zeroAt im 0x50 0xFF

/-- Whether slot record `i` keeps its MBZ fields 0. -/
def slotFits (im : List Byte) (i : Nat) : Bool :=
  let o := 0x100 + 64 * i
  byteAt im o / 32 % 4 == 0 && decide (byteAt im (o + 1) ≤ 1) && zeroAt im (o + 0x32) (o + 0x3F)

/-- Slot records: bound, mode, entry id, generation. -/
def slotBound (im : List Byte) (i : Nat) : Bool := byteAt im (0x100 + 64 * i) / 128 == 1
def slotInPlace (im : List Byte) (i : Nat) : Bool := byteAt im (0x100 + 64 * i + 1) == 1
def slotBid (im : List Byte) (i : Nat) : Nat := numAt im (0x100 + 64 * i + 2) 2
def slotGen (im : List Byte) (i : Nat) : Nat := byteAt im (0x100 + 64 * i) % 32

/-- The slots bound to entries in place, and the ids of captured entries, once each. -/
def inPlaceSlots (im : List Byte) : List Nat := (List.range 64).filter fun i => slotBound im i && slotInPlace im i
def capturedIds (im : List Byte) : List Nat :=
  (((List.range 64).filter fun i => slotBound im i && !slotInPlace im i).map (slotBid im)).eraseDups

/-- The pool entry that an in-place slot names: its id, on the HOME cluster. -/
def homeDie (im : List Byte) : Nat := numAt im 0x1C 2 % 8
def homeCluster (im : List Byte) : Nat := numAt im 0x1C 2 / 8 % 4
def inPlaceKey (im : List Byte) (i : Nat) : Nat := barrierKey (homeDie im) (homeCluster im) (slotBid im i % 1024)
def State.inPlaceLive (s : State) (im : List Byte) (i : Nat) : Bool :=
  let e := s.barrier (inPlaceKey im i)
  e.live && e.gen == slotBid im i / 1024

/-- The group indices of an image's records. -/
def imageGroups (im : List Byte) : List Nat := ((recordStarts im (byteAt im 4) 0x1100).1).map fun o => byteAt im o

/-- Whether an image is good: a saved unit's, with every size and MBZ field as R298 to R300 have it (status 4). -/
def State.imageGood (s : State) (im : List Byte) : Bool :=
  match s.unit (imageUnit im) with
  | none => false
  | some x =>
    let r := recordStarts im (byteAt im 4) 0x1100
    let csq := x.kind == .csq
    x.saved && !x.ended && headerFits im x && (List.range 64).all (slotFits im) && r.1.all (recordFits im csq)
      && numAt im 0x18 4 == r.2 + x.bshared && im.length == numAt im 0x18 4
      && (inPlaceSlots im).all (s.inPlaceLive im)
      && (imageGroups im == ((List.range 128).filter fun i => s.allAgents.any fun a => a.unit == x.key && a.run == .saved && a.index == i))

/-- The member cores of a placement word. -/
def placeCores (w : DWord) (n : Nat) : List Nat := (List.range n).map fun k => bitsOf w (8 + 7 * k) 7

/-- Whether member core `m` of an image's unit is free on a core (status 2). -/
def State.restoreFits (s : State) (x : WorkUnit) (im : List Byte) (d c k m : Nat) : Bool :=
  let on := s.onCore d c k
  let mine := (recordStarts im (byteAt im 4) 0x1100).1.filter fun o => byteAt im o / 16 == m
  let splits := (mine.map (recNsplit im)).sum
  let used := (on.map fun a => a.splits.length).sum
  !s.quarantined d c k && decide (mine.length ≤ (s.freeSlots d c k).length) && decide (used + splits ≤ 64)
    && (x.bshared == 0 || (s.highRun d c k (sharedPages x.bshared x.cores.length)).isSome)
    && on.all (fun a => a.ctx == x.key.ctx && !a.env.det) && (!x.env.det || on.isEmpty)

/-- Whether the place of a restore is free. -/
def State.placeFree (s : State) (x : WorkUnit) (im : List Byte) (d c : Nat) (cores : List Nat) : Bool :=
  (s.partDies (s.partOf x.key.ctx)).getLsbD d
    && (x.kind == .csq || (cores.eraseDups.length == cores.length && (numbered cores).all fun y => s.restoreFits x im d c y.2 y.1))

/-- Free entries of a cluster's pool, lowest first. -/
def State.freeEntries (s : State) (d c : Nat) : List Nat :=
  ((List.range 1024).map fun i => barrierKey d c i).filter fun k => !(s.barrier k).live

/-- The status of a restore: a bad image first, then the place, then what stays in place, then the pool (DEDUCED, log
entry 33). -/
def State.restoreStatus (s : State) (x : WorkUnit) (im : List Byte) (d c : Nat) (cores : List Nat) : Nat :=
  let home := d == homeDie im && c == homeCluster im
  if !s.imageGood im then 4
  else if !s.placeFree x im d c cores then 2
  else if (!(inPlaceSlots im).isEmpty && !home) || (x.kind == .csq && (!home || !s.threadFree d c x.env.cls)) then 3
  else if (s.freeEntries d c).length < (capturedIds im).length then 4
  else 0

/-- The generation of a captured entry; one that no entry can have stands as 1 (DEDUCED, log entry 33). -/
def capturedGen (im : List Byte) (i : Nat) : Nat :=
  let g := byteAt im (0x100 + 64 * i + 0x31)
  if g = 0 ∨ 31 < g then 1 else g

/-- The entry that a captured slot record describes, with `refs` references. -/
def capturedEntry (im : List Byte) (i refs : Nat) : Barrier :=
  let o := 0x100 + 64 * i
  { live := true, phase := byteAt im (o + 0x30) == 1, ea := numAt im (o + 4) 2, pending := numAt im (o + 6) 2,
    eb := numAt im (o + 8) 8, expected := numAt im (o + 0x10) 8, counted := numAt im (o + 0x18) 8,
    cur := BitVec.ofNat 64 (numAt im (o + 0x20) 8), last := BitVec.ofNat 64 (numAt im (o + 0x28) 8), refs := refs,
    gen := capturedGen im i }

/-- The references that a saved unit's slots still hold are dropped. -/
def State.dropSlots (s : State) (w : Who) : State :=
  (List.range 64).foldl (fun (t : State) i =>
    match (s.slotOf w i).bound with
    | some b => t.setBarrier b (t.barrier b).release
    | none => t) s

/-- The slots of an image bound again (R301): captured entries afresh in the pool, entries in place by their ids. -/
def State.restoreSlots (s : State) (w : Who) (im : List Byte) (d c : Nat) : State :=
  let places := (capturedIds im).zip (s.freeEntries d c)
  let key := fun i =>
    if slotInPlace im i then some (inPlaceKey im i) else (places.find? fun p => p.1 == slotBid im i).map fun p => p.2
  let refs := fun b => ((List.range 64).filter fun i => slotBound im i && !slotInPlace im i && slotBid im i == b).length
  let t := places.foldl (fun (t : State) p =>
    match (List.range 64).find? fun i => slotBound im i && !slotInPlace im i && slotBid im i == p.1 with
    | some i => t.setBarrier p.2 (capturedEntry im i (refs p.1))
    | none => t) s
  let t := (inPlaceSlots im).foldl (fun (t : State) i => t.setBarrier (inPlaceKey im i) (t.barrier (inPlaceKey im i)).retain) t
  let t := t.dropSlots w
  (List.range 64).foldl (fun (t : State) i =>
    t.setSlot w i ⟨slotGen im i, if slotBound im i then key i else none⟩) t

/-- A split entry of a record: entry `j` has number `j`. -/
def loadSplit (im : List Byte) (o j : Nat) : Split :=
  let e := o + 16 * j
  let code := fun (x : Nat) => if x = 0xFF then none else some x
  ⟨j, code (byteAt im (e + 4)), BitVec.ofNat 32 (numAt im e 4),
    ([5, 6].filter fun k => byteAt im (e + k) == 0xFF).length⟩

/-- A serial entry of a record; bit 0 of a PC reads 0, as it always is (R40; DEDUCED, log entry 35). -/
def loadSerial (im : List Byte) (e : Nat) : SerialEntry :=
  let w := fun k => BitVec.ofNat 32 (numAt im (e + k) 4)
  let pc := fun k => evenPc ((w k).setWidth 64)
  ⟨w 0, pc 4, w 8, numAt im (e + 12) 4 == 1, w 16, w 20, pc 24⟩

/-- The sub-groups of a record from entry `i` on, with the serial entries from `at'` on, bottom first; bit 0
of a PC reads 0, as it always is (R40; DEDUCED, log entry 35). -/
def loadSubs (im : List Byte) (o first : Nat) : Nat → Nat → Nat → List Sub
  | 0, _, _ => []
  | n + 1, i, at' =>
    let e := o + 16 * i
    let w := fun k => BitVec.ofNat 32 (numAt im (e + k) 4)
    let depth := byteAt im (e + 14)
    let stack := ((List.range depth).map fun k => loadSerial im (at' + 32 * k)).reverse
    let parent := if byteAt im (e + 12) = 0xFF then none else some (byteAt im (e + 12))
    { Sub.head (first + i) (w 4) (w 8) (evenPc ((w 0).setWidth 64)) parent stack with parked := byteAt im (e + 13) % 2 == 1 }
      :: loadSubs im o first n (i + 1) (at' + 32 * depth)

/-- A translation register of an image. The register that the saved agent had there keeps the space and the level of its page
where the image has its VBASE and FRAME; any other is of the device (DESIGN CHOICE, log entry 55). -/
def loadXt (im : List Byte) (k : Nat) (old : Xt) : Xt :=
  let vbase := BitVec.ofNat 56 (numAt im k 8)
  let frame := BitVec.ofNat 52 (numAt im (k + 8) 8)
  let same := old.vbase == vbase && old.frame == frame
  ⟨vbase, frame, if same then old.space else .device, BitVec.ofNat 32 (numAt im (k + 16) 4), BitVec.ofNat 2 (numAt im (k + 20) 1),
    if same then old.level else 0⟩

/-- An agent restored from its record to a place; of die time it reads nothing before `floor` (R15). -/
def Agent.restore (a : Agent) (im : List Byte) (o : Nat) (p shown : Place) (floor : DWord) : Agent :=
  let csq := a.kind == .csq
  let q := recQuota im o
  let num := fun k n => numAt im (o + k) n
  let subs := loadSubs im (subsAt im csq o) (recNsplit im o) (recNsub im o) 0 (serialsAt im csq o)
  let full := fun (c : Sub) => if csq then { c with ls := 0xFFFF_FFFF, em := 0xFFFF_FFFF, headEm := 0xFFFF_FFFF } else c
  { a with
    place := p, env := { a.env with shown := if a.env.det then shown else p },
    quota := if csq then a.quota else q, retired := BitVec.ofNat 64 (num 8 8),
    cycle := BitVec.ofNat 64 (num 0x18 8), timeFloor := floor,
    scratch := (List.range 4).foldl (fun m i => Store.set 0 m i (BitVec.ofNat 64 (num (0x40 + 8 * i) 8))) [],
    mailbox := (List.range (num 0x60 1)).map fun i => BitVec.ofNat 64 (num (0x68 + 8 * i) 8),
    g := (List.range 64).foldl (fun m i => if i = 0 then m else Store.set 0 m i (BitVec.ofNat 64 (num (0x100 + 8 * i) 8))) [],
    xt := (List.range 8).foldl (fun m i =>
      Store.set Xt.zero m i (loadXt im (o + 0x300 + 32 * i) (Store.get Xt.zero a.xt i))) [],
    v := (List.range (if csq then 0 else q)).foldl (fun m r =>
      Store.set Lanes.zero m r (Lanes.make fun l => BitVec.ofNat 32 (num (0x400 + 128 * r + 4 * l) 4))) [],
    cur := full (subs.headD a.cur), others := subs.drop 1,
    splits := (List.range (recNsplit im o)).map fun j => loadSplit im (splitsAt im csq o) j,
    nextId := recNsplit im o + recNsub im o + 1, relNext := some 6,
    run := if byteAt im (o + 6) % 2 = 1 then .stopped else .running }

/-- A thread's state from the header of its image (R298): its batches stay as they stood, and the scale record too
where its operands are as they were. -/
def Agent.restoreThread (a : Agent) (im : List Byte) (record : DWord → BitVec 512) : Agent :=
  let x := BitVec.ofNat 64 (numAt im 0x30 8)
  let y := BitVec.ofNat 64 (numAt im 0x38 8)
  { a with
    batches := { a.batches with counter := BitVec.ofNat 16 (numAt im 0x28 2) }, eclass := byteAt im 0x2A,
    scaleW := if a.scaleW.a = x ∧ a.scaleW.b = y then a.scaleW else ⟨x, y, record x⟩,
    quadW := (BitVec.ofNat 64 (numAt im 0x40 8), BitVec.ofNat 64 (numAt im 0x48 8)) }

/-- The saved agents of a unit restored from their records. -/
def State.restoreAgents (s : State) (x : WorkUnit) (im : List Byte) (d c : Nat) (cores : List Nat) : State :=
  let draw := BitVec.ofNat 64 (numAt im 0x20 8)
  let starts := (recordStarts im (byteAt im 4) 0x1100).1
  let place := fun (i : Nat) =>
    if x.kind = .csq then (⟨d, c, 0, x.env.cls⟩ : Place)
    else
      let k := cores.getD (i / 16) 0
      let rank := (starts.filter fun o => byteAt im o / 16 == i / 16 && decide (byteAt im o < i)).length
      ⟨d, c, k, if x.env.det then i % 16 else (s.freeSlots d c k).getD rank 0⟩
  let record := fun (y : DWord) => ((s.context x.key.ctx).named (if y.getLsbD 15 then some (bitsOf y 0 12) else none)).getD 0
  let restored := starts.filterMap fun o =>
    let i := byteAt im o
    (s.allAgents.find? fun a => a.unit == x.key && a.run == .saved && a.index == i).map fun a =>
      let p := place i
      let shown : Place := ⟨bitsOf draw 0 3, bitsOf draw 3 2, bitsOf draw (8 + 7 * (i / 16)) 7, p.slot⟩
      let b := a.restore im o p shown x.savedAt
      if x.kind = .csq then b.restoreThread im record else b
  let spills := starts.flatMap fun o =>
    if x.kind = .csq then [] else cellsAt (spillKey (place (byteAt im o))) ((im.drop (spillAt im o)).take 8192)
  (restored.foldl (fun s a => s.setAgent a) s).writeMem spills

/-- The quad binding of a restored thread stands again, as its MQUAD operands name it (R211, R302). -/
def State.rebindQuad (s : State) (x : WorkUnit) (im : List Byte) (d c : Nat) : State :=
  let a := BitVec.ofNat 64 (numAt im 0x40 8)
  let feeder : UnitKey := ⟨x.key.ctx, a.extractLsb' 0 32, bitsOf a 32 20⟩
  let q := if a ≠ 0 ∧ (s.unit feeder).any fun y => !y.ended then ⟨feeder, quadGroups (BitVec.ofNat 64 (numAt im 0x48 8))⟩ else Quad.unbound
  let k := s.cluster d c
  if x.kind = .csq then s.setCluster d c { k with quads := Store.set Quad.unbound k.quads x.env.cls q } else s

/-- The windows of the unit's context stand as they did when it was saved (R127). -/
def State.restoreWindows (s : State) (x : WorkUnit) : State :=
  s.setContext x.key.ctx { s.context x.key.ctx with windows := x.windows }

/-- The unit is restored; a deterministic block's rotation goes on from ROT (R302, R336), of a co-operative launch once every
unit of it is restored (R301). -/
def State.restoreUnit (s : State) (x : WorkUnit) (im : List Byte) (d c : Nat) (cores : List Nat) : State :=
  let n := sharedPages x.bshared x.cores.length
  let runs := cores.map fun k => if x.bshared = 0 then 0 else (s.highRun d c k n).getD 0
  let s := cores.foldl (fun s k => s.takeCore x.key.ctx d c k) s
  let s := ((s.restoreSlots x.owner im d c).restoreAgents x im d c cores).rebindQuad x im d c
  let draw := BitVec.ofNat 64 (numAt im 0x20 8)
  let shown : Place := if x.env.det then ⟨bitsOf draw 0 3, bitsOf draw 3 2, bitsOf draw 8 7, 0⟩ else ⟨d, c, cores.headD 0, 0⟩
  let y := { x with
    die := d, cluster := c, cores := cores, runs := runs, saved := false, preempt := none,
    rot := if x.env.det ∧ x.kind = .core then some ⟨byteAt im 7, 0, true⟩ else none,
    drawn := if x.env.det then placeCores draw cores.length else cores, env := { x.env with shown := shown } }
  let shared := im.drop (numAt im 0x18 4 - x.bshared)
  (((s.setUnit y).clearAsked x.key.ctx x.key.launch).restoreWindows x).writeMem ((numbered (shared.take x.bshared)).map fun z => (y.blockKey z.1, z.2))

/-- CTXLD once its operands are known (R301): `fin` writes the status. Of an image in a peer's memory it first asks for the
bytes past `upto`, the header's and then the rest, and waits. An image that is not mapped is a bad one (DEDUCED, log entry 33);
at a poisoned one the thread traps (R338). -/
def State.loadImage (s : State) (a : Agent) (d : Nat) (va : BitVec 56) (w : DWord) (upto : Nat) (fin : State → DWord → State) :
    State :=
  let ask := fun (n : Nat) =>
    (s.setAgent (a.setWait (.ctxld d va w n))).sendReads (s.imagePeers va.toNat n) (supRequest a (s.die a.place.die).time)
  let away := fun (n : Nat) => decide (upto < n) && !(s.imagePeers va.toNat n).isEmpty
  if !s.supMapped va.toNat 256 false then fin s 4
  else if away 256 then ask 256
  else if let some v := s.supPoisoned va.toNat 256 then s.trapThread a .uncorrectable { FaultInfo.none with addr := v.setWidth 64 }
  else
    let size := numAt (s.imageRead va.toNat 256) 0x18 4
    if size < 0x1100 ∨ 2 ^ 24 < size ∨ !s.supMapped va.toNat size false then fin s 4
    else if away size then ask size
    else if let some v := s.supPoisoned va.toNat size then s.trapThread a .uncorrectable { FaultInfo.none with addr := v.setWidth 64 }
    else
      let im := s.imageRead va.toNat size
      match s.unit (imageUnit im) with
      | none => fin s 4
      | some x =>
        let cores := if x.kind = .csq then [] else placeCores w x.cores.length
        let st := s.restoreStatus x im (bitsOf w 0 3) (bitsOf w 3 2) cores
        let t := fin s (BitVec.ofNat 64 st)
        if st = 0 then t.restoreUnit x im (bitsOf w 0 3) (bitsOf w 3 2) cores else t

/-- CTXLD (R301). -/
def execCtxld (b a d : BitVec 7) (s : State) : Out :=
  guard (gNeed .sup [d, a, b]) s fun s =>
    let va := (s.me.g7 a).extractLsb' 0 56
    let w := s.me.g7 b
    if bitsOf w 5 3 ≠ 0 then .next (takeTrap s .illegalField)
    else .next (s.loadImage s.me d.toNat va w 0 fun s x => s.finishG d x true)

/-- Bytes that a waiting CTXLD has asked peers for have come; with the last it goes on. -/
def State.imageArrived (s : State) (w : Who) : State :=
  match s.agent w with
  | none => s
  | some a =>
    match a.wait with
    | .ctxld d va place upto =>
      if s.requests.any fun r => r.who == some w && r.opc == 1 then s
      else s.loadImage a d va place upto fun s x => s.setAgent (a.wake d x)
    | _ => s

end Sys2Proof.Machine
end

