-- ==== Sys2Proof/Machine/Recover.lean ====
section
/-!
DEFINITION. Delivery of faults: the record, the fault ring, the policies STOP, KILL and REPLAY, rollback and replay,
and what CR.FACT does (R323 to R331, R343).
-/
namespace Sys2Proof.Machine

/-! The record (R323). -/

/-- PLACE of a record. -/
def Pending.placeField (p : Pending) : Nat :=
  match p.place with
  | none => 0
  | some x => x.die + x.cluster * 2 ^ 3 + x.core * 2 ^ 5 + x.slot * 2 ^ 12 + p.group * 2 ^ 16 + (if p.csq then 2 ^ 23 else 0)

/-- The fault record with a policy; LOST is set when it is written. -/
def recordOf (p : Pending) (policy : Nat) (replayed : Bool) : BitVec 512 :=
  let kind := match p.kind with | .precise => 0 | .postEffect => 1 | .asynchronous => 2
  let flags := (if p.inChain then 1 else 0) + (if p.det then 2 else 0) + (if replayed then 4 else 0) + (if p.throttled then 16 else 0)
  BitVec.ofNat 512 (leNat (leBytes 1 p.cause.code ++ leBytes 1 kind ++ leBytes 2 flags ++ leBytes 1 p.sub
    ++ leBytes 1 (p.lane.getD 0xFF) ++ leBytes 1 p.ctx ++ leBytes 1 policy ++ leBytes 4 p.launch.toNat
    ++ leBytes 4 (p.unit.getD 0xFFFF_FFFF) ++ leBytes 4 p.placeField ++ leBytes 4 p.em.toNat ++ leBytes 4 p.headPc.toNat
    ++ leBytes 4 p.pc.toNat ++ leBytes 8 p.addr.toNat ++ leBytes 8 p.detail.toNat ++ leBytes 8 p.aux.toNat
    ++ leBytes 8 p.time.toNat))

/-! The fault ring (R324). -/

def State.faultRing (s : State) (p : Nat) : Nat := bitsOf (s.devReg (0x850 + p)) 12 44 * 2 ^ 12
/-- Records that a ring holds; a partition without a ring holds none. -/
def State.faultSlots (s : State) (p : Nat) : Nat :=
  let n := bitsOf (s.devReg (0x850 + p)) 0 4
  if 4 ≤ n ∧ n ≤ 12 then 2 ^ n else 0
def State.faultHead (s : State) (p : Nat) : Word := BitVec.ofNat 32 (leNat (s.supRead (s.faultRing p + 4) 4))
def State.faultFull (s : State) (p : Nat) : Bool :=
  decide (s.faultSlots p ≤ ((s.part p).faultTail - s.faultHead p).toNat)

/-- A record enters the ring: its slot, then TAIL with release at `.sys`; halted supervisor threads wake. -/
def State.writeRecord (s : State) (p : Nat) (r : BitVec 512) : State :=
  let q := s.part p
  let tail := q.faultTail + 1
  let r := if q.lostFlag then r ||| BitVec.ofNat 512 (8 * 2 ^ 16) else r
  let s := s.supWrite (s.faultRing p + 64 + 64 * (q.faultTail.toNat % s.faultSlots p)) (leBytes 64 r.toNat)
  let s := (s.supWrite (s.faultRing p) (leBytes 4 tail.toNat)).releaseSys .device
  (s.setPart p { q with faultTail := tail, lostFlag := false }).wakeHalted p

/-- A record goes to its partition: into the ring, behind those that wait, or, with 64 waiting, nowhere. -/
def State.emitRecord (s : State) (p : Nat) (r : BitVec 512) : State :=
  let q := s.part p
  if q.waiting.isEmpty && !s.faultFull p then s.writeRecord p r
  else if q.waiting.length < 64 then s.setPart p { q with waiting := q.waiting ++ [r] }
  else (s.setPart p { q with lost := q.lost + 1, lostFlag := true }).supWrite (s.faultRing p + 8) (leBytes 4 (q.lost + 1).toNat)

/-- FAULT_RING_DRAIN (R324): the oldest record that waits is written once HEAD has advanced. -/
def execFaultRingDrain (p : Nat) (s : State) : Out :=
  let q := s.part p
  match q.waiting with
  | [] => .refused .notDue
  | r :: rest => if s.faultFull p then .refused .notDue else .next ((s.setPart p { q with waiting := rest }).writeRecord p r)

/-! Policies (R326 to R329, R331). -/

/-- A faulted agent's sub-groups stand between chains (R327); one whose wait is not discarded ends its chain when the wait
does. -/
def Agent.between (a : Agent) : Agent := a.undo fun c => c.wait == .none || c.wait.discardable

/-- A faulted agent stands stopped (R327). -/
def Agent.stand (a : Agent) : Agent := { a.between with run := .stopped }

/-- A faulted agent ends: at once, or, where a sub-group still waits for an answer, when that has come. -/
def Agent.land (a : Agent) : Agent := if a.between.waitsNot then a.stopNow else { a.between with run := .running }

/-- A faulted agent takes what its policy gives it. -/
def State.landAgent (s : State) (w : Option Who) (f : Agent → Agent) : State :=
  match w.bind s.agent with
  | some a => if a.run = .faulted then s.setAgent (f a) else s
  | none => s

/-- A launch is to be rolled back (R343): no unit starts, its agents stop. `again` says whether it is replayed. -/
def State.startRollback (s : State) (l : Launch) (again : Bool) : State :=
  let s := s.setLaunch { l with rollback := some again, held := false }
  let s := s.endSaved l.ctx l.id
  s.mapAgents fun a => if a.kind != .sup && ofLaunch l.ctx l.id a.unit then a.cancel else a

/-- A launch that has completed reads FAULTED after all, and its result word too: its graph's end met a conflict (R182, R324,
R333), or its run's delivery a fault. -/
def State.faultComplete (s : State) (l : Launch) : State :=
  let l := { l with faulted := true }
  (s.setLaunch l).reportRes l

/-- Such a launch meets a policy of KILL: its graph and phase read FAULTED, and the run that it is of ends without delivery (R270,
R328, R334). -/
def State.killComplete (s : State) (l : Launch) : State :=
  let t := (s.faultComplete { l with stopping := true }).faultGraph l
  match l.run with
  | some id => t.settleRun l.ctx id
  | none => t

/-- A policy's effect on the launch and on the faulting agent (R327 to R329). -/
def State.applyPolicy (s : State) (p : Pending) (l : Launch) (policy : Nat) : State :=
  match policy with
  | 0 => if l.complete then s.faultComplete l else (s.setLaunch { l with faulted := true }).landAgent p.who Agent.stand
  | 1 => if l.complete then s.killComplete l else (s.killLaunch l).landAgent p.who Agent.land
  | 2 => (s.startRollback { l with faulted := true } true).landAgent p.who Agent.land
  | _ => s.landAgent p.who Agent.land

/-- Whether the cycle of a deterministic block in which a fault arose has passed, so that no record of it can come to stand before
this one (R325). -/
def State.recordSettled (s : State) (p : Pending) : Bool :=
  p.cycle.isNone || !(p.unit.any fun i => s.units.any fun u => u.key == ⟨p.ctx, p.launch, i⟩ && !u.ended)

/-- FAULT_RECORD_DELIVER (R324): the oldest fault's policy is applied and its record goes to the ring. A fault of no
launch is a host-side fault, and has none. -/
def execFaultRecordDeliver (s : State) : Out :=
  match s.pending with
  | [] => .refused .notDue
  | p :: rest =>
    let part := s.partOf p.ctx
    if !s.recordSettled p then .refused .notDue
    else
    let s := { s with pending := rest }
    match s.launch p.ctx p.launch with
    | none => .next ((s.landAgent p.who Agent.land).emitRecord part (recordOf p (p.policy.getD 3) false))
    | some l =>
      let policy := p.policy.getD (s.policyFor l p.unit p.cause)
      let t := if p.policy.isSome then s.landAgent p.who Agent.land else s.applyPolicy p l policy
      .next (t.emitRecord part (recordOf p policy (decide (0 < l.replays))))

/-! Rollback (R343). -/

/-- The causes of Table 1. -/
def allCauses : List Cause :=
  [.illegalOpcode, .illegalField, .illegalRegister, .latchChain, .quota, .wrongUnit, .privileged, .illegalScope, .pcAlign,
   .zeroHalfword, .splitDepth, .breakpoint, .pipeResidue, .pipeParity, .range, .align, .genStore, .tensorRecord, .tensorId,
   .tensorExtent, .spillOverflow, .genOff, .pageNotPresent, .permission, .asid, .pteContention, .replicaLockTimeout,
   .pteFormat, .deadlineMissed, .timedInDet, .timeUndisciplined, .barrierHandle, .barrierOvercount, .copyFault, .queueEntry,
   .mxOperand, .dceParam, .ticketUnknown, .ticketVersionRetired, .shelfFull, .updateParam, .mergeConflict, .detViolation,
   .routeTurn, .routePort, .hopLimit, .linkDown, .uncorrectable, .digestMismatch, .thermal, .partition, .hsem, .contextBusy]
  ++ (List.range 16).map fun n => .software (BitVec.ofNat 4 n)

/-- A cause that the specification leaves open (DEDUCED, log entry 34). -/
def State.openCause (s : State) : Cause := allCauses.getD (s.freeWord.toNat % allCauses.length) .uncorrectable

/-- A launch is killed with a record of policy 1. -/
def State.killWith (s : State) (l : Launch) (c : Cause) : State :=
  let t := s.killLaunch l
  { t with pending := t.pending ++
      [{ cause := c, kind := .asynchronous, sub := 0, lane := none, ctx := l.ctx, launch := l.id, unit := none, who := none,
         place := none, group := 0, csq := false, em := 0, headPc := 0, pc := 0, inChain := false, det := l.det, addr := 0,
         detail := 0, aux := 0, throttled := false, time := (t.die (l.dies.headD 0)).time, engine := 0, cycle := none,
         policy := some 1 }] }

/-- The pages of a snapshot stand again as they were copied, and hosts are sent the snoops of their lines (R289). -/
def State.restorePages (s : State) (r : Replay) : State :=
  let pages := r.copies.map fun c => c.1
  let kept := s.mem.filter fun c => !pages.contains (c.1 / 2 ^ 16)
  let t : State := { s with mem := Memory.writeAll kept (r.copies.flatMap fun (c : Nat × Memory) => c.2),
                            poison := (s.poison.filter fun q => !pages.contains (q / 2 ^ 12)) ++ r.poison }
  t.snoop fun m => pages.contains (m.1 / 2 ^ 10)

/-- Other incomplete launches that wrote a restored page are killed (step 6). -/
def State.killWriters (s : State) (l : Launch) (pages : List Nat) : State :=
  let c := s.openCause
  (s.launches.filter fun k => k.age != l.age && !k.complete && k.wrote.any pages.contains).foldl
    (fun (s : State) (k : Launch) => match s.launch k.ctx k.id with | some k => s.killWith k c | none => s) s.useFree

/-- A launch's publications that have not taken effect are gone. -/
def Context.forgetPubs (c : Context) (id : Word) : Context :=
  { c with waitPub := c.waitPub.filter fun x => x.launch != id, heldPub := c.heldPub.filter fun x => x.2 != id }

/-- What a context keeps of a launch outside memory goes back: its commits to versions, and its publications. -/
def Context.forgetLaunch (c : Context) (id : Word) : Context :=
  { c.forgetPubs id with committed := c.committed.filter fun x => x.launch != id }

/-- A launch as it was accepted: none of its units has started (R343). -/
def Launch.again (l : Launch) : Launch :=
  { l with next := 0, bound := if l.run.isSome then l.bound else none, shift := 0, templates := [], stopping := false,
           passed := [], blocking := false, replay := none, rollback := none, merged := false, result := [], contribs := [],
           merges := [], wrote := [] }

/-- Steps 3 to 6 of a rollback. With `again` the launch is accepted anew and counts as replayed; else it stands
pending. -/
def State.rollback (s : State) (l : Launch) (again : Bool) : State :=
  let r := l.replay.getD ⟨[], [], []⟩
  let s := s.restorePages r
  let s := s.setContext l.ctx ((s.context l.ctx).forgetLaunch l.id)
  let s := { s with units := s.units.filter fun u => !ofLaunch l.ctx l.id u.key }
  let l' := l.again
  (s.setLaunch (if again then { l' with replays := l.replays + 1 } else { l' with held := true })).killWriters l
    (r.copies.map fun c => c.1)

/-! Waits at CR.FACT (R330). -/

/-- A value with bits set, cleared or replaced: CSRW, CSRS and CSRC by 1 to 3. -/
def csrNew (op : Nat) (old arg : DWord) : DWord := if op = 1 then arg else if op = 2 then old ||| arg else old &&& ~~~arg

/-- The destination of a wait at a write of CR.FACT with an action on a launch. -/
def Wait.fact (w : Wait) (ctx : Nat) (id : Word) (action : Nat) : Option Nat :=
  match w with
  | .csr d sel op arg =>
    let x := csrNew op 0 arg
    if bitsOf sel 0 12 = 0x012 ∧ bitsOf sel 12 6 = ctx ∧ x.extractLsb' 0 32 = id ∧ bitsOf x 32 2 = action then some d else Option.none
  | _ => Option.none

/-- The thread that waits at a write of CR.FACT, and its destination. -/
def State.factWaiter (s : State) (ctx : Nat) (id : Word) (action : Nat) : Option (Agent × Nat) :=
  s.allAgents.findSome? fun a => (a.wait.fact ctx id action).map fun d => (a, d)

/-- Supervisor threads that wait for a rollback of a launch go on: SNAPC, and, where the launch is replayed with it, the write of
CR.FACT with REPLAY. -/
def State.wakeRollback (s : State) (ctx : Nat) (id : Word) (again : Bool) : State :=
  s.mapAgents fun a =>
    match a.wait with
    | .snapc d c i => if c = ctx ∧ i = id then a.wake d 0 else a
    | w => match (w.fact ctx id 2).filter fun _ => again with | some d => a.wake d 0 | none => a

/-- Whether a SNAPC waits for a launch. -/
def State.snapcWaits (s : State) (ctx : Nat) (id : Word) : Bool :=
  s.allAgents.any fun a => match a.wait with | .snapc _ c i => c == ctx && i == id | _ => false

/-- ROLLBACK (R343): its units have ended and its commands have counted. A SNAPC whose launch was cancelled meanwhile
has nothing left to wait for. -/
def execRollback (ctx : Nat) (id : Word) (s : State) : Out :=
  match s.launch ctx id with
  | none => .refused .notDue
  | some l =>
    match l.rollback with
    | none => if s.snapcWaits ctx id then .next (s.wakeRollback ctx id false) else .refused .notDue
    | some again =>
      if (s.unitsOf ctx id).all (fun u => u.ended) && !s.busyFor ctx id && !l.complete then
        .next ((s.rollback l again).wakeRollback ctx id again)
      else .refused .notDue

/-! CR.FACT (R330). -/

/-- The launch that an action names, while it is incomplete. -/
def State.factLaunch (s : State) (ctx : Nat) (id : Word) : Option Launch := (s.launch ctx id).filter fun l => !l.complete

/-- FACT_NONE: no effect. -/
def execFactNone (ctx : Nat) (id : Word) (s : State) : Out :=
  match s.factWaiter ctx id 0 with
  | none => .refused .notDue
  | some (a, d) => .next (s.setAgent (a.wake d 0))

/-- KILL of a launch that a thread waits for: it is killed, and the write completes once the launch has. -/
def State.factKill (s : State) (a : Agent) (d : Nat) (l : Option Launch) : Out :=
  match l with
  | none => .next (s.setAgent (a.wake d 0))
  | some l => if l.stopping then .refused .notDue else .next (s.killLaunch { l with rollback := none })

/-- FACT_KILL (R328, R330). -/
def execFactKill (ctx : Nat) (id : Word) (s : State) : Out :=
  match s.factWaiter ctx id 1 with
  | none => .refused .notDue
  | some (a, d) => s.factKill a d (s.factLaunch ctx id)

/-- FACT_REPLAY (R329, R330, R345): a launch that stands pending after a rollback is replayed at once; another is
rolled back first, and the write completes with the rollback; one that cannot be replayed, or has been twice, is killed. -/
def execFactReplay (ctx : Nat) (id : Word) (s : State) : Out :=
  match s.factWaiter ctx id 2 with
  | none => .refused .notDue
  | some (a, d) =>
    match s.factLaunch ctx id with
    | none => .next (s.setAgent (a.wake d 0))
    | some l =>
      if l.rollback.isSome then .refused .notDue
      else if l.held && decide (l.replays < 2) then .next ((s.setLaunch { l with held := false, replays := l.replays + 1 }).setAgent (a.wake d 0))
      else if !l.stopping && l.replay.isSome && decide (l.replays < 2) then .next (s.startRollback l true)
      else s.factKill a d (some l)

/-- FACT_RESUME (R327, R330): the launch's stopped groups go on at their resume points. -/
def execFactResume (ctx : Nat) (id : Word) (s : State) : Out :=
  match s.factWaiter ctx id 3 with
  | none => .refused .notDue
  | some (a, d) =>
    let s := s.setAgent (a.wake d 0)
    match s.factLaunch ctx id with
    | none => .next s
    | some _ =>
      .next (s.mapAgents fun b =>
        if b.kind != .sup && ofLaunch ctx id b.unit && b.run == .stopped then { b with run := .running } else b)

end Sys2Proof.Machine
end

