-- ==== Sys2Proof/Machine/System.lean ====
section
/-!
DEFINITION. The control registers and the system instructions of majors 0x70 to 0x73, with the steps in which a change
of context takes effect (R281 to R285, R309, R315, R317, R326, R330, R345, R358, R359).
-/
namespace Sys2Proof.Machine

/-! Control registers (R282). -/

/-- What a register belongs to. -/
inductive CsrScope where
  | context | device | thread
deriving DecidableEq, Repr

/-- The scope of a register number; `none` for one that is not allocated. -/
def csrScope (n : Nat) : Option CsrScope :=
  if n ≤ 0x015 then some .context
  else if 0x400 ≤ n ∧ n ≤ 0x402 then some .thread
  else if (0x800 ≤ n ∧ n ≤ 0x848) ∨ (0x850 ≤ n ∧ n ≤ 0x871) ∨ (0x880 ≤ n ∧ n ≤ 0x884) ∨ (0x888 ≤ n ∧ n ≤ 0x897) then some .device
  else none

/-- Whether a register is of level M. -/
def csrFirmware (n : Nat) : Bool := (decide (0x800 ≤ n) && decide (n ≤ 0x848)) || n == 0x871

/-- Whether a register is read-only: a write keeps its value. -/
def csrReadOnly (n : Nat) : Bool :=
  (decide (0x858 ≤ n) && decide (n ≤ 0x871)) || n == 0x883 || n == 0x884 || (decide (0x888 ≤ n) && decide (n ≤ 0x88F))

def selNumber (x : DWord) : Nat := bitsOf x 0 12
def selContext (x : DWord) : Nat := bitsOf x 12 6

/-- The trap of a selector (R278, R282). -/
def selectorCause (x : DWord) : Option Cause :=
  match csrScope (selNumber x) with
  | none => some .illegalField
  | some c =>
    if bitsOf x 18 46 ≠ 0 ∨ (c ≠ .context ∧ selContext x ≠ 0) then some .illegalField
    else if csrFirmware (selNumber x) then some .privileged
    else none

/-- LINKST: each port's LS. -/
def State.linkst (s : State) : DWord :=
  BitVec.ofNat 64 (((List.range 12).map fun k => (Store.get Port.fresh s.ports k).ls.toNat * 2 ^ (2 * k)).sum)

/-- TSTAT of a die. -/
def Die.tstat (d : Die) : DWord := d.offset ++ (if d.disciplined then (1 : Word) else 0)

/-- The bits of a register's fields: every other bit is reserved, reads 0 and ignores writes (R3, R282, R287; Table 4 of R326, Table 1
of R345, Table 7 of R318, R363). A register whose fields the tables give no bits for has all of them (DEDUCED, log entry
72). -/
def csrMask (n : Nat) : DWord :=
  if n = 0x004 ∨ n = 0x848 then 1
  else if n = 0x008 then 0xFFFF_FFFF
  else if n = 0x871 then 0x00FF_FFFF_FFFF_F001
  else if n = 0x00A ∨ n = 0x00C ∨ n = 0x00F ∨ (0x013 ≤ n ∧ n ≤ 0x015) ∨ (0x850 ≤ n ∧ n ≤ 0x857) ∨ n = 0x880 ∨ n = 0x881
      ∨ (0x890 ≤ n ∧ n ≤ 0x897) then 0x00FF_FFFF_FFFF_FFFF
  else 0xFFFF_FFFF_FFFF_FFFF

/-- A control register's value before its reserved bits read 0; FACT reads 0, and the grandmaster's EPSFAB sums over no hop. -/
def State.csrValue (s : State) (x : DWord) : DWord :=
  let n := selNumber x
  match n with
  | 0x012 => 0
  | 0x400 => s.me.sepc
  | 0x401 => s.me.scause
  | 0x402 => s.me.stvec
  | 0x883 => if (s.devReg 0x882).getLsbD 4 then BitVec.ofNat 64 (2 ^ 32) else s.devReg 0x883
  | 0x884 => s.linkst
  | _ =>
    if 0x888 ≤ n ∧ n ≤ 0x88F then (s.die (n - 0x888)).tstat
    else if n ≤ 0x015 then s.ctxReg (selContext x) n
    else s.devReg n

/-- A control register's value. -/
def State.csrRead (s : State) (x : DWord) : DWord := s.csrValue x &&& csrMask (selNumber x)

/-- The class masks of ACCMAP. -/
def accMask (x : DWord) (c : Nat) : Nat := bitsOf x (16 * c) 16

/-- Whether two class masks overlap. -/
def accOverlap (x : DWord) : Bool :=
  (List.range 16).any fun t => decide (1 < ((List.range 4).filter fun c => (accMask x c).testBit t).length)

/-- Whether FPOL's policies are allowed (Table 3 of R326). -/
def fpolOk (x : DWord) : Bool :=
  bitsOf x 24 40 == 0 && (List.range 12).all fun k =>
    let p := bitsOf x (2 * k) 2
    p != 3 && (p != 2 || k == 1 || k == 9)

/-- Whether a value sets an MBZ bit of its register or breaks a field's range (R283). -/
def csrIllegal (n : Nat) (x : DWord) : Bool :=
  if n = 0x000 then bitsOf x 8 56 != 0
  else if n = 0x001 then bitsOf x 16 48 != 0
  else if n = 0x002 then bitsOf x 0 20 != 0 || bitsOf x 52 12 != 0
  else if n = 0x003 then bitsOf x 32 32 != 0
  else if n = 0x005 then accOverlap x
  else if n = 0x006 then bitsOf x 3 61 != 0
  else if n = 0x00C then bitsOf x 0 6 != 0
  else if n = 0x00D then decide (2 ^ 26 < x.toNat)
  else if n = 0x00F then bitsOf x 0 7 == 0 || decide (16 < bitsOf x 0 7)
  else if n = 0x010 then bitsOf x 0 6 != 0
  else if n = 0x011 then !fpolOk x
  else if n = 0x012 then bitsOf x 34 30 != 0
  else if n = 0x013 then bitsOf x 0 16 == 0
  else if 0x850 ≤ n ∧ n ≤ 0x857 then bitsOf x 4 8 != 0 || decide (bitsOf x 0 4 < 4) || decide (12 < bitsOf x 0 4)
  else if n = 0x880 ∨ n = 0x881 ∨ (0x890 ≤ n ∧ n ≤ 0x897) then bitsOf x 0 12 != 0
  else if n = 0x882 then
    decide (11 < bitsOf x 0 4) || bitsOf x 7 9 != 0 || bitsOf x 16 10 == 0 || decide (1000 < bitsOf x 16 10) || bitsOf x 26 38 != 0
  else false

/-- Whether a context is valid. -/
def State.ctxValid (s : State) (c : Nat) : Bool := (s.ctxReg c 0x000).getLsbD 0

/-- Whether another valid context has an ASID (R309). -/
def State.asidTaken (s : State) (c : Nat) (asid : Half) : Bool :=
  (List.range 64).any fun k => k != c && s.ctxValid k && s.asidOf k == asid

/-- Whether a write would give an ASID to a second valid context. -/
def State.asidClash (s : State) (c n : Nat) (old new : DWord) : Bool :=
  (n == 0x001 && s.ctxValid c && s.asidTaken c (new.extractLsb' 0 16))
    || (n == 0x000 && !old.getLsbD 0 && new.getLsbD 0 && s.asidTaken c (s.asidOf c))

/-- Whether a context has an incomplete launch. -/
def State.ctxBusy (s : State) (c : Nat) : Bool := s.launches.any fun l => l.ctx == c && !l.complete

/-- Whether a write changes what an incomplete launch relies on (R283). -/
def State.busyChange (s : State) (c n : Nat) (old new : DWord) : Bool :=
  s.ctxBusy c && ((decide (old ≠ new) && (n == 0x001 || n == 0x002 || n == 0x005 || n == 0x006))
    || (n == 0x000 && (bitsOf old 2 2 != bitsOf new 2 2 || bitsOf old 4 3 != bitsOf new 4 3)))

/-- The trap of a write (R283, R309). -/
def State.csrTrap (s : State) (x old new : DWord) : Option Cause :=
  let n := selNumber x
  let c := selContext x
  if csrReadOnly n then none
  else if csrIllegal n new || s.asidClash c n old new then some .illegalField
  else if s.busyChange c n old new then some .contextBusy
  else none

/-- Whether a write completes in a later step. -/
def csrWaits (n : Nat) (old new : DWord) : Bool :=
  (n == 0x000 && old.getLsbD 0 != new.getLsbD 0) || n == 0x001 || n == 0x002 || n == 0x012 || n == 0x880 || n == 0x881

/-- The class that a tile has in a map; 4 for none. -/
def tileClass (x : DWord) (t : Nat) : Nat := ((List.range 4).find? fun c => (accMask x c).testBit t).getD 4

/-- The tiles that `p` names are zeroed on every cluster of the dies of a mask (R285). -/
def State.zeroTilesOn (s : State) (mask : Byte) (p : Nat → Bool) : State :=
  ((List.range 8).filter fun d => mask.getLsbD d).foldl (fun (s : State) d => (List.range 4).foldl (fun (s : State) k =>
    let x := s.cluster d k
    s.setCluster d k { x with acc := x.acc.filter fun e => !p (e.1 / 16384) }) s) s

/-- Tiles whose class changes are zeroed on every cluster of the partition (R285). -/
def State.zeroTiles (s : State) (c : Nat) (old new : DWord) : State :=
  s.zeroTilesOn (s.partDies (s.partOf c)) fun t => tileClass old t != tileClass new t

/-- A context that moves between partitions leaves and finds its tiles zeroed on the dies that only one of them has
(R285). -/
def State.moveTiles (s : State) (c : Nat) (old new : DWord) : State :=
  let acc := s.ctxReg c 0x005
  s.zeroTilesOn (s.partDies (bitsOf old 4 3) ^^^ s.partDies (bitsOf new 4 3)) fun t => tileClass acc t != 4

/-- A register takes a value. -/
def State.setCtxReg (s : State) (c n : Nat) (x : DWord) : State :=
  { s with cr := Store.set 0 s.cr (c * 4096 + n) (x &&& csrMask n) }
def State.setDevReg (s : State) (n : Nat) (x : DWord) : State :=
  { s with cr := Store.set 0 s.cr (64 * 4096 + n) (x &&& csrMask n) }

/-! The package master (R362 to R364). -/

def State.tmcfg (s : State) : DWord := s.devReg 0x882

/-- Whether this device is the root of the tree and takes its time from nowhere. -/
def State.isRoot (s : State) : Bool := s.tmcfg.getLsbD 4 && !s.tmcfg.getLsbD 5

/-- Whether the package master counts as disciplined. -/
def State.masterOk (s : State) : Bool := s.isRoot || (s.die 8).disciplined

/-- When the package master is undisciplined, every die is (R364). -/
def State.followMaster (s : State) : State :=
  if s.masterOk then s
  else (List.range 8).foldl (fun (s : State) d => s.setDie d { s.die d with disciplined := false }) s

/-- A write that takes effect at once. -/
def State.csrWrite (s : State) (x old new : DWord) : State :=
  let n := selNumber x
  let c := selContext x
  if csrReadOnly n then s
  else if n = 0x400 then { s with me := { s.me with sepc := new } }
  else if n = 0x401 then { s with me := { s.me with scause := new } }
  else if n = 0x402 then { s with me := { s.me with stvec := new } }
  else if n = 0x000 then (s.moveTiles c old new).setCtxReg c n new
  else if n = 0x005 then (s.zeroTiles c old new).setCtxReg c n new
  else if n ≤ 0x015 then s.setCtxReg c n new
  else (s.setDevReg n new).followMaster

/-- CSRR (R283). -/
def execCsrr (a d : BitVec 7) (s : State) : Out :=
  guard (gNeed .sup [d, a]) s fun s =>
    let x := s.me.g7 a
    match selectorCause x with
    | some c => .next (takeTrap s c)
    | none => .next (s.finishG d (s.csrRead x) true)

/-- CSRW, CSRS and CSRC, by 1 to 3 (R283). -/
def csrForm (op : Nat) (b a d : BitVec 7) (s : State) : Out :=
  guard (gNeed .sup [d, a, b]) s fun s =>
    let x := s.me.g7 a
    match selectorCause x with
    | some c => .next (takeTrap s c)
    | none =>
      let old := s.csrRead x
      let arg := s.me.g7 b
      let new := csrNew op old arg
      match s.csrTrap x old new with
      | some c => .next (takeTrap s c)
      | none =>
        if csrWaits (selNumber x) old new then .next { s with me := s.me.setWait (.csr d.toNat x op arg) }
        else .next ((s.csrWrite x old new).finishG d old true)

/-- CSRW (R283). -/
def execCsrw (b a d : BitVec 7) (s : State) : Out := csrForm 1 b a d s
/-- CSRS (R283). -/
def execCsrs (b a d : BitVec 7) (s : State) : Out := csrForm 2 b a d s
/-- CSRC (R283). -/
def execCsrc (b a d : BitVec 7) (s : State) : Out := csrForm 3 b a d s

/-! Writes that take time. -/

/-- The thread that waits at a write of a register, its destination, and the old and the new value as they stand now. -/
def State.csrWaiter (s : State) (c n : Nat) : Option (Agent × Nat × DWord × DWord) :=
  s.allAgents.findSome? fun a =>
    match a.wait with
    | .csr d x op arg =>
      if selNumber x = n ∧ selContext x = c then
        let old := s.csrRead x
        some (a, d, old, csrNew op old arg)
      else Option.none
    | _ => Option.none

/-- A trap of a supervisor thread that has waited. -/
def State.trapWaiter (s : State) (a : Agent) (c : Cause) : State := s.trapThread a c .none

/-- An xt register that covers nothing. -/
def Xt.drop (x : Xt) : Xt := { x with limit := 0 }

/-- The xt registers of an agent that `p` holds for lose their limit, those that its chains hold too. -/
def Agent.dropXt (a : Agent) (p : Xt → Bool) : Agent :=
  { a with
    xt := a.xt.foldl (fun m e => Store.set Xt.zero m e.1 (if p e.2 then e.2.drop else e.2)) a.xt,
    heldG := a.heldG.map fun h =>
      match h.write with
      | .xt r x => if p x then { h with write := .xt r x.drop } else h
      | _ => h }

/-- Translations of an ASID for which `p` holds are dropped on every die. A walk that has read its leaf is discarded with
them, as if it had not begun: the access that missed walks again (R315). -/
def State.dropTlb (s : State) (asid : Half) (p : TlbEntry → Bool) : State :=
  (List.range 9).foldl (fun (s : State) d =>
    let x := s.die d
    s.setDie d { x with
      tlb := x.tlb.filter fun t => !(t.asid == asid && p t),
      walks := x.walks.filter fun w =>
        !(w.granted && s.walkAsid w.ctx == asid && p ⟨false, asid, pageBase w.level w.va, w.level, w.leaf⟩),
      contended := x.contended.filter fun w =>
        !(s.walkAsid w.ctx == asid && p ⟨false, asid, pageBase w.level w.va, w.level, w.leaf⟩) }) s

/-- The copy of an xt register that a queued row command holds. -/
def CopyCmd.dropXt (c : CopyCmd) (q : Xt → Bool) : CopyCmd :=
  match c.work with
  | .rows g d em offs lbase rowb xt => if q xt then { c with work := .rows g d em offs lbase rowb xt.drop } else c
  | _ => c

/-- The xt registers for which `q` holds lose their limit: those of the agents that `mine` names, and the copies that queued
commands of the contexts that `ctx` names hold (R97). -/
def State.dropXts (s : State) (mine : Agent → Bool) (ctx : Nat → Bool) (q : Xt → Bool) : State :=
  { s.mapAgents fun a => if mine a then a.dropXt q else a with
    dies := s.dies.map fun d => (d.1, { d.2 with copyQ := d.2.copyQ.map fun c => if ctx c.unit.ctx then c.dropXt q else c }) }

/-- Translations of an ASID for which `p` holds are dropped on every die, and so are the xt registers under it for which `q`
holds. -/
def State.dropTranslations (s : State) (asid : Half) (p : TlbEntry → Bool) (q : Xt → Bool) : State :=
  (s.dropTlb asid p).dropXts (fun a => s.agentAsid a == asid) (fun c => s.asidOf c == asid) q

/-- CONTEXT_CREATE (R281): the context starts empty; its ASID must be its own (DEDUCED, log entry 46 for the model table).
Its tiles of before are zeroed, since its ACCMAP becomes 0 (R285). -/
def execContextCreate (ctx : Nat) (cfg : DWord) (s : State) : Out :=
  match s.csrWaiter ctx 0x000 with
  | none => .refused .notDue
  | some (a, d, old, new) =>
    if new ≠ cfg ∨ old.getLsbD 0 ∨ !new.getLsbD 0 ∨ 64 ≤ ctx then .refused .notDue
    else if s.asidTaken ctx (s.asidOf ctx) then .next (s.trapWaiter a .illegalField)
    else
      let s := if s.ctxReg ctx 0x00B = 0 then s
        else s.ctxWrite ctx ((s.ctxReg ctx 0x00B).toNat % 2 ^ 56) (List.replicate 32768 0)
      let s := (s.zeroTilesOn (s.partDies (bitsOf old 4 3) ||| s.partDies (bitsOf new 4 3)) fun t =>
        tileClass (s.ctxReg ctx 0x005) t != 4).setContext ctx Context.fresh
      let s : State := { s with launches := s.launches.filter fun l => l.ctx != ctx, graphs := s.graphs.filter fun g => g.ctx != ctx,
                                phases := s.phases.filter fun p => p.ctx != ctx, units := s.units.filter fun u => u.key.ctx != ctx }
      let s := (((s.setCtxReg ctx 0x005 0).setCtxReg ctx 0x00D 0).setCtxReg ctx 0x011 0x0019_5559).setCtxReg ctx 0x000 new
      .next (s.setAgent (a.wake d old))

/-- CONTEXT_END (R281): every launch of the context is cancelled, and the write completes once they have completed. A write that
has waited behind another and now changes VALID no longer is one of the other fields (R283). -/
def execContextEnd (ctx : Nat) (s : State) : Out :=
  match s.csrWaiter ctx 0x000 with
  | none => .refused .notDue
  | some (a, d, old, new) =>
    if old.getLsbD 0 = new.getLsbD 0 then
      .next (match s.csrTrap (BitVec.ofNat 64 (ctx * 4096)) old new with
        | some c => s.trapWaiter a c
        | none => ((s.moveTiles ctx old new).setCtxReg ctx 0x000 new).setAgent (a.wake d old))
    else if new.getLsbD 0 then .refused .notDue
    else if !s.ctxBusy ctx then .next ((s.setCtxReg ctx 0x000 new).setAgent (a.wake d old))
    else
      let ls := s.launches.filter fun l => l.ctx == ctx && !l.complete && !l.stopping
      if ls.isEmpty then .refused .notDue else .next (s.cancelAll ls)

/-- ASID_CHANGE (R309): a write of CR.ASID or CR.PTROOT drops the translations of the old ASID and the limits of the
context's xt registers. The conditions of R283 and R309 hold when it takes effect. -/
def execAsidChange (ctx : Nat) (asid : Bool) (value : DWord) (s : State) : Out :=
  let n := if asid then 0x001 else 0x002
  match s.csrWaiter ctx n with
  | none => .refused .notDue
  | some (a, d, old, new) =>
    if new ≠ value then .refused .notDue
    else if s.asidClash ctx n old new then .next (s.trapWaiter a .illegalField)
    else if s.busyChange ctx n old new then .next (s.trapWaiter a .contextBusy)
    else
      let s := (s.dropTlb (s.asidOf ctx) fun _ => true).dropXts (fun a => a.kind != .sup && a.ctx == ctx) (fun c => c == ctx)
        fun _ => true
      .next ((s.setCtxReg ctx n new).setAgent (a.wake d old))

/-- The map and the routes as they stand in memory now (R359). -/
def State.reloadMap (s : State) : State :=
  let va := bitsOf (s.devReg 0x880) 12 44 * 2 ^ 12
  let n := numAt (s.supRead va 64) 0 2
  { s with topo := s.supRead va (64 + 528 * n), routes := s.supRead (bitsOf (s.devReg 0x881) 12 44 * 2 ^ 12) (128 * n) }

/-- Whether a store that has passed its route check has not been sent yet: it is sent before the checks change (R358). -/
def State.storesToPeers (s : State) : Bool :=
  s.allAgents.any fun a => a.storeQ.any fun e => e.cells.any fun c => isPeerKey c.1

/-- A write of TOPO or ROUTES completes: every die checks against the map as it now stands in memory. -/
def State.mapReload (s : State) (n : Nat) (value : DWord) : Out :=
  match s.csrWaiter 0 n with
  | none => .refused .notDue
  | some (a, d, old, new) =>
    if new ≠ value ∨ s.storesToPeers then .refused .notDue
    else .next ((s.setDevReg n new).reloadMap.setAgent (a.wake d old))

/-- TOPO_RELOAD (R356, R359). -/
def execTopoReload (value : DWord) (s : State) : Out := s.mapReload 0x880 value

/-- ROUTES_RELOAD (R357, R359). -/
def execRoutesReload (value : DWord) (s : State) : Out := s.mapReload 0x881 value

/-! Translations (R284, R315, R317). -/

/-- Whether two ranges of bytes meet. -/
def rangesMeet (a n b m : Nat) : Bool := decide (0 < n) && decide (0 < m) && decide (a < b + m) && decide (b < a + n)

/-- The root table of an ASID. -/
def State.rootOfAsid (s : State) (asid : Half) : Option DWord :=
  match (List.range 64).find? fun c => s.ctxValid c && s.asidOf c == asid with
  | some c => some (s.rootOf c)
  | none => if s.supAsid = asid then some s.supRoot else none

/-- What an invalidation waits for before anything is dropped (R315): the thread's own earlier stores at `.sys`, and accesses
already translated that have not performed: other supervisor threads' stores, and requests to peers for the VAs that `p`
names. -/
def State.invalidates (s : State) (p : Nat → Bool) (k : State → Out) : Out :=
  s.drained fun s =>
    if s.peerWrites s.me.who || (s.agents.any fun a => a.kind == .sup && !a.storeQ.isEmpty)
        || (s.requests.any fun r => isPeerKey r.key && p (peerVa r.key).toNat) then .next s
    else k (s.releaseSys .device)

/-- The xt registers under an ASID, those that chains and queued row commands hold too. -/
def State.xtsOf (s : State) (asid : Half) : List Xt :=
  ((s.allAgents.filter fun a => s.agentAsid a == asid).flatMap fun a => a.xt.map Prod.snd ++ a.heldG.filterMap fun h =>
    match h.write with | .xt _ x => some x | _ => none)
    ++ (List.range 9).flatMap fun d => (s.die d).copyQ.filterMap fun c =>
      match c.work with | .rows _ _ _ _ _ _ xt => if s.asidOf c.unit.ctx = asid then some xt else none | _ => none

/-- The pages that hold a VA of an ASID, each with its size: as the dies have them cached, as the xt registers were translated
through them, and as the page table has it. -/
def State.pagesAt (s : State) (asid : Half) (va : Nat) : List (Nat × Nat) :=
  let xts := (s.xtsOf asid).filter fun x => x.limit != 0 && x.vbase.toNat / pageSize x.level == va / pageSize x.level
  let levels := 0 :: (xts.map Xt.level) ++ ((List.range 9).flatMap fun d =>
    ((s.die d).tlb.filter fun t => !t.ptr && t.asid == asid && t.base.toNat / pageSize t.level == va / pageSize t.level).map
      fun t => t.level) ++
    (match (s.rootOfAsid asid).bind fun root => (walkFrom s.mem s.poison (BitVec.ofNat 56 va) 3 root.toNat).toOption with
     | some f => [f.level]
     | none => [])
  levels.map fun l => (va / pageSize l * pageSize l, pageSize l)

/-- TLBI (R284, R315): the translations and the xt registers that cover the page of a VA. -/
def execTlbi (b a : BitVec 7) (s : State) : Out :=
  guard (gNeed .sup [a, b]) s fun s =>
    let asid := (s.me.g7 a).extractLsb' 0 16
    let va := bitsOf (s.me.g7 b) 0 56
    let pages := s.pagesAt asid va
    s.invalidates (fun v => pages.any fun p => decide (p.1 ≤ v) && decide (v < p.1 + p.2)) fun s =>
      .next ((s.dropTranslations asid (fun t => t.base.toNat / pageSize t.level == va / pageSize t.level) fun x =>
        pages.any fun p => rangesMeet p.1 p.2 x.vbase.toNat x.limit.toNat).finish true)

/-- The ASIDs that the device's agents and translations have. -/
def State.asids (s : State) : List Half :=
  (s.supAsid :: (List.range 64).map s.asidOf) ++ (List.range 9).flatMap fun d => (s.die d).tlb.map fun t => t.asid

/-- TLBIA (R284, R315): every translation of one ASID, or of all. -/
def execTlbia (a : BitVec 7) (s : State) : Out :=
  guard (gNeed .sup [a]) s fun s =>
    let x := s.me.g7 a
    s.invalidates (fun _ => true) fun s =>
      let which := if x.getLsbD 16 then s.asids.eraseDups else [x.extractLsb' 0 16]
      .next ((which.foldl (fun (s : State) i => s.dropTranslations i (fun _ => true) (fun _ => true)) s).finish true)

/-- A die's TLB gives up an entry: how long it keeps one, the specification leaves to it (R312; DESIGN CHOICE, log entry 7). -/
def execTlbEvict (die i : Nat) (s : State) : Out :=
  if i < (s.die die).tlb.length then .next (s.setDie die { s.die die with tlb := (s.die die).tlb.eraseIdx i }) else .refused .notDue

/-- PREFW (R284, R317): a leaf that the die does not have yet joins its TLB, with no A or D bit set. -/
def execPrefw (b a : BitVec 7) (s : State) : Out :=
  guard (gNeed .sup [a, b]) s fun s =>
    let x := s.me.g7 a
    let asid := x.extractLsb' 0 16
    let d := bitsOf x 17 3
    let va := (s.me.g7 b).extractLsb' 0 56
    let found := (s.rootOfAsid asid).bind fun root => (walkFrom s.mem s.poison va 3 root.toNat).toOption
    let s := match found with
      | none => s
      | some f =>
        let t : TlbEntry := ⟨false, asid, pageBase f.level va, f.level, f.leaf⟩
        let die := s.die d
        let known := die.tlb.any fun u => !u.ptr && u.asid == asid && u.level == t.level && u.base == t.base
        if f.leaf.getLsbD 2 && !f.leaf.getLsbD 11 && !known
        then s.setDie d { die with tlb := die.tlb ++ [t] } else s
    .next (s.finish true)

/-! The zero engine (R284, R285). -/

/-- Whether a range of physical addresses can be zeroed. -/
def zeroRangeOk (pa len : Nat) : Bool :=
  pa % 65536 == 0 && len % 65536 == 0
    && (paExists pa len || (decide (2 ^ 40 ≤ pa) && decide (pa + len ≤ 2 ^ 40 + 8 * 2 ^ 28)))

/-- ZERO (R284). -/
def execZeroRange (b a d : BitVec 7) (s : State) : Out :=
  guard (gNeed .sup [d, a, b]) s fun s =>
    let pa := (s.me.g7 a).toNat
    let len := (s.me.g7 b).toNat
    if zeroRangeOk pa len then .next { s with me := s.me.setWait (.zero d.toNat pa len) }
    else .next (s.finishG d 1 true)

/-- ZERO_COMPLETE (R284): the bytes have performed at device scope, and the ZERO completes. -/
def execZeroComplete (w : Who) (s : State) : Out :=
  match s.agent w with
  | none => .refused .notDue
  | some a =>
    match a.wait with
    | .zero d pa len =>
      let lines := (s.monitors.filter fun m => decide (pa ≤ m.1 * 64) && decide (m.1 * 64 < pa + len)).map fun m => (m.1 * 64, (0 : Byte))
      .next (((s.zeroBytes pa len).noteWrites deviceWriter lines).setAgent (a.wake d 0))
    | _ => .refused .notDue

/-! The rest of R284. -/

/-- ERET (R279, R284). -/
def execEret (s : State) : Out := guard (Need.of .sup) s fun s => .next (returnFromTrap s)

/-- HALT (R284). -/
def execHalt (s : State) : Out :=
  guard (Need.of .sup) s fun s => .next { s with me := s.me.setWait .halt }

/-- HALT_RESUME (R284): an interrupt arrives, and the thread goes on at PC + 4. -/
def execHaltResume (w : Who) (s : State) : Out :=
  match s.agent w with
  | none => .refused .notDue
  | some a =>
    if a.wait = .halt then .next (s.setAgent ((a.setWait .none).retire none (a.nextPc 4) true)) else .refused .notDue

/-- HIRQ (R284): an MSI-X vector is sent on a host port. -/
def execHirq (a : BitVec 7) (s : State) : Out :=
  guard (gNeed .sup [a]) s fun s =>
    let x := s.me.g7 a
    if bitsOf x 11 5 ≠ 0 ∨ bitsOf x 17 47 ≠ 0 then .next (takeTrap s .illegalField)
    else .next ({ s with msix := s.msix ++ [(x.getLsbD 16, bitsOf x 0 11)] }.finish true)

/-- The locations of a route record's bytes at a supervisor's VA (R278; log entry 36), or the trap of the first that cannot be
read; no trap where a miss waits for a walk slot. -/
def State.routeImage (s : State) (va : BitVec 56) : Nat → State × Except (Option (Cause × BitVec 56)) (List Nat)
  | 0 => (s, .ok [])
  | n + 1 =>
    let (s, r) := s.supAccess va 1 false true
    match r with
    | .error c => (s, .error (some (c, va)))
    | .ok none => (s, .error none)
    | .ok (some k) =>
      let (s, r) := State.routeImage s (va + 1) n
      (s, r.map fun ks => k :: ks)

/-- What RTCHK answers for the record that stands at a list of locations: 0, or the cause (R284). -/
def State.routeAnswer (s : State) (ks : List Nat) : DWord :=
  BitVec.ofNat 64 ((routeCheck s.topo (ks.map (Memory.read s.mem))).elim 0 Cause.code)

/-- RTCHK (R284, R359): the route check of a record in memory; nothing is injected. What of it lies in a peer's memory is asked for
first (R316, R361). -/
def execRtchk (a d : BitVec 7) (s : State) : Out :=
  guard (gNeed .sup [d, a]) s fun s =>
    let va := (s.me.g7 a).extractLsb' 0 56
    match s.routeImage va 32 with
    | (s, .error none) => .next s
    | (s, .error (some (c, at'))) => .next (supTrap s c at')
    | (s, .ok ks) =>
      if ks.any isPeerKey then
        .next ({ s with me := s.me.setWait (.rtchk d.toNat va) }.sendReads (ks.filter isPeerKey) (supRequest s.me s.now))
      else .next (s.finishG d (s.routeAnswer ks) true)

/-- The bytes that a waiting RTCHK has asked a peer for have come. -/
def State.routeArrived (s : State) (w : Who) : State :=
  match s.agent w with
  | none => s
  | some a =>
    match a.wait with
    | .rtchk d va =>
      if s.requests.any fun r => r.who == some w && r.opc == 1 then s
      else s.setAgent (a.wake d (s.routeAnswer ((List.range 32).filterMap fun i => s.supPlace (va.toNat + i) false)))
    | _ => s

/-! SNAPB and SNAPC (R345). -/

/-- The incomplete launch of an id in a partition of the thread: where several contexts have one, which is open (DESIGN
CHOICE, log entry 36). -/
def State.launchById (s : State) (id : Word) : Option Launch :=
  let ls := s.launches.filter fun l => l.id == id && !l.complete && s.me.serves (s.partOf l.ctx)
  ls[s.freeWord.toNat % ls.length]?

/-- SNAPB (R345): a snapshot begins for a launch of which no unit has been admitted. -/
def execSnapb (a d : BitVec 7) (s : State) : Out :=
  guard (gNeed .sup [d, a]) s fun s =>
    match s.launchById ((s.me.g7 a).extractLsb' 0 32) with
    | none => .next (s.finishG d 1 true)
    | some l =>
      if l.next ≠ 0 then .next (s.useFree.finishG d 1 true)
      else
        let replay := if l.replay.isSome then l.replay else some ⟨[], [], []⟩
        .next ((s.useFree.setLaunch { l with replayable := true, replay := replay }).finishG d 0 true)

/-- SNAPC (R345): the snapshot ends with a commit, which waits for the peer's digest of a version that the launch has
published (R352) and for a rollback that is under way, or with a rollback for which the thread waits, and after which the launch
stands pending even where a rollback for its replay was under way (DEDUCED, log entry 36). -/
def execSnapc (b a d : BitVec 7) (s : State) : Out :=
  guard (gNeed .sup [d, a, b]) s fun s =>
    match s.launchById ((s.me.g7 a).extractLsb' 0 32) with
    | none => .next (s.finishG d 1 true)
    | some l =>
      let t := s
      let s := s.useFree
      if l.replay.isNone then .next (s.finishG d 1 true)
      else if !(s.me.g7 b).getLsbD 0 && (l.rollback.isSome || s.awaitsDigest l.ctx l.id) then .next t
      else if !(s.me.g7 b).getLsbD 0 then .next ((s.commitLaunch l).finishG d 0 true)
      else
        let t := s.startRollback l false
        .next { t with me := t.me.setWait (.snapc d.toNat l.ctx l.id) }

end Sys2Proof.Machine
end

