-- ==== Sys2Proof/Machine/HostPorts.lean ====
section
/-!
DEFINITION. The host's side: the submission rings, HSEM and the host ports, control writes, and accesses to device
memory (R286 to R291).
-/
namespace Sys2Proof.Machine

/-! Submission rings (R290). -/

def State.ringBase (s : State) (ctx : Nat) : Nat := bitsOf (s.ctxReg ctx 0x00F) 7 49 * 2 ^ 7
def State.ringLog (s : State) (ctx : Nat) : Nat := bitsOf (s.ctxReg ctx 0x00F) 0 7
def State.watchBase (s : State) (ctx : Nat) : Nat := (s.ctxReg ctx 0x010).toNat % 2 ^ 56

/-- Record `i` of a ring. -/
def State.ringRecord (s : State) (ctx i : Nat) : BitVec 1024 :=
  BitVec.ofNat 1024 (leNat (s.ctxRead ctx (s.ringBase ctx + 128 * (i % 2 ^ s.ringLog ctx)) 128))

/-- The launch that a ring's record asks for: it goes to the central pool, and a mask of 0 allows any die (R183,
R292). -/
def State.ringDraft (s : State) (ctx i : Nat) : Launch :=
  let r := s.ringRecord ctx i
  { s.draft ctx r false (s.allowedDies ctx (if lnMask r = 0 then 0xFF else lnMask r)) none none 0 with res := some i }

/-- A record is taken: RES, then CONS, each with release at `.sys`. -/
def State.ringTaken (s : State) (ctx i : Nat) (res : DWord) : State :=
  let n := 2 ^ s.ringLog ctx
  let s := (s.ctxWrite ctx (s.watchBase ctx + 0x40 + 8 * (i % n)) (leBytes 8 res.toNat)).releaseSys .device
  let s := (s.ctxWrite ctx (s.watchBase ctx + 8) (leBytes 4 ((i + 1) % 2 ^ 32))).releaseSys .device
  s.setContext ctx { s.context ctx with taken := i + 1, badProd := none }

/-- A value of PROD that is not too far ahead has been seen: the next that is, be it one reported before, is a new one (R288, R290). -/
def State.goodProd (s : State) (ctx : Nat) : Out :=
  if (s.context ctx).badProd.isSome then .next (s.setContext ctx { s.context ctx with badProd := none }) else .refused .notDue

/-- SUBMISSION_RING_TAKE (R290): the next record is taken; while the pools are full it is left. Each new value of PROD that
is too far ahead is reported (R288). -/
def execSubmissionRingTake (ctx : Nat) (s : State) : Out :=
  if 64 ≤ ctx ∨ !s.ctxValid ctx ∨ s.ringLog ctx = 0 then .refused .notDue
  else
    let i := (s.context ctx).taken
    let prod := BitVec.ofNat 32 (s.ctxNum ctx (s.watchBase ctx) 4)
    let ahead := (prod - BitVec.ofNat 32 i).toNat
    if ahead = 0 then s.goodProd ctx
    else if 2 ^ s.ringLog ctx < ahead then
      if (s.context ctx).badProd = some prod then .refused .notDue
      else
        let s := s.setContext ctx { s.context ctx with badProd := some prod }
        .next (raiseAsync s .queueEntry ctx 0 none false .none (s.die 8).time 0)
    else
      match s.answer ctx (s.ringDraft ctx i) with
      | .error 3 => s.goodProd ctx
      | .error n => .next (s.ringTaken ctx i (refusal n))
      | .ok t => .next (t.ringTaken ctx i ((s.context ctx).nextId.setWidth 64))

/-! HSEM (R287). -/

def Hsem.up (h : Hsem) (port : Bool) : Bool := if port then h.up1 else h.up0
def Hsem.setUp (h : Hsem) (port up : Bool) : Hsem := if port then { h with up1 := up } else { h with up0 := up }

/-- HSEM as a read returns it. -/
def Hsem.word (h : Hsem) : DWord :=
  BitVec.ofNat 64 ((if h.held then 1 else 0) + (if h.port then 2 else 0) + h.token.toNat * 2 ^ 32)

def Hsem.take (h : Hsem) (port : Bool) (token : Half) : Hsem := { h with held := true, port := port, token := token }
def Hsem.free (h : Hsem) : Hsem := { h with held := false, port := false, token := 0 }

/-- Whether every claim is refused (HSEMCTL). -/
def State.hsemLocked (s : State) : Bool := (s.devReg 0x848).getLsbD 0

/-- A claim that arrives alone. -/
def State.claim (s : State) (port : Bool) (token : Half) : State :=
  if s.hsem.held || s.hsemLocked then s else { s with hsem := s.hsem.take port token }

/-- HSEM_CLAIM (R287). Two claims of the two ports that follow one another on the agenda arrive in one cycle; the port
that lost the last such tie wins, and port 0 the first (DESIGN CHOICE, log entry 37). -/
def execHsemClaim (port : Bool) (token : Half) (s : State) : Out :=
  if !s.hsem.up port then .refused .notDue
  else
    match s.agenda with
    | .event (.hsemClaim other token') :: r =>
      if other = port ∨ !s.hsem.up other ∨ s.hsem.held ∨ s.hsemLocked then .next (s.claim port token)
      else
        let winner := s.hsem.lastLost.getD false
        let h := s.hsem.take winner (if winner = port then token else token')
        .next { s with agenda := r, hsem := { h with lastLost := some !winner } }
    | _ => .next (s.claim port token)

/-- HSEM_RELEASE (R287): only the owner's, with its own token, has an effect. -/
def State.releaseHsem (s : State) (port : Bool) (token : Half) : State :=
  if s.hsem.held && s.hsem.port == port && s.hsem.token == token then { s with hsem := s.hsem.free } else s

def execHsemRelease (port : Bool) (token : Half) (s : State) : Out :=
  if s.hsem.up port then .next (s.releaseHsem port token) else .refused .notDue

/-- HOST_LINK_DOWN (R287): the owner's HSEM is released. -/
def execHostLinkDown (port : Bool) (s : State) : Out :=
  if s.hsem.up port then
    let h := s.hsem.setUp port false
    .next { s with hsem := if h.held && h.port == port then h.free else h }
  else .refused .notDue

/-- HOST_LINK_UP (R287). -/
def execHostLinkUp (port : Bool) (s : State) : Out :=
  if s.hsem.up port then .refused .notDue else .next { s with hsem := s.hsem.setUp port true }

/-- BAR0_CONTROL_WRITE (R286, R287): a write from a port that does not hold HSEM is dropped, and the supervisor has a record.
HSEM itself stands at offset 0; the doorbells, the MSI-X table and the other control registers keep what is written, since the
specification places none of them and says no more of what they do (DESIGN CHOICE, log entry 37). -/
def execBar0ControlWrite (port : Bool) (offset : Nat) (value : DWord) (s : State) : Out :=
  if !s.hsem.up port ∨ 2 ^ 26 ≤ offset then .refused .notDue
  else if offset = 0 then
    let token := value.extractLsb' 32 16
    .next (if value.getLsbD 0 then s.claim port token else s.releaseHsem port token)
  else if s.hsem.held && s.hsem.port == port then .next { s with bar0 := Store.set 0 s.bar0 offset value }
  else .next (raiseAsync s .hsem 0 0 none false .none (s.die 8).time 0)

/-! Accesses through HDM (R286, R289). -/

/-- Whether a range lies in HBM of one die. -/
def inHbm (pa len : Nat) : Bool := decide (pa < 2 ^ 40) && paExists pa len

/-- The 64-byte lines of a range. -/
def linesOf (pa len : Nat) : List Nat := (List.range (if len = 0 then 0 else (pa + len - 1) / 64 + 1 - pa / 64)).map fun i => pa / 64 + i

/-- A host holds and monitors lines. -/
def State.monitor (s : State) (lines : List Nat) : State :=
  { s with monitors := s.monitors ++ ((lines.filter fun l => !s.monitors.any fun m => m.1 == l).map fun l => (l, [])) }

/-- HOST_HDM_ACCESS (R288, R289): a write takes its bytes; a read returns as many as it names, and the host then
monitors their lines. Poisoned bytes are not delivered (R338). -/
def execHostHdmAccess (port write : Bool) (pa : Nat) (data : List Byte) (s : State) : Out :=
  if !s.hsem.up port ∨ !inHbm pa data.length then .refused .notDue
  else if write then
    let cells := cellsAt pa data
    .next { s with mem := Memory.writeAll s.mem cells, poison := clearPoison s.poison cells }
  else
    let ks := (List.range data.length).map fun i => pa + i
    let bad := ks.any fun k => s.poison.contains (k / 16)
    .next { s.monitor (linesOf pa data.length) with hdmRead := if bad then [] else ks.map fun k => Memory.read s.mem k }

/-! The loader (R66, R127, R285). -/

/-- The location of an image's byte at the place that the loader's caller names: own local memory and the cluster window
(R112), or the die scratchpad. -/
def LoadObject.key (o : LoadObject) (addr : Nat) : Option Nat :=
  if addr < 0x8_0000 then some (localKey o.die o.cluster o.core addr)
  else if 0x400_0000 ≤ addr ∧ addr < 0x800_0000 then
    some (localKey o.die o.cluster ((addr - 0x400_0000) / 0x8_0000) (addr % 0x8_0000))
  else if 0x1000_0000 ≤ addr ∧ addr < 0x2000_0000 then some (spadKey o.die (addr - 0x1000_0000))
  else none

/-- The bytes of an object's images, each with its location. -/
def LoadObject.cells (o : LoadObject) : List (Option Nat × Byte) :=
  o.images.flatMap fun i => (numbered i.2).map fun b => (o.key (i.1 + b.1), b.2)

/-- The cores of its cluster whose local memory an object's images reach. -/
def LoadObject.cores (o : LoadObject) : List Nat :=
  (List.range 128).filter fun k => o.cells.any fun c => c.1.any fun x =>
    decide (localKey o.die o.cluster k 0 ≤ x) && decide (x < localKey o.die o.cluster (k + 1) 0)

/-- The scratchpad pages that they reach, by location number ÷ 65,536. -/
def LoadObject.pages (o : LoadObject) : List Nat :=
  (o.cells.filterMap fun c => (c.1.filter fun k => decide (k < 2 ^ 52)).map fun k => k / 65536).eraseDups

/-- The record that stands at an image's address. -/
def State.loaded (s : State) (o : LoadObject) (addr n : Nat) : Nat :=
  leNat ((List.range n).map fun i => (o.key (addr + i)).elim 0 (Memory.read s.mem))

/-- A loader installs an object: memory whose last owner was another context is zeroed first, the images are written, and
the tensor and window lists are installed, but for a record that TDEF would fault. It waits while another context's unit
occupies a slot of a core that it writes (R285). What it is given stands on the agenda (DESIGN CHOICE, log entry 74). -/
def execLoad (o : LoadObject) (s : State) : Out :=
  if 64 ≤ o.ctx ∨ !s.ctxValid o.ctx ∨ 8 ≤ o.die ∨ 4 ≤ o.cluster ∨ 128 ≤ o.core ∨ (o.cells.any fun c => c.1.isNone)
      ∨ (o.cores.any fun k => (s.onCore o.die o.cluster k).any fun a => a.ctx != o.ctx) then .refused .notDue
  else
    let s := o.cores.foldl (fun (s : State) k => s.takeCore o.ctx o.die o.cluster k) s
    let s := o.pages.foldl (fun (s : State) p =>
      let w := Store.get 0 s.padOwner p
      if w = 0 ∨ w = o.ctx + 1 then s else s.zeroBytes (p * 65536) 65536) s
    let s := s.writeMemAs (o.ctx, 0) (o.cells.filterMap fun c => c.1.map fun k => (k, c.2))
    let s := o.tensors.foldl (fun (s : State) t =>
      let r := BitVec.ofNat 512 (s.loaded o t.2 64)
      if t.1 < 4096 ∧ (recordCheck r).isNone then s.setTensor o.ctx t.1 r else s) s
    .next (o.windows.foldl (fun (s : State) t =>
      let r := BitVec.ofNat 256 (s.loaded o t.2 32)
      if t.1 < 16 ∧ windowOk r then s.setWindow o.ctx t.1 r else s) s)

end Sys2Proof.Machine
end

