-- ==== Sys2Proof/Machine/Fabric.lean ====
section
/-!
DEFINITION. The Waldlink fabric: forwarding and flow control at this device, the states of its links, peers' requests at
home, and the responses to this device's own requests (R316, R353 to R361). Log entry 21 says what these rules leave
open.
-/
namespace Sys2Proof.Machine

/-! Ports and waymarks (R353, R354, R360). -/

def State.port (s : State) (k : Nat) : Port := Store.get Port.fresh s.ports k
def State.setPort (s : State) (k : Nat) (p : Port) : State := { s with ports := Store.set Port.fresh s.ports k p }

/-- Whether a link carries packets: it is UP or DEGRADED, and fewer than 8 link-level replays have failed in a row, after
which it is DOWN (R353). -/
def Port.carries (p : Port) : Bool := (p.ls == 1 || p.ls == 2) && decide (p.replays < 8)

def Packet.hd (p : Packet) : Header := headerOf p.header

/-- Waymark `i` of a header, and a waymark's fields. -/
def Header.mark (h : Header) (i : Nat) : Nat := byteAt h.way i
def markLast (w : Nat) : Bool := w / 128 % 2 == 1
def markVc (w : Nat) : Nat := w / 32 % 4
def markPort (w : Nat) : Nat := w % 32

/-- Beats of a packet. -/
def Packet.beats (p : Packet) : Nat := 1 + p.hd.nb

/-- The VC on which a packet came over its last link. -/
def Header.inVc (h : Header) : Nat := markVc (h.mark (h.hop - 1))

/-- Free beats of a port's receive buffer for a VC. -/
def State.bufferFree (s : State) (port vc : Nat) : Nat :=
  64 - ((s.packets.filter fun p => p.port == port && p.hd.inVc == vc).map Packet.beats).sum

/-- A packet with its HOP one more, at a new place. -/
def Packet.hopped (p : Packet) (port : Nat) : Packet :=
  { p with header := { p.hd with hop := p.hd.hop + 1 }.beat, port := port }

/-- Whether a packet of a VC waits here for the link of a port and may go. -/
def State.vcWaits (s : State) (k vc : Nat) : Bool :=
  !(s.port k).stopped.getLsbD vc && s.packets.any fun p =>
    let w := p.hd.mark p.hd.hop
    decide (p.port ≤ 32) && decide (p.hd.hop < 16) && !markLast w && markPort w == k && markVc w == vc

/-- Whether a packet of VC 2 or 3 waits here for the link of a port and may go. -/
def State.urgent (s : State) (k : Nat) : Bool := s.vcWaits k 2 || s.vcWaits k 3

/-- Whether it is the turn of the other VC of the pair, one of whose packets may go (R360). -/
def State.otherTurn (s : State) (k vc : Nat) : Bool :=
  (s.port k).turns.getLsbD (vc / 2) == (vc % 2 == 1) && s.vcWaits k (vc / 2 * 2 + 1 - vc % 2)

/-- A link has served a VC. -/
def Port.served (p : Port) (vc : Nat) : Port :=
  let bit := BitVec.ofNat 2 (2 ^ (vc / 2))
  { p with replays := 0, turns := if vc % 2 = 1 then p.turns ||| bit else p.turns &&& ~~~bit }

/-- What a time packet's egress stamps: SYNC's is told in a FOLLOW that is then injected, DREQ's is t3 (R363). -/
def State.stampEgress (s : State) (p : Packet) (k : Nat) : State :=
  if p.port ≠ atDevice then s
  else if p.hd.opc = 7 then s.inject { p.hd with opc := 8, arg := s.hubTime.toNat } []
  else if p.hd.opc = 9 ∧ k = bitsOf (s.devReg 0x882) 0 4 then { s with exchange := { s.exchange with t3 := s.hubTime } }
  else s

/-- Whether an earlier packet of the same route stands at the same place: such packets keep their order. -/
def State.queuedAhead (s : State) (i : Nat) (p : Packet) : Bool :=
  (s.packets.take i).any fun q => q.port == p.port && q.hd.way == p.hd.way

/-- Packet `i` goes on by its next waymark (R354); `none` where it has to wait. A packet without a further waymark, for
a port that this device does not have or for a die that there is not goes nowhere; one for a link that is DOWN is
lost (R361). -/
def State.forwardAt (s : State) (i : Nat) (p : Packet) : Option State :=
  let gone : State := { s with packets := s.packets.eraseIdx i }
  let w := p.hd.mark p.hd.hop
  let k := markPort w
  if s.queuedAhead i p then none
  else if 16 ≤ p.hd.hop then some gone
  else if markLast w then some (if k ≤ 8 then { gone with inbox := gone.inbox ++ [p.hopped k] } else gone)
  else if 12 ≤ k ∨ (s.port k).ls = 0 then some gone
  else if !(s.port k).carries || (s.port k).stopped.getLsbD (markVc w) || (decide (markVc w < 2) && s.urgent k)
    || s.otherTurn k (markVc w) then none
  else some (({ gone with packets := gone.packets ++ [p.hopped (64 + k)] }.setPort k ((s.port k).served (markVc w))).stampEgress p k)

/-- PACKET_FORWARD (R354): a packet that stands here, or that arrives at a port with room for it, goes on. One that the
receiver cannot use is discarded (R353). -/
def execPacketForward (port : Nat) (header : BitVec 512) (data : List Byte) (s : State) : Out :=
  let p : Packet := ⟨header, data, port, s.hubTime⟩
  match s.packets.findIdx? fun q => q.header == header && q.data == data && q.port == port with
  | some i =>
    if 64 ≤ port then .refused .notDue
    else match s.forwardAt i { p with stamp := (s.packets[i]?.map fun q => q.stamp).getD 0 } with
      | some t => .next t
      | none => .refused .notDue
  | none =>
    if 12 ≤ port ∨ !(s.port port).carries then .refused .notDue
    else if !headerOk header then .next s
    else if (data.length + 63) / 64 ≠ p.hd.nb ∨ s.bufferFree port p.hd.inVc < p.beats then .refused .notDue
    else
      let t := { s with packets := s.packets ++ [p] }.setPort port { s.port port with replays := 0 }
      .next ((t.forwardAt s.packets.length p).getD t)

/-! Flow control (R360). -/

/-- A VC's bit in a mask. -/
def vcSet (x : BitVec 4) (vc : Nat) (on : Bool) : BitVec 4 :=
  if on then x ||| BitVec.ofNat 4 (2 ^ vc) else x &&& ~~~(BitVec.ofNat 4 (2 ^ vc))

/-- FLOW_STOP (R360): this port's receiver signals STOP when fewer than 24 beats are free, or the far receiver does. -/
def execFlowStop (port vc : Nat) (here : Bool) (s : State) : Out :=
  let p := s.port port
  if 12 ≤ port ∨ 4 ≤ vc ∨ !p.carries then .refused .notDue
  else if here then
    if s.bufferFree port vc < 24 ∧ !p.told.getLsbD vc then .next (s.setPort port { p with told := vcSet p.told vc true })
    else .refused .notDue
  else .next (s.setPort port { p with stopped := vcSet p.stopped vc true })

/-- FLOW_GO (R360): GO when 40 or more beats are free. -/
def execFlowGo (port vc : Nat) (here : Bool) (s : State) : Out :=
  let p := s.port port
  if 12 ≤ port ∨ 4 ≤ vc ∨ !p.carries then .refused .notDue
  else if here then
    if 40 ≤ s.bufferFree port vc ∧ p.told.getLsbD vc then .next (s.setPort port { p with told := vcSet p.told vc false })
    else .refused .notDue
  else .next (s.setPort port { p with stopped := vcSet p.stopped vc false })

/-! Links (R353, R356, R361). -/

/-- The VA of the STATE byte of one of this node's ports in the topology map. -/
def State.lsAddr (s : State) (port : Nat) : Nat := bitsOf (s.devReg 0x880) 12 44 * 2 ^ 12 + portAt (topoSelf s.topo) port

/-- A port changes state: LS goes into the map with release at `.sys` and into LINKST, and MSI-X vector 1 is sent on both
host ports. STOP and GO hold on where the link goes on carrying packets. Packets on a link that goes DOWN are lost. The route
checks keep the map as it was last loaded (R359). -/
def State.setLink (s : State) (port : Nat) (ls : BitVec 2) : State :=
  let old := leNat (s.supRead (s.lsAddr port) 1)
  let s := if s.topo.isEmpty then s
    else (s.supWrite (s.lsAddr port) (leBytes 1 (old / 4 * 4 + ls.toNat))).releaseSys .device
  let p := s.port port
  let up := fun (x : BitVec 2) => x == 1 || x == 2
  let s := s.setPort port (if up p.ls && up ls then { p with ls := ls, replays := 0 } else ⟨ls, 0, 0, 0, 0⟩)
  { s with msix := s.msix ++ [(false, 1), (true, 1)],
           packets := if ls = 0 then s.packets.filter fun p => p.port != 64 + port else s.packets }

/-- LINK_STATE_CHANGE (R356): a link whose last 8 link-level replays have failed goes DOWN and nowhere else (R353). -/
def execLinkStateChange (port : Nat) (ls : BitVec 2) (s : State) : Out :=
  if 12 ≤ port ∨ (s.port port).ls = ls ∨ (8 ≤ (s.port port).replays ∧ ls ≠ 0) then .refused .notDue else .next (s.setLink port ls)

/-- LINK_LEVEL_REPLAY (R353): a beat that failed its link CRC is sent again, and fails again or not: the count of
failures in a row is 0 again once a packet has passed. -/
def execLinkLevelReplay (port : Nat) (s : State) : Out :=
  let p := s.port port
  if 12 ≤ port ∨ !p.carries ∨ 8 ≤ p.replays then .refused .notDue
  else .next (s.setPort port { p with replays := p.replays + 1 })

/-- LINK_DOWN (R353): after 8 consecutive failed replays. -/
def execLinkDown (port : Nat) (s : State) : Out :=
  if 12 ≤ port ∨ (s.port port).replays < 8 then .refused .notDue else .next (s.setLink port 0)

/-! Peers' requests at home (R316). -/

/-- A packet delivered here, oldest first among those of its sender and route. -/
def State.inboxItem (s : State) (opc i : Nat) : Option Packet :=
  (s.inbox[i]?).filter fun p => p.hd.opc == opc && !((s.inbox.take i).any fun q => q.hd.src == p.hd.src && q.hd.way == p.hd.way)

def State.dropInbox (s : State) (i : Nat) : State := { s with inbox := s.inbox.eraseIdx i }

/-- The valid context that has an ASID. -/
def State.homeCtx (s : State) (pasid : Nat) : Option Nat :=
  (List.range 64).find? fun c => s.ctxValid c && (s.asidOf c).toNat == pasid

/-- The CAUSE of a home outcome. -/
def homeCause (o : WalkOutcome) : Nat :=
  match o with
  | .unmapped => 0x60 | .notPresent => 0x60 | .format => 0x65 | .retired => 0xD0 | .permission => 0x61
  | .contention => 0x63 | .waits => 0 | .frame _ _ _ => 0 | .peer _ _ _ _ => 0x61

/-- The compute die on which a location stands, if it is HBM or a die scratchpad. -/
def keyDie (k : Nat) : Option Nat :=
  if k < 2 ^ 40 then some (k / 2 ^ 37) else if k < 2 ^ 40 + 2 ^ 31 then some ((k - 2 ^ 40) / 2 ^ 28) else none

/-- The locations of one byte of a request, every replica's for a write (R308), or the CAUSE; 0 where a miss waits for a walk
slot. `reads` says that a write reads as well, as an atomic does (R310). A die outside the context's partition is PARTITION's (R322; DESIGN CHOICE, log entry 47). -/
def State.homeByte (s : State) (ctx : Nat) (va : BitVec 56) (write reads : Bool) : State × Except Nat (List Nat) :=
  let shut := match s.peek 8 (s.rootOf ctx) va write with | .frame _ leaf _ => !leaf.getLsbD 13 | _ => false
  if shut then (s, .error 0x61)
  else
    match s.translate none .request 8 (s.asidOf ctx) (s.rootOf ctx) va write reads with
    | (s, .frame k leaf _) =>
      if !leaf.getLsbD 13 then (s, .error 0x61)
      else if (keyDie k).any fun d => !(s.partDies (s.partOf ctx)).getLsbD d then (s, .error 0xE0)
      else (s, .ok (if write && leaf.getLsbD 7 then (s.replicaDies ctx).map fun d =>
        k - s.replicaOf 8 (s.asidOf ctx) * 2 ^ 37 + d * 2 ^ 37 else [k]))
    | (s, o) => (s, .error (homeCause o))

/-- The locations of a request's bytes. -/
def State.homeBytes (s : State) (ctx : Nat) (write reads : Bool) : Nat → BitVec 56 → State × Except Nat (List (List Nat))
  | 0, _ => (s, .ok [])
  | n + 1, va =>
    match s.homeByte ctx va write reads with
    | (s, .error c) => (s, .error c)
    | (s, .ok ks) =>
      let (s, r) := State.homeBytes s ctx write reads n (va + 1)
      (s, r.map fun rest => ks :: rest)

/-- A response goes back on record 0 of its requester, bit 6 set in each waymark (R354, R357). -/
def State.respond (s : State) (h : Header) (opc cause : Nat) (data : List Byte) : State :=
  s.inject { h with way := (wayOf (routeRec s.routes h.src 0)).map fun (w : Byte) => w ||| 0x40, opc := opc, nb := (data.length + 63) / 64,
                    hop := 0, src := topoSelf s.topo, len := data.length, cause := cause, arg := 0 } data

/-- The locations that a request names here, or the CAUSE of its response. -/
def State.homeKeys (s : State) (h : Header) (write reads : Bool) (va n : Nat) : State × Except Nat (List (List Nat)) :=
  match s.homeCtx h.pasid with
  | none => (s, .error 0x62)
  | some c =>
    match s.homeBytes c write reads n (BitVec.ofNat 56 va) with
    | (s, .error e) =>
      (if e = 0xE0 then raiseAsync s .partition c 0 none false { FaultInfo.none with addr := BitVec.ofNat 64 va } (s.die 8).time 0 else s, .error e)
    | r => r

/-- A request whose miss waits for a walk slot is taken up again: only its misses stay (R311). -/
def State.requestWaits (s t : State) : Out := .next (s.keepMisses t 8)

/-- Whether any of a request's bytes is poisoned. -/
def State.poisonedAny (s : State) (ks : List (List Nat)) : Bool := ks.any fun k => k.any fun x => s.poison.contains (x / 16)

/-- Writes of a request, at every replica, with release at `.sys`. -/
def State.homeWrite (s : State) (ks : List (List Nat)) (bs : List Byte) : State :=
  s.sysWrite none ((ks.zip bs).flatMap fun x => x.1.map fun k => (k, x.2))

/-- READ (R316). -/
def execRead (i : Nat) (s : State) : Out :=
  match s.inboxItem 1 i with
  | none => .refused .notDue
  | some p =>
    match (s.dropInbox i).homeKeys p.hd false false p.hd.va p.hd.len with
    | (t, .error 0) => s.requestWaits t
    | (s, .error c) => .next (s.respond p.hd 4 c [])
    | (s, .ok ks) =>
      if s.poisonedAny ks then .next (s.respond p.hd 4 0xD0 [])
      else .next (s.respond p.hd 4 0 (ks.map fun k => Memory.read s.mem (k.headD 0)))

/-- WRITE (R316): a write in error writes nothing. -/
def execWrite (i : Nat) (s : State) : Out :=
  match s.inboxItem 2 i with
  | none => .refused .notDue
  | some p =>
    match (s.dropInbox i).homeKeys p.hd true false p.hd.va p.hd.len with
    | (t, .error 0) => s.requestWaits t
    | (s, .error c) => .next (s.respond p.hd 5 c [])
    | (s, .ok ks) => .next ((s.homeWrite ks ((List.range p.hd.len).map fun j => p.data.getD j 0)).respond p.hd 5 0 [])

/-- ATOMIC (R316): the old word goes back in the first eight bytes of the payload. -/
def execAtomic (i : Nat) (s : State) : Out :=
  match s.inboxItem 3 i with
  | none => .refused .notDue
  | some p =>
    match (s.dropInbox i).homeKeys p.hd true true (p.hd.va / 8 * 8) 8 with
    | (t, .error 0) => s.requestWaits t
    | (s, .error c) => .next (s.respond p.hd 6 c [])
    | (s, .ok ks) =>
      if s.poisonedAny ks then .next (s.respond p.hd 6 0xD0 [])
      else
        let old := leNat (ks.map fun k => Memory.read s.mem (k.headD 0))
        let new := Config.peerAtomic (BitVec.ofNat 128 p.hd.arg) (BitVec.ofNat 64 old)
        .next ((s.homeWrite ks (leBytes 8 new.toNat)).respond p.hd 6 0 (leBytes 16 old))

/-! Responses (R316, R361). -/

/-- The cause that a CAUSE byte names. -/
def causeOf (n : Nat) : Option Cause := allCauses.find? fun c => c.code == n

/-- Whether 1 ms has passed since a request was injected. -/
def State.overdue (s : State) (r : PeerRequest) : Bool := decide (4000000 < ((s.die r.die).time - r.sent).toNat)

def State.dropRequest (s : State) (r : PeerRequest) : State := { s with requests := s.requests.filter fun x => x.tag != r.tag }

/-- The trap of a supervisor thread's access to a peer (R279, R310). -/
def State.trapPeer (s : State) (w : Who) (c : Cause) (va : BitVec 56) : State :=
  match s.agent w with
  | none => s
  | some a => s.trapThread a c { FaultInfo.none with addr := va.setWidth 64 }

/-- The thread that waits for a response takes its word. -/
def State.wakePeer (s : State) (w : Who) (tag : Word) (data : List Byte) : State :=
  match s.agent w with
  | none => s
  | some a =>
    match a.wait with
    | .peer d off t ends =>
      if t = tag then
        s.setAgent (((a.setWait .none).writeG d (BitVec.ofNat 64 (numAt data off 8))).retire none (a.nextPc 4) ends)
      else s
    | _ => s

/-- The status bits that a home outcome gives a command (R152, R310), and those it gives a row (R156). The CAUSE of a page
that is not resident is also that of one that is not mapped; NRPAGE names the page for both (DESIGN CHOICE, log entry 21). -/
def peerStatus (cause va : Nat) (write : Bool) : DWord :=
  if cause = 0x60 then outcomeStatus .notPresent (BitVec.ofNat 56 va) write
  else BitVec.ofNat 64 (cause * 256 + 2) ||| (if cause = 0xD0 ∧ !write then 0x20 else 0)

def peerRow (cause : Nat) : Nat := if cause = 0x60 then 3 else if cause = 0x65 then 9 else 5

/-- The lanes whose rows meet the 16 bytes at an address. -/
def rowsMeeting (em : Word) (offs : Lanes) (rowb : Nat) (xt : Xt) (va : Nat) : List Nat :=
  allLanes.filter fun l => em.getLsbD l && decide (rowVa xt (offs.at l) < va + 16) && decide (va < rowVa xt (offs.at l) + rowb)

/-- A copy command takes note of a request's cause. -/
def CopyCmd.note (c : CopyCmd) (va cause : Nat) (write : Bool) : CopyCmd :=
  match c.work with
  | .rows _ _ em offs _ rowb xt => { c with codes := c.codes ++ (rowsMeeting em offs rowb xt va).map fun l => (l, peerRow cause, 0) }
  | _ => { c with status := statusMerge c.status (peerStatus cause va write) }

/-- An epilogue takes note of what a request reports; an MMA never completes in error (R216, R229; DEDUCED, log entry 86). -/
def MxOp.note (op : MxOp) (seq : Nat) (st : DWord) : MxOp :=
  if op.seq = seq ∧ op.mayFail then { op with status := statusMerge op.status st } else op

/-- The command of a request takes note of its cause. -/
def State.noteCause (s : State) (r : PeerRequest) (cause : Nat) : State :=
  let write := r.opc == 2
  let va := (peerVa r.key).toNat
  let st := peerStatus cause va write
  let d := s.die r.die
  let s := s.setDie r.die
    { d with copyQ := d.copyQ.map fun c => if c.seq = r.seq then c.note va cause write else c,
             heldT := d.heldT.map fun c => if c.seq = r.seq then c.note va cause write else c,
             bulkQ := d.bulkQ.map fun b => if b.seq = r.seq then { b with status := statusMerge b.status st } else b,
             dceQ := d.dceQ.map fun c => if c.seq = r.seq then { c with peer := statusMerge c.peer st } else c,
             updQ := d.updQ.map fun c => if c.seq = r.seq then { c with status := statusMerge c.status st } else c }
  (List.range 4).foldl (fun (s : State) k =>
    let x := s.cluster r.die k
    let f := fun (op : MxOp) => op.note r.seq st
    s.setCluster r.die k { x with queue0 := x.queue0.map f, queue1 := x.queue1.map f, queue2 := x.queue2.map f,
                                  queue3 := x.queue3.map f }) s

/-- The sixteen bytes that a command reads of a peer are there: zeros where the read failed. -/
def State.peerBytes (s : State) (r : PeerRequest) (bs : List Byte) : State :=
  if r.opc = 1 then
    { s with mem := Memory.writeAll s.mem (cellsAt r.key ((List.range 16).map fun j => bs.getD j 0)) }
  else s

/-- A READ whose bytes this device has since asked the peer to write is made again, so that what goes by it has that write before
it (R29, R316). -/
def State.readAgain (s : State) (r : PeerRequest) : State :=
  match s.routeFault (peerNode r.key) (peerVa r.key) with
  | none => s.sendUnit 1 r.key 0 [] { r with sent := (s.die r.die).time }
  | some c => match r.who with
    | some w => s.trapPeer w c (peerVa r.key)
    | none => (s.peerBytes r []).noteCause r c.code

/-- Whether the thread of a request waits for its one word. -/
def State.waitsWord (s : State) (r : PeerRequest) : Bool :=
  r.who.any fun w => (s.agent w).any fun a => a.anyWait fun x => match x with | .peer _ _ t _ => t == r.tag | _ => false

/-- An MMA's bitmap has consumed an uncorrectable error: its launch is told (R338). -/
def State.tellMma (s : State) (r : PeerRequest) (cause : Nat) : State :=
  let mine := (List.range 4).any fun k => (List.range 4).any fun c =>
    ((s.cluster r.die k).queue c).any fun op => op.seq == r.seq && !op.mayFail
  if cause = 0xD0 ∧ r.opc = 1 ∧ mine then raiseAsync s .uncorrectable r.ctx r.launch r.unit r.det .none (s.die r.die).time 0 else s

/-- A request has its response. -/
def State.settleRequest (s : State) (r : PeerRequest) (cause : Nat) (bs : List Byte) : State :=
  let word := s.waitsWord r
  let s := s.dropRequest r
  if cause = 0 ∧ r.stale ∧ !word then s.readAgain r
  else
    match r.who with
    | some w =>
      if cause = 0 then (((if r.stale then s else s.peerBytes r bs).wakePeer w r.tag bs).imageArrived w).routeArrived w
      else s.trapPeer w ((causeOf cause).getD .permission) (peerVa r.key)
    | none => if cause = 0 then s.peerBytes r bs else ((s.peerBytes r []).noteCause r cause).tellMma r cause

/-- A response arrives: it is discarded where no request of its kind awaits it, or too late (R361), and one whose CAUSE is no code
of Table 1 of R322 as a packet that the receiver cannot use (DESIGN CHOICE, log entry 21). -/
def State.response (s : State) (opc req i : Nat) : Out :=
  match s.inboxItem opc i with
  | none => .refused .notDue
  | some p =>
    let s := s.dropInbox i
    match s.requests.find? fun r => r.tag.toNat == p.hd.tag && r.opc == req with
    | none => .next s
    | some r => .next (if s.overdue r ∨ (p.hd.cause ≠ 0 ∧ (causeOf p.hd.cause).isNone) then s else s.settleRequest r p.hd.cause p.data)

/-- RDDATA (R361). -/
def execRddata (i : Nat) (s : State) : Out := s.response 4 1 i
/-- WRACK (R361): the write has performed at `.sys`. -/
def execWrack (i : Nat) (s : State) : Out := s.response 5 2 i
/-- ATRSP (R361). -/
def execAtrsp (i : Nat) (s : State) : Out := s.response 6 3 i

/-- PEER_REQUEST_TIMEOUT (R361): the access completes in error with LINK_DOWN, and a command's launch is told. -/
def execPeerRequestTimeout (i : Nat) (s : State) : Out :=
  match s.requests[i]? with
  | none => .refused .notDue
  | some r =>
    if !s.overdue r then .refused .notDue
    else
      let t := s.settleRequest r 0xC3 []
      .next (if r.who.isSome then t
             else raiseAsync t .linkDown r.ctx r.launch r.unit r.det { FaultInfo.none with addr := (peerVa r.key).setWidth 64 }
               (s.die r.die).time 0)

end Sys2Proof.Machine
end

