-- ==== Sys2Proof/Machine/Time.lean ====
section
/-!
DEFINITION. Die time (R362 to R364): ticks, the exchanges by which dies and devices measure their offset, and the
discipline. Log entry 38 says what these rules leave open.
-/
namespace Sys2Proof.Machine

/-! The discipline. -/

def State.parentPort (s : State) : Nat := bitsOf s.tmcfg 0 4

/-- A die that has measured its offset, given as twice its value (R362, R364). A disciplined one slews by it, and is
undisciplined beyond 80 dtu; an undisciplined one steps forward at once where it is behind, keeps what it is ahead by, and is
disciplined again within 64 dtu, though R16 and R177 have disciplined dies within 8 dtu of each other: one that is further ahead
stands (`State.withinBound`) until the others have come up (DESIGN CHOICE, log entry 38). -/
def Die.measured (d : Die) (twice : Int) (may : Bool) : Die :=
  let d := { d with slew := -(twice / 2), offset := BitVec.ofInt 32 (twice / 2), halfTick := false,
                    disciplined := d.disciplined && decide (twice.natAbs ≤ 160) }
  let d :=
    if d.disciplined then d
    else
      let d := if twice < 0 then { d with time := d.time + BitVec.ofInt 64 (-(twice / 2)), slew := 0 } else d
      if twice.natAbs ≤ 128 ∧ may then { d with disciplined := true, sinceSlew := 0 } else d
  { d with lastEx := d.time }

/-- A die's measurement. -/
def State.measure (s : State) (d : Nat) (twice : Int) (may : Bool) : State :=
  (s.setDie d ((s.die d).measured twice may)).followMaster

/-- The difference of two times. -/
def timeDiff (a b : DWord) : Int := (a - b).toInt

/-- One tick of a die (R362, R364): how much it adds, and the die after. A disciplined die with a correction to make makes it by one
in every 1,024 ticks (Table 4 of R363). -/
def Die.tick (d : Die) (add : Nat) : Option Die :=
  let t := { d with time := d.time + BitVec.ofNat 64 add }
  if d.disciplined then
    if d.slew = 0 ∨ d.sinceSlew < 1023 then (if add = 1 then some { t with sinceSlew := min 1023 (d.sinceSlew + 1) } else none)
    else if add = 0 ∧ d.slew < 0 then some { t with sinceSlew := 0, slew := d.slew + 1 }
    else if add = 2 ∧ 0 < d.slew then some { t with sinceSlew := 0, slew := d.slew - 1 }
    else none
  else if d.slew < -64 then
    if add = (if d.halfTick then 1 else 0) then
      some { t with halfTick := !d.halfTick, slew := if d.halfTick then d.slew else d.slew + 1 }
    else none
  else if add = 1 then some t else none

/-- Whether a die is disciplined: the hub die as the package master. -/
def State.disciplined (s : State) (die : Nat) : Bool := if die = 8 then s.masterOk else (s.die die).disciplined

/-- Whether a disciplined die at a time stays within 8 dtu of every other that is behind it (R177, R362): one that would run
further ahead ticks once they have ticked. -/
def State.withinBound (s : State) (die : Nat) (time : DWord) : Bool :=
  !s.disciplined die || (List.range 9).all fun e => e == die || !s.disciplined e || decide (time.toNat ≤ (s.die e).time.toNat + 8)

/-- DIE_TIME_TICK (R362). -/
def execDieTimeTick (die add : Nat) (s : State) : Out :=
  if 8 < die then .refused .notDue
  else
    match (s.die die).tick add with
    | some d => if s.withinBound die d.time then .next (s.setDie die d) else .refused .notDue
    | none => .refused .notDue

/-- PACKAGE_TIME_EXCHANGE (R362): the hub die's time, which a compute die compares with its own. -/
def execPackageTimeExchange (die : Nat) (measured : DWord) (s : State) : Out :=
  if 8 ≤ die ∨ measured ≠ (s.die 8).time then .refused .notDue
  else .next (s.measure die (2 * timeDiff (s.die die).time measured) s.masterOk)

/-- PTM_SYNC (R363): the grandmaster follows 4 times the host's PTM time in nanoseconds. -/
def execPtmSync (ns : DWord) (s : State) : Out :=
  if s.tmcfg.getLsbD 4 && s.tmcfg.getLsbD 5 then .next (s.measure 8 (2 * timeDiff (s.die 8).time (ns * 4)) true)
  else .refused .notDue

/-- The period of a die's exchanges in dtu: 1 µs for a compute die, TPER for the hub die. -/
def State.exchangePeriod (s : State) (die : Nat) : Nat := if die = 8 then bitsOf s.tmcfg 16 10 * 4000 else 4000

/-- DISCIPLINE_LOSS (R364): 4 periods have passed without an exchange. -/
def execDisciplineLoss (die : Nat) (s : State) : Out :=
  let d := s.die die
  if 8 < die ∨ !d.disciplined ∨ (d.time - d.lastEx).toNat < 4 * s.exchangePeriod die then .refused .notDue
  else .next (s.setDie die { d with disciplined := false }).followMaster

/-! Exchanges with a neighbour (R363). -/

/-- A one-hop time packet on VC 2. -/
def State.timePacket (s : State) (port opc arg : Nat) : State :=
  s.inject
    { way := [BitVec.ofNat 8 (port + 0x40), 0x88], opc := opc, nb := 0, hop := 0, src := topoSelf s.topo, pasid := 0, va := 0,
      tag := 0, len := 0, cause := 0, arg := arg } []

/-- Whether a time packet may be sent on a port: what RouteCheck tests of one hop for every class and VC (R358, R359;
log entry 38). -/
def State.timeRoute (s : State) (port : Nat) : Bool :=
  let p := portRec s.topo (topoSelf s.topo) port
  p.valid && p.ls != 0 && topoKind s.topo p.peer == 1 && decide (1 ≤ topoMaxHops s.topo)

/-- The node at the far end of a port. -/
def State.neighbour (s : State) (port : Nat) : Nat := (portRec s.topo (topoSelf s.topo) port).peer

/-- The oldest delivered packet of an opcode from a node. -/
def State.timeItem (s : State) (opc src : Nat) : Option (Nat × Packet) :=
  (s.inbox.findIdx? fun p => p.hd.opc == opc && p.hd.src == src).bind fun i => (s.inbox[i]?).map fun p => (i, p)

/-- TIME_EXCHANGE_START (R363): the parent sends SYNC; FOLLOW, with the time at which SYNC left, is sent once it has (the
egress of PACKET_FORWARD). On a route that fails its check nothing is sent, and the exchange has failed. -/
def execTimeExchangeStart (port : Nat) (s : State) : Out :=
  if 12 ≤ port then .refused .notDue
  else if s.timeRoute port then .next (s.timePacket port 7 0)
  else .next s

/-- SYNC (R363): the child records its ingress time. -/
def execSync (t2 : DWord) (s : State) : Out :=
  match s.timeItem 7 (s.neighbour s.parentPort) with
  | none => .refused .notDue
  | some (i, p) =>
    if s.tmcfg.getLsbD 4 ∨ p.stamp ≠ t2 then .refused .notDue
    else .next { s.dropInbox i with exchange := { s.exchange with active := true, t2 := t2 } }

/-- FOLLOW (R363): the child takes t1 and sends DREQ, whose egress is t3. -/
def execFollow (t1 : DWord) (s : State) : Out :=
  match s.timeItem 8 (s.neighbour s.parentPort) with
  | none => .refused .notDue
  | some (i, p) =>
    if p.hd.arg % 2 ^ 64 ≠ t1.toNat ∨ !s.exchange.active then .refused .notDue
    else
      let s := s.dropInbox i
      let s : State := { s with exchange := { s.exchange with t1 := t1, active := s.timeRoute s.parentPort } }
      .next (if s.timeRoute s.parentPort then s.timePacket s.parentPort 9 0 else s)

/-- DREQ (R363): the parent answers with the request's ingress time. -/
def execDreq (port : Nat) (t4 : DWord) (s : State) : Out :=
  match s.timeItem 9 (s.neighbour port) with
  | none => .refused .notDue
  | some (i, p) =>
    if 12 ≤ port ∨ p.stamp ≠ t4 then .refused .notDue
    else
      let s := s.dropInbox i
      .next (if s.timeRoute port then s.timePacket port 10 t4.toNat else s)

/-- ε_fab after an exchange (R363): this hop's share, and that of the hops beyond the parent, which is open but for the 20 dtu of
one hop at least where the parent is not the grandmaster. -/
def State.epsilon (s : State) (recent : List Nat) : State × Nat :=
  let up := if s.neighbour s.parentPort = topoGm s.topo then 0 else max 20 (s.freeWord.toNat % 2 ^ 32)
  let s := if s.neighbour s.parentPort = topoGm s.topo then s else s.useFree
  (s, up + 20 + recent.foldl max 0)

/-- DRSP (R363, R364): the child computes offset and delay and corrects its package master. TSTAT shows the offset on every
die. -/
def execDrsp (t4 : DWord) (s : State) : Out :=
  match s.timeItem 10 (s.neighbour s.parentPort) with
  | none => .refused .notDue
  | some (i, p) =>
    let x := s.exchange
    if p.hd.arg % 2 ^ 64 ≠ t4.toNat ∨ !x.active then .refused .notDue
    else
      let twice := timeDiff x.t2 x.t1 - timeDiff t4 x.t3
      let recent := ((twice.natAbs + 1) / 2 :: x.recent).take 16
      let (s, eps) := (s.dropInbox i).epsilon recent
      let s := { s with exchange := { x with active := false, recent := recent, hopSum := eps, delay := timeDiff x.t2 x.t1 + timeDiff t4 x.t3 } }
      let s := s.setDevReg 0x883 (BitVec.ofNat 64 (2 ^ 32 + eps % 2 ^ 32))
      let s := (List.range 8).foldl (fun (s : State) d => s.setDie d { s.die d with offset := BitVec.ofInt 32 (twice / 2) }) s
      .next (s.measure 8 twice true)

end Sys2Proof.Machine
end

