-- ==== Sys2Proof/Machine/Boot.lean ====
section
/-!
DEFINITION. Power, the firmware images and the measurements, and attestation (R365 to R369). Log entries 22 and 40 name
what the specification leaves to the firmware.
-/
namespace Sys2Proof.Machine

/-! Images (R366). -/

/-- A stage image's fields: its header bytes 0 to 63, and its body. -/
def imageHead (img : List Byte) : List Byte := img.take 64
def imageLength (img : List Byte) : Nat := numAt img 8 4
def imageBody (img : List Byte) : List Byte := (img.drop 256).take (imageLength img)

/-- Whether an image is accepted for a stage. -/
def State.imageOk (s : State) (stage : Nat) (img : List Byte) : Bool :=
  let key := byteAt img 1
  let n := imageLength img
  let least := if stage = 1 then s.minSvn1 else s.minSvn2
  byteAt img 0 == stage && decide (key < 4) && zeroAt img 2 3 && zeroAt img 12 15 && zeroAt img 160 255
    && n % 64 == 0 && decide (64 ≤ n) && decide (n ≤ 2 ^ 24) && decide (256 + n ≤ img.length)
    && !s.revoked.getLsbD key && decide (least.toNat ≤ numAt img 4 4)
    && (img.drop 16).take 48 == sha384 (imageBody img)
    && Config.signatureVerifies key (imageHead img) ((img.drop 64).take 96)

/-! Measurements (R367). -/

/-- A measurement register extended. -/
def extendM (m : BitVec 384) (x : List Byte) : BitVec 384 := BitVec.ofNat 384 (leNat (sha384 (leBytes 48 m.toNat ++ x)))

/-- M3 extended by the values of control registers, one after another. -/
def extendAll (m : BitVec 384) (xs : List DWord) : BitVec 384 := xs.foldl (fun m x => extendM m (leBytes 8 x.toNat)) m

/-- The values that M3 takes again in a warm reset: PARTDIES, QUAR in number order, HSEMCTL. -/
def State.measured3 (s : State) : List DWord :=
  (List.range 8).map (fun p => s.devReg (0x800 + p)) ++ (List.range 64).map (fun k => s.devReg (0x808 + k)) ++ [s.devReg 0x848]

/-! Starting the supervisor (R365, steps 4 and 5). -/

/-- The supervisor thread `k` at its start: its code is the body of stage 2, at address 0. -/
def supervisorAgent (body : List Byte) (k : Nat) : Agent :=
  { Agent.start (.sup k) .sup ⟨8, 0, 0, k⟩ with code := body }

/-! The identity key (R368). -/

/-- HMAC-SHA-384 under a key of at most a block. -/
def hmac384 (key msg : List Byte) : List Byte :=
  let k := (List.range 128).map fun i => key.getD i 0
  sha384 (k.map (· ^^^ 0x5C) ++ sha384 (k.map (· ^^^ 0x36) ++ msg))

/-- The private half of the identity key that a fused secret gives. -/
def identityOf (secret : BitVec 256) : BitVec 384 := BitVec.ofNat 384 (leNat (hmac384 (leBytes 32 secret.toNat) Config.identityInfo))

/-- DEVID: the SHA-384 of the public half. -/
def State.devId (s : State) : List Byte := sha384 (Config.publicKey s.identity)

/-- Supervisor threads start at the body of stage 2; every other agent is gone. -/
def State.startSupervisor (s : State) : State :=
  let body := imageBody s.flash2
  { s with me := supervisorAgent body 0, agents := (List.range Config.moreSupervisors).map fun k => supervisorAgent body (k + 1) }

/-- MSI-X vector 0 on both host ports. -/
def State.announce (s : State) : State := { s with msix := s.msix ++ [(false, 0), (true, 0)] }

/-! Cold power-on (R365). -/

/-- What outlasts the loss of power: flash with the certificate, fuses with the secret, QUAR and the retirement list, which step 3
loads, and what is outside the device. -/
def State.unpowered (s : State) (p : Power) : State :=
  { State.reset with
    power := p, agenda := s.agenda, free := s.free, mem := s.mem.filter fun c => decide (2 ^ 56 ≤ c.1),
    cr := s.cr.filter fun r => decide (64 * 4096 + 0x808 ≤ r.1) && decide (r.1 < 64 * 4096 + 0x848),
    msix := s.msix, snoops := s.snoops, hdmRead := s.hdmRead, barRead := s.barRead, retired := s.retired, flash1 := s.flash1, flash2 := s.flash2,
    revoked := s.revoked, minSvn1 := s.minSvn1, minSvn2 := s.minSvn2, secret := s.secret,
    certificate := s.certificate, reports := s.reports }

/-- The dies that no other partition has (R281), as a mask. -/
def State.diesFree (s : State) (p : Nat) : DWord :=
  0xFF &&& ~~~(((List.range 8).filter fun q => q != p).foldl (fun (m : DWord) q => m ||| s.devReg (0x800 + q)) 0)

/-- Whether a write of the firmware to a register of level M takes effect: it sets no MBZ bit, and to PARTDIES it comes while the
partition has no valid context (R281 to R283). -/
def State.firmwareMay (s : State) (n : Nat) (value : DWord) : Bool :=
  csrFirmware n && !csrReadOnly n && (if n < 0x808 then decide (value.toNat < 256) else value &&& ~~~csrMask n == 0)
    && !(decide (n < 0x808) && (List.range 64).any fun c => s.ctxValid c && s.partOf c == n - 0x800)

/-- A write to PARTDIES would give a die to two partitions (R281). -/
def State.diesClash (s : State) (n : Nat) (value : DWord) : Bool :=
  decide (n < 0x808) && value &&& ~~~(s.diesFree (n - 0x800)) != 0

/-- A write of the firmware, which M3 measures (R367). -/
def State.firmwareWrite (s : State) (n : Nat) (value : DWord) : State :=
  { s.setDevReg n value with m3 := extendM s.m3 (leBytes 8 value.toNat) }

/-- What the root-of-trust firmware sets up in steps 3 and 4; die sets of different partitions are disjoint (R281). -/
def State.bringUp (s : State) : State :=
  let s := Config.bootWrites.foldl (fun (s : State) w =>
    if s.firmwareMay w.1 w.2 && !s.diesClash w.1 w.2 then s.firmwareWrite w.1 w.2 else s) s
  { s with supAsid := Config.bootAsid, supRoot := Config.bootRoot,
           mem := Memory.writeAll s.mem (Config.bootMemory.filter fun c => inHbm c.1 1) }

/-- Step 5 begins to train the Waldlink ports: each is TRAINING until LINK_STATE_CHANGE (R353, R356). -/
def State.trainLinks (s : State) : State := (List.range 12).foldl (fun (s : State) k => s.setLink k 3) s

/-- COLD_POWER_ON (R365): the steps of Table 1, up to a verification that fails. -/
def execColdPowerOn (s : State) : Out :=
  if s.power = .up then .refused .notDue
  else
    let s := s.unpowered .on
    let s := { s with identity := identityOf s.secret, m0 := extendM 0 Config.bootRomIdentity }
    if !s.imageOk 1 s.flash1 then .next { s with power := .recovery 2 }
    else
      let s := { s with m1 := extendM 0 (imageHead s.flash1) }
      if !s.imageOk 2 s.flash2 then .next { s with power := .recovery 4 }
      else
        let s := { s with m2 := extendM 0 (imageHead s.flash2) }.bringUp.startSupervisor.trainLinks
        .next { s with power := .up, hsem := { s.hsem with up0 := true, up1 := true } }.announce

/-- POWER_OFF (R367): what power held is gone. -/
def execPowerOff (s : State) : Out := if s.power = .off then .refused .notDue else .next (s.unpowered .off)

/-- The firmware writes a register of level M (R281 to R283, R367). A write that sets an MBZ bit, and one to PARTDIES of a
partition with a valid context, has no effect: the firmware has the trap. It keeps die sets disjoint. A write that completes to
PARTDIES, QUAR or HSEMCTL extends M3 (DESIGN CHOICE for when it writes, log entry 51). -/
def execFirmwareWrite (n : Nat) (value : DWord) (s : State) : Out :=
  if !csrFirmware n ∨ csrReadOnly n then .refused .notDue
  else if !s.firmwareMay n value then .next s
  else if s.diesClash n value then .refused .notDue
  else .next (s.firmwareWrite n value)

/-! BAR0's recovery window (R365, R366, R368). -/

/-- A fused minimum security version, raised and never lowered. -/
def State.raiseMinimum (s : State) (stage : Nat) (value : Word) : State :=
  if stage = 1 ∧ s.minSvn1.toNat < value.toNat then { s with minSvn1 := value }
  else if stage = 2 ∧ s.minSvn2.toNat < value.toNat then { s with minSvn2 := value }
  else s

/-- Whether the root-of-trust firmware, which step 2 starts, runs. -/
def Power.firmwareRuns (p : Power) : Bool :=
  match p with
  | .up => true
  | .recovery n => decide (2 < n)
  | _ => false

/-- A host's access to the recovery window: the firmware raises a minimum on its command, and it reads the certificate in flash.
It is open after a failed verification and while the device is up (DESIGN CHOICE, log entry 85). -/
def execWindow (a : WindowAccess) (s : State) : Out :=
  match a with
  | .raiseMinimum stage value => if s.power.firmwareRuns then .next (s.raiseMinimum stage value) else .refused .notDue
  | .readCertificate => .next { s with barRead := s.certificate }

/-! Attestation (R369). -/

/-- A list of `n` bytes: what is missing reads 0. -/
def padTo (n : Nat) (bs : List Byte) : List Byte := (List.range n).map fun i => bs.getD i 0

/-- Bytes 0 to 303 of a report (Table 3). -/
def State.reportHead (s : State) (nonce : List Byte) : List Byte :=
  leBytes 2 1 ++ [0, 0] ++ leBytes 4 (bitsOf (s.devReg 0x870) 32 32) ++ padTo 48 nonce
    ++ leBytes 48 s.m0.toNat ++ leBytes 48 s.m1.toNat ++ leBytes 48 s.m2.toNat ++ leBytes 48 s.m3.toNat
    ++ (List.range 8).flatMap (fun p => leBytes 1 (s.devReg (0x800 + p)).toNat) ++ padTo 48 s.devId

/-- A report. -/
def State.report (s : State) (nonce : List Byte) : List Byte :=
  let head := s.reportHead nonce
  head ++ padTo 96 (Config.reportSignature s.identity head) ++ List.replicate 112 0

/-- ATTESTATION_REQUEST (R369): the report appears in the port's mailbox. Reports of requests that arrive together do
not depend on which is served first. -/
def execAttestationRequest (port : Bool) (nonce : List Byte) (s : State) : Out :=
  if s.hsem.up port ∧ nonce.length = 48 then
    .next { s with reports := (port, s.report nonce) :: s.reports.filter fun r => r.1 != port }
  else .refused .notDue

end Sys2Proof.Machine
end

