-- ==== Sys2Proof/Decode.lean ====
section
/-!
DEFINITION. Decoding and encoding (R39 to R45, R56, R57). The decoder reads the little-endian bytes at the PC,
takes the fields of the word's format once, and answers the instruction with the bytes after it, or refuses by
name. The encoder writes the words of an instruction from the same formats.
-/
namespace Sys2Proof

/-- Why a word is no instruction. -/
inductive DecodeError where
  /-- Fewer bytes stand at the PC than the instruction has (R98: outside the code image). -/
  | truncated
  /-- The first halfword is 0x0000 (R40). -/
  | zeroHalfword
  /-- A major or a sub-op that R57 reserves. -/
  | reserved
  /-- A field marked MBZ is non-zero, or N = 1 where R54 forbids it. -/
  | field
  /-- A load or store that R55 restricts to SC = 0 carries another scope code. -/
  | scope
deriving DecidableEq, Repr

/-! The fields of the 32-bit formats (R42, Table 3). -/

def opField (w : Word) : BitVec 7 := w.extractLsb' 1 7
def dField (w : Word) : BitVec 7 := w.extractLsb' 8 7
def aField (w : Word) : BitVec 7 := w.extractLsb' 15 7
def bField (w : Word) : BitVec 7 := w.extractLsb' 22 7
def nField (w : Word) : BitVec 1 := w.extractLsb' 29 1
def sField (w : Word) : BitVec 2 := w.extractLsb' 30 2
def imm10Field (w : Word) : BitVec 10 := w.extractLsb' 22 10
def imm17Field (w : Word) : BitVec 17 := w.extractLsb' 15 17
def b5Field (w : Word) : BitVec 5 := w.extractLsb' 22 5
def subField (w : Word) : BitVec 2 := w.extractLsb' 27 2
def scField (w : Word) : BitVec 3 := w.extractLsb' 29 3

/-- A word of format R, G or E. -/
def wordR (s : BitVec 2) (n : BitVec 1) (b a d op : BitVec 7) : Word := s ++ n ++ b ++ a ++ d ++ op ++ 1#1

/-- A word of format I. -/
def wordI (imm : BitVec 10) (a d op : BitVec 7) : Word := imm ++ a ++ d ++ op ++ 1#1

/-- A word of format L or B. -/
def wordL (imm : BitVec 17) (d op : BitVec 7) : Word := imm ++ d ++ op ++ 1#1

/-- A word of format M. -/
def wordM (sc : BitVec 3) (s : BitVec 2) (b5 : BitVec 5) (a d op : BitVec 7) : Word :=
  sc ++ s ++ b5 ++ a ++ d ++ op ++ 1#1

/-- A 16-bit word (R41, Table 1). -/
def wordH (n : BitVec 1) (a d : BitVec 5) (op4 : BitVec 4) : Half := n ++ a ++ d ++ op4 ++ 0#1

/-- An operation if its MBZ condition holds (R42). -/
def mbz (ok : Bool) (i : Instr) : Except DecodeError Instr := if ok then .ok i else .error .field

/-- An operation that carries SC = 0 (R55). -/
def noScope (sc : BitVec 3) (i : Instr) : Except DecodeError Instr := if sc == 0 then .ok i else .error .scope

/-- The 16-bit operation of a halfword's fields (R41, Table 2). -/
def decodeHalf (n : BitVec 1) (a d : BitVec 5) (op4 : BitVec 4) : Except DecodeError Instr :=
  if op4 = 0#4 then .ok (.iadd16 n a d)
  else if op4 = 1#4 then .ok (.isub16 n a d)
  else if op4 = 2#4 then .ok (.imul16 n a d)
  else if op4 = 3#4 then .ok (.and16 n a d)
  else if op4 = 4#4 then .ok (.or16 n a d)
  else if op4 = 5#4 then .ok (.xor16 n a d)
  else if op4 = 6#4 then .ok (.shli16 n a d)
  else if op4 = 7#4 then .ok (.shri16 n a d)
  else if op4 = 8#4 then .ok (.mov16 n a d)
  else if op4 = 9#4 then .ok (.movi5 n a d)
  else if op4 = 10#4 then .ok (.fadd16 n a d)
  else if op4 = 11#4 then .ok (.fsub16 n a d)
  else if op4 = 12#4 then .ok (.fmul16 n a d)
  else if op4 = 13#4 then .ok (.fmax16 n a d)
  else if op4 = 14#4 then .ok (.icmplt16 n a d)
  else mbz (n == 0 && a == 0 && d == 0) .nop

/-- The operations of majors 0x00 to 0x2F in formats R, G and E (R56, Table 7). -/
def decodeLane (op : BitVec 7) (s : BitVec 2) (n : BitVec 1) (b a d : BitVec 7) : Except DecodeError Instr :=
  if op = 0x00#7 then
    if s = 0#2 then .ok (.iadd n b a d)
    else if s = 1#2 then .ok (.isub n b a d)
    else if s = 2#2 then .ok (.iadds n b a d)
    else .ok (.isubs n b a d)
  else if op = 0x01#7 then
    if s = 0#2 then .ok (.imul n b a d)
    else if s = 1#2 then .ok (.imulhi n b a d)
    else if s = 2#2 then .ok (.imulhiu n b a d)
    else mbz (n == 0) (.imad b a d)
  else if op = 0x02#7 then
    if s = 0#2 then .ok (.imin n b a d)
    else if s = 1#2 then .ok (.imax n b a d)
    else if s = 2#2 then .ok (.umin n b a d)
    else .ok (.umax n b a d)
  else if op = 0x03#7 then
    if s = 0#2 then .ok (.and n b a d)
    else if s = 1#2 then .ok (.or n b a d)
    else if s = 2#2 then .ok (.xor n b a d)
    else .ok (.andn n b a d)
  else if op = 0x04#7 then
    if s = 0#2 then .ok (.shl n b a d)
    else if s = 1#2 then .ok (.shr n b a d)
    else if s = 2#2 then .ok (.sra n b a d)
    else .ok (.rotl n b a d)
  else if op = 0x05#7 then
    if s = 0#2 then mbz (b == 0) (.popc n a d)
    else if s = 1#2 then mbz (b == 0) (.clz n a d)
    else if s = 2#2 then mbz (b == 0) (.brev n a d)
    else .ok (.bfx n b a d)
  else if op = 0x06#7 then
    if s = 0#2 then .ok (.bfi n b a d)
    else if s = 1#2 then mbz (b == 0) (.iabs n a d)
    else if s = 2#2 then .ok (.udiv n b a d)
    else .ok (.urem n b a d)
  else if op = 0x07#7 then
    if s = 0#2 then .ok (.lea n b a d)
    else if s = 1#2 then .ok (.lea2 n b a d)
    else if s = 2#2 then .ok (.lea4 n b a d)
    else .ok (.lea8 n b a d)
  else if op = 0x10#7 then
    if s = 0#2 then .ok (.fadd n b a d)
    else if s = 1#2 then .ok (.fsub n b a d)
    else if s = 2#2 then .ok (.fmul n b a d)
    else mbz (n == 0) (.fma b a d)
  else if op = 0x11#7 then
    if s = 0#2 then .ok (.fmin n b a d)
    else if s = 1#2 then .ok (.fmax n b a d)
    else if s = 2#2 then mbz (b == 0) (.fabs n a d)
    else mbz (b == 0) (.fneg n a d)
  else if op = 0x12#7 then
    if s = 0#2 then mbz (b == 0) (.frcp n a d)
    else if s = 1#2 then mbz (b == 0) (.frsq n a d)
    else if s = 2#2 then mbz (b == 0) (.fex2 n a d)
    else mbz (b == 0) (.flg2 n a d)
  else if op = 0x13#7 then
    if s = 0#2 then .ok (.faddBf2 n b a d)
    else if s = 1#2 then .ok (.fmulBf2 n b a d)
    else if s = 2#2 then mbz (n == 0) (.fmaBf2 b a d)
    else .ok (.fmaxBf2 n b a d)
  else if op = 0x14#7 then
    if s = 0#2 then .ok (.faddHf2 n b a d)
    else if s = 1#2 then .ok (.fmulHf2 n b a d)
    else if s = 2#2 then mbz (n == 0) (.fmaHf2 b a d)
    else .ok (.fmaxHf2 n b a d)
  else if op = 0x15#7 then
    if s = 0#2 then mbz (n == 0) (.fdot2Bf b a d)
    else if s = 1#2 then mbz (n == 0) (.fdot4E4 b a d)
    else if s = 2#2 then mbz (n == 0) (.fdot4E5 b a d)
    else mbz (n == 0) (.fdot8E2m1 b a d)
  else if op = 0x16#7 then
    if s = 0#2 then mbz (b == 0) (.raddF n a d)
    else if s = 1#2 then mbz (b == 0) (.rmaxF n a d)
    else if s = 2#2 then mbz (b == 0) (.raddI n a d)
    else mbz (b == 0) (.rmaxI n a d)
  else if op = 0x17#7 then
    if s = 0#2 then .ok (.fscale n b a d)
    else if s = 1#2 then mbz (b == 0) (.ffloor n a d)
    else if s = 2#2 then mbz (b == 0) (.frint n a d)
    else .error .reserved
  else if op = 0x20#7 then
    if s = 0#2 then mbz (b == 0) (.i2f n a d)
    else if s = 1#2 then mbz (b == 0) (.u2f n a d)
    else if s = 2#2 then mbz (b == 0) (.f2i n a d)
    else mbz (b == 0) (.f2u n a d)
  else if op = 0x21#7 then
    if s = 0#2 then .ok (.cvtBf2 n b a d)
    else if s = 1#2 then .ok (.cvtHf2 n b a d)
    else if s = 2#2 then mbz (n == 0) (.cvtE4 b a d)
    else mbz (n == 0) (.cvtE5 b a d)
  else if op = 0x22#7 then
    if s = 0#2 then mbz (n == 0) (.cvtsrE4 b a d)
    else if s = 1#2 then mbz (n == 0) (.cvtsrE5 b a d)
    else if s = 2#2 then mbz (n == 0) (.cvtsrE3m2 b a d)
    else mbz (n == 0) (.cvtsrE2m1 b a d)
  else if op = 0x23#7 then
    if s = 0#2 then mbz (n == 0 && b == 0) (.cvtE3m2 a d)
    else if s = 1#2 then mbz (n == 0 && b == 0) (.cvtE2m3 a d)
    else if s = 2#2 then mbz (n == 0 && b == 0) (.cvtE2m1 a d)
    else mbz (n == 0) (.cvtsrBf b a d)
  else if op = 0x24#7 then
    if s = 0#2 then .ok (.unpBf n b a d)
    else if s = 1#2 then .ok (.unpHf n b a d)
    else if s = 2#2 then .ok (.unpE4 n b a d)
    else .ok (.unpE5 n b a d)
  else if op = 0x25#7 then
    if s = 0#2 then .ok (.unpE3m2 n b a d)
    else if s = 1#2 then .ok (.unpE2m3 n b a d)
    else if s = 2#2 then .ok (.unpE2m1 n b a d)
    else mbz (n == 0) (.cvtsrE2m3 b a d)
  else if op = 0x28#7 then
    if s = 0#2 then .ok (.icmpeq n b a d)
    else if s = 1#2 then .ok (.icmplt n b a d)
    else if s = 2#2 then .ok (.icmpltu n b a d)
    else .ok (.icmple n b a d)
  else if op = 0x29#7 then
    if s = 0#2 then .ok (.fcmpeq n b a d)
    else if s = 1#2 then .ok (.fcmplt n b a d)
    else if s = 2#2 then .ok (.fcmple n b a d)
    else .ok (.fcmpun n b a d)
  else if op = 0x2A#7 then
    if s = 0#2 then mbz (n == 0) (.sel b a d)
    else if s = 1#2 then mbz (b == 0) (.ballot n a d)
    else if s = 2#2 then mbz (b == 0) (.matchLanes n a d)
    else mbz (b == 0 && a == 0) (.laneid n d)
  else if op = 0x2B#7 then
    if s = 0#2 then .ok (.shfl n b a d)
    else if s = 1#2 then .ok (.shflup n b a d)
    else if s = 2#2 then .ok (.shfldn n b a d)
    else .ok (.shflx n b a d)
  else if op = 0x2C#7 then
    if s = 0#2 then .ok (.rng4 n b a d)
    else if s = 1#2 then .ok (.rngu n b a d)
    else if s = 2#2 then .ok (.rngb n b a d)
    else .error .reserved
  else if op = 0x2D#7 then
    if s = 0#2 then mbz (b == 0) (.mov n a d)
    else if s = 1#2 then mbz (b == 0) (.movg n a d)
    else if s = 2#2 then mbz (n == 0 && b == 0) (.movvg a d)
    else mbz (n == 0 && b.extractLsb' 5 2 == 0) (.movvgl (b.extractLsb' 0 5) a d)
  else .error .reserved

/-- The operations of majors 0x40 to 0x4E in formats R, G and E (R56, Table 7). -/
def decodeGroupWide (op : BitVec 7) (s : BitVec 2) (n : BitVec 1) (b a d : BitVec 7) : Except DecodeError Instr :=
  if op = 0x40#7 then
    if s = 0#2 then mbz (n == 0) (.gadd b a d)
    else if s = 1#2 then mbz (n == 0) (.gsub b a d)
    else if s = 2#2 then mbz (n == 0) (.gmul b a d)
    else mbz (n == 0) (.gmad b a d)
  else if op = 0x41#7 then
    if s = 0#2 then mbz (n == 0) (.gand b a d)
    else if s = 1#2 then mbz (n == 0) (.gor b a d)
    else if s = 2#2 then mbz (n == 0) (.gxor b a d)
    else mbz (n == 0) (.gandn b a d)
  else if op = 0x42#7 then
    if s = 0#2 then mbz (n == 0) (.gshl b a d)
    else if s = 1#2 then mbz (n == 0) (.gshr b a d)
    else if s = 2#2 then mbz (n == 0) (.gsra b a d)
    else mbz (n == 0) (.gmin b a d)
  else if op = 0x43#7 then
    if s = 0#2 then mbz (n == 0) (.gcmpeq b a d)
    else if s = 1#2 then mbz (n == 0) (.gcmplt b a d)
    else if s = 2#2 then mbz (n == 0) (.gcmpltu b a d)
    else mbz (n == 0) (.gmax b a d)
  else if op = 0x47#7 then
    if s = 0#2 then mbz (n == 0 && a == 0) (.gsrd b d)
    else if s = 1#2 then mbz (n == 0 && d == 0) (.gswr b a)
    else if s = 2#2 then mbz (n == 0) (.xlt b a d)
    else mbz (n == 0 && b == 0) (.gmov a d)
  else if op = 0x4D#7 then
    if s = 0#2 then mbz (n == 0 && b == 0 && a == 0 && d == 0) .ret
    else if s = 1#2 then mbz (n == 0 && b == 0 && d == 0) (.jmpg a)
    else if s = 2#2 then mbz (n == 0 && b == 0 && a == 0 && d == 0) .fuse
    else mbz (n == 0 && b == 0 && a == 0 && d == 0) .exit
  else if op = 0x4E#7 then
    if s = 0#2 then mbz (n == 0 && b == 0 && a == 0) (.emrd d)
    else if s = 1#2 then mbz (n == 0 && b == 0 && d == 0) (.emwr a)
    else if s = 2#2 then mbz (n == 0 && b == 0 && a == 0 && d == 0) .yield
    else mbz (n == 0 && b == 0 && a == 0 && d == 0) .bkpt
  else .error .reserved

/-- The operations of majors 0x58 to 0x62 in formats R, G and E (R56, Table 7). -/
noncomputable def decodeEngine (op : BitVec 7) (s : BitVec 2) (n : BitVec 1) (b a d : BitVec 7) : Except DecodeError Instr :=
  if op = 0x58#7 then
    if s = 0#2 then mbz (n == 0 && d == 0) (.tdef b a)
    else if s = 1#2 then mbz (n == 0) (.tqry b a d)
    else if s = 2#2 then mbz (n == 0 && b == 0 && d == 0) (.tfree a)
    else mbz (n == 0 && d == 0) (.tscl b a)
  else if op = 0x59#7 then
    if s = 0#2 then mbz (n == 0) (.cpy b a d)
    else if s = 1#2 then mbz (n == 0) (.cpyt b a d)
    else if s = 2#2 then mbz (n == 0) (.gath b a d)
    else mbz (n == 0) (.scat b a d)
  else if op = 0x5A#7 then
    if s = 0#2 then mbz (n == 0) (.balloc b a d)
    else if s = 1#2 then mbz (n == 0 && b == 0 && d == 0) (.bfree a)
    else if s = 2#2 then mbz (n == 0 && d == 0) (.bexp b a)
    else mbz (n == 0) (.barv b a d)
  else if op = 0x5B#7 then
    if s = 0#2 then mbz (n == 0) (.bwait b a d)
    else if s = 1#2 then mbz (n == 0) (.bwaitt b a d)
    else if s = 2#2 then mbz (n == 0 && b == 0) (.btest a d)
    else mbz (n == 0) (.bref b a d)
  else if op = 0x5C#7 then
    if s = 0#2 then mbz (n == 0 && b == 0 && d == 0) (.mfeed a)
    else if s = 1#2 then mbz (n == 0 && b == 0 && d == 0) (.mdrain a)
    else if s = 2#2 then mbz (n == 0) (.msig b a d)
    else mbz (n == 0 && b == 0 && a == 0) (.mrecv d)
  else if op = 0x5D#7 then
    if s = 0#2 then mbz (n == 0 && d == 0) (.datt b a)
    else if s = 1#2 then mbz (n == 0 && d == 0) (.ddist b a)
    else if s = 2#2 then mbz (n == 0 && d == 0) (.dtopk b a)
    else mbz (n == 0 && d == 0) (.dkvap b a)
  else if op = 0x5E#7 then
    if s = 0#2 then mbz (n == 0 && b == 0) (.kvres a d)
    else if s = 1#2 then mbz (n == 0) (.kvreq b a d)
    else if s = 2#2 then mbz (n == 0) (.kvpin b a d)
    else mbz (n == 0) (.kvrel b a d)
  else if op = 0x5F#7 then
    if s = 0#2 then mbz (n == 0) (.lnch b a d)
    else if s = 1#2 then mbz (n == 0) (.lnchc b a d)
    else if s = 2#2 then mbz (n == 0 && b == 0) (.cancel a d)
    else mbz (n == 0 && b == 0) (.ccnt a d)
  else if op = 0x60#7 then
    if s = 0#2 then mbz (n == 0 && b == 0) (.ticket a d)
    else if s = 1#2 then mbz (n == 0) (.redeem b a d)
    else if s = 2#2 then mbz (n == 0) (.tkqry b a d)
    else mbz (n == 0 && b == 0) (.tkdrop a d)
  else if op = 0x61#7 then
    if s = 0#2 then mbz (n == 0 && d == 0) (.upd b a)
    else if s = 1#2 then mbz (n == 0 && b == 0) (.wvpub a d)
    else if s = 2#2 then mbz (n == 0) (.wvret b a d)
    else mbz (n == 0 && d == 0) (.norm b a)
  else if op = 0x62#7 then
    if s = 0#2 then mbz (n == 0) (.regq b a d)
    else if s = 1#2 then mbz (n == 0 && b == 0 && a == 0) (.snapm d)
    else if s = 2#2 then mbz (n == 0) (.pgreq b a d)
    else mbz (n == 0 && b.extractLsb' 4 3 == 0 && d == 0) (.trap (b.extractLsb' 0 4) a)
  else .error .reserved

/-- The operations of majors 0x68 to 0x73 in formats R, G and E (R56, Table 7). -/
noncomputable def decodeSystem (op : BitVec 7) (s : BitVec 2) (n : BitVec 1) (b a d : BitVec 7) : Except DecodeError Instr :=
  if op = 0x68#7 then
    if s = 0#2 then mbz (n == 0) (.mma b a d)
    else if s = 1#2 then mbz (n == 0) (.mmaSp b a d)
    else if s = 2#2 then mbz (n == 0) (.mmaz b a d)
    else mbz (n == 0) (.mmazSp b a d)
  else if op = 0x69#7 then
    if s = 0#2 then mbz (n == 0) (.epq b a d)
    else if s = 1#2 then mbz (n == 0) (.epst b a d)
    else if s = 2#2 then mbz (n == 0) (.epov b a d)
    else mbz (n == 0) (.accz b a d)
  else if op = 0x6A#7 then
    if s = 0#2 then mbz (n == 0 && b == 0 && a == 0) (.mbatch d)
    else if s = 1#2 then mbz (n == 0 && b == 0) (.mwait a d)
    else if s = 2#2 then mbz (n == 0 && b == 0 && d == 0) (.mclass a)
    else mbz (n == 0 && b == 0 && a == 0 && d == 0) .myld
  else if op = 0x6B#7 then
    if s = 0#2 then mbz (n == 0) (.mquad b a d)
    else if s = 1#2 then mbz (n == 0 && d == 0) (.mscale b a)
    else if s = 2#2 then .error .reserved
    else .error .reserved
  else if op = 0x70#7 then
    if s = 0#2 then mbz (n == 0 && b == 0) (.csrr a d)
    else if s = 1#2 then mbz (n == 0) (.csrw b a d)
    else if s = 2#2 then mbz (n == 0) (.csrs b a d)
    else mbz (n == 0) (.csrc b a d)
  else if op = 0x71#7 then
    if s = 0#2 then mbz (n == 0 && d == 0) (.tlbi b a)
    else if s = 1#2 then mbz (n == 0 && b == 0 && d == 0) (.tlbia a)
    else if s = 2#2 then mbz (n == 0 && d == 0) (.prefw b a)
    else mbz (n == 0) (.zeroRange b a d)
  else if op = 0x72#7 then
    if s = 0#2 then mbz (n == 0 && b == 0 && a == 0 && d == 0) .eret
    else if s = 1#2 then mbz (n == 0 && b == 0 && a == 0 && d == 0) .halt
    else if s = 2#2 then mbz (n == 0 && b == 0 && d == 0) (.hirq a)
    else mbz (n == 0 && b == 0) (.rtchk a d)
  else if op = 0x73#7 then
    if s = 0#2 then mbz (n == 0) (.ctxsv b a d)
    else if s = 1#2 then mbz (n == 0) (.ctxld b a d)
    else if s = 2#2 then mbz (n == 0 && b == 0) (.snapb a d)
    else mbz (n == 0) (.snapc b a d)
  else .error .reserved

/-- The operations of formats I, L and B (R43, R45). -/
def decodeImm (op : BitVec 7) (imm : BitVec 10) (a d : BitVec 7) (l : BitVec 17) : Except DecodeError Instr :=
  if op = 0x30#7 then .ok (.iaddi imm a d)
  else if op = 0x31#7 then .ok (.andi imm a d)
  else if op = 0x32#7 then .ok (.ori imm a d)
  else if op = 0x33#7 then .ok (.xori imm a d)
  else if op = 0x34#7 then mbz (imm.extractLsb' 5 5 == 0) (.shli (imm.extractLsb' 0 5) a d)
  else if op = 0x35#7 then mbz (imm.extractLsb' 5 5 == 0) (.shri (imm.extractLsb' 0 5) a d)
  else if op = 0x36#7 then mbz (imm.extractLsb' 5 5 == 0) (.srai (imm.extractLsb' 0 5) a d)
  else if op = 0x37#7 then .ok (.icmplti imm a d)
  else if op = 0x38#7 then .ok (.icmpeqi imm a d)
  else if op = 0x39#7 then .ok (.imuli imm a d)
  else if op = 0x3A#7 then .ok (.movi l d)
  else if op = 0x3B#7 then mbz (l.extractLsb' 16 1 == 0) (.movh (l.extractLsb' 0 16) d)
  else if op = 0x3C#7 then mbz (a == 0) (.srd imm d)
  else if op = 0x44#7 then .ok (.gaddi imm a d)
  else if op = 0x45#7 then .ok (.gmovi l d)
  else if op = 0x46#7 then mbz (l.extractLsb' 16 1 == 0) (.gshi16 (l.extractLsb' 0 16) d)
  else if op = 0x48#7 then mbz (d == 0) (.bra l)
  else if op = 0x49#7 then .ok (.brg l d)
  else if op = 0x4A#7 then .ok (.brzg l d)
  else if op = 0x4B#7 then .ok (.brv l d)
  else if op = 0x4C#7 then mbz (d == 0) (.call l)
  else if op = 0x4F#7 then .ok (.mskip l d)
  else .error .reserved

/-- The operations of format M (R44). -/
def decodeMem (op : BitVec 7) (sc : BitVec 3) (s : BitVec 2) (b5 : BitVec 5) (a d : BitVec 7) : Except DecodeError Instr :=
  if op = 0x50#7 then
    if s = 0#2 then noScope sc (.ld32 b5 a d)
    else if s = 1#2 then noScope sc (.ld64 b5 a d)
    else if s = 2#2 then noScope sc (.ld128 b5 a d)
    else noScope sc (.ld16 b5 a d)
  else if op = 0x51#7 then
    if s = 0#2 then noScope sc (.st32 b5 a d)
    else if s = 1#2 then noScope sc (.st64 b5 a d)
    else if s = 2#2 then noScope sc (.st128 b5 a d)
    else noScope sc (.st16 b5 a d)
  else if op = 0x52#7 then
    if s = 0#2 then noScope sc (.ld8 b5 a d)
    else if s = 1#2 then noScope sc (.st8 b5 a d)
    else if s = 2#2 then noScope sc (.ldnb b5 a d)
    else noScope sc (.stva b5 a d)
  else if op = 0x53#7 then
    if s = 0#2 then .ok (.atadd sc b5 a d)
    else if s = 1#2 then .ok (.atmax sc b5 a d)
    else if s = 2#2 then .ok (.atxch sc b5 a d)
    else .ok (.atcas sc b5 a d)
  else if op = 0x54#7 then
    if s = 0#2 then .ok (.ator sc b5 a d)
    else if s = 1#2 then .ok (.atand sc b5 a d)
    else if s = 2#2 then .ok (.atfadd sc b5 a d)
    else .ok (.atmin sc b5 a d)
  else if op = 0x55#7 then
    if s = 0#2 then mbz (a == 0 && d == 0) (.fence sc b5)
    else if s = 1#2 then mbz (a == 0 && d == 0) (.fenceE sc b5)
    else if s = 2#2 then .ok (.ldaq sc b5 a d)
    else .ok (.strl sc b5 a d)
  else if op = 0x56#7 then
    if s = 0#2 then noScope sc (.gld b5 a d)
    else if s = 1#2 then noScope sc (.gst b5 a d)
    else if s = 2#2 then .ok (.gldaq sc b5 a d)
    else .ok (.gstrl sc b5 a d)
  else .error .reserved

/-- The majors of formats I, L and B (R56). -/
def isImmMajor (op : BitVec 7) : Bool :=
  decide (0x30#7 ≤ op ∧ op ≤ 0x3C#7) || decide (0x44#7 ≤ op ∧ op ≤ 0x46#7) ||
    decide (0x48#7 ≤ op ∧ op ≤ 0x4C#7) || op == 0x4F#7

/-- The majors of format M (R56). -/
def isMemMajor (op : BitVec 7) : Bool := decide (0x50#7 ≤ op ∧ op ≤ 0x56#7)

/-- The operation of a 32-bit word (R42, R56). -/
noncomputable def decodeWord (w : Word) : Except DecodeError Instr :=
  let op := opField w
  if isImmMajor op then decodeImm op (imm10Field w) (aField w) (dField w) (imm17Field w)
  else if isMemMajor op then decodeMem op (scField w) (subField w) (b5Field w) (aField w) (dField w)
  else if op < 0x30#7 then decodeLane op (sField w) (nField w) (bField w) (aField w) (dField w)
  else if op < 0x50#7 then decodeGroupWide op (sField w) (nField w) (bField w) (aField w) (dField w)
  else if op < 0x68#7 then decodeEngine op (sField w) (nField w) (bField w) (aField w) (dField w)
  else decodeSystem op (sField w) (nField w) (bField w) (aField w) (dField w)

/-- The operation of a 16-bit halfword with bit 0 clear (R40, R41). -/
def decodeHalfWord (h : Half) : Except DecodeError Instr :=
  if h = 0#16 then .error .zeroHalfword
  else decodeHalf (h.extractLsb' 15 1) (h.extractLsb' 10 5) (h.extractLsb' 5 5) (h.extractLsb' 1 4)

/-- The little-endian halfword of two bytes (R1). -/
def halfOf (b0 b1 : Byte) : Half := b1 ++ b0

/-- Decoding: the instruction at the head of the bytes and the bytes after it (R39). -/
noncomputable def decode : List Byte → Except DecodeError (Instr × List Byte)
  | b0 :: b1 :: rest =>
    let h := halfOf b0 b1
    if h.getLsbD 0 then
      match rest with
      | b2 :: b3 :: rest' => (decodeWord (halfOf b2 b3 ++ h)).map (fun i => (i, rest'))
      | _ => if h = 0#16 then .error .zeroHalfword else .error .truncated
    else (decodeHalfWord h).map (fun i => (i, rest))
  | _ => .error .truncated

/-- The two bytes of a halfword, in memory order (R1). -/
def bytesOfHalf (h : Half) : List Byte := [h.extractLsb' 0 8, h.extractLsb' 8 8]

/-- The four bytes of a word, in memory order (R1, R39). -/
def bytesOfWord (w : Word) : List Byte := bytesOfHalf (w.extractLsb' 0 16) ++ bytesOfHalf (w.extractLsb' 16 16)

/-- The instruction of `nbits` table bits `w`, the bits above them zero: the decoder's answer on the bytes the
hardware stores for it. -/
noncomputable def decodeTableWord (nbits w : Nat) : Option Instr :=
  let bits : Word := BitVec.ofNat 32 (w % 2 ^ nbits)
  match decode (bytesOfWord bits) with
  | .ok (i, _) => some i
  | .error _ => none

/-- The encoded form of an instruction: one halfword, one word, or none for a step of the device, which no word
encodes. -/
inductive Encoding where
  | half (h : Half)
  | word (w : Word)
  | none
deriving DecidableEq, Repr

/-- The encoding of an instruction (R41 to R45, R56). -/
def encodeForm : Instr → Encoding
  | .iadd n b a d => .word (wordR 0#2 n b a d 0x00#7)
  | .isub n b a d => .word (wordR 1#2 n b a d 0x00#7)
  | .iadds n b a d => .word (wordR 2#2 n b a d 0x00#7)
  | .isubs n b a d => .word (wordR 3#2 n b a d 0x00#7)
  | .imul n b a d => .word (wordR 0#2 n b a d 0x01#7)
  | .imulhi n b a d => .word (wordR 1#2 n b a d 0x01#7)
  | .imulhiu n b a d => .word (wordR 2#2 n b a d 0x01#7)
  | .imad b a d => .word (wordR 3#2 0#1 b a d 0x01#7)
  | .imin n b a d => .word (wordR 0#2 n b a d 0x02#7)
  | .imax n b a d => .word (wordR 1#2 n b a d 0x02#7)
  | .umin n b a d => .word (wordR 2#2 n b a d 0x02#7)
  | .umax n b a d => .word (wordR 3#2 n b a d 0x02#7)
  | .and n b a d => .word (wordR 0#2 n b a d 0x03#7)
  | .or n b a d => .word (wordR 1#2 n b a d 0x03#7)
  | .xor n b a d => .word (wordR 2#2 n b a d 0x03#7)
  | .andn n b a d => .word (wordR 3#2 n b a d 0x03#7)
  | .shl n b a d => .word (wordR 0#2 n b a d 0x04#7)
  | .shr n b a d => .word (wordR 1#2 n b a d 0x04#7)
  | .sra n b a d => .word (wordR 2#2 n b a d 0x04#7)
  | .rotl n b a d => .word (wordR 3#2 n b a d 0x04#7)
  | .popc n a d => .word (wordR 0#2 n 0#7 a d 0x05#7)
  | .clz n a d => .word (wordR 1#2 n 0#7 a d 0x05#7)
  | .brev n a d => .word (wordR 2#2 n 0#7 a d 0x05#7)
  | .bfx n b a d => .word (wordR 3#2 n b a d 0x05#7)
  | .bfi n b a d => .word (wordR 0#2 n b a d 0x06#7)
  | .iabs n a d => .word (wordR 1#2 n 0#7 a d 0x06#7)
  | .udiv n b a d => .word (wordR 2#2 n b a d 0x06#7)
  | .urem n b a d => .word (wordR 3#2 n b a d 0x06#7)
  | .lea n b a d => .word (wordR 0#2 n b a d 0x07#7)
  | .lea2 n b a d => .word (wordR 1#2 n b a d 0x07#7)
  | .lea4 n b a d => .word (wordR 2#2 n b a d 0x07#7)
  | .lea8 n b a d => .word (wordR 3#2 n b a d 0x07#7)
  | .fadd n b a d => .word (wordR 0#2 n b a d 0x10#7)
  | .fsub n b a d => .word (wordR 1#2 n b a d 0x10#7)
  | .fmul n b a d => .word (wordR 2#2 n b a d 0x10#7)
  | .fma b a d => .word (wordR 3#2 0#1 b a d 0x10#7)
  | .fmin n b a d => .word (wordR 0#2 n b a d 0x11#7)
  | .fmax n b a d => .word (wordR 1#2 n b a d 0x11#7)
  | .fabs n a d => .word (wordR 2#2 n 0#7 a d 0x11#7)
  | .fneg n a d => .word (wordR 3#2 n 0#7 a d 0x11#7)
  | .frcp n a d => .word (wordR 0#2 n 0#7 a d 0x12#7)
  | .frsq n a d => .word (wordR 1#2 n 0#7 a d 0x12#7)
  | .fex2 n a d => .word (wordR 2#2 n 0#7 a d 0x12#7)
  | .flg2 n a d => .word (wordR 3#2 n 0#7 a d 0x12#7)
  | .faddBf2 n b a d => .word (wordR 0#2 n b a d 0x13#7)
  | .fmulBf2 n b a d => .word (wordR 1#2 n b a d 0x13#7)
  | .fmaBf2 b a d => .word (wordR 2#2 0#1 b a d 0x13#7)
  | .fmaxBf2 n b a d => .word (wordR 3#2 n b a d 0x13#7)
  | .faddHf2 n b a d => .word (wordR 0#2 n b a d 0x14#7)
  | .fmulHf2 n b a d => .word (wordR 1#2 n b a d 0x14#7)
  | .fmaHf2 b a d => .word (wordR 2#2 0#1 b a d 0x14#7)
  | .fmaxHf2 n b a d => .word (wordR 3#2 n b a d 0x14#7)
  | .fdot2Bf b a d => .word (wordR 0#2 0#1 b a d 0x15#7)
  | .fdot4E4 b a d => .word (wordR 1#2 0#1 b a d 0x15#7)
  | .fdot4E5 b a d => .word (wordR 2#2 0#1 b a d 0x15#7)
  | .fdot8E2m1 b a d => .word (wordR 3#2 0#1 b a d 0x15#7)
  | .raddF n a d => .word (wordR 0#2 n 0#7 a d 0x16#7)
  | .rmaxF n a d => .word (wordR 1#2 n 0#7 a d 0x16#7)
  | .raddI n a d => .word (wordR 2#2 n 0#7 a d 0x16#7)
  | .rmaxI n a d => .word (wordR 3#2 n 0#7 a d 0x16#7)
  | .fscale n b a d => .word (wordR 0#2 n b a d 0x17#7)
  | .ffloor n a d => .word (wordR 1#2 n 0#7 a d 0x17#7)
  | .frint n a d => .word (wordR 2#2 n 0#7 a d 0x17#7)
  | .i2f n a d => .word (wordR 0#2 n 0#7 a d 0x20#7)
  | .u2f n a d => .word (wordR 1#2 n 0#7 a d 0x20#7)
  | .f2i n a d => .word (wordR 2#2 n 0#7 a d 0x20#7)
  | .f2u n a d => .word (wordR 3#2 n 0#7 a d 0x20#7)
  | .cvtBf2 n b a d => .word (wordR 0#2 n b a d 0x21#7)
  | .cvtHf2 n b a d => .word (wordR 1#2 n b a d 0x21#7)
  | .cvtE4 b a d => .word (wordR 2#2 0#1 b a d 0x21#7)
  | .cvtE5 b a d => .word (wordR 3#2 0#1 b a d 0x21#7)
  | .cvtsrE4 b a d => .word (wordR 0#2 0#1 b a d 0x22#7)
  | .cvtsrE5 b a d => .word (wordR 1#2 0#1 b a d 0x22#7)
  | .cvtsrE3m2 b a d => .word (wordR 2#2 0#1 b a d 0x22#7)
  | .cvtsrE2m1 b a d => .word (wordR 3#2 0#1 b a d 0x22#7)
  | .cvtE3m2 a d => .word (wordR 0#2 0#1 0#7 a d 0x23#7)
  | .cvtE2m3 a d => .word (wordR 1#2 0#1 0#7 a d 0x23#7)
  | .cvtE2m1 a d => .word (wordR 2#2 0#1 0#7 a d 0x23#7)
  | .cvtsrBf b a d => .word (wordR 3#2 0#1 b a d 0x23#7)
  | .unpBf n b a d => .word (wordR 0#2 n b a d 0x24#7)
  | .unpHf n b a d => .word (wordR 1#2 n b a d 0x24#7)
  | .unpE4 n b a d => .word (wordR 2#2 n b a d 0x24#7)
  | .unpE5 n b a d => .word (wordR 3#2 n b a d 0x24#7)
  | .unpE3m2 n b a d => .word (wordR 0#2 n b a d 0x25#7)
  | .unpE2m3 n b a d => .word (wordR 1#2 n b a d 0x25#7)
  | .unpE2m1 n b a d => .word (wordR 2#2 n b a d 0x25#7)
  | .cvtsrE2m3 b a d => .word (wordR 3#2 0#1 b a d 0x25#7)
  | .icmpeq n b a d => .word (wordR 0#2 n b a d 0x28#7)
  | .icmplt n b a d => .word (wordR 1#2 n b a d 0x28#7)
  | .icmpltu n b a d => .word (wordR 2#2 n b a d 0x28#7)
  | .icmple n b a d => .word (wordR 3#2 n b a d 0x28#7)
  | .fcmpeq n b a d => .word (wordR 0#2 n b a d 0x29#7)
  | .fcmplt n b a d => .word (wordR 1#2 n b a d 0x29#7)
  | .fcmple n b a d => .word (wordR 2#2 n b a d 0x29#7)
  | .fcmpun n b a d => .word (wordR 3#2 n b a d 0x29#7)
  | .sel b a d => .word (wordR 0#2 0#1 b a d 0x2A#7)
  | .ballot n a d => .word (wordR 1#2 n 0#7 a d 0x2A#7)
  | .matchLanes n a d => .word (wordR 2#2 n 0#7 a d 0x2A#7)
  | .laneid n d => .word (wordR 3#2 n 0#7 0#7 d 0x2A#7)
  | .shfl n b a d => .word (wordR 0#2 n b a d 0x2B#7)
  | .shflup n b a d => .word (wordR 1#2 n b a d 0x2B#7)
  | .shfldn n b a d => .word (wordR 2#2 n b a d 0x2B#7)
  | .shflx n b a d => .word (wordR 3#2 n b a d 0x2B#7)
  | .rng4 n b a d => .word (wordR 0#2 n b a d 0x2C#7)
  | .rngu n b a d => .word (wordR 1#2 n b a d 0x2C#7)
  | .rngb n b a d => .word (wordR 2#2 n b a d 0x2C#7)
  | .mov n a d => .word (wordR 0#2 n 0#7 a d 0x2D#7)
  | .movg n a d => .word (wordR 1#2 n 0#7 a d 0x2D#7)
  | .movvg a d => .word (wordR 2#2 0#1 0#7 a d 0x2D#7)
  | .movvgl l a d => .word (wordR 3#2 0#1 (l.setWidth 7) a d 0x2D#7)
  | .iaddi i a d => .word (wordI i a d 0x30#7)
  | .andi i a d => .word (wordI i a d 0x31#7)
  | .ori i a d => .word (wordI i a d 0x32#7)
  | .xori i a d => .word (wordI i a d 0x33#7)
  | .shli i a d => .word (wordI (i.setWidth 10) a d 0x34#7)
  | .shri i a d => .word (wordI (i.setWidth 10) a d 0x35#7)
  | .srai i a d => .word (wordI (i.setWidth 10) a d 0x36#7)
  | .icmplti i a d => .word (wordI i a d 0x37#7)
  | .icmpeqi i a d => .word (wordI i a d 0x38#7)
  | .imuli i a d => .word (wordI i a d 0x39#7)
  | .movi i d => .word (wordL i d 0x3A#7)
  | .movh i d => .word (wordL (i.setWidth 17) d 0x3B#7)
  | .srd i d => .word (wordI i 0#7 d 0x3C#7)
  | .iadd16 n a d => .half (wordH n a d 0#4)
  | .isub16 n a d => .half (wordH n a d 1#4)
  | .imul16 n a d => .half (wordH n a d 2#4)
  | .and16 n a d => .half (wordH n a d 3#4)
  | .or16 n a d => .half (wordH n a d 4#4)
  | .xor16 n a d => .half (wordH n a d 5#4)
  | .shli16 n i d => .half (wordH n i d 6#4)
  | .shri16 n i d => .half (wordH n i d 7#4)
  | .mov16 n a d => .half (wordH n a d 8#4)
  | .movi5 n i d => .half (wordH n i d 9#4)
  | .fadd16 n a d => .half (wordH n a d 10#4)
  | .fsub16 n a d => .half (wordH n a d 11#4)
  | .fmul16 n a d => .half (wordH n a d 12#4)
  | .fmax16 n a d => .half (wordH n a d 13#4)
  | .icmplt16 n a d => .half (wordH n a d 14#4)
  | .nop => .half (wordH 0#1 0#5 0#5 15#4)
  | .gadd b a d => .word (wordR 0#2 0#1 b a d 0x40#7)
  | .gsub b a d => .word (wordR 1#2 0#1 b a d 0x40#7)
  | .gmul b a d => .word (wordR 2#2 0#1 b a d 0x40#7)
  | .gmad b a d => .word (wordR 3#2 0#1 b a d 0x40#7)
  | .gand b a d => .word (wordR 0#2 0#1 b a d 0x41#7)
  | .gor b a d => .word (wordR 1#2 0#1 b a d 0x41#7)
  | .gxor b a d => .word (wordR 2#2 0#1 b a d 0x41#7)
  | .gandn b a d => .word (wordR 3#2 0#1 b a d 0x41#7)
  | .gshl b a d => .word (wordR 0#2 0#1 b a d 0x42#7)
  | .gshr b a d => .word (wordR 1#2 0#1 b a d 0x42#7)
  | .gsra b a d => .word (wordR 2#2 0#1 b a d 0x42#7)
  | .gmin b a d => .word (wordR 3#2 0#1 b a d 0x42#7)
  | .gcmpeq b a d => .word (wordR 0#2 0#1 b a d 0x43#7)
  | .gcmplt b a d => .word (wordR 1#2 0#1 b a d 0x43#7)
  | .gcmpltu b a d => .word (wordR 2#2 0#1 b a d 0x43#7)
  | .gmax b a d => .word (wordR 3#2 0#1 b a d 0x43#7)
  | .gaddi i a d => .word (wordI i a d 0x44#7)
  | .gmovi i d => .word (wordL i d 0x45#7)
  | .gshi16 i d => .word (wordL (i.setWidth 17) d 0x46#7)
  | .gsrd b d => .word (wordR 0#2 0#1 b 0#7 d 0x47#7)
  | .gswr b a => .word (wordR 1#2 0#1 b a 0#7 0x47#7)
  | .xlt b a d => .word (wordR 2#2 0#1 b a d 0x47#7)
  | .gmov a d => .word (wordR 3#2 0#1 0#7 a d 0x47#7)
  | .bra x => .word (wordL x 0#7 0x48#7)
  | .brg x p => .word (wordL x p 0x49#7)
  | .brzg x p => .word (wordL x p 0x4A#7)
  | .brv x p => .word (wordL x p 0x4B#7)
  | .call x => .word (wordL x 0#7 0x4C#7)
  | .ret => .word (wordR 0#2 0#1 0#7 0#7 0#7 0x4D#7)
  | .jmpg a => .word (wordR 1#2 0#1 0#7 a 0#7 0x4D#7)
  | .fuse => .word (wordR 2#2 0#1 0#7 0#7 0#7 0x4D#7)
  | .exit => .word (wordR 3#2 0#1 0#7 0#7 0#7 0x4D#7)
  | .emrd d => .word (wordR 0#2 0#1 0#7 0#7 d 0x4E#7)
  | .emwr a => .word (wordR 1#2 0#1 0#7 a 0#7 0x4E#7)
  | .yield => .word (wordR 2#2 0#1 0#7 0#7 0#7 0x4E#7)
  | .bkpt => .word (wordR 3#2 0#1 0#7 0#7 0#7 0x4E#7)
  | .mskip x p => .word (wordL x p 0x4F#7)
  | .ld32 f a d => .word (wordM 0#3 0#2 f a d 0x50#7)
  | .ld64 f a d => .word (wordM 0#3 1#2 f a d 0x50#7)
  | .ld128 f a d => .word (wordM 0#3 2#2 f a d 0x50#7)
  | .ld16 f a d => .word (wordM 0#3 3#2 f a d 0x50#7)
  | .st32 f a d => .word (wordM 0#3 0#2 f a d 0x51#7)
  | .st64 f a d => .word (wordM 0#3 1#2 f a d 0x51#7)
  | .st128 f a d => .word (wordM 0#3 2#2 f a d 0x51#7)
  | .st16 f a d => .word (wordM 0#3 3#2 f a d 0x51#7)
  | .ld8 f a d => .word (wordM 0#3 0#2 f a d 0x52#7)
  | .st8 f a d => .word (wordM 0#3 1#2 f a d 0x52#7)
  | .ldnb f a d => .word (wordM 0#3 2#2 f a d 0x52#7)
  | .stva f a d => .word (wordM 0#3 3#2 f a d 0x52#7)
  | .atadd c f a d => .word (wordM c 0#2 f a d 0x53#7)
  | .atmax c f a d => .word (wordM c 1#2 f a d 0x53#7)
  | .atxch c f a d => .word (wordM c 2#2 f a d 0x53#7)
  | .atcas c f a d => .word (wordM c 3#2 f a d 0x53#7)
  | .ator c f a d => .word (wordM c 0#2 f a d 0x54#7)
  | .atand c f a d => .word (wordM c 1#2 f a d 0x54#7)
  | .atfadd c f a d => .word (wordM c 2#2 f a d 0x54#7)
  | .atmin c f a d => .word (wordM c 3#2 f a d 0x54#7)
  | .fence c f => .word (wordM c 0#2 f 0#7 0#7 0x55#7)
  | .fenceE c f => .word (wordM c 1#2 f 0#7 0#7 0x55#7)
  | .ldaq c f a d => .word (wordM c 2#2 f a d 0x55#7)
  | .strl c f a d => .word (wordM c 3#2 f a d 0x55#7)
  | .gld f a d => .word (wordM 0#3 0#2 f a d 0x56#7)
  | .gst f a d => .word (wordM 0#3 1#2 f a d 0x56#7)
  | .gldaq c f a d => .word (wordM c 2#2 f a d 0x56#7)
  | .gstrl c f a d => .word (wordM c 3#2 f a d 0x56#7)
  | .tdef b a => .word (wordR 0#2 0#1 b a 0#7 0x58#7)
  | .tqry b a d => .word (wordR 1#2 0#1 b a d 0x58#7)
  | .tfree a => .word (wordR 2#2 0#1 0#7 a 0#7 0x58#7)
  | .tscl b a => .word (wordR 3#2 0#1 b a 0#7 0x58#7)
  | .cpy b a d => .word (wordR 0#2 0#1 b a d 0x59#7)
  | .cpyt b a d => .word (wordR 1#2 0#1 b a d 0x59#7)
  | .gath b a d => .word (wordR 2#2 0#1 b a d 0x59#7)
  | .scat b a d => .word (wordR 3#2 0#1 b a d 0x59#7)
  | .balloc b a d => .word (wordR 0#2 0#1 b a d 0x5A#7)
  | .bfree a => .word (wordR 1#2 0#1 0#7 a 0#7 0x5A#7)
  | .bexp b a => .word (wordR 2#2 0#1 b a 0#7 0x5A#7)
  | .barv b a d => .word (wordR 3#2 0#1 b a d 0x5A#7)
  | .bwait b a d => .word (wordR 0#2 0#1 b a d 0x5B#7)
  | .bwaitt b a d => .word (wordR 1#2 0#1 b a d 0x5B#7)
  | .btest a d => .word (wordR 2#2 0#1 0#7 a d 0x5B#7)
  | .bref b a d => .word (wordR 3#2 0#1 b a d 0x5B#7)
  | .mfeed a => .word (wordR 0#2 0#1 0#7 a 0#7 0x5C#7)
  | .mdrain a => .word (wordR 1#2 0#1 0#7 a 0#7 0x5C#7)
  | .msig b a d => .word (wordR 2#2 0#1 b a d 0x5C#7)
  | .mrecv d => .word (wordR 3#2 0#1 0#7 0#7 d 0x5C#7)
  | .datt b a => .word (wordR 0#2 0#1 b a 0#7 0x5D#7)
  | .ddist b a => .word (wordR 1#2 0#1 b a 0#7 0x5D#7)
  | .dtopk b a => .word (wordR 2#2 0#1 b a 0#7 0x5D#7)
  | .dkvap b a => .word (wordR 3#2 0#1 b a 0#7 0x5D#7)
  | .kvres a d => .word (wordR 0#2 0#1 0#7 a d 0x5E#7)
  | .kvreq b a d => .word (wordR 1#2 0#1 b a d 0x5E#7)
  | .kvpin b a d => .word (wordR 2#2 0#1 b a d 0x5E#7)
  | .kvrel b a d => .word (wordR 3#2 0#1 b a d 0x5E#7)
  | .lnch b a d => .word (wordR 0#2 0#1 b a d 0x5F#7)
  | .lnchc b a d => .word (wordR 1#2 0#1 b a d 0x5F#7)
  | .cancel a d => .word (wordR 2#2 0#1 0#7 a d 0x5F#7)
  | .ccnt a d => .word (wordR 3#2 0#1 0#7 a d 0x5F#7)
  | .ticket a d => .word (wordR 0#2 0#1 0#7 a d 0x60#7)
  | .redeem b a d => .word (wordR 1#2 0#1 b a d 0x60#7)
  | .tkqry b a d => .word (wordR 2#2 0#1 b a d 0x60#7)
  | .tkdrop a d => .word (wordR 3#2 0#1 0#7 a d 0x60#7)
  | .upd b a => .word (wordR 0#2 0#1 b a 0#7 0x61#7)
  | .wvpub a d => .word (wordR 1#2 0#1 0#7 a d 0x61#7)
  | .wvret b a d => .word (wordR 2#2 0#1 b a d 0x61#7)
  | .norm b a => .word (wordR 3#2 0#1 b a 0#7 0x61#7)
  | .regq b a d => .word (wordR 0#2 0#1 b a d 0x62#7)
  | .snapm d => .word (wordR 1#2 0#1 0#7 0#7 d 0x62#7)
  | .pgreq b a d => .word (wordR 2#2 0#1 b a d 0x62#7)
  | .trap t a => .word (wordR 3#2 0#1 (t.setWidth 7) a 0#7 0x62#7)
  | .mma b a d => .word (wordR 0#2 0#1 b a d 0x68#7)
  | .mmaSp b a d => .word (wordR 1#2 0#1 b a d 0x68#7)
  | .mmaz b a d => .word (wordR 2#2 0#1 b a d 0x68#7)
  | .mmazSp b a d => .word (wordR 3#2 0#1 b a d 0x68#7)
  | .epq b a d => .word (wordR 0#2 0#1 b a d 0x69#7)
  | .epst b a d => .word (wordR 1#2 0#1 b a d 0x69#7)
  | .epov b a d => .word (wordR 2#2 0#1 b a d 0x69#7)
  | .accz b a d => .word (wordR 3#2 0#1 b a d 0x69#7)
  | .mbatch d => .word (wordR 0#2 0#1 0#7 0#7 d 0x6A#7)
  | .mwait a d => .word (wordR 1#2 0#1 0#7 a d 0x6A#7)
  | .mclass a => .word (wordR 2#2 0#1 0#7 a 0#7 0x6A#7)
  | .myld => .word (wordR 3#2 0#1 0#7 0#7 0#7 0x6A#7)
  | .mquad b a d => .word (wordR 0#2 0#1 b a d 0x6B#7)
  | .mscale b a => .word (wordR 1#2 0#1 b a 0#7 0x6B#7)
  | .csrr a d => .word (wordR 0#2 0#1 0#7 a d 0x70#7)
  | .csrw b a d => .word (wordR 1#2 0#1 b a d 0x70#7)
  | .csrs b a d => .word (wordR 2#2 0#1 b a d 0x70#7)
  | .csrc b a d => .word (wordR 3#2 0#1 b a d 0x70#7)
  | .tlbi b a => .word (wordR 0#2 0#1 b a 0#7 0x71#7)
  | .tlbia a => .word (wordR 1#2 0#1 0#7 a 0#7 0x71#7)
  | .prefw b a => .word (wordR 2#2 0#1 b a 0#7 0x71#7)
  | .zeroRange b a d => .word (wordR 3#2 0#1 b a d 0x71#7)
  | .eret => .word (wordR 0#2 0#1 0#7 0#7 0#7 0x72#7)
  | .halt => .word (wordR 1#2 0#1 0#7 0#7 0#7 0x72#7)
  | .hirq a => .word (wordR 2#2 0#1 0#7 a 0#7 0x72#7)
  | .rtchk a d => .word (wordR 3#2 0#1 0#7 a d 0x72#7)
  | .ctxsv b a d => .word (wordR 0#2 0#1 b a d 0x73#7)
  | .ctxld b a d => .word (wordR 1#2 0#1 b a d 0x73#7)
  | .snapb a d => .word (wordR 2#2 0#1 0#7 a d 0x73#7)
  | .snapc b a d => .word (wordR 3#2 0#1 b a d 0x73#7)
  | .storePerform _ => .none
  | .timedStorePerform _ _ => .none
  | .ldnbPerform _ => .none
  | .gathStatusArrive _ _ => .none
  | .barvArrival _ => .none
  | .bwaitReturn _ => .none
  | .bwaittTimeout _ => .none
  | .copyCommandComplete _ _ => .none
  | .cpytWriteRelease _ _ => .none
  | .bulkQueuePublish _ => .none
  | .bulkEntryStart _ => .none
  | .bulkEntryComplete _ _ => .none
  | .completionRecordWrite _ => .none
  | .pageRequestComplete _ _ => .none
  | .launchAnswer _ => .none
  | .unitAdmit _ _ _ _ => .none
  | .launchBecomesBlocking _ _ => .none
  | .launchComplete _ _ => .none
  | .launchCommit _ _ => .none
  | .snapmRelease _ _ => .none
  | .slotRelease _ => .none
  | .preemptionStop _ => .none
  | .mxeStep _ _ => .none
  | .mquadInstall _ => .none
  | .mwaitReturn _ => .none
  | .mdrainRead _ => .none
  | .mrecvWake _ => .none
  | .dcePage _ => .none
  | .kvRequestComplete _ _ _ => .none
  | .kvVictimAction _ => .none
  | .updStart _ _ => .none
  | .updTileCommit _ _ => .none
  | .normApply _ _ => .none
  | .stagingBufferTake _ _ => .none
  | .delivery _ _ => .none
  | .replicaCommit _ => .none
  | .replicaLockTimeout _ _ => .none
  | .pageWalk _ _ _ _ => .none
  | .walkSlotGrant _ => .none
  | .hsemClaim _ _ => .none
  | .hsemRelease _ _ => .none
  | .hostLinkDown _ => .none
  | .bar0ControlWrite _ _ _ => .none
  | .hostHdmAccess _ _ _ _ => .none
  | .submissionRingTake _ => .none
  | .attestationRequest _ _ => .none
  | .faultRecordDeliver => .none
  | .faultRingDrain _ => .none
  | .rollback _ _ => .none
  | .contextCreate _ _ => .none
  | .contextEnd _ => .none
  | .asidChange _ _ _ => .none
  | .factNone _ _ => .none
  | .factKill _ _ => .none
  | .factReplay _ _ => .none
  | .factResume _ _ => .none
  | .topoReload _ => .none
  | .routesReload _ => .none
  | .haltResume _ => .none
  | .eccCorrected _ _ => .none
  | .eccUncorrectable _ => .none
  | .rowRetire _ => .none
  | .checkerMismatch _ _ => .none
  | .warmReset _ _ => .none
  | .throttleEvent _ => .none
  | .thermalLimit _ _ => .none
  | .coldPowerOn => .none
  | .digest _ _ _ _ _ => .none
  | .digestTimeout _ _ => .none
  | .read _ => .none
  | .write _ => .none
  | .atomic _ => .none
  | .rddata _ => .none
  | .wrack _ => .none
  | .atrsp _ => .none
  | .sync _ => .none
  | .follow _ => .none
  | .dreq _ _ => .none
  | .drsp _ => .none
  | .packetForward _ _ _ => .none
  | .flowStop _ _ _ => .none
  | .flowGo _ _ _ => .none
  | .linkDown _ => .none
  | .linkStateChange _ _ => .none
  | .peerRequestTimeout _ => .none
  | .timeExchangeStart _ => .none
  | .packageTimeExchange _ _ => .none
  | .ptmSync _ => .none
  | .disciplineLoss _ => .none
  | .dieTimeTick _ _ => .none
  | .wordThatDoesNotExecute _ => .none
  | .linkLevelReplay _ => .none
  | .hostLinkUp _ => .none
  | .powerOff => .none
  | .throttleEnd _ => .none
  | .zeroComplete _ => .none

/-- The bytes of an instruction in memory order: empty for a step of the device. -/
def encode (i : Instr) : List Byte :=
  match encodeForm i with
  | .half h => bytesOfHalf h
  | .word w => bytesOfWord w
  | .none => []

/-- The bytes an instruction occupies (R39). -/
def Instr.size (i : Instr) : Nat :=
  match encodeForm i with
  | .half _ => 2
  | .word _ => 4
  | .none => 0

/-- Whether an instruction has an encoding, and so is one that an agent fetches. -/
def Instr.isWord (i : Instr) : Bool := encodeForm i != .none

/-! Words that do not execute (R57, R59). -/

/-- Fixed-zero bits that some rows of the encoding tables have beside their format's own, by major × 4 + sub-op. -/
def fixedZero : List (Nat × Word) :=
  [(0x7, 0x20000000), (0x14, 0x1FC00000), (0x15, 0x1FC00000), (0x16, 0x1FC00000), (0x19, 0x1FC00000), (0x43, 0x20000000), (0x46, 0x1FC00000), (0x47, 0x1FC00000)] ++
  [(0x48, 0x1FC00000), (0x49, 0x1FC00000), (0x4A, 0x1FC00000), (0x4B, 0x1FC00000), (0x4E, 0x20000000), (0x52, 0x20000000), (0x54, 0x20000000), (0x55, 0x20000000)] ++
  [(0x56, 0x20000000), (0x57, 0x20000000), (0x58, 0x1FC00000), (0x59, 0x1FC00000), (0x5A, 0x1FC00000), (0x5B, 0x1FC00000), (0x5D, 0x1FC00000), (0x5E, 0x1FC00000)] ++
  [(0x80, 0x1FC00000), (0x81, 0x1FC00000), (0x82, 0x1FC00000), (0x83, 0x1FC00000), (0x86, 0x20000000), (0x87, 0x20000000), (0x88, 0x20000000), (0x89, 0x20000000)] ++
  [(0x8A, 0x20000000), (0x8B, 0x20000000), (0x8C, 0x3FC00000), (0x8D, 0x3FC00000), (0x8E, 0x3FC00000), (0x8F, 0x20000000), (0x97, 0x20000000), (0xA8, 0x20000000)] ++
  [(0xA9, 0x1FC00000), (0xAA, 0x1FC00000), (0xAB, 0x1FFF8000), (0xB4, 0x1FC00000), (0xB5, 0x1FC00000), (0xB6, 0x3FC00000), (0xB7, 0x38000000), (0xD0, 0xF8000000)] ++
  [(0xD4, 0xF8000000), (0xD8, 0xF8000000), (0xEC, 0x80000000), (0xF0, 0x3F8000), (0x118, 0x80000000), (0x11C, 0x3F8000), (0x11D, 0x7F00), (0x11F, 0x1FC00000)] ++
  [(0x120, 0x7F00), (0x130, 0x7F00), (0x134, 0x1FFFFF00), (0x135, 0x1FC07F00), (0x136, 0x1FFFFF00), (0x137, 0x1FFFFF00), (0x138, 0x1FFF8000), (0x139, 0x1FC07F00)] ++
  [(0x13A, 0x1FFFFF00), (0x13B, 0x1FFFFF00), (0x154, 0x3FFF00), (0x155, 0x3FFF00), (0x160, 0x7F00), (0x162, 0x1FC07F00), (0x163, 0x7F00), (0x169, 0x1FC07F00)] ++
  [(0x16A, 0x7F00), (0x16E, 0x1FC00000), (0x170, 0x1FC07F00), (0x171, 0x1FC07F00), (0x173, 0x1FFF8000), (0x174, 0x7F00), (0x175, 0x7F00), (0x176, 0x7F00)] ++
  [(0x177, 0x7F00), (0x178, 0x1FC00000), (0x17E, 0x1FC00000), (0x17F, 0x1FC00000), (0x180, 0x1FC00000), (0x183, 0x1FC00000), (0x184, 0x7F00), (0x185, 0x1FC00000)] ++
  [(0x187, 0x7F00), (0x189, 0x1FFF8000), (0x18B, 0x1C007F00), (0x1A8, 0x1FFF8000), (0x1A9, 0x1FC00000), (0x1AA, 0x1FC07F00), (0x1AB, 0x1FFFFF00), (0x1AD, 0x7F00)] ++
  [(0x1C0, 0x1FC00000), (0x1C4, 0x7F00), (0x1C5, 0x1FC07F00), (0x1C6, 0x7F00), (0x1C8, 0x1FFFFF00), (0x1C9, 0x1FFFFF00), (0x1CA, 0x1FC07F00), (0x1CB, 0x1FC00000)] ++
  [(0x1CE, 0x1FC00000)]

/-- The majors that R57 reserves, and 0x7F. -/
def reservedMajor (op : Nat) : Bool :=
  [(0x08, 0x0F), (0x18, 0x1F), (0x26, 0x27), (0x2E, 0x2F), (0x3D, 0x3F), (0x57, 0x57), (0x63, 0x67), (0x6C, 0x6F),
   (0x74, 0x7F)].any fun x => decide (x.1 ≤ op) && decide (op ≤ x.2)

/-- The sub-op of a word: [28:27] in the M format, [31:30] in R, G and E, none in I, L and B (R42, Table 4). -/
def subOp (w : Word) : Nat :=
  let op := (opField w).toNat
  if 0x50 ≤ op ∧ op ≤ 0x56 then (subField w).toNat
  else if (0x30 ≤ op ∧ op ≤ 0x3C) ∨ (0x44 ≤ op ∧ op ≤ 0x46) ∨ (0x48 ≤ op ∧ op ≤ 0x4C) ∨ op = 0x4F then 0
  else (sField w).toNat

/-- Whether the format of a major has [29] MBZ: G and E (R42). -/
def fixedN (op : Nat) : Bool :=
  (decide (0x40 ≤ op) && decide (op ≤ 0x43)) || op == 0x47 || op == 0x4D || op == 0x4E
    || (decide (0x58 ≤ op) && decide (op ≤ 0x73))

/-- The first reason, in the order of R59, for which a 32-bit word is no instruction; `none` for an instruction. -/
def wordCheck (w : Word) : Option DecodeError :=
  let op := (opField w).toNat
  let s := subOp w
  let m : Word := ((fixedZero.find? fun x => x.1 == op * 4 + s).map (·.2)).getD 0 ||| (if fixedN op then 0x20000000 else 0)
  if reservedMajor op then some .reserved
  else if (op = 0x17 ∧ s = 3) ∨ (op = 0x2C ∧ s = 3) ∨ (op = 0x6B ∧ 2 ≤ s) then some .reserved
  else if w &&& m ≠ 0 then some .field
  else if scField w ≠ 0 ∧ ((0x50 ≤ op ∧ op ≤ 0x52) ∨ (op = 0x56 ∧ s < 2)) then some .scope
  else none

/-- The same for a halfword whose bit 0 is 0 (R40, R41). -/
def halfCheck (h : Half) : Option DecodeError :=
  if h = 0 then some .zeroHalfword
  else if h.extractLsb' 1 4 = 15 ∧ h.extractLsb' 5 11 ≠ 0 then some .field
  else none

/-! End of words that do not execute. -/

end Sys2Proof
end

