-- ==== Sys2Proof/Machine/Illegal.lean ====
section
/-!
DEFINITION. The step in which an agent meets a word that does not execute (R57 to R59).
-/
namespace Sys2Proof.Machine

/-- The units of a major and sub-op (R56, R58, R278, R280). -/
def wordUnits (op s : Nat) : Units :=
  if op < 0x40 then .core
  else if op ≤ 0x4A ∨ op = 0x4C then .all
  else if op = 0x4D then (if s = 2 then .core else .all)
  else if op = 0x53 ∨ op = 0x54 then (if op = 0x54 ∧ s = 2 then .core else .coreSup)
  else if op = 0x55 then (if s < 2 then .coreSup else .core)
  else if op = 0x56 ∨ op = 0x5A ∨ op = 0x5B then .all
  else if op = 0x62 then (if s = 3 then .all else .core)
  else if 0x68 ≤ op ∧ op ≤ 0x6B then .csq
  else if 0x70 ≤ op ∧ op ≤ 0x73 then .sup
  else .core

/-- The trap that a word which is no instruction meets on a unit (R59); `none` for an instruction. The low halfword
alone is a 16-bit form's. -/
def wordCause (w : Word) (k : Kind) : Option Cause :=
  if w.getLsbD 0 then
    match wordCheck w with
    | some .reserved => some .illegalOpcode
    | some .field => some (((wordUnits (opField w).toNat (subOp w)).trap k).getD .illegalField)
    | some .scope => some (((wordUnits (opField w).toNat (subOp w)).trap k).getD .illegalScope)
    | _ => none
  else
    match halfCheck (w.extractLsb' 0 16) with
    | some .zeroHalfword => some .zeroHalfword
    | some _ => some .illegalField
    | none => none

/-- The g register whose value a word would jump to, if it has the major and sub-op of RET or JMPG (R98). -/
def jumpSource (w : Word) : Option Nat :=
  if opField w = 0x4D then
    match subOp w with
    | 0 => some 62
    | 1 => if bitsOf (w.setWidth 64) 15 7 < 64 then some (bitsOf (w.setWidth 64) 15 7) else none
    | _ => none
  else none

/-- WORD_THAT_DOES_NOT_EXECUTE (R59): the first trap of the order; the chain is discarded. A RET or JMPG with a set MBZ bit
and an odd target meets PC_ALIGN first. -/
def execWordThatDoesNotExecute (w : Word) (s : State) : Out :=
  match wordCause w s.me.kind with
  | none => .refused .notDue
  | some c =>
    match if w.getLsbD 0 && c == .illegalField then jumpSource w else none with
    | none => .next (takeTrap s c)
    | some r =>
      guard { Need.of .all with wide := gReg r } s fun s =>
        .next (takeTrap s (if (s.me.readG r).getLsbD 0 then .pcAlign else c))

end Sys2Proof.Machine
end

