-- ==== Sys2Proof/Machine/Reliability.lean ====
section
/-!
DEFINITION. Errors in storage and arithmetic, retirement, warm reset, replica lock time-outs and the thermal limits
(R180, R338, R339, R346 to R348, R370).
-/
namespace Sys2Proof.Machine

/-! ECC (R338). -/

/-- A device-wide counter goes up by one. -/
def State.countDev (s : State) (n : Nat) : State := s.setDevReg n (s.devReg n + 1)

/-- ECC_CORRECTED (R338): in an SRAM array, or in the row of HBM that a frame is (DEDUCED, log entry 39). -/
def execEccCorrected (die : Nat) (frame : Option Nat) (s : State) : Out :=
  if 8 ≤ die then .refused .notDue
  else
    let s := s.countDev (0x860 + die)
    match frame with
    | none => .next s
    | some pa =>
      if pa / 2 ^ 37 ≠ die ∨ !inHbm pa 1 then .refused .notDue
      else
        let d := s.die die
        let n := pa / 2 ^ 16
        .next (s.setDie die { d with corrected := Store.set 0 d.corrected n (Store.get 0 d.corrected n + 1) })

/-- Whether a location lies in storage of this device. -/
def ownStorage (k : Nat) : Bool := paExists k 1 || (decide (2 ^ 52 ≤ k) && decide (k < 2 ^ 52 + 4096 * 2 ^ 19))

/-- A number among those of a list, once. -/
def withOnce (x : Nat) (xs : List Nat) : List Nat := if xs.contains x then xs else x :: xs

/-- ECC_UNCORRECTABLE (R338, R348): the aligned 16-byte unit is poisoned; a row of HBM in which it occurs is to be retired. -/
def execEccUncorrectable (key : Nat) (s : State) : Out :=
  if ownStorage key then
    .next { s with poison := withOnce (key / 16) s.poison,
                   badRows := if inHbm key 1 then withOnce (key / 2 ^ 16) s.badRows else s.badRows }
  else .refused .notDue

/-! Retirement (R348). -/

/-- Whether a frame's row is to be retired: 16 corrected errors, or an uncorrectable one. -/
def State.rowBad (s : State) (pa : Nat) : Bool :=
  decide (16 ≤ Store.get 0 (s.die (pa / 2 ^ 37)).corrected (pa / 2 ^ 16)) || s.badRows.contains (pa / 2 ^ 16)

/-- ROW_RETIRE (R348): the frame is appended to the retirement list, or, with 4,096 entries there, kept in the overflow
list. -/
def execRowRetire (pa : Nat) (s : State) : Out :=
  let frame := pa / 2 ^ 16 * 2 ^ 16
  if !inHbm pa 1 ∨ !s.rowBad pa ∨ s.meetsRetired frame 1 then .refused .notDue
  else
    let s := { s with badRows := s.badRows.filter fun r => r != pa / 2 ^ 16 }
    if s.retired.length < 4096 then
      let va := bitsOf (s.devReg 0x871) 12 44 * 2 ^ 12 + 8 * s.retired.length
      .next { s.supWrite va (leBytes 8 frame) with retired := s.retired ++ [frame] }
    else
      .next { s.setDevReg 0x871 (s.devReg 0x871 ||| 1) with overflow := s.overflow ++ [frame], msix := s.msix ++ [(false, 2), (true, 2)] }

/-! Commands that complete in error (R152, R180, R339). -/

/-- What a die's command of a sequence number is: its unit and whether that is deterministic. -/
def State.commandUnit (s : State) (die seq : Nat) : Option (UnitKey × Bool) :=
  let d := s.die die
  let mx := (List.range 4).flatMap fun k => (List.range 4).filterMap fun c => ((s.cluster die k).queue c).head?
  ((d.copyQ ++ d.heldT).map (fun c => (c.seq, c.unit)) ++ d.bulkQ.map (fun b => (b.seq, b.unit))
    ++ d.dceQ.map (fun c => (c.seq, c.unit)) ++ d.updQ.map (fun c => (c.seq, c.unit)) ++ mx.map fun o => (o.seq, o.unit)).findSome?
      fun (x : Nat × UnitKey) => if x.1 = seq then some (x.2, s.unitDet x.2) else none

/-- The requests of a command are no longer waited for. -/
def State.forgetRequests (s : State) (die seq : Nat) : State :=
  { s with requests := s.requests.filter fun r => r.who.isSome || r.die != die || r.seq != seq }

/-- A copy command ends in error: it counts, or its rows report it. -/
def State.failCopy (s : State) (die : Nat) (held : Bool) (i : Nat) (c : CopyCmd) (st : DWord) : State :=
  match c.work with
  | .rows _ d em _ _ _ _ => (s.dropCopy die held i).arriveRows c.who d em ((allLanes.filter em.getLsbD).map fun l => (l, 5))
  | .tile _ _ dst => s.countCopy die held i { c with bytes := dst.byteCount, status := statusMerge c.status st }
  | .node _ => (s.countCopy die held i { c with status := statusMerge c.status st }).endNode c.unit

/-- A DCE command ends in error. -/
def State.failDce (s : State) (die : Nat) (c : DceCmd) (st : DWord) : State :=
  let d := s.die die
  let s := s.setDie die { d with dceQ := d.dceQ.filter fun x => x.seq != c.seq }
  (s.complete ⟨c.seq, c.who, c.unit, c.env.det, c.bar, c.handle, dceCount c (s.shapeOf c), 0, statusMerge c.status st⟩ d.time).endNode c.unit

/-- An update-engine command ends in error; one that still waits on its norm barrier lets it go. -/
def State.failUpd (s : State) (die i : Nat) (c : UpdCmd) (st : DWord) : State :=
  let s := match c.normBar with
    | some b => if c.started then s else s.setBarrier b (s.barrier b).release
    | none => s
  s.endUpd die i { c with status := statusMerge c.status st }

/-- The operation at the head of a class's queue ends in error; an MMA, which has none to report, ends (R216, R229; log entry
86). -/
def State.failOp (s : State) (op : MxOp) (st : DWord) : State :=
  match op.work with
  | .epi kind a out ctl scale flags divisor =>
    s.endOp { op with bytes := (s.epiRun op kind a out ctl scale flags divisor).bytes, status := statusMerge op.status st }
  | _ => s.popHead { op with status := statusMerge op.status st }

/-- The command of a die with a sequence number ends in error with a cause. -/
def State.failCommand (s : State) (die seq : Nat) (c : Cause) : State :=
  let st := errStatus c
  let s := s.forgetRequests die seq
  let d := s.die die
  match d.copyQ.findIdx? (fun x => x.seq == seq), d.heldT.findIdx? (fun x => x.seq == seq) with
  | some i, _ => match d.copyQ[i]? with | some x => s.failCopy die false i x st | none => s
  | _, some i => match d.heldT[i]? with | some x => s.failCopy die true i x st | none => s
  | none, none =>
    match d.bulkQ.findIdx? (fun x => x.seq == seq), d.dceQ.find? (fun x => x.seq == seq),
        d.updQ.findIdx? (fun x => x.seq == seq) with
    | some i, _, _ => match d.bulkQ[i]? with | some x => s.endBulk die i x (statusMerge x.status st) | none => s
    | _, some x, _ => s.failDce die x st
    | _, _, some i => match d.updQ[i]? with | some x => s.failUpd die i x st | none => s
    | none, none, none =>
      let mx := (List.range 4).flatMap fun k => (List.range 4).filterMap fun q => ((s.cluster die k).queue q).head?
      match mx.find? fun o => o.seq == seq with
      | some o => s.failOp o st
      | none => s

/-! Replica locks (R180). -/

/-- Whether a step of a command ends in the stall that `p` finds. -/
def stallsAgain (o : Out) (p : State → Bool) : Bool := match o with | .next t => p t | _ => false

/-- An operation at the head of a class's queue takes its next step. -/
def State.headStep (s : State) (op : MxOp) : Out :=
  match op.work with
  | .mma zero sparse acc a nk bfmt scale bitmap w => s.mmaStep op zero sparse acc a nk bfmt scale bitmap w
  | .epi kind acc out ctl scale flags divisor => s.epiStep op kind acc out ctl scale flags divisor
  | _ => .refused .notDue

/-- Whether the next read of a command of a die, if it were only now to meet them, meets a locked replica. -/
def State.meetsLock (s : State) (die seq : Nat) : Bool :=
  let d := s.die die
  ((numbered d.copyQ).any fun x => x.2.seq == seq &&
    let s := s.setCopy die false x.1 { x.2 with stall := none }
    stallsAgain (match x.2.work with
      | .rows .. => execGathStatusArrive die x.1 s
      | _ => execCopyCommandComplete die x.1 s) fun t => ((t.die die).copyQ[x.1]?).any fun c => c.stall.isSome)
  || ((numbered d.heldT).any fun x => x.2.seq == seq &&
    stallsAgain (execCpytWriteRelease die x.1 (s.setCopy die true x.1 { x.2 with stall := none }))
      fun t => ((t.die die).heldT[x.1]?).any fun c => c.stall.isSome)
  || ((numbered d.bulkQ).any fun x => x.2.seq == seq &&
    stallsAgain (execBulkEntryComplete die x.1 (s.setDie die { d with bulkQ := d.bulkQ.set x.1 { x.2 with stall := none } }))
      fun t => ((t.die die).bulkQ[x.1]?).any fun b => b.stall.isSome)
  || (d.dceQ.any fun c => c.seq == seq &&
    stallsAgain (underRegs c.unit.ctx c.regs (fun s => s.dcePage die { c with stall := none }) s)
      fun t => (t.die die).dceQ.any fun x => x.seq == seq && x.stall.isSome)
  || ((numbered d.updQ).any fun x => x.2.seq == seq &&
    let s := s.setUpd die x.1 { x.2 with stall := none }
    let again := fun (t : State) => ((t.die die).updQ[x.1]?).any fun c => c.stall.isSome
    stallsAgain (execUpdTileCommit die x.1 s) again || stallsAgain (execNormApply die x.1 s) again)
  || (List.range 4).any fun k => (List.range 4).any fun q => ((s.cluster die k).queue q).head?.any fun o =>
      o.seq == seq && stallsAgain (s.headStep { o with stall := none }) fun t =>
        ((t.cluster die k).queue q).head?.any fun x => x.seq == seq && x.stall.isSome

/-- The stall of a command of a die that no longer meets a locked replica is over: its 40,000 dtu are those of one stall (R180). -/
def State.liftStalls (s : State) (die : Nat) : State :=
  let left := fun (seq : Nat) (t : Option DWord) => if t.isSome && s.meetsLock die seq then t else none
  let d := s.die die
  let s := s.setDie die
    { d with copyQ := d.copyQ.map fun c => { c with stall := left c.seq c.stall },
             heldT := d.heldT.map fun c => { c with stall := left c.seq c.stall },
             bulkQ := d.bulkQ.map fun b => { b with stall := left b.seq b.stall },
             dceQ := d.dceQ.map fun c => { c with stall := left c.seq c.stall },
             updQ := d.updQ.map fun c => { c with stall := left c.seq c.stall } }
  (List.range 4).foldl (fun (s : State) k =>
    let x := s.cluster die k
    let f := fun (op : MxOp) => { op with stall := left op.seq op.stall }
    s.setCluster die k { x with queue0 := x.queue0.map f, queue1 := x.queue1.map f, queue2 := x.queue2.map f,
                                queue3 := x.queue3.map f }) s

/-- REPLICA_COMMIT (R179): a commit takes its next step; with the locks that its last one releases, stalls end. -/
def execReplicaCommit (i : Nat) (s : State) : Out :=
  match s.commitStep i with
  | .next t => .next (if (s.commits[i]?).any Commit.locked then (List.range 8).foldl State.liftStalls t else t)
  | o => o

/-- The die time at which a command's reads first met a locked replica. -/
def State.stallOf (s : State) (die seq : Nat) : Option DWord :=
  let d := s.die die
  let mx := (List.range 4).flatMap fun k => (List.range 4).filterMap fun c => ((s.cluster die k).queue c).head?
  ((d.copyQ ++ d.heldT).map (fun c => (c.seq, c.stall)) ++ d.bulkQ.map (fun b => (b.seq, b.stall)) ++ d.dceQ.map (fun c => (c.seq, c.stall))
    ++ d.updQ.map (fun c => (c.seq, c.stall)) ++ mx.map fun o => (o.seq, o.stall)).findSome?
      fun (x : Nat × Option DWord) => if x.1 = seq then x.2 else none

/-- REPLICA_LOCK_TIMEOUT (R180): a read of the command with a sequence number has been stalled for 40,000 dtu by a lock; the
command completes in error and still counts. -/
def execReplicaLockTimeout (die i : Nat) (s : State) : Out :=
  match s.stallOf die i with
  | none => .refused .notDue
  | some t =>
    if 40000 ≤ ((s.die die).time - t).toNat ∧ s.meetsLock die i then .next (s.failCommand die i .replicaLockTimeout)
    else .refused .notDue

/-! Warm reset (R346, R347). -/

/-- A barrier that a request names is gone. -/
def KvRequest.unbarred (r : KvRequest) : KvRequest := { r with bar := none }
def PageRequest.unbarred (r : PageRequest) : PageRequest := { r with bar := none }
def RedeemRun.unbarred (r : RedeemRun) : RedeemRun := { r with bar := none }

/-- Step 3: every SRAM array is zeroed, and the logic of the compute dies and the hub die is reset. Commits whose locks
are all held have taken effect, as writes of their launches (R340); others have not. -/
def State.clearLogic (s : State) : State :=
  let s := (s.commits.filter fun c => c.locked).foldl (fun (s : State) c => c.apply s) s
  let outside := fun (k : Nat) => decide (k < 2 ^ 40) || decide (2 ^ 56 ≤ k)
  { s with
    mem := s.mem.filter fun c => outside c.1, poison := s.poison.filter fun q => outside (q * 16), units := [], tables := [],
    barriers := [], clusters := [], cores := [], padOwner := [], pending := [], commits := [], packets := [], inbox := [], requests := [],
    exchange := State.reset.exchange,
    dies := s.dies.foldl (fun m d => Store.set Die.fresh m d.1
      { Die.fresh with time := d.2.time, offset := d.2.offset, lastEx := d.2.lastEx, throttled := d.2.throttled, corrected := d.2.corrected }) s.dies,
    contexts := s.contexts.foldl (fun m c => Store.set Context.fresh m c.1
      { c.2 with kvReqs := c.2.kvReqs.map KvRequest.unbarred, runs := c.2.runs.map RedeemRun.unbarred }) s.contexts,
    parts := s.parts.foldl (fun m p => Store.set Partition.fresh m p.1
      { p.2 with requests := p.2.requests.map PageRequest.unbarred }) s.parts,
    launches := s.launches.map fun (l : Launch) => { l with bar := none } }

/-- The Waldlink ports are DOWN for the length of the reset and retrained in it, to the state that each had (Table 2, step 5;
DESIGN CHOICE, log entry 41). -/
def State.retrainLinks (s : State) : State :=
  (List.range 12).foldl (fun (s : State) k =>
    let ls := (s.port k).ls
    if ls = 0 then s else (s.setLink k 0).setLink k ls) s

/-- A launch that the reset ends: FAULTED, as its graph and its phase, with a record of policy 1. -/
def State.endByReset (s : State) (l : Launch) (c : Cause) : State :=
  let s := s.faultGraph l
  let l := { l with faulted := true, stopping := true, held := false, rollback := none }
  let p : Pending :=
    { cause := c, kind := .asynchronous, sub := 0, lane := none, ctx := l.ctx, launch := l.id, unit := none, who := none,
      place := none, group := 0, csq := false, em := 0, headPc := 0, pc := 0, inChain := false, det := l.det, addr := 0,
      detail := 0, aux := 0, throttled := false, time := (s.die (l.dies.headD 0)).time,
      engine := 16 * l.dies.headD 0, cycle := none, policy := some 1 }
  ({ s with pending := s.pending ++ [p] }.setContext l.ctx ((s.context l.ctx).forgetPubs l.id)).finishLaunch l

/-- Whether a launch is replayed after a reset: it sets REPLAY and has not been exposed since its first admission. -/
def Launch.replaysAfterReset (l : Launch) : Bool := l.replayable && !l.stopping && (l.replay.isSome || l.next == 0)

/-- A launch is replayed after a reset from its copies. One that stands pending after a rollback is accepted anew, and one of
which no unit has started stands as it was accepted. -/
def State.replayAfterReset (s : State) (l : Launch) : State :=
  if l.replay.isSome then s.rollback l true
  else if l.held then s.setLaunch { l with held := false, replays := l.replays + 1 }
  else s

/-- Step 7: incomplete launches (R347). -/
def State.settleLaunches (s : State) (c : Cause) : State :=
  let open' := s.launches.filter fun l => !l.complete
  let s := (open'.filter fun l => !l.replaysAfterReset).foldl (fun (s : State) (l : Launch) =>
    match s.launch l.ctx l.id with
    | some l => if l.complete then s else s.endByReset l c
    | none => s) s
  (open'.filter Launch.replaysAfterReset).foldl (fun (s : State) (l : Launch) =>
    match s.launch l.ctx l.id with
    | some l => if l.complete then s else s.replayAfterReset l
    | none => s) s

/-- A warm reset with its cause and the die that it is logged for (R346, R347, R365 to R367). -/
def State.warmReset (s : State) (die : Nat) (c : Cause) : State :=
  let n := bitsOf (s.devReg 0x870) 32 32 + 1
  let s := s.clearLogic.retrainLinks
  let s := s.setDevReg 0x870 (BitVec.ofNat 64 (n * 2 ^ 32 + c.code * 2 ^ 8 + die % 256))
  let s := { s with m2 := 0, m3 := 0 }
  if !s.imageOk 2 s.flash2 then { s.unpowered (.recovery 4) with m0 := s.m0, m1 := s.m1, identity := s.identity }
  else
    let s := { s with m2 := extendM 0 (imageHead s.flash2), m3 := extendAll 0 s.measured3 }
    (s.startSupervisor.settleLaunches c).announce

/-! Checkers (R339). -/

/-- CHK of every digest entry goes up by one: of every model that a valid context has (R351; DEDUCED, log entry 49). -/
def State.countChk (s : State) : State :=
  (List.range 64).foldl (fun (s : State) c =>
    if s.ctxValid c && s.hasDigests c then
      (List.range 256).foldl (fun (s : State) m =>
        if !mdAbsent (s.model c m) then
          let at' := s.digestAt c m + 24
          s.ctxWrite c at' (leBytes 4 (s.ctxNum c at' 4 + 1))
        else s) s
    else s) s

/-- A checker event of a die is counted; the hub die has no CHKCNT. -/
def State.countChecker (s : State) (die : Nat) : State :=
  let s := if die < 8 then s.countDev (0x868 + die) else s
  s.countChk

/-- The precise trap of an agent whose turn it need not be: its chain is discarded. -/
def State.trapAgent (s : State) (a : Agent) (c : Cause) : State :=
  if a.kind = .sup then s.setAgent (a.rollback.enterHandler c .none a.cur.headPc)
  else
    let p := pendingOf a (s.die a.place.die).time c .precise .none a.cur.headPc
    { s.setAgent { a.rollback with run := .faulted } with pending := s.pending ++ [p] }

/-- The die and the sequence number of the command at a site. -/
def State.siteCommand (s : State) (x : CheckSite) : Option (Nat × Nat) :=
  match x with
  | .copy die i =>
    let d := s.die die
    (((d.copyQ ++ d.heldT).map (fun c => c.seq) ++ d.bulkQ.map fun b => b.seq)[i]?).map fun q => (die, q)
  | .dce die i => ((s.die die).dceQ[i]?).map fun c => (die, c.seq)
  | .update die i => ((s.die die).updQ[i]?).map fun c => (die, c.seq)
  | .mxe die cluster cls => ((s.cluster die cluster).queue cls).head?.map fun o => (die, o.seq)
  | .agent _ => none
  | .delivery _ _ => none
  | .hub => none

/-- A mismatch in the update engine's multiply-adds of a delivery (R269, R339): its tile's writes do not count, and the run is
told. -/
def State.deliveryMismatch (s : State) (ctx : Nat) (id : Word) (c : Cause) : Out :=
  runStep ctx id (fun s r =>
    if s.runFailing ctx r || s.runFaulted ctx r || !(s.graph r.bwd).any Graph.complete then .refused .notDue
    else
      let s := ((s.countChecker r.die).forgetRequests r.die r.seq).tileDelivered ctx r
      .next (raiseAsync s c ctx r.id none false .none (s.die r.die).time 0)) s

/-- Whether a limit of 110 °C that is reached now is reached within 1 s of the last (R370), by the hub die's time. -/
def State.thermalAgain (s : State) : Bool := s.thermalAt.any fun t => decide (((s.die 8).time - t).toNat ≤ 4 * 10 ^ 9)

/-- The limit of 110 °C is reached (R370): a warm reset of cause THERMAL, or, within 1 s of the last, power-off. -/
def State.thermal (s : State) (die : Nat) : State :=
  if s.thermalAgain then s.unpowered .off else { s.warmReset die .thermal with thermalAt := some (s.die 8).time }

/-- WARM_RESET (R346): an uncorrectable error or a checker event strikes state that belongs to no single launch (a walk slot or
TLB, a pool entry of several launches, the package fabric, the command processor, the hub die), or a compute die's junction
reaches its limit. A checker event is counted (R339). -/
def execWarmReset (die : Nat) (cause : Byte) (s : State) : Out :=
  if 8 ≤ die ∧ die ≠ 255 then .refused .notDue
  else
    match causeOf cause.toNat with
    | some .uncorrectable => .next (s.warmReset die .uncorrectable)
    | some .pipeResidue => .next ((s.countChecker die).warmReset die .pipeResidue)
    | some .pipeParity => .next ((s.countChecker die).warmReset die .pipeParity)
    | some .thermal => if die < 8 then .next (s.thermal die) else .refused .notDue
    | _ => .refused .notDue

/-- CHECKER_MISMATCH (R339): an agent traps precisely; a command completes in error, and its launch is told; an event of
the hub die's own logic is a warm reset (R346). -/
def execCheckerMismatch (site : CheckSite) (parity : Bool) (s : State) : Out :=
  let c : Cause := if parity then .pipeParity else .pipeResidue
  match site with
  | .agent w =>
    match s.agent w with
    | none => .refused .notDue
    | some a =>
      if a.run == .running && a.wait == .none then .next ((s.countChecker a.place.die).trapAgent a c) else .refused .notDue
  | .hub => .next (s.countChk.warmReset 255 c)
  | .delivery ctx run => s.deliveryMismatch ctx run c
  | x =>
    match s.siteCommand x with
    | none => .refused .notDue
    | some (die, seq) =>
      match s.commandUnit die seq with
      | none => .refused .notDue
      | some (u, det) =>
        let s := (s.countChecker die).failCommand die seq c
        .next (raiseFor s c u det .none (s.die die).time 0)

/-! Limits (R370). -/

/-- THROTTLE_EVENT (R370): a die begins to throttle; THRCNT counts it. -/
def execThrottleEvent (die : Nat) (s : State) : Out :=
  if 8 ≤ die ∨ (s.die die).throttled then .refused .notDue
  else .next ((s.setDie die { s.die die with throttled := true }).countDev (0x858 + die))

/-- THROTTLE_END (R370). -/
def execThrottleEnd (die : Nat) (s : State) : Out :=
  if (s.die die).throttled then .next (s.setDie die { s.die die with throttled := false }) else .refused .notDue

/-- THERMAL_LIMIT (R370): a die's junction reaches 110 °C, for the first time in 1 s or again; there is no such step where the
die's time says otherwise. -/
def execThermalLimit (die : Nat) (within : Bool) (s : State) : Out :=
  if 8 ≤ die ∨ within ≠ s.thermalAgain then .refused .notDue else .next (s.thermal die)

end Sys2Proof.Machine
end

