-- ==== Sys2Proof/Machine/Walker.lean ====
section
/-!
DEFINITION. The steps of the page walker: walk slots, reads of the leaf, and the compare-and-swap that sets A and D
(R311, R313, R314). Only a demand access that missed begins a walk (R317).
-/
namespace Sys2Proof.Machine

/-- A die's walk for a page ends. -/
def State.endWalk (s : State) (die : Nat) (w : Walk) : State := s.endWalks die (s.walkAsid w.ctx) w.va

/-- Where an attempt reads first: below the cached pointer entries, and after a failed CAS afresh from the root (R311 to
R313). -/
def State.attemptStart (s : State) (die : Nat) (w : Walk) : Nat × Nat :=
  if w.attempt = 1 then walkStart (s.die die).tlb (s.walkAsid w.ctx) w.va (s.walkRoot w.ctx) else (3, (s.walkRoot w.ctx).toNat)

/-- One attempt reads the leaf: the walk ends where its outcome is not Translated or nothing is to be set, else it goes
on to its CAS. -/
def State.walkRead (s : State) (die : Nat) (w : Walk) : State :=
  let asid := s.walkAsid w.ctx
  let b := s.attemptStart die w
  let s := (s.endWalk die w).cachePtrs die asid w.va (walkPtrs s.mem s.poison w.va b.1 b.2)
  match walkFrom s.mem s.poison w.va b.1 b.2 with
  | .error _ => s
  | .ok f =>
    if ((leafOutcome die f w.va w.write).needing w.reads).leaf.isNone then s
    else if markLeaf f.leaf w.write = f.leaf then s.cacheLeaf die asid w.va f.level f.leaf
    else
      let d := s.die die
      s.setDie die { d with walks := d.walks ++ [{ w with leafAt := f.leafAt, level := f.level, leaf := f.leaf }] }

/-- The CAS of an attempt (R313), a release at `.sys`: five failures give PTE_CONTENTION to every access that shares the walk. -/
def State.walkCas (s : State) (die : Nat) (w : Walk) : State :=
  if readEntry s.mem w.leafAt = w.leaf then
    let n := markLeaf w.leaf w.write
    ((s.endWalk die w).sysWrite w.unit (cellsAt w.leafAt (leBytes 8 n.toNat))).cacheLeaf die (s.walkAsid w.ctx) w.va w.level n
  else if 5 ≤ w.attempt then
    let s := s.endWalk die w
    let d := s.die die
    s.setDie die { d with contended := w :: d.contended }
  else s.walkRead die { w with attempt := w.attempt + 1 }

/-- A miss that waits takes a slot and reads its leaf, if it is the oldest that waits and a slot is free (R311). -/
def State.grantSlot (s : State) (die : Nat) (w : Walk) : Out :=
  if (s.die die).walks.find? (fun x => !x.granted) = some w ∧ (s.die die).slotFree die then
    .next (s.walkRead die { w with granted := true })
  else .refused .notDue

/-- PAGE_WALK (R311, R313): the walk of a miss takes its slot and reads the leaf, or makes its CAS. -/
def execPageWalk (die ctx : Nat) (va : BitVec 56) (write : Bool) (s : State) : Out :=
  match (s.die die).walks.find? fun w => s.walkIsFor w (s.walkAsid ctx) va && w.write == write with
  | some w => if w.granted then .next (s.walkCas die w) else s.grantSlot die w
  | none => .refused .notDue

/-- WALK_SLOT_GRANT (R311): the oldest miss that waits takes a freed slot and reads its leaf. -/
def execWalkSlotGrant (die : Nat) (s : State) : Out :=
  match (s.die die).walks.find? fun w => !w.granted with
  | none => .refused .notDue
  | some w => s.grantSlot die w

end Sys2Proof.Machine
end

