-- ==== Sys2Proof/Machine/Dispatch.lean ====
section
/-!
DEFINITION. The dispatch: one arm for each row of the opcode table, each a call of the row's own meaning.
-/
namespace Sys2Proof.Machine

def exec (i : Instr) (s : State) : Host.Outcome State Fault Refusal :=
  match i with
  | .iadd n b a d => Sys2Proof.Machine.execIadd n b a d s
  | .isub n b a d => Sys2Proof.Machine.execIsub n b a d s
  | .iadds n b a d => Sys2Proof.Machine.execIadds n b a d s
  | .isubs n b a d => Sys2Proof.Machine.execIsubs n b a d s
  | .imul n b a d => Sys2Proof.Machine.execImul n b a d s
  | .imulhi n b a d => Sys2Proof.Machine.execImulhi n b a d s
  | .imulhiu n b a d => Sys2Proof.Machine.execImulhiu n b a d s
  | .imad b a d => Sys2Proof.Machine.execImad b a d s
  | .imin n b a d => Sys2Proof.Machine.execImin n b a d s
  | .imax n b a d => Sys2Proof.Machine.execImax n b a d s
  | .umin n b a d => Sys2Proof.Machine.execUmin n b a d s
  | .umax n b a d => Sys2Proof.Machine.execUmax n b a d s
  | .and n b a d => Sys2Proof.Machine.execAnd n b a d s
  | .or n b a d => Sys2Proof.Machine.execOr n b a d s
  | .xor n b a d => Sys2Proof.Machine.execXor n b a d s
  | .andn n b a d => Sys2Proof.Machine.execAndn n b a d s
  | .shl n b a d => Sys2Proof.Machine.execShl n b a d s
  | .shr n b a d => Sys2Proof.Machine.execShr n b a d s
  | .sra n b a d => Sys2Proof.Machine.execSra n b a d s
  | .rotl n b a d => Sys2Proof.Machine.execRotl n b a d s
  | .popc n a d => Sys2Proof.Machine.execPopc n a d s
  | .clz n a d => Sys2Proof.Machine.execClz n a d s
  | .brev n a d => Sys2Proof.Machine.execBrev n a d s
  | .bfx n b a d => Sys2Proof.Machine.execBfx n b a d s
  | .bfi n b a d => Sys2Proof.Machine.execBfi n b a d s
  | .iabs n a d => Sys2Proof.Machine.execIabs n a d s
  | .udiv n b a d => Sys2Proof.Machine.execUdiv n b a d s
  | .urem n b a d => Sys2Proof.Machine.execUrem n b a d s
  | .lea n b a d => Sys2Proof.Machine.execLea n b a d s
  | .lea2 n b a d => Sys2Proof.Machine.execLea2 n b a d s
  | .lea4 n b a d => Sys2Proof.Machine.execLea4 n b a d s
  | .lea8 n b a d => Sys2Proof.Machine.execLea8 n b a d s
  | .fadd n b a d => Sys2Proof.Machine.execFadd n b a d s
  | .fsub n b a d => Sys2Proof.Machine.execFsub n b a d s
  | .fmul n b a d => Sys2Proof.Machine.execFmul n b a d s
  | .fma b a d => Sys2Proof.Machine.execFma b a d s
  | .fmin n b a d => Sys2Proof.Machine.execFmin n b a d s
  | .fmax n b a d => Sys2Proof.Machine.execFmax n b a d s
  | .fabs n a d => Sys2Proof.Machine.execFabs n a d s
  | .fneg n a d => Sys2Proof.Machine.execFneg n a d s
  | .frcp n a d => Sys2Proof.Machine.execFrcp n a d s
  | .frsq n a d => Sys2Proof.Machine.execFrsq n a d s
  | .fex2 n a d => Sys2Proof.Machine.execFex2 n a d s
  | .flg2 n a d => Sys2Proof.Machine.execFlg2 n a d s
  | .faddBf2 n b a d => Sys2Proof.Machine.execFaddBf2 n b a d s
  | .fmulBf2 n b a d => Sys2Proof.Machine.execFmulBf2 n b a d s
  | .fmaBf2 b a d => Sys2Proof.Machine.execFmaBf2 b a d s
  | .fmaxBf2 n b a d => Sys2Proof.Machine.execFmaxBf2 n b a d s
  | .faddHf2 n b a d => Sys2Proof.Machine.execFaddHf2 n b a d s
  | .fmulHf2 n b a d => Sys2Proof.Machine.execFmulHf2 n b a d s
  | .fmaHf2 b a d => Sys2Proof.Machine.execFmaHf2 b a d s
  | .fmaxHf2 n b a d => Sys2Proof.Machine.execFmaxHf2 n b a d s
  | .fdot2Bf b a d => Sys2Proof.Machine.execFdot2Bf b a d s
  | .fdot4E4 b a d => Sys2Proof.Machine.execFdot4E4 b a d s
  | .fdot4E5 b a d => Sys2Proof.Machine.execFdot4E5 b a d s
  | .fdot8E2m1 b a d => Sys2Proof.Machine.execFdot8E2m1 b a d s
  | .raddF n a d => Sys2Proof.Machine.execRaddF n a d s
  | .rmaxF n a d => Sys2Proof.Machine.execRmaxF n a d s
  | .raddI n a d => Sys2Proof.Machine.execRaddI n a d s
  | .rmaxI n a d => Sys2Proof.Machine.execRmaxI n a d s
  | .fscale n b a d => Sys2Proof.Machine.execFscale n b a d s
  | .ffloor n a d => Sys2Proof.Machine.execFfloor n a d s
  | .frint n a d => Sys2Proof.Machine.execFrint n a d s
  | .i2f n a d => Sys2Proof.Machine.execI2f n a d s
  | .u2f n a d => Sys2Proof.Machine.execU2f n a d s
  | .f2i n a d => Sys2Proof.Machine.execF2i n a d s
  | .f2u n a d => Sys2Proof.Machine.execF2u n a d s
  | .cvtBf2 n b a d => Sys2Proof.Machine.execCvtBf2 n b a d s
  | .cvtHf2 n b a d => Sys2Proof.Machine.execCvtHf2 n b a d s
  | .cvtE4 b a d => Sys2Proof.Machine.execCvtE4 b a d s
  | .cvtE5 b a d => Sys2Proof.Machine.execCvtE5 b a d s
  | .cvtsrE4 b a d => Sys2Proof.Machine.execCvtsrE4 b a d s
  | .cvtsrE5 b a d => Sys2Proof.Machine.execCvtsrE5 b a d s
  | .cvtsrE3m2 b a d => Sys2Proof.Machine.execCvtsrE3m2 b a d s
  | .cvtsrE2m1 b a d => Sys2Proof.Machine.execCvtsrE2m1 b a d s
  | .cvtE3m2 a d => Sys2Proof.Machine.execCvtE3m2 a d s
  | .cvtE2m3 a d => Sys2Proof.Machine.execCvtE2m3 a d s
  | .cvtE2m1 a d => Sys2Proof.Machine.execCvtE2m1 a d s
  | .cvtsrBf b a d => Sys2Proof.Machine.execCvtsrBf b a d s
  | .unpBf n b a d => Sys2Proof.Machine.execUnpBf n b a d s
  | .unpHf n b a d => Sys2Proof.Machine.execUnpHf n b a d s
  | .unpE4 n b a d => Sys2Proof.Machine.execUnpE4 n b a d s
  | .unpE5 n b a d => Sys2Proof.Machine.execUnpE5 n b a d s
  | .unpE3m2 n b a d => Sys2Proof.Machine.execUnpE3m2 n b a d s
  | .unpE2m3 n b a d => Sys2Proof.Machine.execUnpE2m3 n b a d s
  | .unpE2m1 n b a d => Sys2Proof.Machine.execUnpE2m1 n b a d s
  | .cvtsrE2m3 b a d => Sys2Proof.Machine.execCvtsrE2m3 b a d s
  | .icmpeq n b a d => Sys2Proof.Machine.execIcmpeq n b a d s
  | .icmplt n b a d => Sys2Proof.Machine.execIcmplt n b a d s
  | .icmpltu n b a d => Sys2Proof.Machine.execIcmpltu n b a d s
  | .icmple n b a d => Sys2Proof.Machine.execIcmple n b a d s
  | .fcmpeq n b a d => Sys2Proof.Machine.execFcmpeq n b a d s
  | .fcmplt n b a d => Sys2Proof.Machine.execFcmplt n b a d s
  | .fcmple n b a d => Sys2Proof.Machine.execFcmple n b a d s
  | .fcmpun n b a d => Sys2Proof.Machine.execFcmpun n b a d s
  | .sel b a d => Sys2Proof.Machine.execSel b a d s
  | .ballot n a d => Sys2Proof.Machine.execBallot n a d s
  | .matchLanes n a d => Sys2Proof.Machine.execMatchLanes n a d s
  | .laneid n d => Sys2Proof.Machine.execLaneid n d s
  | .shfl n b a d => Sys2Proof.Machine.execShfl n b a d s
  | .shflup n b a d => Sys2Proof.Machine.execShflup n b a d s
  | .shfldn n b a d => Sys2Proof.Machine.execShfldn n b a d s
  | .shflx n b a d => Sys2Proof.Machine.execShflx n b a d s
  | .rng4 n b a d => Sys2Proof.Machine.execRng4 n b a d s
  | .rngu n b a d => Sys2Proof.Machine.execRngu n b a d s
  | .rngb n b a d => Sys2Proof.Machine.execRngb n b a d s
  | .mov n a d => Sys2Proof.Machine.execMov n a d s
  | .movg n a d => Sys2Proof.Machine.execMovg n a d s
  | .movvg a d => Sys2Proof.Machine.execMovvg a d s
  | .movvgl l a d => Sys2Proof.Machine.execMovvgl l a d s
  | .iaddi im a d => Sys2Proof.Machine.execIaddi im a d s
  | .andi im a d => Sys2Proof.Machine.execAndi im a d s
  | .ori im a d => Sys2Proof.Machine.execOri im a d s
  | .xori im a d => Sys2Proof.Machine.execXori im a d s
  | .shli im a d => Sys2Proof.Machine.execShli im a d s
  | .shri im a d => Sys2Proof.Machine.execShri im a d s
  | .srai im a d => Sys2Proof.Machine.execSrai im a d s
  | .icmplti im a d => Sys2Proof.Machine.execIcmplti im a d s
  | .icmpeqi im a d => Sys2Proof.Machine.execIcmpeqi im a d s
  | .imuli im a d => Sys2Proof.Machine.execImuli im a d s
  | .movi im d => Sys2Proof.Machine.execMovi im d s
  | .movh im d => Sys2Proof.Machine.execMovh im d s
  | .srd im d => Sys2Proof.Machine.execSrd im d s
  | .iadd16 n a d => Sys2Proof.Machine.execIadd16 n a d s
  | .isub16 n a d => Sys2Proof.Machine.execIsub16 n a d s
  | .imul16 n a d => Sys2Proof.Machine.execImul16 n a d s
  | .and16 n a d => Sys2Proof.Machine.execAnd16 n a d s
  | .or16 n a d => Sys2Proof.Machine.execOr16 n a d s
  | .xor16 n a d => Sys2Proof.Machine.execXor16 n a d s
  | .shli16 n im d => Sys2Proof.Machine.execShli16 n im d s
  | .shri16 n im d => Sys2Proof.Machine.execShri16 n im d s
  | .mov16 n a d => Sys2Proof.Machine.execMov16 n a d s
  | .movi5 n im d => Sys2Proof.Machine.execMovi5 n im d s
  | .fadd16 n a d => Sys2Proof.Machine.execFadd16 n a d s
  | .fsub16 n a d => Sys2Proof.Machine.execFsub16 n a d s
  | .fmul16 n a d => Sys2Proof.Machine.execFmul16 n a d s
  | .fmax16 n a d => Sys2Proof.Machine.execFmax16 n a d s
  | .icmplt16 n a d => Sys2Proof.Machine.execIcmplt16 n a d s
  | .nop => Sys2Proof.Machine.execNop s
  | .gadd b a d => Sys2Proof.Machine.execGadd b a d s
  | .gsub b a d => Sys2Proof.Machine.execGsub b a d s
  | .gmul b a d => Sys2Proof.Machine.execGmul b a d s
  | .gmad b a d => Sys2Proof.Machine.execGmad b a d s
  | .gand b a d => Sys2Proof.Machine.execGand b a d s
  | .gor b a d => Sys2Proof.Machine.execGor b a d s
  | .gxor b a d => Sys2Proof.Machine.execGxor b a d s
  | .gandn b a d => Sys2Proof.Machine.execGandn b a d s
  | .gshl b a d => Sys2Proof.Machine.execGshl b a d s
  | .gshr b a d => Sys2Proof.Machine.execGshr b a d s
  | .gsra b a d => Sys2Proof.Machine.execGsra b a d s
  | .gmin b a d => Sys2Proof.Machine.execGmin b a d s
  | .gcmpeq b a d => Sys2Proof.Machine.execGcmpeq b a d s
  | .gcmplt b a d => Sys2Proof.Machine.execGcmplt b a d s
  | .gcmpltu b a d => Sys2Proof.Machine.execGcmpltu b a d s
  | .gmax b a d => Sys2Proof.Machine.execGmax b a d s
  | .gaddi im a d => Sys2Proof.Machine.execGaddi im a d s
  | .gmovi im d => Sys2Proof.Machine.execGmovi im d s
  | .gshi16 im d => Sys2Proof.Machine.execGshi16 im d s
  | .gsrd b d => Sys2Proof.Machine.execGsrd b d s
  | .gswr b a => Sys2Proof.Machine.execGswr b a s
  | .xlt b a d => Sys2Proof.Machine.execXlt b a d s
  | .gmov a d => Sys2Proof.Machine.execGmov a d s
  | .bra x => Sys2Proof.Machine.execBra x s
  | .brg x p => Sys2Proof.Machine.execBrg x p s
  | .brzg x p => Sys2Proof.Machine.execBrzg x p s
  | .brv x p => Sys2Proof.Machine.execBrv x p s
  | .call x => Sys2Proof.Machine.execCall x s
  | .ret => Sys2Proof.Machine.execRet s
  | .jmpg a => Sys2Proof.Machine.execJmpg a s
  | .fuse => Sys2Proof.Machine.execFuse s
  | .exit => Sys2Proof.Machine.execExit s
  | .emrd d => Sys2Proof.Machine.execEmrd d s
  | .emwr a => Sys2Proof.Machine.execEmwr a s
  | .yield => Sys2Proof.Machine.execYield s
  | .bkpt => Sys2Proof.Machine.execBkpt s
  | .mskip x p => Sys2Proof.Machine.execMskip x p s
  | .ld32 f a d => Sys2Proof.Machine.execLd32 f a d s
  | .ld64 f a d => Sys2Proof.Machine.execLd64 f a d s
  | .ld128 f a d => Sys2Proof.Machine.execLd128 f a d s
  | .ld16 f a d => Sys2Proof.Machine.execLd16 f a d s
  | .st32 f a d => Sys2Proof.Machine.execSt32 f a d s
  | .st64 f a d => Sys2Proof.Machine.execSt64 f a d s
  | .st128 f a d => Sys2Proof.Machine.execSt128 f a d s
  | .st16 f a d => Sys2Proof.Machine.execSt16 f a d s
  | .ld8 f a d => Sys2Proof.Machine.execLd8 f a d s
  | .st8 f a d => Sys2Proof.Machine.execSt8 f a d s
  | .ldnb f a d => Sys2Proof.Machine.execLdnb f a d s
  | .stva f a d => Sys2Proof.Machine.execStva f a d s
  | .atadd c f a d => Sys2Proof.Machine.execAtadd c f a d s
  | .atmax c f a d => Sys2Proof.Machine.execAtmax c f a d s
  | .atxch c f a d => Sys2Proof.Machine.execAtxch c f a d s
  | .atcas c f a d => Sys2Proof.Machine.execAtcas c f a d s
  | .ator c f a d => Sys2Proof.Machine.execAtor c f a d s
  | .atand c f a d => Sys2Proof.Machine.execAtand c f a d s
  | .atfadd c f a d => Sys2Proof.Machine.execAtfadd c f a d s
  | .atmin c f a d => Sys2Proof.Machine.execAtmin c f a d s
  | .fence c f => Sys2Proof.Machine.execFence c f s
  | .fenceE c f => Sys2Proof.Machine.execFenceE c f s
  | .ldaq c f a d => Sys2Proof.Machine.execLdaq c f a d s
  | .strl c f a d => Sys2Proof.Machine.execStrl c f a d s
  | .gld f a d => Sys2Proof.Machine.execGld f a d s
  | .gst f a d => Sys2Proof.Machine.execGst f a d s
  | .gldaq c f a d => Sys2Proof.Machine.execGldaq c f a d s
  | .gstrl c f a d => Sys2Proof.Machine.execGstrl c f a d s
  | .tdef b a => Sys2Proof.Machine.execTdef b a s
  | .tqry b a d => Sys2Proof.Machine.execTqry b a d s
  | .tfree a => Sys2Proof.Machine.execTfree a s
  | .tscl b a => Sys2Proof.Machine.execTscl b a s
  | .cpy b a d => Sys2Proof.Machine.execCpy b a d s
  | .cpyt b a d => Sys2Proof.Machine.execCpyt b a d s
  | .gath b a d => Sys2Proof.Machine.execGath b a d s
  | .scat b a d => Sys2Proof.Machine.execScat b a d s
  | .balloc b a d => Sys2Proof.Machine.execBalloc b a d s
  | .bfree a => Sys2Proof.Machine.execBfree a s
  | .bexp b a => Sys2Proof.Machine.execBexp b a s
  | .barv b a d => Sys2Proof.Machine.execBarv b a d s
  | .bwait b a d => Sys2Proof.Machine.execBwait b a d s
  | .bwaitt b a d => Sys2Proof.Machine.execBwaitt b a d s
  | .btest a d => Sys2Proof.Machine.execBtest a d s
  | .bref b a d => Sys2Proof.Machine.execBref b a d s
  | .mfeed a => Sys2Proof.Machine.execMfeed a s
  | .mdrain a => Sys2Proof.Machine.execMdrain a s
  | .msig b a d => Sys2Proof.Machine.execMsig b a d s
  | .mrecv d => Sys2Proof.Machine.execMrecv d s
  | .datt b a => Sys2Proof.Machine.execDatt b a s
  | .ddist b a => Sys2Proof.Machine.execDdist b a s
  | .dtopk b a => Sys2Proof.Machine.execDtopk b a s
  | .dkvap b a => Sys2Proof.Machine.execDkvap b a s
  | .kvres a d => Sys2Proof.Machine.execKvres a d s
  | .kvreq b a d => Sys2Proof.Machine.execKvreq b a d s
  | .kvpin b a d => Sys2Proof.Machine.execKvpin b a d s
  | .kvrel b a d => Sys2Proof.Machine.execKvrel b a d s
  | .lnch b a d => Sys2Proof.Machine.execLnch b a d s
  | .lnchc b a d => Sys2Proof.Machine.execLnchc b a d s
  | .cancel a d => Sys2Proof.Machine.execCancel a d s
  | .ccnt a d => Sys2Proof.Machine.execCcnt a d s
  | .ticket a d => Sys2Proof.Machine.execTicket a d s
  | .redeem b a d => Sys2Proof.Machine.execRedeem b a d s
  | .tkqry b a d => Sys2Proof.Machine.execTkqry b a d s
  | .tkdrop a d => Sys2Proof.Machine.execTkdrop a d s
  | .upd b a => Sys2Proof.Machine.execUpd b a s
  | .wvpub a d => Sys2Proof.Machine.execWvpub a d s
  | .wvret b a d => Sys2Proof.Machine.execWvret b a d s
  | .norm b a => Sys2Proof.Machine.execNorm b a s
  | .regq b a d => Sys2Proof.Machine.execRegq b a d s
  | .snapm d => Sys2Proof.Machine.execSnapm d s
  | .pgreq b a d => Sys2Proof.Machine.execPgreq b a d s
  | .trap t a => Sys2Proof.Machine.execTrap t a s
  | .mma b a d => Sys2Proof.Machine.execMma b a d s
  | .mmaSp b a d => Sys2Proof.Machine.execMmaSp b a d s
  | .mmaz b a d => Sys2Proof.Machine.execMmaz b a d s
  | .mmazSp b a d => Sys2Proof.Machine.execMmazSp b a d s
  | .epq b a d => Sys2Proof.Machine.execEpq b a d s
  | .epst b a d => Sys2Proof.Machine.execEpst b a d s
  | .epov b a d => Sys2Proof.Machine.execEpov b a d s
  | .accz b a d => Sys2Proof.Machine.execAccz b a d s
  | .mbatch d => Sys2Proof.Machine.execMbatch d s
  | .mwait a d => Sys2Proof.Machine.execMwait a d s
  | .mclass a => Sys2Proof.Machine.execMclass a s
  | .myld => Sys2Proof.Machine.execMyld s
  | .mquad b a d => Sys2Proof.Machine.execMquad b a d s
  | .mscale b a => Sys2Proof.Machine.execMscale b a s
  | .csrr a d => Sys2Proof.Machine.execCsrr a d s
  | .csrw b a d => Sys2Proof.Machine.execCsrw b a d s
  | .csrs b a d => Sys2Proof.Machine.execCsrs b a d s
  | .csrc b a d => Sys2Proof.Machine.execCsrc b a d s
  | .tlbi b a => Sys2Proof.Machine.execTlbi b a s
  | .tlbia a => Sys2Proof.Machine.execTlbia a s
  | .prefw b a => Sys2Proof.Machine.execPrefw b a s
  | .zeroRange b a d => Sys2Proof.Machine.execZeroRange b a d s
  | .eret => Sys2Proof.Machine.execEret s
  | .halt => Sys2Proof.Machine.execHalt s
  | .hirq a => Sys2Proof.Machine.execHirq a s
  | .rtchk a d => Sys2Proof.Machine.execRtchk a d s
  | .ctxsv b a d => Sys2Proof.Machine.execCtxsv b a d s
  | .ctxld b a d => Sys2Proof.Machine.execCtxld b a d s
  | .snapb a d => Sys2Proof.Machine.execSnapb a d s
  | .snapc b a d => Sys2Proof.Machine.execSnapc b a d s
  | .storePerform w => Sys2Proof.Machine.execStorePerform w s
  | .timedStorePerform core im => Sys2Proof.Machine.execTimedStorePerform core im s
  | .ldnbPerform w => Sys2Proof.Machine.execLdnbPerform w s
  | .gathStatusArrive die im => Sys2Proof.Machine.execGathStatusArrive die im s
  | .barvArrival w => Sys2Proof.Machine.execBarvArrival w s
  | .bwaitReturn w => Sys2Proof.Machine.execBwaitReturn w s
  | .bwaittTimeout w => Sys2Proof.Machine.execBwaittTimeout w s
  | .copyCommandComplete die im => Sys2Proof.Machine.execCopyCommandComplete die im s
  | .cpytWriteRelease die im => Sys2Proof.Machine.execCpytWriteRelease die im s
  | .bulkQueuePublish u => Sys2Proof.Machine.execBulkQueuePublish u s
  | .bulkEntryStart die => Sys2Proof.Machine.execBulkEntryStart die s
  | .bulkEntryComplete die im => Sys2Proof.Machine.execBulkEntryComplete die im s
  | .completionRecordWrite u => Sys2Proof.Machine.execCompletionRecordWrite u s
  | .pageRequestComplete part im => Sys2Proof.Machine.execPageRequestComplete part im s
  | .launchAnswer w => Sys2Proof.Machine.execLaunchAnswer w s
  | .unitAdmit u die cluster cores => Sys2Proof.Machine.execUnitAdmit u die cluster cores s
  | .launchBecomesBlocking ctx id => Sys2Proof.Machine.execLaunchBecomesBlocking ctx id s
  | .launchComplete ctx id => Sys2Proof.Machine.execLaunchComplete ctx id s
  | .launchCommit ctx id => Sys2Proof.Machine.execLaunchCommit ctx id s
  | .snapmRelease ctx id => Sys2Proof.Machine.execSnapmRelease ctx id s
  | .slotRelease w => Sys2Proof.Machine.execSlotRelease w s
  | .preemptionStop u => Sys2Proof.Machine.execPreemptionStop u s
  | .mxeStep die cluster => Sys2Proof.Machine.execMxeStep die cluster s
  | .mquadInstall w => Sys2Proof.Machine.execMquadInstall w s
  | .mwaitReturn w => Sys2Proof.Machine.execMwaitReturn w s
  | .mdrainRead w => Sys2Proof.Machine.execMdrainRead w s
  | .mrecvWake w => Sys2Proof.Machine.execMrecvWake w s
  | .dcePage die => Sys2Proof.Machine.execDcePage die s
  | .kvRequestComplete ctx im frames => Sys2Proof.Machine.execKvRequestComplete ctx im frames s
  | .kvVictimAction ctx => Sys2Proof.Machine.execKvVictimAction ctx s
  | .updStart die im => Sys2Proof.Machine.execUpdStart die im s
  | .updTileCommit die im => Sys2Proof.Machine.execUpdTileCommit die im s
  | .normApply die im => Sys2Proof.Machine.execNormApply die im s
  | .stagingBufferTake ctx id => Sys2Proof.Machine.execStagingBufferTake ctx id s
  | .delivery ctx id => Sys2Proof.Machine.execDelivery ctx id s
  | .replicaCommit im => Sys2Proof.Machine.execReplicaCommit im s
  | .replicaLockTimeout die im => Sys2Proof.Machine.execReplicaLockTimeout die im s
  | .pageWalk die ctx va write => Sys2Proof.Machine.execPageWalk die ctx va write s
  | .walkSlotGrant die => Sys2Proof.Machine.execWalkSlotGrant die s
  | .hsemClaim port token => Sys2Proof.Machine.execHsemClaim port token s
  | .hsemRelease port token => Sys2Proof.Machine.execHsemRelease port token s
  | .hostLinkDown port => Sys2Proof.Machine.execHostLinkDown port s
  | .bar0ControlWrite port offset value => Sys2Proof.Machine.execBar0ControlWrite port offset value s
  | .hostHdmAccess port write pa data => Sys2Proof.Machine.execHostHdmAccess port write pa data s
  | .submissionRingTake ctx => Sys2Proof.Machine.execSubmissionRingTake ctx s
  | .attestationRequest port nonce => Sys2Proof.Machine.execAttestationRequest port nonce s
  | .faultRecordDeliver => Sys2Proof.Machine.execFaultRecordDeliver s
  | .faultRingDrain part => Sys2Proof.Machine.execFaultRingDrain part s
  | .rollback ctx id => Sys2Proof.Machine.execRollback ctx id s
  | .contextCreate ctx cfg => Sys2Proof.Machine.execContextCreate ctx cfg s
  | .contextEnd ctx => Sys2Proof.Machine.execContextEnd ctx s
  | .asidChange ctx asid value => Sys2Proof.Machine.execAsidChange ctx asid value s
  | .factNone ctx id => Sys2Proof.Machine.execFactNone ctx id s
  | .factKill ctx id => Sys2Proof.Machine.execFactKill ctx id s
  | .factReplay ctx id => Sys2Proof.Machine.execFactReplay ctx id s
  | .factResume ctx id => Sys2Proof.Machine.execFactResume ctx id s
  | .topoReload value => Sys2Proof.Machine.execTopoReload value s
  | .routesReload value => Sys2Proof.Machine.execRoutesReload value s
  | .haltResume w => Sys2Proof.Machine.execHaltResume w s
  | .eccCorrected die frame => Sys2Proof.Machine.execEccCorrected die frame s
  | .eccUncorrectable key => Sys2Proof.Machine.execEccUncorrectable key s
  | .rowRetire pa => Sys2Proof.Machine.execRowRetire pa s
  | .checkerMismatch site parity => Sys2Proof.Machine.execCheckerMismatch site parity s
  | .warmReset die cause => Sys2Proof.Machine.execWarmReset die cause s
  | .throttleEvent die => Sys2Proof.Machine.execThrottleEvent die s
  | .thermalLimit die within => Sys2Proof.Machine.execThermalLimit die within s
  | .coldPowerOn => Sys2Proof.Machine.execColdPowerOn s
  | .digest model ctx version digest chk => Sys2Proof.Machine.execDigest model ctx version digest chk s
  | .digestTimeout ctx model => Sys2Proof.Machine.execDigestTimeout ctx model s
  | .read im => Sys2Proof.Machine.execRead im s
  | .write im => Sys2Proof.Machine.execWrite im s
  | .atomic im => Sys2Proof.Machine.execAtomic im s
  | .rddata im => Sys2Proof.Machine.execRddata im s
  | .wrack im => Sys2Proof.Machine.execWrack im s
  | .atrsp im => Sys2Proof.Machine.execAtrsp im s
  | .sync t2 => Sys2Proof.Machine.execSync t2 s
  | .follow t1 => Sys2Proof.Machine.execFollow t1 s
  | .dreq port t4 => Sys2Proof.Machine.execDreq port t4 s
  | .drsp t4 => Sys2Proof.Machine.execDrsp t4 s
  | .packetForward port header data => Sys2Proof.Machine.execPacketForward port header data s
  | .flowStop port vc here => Sys2Proof.Machine.execFlowStop port vc here s
  | .flowGo port vc here => Sys2Proof.Machine.execFlowGo port vc here s
  | .linkDown port => Sys2Proof.Machine.execLinkDown port s
  | .linkStateChange port ls => Sys2Proof.Machine.execLinkStateChange port ls s
  | .peerRequestTimeout im => Sys2Proof.Machine.execPeerRequestTimeout im s
  | .timeExchangeStart port => Sys2Proof.Machine.execTimeExchangeStart port s
  | .packageTimeExchange die measured => Sys2Proof.Machine.execPackageTimeExchange die measured s
  | .ptmSync ns => Sys2Proof.Machine.execPtmSync ns s
  | .disciplineLoss die => Sys2Proof.Machine.execDisciplineLoss die s
  | .dieTimeTick die add => Sys2Proof.Machine.execDieTimeTick die add s
  | .wordThatDoesNotExecute w => Sys2Proof.Machine.execWordThatDoesNotExecute w s
  | .linkLevelReplay port => Sys2Proof.Machine.execLinkLevelReplay port s
  | .hostLinkUp port => Sys2Proof.Machine.execHostLinkUp port s
  | .powerOff => Sys2Proof.Machine.execPowerOff s
  | .throttleEnd die => Sys2Proof.Machine.execThrottleEnd die s
  | .zeroComplete w => Sys2Proof.Machine.execZeroComplete w s

end Sys2Proof.Machine
end

