-- ==== Sys2Proof/Machine/Rotation.lean ====
section
/-!
DEFINITION. The rotation of a deterministic block's issue (R199, R336), and what the instructions that it issues owe for how
long (R72, R109, R136).
-/
namespace Sys2Proof.Machine

/-! Latencies (R72, R109, R136). An instruction whose latency the specification does not state owes nothing (DESIGN CHOICE,
log entry 59). -/

/-- What an issued instruction owes: the registers, by the numbers of `Due`, the cycles until they may be read, and the cycles
until the latch it writes may be. -/
structure Booking where
  regs  : List Nat
  after : Nat
  latch : Nat
deriving DecidableEq, Repr

/-- The number by which `Due` holds an instruction outstanding that owes no register (R336). -/
def noReg : Nat := 512

/-- A lane instruction's destination: none with N = 1 (R54). -/
def laneBooking (n : BitVec 1) (d r l : Nat) : Booking := ⟨if n = 1 then [noReg] else [vReg d], r, l⟩

/-- A g register, or none for g0. -/
def wideBooking (d : BitVec 7) (r : Nat) : Booking := ⟨noReg :: gReg d.toNat, r, 0⟩

/-- An instruction that writes no register. -/
def bareBooking (r : Nat) : Booking := ⟨[noReg], r, 0⟩

/-- The active lanes' addresses. -/
def Agent.lanesAt (a : Agent) (x : BitVec 7) (off : Nat) : List Nat :=
  (allLanes.filter fun l => a.cur.em.getLsbD l).map (a.ea x off)

/-- A load of `w` bytes into `width` registers; with EM = 0 it takes two cycles (R136). -/
def State.loadBooking (s : State) (w off : Nat) (x d : BitVec 7) : Booking :=
  let n := if s.me.cur.em = 0 then 2 else s.accessLatency s.me w false (s.me.lanesAt x off)
  ⟨regSpan d.toNat (accessRegs w), n, n⟩

/-- An atomic with EM = 0 (R136); what one with a lane owes follows from the cycle in which it reaches its words. -/
def State.atomicBooking (s : State) (d : BitVec 7) : Booking := ⟨if s.me.cur.em = 0 then [vReg d.toNat] else [], 2, 0⟩

/-- What an instruction of the agent whose turn it is owes. -/
def State.booking (s : State) (i : Instr) : Booking :=
  match i with
  | .iadd n _ _ d | .isub n _ _ d | .and n _ _ d | .or n _ _ d | .xor n _ _ d | .andn n _ _ d | .shl n _ _ d
  | .shr n _ _ d | .sra n _ _ d | .rotl n _ _ d | .lea n _ _ d | .lea2 n _ _ d | .lea4 n _ _ d | .lea8 n _ _ d
  | .icmpeq n _ _ d | .icmplt n _ _ d | .icmpltu n _ _ d | .icmple n _ _ d | .laneid n d | .mov n _ d | .movg n _ d
  | .fabs n _ d | .fneg n _ d => laneBooking n d.toNat 2 1
  | .iadd16 n _ d | .isub16 n _ d | .and16 n _ d | .or16 n _ d | .xor16 n _ d | .shli16 n _ d | .shri16 n _ d
  | .mov16 n _ d | .movi5 n _ d | .icmplt16 n _ d => laneBooking n d.toNat 2 1
  | .sel _ _ d | .iaddi _ _ d | .andi _ _ d | .ori _ _ d | .xori _ _ d | .shli _ _ d | .shri _ _ d | .srai _ _ d
  | .icmplti _ _ d | .icmpeqi _ _ d | .movi _ d | .movh _ d | .srd _ d => laneBooking 0 d.toNat 2 1
  | .iadds n _ _ d | .isubs n _ _ d | .imul n _ _ d | .imulhi n _ _ d | .imulhiu n _ _ d | .imin n _ _ d | .imax n _ _ d
  | .umin n _ _ d | .umax n _ _ d | .popc n _ d | .clz n _ d | .brev n _ d | .bfx n _ _ d | .bfi n _ _ d
  | .iabs n _ d => laneBooking n d.toNat 3 2
  | .imul16 n _ d => laneBooking n d.toNat 3 2
  | .imad _ _ d | .imuli _ _ d => laneBooking 0 d.toNat 3 2
  | .fadd n _ _ d | .fsub n _ _ d | .fmul n _ _ d | .fmin n _ _ d | .fmax n _ _ d | .faddBf2 n _ _ d | .fmulBf2 n _ _ d
  | .fmaxBf2 n _ _ d | .faddHf2 n _ _ d | .fmulHf2 n _ _ d | .fmaxHf2 n _ _ d | .fscale n _ _ d | .ffloor n _ d
  | .frint n _ d | .fcmpeq n _ _ d | .fcmplt n _ _ d | .fcmple n _ _ d | .fcmpun n _ _ d | .i2f n _ d | .u2f n _ d
  | .f2i n _ d | .f2u n _ d | .cvtBf2 n _ _ d | .cvtHf2 n _ _ d | .unpBf n _ _ d | .unpHf n _ _ d | .unpE4 n _ _ d
  | .unpE5 n _ _ d | .unpE3m2 n _ _ d | .unpE2m3 n _ _ d | .unpE2m1 n _ _ d => laneBooking n d.toNat 4 3
  | .fadd16 n _ d | .fsub16 n _ d | .fmul16 n _ d | .fmax16 n _ d => laneBooking n d.toNat 4 3
  | .fma _ _ d | .fmaBf2 _ _ d | .fmaHf2 _ _ d | .cvtE4 _ _ d | .cvtE5 _ _ d | .cvtsrE4 _ _ d | .cvtsrE5 _ _ d
  | .cvtsrE3m2 _ _ d | .cvtsrE2m1 _ _ d | .cvtE3m2 _ d | .cvtE2m3 _ d | .cvtE2m1 _ d | .cvtsrBf _ _ d
  | .cvtsrE2m3 _ _ d => laneBooking 0 d.toNat 4 3
  | .fdot2Bf _ _ d | .fdot4E4 _ _ d | .fdot4E5 _ _ d | .fdot8E2m1 _ _ d => laneBooking 0 d.toNat 5 4
  | .ballot n _ d | .matchLanes n _ d | .shfl n _ _ d | .shflup n _ _ d | .shfldn n _ _ d | .shflx n _ _ d =>
    laneBooking n d.toNat 3 3
  | .raddF n _ d | .rmaxF n _ d | .raddI n _ d | .rmaxI n _ d => laneBooking n d.toNat 8 8
  | .frcp n _ d | .frsq n _ d | .fex2 n _ d | .flg2 n _ d => laneBooking n d.toNat 12 12
  | .rng4 n _ _ d => ⟨if n = 1 then [noReg] else regSpan d.toNat 4, 14, 14⟩
  | .rngu n _ _ d | .rngb n _ _ d => laneBooking n d.toNat 14 14
  | .udiv n _ _ d | .urem n _ _ d => laneBooking n d.toNat 18 18
  | .movvg _ d | .movvgl _ _ d => wideBooking d 2
  | .gadd _ _ d | .gsub _ _ d | .gand _ _ d | .gor _ _ d | .gxor _ _ d | .gandn _ _ d | .gshl _ _ d | .gshr _ _ d
  | .gsra _ _ d | .gmin _ _ d | .gcmpeq _ _ d | .gcmplt _ _ d | .gcmpltu _ _ d | .gmax _ _ d | .gaddi _ _ d | .gmovi _ d
  | .gshi16 _ d | .gsrd _ d | .gmov _ d | .emrd d => wideBooking d 2
  | .gswr _ _ | .emwr _ => bareBooking 2
  | .gmul _ _ d | .gmad _ _ d => wideBooking d 3
  | .xlt _ _ d => ⟨[xtReg d.toNat], 6, 0⟩
  | .regq _ _ d => wideBooking d 4
  | .trap _ _ | .bkpt | .yield => bareBooking 4
  | .ld32 f a d => s.loadBooking 4 (f.toNat * 4) a d
  | .ld64 f a d => s.loadBooking 8 (f.toNat * 8) a d
  | .ld128 f a d => s.loadBooking 16 (f.toNat * 16) a d
  | .ld16 f a d => s.loadBooking 2 (f.toNat * 2) a d
  | .ld8 f a d => s.loadBooking 1 f.toNat a d
  | .ldaq _ f a d => s.loadBooking 4 (f.toNat * 4) a d
  | .gld f a d | .gldaq _ f a d => wideBooking d (rangeLatency (s.me.gea a f))
  | .atadd _ _ _ d | .atmax _ _ _ d | .atxch _ _ _ d | .atcas _ _ _ d | .ator _ _ _ d | .atand _ _ _ d | .atfadd _ _ _ d
  | .atmin _ _ _ d => s.atomicBooking d
  | .tqry _ _ d | .balloc _ _ d | .barv _ _ d | .btest _ d | .bref _ _ d | .pgreq _ _ d | .bwait _ _ d | .bwaitt _ _ d =>
    wideBooking d 4
  | .tdef _ _ | .tfree _ | .tscl _ _ | .bfree _ | .bexp _ _ | .cpy _ _ _ | .cpyt _ _ _ | .gath _ _ _ | .scat _ _ _ =>
    bareBooking 4
  | _ => ⟨[], 0, 0⟩

/-- The cycles until the group's next instruction may issue, whichever sub-group's it is (R109, R136, R138). -/
def holdCycles (i : Instr) : Nat :=
  match i with
  | .st32 _ _ _ | .st64 _ _ _ | .st128 _ _ _ | .st16 _ _ _ | .st8 _ _ _ | .strl _ _ _ _ | .gst _ _ _ | .gstrl _ _ _ _ => 2
  | .fence _ _ => 2
  | .regq _ _ _ | .trap _ _ | .bkpt | .yield => 4
  | _ => 1

/-- The cycles until the sub-group's next instruction, by the way that the instruction of agent `a` goes on (R109). -/
def Agent.turnCycles (a : Agent) (i : Instr) : Nat :=
  match i with
  | .bra _ | .call _ | .ret | .jmpg _ => 3
  | .brg _ p => if a.g7 p != 0 then 3 else 1
  | .brzg _ p => if a.g7 p == 0 then 3 else 1
  | .mskip _ p => if (a.g7 p).extractLsb' 0 32 &&& a.cur.ls = 0 then 3 else 1
  | .brv _ p =>
    let t := laneMask a.cur.em fun l => a.src p l != 0
    if a.cur.em &&& ~~~t = 0 then 3 else if t = 0 then 1 else 4
  | _ => 1

/-- A sub-group after an issue of the group in cycle `t`, `a` being the group before it: when its latches may be read, and from
which cycle it may issue. -/
def Sub.book (c : Sub) (a : Agent) (i : Instr) (k : Booking) (t : Nat) (fused : Bool) : Sub :=
  let old := a.subs.find? fun x => x.id == c.id
  let fresh := old.all fun x => x.ls != c.ls
  let latch :=
    if c.pos = 0 then [] else if c.id = a.cur.id then (t + k.latch) :: a.cur.latchDue.take 3 else c.latchDue
  let ready :=
    if fused && fresh then t + 3
    else if c.id = a.cur.id || old.isNone then t + a.turnCycles i
    else c.ready
  { c with latchDue := latch, ready := ready }

/-- What a group owes for the store or the atomic that it has put behind those of the group before: a store stays outstanding
until it performs, and an atomic's old value comes 4 cycles after the atomic has reached its words (R136, R336). -/
def Agent.queued (b a : Agent) : List Due :=
  (if a.storeQ.length < b.storeQ.length then b.storeQ.getLast?.toList.map fun e => ⟨noReg, e.due⟩ else [])
    ++ if a.atomics.length < b.atomics.length then b.atomics.getLast?.toList.map fun p => ⟨vReg p.reg, p.due + 4⟩ else []

/-- A group after an issue in cycle `t`: what it owes, and from which cycle it may issue. A group that has taken a trap, or
whose sub-group waits, owes nothing yet. -/
def Agent.book (b a : Agent) (i : Instr) (k : Booking) (t : Nat) : Agent :=
  if b.run != .running || b.subs.any fun c => c.id == a.cur.id && c.wait != .none then b
  else
    let fused := decide (b.splits.length < a.splits.length) || decide (b.cur.stack.length < a.cur.stack.length)
    let fused := fused && i == .fuse
    let due := (b.due.filter fun d => decide (t ≤ d.cycle)) ++ (k.regs.map fun r => ⟨r, t + k.after⟩) ++ b.queued a
    let f := fun (c : Sub) => c.book a i k t fused
    { b with due := due, ready := t + holdCycles i, cur := f b.cur, others := b.others.map f }

/-! The rotation (R199). -/

/-- The unit of an agent whose issue follows the rotation: a deterministic block. -/
def State.rotating (s : State) (w : Who) : Option WorkUnit :=
  match w with
  | .group u _ => (s.unit u).filter fun x => x.env.det && x.kind == .core
  | _ => none

/-- A list with a number in its place. -/
def insertNat (x : Nat) : List Nat → List Nat
  | [] => [x]
  | y :: r => if x ≤ y then x :: y :: r else y :: insertNat x r

/-- The member cores of a block by number, in ascending order of the cores that they are (R150, R267). -/
def WorkUnit.byCore (x : WorkUnit) : List Nat := (x.cores.foldr insertNat []).map fun c => x.cores.idxOf c

/-- The group that a place of a cycle offers: pipe 0 and pipe 1 of each member core in turn (R199, R336; log entry 19); none at
the place that ends the cycle. -/
def WorkUnit.offered (x : WorkUnit) : Option Nat :=
  let r := x.rotation
  (x.byCore[r.place / 2]?).map fun b => 16 * b + (2 * r.cycle + r.place % 2) % 16

/-- The groups of a block in ascending index, those that have ended among them. -/
def State.groupsOf (s : State) (u : UnitKey) : List Agent :=
  let as := s.allAgents.filter fun a => a.kind == .core && a.unit == u
  (List.range 128).flatMap fun i => as.filter fun a => a.index == i

/-- Whether a pre-emption request stands for a unit: its own, or that of a unit of its co-operative launch (R295). -/
def State.preempting (s : State) (x : WorkUnit) : Bool :=
  x.preempt.isSome
    || (x.env.coop && (s.unitsOf x.key.ctx x.key.launch).any fun y => !y.ended && (y.saved || y.preempt.isSome))

/-- The stores of a group that have come due perform, oldest first. -/
def State.performDue (s : State) (w : Who) (n : Nat) : State :=
  (List.range n).foldl (fun s _ =>
    match s.agent w with
    | some a => if s.mayPerform a then s.performOne a else s
    | none => s) s

/-- The atomics of a group that have come due in cycle `t` reach their words, oldest first. -/
def State.atomicsDue (s : State) (w : Who) (t n : Nat) : State :=
  (List.range n).foldl (fun s _ =>
    match s.agent w with
    | some a => if a.atomics.head?.any fun p => decide (p.due ≤ t) then s.performPending a else s
    | none => s) s

/-- The held arrivals of a group whose stores have performed take effect, oldest first. -/
def State.arrivalsDue (s : State) (w : Who) (n : Nat) : State :=
  (List.range n).foldl (fun s _ =>
    match s.agent w with
    | some a => (a.arrivals.find? fun h => h.ahead == 0).elim s fun h => s.makeArrival a h
    | none => s) s

/-- The end of a block's cycle: its BARVs take effect, after its BEXPs, in ascending core and then slot (R150). -/
def State.endCycle (s : State) (x : WorkUnit) : State :=
  x.byCore.foldl (fun s b =>
    ((s.groupsOf x.key).filter fun a => a.index / 16 == b).foldl (fun s a => s.arrivalsDue a.who a.arrivals.length) s) s

/-- The order of R325 among the records of one cycle, as a number: precise and post-effect records by place, then
asynchronous ones by die and engine, then host-side ones. What one step of the device raises is one cycle's, and what a
deterministic block's groups raise is one of its rotation's (DEDUCED, log entry 73). -/
def Pending.order (p : Pending) : Nat :=
  if p.cause.code / 16 = 0xE then 2 ^ 33
  else if p.kind = .asynchronous then 2 ^ 32 + p.engine
  else
    match p.place with
    | some x => ((x.die * 8 + x.cluster) * 2 + if p.csq then 1 else 0) * 2 ^ 16 + x.core * 2 ^ 8 + x.slot
    | none => 0

/-- A record after those of the same or an earlier place in the order. -/
def insertRecord (p : Pending) : List Pending → List Pending
  | [] => [p]
  | q :: r => if q.order ≤ p.order then q :: insertRecord p r else p :: q :: r

/-- Whether a record is of a cycle of a block's rotation that has not ended. -/
def Pending.ofCycle (p : Pending) (u : UnitKey) : Bool := p.cycle.isSome && p.ctx == u.ctx && p.launch == u.launch && p.unit == some u.index

/-- The records that a block's groups have raised in the cycle that ends stand in the order of R325 behind the others. -/
def State.settleCycle (s : State) (u : UnitKey) : State :=
  let mine := s.pending.filter fun p => p.ofCycle u
  if mine.isEmpty then s
  else { s with pending := (s.pending.filter fun p => !p.ofCycle u)
                  ++ mine.foldl (fun l p => insertRecord { p with cycle := none } l) [] }

/-- The next cycle of a block begins: the stores that come due in it perform and then its atomics reach their words, each in
ascending group index, and whether a pre-emption request stands is seen (R142, R336). -/
def State.nextCycle (s : State) (x : WorkUnit) : State :=
  let t := x.rotation.cycle + 1
  let s := (s.settleCycle x.key).setUnit { x with rot := some ⟨t, 0, s.preempting x⟩ }
  let s := (s.groupsOf x.key).foldl (fun s a => s.performDue a.who a.storeQ.length) s
  (s.groupsOf x.key).foldl (fun s a => s.atomicsDue a.who t a.atomics.length) s

/-- The rotation goes on to its next place: after the last offer to the end of the cycle, and from there to the next cycle. -/
def State.nextPlace (s : State) (u : UnitKey) : State :=
  match s.unit u with
  | none => s
  | some x =>
    let r := x.rotation
    if 2 * x.cores.length ≤ r.place then s.nextCycle x
    else
      let s := if r.place + 1 = 2 * x.cores.length then s.endCycle x else s
      match s.unit u with
      | none => s
      | some x => s.setUnit { x with rot := some { r with place := r.place + 1 } }

/-- Whether a block stands at its stop cycle, where nothing issues (R336). -/
def State.standsAtStop (s : State) (x : WorkUnit) : Bool :=
  x.rotation.place == 0 && s.preempting x && x.rot.all Rotation.asked && s.atStop x

/-- Whether a return of the block's own has come about that no place may pass: a BWAIT whose barrier has flipped (R151). -/
def State.owesEvent (s : State) (x : WorkUnit) : Bool := (s.liveAgents x.key).any fun a => a.anyWait s.flipped

/-- The places of absent groups and the ends of cycles pass: the state in which a group that has not ended is offered, or a return
is due, or the block stands at its stop. -/
def skipAbsent : Nat → UnitKey → State → State
  | 0, _, s => s
  | n + 1, u, s =>
    match s.unit u with
    | none => s
    | some x =>
      if s.standsAtStop x || s.owesEvent x || (s.liveAgents u).any fun a => some a.index == x.offered then s
      else skipAbsent n u (s.nextPlace u)

end Sys2Proof.Machine
end

