-- ==== Sys2Proof/Machine/Issue.lean ====
section
/-!
DEFINITION. Whose turn it is and what is fetched: the selection of an agent's sub-group, the bytes at its PC, what passes at an
issue beside the instruction's own effect, and the issue of a deterministic block by its rotation. `run` stands for the
execution of an instruction, which the step supplies.
-/
namespace Sys2Proof.Machine

/-- Whether an agent may issue: it runs, its sub-group waits for nothing and is not parked, and no other sub-group holds the group
back (R97, R99, R102, R138, R140, R143, R187, R327). -/
def Agent.canIssue (a : Agent) : Bool := a.run == .running && a.wait == .none && !a.cur.parked && !a.heldBack

/-- What an agent that could issue does: it issues, it is held back, or it ends. -/
inductive Gate where
  | go | hold | ends
deriving DecidableEq, Repr

/-- Whether a launch's agents stop at their chain ends: it is cancelled, killed or being rolled back (R193, R343). -/
def State.launchStops (s : State) (a : Agent) : Bool :=
  a.kind != .sup && (s.launch a.unit.ctx a.unit.launch).any fun l => l.stopping || l.rollback.isSome

/-- Whether an agent is held at its stop point for a CTXSV of its unit, or of any unit of its co-operative launch: at
a chain head, in a deterministic block at its stop cycle (R295, R296, R336). -/
def State.heldForSave (s : State) (a : Agent) : Bool :=
  match s.unit a.unit with
  | none => false
  | some x =>
    a.kind != .sup
      && (if x.env.det && x.kind == .core then s.standsAtStop x
          else s.preempting x && a.cur.pos == 0 && !a.cur.holds && (!a.env.det || s.atStop x))

/-- The gate before an issue of the agent whose turn it is. -/
def State.gate (s : State) : Gate :=
  if s.launchStops s.me then (if s.me.atRest then .ends else if s.me.cur.pos = 0 ∧ !s.me.cur.holds then .hold else .go)
  else if s.heldForSave s.me then .hold
  else .go

/-- The state in which it is the turn of an agent's sub-group; `none` where there is no such agent or sub-group. -/
def State.select (s : State) (w : Who) (sub : Nat) : Option State :=
  match s.agent w with
  | none => none
  | some a =>
    match a.select sub with
    | none => none
    | some b =>
      some (if s.me.who = w then { s with me := b }
            else { s with me := b, agents := s.me :: s.agents.filter fun x => x.who != w })

/-- The bytes of a code image from a PC on; none outside the image. -/
def Agent.fetch (a : Agent) : List Byte := a.code.drop (a.cur.pc - a.codeBase).toNat

/-- The word at the PC as WORD_THAT_DOES_NOT_EXECUTE names it: up to four bytes. -/
def wordAt (bs : List Byte) : Word := BitVec.ofNat 32 (leNat (bs.take 4))

/-- A fetch outside the code image (R98). -/
def fetchTrap (s : State) : State :=
  takeTrapWith s .range { FaultInfo.none with addr := s.me.cur.pc.setWidth 64 }

/-- Cycles that pass over one issue: at least one (R16; DESIGN CHOICE, log entry 4). -/
def State.passCycles (s : State) : State :=
  { s with me := { s.me with cycle := s.me.cycle + 1 + (Config.freeCycles s.free &&& 0xFFFF_FFFF) }, free := s.free + 1 }

/-- The outcome of an issue with the cycles that have passed. -/
def afterIssue (o : Out) : Out :=
  match o with
  | .next s => .next s.passCycles
  | .fault f => .fault f
  | .refused r => .refused r

/-- The sub-group that issues begins its instruction anew. -/
def State.begins (s : State) : State := { s with me := { s.me with cur := { s.me.cur with holds := false } } }

/-- The instruction at the PC of `me` is fetched, decoded and run; a word that does not execute is a step of its own (R59). -/
noncomputable def fetchWith (run : Instr → State → Out) (s : State) : Out :=
  match decode s.me.fetch with
  | .ok (i, _) => afterIssue (run i s.begins)
  | .error .truncated => .next (fetchTrap s.begins)
  | .error _ => afterIssue (run (.wordThatDoesNotExecute (wordAt s.me.fetch)) s.begins)

/-- The agent `me` issues, where it may; an agent of a launch that stops ends where it stands between chains. -/
noncomputable def issueWith (run : Instr → State → Out) (s : State) : Out :=
  if s.me.canIssue then
    match s.gate with
    | .go => fetchWith run s
    | .hold => .refused .notDue
    | .ends => .next { s with me := s.me.stopNow }
  else .refused .notDue

/-! Deterministic blocks (R199). -/

/-- Whether an agent has issued between two states of it: it has retired an instruction, or one of its sub-groups has gone on,
or it has come to wait or to stop. -/
def Agent.moved (a b : Agent) : Bool :=
  b.retired != a.retired || b.run != a.run
    || b.subs.map (fun c => (c.id, c.pos, c.pc, c.wait)) != a.subs.map (fun c => (c.id, c.pos, c.pc, c.wait))

/-- The instruction that `me` is to issue, if the bytes at its PC are one. -/
noncomputable def Agent.nextInstr (a : Agent) : Option Instr := (decode a.fetch).toOption.map Prod.fst

/-- What an issue in rotation cycle `t` books. -/
noncomputable def State.bookIssue (before after : State) (t : Nat) : State :=
  match before.me.nextInstr with
  | some i => { after with me := after.me.book before.me i (before.booking i) t }
  | none => after

/-- The addresses of the bytes that a load reads. -/
def Agent.loadAddrs (a : Agent) (i : Instr) : List Nat :=
  let lanes := fun (w : Nat) (f : BitVec 5) (x : BitVec 7) => (a.lanesAt x (f.toNat * w)).flatMap fun ea => (List.range w).map (ea + ·)
  match i with
  | .ld32 f x _ | .ldaq _ f x _ => lanes 4 f x
  | .ld64 f x _ => lanes 8 f x
  | .ld128 f x _ => lanes 16 f x
  | .ld16 f x _ => lanes 2 f x
  | .ld8 f x _ => lanes 1 f x
  | .gld f x _ | .gldaq _ f x _ => (List.range 8).map (a.gea x f + ·)
  | _ => []

/-- Whether a load of `me` reads a word that an earlier atomic of its group has not reached (R135; log entry 59). -/
def State.meetsAtomic (s : State) (i : Instr) : Bool :=
  !s.me.atomics.isEmpty && (s.me.loadAddrs i).any fun ea =>
    match s.odaByte s.me ea with
    | .ok (.loc k) => s.me.atomics.any fun p => p.lanes.any fun x => decide (x.2.1 ≤ k) && decide (k < x.2.1 + 4)
    | _ => false

/-- Whether the sub-group whose turn it is may issue in rotation cycle `t`. -/
noncomputable def State.readyAt (s : State) (t : Nat) : Bool :=
  s.me.canIssue && decide (s.me.ready ≤ t) && decide (s.me.cur.ready ≤ t) && s.gate != .hold
    && !(s.me.nextInstr.any s.meetsAtomic)

/-- The group offered in cycle `t` issues its oldest ready sub-group, of those numbered `ids`: the state after, and whether one
has issued. -/
noncomputable def offerWith (run : Instr → State → Out) (w : Who) (t : Nat) : List Nat → State → Host.Outcome (State × Bool) Fault Refusal
  | [], s => .next (s, false)
  | id :: ids, s =>
    match s.select w id with
    | none => offerWith run w t ids s
    | some b =>
      if b.readyAt t then
        match issueWith run b with
        | .next c => if b.me.moved c.me then .next (b.bookIssue c t, true) else offerWith run w t ids c
        | .fault f => .fault f
        | .refused r => .refused r
      else offerWith run w t ids b

/-- The numbers of an agent's sub-groups, oldest first: they are given in the order of creation. -/
def Agent.subIds (a : Agent) : List Nat := (a.subs.map Sub.id).foldr insertNat []

/-- The faults that a group of a deterministic block raises in rotation cycle `t` await the cycle's end (R325). -/
def State.markRecords (s : State) (old : List Pending) (t : Nat) : State :=
  { s with pending := s.pending.map fun p => if old.contains p || p.kind == .asynchronous then p else { p with cycle := some t } }

/-- The place that is offered next passes: the group offered issues, if a sub-group of it is ready, and the pipe stays idle if
not. It must be the group `w`; the block must not stand at its stop (R199, R336). Where it is not, what stands before the place
passes and no more. -/
noncomputable def rotateWith (run : Instr → State → Out) (u : UnitKey) (w : Who) (s : State) : Out :=
  let before := s
  let s := skipAbsent (24 * ((s.unit u).elim 0 fun x => x.cores.length) + 2) u s
  match s.unit u with
  | none => .refused .notDue
  | some x =>
    if s.standsAtStop x ∨ s.owesEvent x ∨ x.offered.map (Who.group u) ≠ some w then
      if (before.unit u).map WorkUnit.rot = some x.rot then .refused .notDue else .next s
    else
      match offerWith run w x.rotation.cycle ((s.agent w).elim [] Agent.subIds) s with
      | .next (t, _) => .next ((t.markRecords s.pending x.rotation.cycle).nextPlace u)
      | .fault f => .fault f
      | .refused r => .refused r

/-! What goes before an issue (R138, R175), and the records of one step (R325, R331). -/

/-- Whether a timed store is due and in time: it performs before anything else does (R138, R175). -/
def State.timedDue (s : State) : Bool := s.cores.any fun c => c.2.timed.any fun t => s.inTime (c.1 / 512) t.ctx t.time

/-- Whether a step of the device may come about while a timed store is due. -/
def mayGoAhead (i : Instr) : Bool :=
  match i with
  | .timedStorePerform _ _ | .dieTimeTick _ _ => true
  | _ => false

/-- Of several asynchronous faults of one launch in one cycle the first decides the policy; a later one has none to give
(R331). -/
def firstDecides : List Pending → List Pending → List Pending
  | _, [] => []
  | seen, p :: r =>
    let later := p.kind == .asynchronous
      && seen.any fun q => q.kind == .asynchronous && q.ctx == p.ctx && q.launch == p.launch
    (if later then { p with policy := p.policy.or (some 3) } else p) :: firstDecides (p :: seen) r

/-- The records that a step has raised stand in the order of R325 behind those that were there. -/
def State.settleRecords (old : List Pending) (s : State) : State :=
  let new := s.pending.filter fun p => !old.contains p
  if new.length ≤ 1 then s
  else { s with pending := (s.pending.filter fun p => old.contains p) ++ firstDecides [] (new.foldl (fun l p => insertRecord p l) []) }

/-- The outcome of a step of the device with its records in order. -/
def settleOut (old : List Pending) (o : Out) : Out :=
  match o with
  | .next s => .next (s.settleRecords old)
  | .fault f => .fault f
  | .refused r => .refused r

/-- A step of the device, which `run` carries out (R4 of "What each step holds"): an instruction word is none, and only what may
goes ahead of a timed store that is due. -/
def eventWith (run : Instr → State → Out) (i : Instr) (s : State) : Out :=
  if i.isWord ∨ (s.timedDue ∧ !mayGoAhead i) then .refused .notDue else settleOut s.pending (run i s)

/-- A turn of an agent's sub-group. -/
noncomputable def turnWith (run : Instr → State → Out) (w : Who) (sub : Nat) (s : State) : Out :=
  if s.timedDue then .refused .notDue
  else
    match s.rotating w with
    | some x => rotateWith run x.key w s
    | none =>
      match s.select w sub with
      | some t => issueWith run t
      | none => .refused .notDue

/-- The turn of `me`, where the agenda names none. -/
noncomputable def ownTurn (run : Instr → State → Out) (s : State) : Out :=
  if s.timedDue then .refused .notDue
  else
    match s.rotating s.me.who with
    | some x => rotateWith run x.key s.me.who s
    | none => issueWith run s

end Sys2Proof.Machine
end

