-- ==== Sys2Proof/Machine/Step.lean ====
section
/-!
DEFINITION. One step of the package: the turn at the head of the agenda, or an issue of the agent `me`.
-/
namespace Sys2Proof.Machine

/-- The instruction at the PC of `me` is fetched, decoded and executed. -/
noncomputable def fetchExec (s : State) : Out := fetchWith exec s

/-- The agent `me` issues, where it may. -/
noncomputable def issue (s : State) : Out := issueWith exec s

/-- One step. Without power only the cold power-on comes about; with power applied it comes about first; after a failed
verification the hosts see the recovery window and no more (R365). -/
noncomputable def step (s : State) : Host.Outcome State Fault Refusal :=
  match s.power with
  | .on => exec .coldPowerOn s
  | .up =>
    match s.agenda with
    | [] => ownTurn exec s
    | .event i :: r => eventWith exec i { s with agenda := r }
    | .issue w sub :: r => turnWith exec w sub { s with agenda := r }
    | .load o :: r => execLoad o { s with agenda := r }
    | .firmware n value :: r => execFirmwareWrite n value { s with agenda := r }
    | .evict die i :: r => execTlbEvict die i { s with agenda := r }
    | .window a :: r => execWindow a { s with agenda := r }
  | .recovery _ =>
    match s.agenda with
    | .event .coldPowerOn :: r => exec .coldPowerOn { s with agenda := r }
    | .event .powerOff :: r => exec .powerOff { s with agenda := r }
    | .window a :: r => execWindow a { s with agenda := r }
    | _ => .fault .notRunning
  | .off =>
    match s.agenda with
    | .event .coldPowerOn :: r => exec .coldPowerOn { s with agenda := r }
    | _ => .fault .notRunning

/-- The agent that runs a placed instruction: a CSQ thread for majors 0x68 to 0x6B, the supervisor thread for 0x70 to
0x73, a group for every other word. -/
def placedAgent (w : Nat) (code : List Byte) : Agent :=
  let op := w / 2 % 128
  let u : UnitKey := ⟨0, 0, 0⟩
  let a :=
    if w % 2 = 1 ∧ 0x68 ≤ op ∧ op ≤ 0x6B then Agent.start (.thread u) .csq ⟨0, 0, 0, 0⟩
    else if w % 2 = 1 ∧ 0x70 ≤ op ∧ op ≤ 0x73 then Agent.start (.sup 0) .sup ⟨8, 0, 0, 0⟩
    else { Agent.start (.group u 0) .core ⟨0, 0, 0, 0⟩ with quota := 120 }
  { a with code := code }

/-- The state with an instruction placed where `step` fetches next: the device is up, no other turn is due and no
timed store, and the agent whose turn it is, of a unit that is not deterministic, has the instruction as its code
image (DESIGN CHOICE, log entry 2). -/
def State.withFetchWord (s : State) (nbits w : Nat) : State :=
  { s with
    power := .up, agenda := [], units := s.units.filter fun x => x.key != ⟨0, 0, 0⟩,
    launches := s.launches.filter fun l => l.ctx != 0 || l.id != 0,
    cores := s.cores.map fun c => (c.1, { c.2 with timed := [] }),
    me := placedAgent (w % 2 ^ nbits) (bytesOfWord (BitVec.ofNat 32 (w % 2 ^ nbits))) }

end Sys2Proof.Machine
end

