-- ==== Sys2Proof/WellFormed.lean ====
section
/-!
DEFINITION. Which instructions are well formed: the legality conditions that the words alone decide (R41, R42,
R47 to R49, R54, R55, R60, R87, R94, R134, R141, R143, R155), and for a step of the device the ranges of what
names it (R7, R281, R353).
-/
namespace Sys2Proof

/-- N = 1 requires D = 0 (R54). -/
def discards (n : BitVec 1) (d : BitVec 7) : Bool := n == 0 || d == 0

/-- A destination code that names a lane register (R47). -/
def isV (d : BitVec 7) : Bool := decide (d.toNat < 120)

/-- A destination or source that occupies `w` lane registers from `d` (R49). -/
def spans (d : BitVec 7) (w : Nat) : Bool := decide (d.toNat + w - 1 ≤ 119)

/-- A v code whose successor is a v code (R87, R89). -/
def isPair (a : BitVec 7) : Bool := decide (a.toNat + 1 ≤ 119)

/-- A code that names one of g0 to g63 (R48). -/
def isG (a : BitVec 7) : Bool := decide (a.toNat < 64)

/-- A scope code (R55). -/
def isScope (c : BitVec 3) : Bool := decide (c.toNat < 7)

/-- One of the writable selectors 32 to 35 (R94). -/
def isScratch (n : Nat) : Bool := decide (32 ≤ n ∧ n ≤ 35)

/-- An allocated special-register selector (R60, R95). -/
def isSelector (n : Nat) : Bool := decide (n ≤ 21) || isScratch n

/-- The context of a unit is one of the 64 (R281). -/
def UnitKey.valid (u : UnitKey) : Bool := decide (u.ctx < 64 ∧ u.index < 2 ^ 20)

/-- The place is a core of the package (R7). -/
def CoreId.valid (c : CoreId) : Bool := decide (c.die < 8 ∧ c.cluster < 4 ∧ c.core < 128)

/-- The agent's unit and group index are in range (R9, R183). -/
def Who.valid : Who → Bool
  | .group u g => u.valid && decide (g < 128)
  | .thread u => u.valid
  | .sup _ => true

/-- The legality conditions of an instruction's own words. -/
def Instr.wellFormed : Instr → Bool
  | .iadd n _ _ d => discards n d && isV d
  | .isub n _ _ d => discards n d && isV d
  | .iadds n _ _ d => discards n d && isV d
  | .isubs n _ _ d => discards n d && isV d
  | .imul n _ _ d => discards n d && isV d
  | .imulhi n _ _ d => discards n d && isV d
  | .imulhiu n _ _ d => discards n d && isV d
  | .imad _ _ d => isV d
  | .imin n _ _ d => discards n d && isV d
  | .imax n _ _ d => discards n d && isV d
  | .umin n _ _ d => discards n d && isV d
  | .umax n _ _ d => discards n d && isV d
  | .and n _ _ d => discards n d && isV d
  | .or n _ _ d => discards n d && isV d
  | .xor n _ _ d => discards n d && isV d
  | .andn n _ _ d => discards n d && isV d
  | .shl n _ _ d => discards n d && isV d
  | .shr n _ _ d => discards n d && isV d
  | .sra n _ _ d => discards n d && isV d
  | .rotl n _ _ d => discards n d && isV d
  | .popc n _ d => discards n d && isV d
  | .clz n _ d => discards n d && isV d
  | .brev n _ d => discards n d && isV d
  | .bfx n _ _ d => discards n d && isV d
  | .bfi n _ _ d => discards n d && isV d
  | .iabs n _ d => discards n d && isV d
  | .udiv n _ _ d => discards n d && isV d
  | .urem n _ _ d => discards n d && isV d
  | .lea n _ _ d => discards n d && isV d
  | .lea2 n _ _ d => discards n d && isV d
  | .lea4 n _ _ d => discards n d && isV d
  | .lea8 n _ _ d => discards n d && isV d
  | .fadd n _ _ d => discards n d && isV d
  | .fsub n _ _ d => discards n d && isV d
  | .fmul n _ _ d => discards n d && isV d
  | .fma _ _ d => isV d
  | .fmin n _ _ d => discards n d && isV d
  | .fmax n _ _ d => discards n d && isV d
  | .fabs n _ d => discards n d && isV d
  | .fneg n _ d => discards n d && isV d
  | .frcp n _ d => discards n d && isV d
  | .frsq n _ d => discards n d && isV d
  | .fex2 n _ d => discards n d && isV d
  | .flg2 n _ d => discards n d && isV d
  | .faddBf2 n _ _ d => discards n d && isV d
  | .fmulBf2 n _ _ d => discards n d && isV d
  | .fmaBf2 _ _ d => isV d
  | .fmaxBf2 n _ _ d => discards n d && isV d
  | .faddHf2 n _ _ d => discards n d && isV d
  | .fmulHf2 n _ _ d => discards n d && isV d
  | .fmaHf2 _ _ d => isV d
  | .fmaxHf2 n _ _ d => discards n d && isV d
  | .fdot2Bf _ _ d => isV d
  | .fdot4E4 _ _ d => isV d
  | .fdot4E5 _ _ d => isV d
  | .fdot8E2m1 _ _ d => isV d
  | .raddF n _ d => discards n d && isV d
  | .rmaxF n _ d => discards n d && isV d
  | .raddI n _ d => discards n d && isV d
  | .rmaxI n _ d => discards n d && isV d
  | .fscale n _ _ d => discards n d && isV d
  | .ffloor n _ d => discards n d && isV d
  | .frint n _ d => discards n d && isV d
  | .i2f n _ d => discards n d && isV d
  | .u2f n _ d => discards n d && isV d
  | .f2i n _ d => discards n d && isV d
  | .f2u n _ d => discards n d && isV d
  | .cvtBf2 n _ _ d => discards n d && isV d
  | .cvtHf2 n _ _ d => discards n d && isV d
  | .cvtE4 _ _ d => isV d
  | .cvtE5 _ _ d => isV d
  | .cvtsrE4 _ _ d => isV d
  | .cvtsrE5 _ _ d => isV d
  | .cvtsrE3m2 _ _ d => isV d
  | .cvtsrE2m1 _ _ d => isV d
  | .cvtE3m2 _ d => isV d
  | .cvtE2m3 _ d => isV d
  | .cvtE2m1 _ d => isV d
  | .cvtsrBf _ _ d => isV d
  | .unpBf n _ _ d => discards n d && isV d
  | .unpHf n _ _ d => discards n d && isV d
  | .unpE4 n _ _ d => discards n d && isV d
  | .unpE5 n _ _ d => discards n d && isV d
  | .unpE3m2 n _ _ d => discards n d && isV d
  | .unpE2m3 n _ _ d => discards n d && isV d
  | .unpE2m1 n _ _ d => discards n d && isV d
  | .cvtsrE2m3 _ _ d => isV d
  | .icmpeq n _ _ d => discards n d && isV d
  | .icmplt n _ _ d => discards n d && isV d
  | .icmpltu n _ _ d => discards n d && isV d
  | .icmple n _ _ d => discards n d && isV d
  | .fcmpeq n _ _ d => discards n d && isV d
  | .fcmplt n _ _ d => discards n d && isV d
  | .fcmple n _ _ d => discards n d && isV d
  | .fcmpun n _ _ d => discards n d && isV d
  | .sel _ _ d => isV d
  | .ballot n _ d => discards n d && isV d
  | .matchLanes n _ d => discards n d && isV d
  | .laneid n d => discards n d && isV d
  | .shfl n _ _ d => discards n d && isV d
  | .shflup n _ _ d => discards n d && isV d
  | .shfldn n _ _ d => discards n d && isV d
  | .shflx n _ _ d => discards n d && isV d
  | .rng4 n b a d => discards n d && isPair a && isPair b && decide (d.toNat ≤ 116)
  | .rngu n b a d => discards n d && isV d && isPair a && isPair b
  | .rngb n b a d => discards n d && isV d && isPair a && isPair b
  | .mov n _ d => discards n d && isV d
  | .movg n a d => discards n d && isV d && isG a
  | .movvg a d => isG d && isPair a
  | .movvgl _ a d => isG d && isPair a
  | .iaddi _ _ d => isV d
  | .andi _ _ d => isV d
  | .ori _ _ d => isV d
  | .xori _ _ d => isV d
  | .shli _ _ d => isV d
  | .shri _ _ d => isV d
  | .srai _ _ d => isV d
  | .icmplti _ _ d => isV d
  | .icmpeqi _ _ d => isV d
  | .imuli _ _ d => isV d
  | .movi _ d => isV d
  | .movh _ d => isV d
  | .srd i d => isV d && isSelector i.toNat
  | .iadd16 n a d => !(n == 0 && a == 0 && d == 0)
  | .isub16 _ _ _ => true
  | .imul16 _ _ _ => true
  | .and16 _ _ _ => true
  | .or16 _ _ _ => true
  | .xor16 _ _ _ => true
  | .shli16 _ _ _ => true
  | .shri16 _ _ _ => true
  | .mov16 n _ d => discards n (BitVec.setWidth 7 d)
  | .movi5 n _ d => discards n (BitVec.setWidth 7 d)
  | .fadd16 _ _ _ => true
  | .fsub16 _ _ _ => true
  | .fmul16 _ _ _ => true
  | .fmax16 _ _ _ => true
  | .icmplt16 _ _ _ => true
  | .nop => true
  | .gadd b a d => isG a && isG b && isG d
  | .gsub b a d => isG a && isG b && isG d
  | .gmul b a d => isG a && isG b && isG d
  | .gmad b a d => isG a && isG b && isG d
  | .gand b a d => isG a && isG b && isG d
  | .gor b a d => isG a && isG b && isG d
  | .gxor b a d => isG a && isG b && isG d
  | .gandn b a d => isG a && isG b && isG d
  | .gshl b a d => isG a && isG b && isG d
  | .gshr b a d => isG a && isG b && isG d
  | .gsra b a d => isG a && isG b && isG d
  | .gmin b a d => isG a && isG b && isG d
  | .gcmpeq b a d => isG a && isG b && isG d
  | .gcmplt b a d => isG a && isG b && isG d
  | .gcmpltu b a d => isG a && isG b && isG d
  | .gmax b a d => isG a && isG b && isG d
  | .gaddi _ a d => isG d && isG a
  | .gmovi _ d => isG d
  | .gshi16 _ d => isG d
  | .gsrd b d => isG d && isSelector b.toNat
  | .gswr b a => isG a && isScratch b.toNat
  | .xlt b a d => decide (d.toNat ≤ 7) && isG a && isG b
  | .gmov a d => isG a && isG d
  | .bra _ => true
  | .brg _ p => isG p
  | .brzg _ p => isG p
  | .brv _ _ => true
  | .call _ => true
  | .ret => true
  | .jmpg a => isG a
  | .fuse => true
  | .exit => true
  | .emrd d => isG d
  | .emwr a => isG a
  | .yield => true
  | .bkpt => true
  | .mskip _ p => isG p
  | .ld32 _ _ d => isV d
  | .ld64 _ _ d => spans d 2
  | .ld128 _ _ d => spans d 4
  | .ld16 _ _ d => isV d
  | .st32 _ _ _ => true
  | .st64 _ _ d => spans d 2
  | .st128 _ _ d => spans d 4
  | .st16 _ _ _ => true
  | .ld8 _ _ d => isV d
  | .st8 _ _ _ => true
  | .ldnb _ _ d => isV d
  | .stva _ _ _ => true
  | .atadd c _ _ d => isScope c && isV d
  | .atmax c _ _ d => isScope c && isV d
  | .atxch c _ _ d => isScope c && isV d
  | .atcas c f _ d => isScope c && isV d && decide (f.toNat ≤ 30)
  | .ator c _ _ d => isScope c && isV d
  | .atand c _ _ d => isScope c && isV d
  | .atfadd c _ _ d => isScope c && isV d
  | .atmin c _ _ d => isScope c && isV d
  | .fence c f => isScope c && decide (1 ≤ f.toNat ∧ f.toNat ≤ 3)
  | .fenceE c f => isScope c && decide (2 ≤ f.toNat ∧ f.toNat ≤ 3)
  | .ldaq c _ _ d => isScope c && isV d
  | .strl c _ _ _ => isScope c
  | .gld _ a d => isG d && isG a
  | .gst _ a d => isG d && isG a
  | .gldaq c _ a d => isScope c && isG d && isG a
  | .gstrl c _ a d => isScope c && isG d && isG a
  | .tdef b a => isG a && isG b
  | .tqry b a d => isG a && isG b && isG d
  | .tfree a => isG a
  | .tscl b a => isG a && isG b
  | .cpy b a d => isG a && isG b && isG d
  | .cpyt b a d => isG d && isG a && decide (b.toNat ≤ 62)
  | .gath b a d => isV d && isV a && isG b
  | .scat b a d => isV d && isV a && isG b
  | .balloc b a d => isG a && isG b && isG d
  | .bfree a => isG a
  | .bexp b a => isG a && isG b
  | .barv b a d => isG a && isG b && isG d
  | .bwait b a d => isG a && isG b && isG d
  | .bwaitt b a d => isG a && isG b && isG d
  | .btest a d => isG a && isG d
  | .bref b a d => isG a && isG b && isG d
  | .mfeed a => isG a
  | .mdrain a => isG a
  | .msig b a d => isG a && isG b && isG d
  | .mrecv d => isG d
  | .datt b a => isG a && isG b
  | .ddist b a => isG a && isG b
  | .dtopk b a => isG a && isG b
  | .dkvap b a => isG a && isG b
  | .kvres a d => isG a && isG d
  | .kvreq b a d => isG a && isG b && isG d
  | .kvpin b a d => isG a && isG b && isG d
  | .kvrel b a d => isG a && isG b && isG d
  | .lnch b a d => isG a && isG b && isG d
  | .lnchc b a d => isG a && isG b && isG d
  | .cancel a d => isG a && isG d
  | .ccnt a d => isG a && isG d
  | .ticket a d => isG a && isG d
  | .redeem b a d => isG a && isG b && isG d
  | .tkqry b a d => isG a && isG b && isG d
  | .tkdrop a d => isG a && isG d
  | .upd b a => isG a && isG b
  | .wvpub a d => isG a && isG d
  | .wvret b a d => isG a && isG b && isG d
  | .norm b a => isG a && isG b
  | .regq b a d => isG a && isG b && isG d
  | .snapm d => isG d
  | .pgreq b a d => isG a && isG b && isG d
  | .trap _ a => isG a
  | .mma b a d => isG a && isG b && isG d
  | .mmaSp b a d => isG a && isG b && isG d
  | .mmaz b a d => isG a && isG b && isG d
  | .mmazSp b a d => isG a && isG b && isG d
  | .epq b a d => isG a && isG b && isG d
  | .epst b a d => isG a && isG b && isG d
  | .epov b a d => isG a && isG b && isG d
  | .accz b a d => isG a && isG b && isG d
  | .mbatch d => isG d
  | .mwait a d => isG a && isG d
  | .mclass a => isG a
  | .myld => true
  | .mquad b a d => isG a && isG b && isG d
  | .mscale b a => isG a && isG b
  | .csrr a d => isG a && isG d
  | .csrw b a d => isG a && isG b && isG d
  | .csrs b a d => isG a && isG b && isG d
  | .csrc b a d => isG a && isG b && isG d
  | .tlbi b a => isG a && isG b
  | .tlbia a => isG a
  | .prefw b a => isG a && isG b
  | .zeroRange b a d => isG a && isG b && isG d
  | .eret => true
  | .halt => true
  | .hirq a => isG a
  | .rtchk a d => isG a && isG d
  | .ctxsv b a d => isG a && isG b && isG d
  | .ctxld b a d => isG a && isG b && isG d
  | .snapb a d => isG a && isG d
  | .snapc b a d => isG a && isG b && isG d
  | .storePerform w => w.valid
  | .timedStorePerform core _ => core.valid
  | .ldnbPerform w => w.valid
  | .gathStatusArrive die _ => decide (die < 8)
  | .barvArrival w => w.valid
  | .bwaitReturn w => w.valid
  | .bwaittTimeout w => w.valid
  | .copyCommandComplete die _ => decide (die < 8)
  | .cpytWriteRelease die _ => decide (die < 8)
  | .bulkQueuePublish u => u.valid
  | .bulkEntryStart die => decide (die < 8)
  | .bulkEntryComplete die _ => decide (die < 8)
  | .completionRecordWrite u => u.valid
  | .pageRequestComplete part _ => decide (part < 8)
  | .launchAnswer w => w.valid
  | .unitAdmit u die cluster cores => u.valid && decide (die < 8) && decide (cluster < 4) && cores.all (fun k => decide (k < 128))
  | .launchBecomesBlocking ctx _ => decide (ctx < 64)
  | .launchComplete ctx _ => decide (ctx < 64)
  | .launchCommit ctx _ => decide (ctx < 64)
  | .snapmRelease ctx _ => decide (ctx < 64)
  | .slotRelease w => w.valid
  | .preemptionStop u => u.valid
  | .mxeStep die cluster => decide (die < 8) && decide (cluster < 4)
  | .mquadInstall w => w.valid
  | .mwaitReturn w => w.valid
  | .mdrainRead w => w.valid
  | .mrecvWake w => w.valid
  | .dcePage die => decide (die < 8)
  | .kvRequestComplete ctx _ _ => decide (ctx < 64)
  | .kvVictimAction ctx => decide (ctx < 64)
  | .updStart die _ => decide (die < 8)
  | .updTileCommit die _ => decide (die < 8)
  | .normApply die _ => decide (die < 8)
  | .stagingBufferTake ctx _ => decide (ctx < 64)
  | .delivery ctx _ => decide (ctx < 64)
  | .replicaCommit _ => true
  | .replicaLockTimeout die _ => decide (die < 8)
  | .pageWalk die ctx _ _ => decide (die < 9) && decide (ctx < 65)
  | .walkSlotGrant die => decide (die < 9)
  | .hsemClaim _ _ => true
  | .hsemRelease _ _ => true
  | .hostLinkDown _ => true
  | .bar0ControlWrite _ _ _ => true
  | .hostHdmAccess _ _ _ _ => true
  | .submissionRingTake ctx => decide (ctx < 64)
  | .attestationRequest _ nonce => decide (nonce.length = 48)
  | .faultRecordDeliver => true
  | .faultRingDrain part => decide (part < 8)
  | .rollback ctx _ => decide (ctx < 64)
  | .contextCreate ctx _ => decide (ctx < 64)
  | .contextEnd ctx => decide (ctx < 64)
  | .asidChange ctx _ _ => decide (ctx < 64)
  | .factNone ctx _ => decide (ctx < 64)
  | .factKill ctx _ => decide (ctx < 64)
  | .factReplay ctx _ => decide (ctx < 64)
  | .factResume ctx _ => decide (ctx < 64)
  | .topoReload _ => true
  | .routesReload _ => true
  | .haltResume w => w.valid
  | .eccCorrected die _ => decide (die < 8)
  | .eccUncorrectable _ => true
  | .rowRetire _ => true
  | .checkerMismatch _ _ => true
  | .warmReset die _ => decide (die < 8 ∨ die = 255)
  | .throttleEvent die => decide (die < 8)
  | .thermalLimit die _ => decide (die < 8)
  | .coldPowerOn => true
  | .digest model ctx _ _ _ => decide (model < 256) && decide (ctx < 64)
  | .digestTimeout ctx model => decide (ctx < 64) && decide (model < 256)
  | .read _ => true
  | .write _ => true
  | .atomic _ => true
  | .rddata _ => true
  | .wrack _ => true
  | .atrsp _ => true
  | .sync _ => true
  | .follow _ => true
  | .dreq port _ => decide (port < 12)
  | .drsp _ => true
  | .packetForward port _ data => decide (port ≤ 32) && decide (data.length ≤ 512)
  | .flowStop port vc _ => decide (port < 12) && decide (vc < 4)
  | .flowGo port vc _ => decide (port < 12) && decide (vc < 4)
  | .linkDown port => decide (port < 12)
  | .linkStateChange port _ => decide (port < 12)
  | .peerRequestTimeout _ => true
  | .timeExchangeStart port => decide (port < 12)
  | .packageTimeExchange die _ => decide (die < 8)
  | .ptmSync _ => true
  | .disciplineLoss die => decide (die < 9)
  | .dieTimeTick die add => decide (die < 9) && decide (add ≤ 2)
  | .wordThatDoesNotExecute _ => true
  | .linkLevelReplay port => decide (port < 12)
  | .hostLinkUp _ => true
  | .powerOff => true
  | .throttleEnd die => decide (die < 8)
  | .zeroComplete w => w.valid

end Sys2Proof
end

