-- ==== Sys2Proof/Safety.lean ====
section
/-!
DEFINITION. The terms in which the statements are made: when an instruction passes decode, what an instruction of an
agent leaves unchanged, and how its chain goes on.
-/
namespace Sys2Proof.Machine

/-- The instruction meets no decode trap (R59) and no earlier instruction still owes it a result (R8). -/
def Clear (n : Need) (s : State) : Prop :=
  decodeCause (gathHead s.me n) n = none ∧ owes (s.cycleOf (gathHead s.me n)) (gathHead s.me n) n = false

/-- The state in which such an instruction executes: where it reads the destination of a GATH or SCAT, the chain has
ended first (R51), and that destination is read. Where the agent owes nothing it is the state itself. -/
def cleared (n : Need) (s : State) : State := { s with me := gathRead (gathHead s.me n) n }

/-- Of the whole state, only the agent whose turn it is differs, and of that agent only its register files with the
writes its chains hold, its count of retired instructions, and its issuing sub-group, whose number, lanes, parent
and stack stay. -/
def AgentOnly (s t : State) : Prop :=
  t = { s with me := { s.me with v := t.me.v, g := t.me.g, xt := t.me.xt, scratch := t.me.scratch,
                                 heldG := t.me.heldG, retired := t.me.retired, cur := t.me.cur } } ∧
  t.me.cur.id = s.me.cur.id ∧ t.me.cur.ls = s.me.cur.ls ∧ t.me.cur.parent = s.me.cur.parent ∧
  t.me.cur.stack = s.me.cur.stack ∧ t.me.cur.parked = s.me.cur.parked

/-- The registers of one file read as before. -/
def SameV (s t : State) : Prop := ∀ k l, l < 32 → t.me.readV k l = s.me.readV k l
def SameG (s t : State) : Prop := ∀ k, t.me.readG k = s.me.readG k
def SameXt (s t : State) : Prop := ∀ k, t.me.readXt k = s.me.readXt k
def SameScratch (s t : State) : Prop := ∀ k, t.me.readScratch k = s.me.readScratch k

/-- The chain after an instruction with latch result `b0` (R50 to R53): it ends where the instruction says so, after
eight instructions, and on a CSQ thread; its instructions then count as retired and every latch is void. -/
def ChainGoes (s t : State) (ends : Bool) (b0 : Option Lanes) : Prop :=
  if ends = true ∨ 8 ≤ s.me.cur.pos + 1 ∨ s.me.kind = .csq then
    t.me.cur.pos = 0 ∧ t.me.cur.latches = .void ∧ t.me.retired = s.me.retired + BitVec.ofNat 64 (s.me.cur.pos + 1)
  else
    t.me.cur.pos = s.me.cur.pos + 1 ∧ t.me.retired = s.me.retired ∧
    t.me.cur.latches = ⟨b0, s.me.cur.latches.b0, s.me.cur.latches.b1, s.me.cur.latches.b2⟩

/-- The effect of a lane instruction of `size` bytes with result `r` (R4, R48, R50, R70): `r` goes to v[d] in the active
lanes unless N = 1, b0 takes `r` in the active lanes and 0 in the others, and nothing else changes. -/
def LaneEffect (s t : State) (n : BitVec 1) (d size : Nat) (r : Nat → Word) : Prop :=
  AgentOnly s t ∧ t.me.cur.em = s.me.cur.em ∧ t.me.cur.pc = s.me.cur.pc + BitVec.ofNat 32 size ∧
  (∀ k l, l < 32 →
    t.me.readV k l = if n = 0 ∧ k = d ∧ s.me.cur.em.getLsbD l = true then r l else s.me.readV k l) ∧
  SameG s t ∧ SameXt s t ∧ SameScratch s t ∧
  ∃ b0 : Lanes, (∀ l, l < 32 → b0.at l = if s.me.cur.em.getLsbD l = true then r l else 0) ∧ ChainGoes s t false (some b0)

/-- The effect of a lane instruction whose result is `k` registers from v[d] on, register i of lane l taking `r i l`; b0
takes the first. -/
def SpanEffect (s t : State) (d k : Nat) (r : Nat → Nat → Word) (ends : Bool) : Prop :=
  AgentOnly s t ∧ t.me.cur.em = s.me.cur.em ∧ t.me.cur.pc = s.me.cur.pc + 4 ∧
  (∀ n l, l < 32 →
    t.me.readV n l = if d ≤ n ∧ n < d + k ∧ s.me.cur.em.getLsbD l = true then r (n - d) l else s.me.readV n l) ∧
  SameG s t ∧ SameXt s t ∧ SameScratch s t ∧
  ∃ b0 : Lanes, (∀ l, l < 32 → b0.at l = if s.me.cur.em.getLsbD l = true then r 0 l else 0) ∧ ChainGoes s t ends (some b0)

/-- The active lanes, lowest first. -/
def activeLanes (s : State) : List Nat := (List.range 32).filter fun l => s.me.cur.em.getLsbD l

/-- Every active lane's access of `w` bytes at its address passes its checks (R110), and `acc` gives its address and
bytes. -/
def LanesPass (s : State) (w off : Nat) (a : BitVec 7) (fault : Nat → List OdaByte → Option Cause) (acc : Nat → Access) : Prop :=
  ∀ l, l < 32 → s.me.cur.em.getLsbD l = true → s.laneAccess s.me w fault l (s.me.ea a off l) = .ok (acc l)

/-- Lane `e.lane` is the lowest active lane whose access fails, with cause and address as `e` says (R110). -/
def LaneFails (s : State) (w off : Nat) (a : BitVec 7) (fault : Nat → List OdaByte → Option Cause) (e : LaneFault) : Prop :=
  ∃ l, l < 32 ∧ s.me.cur.em.getLsbD l = true ∧ s.laneAccess s.me w fault l (s.me.ea a off l) = .error e ∧
    ∀ k, k < l → s.me.cur.em.getLsbD k = true → ∃ x, s.laneAccess s.me w fault k (s.me.ea a off k) = .ok x

/-- The effect of an instruction that writes g[d] (R48): a write to g0 is discarded, and nothing else changes. -/
def GroupEffect (s t : State) (d : Nat) (x : DWord) (ends : Bool) : Prop :=
  AgentOnly s t ∧ t.me.cur.em = s.me.cur.em ∧ t.me.cur.pc = s.me.cur.pc + 4 ∧
  (∀ k, t.me.readG k = if k = d ∧ d ≠ 0 then x else s.me.readG k) ∧
  SameV s t ∧ SameXt s t ∧ SameScratch s t ∧ ChainGoes s t ends none

/-- The effect of an instruction that writes no register and goes on at `pc`. -/
def FlowEffect (s t : State) (pc : Word) (ends : Bool) : Prop :=
  AgentOnly s t ∧ t.me.cur.em = s.me.cur.em ∧ t.me.cur.pc = pc ∧
  SameV s t ∧ SameG s t ∧ SameXt s t ∧ SameScratch s t ∧ ChainGoes s t ends none

/-- The state with another execution mask of the issuing sub-group. -/
def withEm (s : State) (em : Word) : State := { s with me := { s.me with cur := { s.me.cur with em := em } } }

/-- The effect of an instruction that writes one translation register (R96, R97). -/
def XtEffect (s t : State) (d : Nat) (x : Xt) : Prop :=
  AgentOnly s t ∧ t.me.cur.em = s.me.cur.em ∧ t.me.cur.pc = s.me.cur.pc + 4 ∧
  (∀ k, t.me.readXt k = if k = d then x else s.me.readXt k) ∧
  SameV s t ∧ SameG s t ∧ SameScratch s t ∧ ChainGoes s t false none

/-- The instruction answers a next state of which `p` holds. -/
def Answers (i : Instr) (s : State) (p : State → Prop) : Prop := ∃ t, exec i s = .next t ∧ p t

/-- A precise trap (R53, R279, R320): nothing of the chain stands. -/
def Traps (i : Instr) (s : State) (c : Cause) : Prop := exec i s = .next (takeTrap s c)

/-- What decode does with an instruction, given what it needs (R8, R59): the first need that is not met is its trap, where the
chain has ended first if it reads the destination of a GATH or SCAT (R51); while an earlier instruction owes it a result it does
not issue, and the machine goes on without it. -/
def DecodesAs (n : Need) (s : State) (i : Instr) : Prop :=
  let a := gathHead s.me n
  (∀ c, decodeCause a n = some c → exec i s = .next (takeTrap { s with me := a } c)) ∧
  (decodeCause a n = none → owes (s.cycleOf a) a n = true → exec i s = .next { s with me := a })

/-- The trap of a major and sub-op on a unit that does not execute them (R58, R278, R280). -/
def unitCause (op sub : Nat) (k : Kind) : Option Cause :=
  let thread := (0x40 ≤ op ∧ op ≤ 0x4A) ∨ op = 0x4C ∨ (op = 0x4D ∧ sub ≠ 2) ∨ op = 0x56 ∨ op = 0x5A ∨ op = 0x5B ∨ (op = 0x62 ∧ sub = 3)
  let wide := op = 0x53 ∨ (op = 0x54 ∧ sub ≠ 2) ∨ (op = 0x55 ∧ sub < 2)
  match k with
  | .core => if 0x70 ≤ op then some .privileged else if 0x68 ≤ op then some .wrongUnit else none
  | .csq => if thread ∨ (0x68 ≤ op ∧ op ≤ 0x6B) then none else some .wrongUnit
  | .sup => if thread ∨ wide ∨ 0x70 ≤ op then none else some .wrongUnit

/-! Shapes of lane instructions: each holds for every operand, N and state in which the instruction passes decode, and
gives the relation of the result in each active lane to the sources there. -/

/-- Two lane sources. -/
def LaneTwo (i : BitVec 1 → BitVec 7 → BitVec 7 → BitVec 7 → Instr) (f : Word → Word → Word → Prop) : Prop :=
  ∀ n b a d s, Clear (laneNeed n d [a, b] false) s →
    Answers (i n b a d) s fun t => ∃ r : Nat → Word,
      LaneEffect (cleared (laneNeed n d [a, b] false) s) t n d.toNat 4 r ∧
      ∀ l, l < 32 → s.me.cur.em.getLsbD l = true →
        f ((cleared (laneNeed n d [a, b] false) s).me.src a l) ((cleared (laneNeed n d [a, b] false) s).me.src b l) (r l)

/-- One lane source. -/
def LaneOne (i : BitVec 1 → BitVec 7 → BitVec 7 → Instr) (f : Word → Word → Prop) : Prop :=
  ∀ n a d s, Clear (laneNeed n d [a] false) s →
    Answers (i n a d) s fun t => ∃ r : Nat → Word,
      LaneEffect (cleared (laneNeed n d [a] false) s) t n d.toNat 4 r ∧
      ∀ l, l < 32 → s.me.cur.em.getLsbD l = true → f ((cleared (laneNeed n d [a] false) s).me.src a l) (r l)

/-- Two lane sources and v[d] as the third (R54: no N form). -/
def LaneThree (i : BitVec 7 → BitVec 7 → BitVec 7 → Instr) (f : Word → Word → Word → Word → Prop) : Prop :=
  ∀ b a d s, Clear (laneNeed 0 d [a, b] true) s →
    Answers (i b a d) s fun t => ∃ r : Nat → Word,
      LaneEffect (cleared (laneNeed 0 d [a, b] true) s) t 0 d.toNat 4 r ∧
      ∀ l, l < 32 → s.me.cur.em.getLsbD l = true →
        f ((cleared (laneNeed 0 d [a, b] true) s).me.src a l) ((cleared (laneNeed 0 d [a, b] true) s).me.src b l)
          ((cleared (laneNeed 0 d [a, b] true) s).me.readV d.toNat l) (r l)

/-- One lane source and v[d] as the second. -/
def LaneThreeOne (i : BitVec 7 → BitVec 7 → Instr) (f : Word → Word → Word → Prop) : Prop :=
  ∀ a d s, Clear (laneNeed 0 d [a] true) s →
    Answers (i a d) s fun t => ∃ r : Nat → Word,
      LaneEffect (cleared (laneNeed 0 d [a] true) s) t 0 d.toNat 4 r ∧
      ∀ l, l < 32 → s.me.cur.em.getLsbD l = true →
        f ((cleared (laneNeed 0 d [a] true) s).me.src a l) ((cleared (laneNeed 0 d [a] true) s).me.readV d.toNat l) (r l)

/-- One lane source and an immediate of `w` bits. -/
def LaneImmediate {w : Nat} (i : BitVec w → BitVec 7 → BitVec 7 → Instr) (f : Word → BitVec w → Word → Prop) : Prop :=
  ∀ imm a d s, Clear (laneNeed 0 d [a] false) s →
    Answers (i imm a d) s fun t => ∃ r : Nat → Word,
      LaneEffect (cleared (laneNeed 0 d [a] false) s) t 0 d.toNat 4 r ∧
      ∀ l, l < 32 → s.me.cur.em.getLsbD l = true → f ((cleared (laneNeed 0 d [a] false) s).me.src a l) imm (r l)

/-- A 16-bit form of v[d] and v[a] (R41). -/
def HalfTwo (i : BitVec 1 → BitVec 5 → BitVec 5 → Instr) (f : Word → Word → Word → Prop) : Prop :=
  ∀ n a d s, Clear (halfNeed n d true [a]) s →
    Answers (i n a d) s fun t => ∃ r : Nat → Word,
      LaneEffect (cleared (halfNeed n d true [a]) s) t n d.toNat 2 r ∧
      ∀ l, l < 32 → s.me.cur.em.getLsbD l = true →
        f ((cleared (halfNeed n d true [a]) s).me.readV d.toNat l) ((cleared (halfNeed n d true [a]) s).me.readV a.toNat l) (r l)

/-- A 16-bit form of v[d] and a 5-bit immediate (R41). -/
def HalfImmediate (i : BitVec 1 → BitVec 5 → BitVec 5 → Instr) (f : Word → BitVec 5 → Word → Prop) : Prop :=
  ∀ n imm d s, Clear (halfNeed n d true []) s →
    Answers (i n imm d) s fun t => ∃ r : Nat → Word,
      LaneEffect (cleared (halfNeed n d true []) s) t n d.toNat 2 r ∧
      ∀ l, l < 32 → s.me.cur.em.getLsbD l = true →
        f ((cleared (halfNeed n d true []) s).me.readV d.toNat l) imm (r l)

/-- A reduction over the active lanes (R32, R79): every active lane takes one value. -/
def LaneReduce (i : BitVec 1 → BitVec 7 → BitVec 7 → Instr) (op : Word → Word → Word) (ident : Word) : Prop :=
  ∀ n a d s, Clear (laneNeed n d [a] false) s →
    let u := cleared (laneNeed n d [a] false) s
    Answers (i n a d) s fun t =>
      LaneEffect u t n d.toNat 4 fun _ => laneTree op fun l => if s.me.cur.em.getLsbD l = true then u.me.src a l else ident

/-- A shuffle (R86): lane l takes a of lane `j l b`, or its own a where that is no active lane. -/
def LaneShuffle (i : BitVec 1 → BitVec 7 → BitVec 7 → BitVec 7 → Instr) (j : Nat → Word → Int) : Prop :=
  ∀ n b a d s, Clear (laneNeed n d [a, b] false) s →
    let u := cleared (laneNeed n d [a, b] false) s
    Answers (i n b a d) s fun t => ∃ r : Nat → Word, LaneEffect u t n d.toNat 4 r ∧
      ∀ l, l < 32 → s.me.cur.em.getLsbD l = true →
        r l = if 0 ≤ j l (u.me.src b l) ∧ j l (u.me.src b l) ≤ 31 ∧ s.me.cur.em.getLsbD (j l (u.me.src b l)).toNat = true
              then u.me.src a (j l (u.me.src b l)).toNat else u.me.src a l

/-- A group-wide operation of two sources (R93). -/
def GroupTwo (i : BitVec 7 → BitVec 7 → BitVec 7 → Instr) (f : DWord → DWord → DWord → Prop) : Prop :=
  ∀ b a d s, Clear (gNeed .all [d, a, b]) s →
    Answers (i b a d) s fun t => ∃ x, GroupEffect s t d.toNat x false ∧ f (s.me.readG a.toNat) (s.me.readG b.toNat) x

end Sys2Proof.Machine
end

