-- ==== Sys2Proof/Certificates/Slice0/Obligations.lean ====
section
/-!
DEFINITION. The statements. Each docstring names the rules of the specification that the statement formalises, and says
where a clause is the model's own.
-/
open Sys2Proof
open Sys2Proof.Machine

/-! Lane instructions (R69 to R92) and 16-bit forms (R41). -/

/-- Integer lane instructions (R73), and BFX and BFI bit by bit (R74): the result of each, in every active lane, with N = 0
and N = 1. -/
def Obligations.IntegerLaneResults : Prop :=
  (LaneTwo .iadd (fun a b r => r = a + b) ∧
   LaneTwo .isub (fun a b r => r = a - b) ∧
   LaneTwo .iadds (fun a b r => r.toInt = max (-2 ^ 31) (min (2 ^ 31 - 1) (a.toInt + b.toInt))) ∧
   LaneTwo .isubs (fun a b r => r.toInt = max (-2 ^ 31) (min (2 ^ 31 - 1) (a.toInt - b.toInt))) ∧
   LaneTwo .imul (fun a b r => r.toNat = a.toNat * b.toNat % 2 ^ 32) ∧
   LaneTwo .imulhi (fun a b r => r.toInt = a.toInt * b.toInt / 2 ^ 32) ∧
   LaneTwo .imulhiu (fun a b r => r.toNat = a.toNat * b.toNat / 2 ^ 32) ∧
   LaneThree .imad (fun a b d r => r.toNat = (a.toNat * b.toNat + d.toNat) % 2 ^ 32) ∧
   LaneTwo .imin (fun a b r => r.toInt = min a.toInt b.toInt) ∧
   LaneTwo .imax (fun a b r => r.toInt = max a.toInt b.toInt) ∧
   LaneTwo .umin (fun a b r => r.toNat = min a.toNat b.toNat) ∧
   LaneTwo .umax (fun a b r => r.toNat = max a.toNat b.toNat) ∧
   LaneTwo .and (fun a b r => r = a &&& b) ∧
   LaneTwo .or (fun a b r => r = a ||| b) ∧
   LaneTwo .xor (fun a b r => r = a ^^^ b) ∧
   LaneTwo .andn (fun a b r => r = a &&& ~~~b) ∧
   LaneTwo .shl (fun a b r => r.toNat = if 32 ≤ b.toNat then 0 else a.toNat * 2 ^ b.toNat % 2 ^ 32) ∧
   LaneTwo .shr (fun a b r => r.toNat = if 32 ≤ b.toNat then 0 else a.toNat / 2 ^ b.toNat) ∧
   LaneTwo .sra (fun a b r => r.toInt = a.toInt / 2 ^ min b.toNat 31) ∧
   LaneTwo .rotl (fun a b r => ∀ i, i < 32 → r.getLsbD ((i + b.toNat) % 32) = a.getLsbD i) ∧
   LaneOne .popc (fun a r => r.toNat = (List.range 32).countP fun i => a.getLsbD i) ∧
   LaneOne .clz (fun a r => r.toNat ≤ 32 ∧ (∀ i, i < r.toNat → a.getLsbD (31 - i) = false) ∧
     (r.toNat < 32 → a.getLsbD (31 - r.toNat) = true)) ∧
   LaneOne .brev (fun a r => ∀ i, i < 32 → r.getLsbD (31 - i) = a.getLsbD i) ∧
   LaneOne .iabs (fun a r => r = if a.toInt < 0 then 0 - a else a) ∧
   LaneTwo .udiv (fun a b r => r.toNat = if b = 0 then 0xFFFF_FFFF else a.toNat / b.toNat) ∧
   LaneTwo .urem (fun a b r => r.toNat = if b = 0 then a.toNat else a.toNat % b.toNat) ∧
   LaneTwo .lea (fun a b r => r = a + b) ∧
   LaneTwo .lea2 (fun a b r => r = a + b * 2) ∧
   LaneTwo .lea4 (fun a b r => r = a + b * 4) ∧
   LaneTwo .lea8 (fun a b r => r = a + b * 8)) ∧
  (LaneTwo .bfx (fun a b r =>
     let pos := (b.extractLsb' 0 5).toNat
     let len := min (b.extractLsb' 8 6).toNat 32
     ∀ i, i < 32 → r.getLsbD i =
       if i < len then a.getLsbD (i + pos)
       else (b.getLsbD 16 && decide (0 < len) && a.getLsbD (len - 1 + pos))) ∧
   LaneTwo .bfi (fun a b r =>
     let pos := (b.extractLsb' 0 5).toNat
     let len := min (b.extractLsb' 8 5).toNat 16
     ∀ i, i < 32 → r.getLsbD i = if pos ≤ i ∧ i < pos + len then b.getLsbD (16 + (i - pos)) else a.getLsbD i))

/-- FP32 lane instructions (R19, R75): exact values, rounded once to nearest even. The transcendentals (R76), with the
special values of Table 5: FRCP is 1/a rounded once; FRSQ lies between the roundings of all that is below 1/√a and of all
that is above it. FEX2 of a whole number, and FLG2 of a power of two, are exact values rounded once. Against every quarter
k/4: FEX2 of an input at or above it is no less than the rounding of any q with q⁴ ≤ 2^k, at or below it no more than that
of any q with q⁴ ≥ 2^k (so at k/4 itself it lies between the roundings of all below and all above 2^(k/4)); FLG2 of an
input whose fourth power is at least 2^k is at least k/4, and of one whose fourth power is at most 2^k at most k/4. -/
def Obligations.FloatLaneResults : Prop :=
  (LaneTwo .fadd (fun a b r => r = toF32 ((f32 a).add (f32 b))) ∧
   LaneTwo .fsub (fun a b r => r = toF32 ((f32 a).sub (f32 b))) ∧
   LaneTwo .fmul (fun a b r => r = toF32 ((f32 a).mul (f32 b))) ∧
   LaneThree .fma (fun a b d r => r = toF32 (((f32 a).mul (f32 b)).add (f32 d))) ∧
   LaneTwo .fmin (fun a b r => r = toF32 ((f32 a).min (f32 b))) ∧
   LaneTwo .fmax (fun a b r => r = toF32 ((f32 a).max (f32 b))) ∧
   LaneOne .fabs (fun a r => ∀ i, i < 32 → r.getLsbD i = (a.getLsbD i && decide (i ≠ 31))) ∧
   LaneOne .fneg (fun a r => ∀ i, i < 32 → r.getLsbD i = (a.getLsbD i != decide (i = 31))) ∧
   LaneTwo .fscale (fun a b r =>
     ((f32 a).isNaN = true → r = 0x7FC0_0000) ∧ ((f32 a).isInf = true ∨ (f32 a).isZero = true → r = toF32 (f32 a)) ∧
     ∀ s x, f32 a = .num s x → x ≠ 0 → (-600 ≤ b.toInt → b.toInt ≤ 600 → r = toF32 (.num s (x * pow2 b.toInt))) ∧
       (600 < b.toInt → r = if s then 0xFF80_0000 else 0x7F80_0000) ∧ (b.toInt < -600 → r = if s then 0x8000_0000 else 0)) ∧
   LaneOne .ffloor (fun a r =>
     ((f32 a).isNaN = true → r = 0x7FC0_0000) ∧ ((f32 a).isInf = true ∨ (f32 a).isZero = true → r = toF32 (f32 a)) ∧
     ∀ s x, f32 a = .num s x → r = toF32 (FVal.ofRat (((f32 a).toRat.floor : Int) : Rat) s)) ∧
   LaneOne .frint (fun a r =>
     ((f32 a).isNaN = true → r = 0x7FC0_0000) ∧ ((f32 a).isInf = true ∨ (f32 a).isZero = true → r = toF32 (f32 a)) ∧
     ∀ s x, f32 a = .num s x → r = toF32 (.num s ((roundQuotient .ne x : Nat) : Rat)))) ∧
  (LaneOne .frcp (fun a r => match f32 a with
     | .nan _ => r = 0x7FC0_0000
     | .inf s => r = if s then 0x8000_0000 else 0
     | .num s x => if x = 0 then r = (if s then 0xFF80_0000 else 0x7F80_0000) else r = toF32 (.num s (1 / x))) ∧
   LaneOne .frsq (fun a r => match f32 a with
     | .nan _ => r = 0x7FC0_0000
     | .inf s => r = if s then 0x7FC0_0000 else 0
     | .num s x => if x = 0 then r = (if s then 0xFF80_0000 else 0x7F80_0000)
         else if s then r = 0x7FC0_0000
         else ∀ q : Rat, 0 < q →
           (q * q * x ≤ 1 → (toF32 (.num false q)).toNat ≤ r.toNat) ∧ (1 ≤ q * q * x → r.toNat ≤ (toF32 (.num false q)).toNat)) ∧
   LaneOne .fex2 (fun a r => match f32 a with
     | .nan _ => r = 0x7FC0_0000
     | .inf s => r = if s then 0 else 0x7F80_0000
     | .num s x =>
       let v := (FVal.num s x).toRat
       let pow := fun n : Int => toF32 (.num false (pow2 n))
       (x = 0 → r = 0x3F80_0000) ∧ (128 ≤ v → r = 0x7F80_0000) ∧ (v ≤ -150 → r = 0) ∧
       ∀ n : Int, -150 ≤ n → n < 128 →
         (v = n → r = pow n) ∧ ((n : Rat) < v → v < n + 1 → (pow n).toNat ≤ r.toNat ∧ r.toNat ≤ (pow (n + 1)).toNat) ∧
         ∀ (k : Int) (q : Rat), 4 * n ≤ k → k ≤ 4 * n + 4 → (n : Rat) ≤ v → v < n + 1 → 0 < q →
           ((k : Rat) ≤ 4 * v → q ^ 4 ≤ pow2 k → (toF32 (.num false q)).toNat ≤ r.toNat) ∧
           (4 * v ≤ k → pow2 k ≤ q ^ 4 → r.toNat ≤ (toF32 (.num false q)).toNat)) ∧
   LaneOne .flg2 (fun a r => match f32 a with
     | .nan _ => r = 0x7FC0_0000
     | .inf s => r = if s then 0x7FC0_0000 else 0x7F80_0000
     | .num s x => (x = 0 → r = 0xFF80_0000) ∧ (x ≠ 0 → s = true → r = 0x7FC0_0000) ∧
       (x ≠ 0 → s = false → ∀ e : Int, (x = pow2 e → r = toF32 (FVal.ofRat (e : Rat) false)) ∧
         (pow2 e < x → x < pow2 (e + 1) → (e : Rat) ≤ (f32 r).toRat ∧ (f32 r).toRat ≤ e + 1 ∧
           ∀ k : Int, 4 * e ≤ k → k ≤ 4 * e + 4 →
             (pow2 k ≤ x ^ 4 → (k : Rat) / 4 ≤ (f32 r).toRat) ∧ (x ^ 4 ≤ pow2 k → (f32 r).toRat ≤ (k : Rat) / 4)))))

/-- Packed BF16 and FP16 (R77) and the dot products (R78); group reductions (R32, R79): the tree of the active lanes, an
inactive lane entering as the identity. -/
def Obligations.PackedAndReductionResults : Prop :=
  (let Each := fun (f : Fmt) (op : FVal → FVal → FVal → FVal) (a b d r : Word) =>
     ∀ e, e < 2 → (r.extractLsb' (16 * e) 16).toNat = roundIeee f .ne (op (decodeNum f (a.extractLsb' (16 * e) 16).toNat)
       (decodeNum f (b.extractLsb' (16 * e) 16).toNat) (decodeNum f (d.extractLsb' (16 * e) 16).toNat))
   let Dot := fun (f : Fmt) (w n : Nat) (a b d r : Word) =>
     r = toF32 (dotSum ((List.range n).map fun i => (decodeNum f (a.toNat / 2 ^ (w * i)), decodeNum f (b.toNat / 2 ^ (w * i)))) (f32 d))
   LaneTwo .faddBf2 (fun a b r => Each .bf16 (fun x y _ => x.add y) a b 0 r) ∧
   LaneTwo .fmulBf2 (fun a b r => Each .bf16 (fun x y _ => x.mul y) a b 0 r) ∧
   LaneThree .fmaBf2 (fun a b d r => Each .bf16 (fun x y z => (x.mul y).add z) a b d r) ∧
   LaneTwo .fmaxBf2 (fun a b r => Each .bf16 (fun x y _ => x.max y) a b 0 r) ∧
   LaneTwo .faddHf2 (fun a b r => Each .fp16 (fun x y _ => x.add y) a b 0 r) ∧
   LaneTwo .fmulHf2 (fun a b r => Each .fp16 (fun x y _ => x.mul y) a b 0 r) ∧
   LaneThree .fmaHf2 (fun a b d r => Each .fp16 (fun x y z => (x.mul y).add z) a b d r) ∧
   LaneTwo .fmaxHf2 (fun a b r => Each .fp16 (fun x y _ => x.max y) a b 0 r) ∧
   LaneThree .fdot2Bf (fun a b d r => Dot .bf16 16 2 a b d r) ∧
   LaneThree .fdot4E4 (fun a b d r => Dot .e4m3 8 4 a b d r) ∧
   LaneThree .fdot4E5 (fun a b d r => Dot .e5m2 8 4 a b d r) ∧
   LaneThree .fdot8E2m1 (fun a b d r => Dot .e2m1 4 8 a b d r)) ∧
  (LaneReduce .raddF (fun x y => toF32 ((f32 x).add (f32 y))) 0 ∧
   LaneReduce .rmaxF (fun x y => toF32 ((f32 x).max (f32 y))) 0xFF80_0000 ∧
   LaneReduce .raddI (fun x y => x + y) 0 ∧
   LaneReduce .rmaxI (fun x y => if x.toInt < y.toInt then y else x) 0x8000_0000)

/-- Conversions between FP32 and INT32 (R27, R80), CVT.BF2 and CVT.HF2 (R81), the packing conversions (R82) and the unpacks
(R83). -/
def Obligations.ConversionResults : Prop :=
  (LaneOne .i2f (fun a r => r = toF32 (FVal.ofRat (a.toInt : Rat) false)) ∧
   LaneOne .u2f (fun a r => r = toF32 (FVal.ofRat (a.toNat : Rat) false)) ∧
   LaneOne .f2i (fun a r => match f32 a with
     | .nan _ => r = 0
     | .inf s => r.toInt = if s then -2 ^ 31 else 2 ^ 31 - 1
     | .num s x => r.toInt = max (-2 ^ 31) (min (2 ^ 31 - 1) (if s then -(x.floor.natAbs : Int) else (x.floor.natAbs : Int)))) ∧
   LaneOne .f2u (fun a r => match f32 a with
     | .nan _ => r = 0
     | .inf s => r.toNat = if s then 0 else 2 ^ 32 - 1
     | .num s x => if s then r = 0 else (r.toNat : Int) = max 0 (min (2 ^ 32 - 1) x.floor))) ∧
  (LaneTwo .cvtBf2 (fun a b r => r.toNat = roundIeee .bf16 .ne (f32 b) * 2 ^ 16 + roundIeee .bf16 .ne (f32 a)) ∧
   LaneTwo .cvtHf2 (fun a b r => r.toNat = roundIeee .fp16 .ne (f32 b) * 2 ^ 16 + roundIeee .fp16 .ne (f32 a))) ∧
  (let Conv := fun (f : Fmt) (m : RoundMode) (x : Word) => BitVec.ofNat 32 (convertNarrow f m (f32 x)).1
   let Low := fun (b : Word) => RoundMode.sr (b.extractLsb' 0 16).toNat
   let Widen := fun (f : Fmt) (w k : Nat) (a b r : Word) =>
     r = toF32 (decodeNum f (a.toNat / 2 ^ (w * (b.toNat % 2 ^ k)) % 2 ^ w))
   LaneThree .cvtE4 (fun a b d r => r = (d <<< 16) ||| (Conv .e4m3 .ne b <<< 8) ||| Conv .e4m3 .ne a) ∧
   LaneThree .cvtE5 (fun a b d r => r = (d <<< 16) ||| (Conv .e5m2 .ne b <<< 8) ||| Conv .e5m2 .ne a) ∧
   LaneThree .cvtsrE4 (fun a b d r => r = (d <<< 8) ||| Conv .e4m3 (Low b) a) ∧
   LaneThree .cvtsrE5 (fun a b d r => r = (d <<< 8) ||| Conv .e5m2 (Low b) a) ∧
   LaneThree .cvtsrE3m2 (fun a b d r => r = (d <<< 8) ||| Conv .e3m2 (Low b) a) ∧
   LaneThree .cvtsrE2m1 (fun a b d r => r = (d <<< 4) ||| Conv .e2m1 (Low b) a) ∧
   LaneThreeOne .cvtE3m2 (fun a d r => r = (d <<< 8) ||| Conv .e3m2 .ne a) ∧
   LaneThreeOne .cvtE2m3 (fun a d r => r = (d <<< 8) ||| Conv .e2m3 .ne a) ∧
   LaneThreeOne .cvtE2m1 (fun a d r => r = (d <<< 4) ||| Conv .e2m1 .ne a) ∧
   LaneThree .cvtsrBf (fun a b d r => r = (d <<< 16) ||| BitVec.ofNat 32 (roundIeee .bf16 (Low b) (f32 a))) ∧
   LaneThree .cvtsrE2m3 (fun a b d r => r = (d <<< 8) ||| Conv .e2m3 (Low b) a) ∧
   LaneTwo .unpBf (fun a b r => Widen .bf16 16 1 a b r) ∧
   LaneTwo .unpHf (fun a b r => Widen .fp16 16 1 a b r) ∧
   LaneTwo .unpE4 (fun a b r => Widen .e4m3 8 2 a b r) ∧
   LaneTwo .unpE5 (fun a b r => Widen .e5m2 8 2 a b r) ∧
   LaneTwo .unpE3m2 (fun a b r => Widen .e3m2 8 2 a b r) ∧
   LaneTwo .unpE2m3 (fun a b r => Widen .e2m3 8 2 a b r) ∧
   LaneTwo .unpE2m1 (fun a b r => Widen .e2m1 4 3 a b r))

/-- The compares (R84): 1 where the relation holds, else 0; SEL, BALLOT, MATCH and LANEID (R85); the shuffles (R86): each
active lane takes the a of its source lane. -/
def Obligations.CompareAndSelectionResults : Prop :=
  (LaneTwo .icmpeq (fun a b r => r = if a = b then 1 else 0) ∧
   LaneTwo .icmplt (fun a b r => r = if a.toInt < b.toInt then 1 else 0) ∧
   LaneTwo .icmpltu (fun a b r => r = if a.toNat < b.toNat then 1 else 0) ∧
   LaneTwo .icmple (fun a b r => r = if a.toInt ≤ b.toInt then 1 else 0) ∧
   LaneTwo .fcmpeq (fun a b r => r = if (f32 a).eq (f32 b) = true then 1 else 0) ∧
   LaneTwo .fcmplt (fun a b r => r = if (f32 a).lt (f32 b) = true then 1 else 0) ∧
   LaneTwo .fcmple (fun a b r => r = if (f32 a).lt (f32 b) = true ∨ (f32 a).eq (f32 b) = true then 1 else 0) ∧
   LaneTwo .fcmpun (fun a b r => r = if (f32 a).isNaN = true ∨ (f32 b).isNaN = true then 1 else 0)) ∧
  (LaneThree .sel (fun a b d r => r = if d ≠ 0 then a else b) ∧
   (∀ n a d s, Clear (laneNeed n d [a] false) s →
     let u := cleared (laneNeed n d [a] false) s
     Answers (.ballot n a d) s fun t => ∃ r : Nat → Word, LaneEffect u t n d.toNat 4 r ∧
       ∀ l k, l < 32 → k < 32 → (r l).getLsbD k = (s.me.cur.em.getLsbD k && u.me.src a k != 0)) ∧
   (∀ n a d s, Clear (laneNeed n d [a] false) s →
     let u := cleared (laneNeed n d [a] false) s
     Answers (.matchLanes n a d) s fun t => ∃ r : Nat → Word, LaneEffect u t n d.toNat 4 r ∧
       ∀ l k, l < 32 → k < 32 → (r l).getLsbD k = (s.me.cur.em.getLsbD k && u.me.src a k == u.me.src a l)) ∧
   (∀ n d s, Clear (laneNeed n d [] false) s →
     Answers (.laneid n d) s fun t => LaneEffect (cleared (laneNeed n d [] false) s) t n d.toNat 4 fun l => BitVec.ofNat 32 l)) ∧
  (LaneShuffle .shfl (fun _ b => ((b.extractLsb' 0 5).toNat : Int)) ∧
   LaneShuffle .shflup (fun l b => (l : Int) - (b.extractLsb' 0 5).toNat) ∧
   LaneShuffle .shfldn (fun l b => (l : Int) + (b.extractLsb' 0 5).toNat) ∧
   LaneShuffle .shflx (fun l b => ((l ^^^ (b.extractLsb' 0 5).toNat : Nat) : Int)))

/-- Random numbers (R36, R87): the Philox block of the launch seed and the counter in the two register pairs; RNG4 writes
four registers and its latch result is the first word. Moves (R89), the immediate forms (R90, R91), and SRD (R60, R92). -/
def Obligations.RandomAndMoveResults : Prop :=
  (let Elem := fun (u : State) (a b : BitVec 7) (l : Nat) =>
     let n := u.me.readV (a.toNat + 1) l ++ u.me.readV a.toNat l
     (philox u.me.env.seed ⟨(n >>> 2).extractLsb' 0 32, (n >>> 2).extractLsb' 32 32, u.me.readV b.toNat l,
       u.me.readV (b.toNat + 1) l⟩).word (n.toNat % 4)
   (∀ n b a d s, Clear (rngNeed n b a d 1) s →
     let u := cleared (rngNeed n b a d 1) s
     Answers (.rngb n b a d) s fun t => LaneEffect u t n d.toNat 4 fun l => Elem u a b l) ∧
   (∀ n b a d s, Clear (rngNeed n b a d 1) s →
     let u := cleared (rngNeed n b a d 1) s
     Answers (.rngu n b a d) s fun t => LaneEffect u t n d.toNat 4 fun l =>
       toF32 (.num false (((Elem u a b l).toNat / 256 : Nat) * pow2 (-24)))) ∧
   (∀ n b a d s, Clear (rngNeed n b a d 4) s →
     let u := cleared (rngNeed n b a d 4) s
     let w := fun (i l : Nat) => (philox u.me.env.seed
       ⟨u.me.readV a.toNat l, u.me.readV (a.toNat + 1) l, u.me.readV b.toNat l, u.me.readV (b.toNat + 1) l⟩).word i
     (n = 0 → Answers (.rng4 n b a d) s fun t => SpanEffect u t d.toNat 4 w false) ∧
     (n = 1 → Answers (.rng4 n b a d) s fun t => LaneEffect u t 1 0 4 (w 0)))) ∧
  (LaneOne .mov (fun a r => r = a) ∧
   (∀ n a d s, Clear { laneNeed n d [] false with reg := badDest d || badG a, wide := gReg a.toNat } s →
     let u := cleared { laneNeed n d [] false with reg := badDest d || badG a, wide := gReg a.toNat } s
     Answers (.movg n a d) s fun t => LaneEffect u t n d.toNat 4 fun _ => (s.me.readG a.toNat).extractLsb' 0 32) ∧
   (∀ a d s, Clear (movvNeed a d) s →
     let u := cleared (movvNeed a d) s
     Answers (.movvg a d) s fun t => ∃ x, GroupEffect u t d.toNat x false ∧
       (s.me.cur.em = 0 → x = 0) ∧
       ∀ l, l < 32 → s.me.cur.em.getLsbD l = true → (∀ k, k < l → s.me.cur.em.getLsbD k = false) →
         x = u.me.readV (a.toNat + 1) l ++ u.me.readV a.toNat l) ∧
   (∀ l a d s, Clear (movvNeed a d) s →
     let u := cleared (movvNeed a d) s
     Answers (.movvgl l a d) s fun t => GroupEffect u t d.toNat
       (if s.me.cur.em.getLsbD l.toNat = true then u.me.readV (a.toNat + 1) l.toNat ++ u.me.readV a.toNat l.toNat else 0) false) ∧
   LaneImmediate .iaddi (fun a i r => r = a + i.signExtend 32) ∧
   LaneImmediate .andi (fun a i r => r = a &&& i.setWidth 32) ∧
   LaneImmediate .ori (fun a i r => r = a ||| i.signExtend 32) ∧
   LaneImmediate .xori (fun a i r => r = a ^^^ i.signExtend 32) ∧
   LaneImmediate .shli (fun a i r => r = a <<< i.toNat) ∧
   LaneImmediate .shri (fun a i r => r = a >>> i.toNat) ∧
   LaneImmediate .srai (fun a i r => r.toInt = a.toInt / 2 ^ i.toNat) ∧
   LaneImmediate .icmplti (fun a i r => r = if a.toInt < i.toInt then 1 else 0) ∧
   LaneImmediate .icmpeqi (fun a i r => r = if a = i.signExtend 32 then 1 else 0) ∧
   LaneImmediate .imuli (fun a i r => r = a * i.signExtend 32) ∧
   (∀ i d s, Clear (laneNeed 0 d [] false) s →
     Answers (.movi i d) s fun t => LaneEffect (cleared (laneNeed 0 d [] false) s) t 0 d.toNat 4 fun _ => i.signExtend 32) ∧
   (∀ i d s, Clear (laneNeed 0 d [] true) s →
     let u := cleared (laneNeed 0 d [] true) s
     Answers (.movh i d) s fun t =>
       LaneEffect u t 0 d.toNat 4 fun l => i ++ (u.me.readV d.toNat l).extractLsb' 0 16) ∧
   (∀ i d s, Clear { laneNeed 0 d [] false with field := !selectorOk i.toNat } s →
     let u := cleared { laneNeed 0 d [] false with field := !selectorOk i.toNat } s
     Answers (.srd i d) s fun t =>
       LaneEffect u t 0 d.toNat 4 fun l => if i = 0 then BitVec.ofNat 32 l else (u.special i.toNat).extractLsb' 0 32))

/-- The 16-bit forms (R41): D is the destination and the first source, and N = 1 sends the result to b0 alone. -/
def Obligations.HalfFormResults : Prop :=
  HalfTwo .iadd16 (fun d a r => r = d + a) ∧
  HalfTwo .isub16 (fun d a r => r = d - a) ∧
  HalfTwo .imul16 (fun d a r => r = d * a) ∧
  HalfTwo .and16 (fun d a r => r = d &&& a) ∧
  HalfTwo .or16 (fun d a r => r = d ||| a) ∧
  HalfTwo .xor16 (fun d a r => r = d ^^^ a) ∧
  HalfImmediate .shli16 (fun d i r => r = d <<< i.toNat) ∧
  HalfImmediate .shri16 (fun d i r => r = d >>> i.toNat) ∧
  HalfTwo .fadd16 (fun d a r => r = toF32 ((f32 d).add (f32 a))) ∧
  HalfTwo .fsub16 (fun d a r => r = toF32 ((f32 d).sub (f32 a))) ∧
  HalfTwo .fmul16 (fun d a r => r = toF32 ((f32 d).mul (f32 a))) ∧
  HalfTwo .fmax16 (fun d a r => r = toF32 ((f32 d).max (f32 a))) ∧
  HalfTwo .icmplt16 (fun d a r => r = if d.toInt < a.toInt then 1 else 0) ∧
  (∀ n a d s, Clear { halfNeed n d false [a] with field := n == 1 && d != 0 } s →
    let u := cleared { halfNeed n d false [a] with field := n == 1 && d != 0 } s
    Answers (.mov16 n a d) s fun t => LaneEffect u t n d.toNat 2 fun l => u.me.readV a.toNat l) ∧
  (∀ n i d s, Clear { halfNeed n d false [] with field := n == 1 && d != 0 } s →
    Answers (.movi5 n i d) s fun t =>
      LaneEffect (cleared { halfNeed n d false [] with field := n == 1 && d != 0 } s) t n d.toNat 2 fun _ => i.signExtend 32) ∧
  (∀ s, ∃ t, exec .nop s = .next t ∧ FlowEffect s t (s.me.cur.pc + 2) false)

/-! Group-wide instructions (R93 to R97). -/

/-- Group-wide arithmetic (R43, R93, R94): GADD to GSHI16 and GMOV, on cores, CSQ threads and supervisor threads alike. -/
def Obligations.GroupArithmeticResults : Prop :=
  GroupTwo .gadd (fun a b x => x = a + b) ∧
  GroupTwo .gsub (fun a b x => x = a - b) ∧
  GroupTwo .gmul (fun a b x => x.toNat = a.toNat * b.toNat % 2 ^ 64) ∧
  (∀ b a d s, Clear (gNeed .all [d, a, b]) s → Answers (.gmad b a d) s fun t => GroupEffect s t d.toNat
    (s.me.readG a.toNat * s.me.readG b.toNat + s.me.readG d.toNat) false) ∧
  GroupTwo .gand (fun a b x => x = a &&& b) ∧
  GroupTwo .gor (fun a b x => x = a ||| b) ∧
  GroupTwo .gxor (fun a b x => x = a ^^^ b) ∧
  GroupTwo .gandn (fun a b x => x = a &&& ~~~b) ∧
  GroupTwo .gshl (fun a b x => x.toNat = if 64 ≤ b.toNat then 0 else a.toNat * 2 ^ b.toNat % 2 ^ 64) ∧
  GroupTwo .gshr (fun a b x => x.toNat = if 64 ≤ b.toNat then 0 else a.toNat / 2 ^ b.toNat) ∧
  GroupTwo .gsra (fun a b x => x.toInt = a.toInt / 2 ^ min b.toNat 63) ∧
  GroupTwo .gmin (fun a b x => x.toInt = min a.toInt b.toInt) ∧
  GroupTwo .gmax (fun a b x => x.toInt = max a.toInt b.toInt) ∧
  GroupTwo .gcmpeq (fun a b x => x = if a = b then 1 else 0) ∧
  GroupTwo .gcmplt (fun a b x => x = if a.toInt < b.toInt then 1 else 0) ∧
  GroupTwo .gcmpltu (fun a b x => x = if a.toNat < b.toNat then 1 else 0) ∧
  (∀ i a d s, Clear (gNeed .all [d, a]) s →
    Answers (.gaddi i a d) s fun t => GroupEffect s t d.toNat (s.me.readG a.toNat + i.signExtend 64) false) ∧
  (∀ i d s, Clear (gNeed .all [d]) s → Answers (.gmovi i d) s fun t => GroupEffect s t d.toNat (i.signExtend 64) false) ∧
  (∀ i d s, Clear (gNeed .all [d]) s →
    Answers (.gshi16 i d) s fun t => GroupEffect s t d.toNat ((s.me.readG d.toNat <<< 16) ||| i.setWidth 64) false) ∧
  (∀ a d s, Clear (gNeed .all [d, a]) s →
    Answers (.gmov a d) s fun t => GroupEffect s t d.toNat (s.me.readG a.toNat) false)

/-- Special registers (R60, R94, R95): what GSRD reads by selector, in and out of deterministic mode, and GSWR, which writes
the scratch registers alone; RETIRED counts the instructions of its own chain before it (log entry 87), the value of CYCLE is the model's count of passing cycles (log entry 4), and DTIME does not
fall below what the group has read (R15; log entry 57). XLT (R97): it never faults on a translation outcome; a page that is
not readable gives a register that covers nothing; a walk may set the accessed bit and fill the die's TLB (R312, R313); a
miss that waits for a walk slot holds the group (R311). What selectors 17 to 19 and the scratch registers are on a CSQ
thread and in a group of several sub-groups is the model's choice (log entry 62), and so is the space that the register
keeps beside FRAME (log entry 55). -/
def Obligations.SpecialRegisterResults : Prop :=
  ((∀ b d s, Clear { gNeed .all [d] with field := !selectorOk b.toNat } s →
     Answers (.gsrd b d) s fun t => ∃ x, GroupEffect s t d.toNat x false ∧
       (b = 0 → x = 0) ∧
       (b = 1 → x = BitVec.ofNat 64 s.me.index) ∧
       (b = 2 → x = BitVec.ofNat 64 s.me.unit.index) ∧
       (b = 3 → x = s.me.unit.launch.setWidth 64) ∧
       (b = 4 → x = BitVec.ofNat 64 s.me.env.shown.core) ∧
       (b = 5 → x = BitVec.ofNat 64 s.me.env.shown.cluster) ∧
       (b = 6 → x = BitVec.ofNat 64 s.me.env.shown.die) ∧
       (b = 7 → x = BitVec.ofNat 64 s.me.env.nGroups) ∧
       (b = 8 → x = BitVec.ofNat 64 s.me.env.nUnits) ∧
       (b = 9 → x = if s.me.env.det = true then s.me.retired + BitVec.ofNat 64 s.me.cur.pos else s.me.cycle) ∧
       (b = 10 → x = s.me.retired + BitVec.ofNat 64 s.me.cur.pos) ∧
       (b = 11 → x = if s.me.env.det = true then s.me.env.tstart
         else if (s.die s.me.place.die).time.toNat < s.me.timeFloor.toNat then s.me.timeFloor else (s.die s.me.place.die).time) ∧
       (b = 12 → x = s.me.env.seed) ∧
       (b = 13 → x = BitVec.ofNat 64 s.me.quota) ∧
       (b = 14 → x = s.me.env.wver.setWidth 64) ∧
       (b = 15 → x = s.me.env.ticket.setWidth 64) ∧
       (b = 16 → s.me.env.det = true → x = BitVec.ofNat 64 (4 - s.me.splits.length)) ∧
       (b = 17 → x = BitVec.ofNat 64 (16 - s.me.cur.stack.length)) ∧
       (b = 18 → x = BitVec.ofNat 64 s.me.env.bcores) ∧
       (b = 19 → x = BitVec.ofNat 64 s.me.bcore) ∧
       (b = 20 → x = BitVec.ofNat 64 s.me.env.cls) ∧
       (b = 21 → ∀ i, i < 64 → x.getLsbD i =
         ((decide (i = 0) && s.me.env.det) || (decide (i = 1) && s.me.env.coop) || (decide (i = 2) && s.me.env.redeem))) ∧
       (∀ k, k < 4 → b.toNat = 32 + k → x = s.me.readScratch k)) ∧
   (∀ b a s, Clear { gNeed .all [a] with field := decide (b.toNat < 32) || decide (35 < b.toNat) } s →
     Answers (.gswr b a) s fun t =>
       AgentOnly s t ∧ t.me.cur.em = s.me.cur.em ∧ t.me.cur.pc = s.me.cur.pc + 4 ∧ SameV s t ∧ SameG s t ∧ SameXt s t ∧
       (∀ k, t.me.readScratch k = if k = b.toNat - 32 then s.me.readG a.toNat else s.me.readScratch k) ∧
       ChainGoes s t false none) ∧
   (∀ b a s, s.me.gath = [] → b.toNat < 32 ∨ 35 < b.toNat → Traps (.gswr b a) s .illegalField)) ∧
  (∀ b a d s, Clear { gNeed .all [a, b] with
      reg := badG a || badG b || decide (7 < d.toNat),
      wide := gReg a.toNat ++ gReg b.toNat ++ [xtReg d.toNat] } s →
     let va := (s.me.readG a.toNat).extractLsb' 0 56
     let n := (s.me.readG b.toNat).toNat
     let w := s.myByte va false false
     let Gives := fun (leaf : DWord) (level : Nat) (p : Xt → Prop) => Answers (.xlt b a d) s fun t => ∃ x, XtEffect w.1 t d.toNat x ∧
       x.vbase = va ∧ x.limit = BitVec.ofNat 32 (min (min n (pageSize level - va.toNat % pageSize level)) (2 ^ 31)) ∧
       x.perm = leaf.extractLsb' 3 2 ∧ x.level = level ∧ p x
     (n = 0 → Answers (.xlt b a d) s fun t => XtEffect s t d.toNat ⟨va, 0, .device, 0, 0, 0⟩) ∧
     (n ≠ 0 → w.2 = .waits → exec (.xlt b a d) s = .next w.1.holdGroup) ∧
     (n ≠ 0 → ∀ k leaf level, w.2 = .frame k leaf level →
       Gives leaf level fun x => bitsOf leaf 8 3 = 0 → x.frame = BitVec.ofNat 52 k ∧ x.space = .device) ∧
     (n ≠ 0 → ∀ node pasid leaf level, w.2 = .peer node pasid leaf level → Gives leaf level fun x => x.space = .peer node pasid) ∧
     (n ≠ 0 → w.2 ≠ .waits → (∀ k leaf level, w.2 ≠ .frame k leaf level) → (∀ node pasid leaf level, w.2 ≠ .peer node pasid leaf level) →
       Answers (.xlt b a d) s fun t => XtEffect w.1 t d.toNat ⟨va, 0, .device, 0, 0, 0⟩) ∧
     (∀ x : State, x.holdGroup.me.cur.holds = true ∧
       ∀ m : Agent, (∃ c ∈ m.others, c.holds = true) → m.canIssue = false))

/-! Control flow (R98 to R108). -/

/-- Branches, calls and returns (R40, R45, R98): the target is the branch's own address plus twice the displacement, a taken
branch ends its chain, one that is not taken goes on, and an odd target of RET or JMPG traps with no effect. -/
def Obligations.BranchResults : Prop :=
  (∀ x s, Answers (.bra x) s fun t => FlowEffect s t (s.me.cur.pc + x.signExtend 32 * 2) true) ∧
  (∀ x p s, Clear (gNeed .all [p]) s → Answers (.brg x p) s fun t =>
    if s.me.readG p.toNat ≠ 0 then FlowEffect s t (s.me.cur.pc + x.signExtend 32 * 2) true
    else FlowEffect s t (s.me.cur.pc + 4) false) ∧
  (∀ x p s, Clear (gNeed .all [p]) s → Answers (.brzg x p) s fun t =>
    if s.me.readG p.toNat = 0 then FlowEffect s t (s.me.cur.pc + x.signExtend 32 * 2) true
    else FlowEffect s t (s.me.cur.pc + 4) false) ∧
  (∀ x s, Clear { Need.of .all with wide := gReg 62 } s → Answers (.call x) s fun t =>
    AgentOnly s t ∧ t.me.cur.em = s.me.cur.em ∧ t.me.cur.pc = s.me.cur.pc + x.signExtend 32 * 2 ∧
    (∀ k, t.me.readG k = if k = 62 then (s.me.cur.pc + 4).setWidth 64 else s.me.readG k) ∧
    SameV s t ∧ SameXt s t ∧ SameScratch s t ∧ ChainGoes s t true none) ∧
  (∀ s, Clear { Need.of .all with wide := gReg 62 } s → if (s.me.readG 62).getLsbD 0 = true then Traps .ret s .pcAlign
    else Answers .ret s fun t => FlowEffect s t ((s.me.readG 62).extractLsb' 0 32) true) ∧
  (∀ a s, Clear (gNeed .all [a]) s →
    if (s.me.readG a.toNat).getLsbD 0 = true then Traps (.jmpg a) s .pcAlign
    else Answers (.jmpg a) s fun t => FlowEffect s t ((s.me.readG a.toNat).extractLsb' 0 32) true)

/-- MSKIP (R103): the mask path. -/
def Obligations.MaskSkipResults : Prop :=
  ∀ x p s, Clear (gNeed .core [p]) s →
    let m := (s.me.readG p.toNat).extractLsb' 0 32 &&& s.me.cur.ls
    Answers (.mskip x p) s fun t =>
      if m = 0 then FlowEffect s t (s.me.cur.pc + x.signExtend 32 * 2) true
      else FlowEffect (withEm s m) t (s.me.cur.pc + 4) true

/-- EMRD and EMWR (R104), YIELD and BKPT (R106), and TRAP (R107): BKPT with the debug enable that the context had at the
unit's admission (R283), and TRAP, trap and let their chain take effect; a unit's agent then stands until its record is
delivered, and a supervisor thread enters its handler (R279); that bit 0 of STVEC counts as 0 there is the model's reading
(DEDUCED, log entry 35). -/
def Obligations.MaskAndTrapResults : Prop :=
  ((∀ d s, Clear (gNeed .core [d]) s →
     Answers (.emrd d) s fun t => GroupEffect s t d.toNat (s.me.cur.ls ++ s.me.cur.em) false) ∧
   (∀ a s, Clear (gNeed .core [a]) s → Answers (.emwr a) s fun t =>
     FlowEffect (withEm s ((s.me.readG a.toNat).extractLsb' 0 32 &&& s.me.cur.ls)) t (s.me.cur.pc + 4) false) ∧
   (∀ s, s.me.kind = .core → Answers .yield s fun t => FlowEffect s t (s.me.cur.pc + 4) true) ∧
   (∀ s, s.me.kind = .core → s.me.env.debug = false →
     Answers .bkpt s fun t => FlowEffect s t (s.me.cur.pc + 4) true)) ∧
  (let After := fun (i : Instr) (s : State) (c : Cause) (detail : DWord) =>
     Answers i s fun t => ∃ u, FlowEffect s u (s.me.cur.pc + 4) true ∧
       (s.me.kind ≠ .sup → ∃ p : Pending, t = { u with me := { u.me with run := .faulted }, pending := s.pending ++ [p] } ∧
         p.cause = c ∧ p.kind = .postEffect ∧ p.detail = detail ∧ p.headPc = s.me.cur.pc + 4 ∧ p.pc = s.me.cur.pc ∧
         p.who = some s.me.who ∧ p.ctx = s.me.ctx ∧ p.time = (s.die s.me.place.die).time) ∧
       (s.me.kind = .sup → t = { u with me := { u.me with
         sepc := (s.me.cur.pc + 4).setWidth 64, scause := BitVec.ofNat 64 c.code ||| (detail <<< 8),
         cur := { u.me.cur with pc := evenPc s.me.stvec, headPc := evenPc s.me.stvec } } })
   (∀ s, s.me.kind = .core → s.me.env.debug = true → After .bkpt s .breakpoint 0) ∧
   (∀ n a s, Clear (gNeed .all [a]) s → After (.trap n a) s (.software n) (s.me.readG a.toNat)))

/-- BRV (R101), every outcome of the lane branch: the serial stack and the split entry record the dormant lanes. FUSE
(R102): a serial stack's two phases, a sub-group with no parent, and two siblings that meet, miss each other or wait; a
sibling that has ended is fused over, and one that has split further is waited for. Where the split entry is itself a child,
the fused sub-group stands parked at this FUSE and meets the rule again with its own sibling. -/
def Obligations.DivergenceResults : Prop :=
  (∀ x p s, Clear { Need.of .core with reads := srcReg p, latches := srcLatch p, wide := srcWide p } s →
     let u := cleared { Need.of .core with reads := srcReg p, latches := srcLatch p, wide := srcWide p } s
     let g := u.me.cur
     let target := g.pc + x.signExtend 32 * 2
     ∃ T F : Word,
       (∀ l, l < 32 → T.getLsbD l = (g.em.getLsbD l && u.me.src p l != 0)) ∧
       (∀ l, l < 32 → F.getLsbD l = (g.em.getLsbD l && u.me.src p l == 0)) ∧
       (F = 0 → Answers (.brv x p) s fun t => FlowEffect u t target true) ∧
       (F ≠ 0 → T = 0 → Answers (.brv x p) s fun t => FlowEffect u t (g.pc + 4) true) ∧
       (F ≠ 0 → T ≠ 0 → g.stack = [] → 0 < u.splitFree →
         let a := u.me.retire none (g.pc + 4) true
         exec (.brv x p) s = .next { u with me := { a with
           cur := Sub.head (a.nextId + 1) T T target (some a.nextId) [],
           others := Sub.head (a.nextId + 2) F F (g.pc + 4) (some a.nextId) [] :: a.others,
           splits := ⟨a.nextId, g.parent, g.ls &&& ~~~g.em, 0⟩ :: a.splits, nextId := a.nextId + 3 } }) ∧
       (F ≠ 0 → T ≠ 0 → ¬(g.stack = [] ∧ 0 < u.splitFree) → g.stack.length < 16 →
         exec (.brv x p) s = .next { u with me := { u.me.retire none (g.pc + 4) true with
           cur := Sub.head g.id T T target g.parent (⟨F, g.pc + 4, g.ls &&& ~~~g.em, false, 0, 0, 0⟩ :: g.stack) } }) ∧
       (F ≠ 0 → T ≠ 0 → 16 ≤ g.stack.length → exec (.brv x p) s = .next (takeTrap u .splitDepth))) ∧
  (∀ s, s.me.kind = .core →
     let a := s.me.retire none s.me.cur.pc true
     let g := s.me.cur
     let Next := fun (b : Agent) => exec .fuse s = .next { s with me := b }
     (∀ e r, g.stack = e :: r → e.phase = false →
       let e' := { e with ls := g.ls, em := g.em, fusePc := g.pc, phase := true }
       Next { a with cur := Sub.head g.id e.f e.f e.pc g.parent (e' :: r) }) ∧
     (∀ e r, g.stack = e :: r → e.phase = true →
       Next { a with cur := Sub.head g.id (e.ls ||| g.ls ||| e.dormant) (e.em ||| g.em) (g.pc + 4) g.parent r }) ∧
     (g.stack = [] → g.parent = none → Next { a with cur := Sub.head g.id g.ls g.em (g.pc + 4) none [] }) ∧
     (∀ x h, g.stack = [] → g.parent = some x.id → x.parent = none → s.me.splits = [x] → s.me.others = [h] →
         h.parent = some x.id → h.stack = [] → h.id ≠ g.id →
       (h.parked = true → h.pc = g.pc →
         Next { a with cur := Sub.head g.id (g.ls ||| h.ls ||| x.dormant) (g.em ||| h.em) (g.pc + 4) none [],
                       others := [], splits := [] }) ∧
       (h.parked = true → h.pc ≠ g.pc →
         Next { a with cur := Sub.head g.id g.ls g.em (g.pc + 4) (some x.id) [],
                       others := [Sub.head h.id h.ls h.em (h.pc + 4) (some x.id) []] }) ∧
       (h.parked = false → Next { a with cur := { a.cur with parked := true } })) ∧
     (∀ x, g.stack = [] → g.parent = some x.id → x.parent = none → s.me.splits = [x] → s.me.others = [] → 0 < x.ended →
       Next { a with cur := Sub.head g.id (g.ls ||| x.dormant) g.em (g.pc + 4) none [], splits := [] }) ∧
     (∀ x, g.stack = [] → g.parent = some x.id → (s.me.splits.find? fun y => y.id == x.id) = some x → x.ended = 0 →
         (∀ h ∈ s.me.others, h.parent ≠ some x.id ∧ h.parked = false ∧ h.id ≠ g.id) →
       Next { a with cur := { a.cur with parked := true } }) ∧
     (∀ x y h k, g.stack = [] → g.parent = some x.id → x.parent = some y.id → y.parent = none → x.id ≠ y.id →
         s.me.splits = [x, y] → s.me.others = [h, k] → h.parent = some x.id → k.parent = some y.id → h.stack = [] →
         k.stack = [] → h.id ≠ g.id → k.id ≠ g.id → k.id ≠ h.id → h.parked = true → h.pc = g.pc →
       let ls := g.ls ||| h.ls ||| x.dormant
       let em := g.em ||| h.em
       (k.parked = true → k.pc = g.pc →
         Next { a with cur := Sub.head g.id (ls ||| k.ls ||| y.dormant) (em ||| k.em) (g.pc + 4) none [],
                       others := [], splits := [] }) ∧
       (k.parked = true → k.pc ≠ g.pc →
         Next { a with cur := Sub.head g.id ls em (g.pc + 4) (some y.id) [],
                       others := [Sub.head k.id k.ls k.em (k.pc + 4) (some y.id) []], splits := [y] }) ∧
       (k.parked = false →
         Next { a with cur := { Sub.head g.id ls em g.pc (some y.id) [] with parked := true },
                       others := [k], splits := [y] })) ∧
     (∀ x y k, g.stack = [] → g.parent = some x.id → x.parent = some y.id → y.parent = none → x.id ≠ y.id →
         s.me.splits = [x, y] → s.me.others = [k] → k.parent = some y.id → k.stack = [] → k.id ≠ g.id → 0 < x.ended →
         k.parked = true → k.pc = g.pc →
       Next { a with cur := Sub.head g.id (g.ls ||| x.dormant ||| k.ls ||| y.dormant) (g.em ||| k.em) (g.pc + 4) none [],
                     others := [], splits := [] }))

/-- EXIT (R105): the lanes of a serial phase end, and EXIT applies again where none is left; else the sub-group ends and
counts as an ended child of its split entry, over which a parked sibling fuses at once (R102). With both children ended the
entry counts for its own parent. The last sub-group's end is the group's. REGQ (R108): the four statuses, and what status 0
moves. -/
def Obligations.ExitAndQuotaResults : Prop :=
  (∀ s : State,
     let a := s.me.retire none (s.me.cur.pc + 4) true
     let g := s.me.cur
     (∀ e r, g.stack = e :: r → e.phase = false →
       let e' := { e with ls := 0, em := 0, phase := true }
       exec .exit s = .next { s with me := { a with cur := Sub.head g.id e.f e.f e.pc g.parent (e' :: r) } }) ∧
     (∀ e r, g.stack = e :: r → e.phase = true → e.em ≠ 0 →
       exec .exit s = .next { s with me := { a with
         cur := Sub.head g.id (e.ls ||| e.dormant) e.em (e.fusePc + 4) g.parent r } }) ∧
     (∀ e r, g.stack = e :: r → e.phase = true → e.em = 0 →
       ∀ t, exec .exit { s with me := { s.me with cur := { g with stack := r } } } = .next t →
         (t.me.run ≠ .ended → exec .exit s = .next t) ∧
         (t.me.run = .ended → Answers .exit s fun u => u.me.run = .ended ∧ u.me.others = t.me.others)) ∧
     (g.stack = [] → g.parent = none → s.me.others = [] →
       exec .exit s = .next { s with me := { a with run := .ended } }) ∧
     (∀ x h, g.stack = [] → g.parent = some x.id → x.ended = 0 → x.parent = none → s.me.splits = [x] →
         s.me.others = [h] → h.parent = some x.id → h.stack = [] →
       (h.parked = false →
         exec .exit s = .next { s with me := { a with cur := h, others := [], splits := [{ x with ended := 1 }] } }) ∧
       (h.parked = true → exec .exit s = .next { s with me := { a with
         cur := Sub.head h.id (h.ls ||| x.dormant) h.em (h.pc + 4) none [], others := [], splits := [] } })) ∧
     (∀ x y k, g.stack = [] → g.parent = some x.id → x.ended = 1 → x.parent = some y.id → y.ended = 0 → y.parent = none →
         x.id ≠ y.id → s.me.splits = [x, y] → s.me.others = [k] → k.parent = some y.id → k.stack = [] →
       (k.parked = false →
         exec .exit s = .next { s with me := { a with cur := k, others := [], splits := [{ y with ended := 1 }] } }) ∧
       (k.parked = true → exec .exit s = .next { s with me := { a with
         cur := Sub.head k.id (k.ls ||| y.dormant) k.em (k.pc + 4) none [], others := [], splits := [] } }))) ∧
  (∀ b a d s, Clear (gNeed .core [d, a, b]) s →
     let t := (s.me.readG a.toNat).toNat
     let n := (s.me.readG b.toNat).toNat
     (n = 0 ∨ n % 8 ≠ 0 → Answers (.regq b a d) s fun u => GroupEffect s u d.toNat 1 true) ∧
     (¬(n = 0 ∨ n % 8 ≠ 0) → t = s.me.index ∨ s.agents.find? (s.donee t) = none →
       Answers (.regq b a d) s fun u => GroupEffect s u d.toNat 2 true) ∧
     (∀ x, ¬(n = 0 ∨ n % 8 ≠ 0) → t ≠ s.me.index → s.agents.find? (s.donee t) = some x →
       (s.me.quota < n + 8 ∨ 120 < x.quota + n → Answers (.regq b a d) s fun u => GroupEffect s u d.toNat 3 true) ∧
       (n + 8 ≤ s.me.quota → x.quota + n ≤ 120 → Answers (.regq b a d) s fun u =>
         ∃ v, GroupEffect s v d.toNat 0 true ∧
           u = { v with me := { v.me with quota := s.me.quota - n },
                        agents := s.agents.map fun y =>
                          if s.donee t y then { y with v := zeroRegs y.v y.quota n, quota := y.quota + n } else y })))

/-! Memory instructions (R134 to R145, R280). -/

/-- Loads (R134, R135, R144): v[D] and, above 4 bytes, the registers after it take the little-endian value at each active
lane's address, zero-extended; the lowest failing lane traps. Memory is unchanged. LDAQ also ends its chain, and a `.sys` release that
follows covers the writes to monitored lines that the releases it synchronises with covered (R169, R289; log entry 56). A
load of a group reads the newest byte that its own queue holds, else memory (R135). -/
def Obligations.LaneLoadResults : Prop :=
  (let Loads := fun (i : BitVec 5 → BitVec 7 → BitVec 7 → Instr) (w k : Nat) (acq : Option (BitVec 3)) (need : BitVec 7 → BitVec 7 → Need) =>
     ∀ f a d s, Clear (need a d) s →
       let u := cleared (need a d) s
       let fault := fun ea bs => u.loadFault u.me ea bs
       (∀ acc, LanesPass u w (f.toNat * w) a fault acc → Answers (i f a d) s fun t =>
         SpanEffect (u.acquired acq ((activeLanes u).map fun l => (acc l).bytes)) t d.toNat k
           (fun j l => BitVec.ofNat 32 (u.loadValue u.me (acc l).bytes / 2 ^ (32 * j))) acq.isSome) ∧
       (∀ e, LaneFails u w (f.toNat * w) a fault e → exec (i f a d) s = .next (laneTrap u e))
   Loads .ld8 1 1 none (loadNeed 1) ∧ Loads .ld16 2 1 none (loadNeed 2) ∧ Loads .ld32 4 1 none (loadNeed 4) ∧
   Loads .ld64 8 2 none (loadNeed 8) ∧ Loads .ld128 16 4 none (loadNeed 16) ∧
   ∀ c : BitVec 3, Loads (.ldaq c) 4 1 (some c) fun a d => { loadNeed 4 a d with scope := c == 7 }) ∧
  (∀ (s : State) (a : Agent) (e : StoreEntry) (pre post : List (Nat × Byte)) (k : Nat),
     (∀ x, e.cells = pre ++ (k, x) :: post → (∀ c ∈ post, c.1 ≠ k) →
       s.loadByte { a with storeQ := a.storeQ ++ [e] } (.loc k) = x) ∧
     ((∀ c ∈ e.cells, c.1 ≠ k) → s.loadByte { a with storeQ := a.storeQ ++ [e] } (.loc k) = s.loadByte a (.loc k)) ∧
     (a.storeQ = [] → s.loadByte a (.loc k) = s.readByte a.unit k))

/-- Stores (R134, R135, R144, R170): one entry of the store queue takes every active lane's bytes at its address, in lane
order; a full queue of 16 holds the group back; the lowest failing lane traps. Memory itself is unchanged until the entry
performs. STRL's entry, or that of a store after a fence, is a release. What is stored (R135): the low bytes of any lane
source up to 4 bytes, else v[D] and the registers after it, little-endian; bytes of a generator window are dropped (R133).
STORE_PERFORM (R135, R181): the oldest entry leaves the queue; of an agent whose unit has no snapshot and whose launch keeps
none, its bytes go to memory, but for those that a bulk queue in service lets have no effect (R202), and every other byte
stays; a deterministic unit's bytes of HBM and scratchpads go to its snapshot, and memory's stay. A release at `.sys` waits
for the writes to peers (R361), and a store of a deterministic block for its cycle (R336). -/
def Obligations.LaneStoreResults : Prop :=
  (let Stores := fun (i : BitVec 5 → BitVec 7 → BitVec 7 → Instr) (w : Nat) (rel : Option (BitVec 3)) (need : BitVec 7 → BitVec 7 → Need) =>
     ∀ f a d s, Clear (need a d) s →
       let u := cleared (need a d) s
       let fault := fun ea bs => u.storeFault u.me ea bs
       (16 ≤ u.me.storeQ.length → exec (i f a d) s = .next u) ∧
       (u.me.storeQ.length < 16 → ∀ acc, LanesPass u w (f.toNat * w) a fault acc →
         let cells := (activeLanes u).flatMap fun l => placeBytes (acc l).bytes (u.me.storeBytes w d l)
         let r := widerScope rel u.me.relNext
         let due := u.storeDue w ((activeLanes u).map fun l => (acc l).ea)
         let m : Agent := { u.me with storeQ := u.me.storeQ ++ [⟨cells, r.getD 0, r.isSome, due⟩], relNext := none }
         exec (i f a d) s = .next { u with me := m.retire none (u.me.cur.pc + 4) true }) ∧
       (u.me.storeQ.length < 16 → ∀ e, LaneFails u w (f.toNat * w) a fault e → exec (i f a d) s = .next (laneTrap u e))
   Stores .st8 1 none (storeNeed 1) ∧ Stores .st16 2 none (storeNeed 2) ∧ Stores .st32 4 none (storeNeed 4) ∧
   Stores .st64 8 none (storeNeed 8) ∧ Stores .st128 16 none (storeNeed 16) ∧
   ∀ c : BitVec 3, Stores (.strl c) 4 (some c) fun a d => { storeNeed 4 a d with scope := c == 7 }) ∧
  ((∀ (a : Agent) (d : BitVec 7) (l i w : Nat), (w = 1 ∨ w = 2 ∨ w = 4) → i < w →
     (a.storeBytes w d l)[i]? = some ((a.src d l).extractLsb' (8 * i) 8)) ∧
   (∀ (a : Agent) (d : BitVec 7) (l i w : Nat), (w = 8 ∨ w = 16) → i < w →
     (a.storeBytes w d l)[i]? = some ((a.readV (d.toNat + i / 4) l).extractLsb' (8 * (i % 4)) 8)) ∧
   (∀ (bs : List OdaByte) (xs : List Byte) (k : Nat) (x : Byte), (k, x) ∈ placeBytes bs xs ↔
     ∃ i : Nat, bs[i]? = some (OdaByte.loc k) ∧ xs[i]? = some x)) ∧
  (∀ (w : Who) (s : State) (a : Agent) (e : StoreEntry) (r : List StoreEntry), s.agent w = some a → a.storeQ = e :: r →
     (e.rel = true → e.scope = 6 → s.peerWrites a.who = false) →
     (∀ r, s.rotationOf a = some r → e.due ≤ r.cycle) →
     Answers (.storePerform w) s fun t =>
       (t.agent w).map (fun b => b.storeQ) = some r ∧
       (s.snapOf a.unit = none → (∀ l, s.launch a.unit.ctx a.unit.launch = some l → l.replay = none ∧ l.replayable = false) →
         t.mem = Memory.writeAll s.mem (s.programCells a e.cells) ∧
         ((∀ x ∈ s.units, s.inService x = false) → t.mem = Memory.writeAll s.mem e.cells) ∧
         ∀ k, (∀ c ∈ e.cells, c.1 ≠ k) → Memory.read t.mem k = Memory.read s.mem k) ∧
       (∀ sn, s.snapOf a.unit = some sn →
         ∀ k, k < 2 ^ 52 → Memory.read t.mem k = Memory.read s.mem k))

/-- LDNB and STVA (R137 to R140): deterministic mode and undisciplined time trap; LDNB waits for its time, and STVA puts its
lanes' writes in the core's timed-store table, which 32 entries fill. Each performs once die time has reached its T and not
before, the timed stores of a die in the order of R175: a timed store's bytes go to memory (no snapshot and no replayable
launch), an LDNB's lanes take the words read, of generator windows as they stood at its issue (R128), and an operation no
later than T plus the grace reports nothing. Poisoned data makes the LDNB fault (R338). That an LDNB makes the unperformed
timed copies of an earlier T late is log entry 58, and what EM = 0 means for either log entry 60 (DESIGN CHOICE both). -/
def Obligations.TimedAccessResults : Prop :=
  ((∀ f a d s, Clear { loadNeed 4 a d with wide := srcWide a ++ gReg f.toNat } s →
     let u := cleared { loadNeed 4 a d with wide := srcWide a ++ gReg f.toNat } s
     let fault := fun ea bs => u.loadFault u.me ea bs
     (u.me.env.det = true → exec (.ldnb f a d) s = .next (takeTrap u .timedInDet)) ∧
     (u.me.env.det = false → (u.die u.me.place.die).disciplined = false →
       exec (.ldnb f a d) s = .next (takeTrap u .timeUndisciplined)) ∧
     (u.me.env.det = false → (u.die u.me.place.die).disciplined = true → ∀ acc, LanesPass u 4 0 a fault acc →
       exec (.ldnb f a d) s = .next { u with me := u.me.setWait (.ldnb d.toNat ((activeLanes u).map fun l => (l, (acc l).ea))
         (u.me.readG f.toNat) (u.context u.me.ctx).windows (u.devReg (0x858 + u.me.place.die))) })) ∧
   (∀ f a d s, Clear { storeNeed 4 a d with wide := srcWide a ++ srcWide d ++ gReg f.toNat } s →
     let u := cleared { storeNeed 4 a d with wide := srcWide a ++ srcWide d ++ gReg f.toNat } s
     let p := u.me.place
     let k := u.core p.die p.cluster p.core
     let fault := fun ea bs => u.storeFault u.me ea bs
     (u.me.env.det = true → exec (.stva f a d) s = .next (takeTrap u .timedInDet)) ∧
     (u.me.env.det = false → (u.die p.die).disciplined = false → exec (.stva f a d) s = .next (takeTrap u .timeUndisciplined)) ∧
     (u.me.env.det = false → (u.die p.die).disciplined = true → 32 ≤ k.timed.length → exec (.stva f a d) s = .next u) ∧
     (u.me.env.det = false → (u.die p.die).disciplined = true → k.timed.length < 32 → ∀ acc, LanesPass u 4 0 a fault acc →
       let cells := (activeLanes u).flatMap fun l => placeBytes (acc l).bytes (u.me.storeBytes 4 d l)
       Answers (.stva f a d) s fun t => ∃ e : TimedStore, e.cells = cells ∧ e.time = u.me.readG f.toNat ∧ e.who = u.me.who ∧
         e.unit = u.me.unit ∧ FlowEffect (u.setCore p.die p.cluster p.core { k with timed := k.timed ++ [e] }) t (u.me.cur.pc + 4) true))) ∧
  ((∀ (core : CoreId) (i : Nat) (s : State) (e : TimedStore), (s.core core.die core.cluster core.core).timed[i]? = some e →
     e.time.toNat ≤ (s.die core.die).time.toNat →
     (s.die core.die).time.toNat ≤ e.time.toNat + bitsOf (s.ctxReg e.unit.ctx 0x003) 0 32 →
     (let own := (e.time.toNat, (core.die * 4 + core.cluster) * 128 + core.core, i)
      (∀ x ∈ s.storesDue core.die, timedBefore x own = false) ∧ s.tieBefore e own = false) →
     Answers (.timedStorePerform core i) s fun t =>
       (t.core core.die core.cluster core.core).timed = (s.core core.die core.cluster core.core).timed.eraseIdx i ∧
       (s.snapOf e.unit = none → (∀ l, s.launch e.unit.ctx e.unit.launch = some l → l.replay = none ∧ l.replayable = false) →
         t.mem = Memory.writeAll s.mem (s.programCells s.me e.cells) ∧
         ((∀ x ∈ s.units, s.inService x = false) → t.mem = Memory.writeAll s.mem e.cells) ∧ t.pending = s.pending ∧ t.cr = s.cr)) ∧
   (∀ (core : CoreId) (i : Nat) (s : State) (e : TimedStore), (s.core core.die core.cluster core.core).timed[i]? = some e →
     (s.die core.die).time.toNat < e.time.toNat → exec (.timedStorePerform core i) s = .refused .notDue) ∧
   (∀ (w : Who) (s : State) (a : Agent) (d : Nat) (lanes : List (Nat × Nat)) (T : DWord) (ws : Store (BitVec 256)) (thr : DWord),
     s.agent w = some a → a.wait = .ldnb d lanes T ws thr → T.toNat ≤ (s.die a.place.die).time.toNat →
     ((∀ x ∈ lanes, (s.ldnbLane a ws x.2).2 = false) →
       (s.die a.place.die).time.toNat ≤ T.toNat + bitsOf (s.ctxReg a.ctx 0x003) 0 32 →
       ∃ r : Lanes, exec (.ldnbPerform w) s = .next ((s.missCopies (some a.place.die) T.toNat).setAgent
           (((a.setWait .none).writeV d a.cur.em r).retire (some r) (a.cur.pc + 4) true)) ∧
         ∀ l x, l < 32 → (lanes.find? fun y => y.1 == l) = some x → ∀ bs, s.checkOda a x.2 4 = .ok bs →
           a.cur.em.getLsbD l = true → r.at l = BitVec.ofNat 32 (leNat (bs.map (s.loadByteUnder a ws)))) ∧
     (∀ x ∈ lanes, (s.ldnbLane a ws x.2).2 = true → Answers (.ldnbPerform w) s fun t =>
       t.pending.length = s.pending.length + 1 ∧
       t.pending.getLast?.map (fun p => (p.cause, p.kind, p.who)) = some (.uncorrectable, .precise, some a.who)) ∧
     ((s.die a.place.die).time.toNat < T.toNat → a.others = [] → exec (.ldnbPerform w) s = .refused .notDue)))

/-- Atomics (R141, R142, R171): the group's store queue drains first, and while a store may not perform the group stays;
then the active lanes' words are read and rewritten in ascending lane order, v[D] and b0 take the old words, and the chain
ends. With no active lane nothing is read, written or drained (R136). An atomic to a generator window traps GEN_STORE
(R133). In a deterministic block the atomic is queued at its issue and reaches its words in the cycle of its latency, whereupon
v[D] takes the old words (R136, R336, R337). One lane of an atomic (R33, R142): the old word is the little-endian word at the address, the new word is Table 4's,
and no byte of memory but those four changes, for a unit with no snapshot and no replayable launch, no bulk queue being in
service (R202). -/
def Obligations.AtomicResults : Prop :=
  (let Atomic := fun (i : BitVec 3 → BitVec 5 → BitVec 7 → BitVec 7 → Instr) (op : AtomicOp) =>
     ∀ c f a d s, s.me.kind = .core → Clear (atomicNeed op c f a d) s →
       let u := cleared (atomicNeed op c f a d) s
       let fault := fun ea bs => u.atomicFault u.me op ea bs
       (u.me.cur.em = 0 → Answers (i c f a d) s fun t => SpanEffect u t d.toNat 1 (fun _ _ => 0) true) ∧
       (u.me.cur.em ≠ 0 → ∀ acc, LanesPass u 4 0 a fault acc →
         let work := u.me.atomicWork f.toNat ((activeLanes u).map fun l => (l, acc l))
         let v := u.drain
         let p := v.performAtomic v.me op c work
         (v.me.storeQ = [] → v.rotationOf v.me = none → Answers (i c f a d) s fun t => SpanEffect p.1 t d.toNat 1
           (fun _ l => BitVec.ofNat 32 (((p.2.find? fun x => x.1 == l).map (·.2)).getD 0)) true) ∧
         (∀ r, v.me.storeQ = [] → v.rotationOf v.me = some r →
           exec (i c f a d) s = .next (v.queueAtomic r op c d.toNat ((activeLanes u).map fun l => (acc l).ea) work)) ∧
         (v.me.storeQ ≠ [] → exec (i c f a d) s = .next v)) ∧
       (∀ e, LaneFails u 4 0 a fault e → exec (i c f a d) s = .next (laneTrap u e))
   Atomic .atadd .add ∧ Atomic .atmax .max ∧ Atomic .atxch .xch ∧ Atomic .atcas .cas ∧ Atomic .ator .or ∧
   Atomic .atand .and ∧ Atomic .atfadd .fadd ∧ Atomic .atmin .min) ∧
  ((∀ o b c : Word, AtomicOp.new .add o b c = o + b ∧ (AtomicOp.new .max o b c).toInt = max o.toInt b.toInt ∧
     AtomicOp.new .xch o b c = b ∧ AtomicOp.new .cas o b c = (if o = b then c else o) ∧ AtomicOp.new .or o b c = o ||| b ∧
     AtomicOp.new .and o b c = o &&& b ∧ AtomicOp.new .fadd o b c = toF32 ((f32 o).add (f32 b)) ∧
     (AtomicOp.new .min o b c).toInt = min o.toInt b.toInt) ∧
   (∀ (s : State) (m : Agent) (op : AtomicOp) (k : Nat) (b c : Word), m.env.det = false → s.snapOf m.unit = none →
     (∀ l, s.launch m.unit.ctx m.unit.launch = some l → l.replay = none ∧ l.replayable = false) →
     (∀ x ∈ s.units, s.inService x = false) →
     let o := BitVec.ofNat 32 (leNat ((List.range 4).map fun i => Memory.read s.mem (k + i)))
     (s.atomicWord m op k b c).2 = o ∧
     (∀ i, i < 4 → Memory.read (s.atomicWord m op k b c).1.mem (k + i) = (op.new o b c).extractLsb' (8 * i) 8) ∧
     ∀ j, j < k ∨ k + 4 ≤ j → Memory.read (s.atomicWord m op k b c).1.mem j = Memory.read s.mem j)) ∧
  (∀ (s : State) (m : Agent) (p : PendingAtomic) (r : List PendingAtomic), s.agent m.who = some m → m.atomics = p :: r →
     let w := s.performAtomic m p.op p.scope p.lanes
     ∃ b, (s.performPending m).agent m.who = some b ∧ b.atomics = r ∧ (s.performPending m).mem = w.1.mem ∧
       ∀ l, l < 32 → (Store.get Lanes.zero b.v p.reg).at l =
         if p.mask.getLsbD l = true then BitVec.ofNat 32 (((w.2.find? fun x => x.1 == l).map (·.2)).getD 0)
         else (Store.get Lanes.zero m.v p.reg).at l)

/-- Fences (R143, R170): at `.lane`, and FENCE of kind acq, nothing is awaited; else the group's queued stores have
performed, and FENCE makes its next store a release at its scope, or at a wider one that another fence has asked for.
FENCE.E, and a fence at `.sys`, wait for engine commands and for writes to peers, and each for stores and atomics that may not
perform yet: the agent then stays at the fence, and no sub-group of it issues meanwhile. Timed stores are not waited for (log
entry 76). What a `.sys` release then covers is log entry 56. -/
def Obligations.FenceResults : Prop :=
  (∀ c f s, Clear { Need.of .coreSup with field := !(f == 1 || f == 2 || f == 3), scope := c == 7 } s →
    let x := if c = 0 ∨ f = 2 then s else s.fenceAcquire s.me c
    let v := x.drain
    (c = 0 ∨ f = 1 → Answers (.fence c f) s fun t => FlowEffect x t (s.me.cur.pc + 4) true) ∧
    (¬(c = 0 ∨ f = 1) → v.me.storeQ = [] → v.me.atomics = [] → ¬(c = 6 ∧ v.peerWrites v.me.who = true) →
      Answers (.fence c f) s fun t =>
        let u := if c = 6 then v.releaseSys v.me.holder else v
        FlowEffect { u with me := { u.me with relNext := widerScope u.me.relNext (some c) } } t (u.me.cur.pc + 4) true) ∧
    (¬(c = 0 ∨ f = 1) → v.me.storeQ ≠ [] ∨ v.me.atomics ≠ [] ∨ (c = 6 ∧ v.peerWrites v.me.who = true) →
      exec (.fence c f) s = .next v.holdGroup)) ∧
  (∀ c f s, Clear { Need.of .coreSup with field := !(f == 2 || f == 3), scope := c == 7 } s →
    (c = 0 → Answers (.fenceE c f) s fun t => FlowEffect s t (s.me.cur.pc + 4) true) ∧
    let v := s.drain
    (c ≠ 0 → v.me.storeQ = [] → v.me.atomics = [] → v.hasCommands = false → ¬(c = 6 ∧ v.peerWrites v.me.who = true) →
      Answers (.fenceE c f) s fun t =>
        let p := v.passHold (fun h => match h with | .command w _ => w == v.me.who | _ => false) v.me.holder
        let u := if c = 6 then p.releaseSys p.me.holder else p
        FlowEffect u t (u.me.cur.pc + 4) true) ∧
    (c ≠ 0 → v.me.storeQ ≠ [] ∨ v.me.atomics ≠ [] ∨ v.hasCommands = true ∨ (c = 6 ∧ v.peerWrites v.me.who = true) →
      exec (.fenceE c f) s = .next v.holdGroup)) ∧
  (∀ x y : BitVec 3, widerScope none (some y) = some y ∧ widerScope (some x) none = some x ∧
    widerScope (some x) (some y) = if x.toNat < y.toNat then some y else some x)

/-- Group-wide loads and stores of a unit's agent (R145): 64 bits at (g[A] + B5 × 8)[31:0]. -/
def Obligations.GroupAccessResults : Prop :=
  let Load := fun (i : BitVec 5 → BitVec 7 → BitVec 7 → Instr) (acq : Option (BitVec 3)) (need : BitVec 7 → BitVec 7 → Need) =>
    ∀ f a d s, s.me.kind ≠ .sup → Clear (need a d) s →
      let ea := ((s.me.readG a.toNat).extractLsb' 0 32 + BitVec.ofNat 32 (f.toNat * 8)).toNat
      (∀ x, s.laneAccess s.me 8 (fun ea bs => s.loadFault s.me ea bs) 0 ea = .ok x →
        Answers (i f a d) s fun t =>
          GroupEffect (s.acquired acq [x.bytes]) t d.toNat (BitVec.ofNat 64 (s.loadValue s.me x.bytes)) acq.isSome) ∧
      (∀ e, s.laneAccess s.me 8 (fun ea bs => s.loadFault s.me ea bs) 0 ea = .error e →
        exec (i f a d) s = .next (addrTrap s e.cause ea))
  let Store := fun (i : BitVec 5 → BitVec 7 → BitVec 7 → Instr) (rel : Option (BitVec 3)) (need : BitVec 7 → BitVec 7 → Need) =>
    ∀ f a d s, s.me.kind ≠ .sup → Clear (need a d) s →
      let ea := ((s.me.readG a.toNat).extractLsb' 0 32 + BitVec.ofNat 32 (f.toNat * 8)).toNat
      let r := widerScope rel s.me.relNext
      (16 ≤ s.me.storeQ.length → exec (i f a d) s = .next s) ∧
      (∀ x, s.me.storeQ.length < 16 → s.laneAccess s.me 8 (fun ea bs => s.storeFault s.me ea bs) 0 ea = .ok x →
        let q : StoreEntry := ⟨placeBytes x.bytes (leBytes 8 (s.me.readG d.toNat).toNat), r.getD 0, r.isSome,
          s.storeDue 8 [ea]⟩
        let m : Agent := { s.me with storeQ := s.me.storeQ ++ [q], relNext := none }
        exec (i f a d) s = .next { s with me := m.retire none (s.me.cur.pc + 4) true }) ∧
      (∀ e, s.me.storeQ.length < 16 → s.laneAccess s.me 8 (fun ea bs => s.storeFault s.me ea bs) 0 ea = .error e →
        exec (i f a d) s = .next (addrTrap s e.cause ea))
  Load .gld none (fun a d => gNeed .all [a, d]) ∧ Store .gst none (fun a d => gNeed .all [a, d]) ∧
  ∀ c : BitVec 3, Load (.gldaq c) (some c) (fun a d => { gNeed .all [a, d] with scope := c == 7 }) ∧
    Store (.gstrl c) (some c) (fun a d => { gNeed .all [a, d] with scope := c == 7 })

/-- A supervisor thread's loads and stores (R278, R280, R310), by virtual address: ALIGN comes first; an address that is not
translated traps with the cause of its outcome and the address in SCAUSE; a miss that waits for a walk slot holds the thread
(R311); a word of this package is read, or queued, and a word of a peer is asked for. Its atomics (R280): on 64 bits of
memory of this package, with g[D] taking the old word; the store queue drains first, as for the lane forms. -/
def Obligations.SupervisorAccessResults : Prop :=
  (let Load := fun (i : BitVec 5 → BitVec 7 → BitVec 7 → Instr) (acq : Option (BitVec 3)) (need : BitVec 7 → BitVec 7 → Need) =>
     ∀ f a d s, s.me.kind = .sup → Clear (need a d) s →
       let va := (s.me.readG a.toNat).extractLsb' 0 56 + BitVec.ofNat 56 (f.toNat * 8)
       let w := s.translate none (.agent s.me.who) s.me.place.die s.supAsid s.supRoot va false false
       (va.toNat % 8 = 0 → w.2 = .waits → exec (i f a d) s = .next w.1) ∧
       (va.toNat % 8 = 0 → ∀ node pasid leaf level, w.2 = .peer node pasid leaf level → w.1.routeFault node va = none →
         w.1.poison.contains (peerKey node pasid va / 16) = false →
         exec (i f a d) s = .next (w.1.askPeer 1 (peerKey node pasid va) 0 d (peerKey node pasid va % 16) acq.isSome)) ∧
       (va.toNat % 8 ≠ 0 → exec (i f a d) s = .next (supTrap s .align va)) ∧
       (va.toNat % 8 = 0 → ∀ c, outcomeTrap w.2 = some c → exec (i f a d) s = .next (supTrap w.1 c va)) ∧
       (va.toNat % 8 = 0 → ∀ k leaf level, w.2 = .frame k leaf level → isPeerKey k = false → w.1.poison.contains (k / 16) = false →
         let bs := (List.range 8).map fun i => OdaByte.loc (k + i)
         Answers (i f a d) s fun t => GroupEffect (w.1.acquired acq [bs]) t d.toNat
           (BitVec.ofNat 64 (w.1.loadValue w.1.me bs)) acq.isSome)
   let Store := fun (i : BitVec 5 → BitVec 7 → BitVec 7 → Instr) (rel : Option (BitVec 3)) (need : BitVec 7 → BitVec 7 → Need) =>
     ∀ f a d s, s.me.kind = .sup → Clear (need a d) s → s.me.storeQ.length < 16 →
       let va := (s.me.readG a.toNat).extractLsb' 0 56 + BitVec.ofNat 56 (f.toNat * 8)
       let w := s.translate none (.agent s.me.who) s.me.place.die s.supAsid s.supRoot va true false
       let r := widerScope rel s.me.relNext
       (va.toNat % 8 = 0 → w.2 = .waits → exec (i f a d) s = .next w.1) ∧
       (va.toNat % 8 ≠ 0 → exec (i f a d) s = .next (supTrap s .align va)) ∧
       (va.toNat % 8 = 0 → ∀ c, outcomeTrap w.2 = some c → exec (i f a d) s = .next (supTrap w.1 c va)) ∧
       (va.toNat % 8 = 0 → ∀ k leaf level, w.2 = .frame k leaf level →
         let q : StoreEntry := ⟨cellsAt k (leBytes 8 (s.me.readG d.toNat).toNat), r.getD 0, r.isSome, 0⟩
         let m : Agent := { s.me with storeQ := s.me.storeQ ++ [q], relNext := none }
         exec (i f a d) s = .next { w.1 with me := m.retire none (s.me.cur.pc + 4) true })
   Load .gld none (fun a d => gNeed .all [a, d]) ∧ Store .gst none (fun a d => gNeed .all [a, d]) ∧
   ∀ c : BitVec 3, Load (.gldaq c) (some c) (fun a d => { gNeed .all [a, d] with scope := c == 7 }) ∧
     Store (.gstrl c) (some c) (fun a d => { gNeed .all [a, d] with scope := c == 7 })) ∧
  (let Atomic := fun (i : BitVec 3 → BitVec 5 → BitVec 7 → BitVec 7 → Instr) (op : AtomicOp) (f : DWord → DWord → DWord → DWord → Prop) =>
     ∀ (c : BitVec 3) (b : BitVec 5) (a d : BitVec 7) (s : State), s.me.kind = .sup →
       Clear { gNeed .coreSup [a, d] with scope := c == 7, reg := badG a || badG d || (op == .cas && b == 31) } s →
       let va := (s.me.readG a.toNat).extractLsb' 0 56
       let w := s.translate none (.agent s.me.who) s.me.place.die s.supAsid s.supRoot va true true
       (va.toNat % 8 ≠ 0 → exec (i c b a d) s = .next (supTrap s .align va)) ∧
       (va.toNat % 8 = 0 → ∀ k leaf level, w.2 = .frame k leaf level → isPeerKey k = false → w.1.poison.contains (k / 16) = false →
         let u := w.1.drain
         u.me.storeQ = [] → ¬(c = 6 ∧ u.peerWrites u.me.who = true) →
         let o := BitVec.ofNat 64 (u.readLE u.me.unit k 8)
         ∃ n, f o (u.me.readG b.toNat) (u.me.readG (b.toNat + 1)) n ∧ Answers (i c b a d) s fun t =>
           GroupEffect (u.atomicOrder u.me c ((List.range 8).map fun i => k + i) fun x =>
             x.writeCells x.me.unit (cellsAt k (leBytes 8 n.toNat))) t d.toNat o true)
   Atomic .atadd .add (fun o b _ n => n = o + b) ∧ Atomic .atmax .max (fun o b _ n => n.toInt = max o.toInt b.toInt) ∧
   Atomic .atxch .xch (fun _ b _ n => n = b) ∧ Atomic .atcas .cas (fun o b c n => n = if o = b then c else o) ∧
   Atomic .ator .or (fun o b _ n => n = o ||| b) ∧ Atomic .atand .and (fun o b _ n => n = o &&& b) ∧
   Atomic .atmin .min (fun o b _ n => n.toInt = min o.toInt b.toInt))

/-! Tensor records and barriers (R119 to R125, R146 to R152). -/

/-- TDEF, TQRY, TFREE and TSCL (R120, R146): a selector below 4096 names a tensor id, 2^16 + w a window of 16; any other
traps TENSOR_ID. TDEF takes the record at g[A] if no condition of Table 2 fails, else it traps with the lowest; TQRY reads a
word; TFREE empties the entry; TSCL sets SCALE and GRAN alone. -/
def Obligations.TensorTableResults : Prop :=
  (∀ (s : State) (ctx i j : Nat) (r : BitVec 512), ((s.setTensor ctx i r).context ctx).tensor j =
    if j = i then (if r = 0 then none else some r) else (s.context ctx).tensor j) ∧
  (∀ b a s, Clear (gNeed .core [a, b]) s →
    let ea := bitsOf (s.me.readG a.toNat) 0 32
    let sel := s.me.readG b.toNat
    (∀ id, sel = BitVec.ofNat 64 id → id < 4096 →
      (∀ bs, s.image ea 64 = .ok bs → recordCheck (BitVec.ofNat 512 (leNat bs)) = none →
        Answers (.tdef b a) s fun t =>
          FlowEffect (s.setTensor s.me.ctx id (BitVec.ofNat 512 (leNat bs))) t (s.me.cur.pc + 4) true) ∧
      (∀ bs n, s.image ea 64 = .ok bs → recordCheck (BitVec.ofNat 512 (leNat bs)) = some n →
        exec (.tdef b a) s = .next (subTrap s .tensorRecord n)) ∧
      (∀ c, s.image ea 64 = .error c → exec (.tdef b a) s = .next (addrTrap s c ea))) ∧
    (∀ w, sel = BitVec.ofNat 64 (2 ^ 16 + w) → w < 16 → ∀ bs, s.image ea 32 = .ok bs →
      (windowOk (BitVec.ofNat 256 (leNat bs)) = true → Answers (.tdef b a) s fun t =>
        FlowEffect (s.setWindow s.me.ctx w (BitVec.ofNat 256 (leNat bs))) t (s.me.cur.pc + 4) true) ∧
      (windowOk (BitVec.ofNat 256 (leNat bs)) = false → exec (.tdef b a) s = .next (subTrap s .tensorRecord 14))) ∧
    ((4096 ≤ sel.toNat → ¬(2 ^ 16 ≤ sel.toNat ∧ sel.toNat < 2 ^ 16 + 16) → Traps (.tdef b a) s .tensorId))) ∧
  (∀ b a d s, Clear (gNeed .core [d, a, b]) s →
    let sel := s.me.readG a.toNat
    let w := (s.me.readG b.toNat).toNat
    (∀ id, sel = BitVec.ofNat 64 id → id < 4096 →
      (∀ r, s.queryTensor id = some r → Answers (.tqry b a d) s fun t =>
        GroupEffect s t d.toNat (BitVec.ofNat 64 (r.toNat / 2 ^ (64 * (w % 8)))) true) ∧
      (s.queryTensor id = none → Answers (.tqry b a d) s fun t =>
        GroupEffect s t d.toNat (if w % 8 = 0 then 0xC000_0000_0000_0000 else 0) true)) ∧
    (∀ k, sel = BitVec.ofNat 64 (2 ^ 16 + k) → k < 16 → Answers (.tqry b a d) s fun t =>
      GroupEffect s t d.toNat (BitVec.ofNat 64 (((s.context s.me.ctx).window k).toNat / 2 ^ (64 * (w % 4)))) true) ∧
    (4096 ≤ sel.toNat → ¬(2 ^ 16 ≤ sel.toNat ∧ sel.toNat < 2 ^ 16 + 16) → Traps (.tqry b a d) s .tensorId)) ∧
  (∀ a s, Clear (gNeed .core [a]) s →
    let sel := s.me.readG a.toNat
    (∀ id, sel = BitVec.ofNat 64 id → id < 4096 → Answers (.tfree a) s fun t =>
      FlowEffect (s.setTensor s.me.ctx id 0) t (s.me.cur.pc + 4) true) ∧
    (∀ w, sel = BitVec.ofNat 64 (2 ^ 16 + w) → w < 16 → Answers (.tfree a) s fun t =>
      FlowEffect (s.setWindow s.me.ctx w 0) t (s.me.cur.pc + 4) true) ∧
    (4096 ≤ sel.toNat → ¬(2 ^ 16 ≤ sel.toNat ∧ sel.toNat < 2 ^ 16 + 16) → Traps (.tfree a) s .tensorId)) ∧
  (∀ b a s, Clear (gNeed .core [a, b]) s →
    let x := s.me.readG b.toNat
    (∀ id, s.me.readG a.toNat = BitVec.ofNat 64 id → id < 4096 →
      ((s.context s.me.ctx).tensor id = none → Traps (.tscl b a) s .tensorId) ∧
      ∀ r, (s.context s.me.ctx).tensor id = some r →
        (2 < trGran (setScale r x) ∨ (trGran (setScale r x) ≠ 0 ∧ (trRef (setScale r x) 0x30).isNone = true) →
          exec (.tscl b a) s = .next (subTrap s .tensorRecord 9)) ∧
        (x.toNat < 2 ^ 24 → x.extractLsb' 12 3 = 0 →
          ¬(2 < trGran (setScale r x) ∨ (trGran (setScale r x) ≠ 0 ∧ (trRef (setScale r x) 0x30).isNone = true)) →
          Answers (.tscl b a) s fun t =>
          FlowEffect (s.setTensor s.me.ctx id (setScale r x)) t (s.me.cur.pc + 4) true)) ∧
    (4096 ≤ (s.me.readG a.toNat).toNat → Traps (.tscl b a) s .tensorId)) ∧
  (∀ (r : BitVec 512) (x : DWord), (setScale r x).extractLsb' 0x180 24 = x.extractLsb' 0 24 ∧
    (setScale r x).extractLsb' 0 0x180 = r.extractLsb' 0 0x180 ∧ (setScale r x).extractLsb' 0x198 104 = r.extractLsb' 0x198 104)

/-- A barrier flips once its arrivals are made and its bytes are counted, and then begins its next phase (R150); the status
of a phase is kept for its waiters (R151, R152). A reference more or less is one more or less; the last one returns the
entry to its pool with its generation advanced (R149). A waiter takes the finished phase's status once the phase differs, or
bit 63 and the status so far once its deadline has come (equality is log entry 78, DESIGN CHOICE); a held arrival is made
once the stores before it have performed, and is lost with its barrier (log entry 77, DESIGN CHOICE). What an arrival hands on
and an observation takes up (log entry 56) touches neither memory nor barriers. -/
def Obligations.BarrierPhases : Prop :=
  ((∀ b : Barrier, b.live = true → b.pending = 0 → b.counted = b.expected →
     b.settle = { b with phase := !b.phase, last := statusWord b.cur, cur := 0, pending := b.ea, expected := b.eb, counted := 0 }) ∧
   (∀ (x : DWord) (i : Nat), (statusWord x).getLsbD i = (x.getLsbD i && !(decide (4 ≤ i) && decide (i < 8)))) ∧
   (∀ b : Barrier, ¬(b.live = true ∧ b.pending = 0 ∧ b.counted = b.expected) → b.settle = b) ∧
   (∀ b : Barrier, 1 < b.refs → b.release = { b with refs := b.refs - 1 }) ∧
   (∀ b : Barrier, b.refs ≤ 1 → b.release.live = false ∧ b.release.gen = (if 31 ≤ b.gen then 1 else b.gen + 1)) ∧
   (∀ (s : State) (k n j : Nat), (s.arrive k n).barrier j =
     if j = k then ({ s.barrier k with pending := (s.barrier k).pending - n } : Barrier).settle else s.barrier j) ∧
   (∀ x y : DWord, statusMerge x y = statusMerge y x) ∧
   (∀ (s : State) (k bytes arr : Nat) (st : DWord) (r : Reporter),
     (s.barrier k).counted + bytes ≤ (s.barrier k).expected → arr ≤ (s.barrier k).pending →
       (s.countInto k bytes arr st r).barrier k =
         ({ s.barrier k with counted := (s.barrier k).counted + bytes, pending := (s.barrier k).pending - arr,
                             cur := statusMerge (s.barrier k).cur st } : Barrier).settle.release ∧
       (s.countInto k bytes arr st r).pending = s.pending) ∧
   (∀ (s : State) (k bytes arr : Nat) (st : DWord) (r : Reporter),
     (s.barrier k).expected < (s.barrier k).counted + bytes →
       (s.countInto k bytes arr st r).pending.length = s.pending.length + 1 ∧
       (s.countInto k bytes arr st r).pending.getLast?.map (fun p => p.cause) = some .barrierOvercount)) ∧
  ((∀ (a : Agent) (d : Nat) (x : DWord), (a.wake d x).wait = .none ∧ (a.wake d x).cur.pc = a.cur.pc + 4 ∧
     (a.wake d x).cur.pos = 0 ∧ (a.wake d x).cur.em = a.cur.em ∧
     (∀ k, (a.wake d x).readG k = if k = d ∧ d ≠ 0 then x else a.readG k) ∧
     ∀ k l, l < 32 → (a.wake d x).readV k l = a.readV k l) ∧
   (∀ w s a d k p t, s.agent w = some a → a.wait = .bwait d k p t →
     ((s.barrier k).phase ≠ p → exec (.bwaitReturn w) s = .next ((s.takeFrom a k).setAgent (s.oweWide (a.wake d (s.barrier k).last) d 4))) ∧
     ((s.barrier k).phase = p → a.others = [] → exec (.bwaitReturn w) s = .refused .notDue)) ∧
   (∀ (s : State) (a : Agent) (d n : Nat), ((s.unit a.unit).bind fun u => u.rot) = none → s.oweWide a d n = a) ∧
   (∀ w s a d k p T, s.agent w = some a → a.wait = .bwait d k p (some T) →
     ((s.barrier k).phase = p → T.toNat ≤ (s.die a.place.die).time.toNat →
       exec (.bwaittTimeout w) s = .next (s.setAgent (a.wake d (0x8000_0000_0000_0000 ||| statusWord (s.barrier k).cur)))) ∧
     ((s.die a.place.die).time.toNat < T.toNat → a.others = [] → exec (.bwaittTimeout w) s = .refused .notDue)) ∧
   (∀ (w : Who) (s : State) (a : Agent) (h : HeldArrival) (r : List HeldArrival),
     s.agent w = some a → a.arrivals = h :: r → h.ahead = 0 → s.rotates a = false →
     let u := s.setAgent { a with arrivals := r }
     ((s.barrier h.bar).gen = h.gen → exec (.barvArrival w) s = .next ((u.handTo a h.bar).arrive h.bar h.count)) ∧
     ((s.barrier h.bar).gen ≠ h.gen → exec (.barvArrival w) s = .next u)) ∧
   (∀ (s : State) (a : Agent) (k : Nat), (s.handTo a k).mem = s.mem ∧ (s.takeFrom a k).mem = s.mem ∧
     (∀ j, (s.handTo a k).barrier j = s.barrier j ∧ (s.takeFrom a k).barrier j = s.barrier j)))

/-- The barrier instructions (R147 to R151): a dead handle traps; BALLOC refuses bad arguments, then a slot in use, then an
empty pool, else it binds the lowest free entry and gives its handle and id; BFREE empties a slot; BREF binds an entry by
its id, a dead id trapping before a taken slot answers (log entry 61, DESIGN CHOICE); BEXP raises the expected bytes; BARV
gives the phase and arrives behind the agent's stores, a deterministic block's at the end of its rotation cycle (log entry 19,
DEDUCED); BWAIT gives the finished phase's status or waits; BTEST reads the counts. -/
def Obligations.BarrierResults : Prop :=
  (∀ b a d s, Clear (gNeed .all [d, a, b]) s →
    let x := s.me.readG a.toNat
    let eb := (s.me.readG b.toNat).toNat
    let ea := (x.extractLsb' 16 16).toNat
    let bad := ea = 0 ∨ x.extractLsb' 7 9 ≠ 0 ∨ x.extractLsb' 32 32 ≠ 0 ∨ 2 ^ 40 ≤ eb
    (bad → Answers (.balloc b a d) s fun t => GroupEffect s t d.toNat 0x8000_0000_0000_0003 true) ∧
    (¬bad → s.ballocSlot x = none → Answers (.balloc b a d) s fun t => GroupEffect s t d.toNat 0x8000_0000_0000_0002 true) ∧
    (¬bad → ∀ slot, s.ballocSlot x = some slot →
      (s.freeEntry = none → Answers (.balloc b a d) s fun t => GroupEffect s t d.toNat 0x8000_0000_0000_0001 true) ∧
      ∀ i, s.freeEntry = some i →
        let k := barrierKey s.me.place.die s.me.place.cluster i
        let w := s.me.tableOwner
        let u := (s.setBarrier k ⟨true, false, ea, ea, eb, eb, 0, 0, 0, 1, (s.barrier k).gen⟩).setSlot w slot
          ⟨(s.slotOf w slot).gen, some k⟩
        Answers (.balloc b a d) s fun t => GroupEffect u t d.toNat
          (BitVec.ofNat 64 ((handleOf slot (s.slotOf w slot).gen).toNat + (i + (s.barrier k).gen * 2 ^ 10) * 2 ^ 32)) true)) ∧
  (∀ a s, Clear (gNeed .all [a]) s →
    let h := (s.me.readG a.toNat).extractLsb' 0 16
    (s.handle h = none → Traps (.bfree a) s .barrierHandle) ∧
    (∀ k, s.handle h = some k → Answers (.bfree a) s fun t =>
      let slot := (h.extractLsb' 0 11).toNat
      let w := s.me.tableOwner
      FlowEffect ((s.setSlot w slot ⟨nextGen (s.slotOf w slot).gen, none⟩).setBarrier k (s.barrier k).release) t
        (s.me.cur.pc + 4) true)) ∧
  (∀ b a d s, Clear (gNeed .all [d, a, b]) s →
    let id := s.me.readG a.toNat
    let k := barrierKey s.me.place.die s.me.place.cluster (id.extractLsb' 0 10).toNat
    let slot := ((s.me.readG b.toNat).extractLsb' 0 6).toNat
    let w := s.me.tableOwner
    let dead := (s.barrier k).live = false ∨ (s.barrier k).gen ≠ (id.extractLsb' 10 6).toNat
    (dead → Traps (.bref b a d) s .barrierHandle) ∧
    (¬dead → (s.slotOf w slot).bound.isSome = true →
      Answers (.bref b a d) s fun t => GroupEffect s t d.toNat 0x8000_0000_0000_0002 true) ∧
    (¬dead → (s.slotOf w slot).bound = none → Answers (.bref b a d) s fun t =>
      GroupEffect ((s.setBarrier k (s.barrier k).retain).setSlot w slot ⟨(s.slotOf w slot).gen, some k⟩) t d.toNat
        ((handleOf slot (s.slotOf w slot).gen).setWidth 64) true)) ∧
  (∀ b a s, Clear (gNeed .all [a, b]) s →
    let h := (s.me.readG a.toNat).extractLsb' 0 16
    let n := (s.me.readG b.toNat).toNat
    (s.handle h = none → Traps (.bexp b a) s .barrierHandle) ∧
    (∀ k, s.handle h = some k → 2 ^ 40 ≤ (s.barrier k).expected + n → exec (.bexp b a) s = .next (overcount s h)) ∧
    (∀ k, s.handle h = some k → (s.barrier k).expected + n < 2 ^ 40 → Answers (.bexp b a) s fun t =>
      let x : Barrier := { s.barrier k with expected := (s.barrier k).expected + n }
      FlowEffect (s.setBarrier k x.settle) t (s.me.cur.pc + 4) true)) ∧
  (∀ b a d s, Clear (gNeed .all [d, a, b]) s →
    let h := (s.me.readG a.toNat).extractLsb' 0 16
    let n := (s.me.readG b.toNat).toNat
    (s.handle h = none → Traps (.barv b a d) s .barrierHandle) ∧
    ∀ k, s.handle h = some k →
      let x := s.barrier k
      let many := n = 0 ∨ 2 ^ 16 ≤ n ∨ x.pending < n + s.heldArrivals k x.gen
      (many → exec (.barv b a d) s = .next (overcount s h)) ∧
      let ahead := s.me.storeQ.length + s.me.atomics.length
      (¬many → ahead = 0 → s.rotates s.me = false → Answers (.barv b a d) s fun t =>
        GroupEffect ((s.handTo s.me k).arrive k n) t d.toNat (if x.phase = true then 1 else 0) true) ∧
      (¬many → ahead ≠ 0 ∨ s.rotates s.me = true → Answers (.barv b a d) s fun t =>
        let m : Agent := { s.me with arrivals := s.me.arrivals ++ [⟨k, x.gen, n, ahead⟩] }
        GroupEffect { s with me := m } t d.toNat (if x.phase = true then 1 else 0) true)) ∧
  (∀ b a d s, Clear (gNeed .all [d, a, b]) s →
    let h := (s.me.readG a.toNat).extractLsb' 0 16
    let p := (s.me.readG b.toNat).getLsbD 0
    (s.handle h = none → Traps (.bwait b a d) s .barrierHandle) ∧
    ∀ k, s.handle h = some k →
      ((s.barrier k).phase ≠ p → Answers (.bwait b a d) s fun t =>
        GroupEffect (s.takeFrom s.me k) t d.toNat (s.barrier k).last true) ∧
      ((s.barrier k).phase = p →
        exec (.bwait b a d) s = .next { s with me := s.me.setWait (.bwait d.toNat k p none) })) ∧
  (∀ b a d s, Clear (gNeed .all [d, a, b]) s →
    let h := (s.me.readG a.toNat).extractLsb' 0 16
    let p := (s.me.readG b.toNat).getLsbD 63
    let T := (s.me.readG b.toNat).toNat % 2 ^ 63
    let now := (s.die s.me.place.die).time.toNat
    let ok := s.me.env.det = false ∧ (s.die s.me.place.die).disciplined = true
    (s.me.env.det = true → Traps (.bwaitt b a d) s .timedInDet) ∧
    (s.me.env.det = false → (s.die s.me.place.die).disciplined = false → Traps (.bwaitt b a d) s .timeUndisciplined) ∧
    (ok → s.handle h = none → Traps (.bwaitt b a d) s .barrierHandle) ∧
    (ok → ∀ k, s.handle h = some k →
      ((s.barrier k).phase ≠ p → Answers (.bwaitt b a d) s fun t =>
        GroupEffect (s.takeFrom s.me k) t d.toNat (s.barrier k).last true) ∧
      ((s.barrier k).phase = p → T ≤ now → Answers (.bwaitt b a d) s fun t =>
        GroupEffect s t d.toNat (0x8000_0000_0000_0000 ||| statusWord (s.barrier k).cur) true) ∧
      ((s.barrier k).phase = p → now < T → exec (.bwaitt b a d) s =
        .next { s with me := s.me.setWait (.bwait d.toNat k p (some (BitVec.ofNat 64 T))) }))) ∧
  (∀ a d s, Clear (gNeed .all [d, a]) s →
    let h := (s.me.readG a.toNat).extractLsb' 0 16
    (s.me.env.det = true → Traps (.btest a d) s .detViolation) ∧
    (s.me.env.det = false → s.handle h = none → Traps (.btest a d) s .barrierHandle) ∧
    (s.me.env.det = false → ∀ k, s.handle h = some k → Answers (.btest a d) s fun t =>
      let x := s.barrier k
      GroupEffect (s.takeFrom s.me k) t d.toNat (BitVec.ofNat 64 ((if x.phase = true then 1 else 0) + x.pending * 2 ^ 16
        + min (x.expected - x.counted) (2 ^ 32 - 1) * 2 ^ 32)) true))

/-! The copy engines and bulk queues (R153 to R161, R202). -/

/-- The references of engine commands (R118, R122, R147): handle 0 names no barrier; a dead handle, an empty tensor entry
and a tile beyond the extent are refused, each with its cause; a byte that has no location reads 0 and reports. What a
copied or combined element becomes (R26, R154): the code itself where the formats agree, else the exact value rounded to
nearest even, saturating for narrow formats; an add or a max is of the old element and the new, rounded once. -/
def Obligations.EngineReferences : Prop :=
  ((∀ s : State, s.cmdHandle 0 = .ok none) ∧
   (∀ (s : State) (h : Half) (b : Nat), h ≠ 0 → s.handle h = some b → s.cmdHandle h = .ok (some b)) ∧
   (∀ (s : State) (h : Half), h ≠ 0 → s.handle h = none → s.cmdHandle h = .error .barrierHandle) ∧
   (∀ (c : Context) (g : DWord), c.tensor (g.extractLsb' 0 12).toNat = none → c.tile g = .error .tensorId) ∧
   (∀ (c : Context) (g : DWord) (r : BitVec 512), c.tensor (g.extractLsb' 0 12).toNat = some r →
     let row := (g.extractLsb' 12 20).toNat
     let col := (g.extractLsb' 32 20).toNat
     let i2 := (g.extractLsb' 56 8).toNat
     let t := g.getLsbD 52
     (g.extractLsb' 53 3 ≠ 0 ∨ (t = true ∧ trTread r = false) → c.tile g = .error .tensorId) ∧
     (¬(g.extractLsb' 53 3 ≠ 0 ∨ (t = true ∧ trTread r = false)) →
       (trExt r 1 ≤ row * trRows r ∨ trExt r 0 ≤ col * trCols r ∨ trExt r 2 ≤ i2 → c.tile g = .error .tensorExtent) ∧
       (row * trRows r < trExt r 1 → col * trCols r < trExt r 0 → i2 < trExt r 2 → c.tile g = .ok ⟨r, row, col, i2, t⟩))) ∧
   (∀ (s : State) (e : Issuer) (addr : Nat) (c : Cause), s.odaByte e.agent addr = .error c →
     s.engineRead e 0 addr = (s, 0, errStatus c) ∧ s.engineDest e 0 addr = (s, none, errStatus c)) ∧
   (∀ (s : State) (e : Issuer) (addr k : Nat), s.odaByte e.agent addr = .ok (OdaByte.loc k) →
     (e.agent.kind = .core → s.detClusterFault e.agent addr = false) →
     s.engineDest e 0 addr = (s, some k, 0) ∧
     (s.replicaLocked e.die k = false → s.poison.contains (k / 16) = false →
       s.engineRead e 0 addr = (s, s.readByte e.agent.unit k, 0))) ∧
   (∀ (s : State) (e : Issuer) (addr w off : Nat), s.odaByte e.agent addr = .ok (OdaByte.window w off) →
     genDiscard (Store.get 0 e.windows w) = true → s.engineDest e 0 addr = (s, none, 0))) ∧
  ((∀ (f : Fmt) (c : Nat), copyCode f f c = c) ∧
   (∀ (f : Fmt) (c : Nat), f ≠ .fp32 → copyCode f .fp32 c = roundIeee .fp32 .ne (decodeNum f c)) ∧
   (∀ (f : Fmt) (c : Nat), f ≠ .bf16 → copyCode f .bf16 c = roundIeee .bf16 .ne (decodeNum f c)) ∧
   (∀ (f : Fmt) (c : Nat), f ≠ .fp16 → copyCode f .fp16 c = roundIeee .fp16 .ne (decodeNum f c)) ∧
   (∀ (f : Fmt) (c : Nat), f ≠ .e4m3 → copyCode f .e4m3 c = (convertNarrow .e4m3 .ne (decodeNum f c)).1) ∧
   (∀ x y : Nat, combineCode 1 .fp32 x y = roundIeee .fp32 .ne ((decodeNum .fp32 x).add (decodeNum .fp32 y)) ∧
     combineCode 2 .bf16 x y = roundIeee .bf16 .ne ((decodeNum .bf16 x).add (decodeNum .bf16 y)) ∧
     combineCode 3 .fp32 x y = roundIeee .fp32 .ne ((decodeNum .fp32 x).max (decodeNum .fp32 y))) ∧
   (∀ n : Nat, rowBytes .e2m1 n = (n + 1) / 2 ∧ rowBytes .e3m2 (4 * n) = 3 * n ∧ rowBytes .fp32 n = n * 4))

/-- CPY, CPYT, GATH and SCAT are accepted (R153 to R156): a command that fails a check traps; while the engines hold 256
commands the group waits; else the command joins its die's queue with its barrier referenced, and the instruction retires.
Where die time has reached 8, timed copies of a T that a read accepted now should see, and that have not performed, are from
then on late: how R176's report is made is log entry 58 (DESIGN CHOICE). CPYT traps in deterministic mode and without
disciplined time; its destination's die is log entry 84 (DESIGN CHOICE). GATH and SCAT reserve v[D]; a span that reaches a
block's shared backing traps with RANGE (R113; tested at acceptance alone: log entry 80, DEDUCED). -/
def Obligations.CopyAcceptResults : Prop :=
  (∀ b a d s, Clear (gNeed .core [d, a, b]) s →
    let p := s.me.place.die
    let h := (s.me.readG b.toNat).extractLsb' 0 16
    let x := s.copyCheck (s.me.readG b.toNat) (s.me.readG a.toNat) (s.me.readG d.toNat)
    (∀ e, x = .error e → exec (.cpy b a d) s = .next (subTrap s e.1 e.2)) ∧
    (∀ bar op src dst, x = .ok (bar, op, src, dst) →
      (256 ≤ (s.die p).copyHeld → exec (.cpy b a d) s = .next s) ∧
      ((s.die p).copyHeld < 256 → Answers (.cpy b a d) s fun t => ∃ c : CopyCmd,
        let m := s.missOnAccept p
        FlowEffect (({ m with nextSeq := s.nextSeq + 1 }.retainOpt bar).setDie p { m.die p with copyQ := (m.die p).copyQ ++ [c] }) t
          (s.me.cur.pc + 4) true ∧
        c.seq = s.nextSeq ∧ c.who = s.me.who ∧ c.unit = s.me.unit ∧ c.env = s.me.env ∧ c.work = .tile op src dst ∧ c.bar = bar ∧
        c.handle = h ∧ c.windows = (s.context s.me.ctx).windows ∧ c.time = none ∧ c.stage = 0 ∧ c.status = 0))) ∧
  (∀ (s : State) (die p i : Nat) (c : CopyCmd), ((s.die p).copyQ[i]? = some c ∨ (s.die p).heldT[i]? = some c) →
    let late := fun T : DWord => 8 ≤ (s.die die).time.toNat ∧ T.toNat ≤ (s.die die).time.toNat - 8
    ∃ c' : CopyCmd, (((s.missOnAccept die).die p).copyQ[i]? = some c' ∨ ((s.missOnAccept die).die p).heldT[i]? = some c') ∧
      (c'.missed = true ↔ c.missed = true ∨ ∃ T, c.time = some T ∧ late T) ∧ c' = { c with missed := c'.missed }) ∧
  (∀ (s : State) (die i : Nat) (c : Commit), s.commits[i]? = some c →
    ∃ c' : Commit, (s.missOnAccept die).commits[i]? = some c' ∧ c' = { c with missed := c'.missed } ∧
      (c'.missed = true ↔ c.missed = true ∨ (c.locked = false ∧ ∃ t, c.timed = some t ∧ 8 ≤ (s.die die).time.toNat ∧
        t.1.toNat ≤ (s.die die).time.toNat - 8))) ∧
  (∀ b a d s, Clear { gNeed .core [d, a, b] with
      reg := badG d || badG a || decide (62 < b.toNat),
      wide := [d.toNat, a.toNat, b.toNat, b.toNat + 1].flatMap gReg } s →
    let p := s.me.place.die
    let x := s.copyCheck (s.me.readG b.toNat) (s.me.readG a.toNat) (s.me.readG d.toNat)
    let ok := s.me.env.det = false ∧ (s.die p).disciplined = true
    (s.me.env.det = true → Traps (.cpyt b a d) s .timedInDet) ∧
    (s.me.env.det = false → (s.die p).disciplined = false → Traps (.cpyt b a d) s .timeUndisciplined) ∧
    (ok → ∀ e, x = .error e → exec (.cpyt b a d) s = .next (subTrap s e.1 e.2)) ∧
    (ok → ∀ bar op src dst, x = .ok (bar, op, src, dst) → (s.die p).copyHeld < 256 →
      Answers (.cpyt b a d) s fun t => ∃ c : CopyCmd,
        let m := s.missOnAccept p
        FlowEffect (({ m with nextSeq := s.nextSeq + 1 }.retainOpt bar).setDie p { m.die p with copyQ := (m.die p).copyQ ++ [c] }) t
          (s.me.cur.pc + 4) true ∧
        c.unit = s.me.unit ∧ c.work = .tile op src dst ∧ c.bar = bar ∧ c.time = some (s.me.readG (b.toNat + 1)) ∧
        c.dest = s.destDie p s.me.ctx dst ∧ c.missed = false ∧ c.throttle = (s.missOnAccept p).devReg (0x858 + c.dest))) ∧
  (let Rows := fun (i : BitVec 7 → BitVec 7 → BitVec 7 → Instr) (gather : Bool) =>
    ∀ b a d s, let n : Need := { units := .core, field := false, scope := false,
                                 reg := badDest d || decide (120 ≤ a.toNat) || badG b, reads := srcReg a, writes := srcReg d, latches := [],
                                 wide := gReg b.toNat ++ [xtReg ((s.me.readG b.toNat).extractLsb' 0 3).toNat] }
      Clear n s →
      let u := cleared n s
      let p := u.me.place
      let ctl := u.me.readG b.toNat
      let lbase := (ctl.extractLsb' 32 32).toNat
      let rowb := (ctl.extractLsb' 16 16).toNat
      let bad := ctl.extractLsb' 3 13 ≠ 0 ∨ lbase % 16 ≠ 0 ∨ rowb % 16 ≠ 0 ∨ rowb < 16 ∨ 4096 < rowb ∨
        0x80000 < lbase + 32 * rowb ∨ u.meetsSpill p lbase (32 * rowb) = true
      (bad → exec (i b a d) s = .next (takeTrap u .copyFault)) ∧
      (¬bad → u.meetsShared p lbase (32 * rowb) = true → exec (i b a d) s = .next (addrTrap u .range lbase)) ∧
      (¬bad → u.meetsShared p lbase (32 * rowb) = false → 256 ≤ (u.die p.die).copyHeld ∨ 8 ≤ u.me.gathOut →
        exec (i b a d) s = .next u) ∧
      (¬bad → u.meetsShared p lbase (32 * rowb) = false → (u.die p.die).copyHeld < 256 → u.me.gathOut < 8 → Answers (i b a d) s fun t => ∃ c : CopyCmd,
        let m : Agent := { u.me with gath := u.me.gath ++ [⟨d.toNat, false⟩] }
        let q : State := { u.missOnAccept p.die with me := m, nextSeq := u.nextSeq + 1 }
        FlowEffect (q.setDie p.die { q.die p.die with copyQ := (q.die p.die).copyQ ++ [c] }) t (u.me.cur.pc + 4) true ∧
        c.bar = none ∧ c.unit = u.me.unit ∧ ∃ offs : Lanes, (∀ l, l < 32 → offs.at l = u.me.readV a.toNat l) ∧
          c.work = .rows gather d.toNat u.me.cur.em offs lbase rowb (u.me.readXt (ctl.extractLsb' 0 3).toNat))
  Rows .gath true ∧ Rows .scat false)

/-- The steps in which copy commands perform (R154 to R156). A tile copy whose reads meet no lock (R179), none of whose
misses lacks a walk slot (R311) and whose record asks no peer reads its source and writes its destination in one step; a
CPYT's writes are held from its reads on, and perform when its destination's die time has reached T, not before, with LATE
where that is beyond the tolerance; a command waits for the peers it asked, and at a locked replica from the time at which
it first met it; rows move and their statuses arrive in the reserved register. The model's choices: that a node's command
whose block is bad ends its unit with no effect is log entry 27, and that a timed copy that a read has missed reports LATE
is log entry 58. -/
def Obligations.CopyPerformResults : Prop :=
  (∀ (die i : Nat) (s : State) (c : CopyCmd) (op : Nat) (src dst : TileRef), (s.die die).copyQ[i]? = some c →
    c.work = .tile op src dst →
    (s.answered die c.seq = false → exec (.copyCommandComplete die i) s = .refused .notDue) ∧
    (s.answered die c.seq = true → c.stage = 2 → exec (.copyCommandComplete die i) s = .next
      ((s.dropCopy die false i).complete c.completion (s.die die).time)) ∧
    (s.answered die c.seq = true → c.stage = 0 → s.peerKeysOf (c.issuer die) (trSpace src.record) (src.addrs dst.positions) = [] →
      (op ≠ 0 → s.peerKeysOf (c.issuer die) (trSpace dst.record) (dst.addrs dst.positions) = []) →
      let r := s.readCodes (c.issuer die) src dst.positions
      let w := r.1.writeTile (c.issuer die) op src dst r.2.1
      let goesOn' := metLock w.2.2 = false ∧ metWait w.2.2 = false
      let goesOn := metLock r.2.2 = false ∧ metWait r.2.2 = false
      (metWait r.2.2 = true → exec (.copyCommandComplete die i) s = .next (s.keepMisses r.1 die)) ∧
      (metWait r.2.2 = false → metLock r.2.2 = true →
        (c.stall.isSome = true → exec (.copyCommandComplete die i) s = .refused .notDue) ∧
        (c.stall = none → exec (.copyCommandComplete die i) s =
          .next (s.setCopy die false i { c with stall := some (s.die die).time }))) ∧
      (goesOn → c.time = none → metWait w.2.2 = true → exec (.copyCommandComplete die i) s = .next (r.1.keepMisses w.1 die)) ∧
      (goesOn → c.time = none → metWait w.2.2 = false → metLock w.2.2 = true →
        (c.stall.isSome = true → exec (.copyCommandComplete die i) s = .refused .notDue) ∧
        (c.stall = none → exec (.copyCommandComplete die i) s =
          .next (r.1.setCopy die false i { c with stall := some (r.1.die die).time }))) ∧
      (goesOn → c.time = none → goesOn' → trRepl dst.record = false → exec (.copyCommandComplete die i) s =
        .next (State.endCopy r.1 w.1 die false i
          { c with bytes := dst.byteCount, status := statusMerge c.status (statusMerge r.2.2 w.2.2) } false w.2.1)) ∧
      (goesOn → c.time = none → goesOn' → trRepl dst.record = true → c.env.det = false →
        (r.1.commitPending die w.2.1 = true → exec (.copyCommandComplete die i) s = .refused .notDue) ∧
        (r.1.commitPending die w.2.1 = false → w.1.snapOf c.unit = none → Answers (.copyCommandComplete die i) s fun t => ∃ k : Commit,
          let own := w.2.1.eraseDups.map fun k => (k - die * 2 ^ 37, w.1.readByte c.unit k)
          t.commits = (w.1.copyReplicas c.unit die own).commits ++ [k] ∧ k.seq = c.seq ∧ k.locked = false ∧ k.cells = own ∧
          t.mem = Memory.writeAll (w.1.copyReplicas c.unit die own).mem (w.2.1.map fun k => (k, Memory.read r.1.mem k)))) ∧
      (goesOn → c.time.isSome = true → Answers (.copyCommandComplete die i) s fun t =>
        (t.die die).heldT = (r.1.die die).heldT ++ [{ c with codes := r.2.1, status := statusMerge c.status r.2.2 }] ∧
        (t.die die).copyQ = (r.1.die die).copyQ.eraseIdx i ∧ t.mem = r.1.mem))) ∧
  (∀ (die i : Nat) (s : State) (c : CopyCmd) (raw : BitVec 256), (s.die die).copyQ[i]? = some c → c.work = .node raw →
    s.answered die c.seq = true → c.stage ≠ 2 → bulkOk raw true = false →
    exec (.copyCommandComplete die i) s = .next ((s.dropCopy die false i).endNode c.unit)) ∧
  (∀ (die i : Nat) (s : State) (c : CopyCmd) (op : Nat) (src dst : TileRef) (T : DWord), (s.die die).heldT[i]? = some c →
    c.work = .tile op src dst → c.time = some T →
    let late := s.isLate c.unit.ctx T (s.die c.dest).time
    let w := s.writeTile (c.issuer die) op src dst c.codes
    ((s.die c.dest).time.toNat < T.toNat → exec (.cpytWriteRelease die i) s = .refused .notDue) ∧
    (T.toNat ≤ (s.die c.dest).time.toNat → s.answered die c.seq = true → c.stage = 0 →
      (c.missed = true → late = false → exec (.cpytWriteRelease die i) s = .refused .notDue) ∧
      (c.missed = false ∨ late = true → trRepl dst.record = false → metWait w.2.2 = false → metLock w.2.2 = false →
        w.1.goesOut c.unit = false ∨ w.2.1.any isPeerKey = false →
        let t := State.endCopy s w.1 die true i
            { c with bytes := dst.byteCount,
                     status := statusMerge (if late = true then c.status ||| 8 else c.status) (statusMerge 0 w.2.2) } false w.2.1
        (t.die die).heldT.length < (s.die die).heldT.length → t.commits? c.seq = false →
        exec (.cpytWriteRelease die i) s = .next (t.reportLate c.unit c.dest T c.throttle 0)))) ∧
  (∀ (before s : State) (die : Nat) (held : Bool) (i : Nat) (c : CopyCmd) (ks : List Nat),
    s.goesOut c.unit = false ∨ ks.any isPeerKey = false →
    State.endCopy before s die held i c false ks =
      ((s.cleanUnits c.unit ks).dropCopy die held i).complete c.completion (s.die die).time) ∧
  (∀ (die i : Nat) (s : State) (c : CopyCmd) (gather : Bool) (d : Nat) (em : Word) (offs : Lanes) (lbase rowb : Nat) (xt : Xt),
    (s.die die).copyQ[i]? = some c → c.work = .rows gather d em offs lbase rowb xt → s.answered die c.seq = true → c.stage ≠ 2 →
    let lanes := allLanes.filter fun l => em.getLsbD l
    let e := c.issuer die
    s.rowPeers e offs rowb xt lanes = [] → c.codes = [] →
    let r := s.moveRows e gather offs lbase rowb xt lanes
    let any := BitVec.ofNat 64 (r.2.2.foldl (fun n x => n ||| x.2) 0)
    (metWait any = true → exec (.gathStatusArrive die i) s = .next (s.keepMisses r.1 die)) ∧
    (metLock any = false → metWait any = false → r.2.1.any isPeerKey = false → exec (.gathStatusArrive die i) s =
      .next ((r.1.cleanUnits c.unit r.2.1).endRows die i c d em (joinRows lanes r.2.2)))) ∧
  (∀ (s : State) (die i : Nat) (c : CopyCmd) (d : Nat) (em : Word) (sts : List (Nat × Nat)),
    (sts.any fun x => x.2 / 32 % 2 == 1) = false →
    s.endRows die i c d em sts = ((s.dropCopy die false i).forget c.seq).arriveRows c.who d em sts) ∧
  (∀ (s : State) (n : Nat), (s.forget n).mem = s.mem ∧ (s.forget n).agents = s.agents) ∧
  (∀ (s : State) (w : Who) (a : Agent) (d : Nat) (em : Word) (sts : List (Nat × Nat)), s.agent w = some a →
    ((s.arriveRows w d em sts).agent w).map (fun b => b.gath) =
      some (a.gath.map fun g => if g.reg = d then { g with arrived := true } else g) ∧
    (∀ l, l < 32 → ((s.arriveRows w d em sts).agent w).map (fun b => (Store.get Lanes.zero b.v d).at l) =
      some (if em.getLsbD l = true then BitVec.ofNat 32 (((sts.find? fun x => x.1 == l).elim 0 fun x => x.2) % 16)
            else (Store.get Lanes.zero a.v d).at l)) ∧
    (s.arriveRows w d em sts).mem = s.mem)

/-- Page requests (R157, R318): values out of range answer 3, and a handle that is not live counts as none (DESIGN CHOICE,
log entry 66). The bulk queue of a block (R158 to R161, R202): the first publication reads the control block, and a bad one
raises QUEUE_ENTRY; a publication takes every entry between CONS and PROD (at once: DEDUCED, log entry 14); the entry that starts is ready, and no other that
is ready has an earlier deadline; an entry completes in error, without its transfer, where its checks failed; a record is
written only while its ring has room. -/
def Obligations.PageAndBulkResults : Prop :=
  ((∀ b a d s, Clear (gNeed .core [d, a, b]) s →
     let ctl := s.me.readG b.toNat
     let len := (ctl.extractLsb' 0 32).toNat
     let va := ((s.me.readG a.toNat).extractLsb' 0 56).toNat
     let bar := s.handle (ctl.extractLsb' 32 16)
     let bad := len = 0 ∨ 2 ^ 30 < len ∨ ctl.extractLsb' 48 16 ≠ 0 ∨ 2 ^ 56 < va + len
     (bad → Answers (.pgreq b a d) s fun t => GroupEffect s t d.toNat 3 true) ∧
     (¬bad →
       let q := s.pageOutcomes s.me.unit (.agent s.me.who) s.me.place.die s.me.ctx ((va + len - 1) / 2 ^ 16 + 1 - va / 2 ^ 16) (va / 2 ^ 16)
       let waits := (q.2.any fun x => x.2 == .waits) = true
       (waits → exec (.pgreq b a d) s = .next (s.keepMisses q.1 s.me.place.die)) ∧
       (¬waits →
         (q.1.pgStatus q.2 = 3 ∨ q.1.pgStatus q.2 = 2 → Answers (.pgreq b a d) s fun t =>
           GroupEffect q.1 t d.toNat (BitVec.ofNat 64 (q.1.pgStatus q.2)) true) ∧
         (q.1.pgStatus q.2 = 1 → bar = none → Answers (.pgreq b a d) s fun t => GroupEffect q.1 t d.toNat 1 true) ∧
         (q.1.pgStatus q.2 = 1 → ∀ k, bar = some k → Answers (.pgreq b a d) s fun t =>
           GroupEffect ((q.1.setBarrier k (q.1.barrier k).retain).arriveOpt (some k) 0
             ⟨s.me.ctx, s.me.unit.launch, some s.me.unit.index, s.me.env.det, (ctl.extractLsb' 32 16).setWidth 64, s.now⟩)
             t d.toNat 1 true) ∧
         (q.1.pgStatus q.2 = 0 → ∀ va', (q.2.find? fun x => x.2 == .notPresent).map (fun x => x.1 * 2 ^ 16) = some va' →
           exec (.pgreq b a d) s = .next ((q.1.queuePage va' len bar).finishG d 0 true))))) ∧
   (∀ (s : State) (va len : Nat) (bar : Option Nat),
     let p := s.partOf s.me.ctx
     ((s.queuePage va len bar).part p).requests = (s.part p).requests ++ [⟨s.me.ctx, bar, (s.part p).pgTail.toNat % 256⟩] ∧
     ((s.queuePage va len bar).part p).pgTail = (s.part p).pgTail + 1) ∧
   (∀ (p i : Nat) (s : State) (r : PageRequest), (s.part p).requests[i]? = some r →
     let done := s.supRead (s.pgRing p + 64 + 32 * r.slot + 13) 1 = [1] ∨ (s.ctxReg r.ctx 0x000).getLsbD 0 = false
     (¬done → exec (.pageRequestComplete p i) s = .refused .notDue) ∧
     (done → Answers (.pageRequestComplete p i) s fun t => (t.part p).requests = (s.part p).requests.eraseIdx i ∧
       t.mem = s.mem ∧
       (∀ k, r.bar = some k → 1 ≤ (s.barrier k).pending → (s.barrier k).counted ≤ (s.barrier k).expected →
         t.barrier k = ({ s.barrier k with pending := (s.barrier k).pending - 1,
                                           cur := statusMerge (s.barrier k).cur 0 } : Barrier).settle.release)))) ∧
  ((∀ (u : UnitKey) (s : State) (x : WorkUnit) (b : BulkQueue), s.unit u = some x → x.bulk = some b →
     (b.published = false ∨ x.saved = true → exec (.bulkQueuePublish u) s = .refused .notDue) ∧
     (b.published = true → x.saved = false → b.serving = false →
       let q := s.readControl (s.bulkIssuer x) b.control
       let m := s.queuePoison x (s.bulkIssuer x) [(b.control, 32)]
       (m.controlOk (s.bulkIssuer x) q = false → Answers (.bulkQueuePublish u) s fun t =>
         t.pending.getLast?.map (fun p => p.cause) = some .queueEntry ∧ t.pending.length = m.pending.length + 1 ∧ t.mem = s.mem)) ∧
     (b.published = true → x.saved = false → b.serving = true →
       let e := s.bulkIssuer x
       let m := s.queuePoison x e [(b.control, 32)]
       let prod := m.prodOf e b.control
       let n := (prod - b.cons).toNat
       let v := m.queuePoison x e ((List.range n).map fun i => (b.ringBase.toNat + 32 * ((b.cons.toNat + i) % b.nent), 32))
       (b.nent < n → Answers (.bulkQueuePublish u) s fun t =>
         t.pending.getLast?.map (fun p => p.cause) = some .queueEntry ∧ t.mem = s.mem) ∧
       (n ≤ b.nent → Answers (.bulkQueuePublish u) s fun t =>
         t = (((v.takeEntries x e { b with published := false } n b.cons).bulkSet e (b.control + 12) 4
           prod.toNat).setBulk u { b with published := false, cons := prod })))) ∧
   (∀ (die : Nat) (s : State), (∃ b ∈ numbered (s.die die).bulkQ, bulkReady (s.die die).bulkQ b.1 b.2 = true) →
     Answers (.bulkEntryStart die) s fun t => ∃ i b, (s.die die).bulkQ[i]? = some b ∧ bulkReady (s.die die).bulkQ i b = true ∧
       (t.die die).bulkQ = (s.die die).bulkQ.set i { b with started := true } ∧ t.mem = s.mem ∧
       ∀ k c, (s.die die).bulkQ[k]? = some c → bulkReady (s.die die).bulkQ k c = true →
         deadlineBefore (s.deadlineOf c) (s.deadlineOf b) = false) ∧
   (∀ (die i : Nat) (s : State) (b : BulkEntry) (x : WorkUnit), (s.die die).bulkQ[i]? = some b → s.unit b.unit = some x →
     (b.started = false → exec (.bulkEntryComplete die i) s = .refused .notDue) ∧
     (b.started = true → s.answered die b.seq = true → ∀ c, b.bad = some c →
       exec (.bulkEntryComplete die i) s = .next (s.endBulk die i b (errStatus c))) ∧
     (b.started = true → s.answered die b.seq = true → b.bad = none → b.stage = 0 →
       let e : Issuer := { s.bulkIssuer x with windows := b.windows, seq := b.seq }
       s.bulkPeers e b.raw = [] →
       let r := s.bulkSource e b.raw
       let w := r.1.bulkMove e b.raw r.2.1
       (metWait r.2.2 = true ∨ metWait w.2.2 = true → exec (.bulkEntryComplete die i) s = .next (s.keepMisses w.1 die)) ∧
       (metWait r.2.2 = false → metWait w.2.2 = false → metLock r.2.2 = false → metLock w.2.2 = false → w.2.1.any isPeerKey = false → exec (.bulkEntryComplete die i) s = .next
         ((w.1.cleanUnits b.unit w.2.1).endBulk die i b (statusMerge b.status (statusMerge r.2.2 w.2.2)))))) ∧
   (∀ (u : UnitKey) (s : State) (x : WorkUnit) (q : BulkQueue), s.unit u = some x → x.bulk = some q →
     let head := BitVec.ofNat 32 (s.bulkNum (s.bulkIssuer x) (q.control + 28) 4)
     (x.saved = true ∨ q.heldRecs = [] ∨ (q.crTail - head).toNat = q.crn →
       exec (.completionRecordWrite u) s = .refused .notDue) ∧
     (x.saved = false → q.heldRecs ≠ [] → (q.crTail - head).toNat ≠ q.crn → Answers (.completionRecordWrite u) s fun t =>
       t = (s.queuePoison x (s.bulkIssuer x) [(q.control + 28, 4)]).writeRecords x (s.bulkIssuer x) q.heldRecs.length q)) ∧
   (∀ (b : BulkEntry) (st time : DWord), (bulkRecord b st time).extractLsb' 64 64 = time ∧
     (bulkRecord b st time).extractLsb' 0 32 = BitVec.ofNat 32 (beCompl b.raw) ∧
     ((bulkRecord b st time).extractLsb' 32 16).toNat = st.toNat % 16))

/-! The matrix engine, feeds and mailboxes (R206 to R231). -/

/-- Operations of the cluster sequencer are accepted (R207, R208, R214, R215, R218, R221, R224): one that fails a check
traps with its sub-reason; a full queue of 8 holds the thread; else the thread's earlier stores perform first, and the
thread stays while one of them may not; the operation joins the queue of the thread's class with its barrier referenced, and
the thread counts one more accepted. MSCALE sets the scales that the MMAs after it are accepted with. That the acceptance
makes unperformed timed copies of an earlier T late is the model's choice (log entry 58). -/
def Obligations.MatrixAcceptResults : Prop :=
  let Joins := fun (i : Instr) (s v : State) (work : MxWork) (bar : Option Nat) =>
    let c := s.me.env.cls
    let u := v.drain
    (8 ≤ (s.myCluster.queue c).length → exec i s = .next s) ∧
    ((s.myCluster.queue c).length < 8 → u.me.storeQ ≠ [] → exec i s = .next u) ∧
    ((s.myCluster.queue c).length < 8 → u.me.storeQ = [] → Answers i s fun t => ∃ op : MxOp,
      let k := u.myCluster
      let n := u.missOnAccept u.me.place.die
      let m : Agent := { u.me with batches := { u.me.batches with accepted := u.me.batches.accepted + 1 } }
      let q : State := { ({ n with nextSeq := u.nextSeq + 1 }.retainOpt bar).setMyCluster (k.setQueue c (k.queue c ++ [op])) with me := m }
      FlowEffect q t (u.me.cur.pc + 4) true ∧ op.work = work ∧ op.bar = bar ∧ op.who = u.me.who ∧ op.unit = u.me.unit ∧
      op.place = u.me.place ∧ op.windows = (u.context u.me.ctx).windows ∧ op.cls = c ∧ op.ecls = u.me.eclass ∧ op.kb = 0 ∧ op.bytes = 0 ∧ op.status = 0)
  let Mma := fun (i : BitVec 7 → BitVec 7 → BitVec 7 → Instr) (zero sparse : Bool) =>
    ∀ b a d s, Clear (gNeed .csq [d, a, b]) s →
      let x := s.mmaCheck zero sparse (s.me.readG d.toNat) (s.me.readG a.toNat) (s.me.readG b.toNat)
      (∀ e, x = .error e → exec (i b a d) s = .next (subTrap s e.1 e.2)) ∧ (∀ w, x = .ok w → Joins (i b a d) s s w none)
  let Epi := fun (i : BitVec 7 → BitVec 7 → BitVec 7 → Instr) (op : Nat) =>
    ∀ b a d s, Clear (gNeed .csq [d, a, b]) s →
      let x := s.epiCheck op (s.me.readG d.toNat) (s.me.readG a.toNat) (s.me.readG b.toNat)
      (∀ e, x = .error e → exec (i b a d) s = .next (subTrap s e.1 e.2)) ∧ (∀ w, x = .ok w → Joins (i b a d) s s w.2 w.1)
  Mma .mma false false ∧ Mma .mmaSp false true ∧ Mma .mmaz true false ∧ Mma .mmazSp true true ∧
  Epi .epq 0 ∧ Epi .epst 1 ∧ Epi .epov 2 ∧ Epi .accz 3 ∧
  (∀ s, Clear (Need.of .csq) s → Joins .myld s s .myld none) ∧
  (∀ b a s, Clear (gNeed .csq [a, b]) s →
    let x := s.me.readG a.toNat
    let y := s.me.readG b.toNat
    let Sets := fun r : BitVec 512 => Joins (.mscale b a) s { s with me := { s.me with scaleW := ⟨x, y, r⟩ } } .mscale none
    (x = 0 → y = 0 → (s.myCluster.queue s.me.env.cls).length < 8 → Answers (.mscale b a) s fun t => t.me.scaleW = ⟨0, 0, 0⟩) ∧
    (x.getLsbD 15 = false → x.extractLsb' 12 3 = 0 → x.extractLsb' 52 12 = 0 → y = 0 → Sets 0) ∧
    (x.getLsbD 15 = true → s.myContext.tensor (x.extractLsb' 0 12).toNat = none → Traps (.mscale b a) s .tensorId) ∧
    (∀ r, x.getLsbD 15 = true → s.myContext.tensor (x.extractLsb' 0 12).toNat = some r → y = 1 ∨ y = 2 →
      let at' := (⟨x, y, r⟩ : BScale).at 0 0
      (inTensor r at' = false → Traps (.mscale b a) s .tensorExtent) ∧
      (inTensor r at' = true → x.extractLsb' 12 3 = 0 → x.extractLsb' 52 12 = 0 → trFormat r = .fp32 → trSpace r = 0 → Sets r)) ∧
    (x.getLsbD 15 = false → y.toNat % 256 ≠ 0 → x.toNat < 4096 → y.toNat < 256 →
      exec (.mscale b a) s = .next (subTrap s .mxOperand 6)))

/-- What a thread does with its batches, its class and its binding (R211, R220, R222, R223): MBATCH closes a batch and gives
its number; MWAIT gives the lowest-numbered error, or waits until the batch has completed; MCLASS sets an effective class no
higher than the thread's own; MQUAD drops its class's feeds and binds a quad once the class's queue is empty. Feeds, drains
and mailboxes (R212, R230, R231): MFEED traps for a group that the binding does not name, waits while two feeds are staged,
else stages v88 to v119 with the inactive lanes 0; MDRAIN waits for a step boundary, at which register 88 + j of an active
lane takes its accumulator; MSIG appends to a mailbox of 4 words, and MRECV takes the oldest word; its fault at a set bit of g[A] and its
status for a group that the block does not have are the model's reading (DEDUCED, log entry 54). -/
def Obligations.MatrixThreadResults : Prop :=
  ((∀ d s, Clear (gNeed .csq [d]) s → Answers (.mbatch d) s fun t =>
     ∃ cl, let m : Agent := { s.me with batches := { s.me.batches with counter := s.me.batches.counter + 1, closed := cl } }
       GroupEffect { s with me := m } t d.toNat ((s.me.batches.counter + 1).setWidth 64) true ∧
       (cl.find? fun x => x.1 == s.me.batches.counter + 1) = some (s.me.batches.counter + 1, s.me.batches.accepted)) ∧
   (∀ a d s, Clear (gNeed .csq [d, a]) s →
     let x := s.me.readG a.toNat
     let n := x.extractLsb' 0 16
     let b := s.me.batches
     (x.extractLsb' 16 48 ≠ 0 → exec (.mwait a d) s = .next (subTrap s .mxOperand 1)) ∧
     (x.extractLsb' 16 48 = 0 → 32768 ≤ (b.counter - n).toNat → exec (.mwait a d) s = .next (subTrap s .mxOperand 9)) ∧
     (x.extractLsb' 16 48 = 0 → (b.counter - n).toNat < 32768 →
       (b.done n = true → Answers (.mwait a d) s fun t =>
         GroupEffect { s with me := { s.me with batches := { b with errors := [] } } } t d.toNat
           (match b.errors with | [] => 0 | e :: _ => BitVec.ofNat 64 (2 ^ 63 + e.2.toNat * 2 ^ 8)) true) ∧
       (b.done n = false → exec (.mwait a d) s = .next { s with me := s.me.setWait (.mwait d.toNat n) }))) ∧
   (∀ w s a d n, s.agent w = some a → a.wait = .mwait d n →
     (a.batches.done n = false → exec (.mwaitReturn w) s = .refused .notDue) ∧
     (a.batches.done n = true → ∃ b : Agent, exec (.mwaitReturn w) s = .next (s.setAgent b) ∧ b.wait = .none ∧
       b.batches = { a.batches with errors := [] } ∧ (∀ k, b.readG k = if k = d ∧ d ≠ 0 then a.batches.report else a.readG k))) ∧
   (∀ a s, Clear (gNeed .csq [a]) s →
     let x := s.me.readG a.toNat
     (4 ≤ x.toNat → exec (.mclass a) s = .next (subTrap s .mxOperand 1)) ∧
     (x.toNat < 4 → s.me.env.cls < x.toNat → exec (.mclass a) s = .next (subTrap s .mxOperand 10)) ∧
     (x.toNat < 4 → x.toNat ≤ s.me.env.cls → Answers (.mclass a) s fun t =>
       FlowEffect { s with me := { s.me with eclass := x.toNat } } t (s.me.cur.pc + 4) true)) ∧
   (∀ b a d s, Clear (gNeed .csq [d, a, b]) s →
     let x := s.me.readG a.toNat
     let y := s.me.readG b.toNat
     (x.extractLsb' 52 12 ≠ 0 ∨ y.extractLsb' 32 32 ≠ 0 → exec (.mquad b a d) s = .next (subTrap s .mxOperand 1)) ∧
     (x.extractLsb' 52 12 = 0 → y.extractLsb' 32 32 = 0 →
       (s.myCluster.queue s.me.env.cls = [] → Answers (.mquad b a d) s fun t =>
         t.me.readG d.toNat = (if d = 0 then 0 else (s.installQuad s.me x y).2) ∧ t.myCluster = (s.installQuad s.me x y).1 ∧
         t.mem = s.mem) ∧
       (s.myCluster.queue s.me.env.cls ≠ [] →
         exec (.mquad b a d) s = .next { s with me := s.me.setWait (.mquad d.toNat x y) }))) ∧
   (∀ w s a d x y, s.agent w = some a → a.wait = .mquad d x y →
     let k := s.cluster a.place.die a.place.cluster
     (k.queue a.env.cls ≠ [] → exec (.mquadInstall w) s = .refused .notDue) ∧
     (k.queue a.env.cls = [] → Answers (.mquadInstall w) s fun t =>
       t.cluster a.place.die a.place.cluster = (s.installQuad a x y).1 ∧ (t.agent w).map (fun b => b.wait) = some .none)) ∧
   (∀ (s : State) (w : Agent) (x y : DWord), w.env.cls < 4 → ∀ q, q < 4 →
     (s.installQuad w x y).1.feed w.env.cls q = [] ∧
     (x = 0 → (s.installQuad w x y).1.quad w.env.cls = Quad.unbound ∧ (s.installQuad w x y).2.toNat % 256 = 2))) ∧
  ((∀ a s, Clear { gNeed .core [a] with reads := regSpan 88 32 } s →
     let u := cleared { gNeed .core [a] with reads := regSpan 88 32 } s
     let x := u.me.readG a.toNat
     let q := (x.extractLsb' 0 2).toNat
     let c := (x.extractLsb' 2 2).toNat
     let k := u.myCluster
     let named := (k.quad c).unit = u.me.unit ∧ (k.quad c).groups[q]? = some u.me.index
     (16 ≤ x.toNat → exec (.mfeed a) s = .next (subTrap u .mxOperand 1)) ∧
     (x.toNat < 16 → ¬named → exec (.mfeed a) s = .next (subTrap u .mxOperand 8)) ∧
     (x.toNat < 16 → named → 2 ≤ (k.feed c q).length → exec (.mfeed a) s = .next u.holdGroup) ∧
     (x.toNat < 16 → named → (k.feed c q).length < 2 → Answers (.mfeed a) s fun t => ∃ f : Feed,
       FlowEffect (u.setMyCluster (k.pushFeed u.me.unit c q f)) t (u.me.cur.pc + 4) true ∧
       ∀ r l, r < 32 → l < 32 → (f.getD r Lanes.zero).at l = if u.me.cur.em.getLsbD l = true then u.me.readV (88 + r) l else 0)) ∧
   (∀ a s, Clear { gNeed .core [a] with writes := regSpan 88 32 } s →
     let u := cleared { gNeed .core [a] with writes := regSpan 88 32 } s
     let x := u.me.readG a.toNat
     let owns := (s.ctxReg u.me.ctx 0x005).getLsbD (16 * (x.extractLsb' 4 2).toNat + (x.extractLsb' 0 4).toNat)
     (x.extractLsb' 12 52 ≠ 0 ∨ x.extractLsb' 6 2 ≠ 0 → exec (.mdrain a) s = .next (subTrap u .mxOperand 1)) ∧
     (x.extractLsb' 12 52 = 0 → x.extractLsb' 6 2 = 0 →
       (owns = false → exec (.mdrain a) s = .next (subTrap u .mxOperand 2)) ∧
       (owns = true → exec (.mdrain a) s = .next { u with me := u.me.setWait (.mdrain x) }))) ∧
   (∀ w s a x, s.agent w = some a → a.wait = .mdrain x → a.env.det = false → ∃ b : Agent,
     exec (.mdrainRead w) s = .next (s.setAgent b) ∧ b.wait = .none ∧
     ∀ k l, l < 32 → b.readV k l =
       if 88 ≤ k ∧ k < 120 ∧ a.cur.em.getLsbD l = true then
         (s.cluster a.place.die a.place.cluster).accAt (x.extractLsb' 0 4).toNat (32 * (x.extractLsb' 8 2).toNat + l)
           (32 * (x.extractLsb' 10 2).toNat + (k - 88))
       else a.readV k l) ∧
   (∀ b a d s, Clear (gNeed .core [d, a, b]) s →
     let x := s.me.readG a.toNat
     let peer := s.agent (.group s.me.unit (x.extractLsb' 0 7).toNat)
     (128 ≤ x.toNat → exec (.msig b a d) s = .next (subTrap s .mxOperand 1)) ∧
     (x.toNat < 128 → s.me.env.det = true → Traps (.msig b a d) s .detViolation) ∧
     (x.toNat < 128 → s.me.env.det = false →
       (peer = none → Answers (.msig b a d) s fun t => GroupEffect s t d.toNat 2 true) ∧
       (∀ p, peer = some p → p.run = .ended → Answers (.msig b a d) s fun t => GroupEffect s t d.toNat 2 true) ∧
       (∀ p, peer = some p → p.run ≠ .ended → p.run = .saved ∨ 4 ≤ p.mailbox.length → Answers (.msig b a d) s fun t =>
         GroupEffect s t d.toNat 1 true) ∧
       (∀ p, peer = some p → p.run ≠ .ended → p.run ≠ .saved → p.mailbox.length < 4 →
         (s.drain.me.storeQ ≠ [] → exec (.msig b a d) s = .next s.drain) ∧
         (s.drain.me.storeQ = [] → ∀ p', s.drain.agent (.group s.me.unit (x.extractLsb' 0 7).toNat) = some p' →
           Answers (.msig b a d) s fun t => t.me.readG d.toNat = 0 ∧
             (t.agent (.group s.me.unit (x.extractLsb' 0 7).toNat)).map (fun p => p.mailbox) = some (p'.mailbox ++
               [BitVec.ofNat 64 (s.drain.me.index * 2 ^ 32 + ((s.drain.me.readG b.toNat).extractLsb' 0 32).toNat)]))))) ∧
   (∀ d s, Clear (gNeed .core [d]) s →
     (s.me.env.det = true → Traps (.mrecv d) s .detViolation) ∧
     (s.me.env.det = false → ∀ w r, s.me.mailbox = w :: r → Answers (.mrecv d) s fun t =>
       GroupEffect { s with me := { s.me with mailbox := r } } t d.toNat w true) ∧
     (s.me.env.det = false → s.me.mailbox = [] →
       exec (.mrecv d) s = .next { s with me := s.me.setWait (.mrecv d.toNat) })) ∧
   (∀ w s a d x r, s.agent w = some a → a.wait = .mrecv d → a.mailbox = x :: r →
     exec (.mrecvWake w) s = .next (s.setAgent ({ a with mailbox := r }.wake d x))))

/-- The engine's steps (R210, R216, R219, R221 to R223): the operation that a step is of stands ready at the head of a
queue, and without a yield none that stands ready has a higher effective class. An MSCALE and a MYLD leave their queue; MYLD
grants the lower classes one step each. A K-block of an MMA adds its value to every formed row of the accumulator, which
MMAZ zeroes first, and leaves the other tiles; a read that meets a locked replica (R179), or a miss without a walk slot
(R311), holds the step back. An epilogue writes what it forms, and leaves its queue. -/
def Obligations.MatrixStepResults : Prop :=
  (∀ (die cl : Nat) (s : State), s.mxHeads (s.cluster die cl) = [] → exec (.mxeStep die cl) s = .refused .notDue) ∧
  (∀ (s : State) (k : Cluster) (op : MxOp) (y : List Nat), s.mxChoose k = some (op, y) → op ∈ s.mxHeads k ∧
    ((k.yields.filter fun c => (s.mxHeads k).any fun x => x.cls == c) = [] → ∀ x ∈ s.mxHeads k, x.before op = false)) ∧
  (∀ (die cl : Nat) (s : State) (op : MxOp) (y : List Nat), s.mxChoose (s.cluster die cl) = some (op, y) →
    let u := s.setCluster die cl { s.cluster die cl with yields := y }
    (op.work = .mscale → exec (.mxeStep die cl) s = .next (u.popHead op)) ∧
    (op.work = .myld → Answers (.mxeStep die cl) s fun t => ∃ ys : List Nat, (∀ x ∈ s.mxHeads (s.cluster die cl), x.ecls < op.ecls → x.cls ∈ ys) ∧
      t = (u.setCluster die cl { s.cluster die cl with yields := ys }).popHead op) ∧
    (∀ zero sparse acc a nk bf sc bm w, op.work = .mma zero sparse acc a nk bf sc bm w → op.place.die = die →
      op.place.cluster = cl → op.asked = true ∨ sparse = false →
      let k := s.cluster die cl
      let feeds := if feedsNeeded op = 0 then op.fed.map (fun f => [f])
        else (List.range 4).map fun q => (k.feed op.cls q).take (feedsNeeded op)
      let one := ¬(Fmt.ofCode bf = some .e2m1 ∧ trFormat a.record = .e2m1 ∧ op.kb + 1 < nk)
      let x := u.kBlockOf op sparse a bf sc bm w op.kb (if Fmt.ofCode bf = some .e2m1 then op.kb % 2 else 0) feeds
      let r := u.blocksReads op sparse a sc bm w [op.kb]
      (one → metWait r.2 = true → exec (.mxeStep die cl) s = .next (u.keepMisses r.1 die)) ∧
      (one → metWait r.2 = false → metLock r.2 = true →
        (op.stall.isSome = true → exec (.mxeStep die cl) s = .refused .notDue) ∧
        (op.stall = none → exec (.mxeStep die cl) s = .next (u.setHead { op with stall := some (s.die die).time }))) ∧
      (one → metWait r.2 = false → metLock r.2 = false → Answers (.mxeStep die cl) s fun t =>
        (nk ≤ op.kb + 1 → (t.cluster die cl).queue op.cls = (k.queue op.cls).tail) ∧
        ∀ b i j, i < 128 → j < 128 →
          let old := if zero = true ∧ op.kb = 0 ∧ b = acc then 0 else k.accAt b i j
          (t.cluster die cl).accAt b i j = if b = acc ∧ a.formed i 0 = true then faddW old (x.value i j) else old)) ∧
    (∀ kind acc out ctl sc fl dv, op.work = .epi kind acc out ctl sc fl dv → op.place.die = die → op.place.cluster = cl →
      op.kb = 1 →
      let r := u.epiRun op kind acc out ctl sc fl dv
      (metWait r.status = true → exec (.mxeStep die cl) s = .next (u.keepMisses r.after die)) ∧
      (metWait r.status = false → metLock r.status = false → r.repl = [] → r.plain.any isPeerKey = false →
        Answers (.mxeStep die cl) s fun t => t.mem = r.after.mem ∧
          (t.cluster die cl).queue op.cls = ((r.after.cluster die cl).queue op.cls).tail))) ∧
  (∀ (k : Cluster) (a : Nat) (rows : List Nat) (x : KBlock) (i j : Nat), rows.Nodup → (∀ r ∈ rows, r < 128) → i < 128 → j < 128 →
    (k.addBlock a rows x).accAt a i j = (if i ∈ rows then faddW (k.accAt a i j) (x.value i j) else k.accAt a i j) ∧
    ∀ b, b ≠ a → (k.addBlock a rows x).accAt b i j = k.accAt b i j) ∧
  (∀ (k : Cluster) (a b i j : Nat), i < 128 → j < 128 →
    (k.zeroAcc a).accAt b i j = if b = a then 0 else k.accAt b i j) ∧
  (∀ (x : KBlock) (i j : Nat), x.fa ≠ .bf16 → x.fa ≠ .fp16 → x.value i j =
    fmulW (toF32 (dotSum ((List.range 128).filterMap (x.product i j)) (.num false 0))) (fmulW (x.sA i) (x.sB j)))

/-! The decode engine and the KV space (R236 to R253). -/

/-- DATT, DDIST, DTOPK and DKVAP are accepted (R240): MBZ bits, the block's address, the handle, Table 3's lowest
sub-reason, empty tensor ids and records that must not be written trap, in this order; a full queue of 64 holds the group;
else the command joins its die's queue. The engine goes on a page at a time: with a command that stands within a page (R295),
else with that of the highest class, the oldest of its class, under the control registers of its acceptance (R283); the last page counts the command; a page waits
for what it asked of peers (R361), for a walk slot (R311) and for a locked replica (R179). The running state of a row keeps
its values over a block with no allowed position (R243), and FIRST begins with −infinity. -/
def Obligations.DecodeEngineResults : Prop :=
  (let Accepts := fun (i : BitVec 7 → BitVec 7 → Instr) (op : Nat) =>
     ∀ b a s, Clear (gNeed .core [a, b]) s →
       let ga := s.me.readG a.toNat
       let gb := s.me.readG b.toNat
       let h := gb.extractLsb' 0 16
       let ea := (ga.extractLsb' 0 32).toNat
       let p := s.me.place.die
       (2 ^ 32 ≤ ga.toNat ∨ 2 ^ 16 ≤ gb.toNat → Traps (i b a) s .illegalField) ∧
       (ga.toNat < 2 ^ 32 → gb.toNat < 2 ^ 16 →
         (∀ c, s.image ea 64 = .error c → exec (i b a) s = .next (addrTrap s c ea)) ∧
         (∀ bs, s.image ea 64 = .ok bs → h ≠ 0 → s.handle h = none → Traps (i b a) s .barrierHandle) ∧
         (∀ bs bar, s.image ea 64 = .ok bs → s.cmdHandle h = .ok bar →
           let blk := BitVec.ofNat 512 (leNat bs)
           let x := s.dceConditions op blk
           (∀ n, lowestSub x.1 = some n → exec (i b a) s = .next (subTrap s .dceParam n)) ∧
           (lowestSub x.1 = none →
             ((∃ id ∈ x.2, s.myContext.tensor id = none) → Traps (i b a) s .tensorId) ∧
             (∀ rs : List (BitVec 512), x.2.map s.myContext.tensor = rs.map some →
               (op = 3 → (∃ r ∈ rs, mayWrite r = false) → exec (i b a) s = .next (subTrap s .tensorRecord 13)) ∧
               ((op = 3 → ∀ r ∈ rs, mayWrite r = true) → 64 ≤ (s.die p).dceQ.length → exec (i b a) s = .next s) ∧
               ((op = 3 → ∀ r ∈ rs, mayWrite r = true) → (s.die p).dceQ.length < 64 → Answers (i b a) s fun t => ∃ c : DceCmd,
                 (t.die p).dceQ = (s.die p).dceQ ++ [c] ∧ c.op = op ∧ c.block = blk ∧ c.bar = bar ∧ c.unit = s.me.unit ∧
                 c.regs = s.regsOf s.me.ctx ∧ c.done = 0 ∧ c.status = 0 ∧ c.stage = 0 ∧ t.me.cur.pc = s.me.cur.pc + 4 ∧ t.me.cur.pos = 0 ∧ SameG s t ∧ SameV s t ∧
                 (op = 1 ∨ op = 2 → t.mem = s.mem))))))
   Accepts .datt 0 ∧ Accepts .ddist 1 ∧ Accepts .dtopk 2 ∧ Accepts .dkvap 3 ∧
   ∀ (xs : List (Nat × Bool)) (n : Nat), lowestSub xs = some n → (n, true) ∈ xs ∧
     ∀ m, (m, true) ∈ xs → xs.Pairwise (fun x y => x.1 ≤ y.1) → n ≤ m) ∧
  ((∀ (q : List DceCmd) (c : DceCmd), chooseDce q = some c → c ∈ q ∧
     ((∃ x ∈ q, x.stage ≠ 0 ∨ x.stall.isSome = true) → c.stage ≠ 0 ∨ c.stall.isSome = true) ∧
     ((∀ x ∈ q, x.stage = 0 ∧ x.stall = none) →
       ∀ x ∈ q, x.env.cls < c.env.cls ∨ (x.env.cls = c.env.cls ∧ c.seq ≤ x.seq))) ∧
   (∀ (die : Nat) (s : State), (s.die die).dceQ = [] → exec (.dcePage die) s = .refused .notDue) ∧
   (∀ (die : Nat) (s : State) (c : DceCmd), chooseDce (s.die die).dceQ = some c →
     let u : State := { s with cr := crWith s.cr c.unit.ctx c.regs }
     let Back := fun t : State => exec (.dcePage die) s = .next { t with cr := crWith t.cr c.unit.ctx (s.regsOf c.unit.ctx) }
     let r := u.dceStep c die
     (u.answered die c.seq = false ∨ u.commits? c.seq = true → exec (.dcePage die) s = .refused .notDue) ∧
     (u.answered die c.seq = true → u.commits? c.seq = false →
       (c.stage = 2 → Back (u.endAppend die c)) ∧
       (c.stage = 0 → u.dcePeers c die ≠ [] → Back ((u.sendReads (u.dcePeers c die)
         (cmdRequest die c.seq c.unit (u.die die).time c.env.det)).setDce die { c with stage := 1 })) ∧
       (c.stage = 1 ∨ (c.stage = 0 ∧ u.dcePeers c die = []) →
         (metWait r.status = true → Back (u.keepMisses r.after die)) ∧
         (metWait r.status = false → metLock r.status = true →
           (c.stall.isSome = true → exec (.dcePage die) s = .refused .notDue) ∧
           (c.stall = none → Back (u.setDce die { c with stall := some (u.die die).time }))) ∧
         (metWait r.status = false → metLock r.status = false → r.report = none → Back (r.after.endPage die c r.status))))) ∧
   (∀ (die : Nat) (s : State) (c : DceCmd) (st : DWord),
     let c' : DceCmd := { c with done := c.done + 1, status := statusMerge c.status st, stage := 0, peer := 0, stall := none }
     (c.done + 1 < dcePages c → s.endPage die c st = s.setDce die c' ∧ (s.setDce die c').mem = s.mem ∧
       ((s.setDce die c').die die).dceQ = (s.die die).dceQ.map (fun x => if x.seq = c.seq then c' else x)) ∧
     (dcePages c ≤ c.done + 1 → ((s.endPage die c st).die die).dceQ = (s.die die).dceQ.filter (fun x => x.seq != c.seq) ∧
       (s.endPage die c st).mem = s.mem ∧
       ∀ k, c.bar = some k → (s.barrier k).counted + dceCount c (s.shapeOf c) ≤ (s.barrier k).expected →
         let e : Barrier := { s.barrier k with
           counted := (s.barrier k).counted + dceCount c (s.shapeOf c),
           cur := statusMerge (s.barrier k).cur (oneCount (c'.status &&& ~~~0x70)) }
         (s.endPage die c st).barrier k = e.settle.release)) ∧
   (∀ st : SoftRow, st.block [] = st ∧ st.first.m = 0xFF80_0000 ∧ st.first.l = 0 ∧ (∀ w ∈ st.first.acc, w = 0) ∧
     (st.l.toNat % 2 ^ 31 = 0 → ∀ w ∈ st.final.acc, ∃ x ∈ st.acc, w = fmulW x 0)) ∧
   (∀ (st : SoftRow) (f : List Scored), f ≠ [] → (st.block f).m = fmaxW st.m (maxWord (f.map Scored.s))))

/-- The residency instructions (R236, R249 to R251): KVRES gives an entry without its address; KVPIN and KVREL change every
page's pins or none; KVREQ answers its status, takes a reference for a request that waits, and arrives at once where there
is nothing to do; a handle that is not live counts as none (DESIGN CHOICE, log entry 66). The supervisor (R250, R253)
completes a request that has the frames it wants, each of those it gives aligned to its size (R237), not retired (R348) and
within the quota, and the barrier takes its arrival; a victim is a candidate before which no other candidate goes (lowest
PRIO, then smallest restore cost, then lowest SEQ), and its action is recorded. -/
def Obligations.KvCacheResults : Prop :=
  ((∀ a d s, Clear (gNeed .core [d, a]) s →
     let g := s.me.readG a.toNat
     let bad := g.extractLsb' 44 20 ≠ 0
     (bad → Traps (.kvres a d) s .illegalField) ∧
     (¬bad → s.me.env.det = true → Traps (.kvres a d) s .detViolation) ∧
     (¬bad → s.me.env.det = false → Answers (.kvres a d) s fun t => GroupEffect s t d.toNat
       ((s.context s.me.ctx).kv ⟨(g.extractLsb' 0 16).toNat, (g.extractLsb' 16 8).toNat, (g.extractLsb' 24 20).toNat / 64⟩ &&&
         0xFFFF_0000_0000_0000) true)) ∧
   (let Pins := fun (i : BitVec 7 → BitVec 7 → BitVec 7 → Instr) (status : Context → List KvPage → Nat) (f : Nat → Nat) =>
     ∀ b a d s, Clear (gNeed .core [d, a, b]) s →
       let g := s.me.readG a.toNat
       let w := s.me.readG b.toNat
       let c := s.context s.me.ctx
       let bad := kvRefOk g = false ∨ 2 ^ 15 ≤ w.toNat
       (bad → Traps (i b a d) s .illegalField) ∧
       (¬bad → (w.toNat = 0 ∨ 16384 < kvPos g / 64 + w.toNat) → Answers (i b a d) s fun t => GroupEffect s t d.toNat 1 true) ∧
       (¬bad → 1 ≤ w.toNat → kvPos g / 64 + w.toNat ≤ 16384 →
         let ps := kvPages (kvSeq g) (kvHead g) (kvNh g) (kvPos g / 64) w.toNat
         (status c ps ≠ 0 → Answers (i b a d) s fun t => GroupEffect s t d.toNat (BitVec.ofNat 64 (status c ps)) true) ∧
         (status c ps = 0 → Answers (i b a d) s fun t =>
           GroupEffect (s.setContext s.me.ctx (c.setPins ps f)) t d.toNat 0 true))
    Pins .kvpin Context.pinStatus (· + 1) ∧ Pins .kvrel Context.unpinStatus (· - 1)) ∧
   (∀ (c : Context) (ps : List KvPage), ps.Nodup → (∀ p ∈ ps, p.head < 256 ∧ p.page < 16384) →
     (c.pinStatus ps = 0 ↔ ∀ p ∈ ps, kvState (c.kv p) = 1 ∧ kvPins (c.kv p) ≠ 15) ∧
     (∀ p ∈ ps, kvPins (c.kv p) < 15 → kvPins ((c.setPins ps (· + 1)).kv p) = kvPins (c.kv p) + 1 ∧
       kvState ((c.setPins ps (· + 1)).kv p) = kvState (c.kv p) ∧ kvAddr ((c.setPins ps (· + 1)).kv p) = kvAddr (c.kv p)) ∧
     (∀ p, p.head < 256 → p.page < 16384 → p ∉ ps → (c.setPins ps (· + 1)).kv p = c.kv p)) ∧
   (∀ b a d s, Clear (gNeed .core [d, a, b]) s →
     let g := s.me.readG a.toNat
     let w := s.me.readG b.toNat
     let h := w.extractLsb' 16 16
     let op := (w.extractLsb' 32 2).toNat
     let bad := kvRefOk g = false ∨ op = 3 ∨ w.extractLsb' 34 14 ≠ 0 ∨ w.getLsbD 15 = true ∨ (op ≠ 2 ∧ w.extractLsb' 48 16 ≠ 0)
     (bad → Traps (.kvreq b a d) s .illegalField) ∧
     let bar := s.handle h
     (¬bad →
       let r : KvRequest :=
         { op := op, seq := kvSeq g, tseq := (w.extractLsb' 48 16).toNat, head := kvHead g, nh := kvNh g, page := kvPos g / 64,
           npg := (w.extractLsb' 0 15).toNat, bar := bar, handle := h, unit := s.me.unit, det := s.me.env.det,
           regs := s.regsOf s.me.ctx }
       let st := if (kvSpan g r.npg).isNone = true then 3 else s.kvStatus s.me.ctx r
       let c := s.context s.me.ctx
       (st = 0 → Answers (.kvreq b a d) s fun t =>
         GroupEffect ((s.retainOpt bar).setContext s.me.ctx { c with kvReqs := c.kvReqs ++ [r] }) t d.toNat 0 true) ∧
       (st = 1 → bar = none → Answers (.kvreq b a d) s fun t => GroupEffect s t d.toNat 1 true) ∧
       (st = 1 → ∀ k, bar = some k → 1 ≤ (s.barrier k).pending → (s.barrier k).counted ≤ (s.barrier k).expected →
         Answers (.kvreq b a d) s fun t => t.me.readG d.toNat = (if d = 0 then 0 else 1) ∧
           t.barrier k = ({ s.barrier k with pending := (s.barrier k).pending - 1, refs := (s.barrier k).refs + 1,
                                             cur := statusMerge (s.barrier k).cur 0 } : Barrier).settle.release) ∧
       (2 ≤ st → Answers (.kvreq b a d) s fun t => GroupEffect s t d.toNat (BitVec.ofNat 64 st) true)))) ∧
  ((∀ (ctx i : Nat) (frames : List Nat) (s : State) (r : KvRequest), (s.context ctx).kvReqs[i]? = some r →
     let u : State := { s with cr := crWith s.cr ctx r.regs }
     let c : Context := { s.context ctx with kvFree := (s.context ctx).kvFree ++ frames }
     let no := c.refuses r = true ∨ c.kvFree.length < (c.wanted r).length ∨ u.framesOk ctx frames = false
     (no → exec (.kvRequestComplete ctx i frames) s = .refused .notDue) ∧
     (¬no → Answers (.kvRequestComplete ctx i frames) s fun t =>
       (t.context ctx).kvReqs = (s.context ctx).kvReqs.eraseIdx i ∧
       ∀ k, r.bar = some k → 1 ≤ (s.barrier k).pending → (s.barrier k).counted ≤ (s.barrier k).expected →
         t.barrier k = ({ s.barrier k with pending := (s.barrier k).pending - 1,
                                           cur := statusMerge (s.barrier k).cur 0 } : Barrier).settle.release)) ∧
   (∀ (s : State) (ctx : Nat) (frames : List Nat), ctx < 64 → s.framesOk ctx frames = true → frames ≠ [] →
     (s.context ctx).frames.length + frames.length ≤ s.frameQuota ctx ∧
     ∀ f ∈ frames, f * 16 % s.kvFrameBytes ctx = 0 ∧ s.meetsRetired (f * 16) (s.kvFrameBytes ctx) = false ∧
       ∀ g ∈ (s.context ctx).frames, g ≠ f) ∧
   (∀ (bw : Nat) (es : List SeqEntry) (v : SeqEntry), chooseVictim bw es = some v → v ∈ es ∧ ∀ x ∈ es, victimBefore bw x v = false) ∧
   (∀ (bw : Nat) (x y : SeqEntry), x.prio < y.prio → victimBefore bw x y = true ∧ victimBefore bw y x = false) ∧
   (∀ (ctx : Nat) (s : State), (s.context ctx).frameWanted = none → exec (.kvVictimAction ctx) s = .refused .notDue) ∧
   (∀ (ctx : Nat) (s : State) (q : Nat) (v : SeqEntry), (s.context ctx).frameWanted = some q →
     chooseVictim (s.bwus ctx) (s.candidates ctx q) = some v → Answers (.kvVictimAction ctx) s fun t =>
       (t.context ctx).kvEvents = (s.context ctx).kvEvents + 1) ∧
   (∀ (st pins refs addr : Nat), st < 4 → pins < 16 → refs < 256 → addr < 2 ^ 48 →
     kvState (kvEntry st pins refs addr) = st ∧ kvPins (kvEntry st pins refs addr) = pins ∧
     kvRefs (kvEntry st pins refs addr) = refs ∧ kvAddr (kvEntry st pins refs addr) = addr))

/-! Launches (R183 to R201, R292 to R295, R341). -/

/-- LNCH and LNCHC, and the pool's answer (R187, R188): MBZ bits, the record's address and the handle are checked in this
order; the group then waits, its barrier referenced. A refused launch answers with bit 63 and its reason, and releases the
reference; an accepted one has its context's next id, which is never 0. -/
def Obligations.LaunchAnswers : Prop :=
  (let Asks := fun (i : BitVec 7 → BitVec 7 → BitVec 7 → Instr) (coop : Bool) =>
    ∀ b a d s, Clear (gNeed .core [d, a, b]) s →
      let gb := s.me.readG b.toNat
      let h := gb.extractLsb' 0 16
      let ea := ((s.me.readG a.toNat).extractLsb' 0 32).toNat
      (2 ^ 16 ≤ gb.toNat → Traps (i b a d) s .illegalField) ∧
      (gb.toNat < 2 ^ 16 → ∀ c, s.recordImage ea = .error c → exec (i b a d) s = .next (addrTrap s c ea)) ∧
      (gb.toNat < 2 ^ 16 → ∀ bs, s.recordImage ea = .ok bs →
        (h ≠ 0 → s.handle h = none → Traps (i b a d) s .barrierHandle) ∧
        (∀ bar, s.cmdHandle h = .ok bar → exec (i b a d) s =
          let u := (s.exposeUnit s.me.unit).retainOpt bar
          .next { u with me := u.me.setWait (.launch d.toNat ea bar h coop) }))
   Asks .lnch false ∧ Asks .lnchc true) ∧
  (∀ w s a d ea bar h coop, s.agent w = some a → a.wait = .launch d ea bar h coop →
    let l := s.draftFor a (s.recordNow a ea) bar h coop
    (∀ n, s.answer a.ctx l = .error n → exec (.launchAnswer w) s =
      .next ((s.setAgent (a.wake d (BitVec.ofNat 64 (2 ^ 63 + n)))).releaseOpt bar)) ∧
    (∀ t, s.answer a.ctx l = .ok t → exec (.launchAnswer w) s =
      .next (t.setAgent (a.wake d ((s.context a.ctx).nextId.setWidth 64))))) ∧
  (∀ (s : State) (ctx : Nat) (l : Launch),
    (∀ n, s.recordReason ctx l = some n → s.answer ctx l = .error n) ∧
    (s.recordReason ctx l = none → s.poolFull l.pool = true ∨ s.submissionFull ctx = true → s.answer ctx l = .error 3) ∧
    (s.recordReason ctx l = none → s.poolFull l.pool = false → s.submissionFull ctx = false → s.neverFits l = true →
      s.answer ctx l = .error 4)) ∧
  (∀ (s t : State) (ctx : Nat) (l : Launch), l.coop = false → l.ctx = ctx → s.answer ctx l = .ok t →
    t.launches.head?.map (fun k => (k.ctx, k.id)) = some (ctx, (s.context ctx).nextId) ∧
    (t.context ctx).nextId = nextLaunchId (s.context ctx).nextId ∧ t.mem = s.mem) ∧
  (∀ id : Word, nextLaunchId id ≠ 0)

/-- Admission (R186, R206, R198, R293, R294): the next unit of a launch is admitted where the resource check allows it, a
deterministic unit at its drawn place alone; its groups start with the parameters' address in g60 and g61, and a CSQ unit's
thread with that of its own area in g60; a launch that 64 younger ones have passed becomes blocking. That a PC is the low
half of its instruction's VA is log entry 26 (DEDUCED). -/
def Obligations.AdmissionResults : Prop :=
  (∀ (u : UnitKey) (die cl : Nat) (cores : List Nat) (s : State) (l : Launch), s.launch u.ctx u.launch = some l →
    let due := u.index = l.next ∧ s.ready l = true ∧ s.heldBack l = false ∧ s.offeredBefore l = false
    (¬due → exec (.unitAdmit u die cl cores) s = .refused .notDue) ∧
    (due → l.coop = false → s.fitsAt l die cl cores = true →
      (l.det = false → s.handDie l = some die → exec (.unitAdmit u die cl cores) s = .next (s.admitUnit l die cl cores)) ∧
      (l.det = true → s.draw l l.next = (die, cl, cores) → exec (.unitAdmit u die cl cores) s = .next (s.admitUnit l die cl cores)) ∧
      (l.det = true → s.draw l l.next ≠ (die, cl, cores) → exec (.unitAdmit u die cl cores) s = .refused .notDue)) ∧
    (due → l.coop = false → s.fitsAt l die cl cores = false → exec (.unitAdmit u die cl cores) s = .refused .notDue) ∧
    (due → l.coop = true → ∀ t, State.admitAll (lnUnits l.raw) (s.notePassed l) l.ctx l.id = some t →
      exec (.unitAdmit u die cl cores) s = .next t)) ∧
  (∀ (s : State) (l : Launch) (d c : Nat) (cores : List Nat), lnKind l.raw = 0 → kdKind l.desc = 1 →
    let t := s.admitUnit l d c cores
    let u : UnitKey := ⟨l.ctx, l.id, l.next⟩
    ∃ x, t.unit u = some x ∧ x.die = d ∧ x.cluster = c ∧ x.cores = cores ∧ x.ended = false ∧ x.saved = false) ∧
  (∀ (s : State) (l : Launch) (u : UnitKey) (d c : Nat) (cores : List Nat), l.run = none → ∀ i, i < kdGroups l.desc →
    ∃ a ∈ (s.startGroups l u d c cores).agents, a.who = .group u i ∧ a.kind = .core ∧ a.index = i ∧ a.cur.pc = BitVec.ofNat 32 (lnKernel l.raw) + 32 ∧
      a.cur.em = 0xFFFF_FFFF ∧ a.cur.pos = 0 ∧ a.quota = kdRegs l.desc ∧ a.run = .running ∧ a.wait = .none ∧
      (∀ k j, j < 32 → a.readV k j = 0) ∧
      ∀ k, a.readG k = if k = 60 ∨ k = 61 then BitVec.ofNat 64 (0x10_2000 - l.params.length) else 0) ∧
  (∀ (s : State) (l : Launch) (u : UnitKey) (d c : Nat), l.run = none →
    let t := s.startThread l u d c
    ((t.cluster d c).quad l.cls = Quad.unbound ∧ ∀ q, (t.cluster d c).queue q = (s.cluster d c).queue q) ∧
    ∃ a ∈ t.agents, a.who = .thread u ∧ a.kind = .csq ∧ a.place = ⟨d, c, 0, l.cls⟩ ∧ a.cur.pc = BitVec.ofNat 32 (lnKernel l.raw) + 32 ∧ a.cur.pos = 0 ∧
      a.eclass = l.cls ∧ a.scaleW = ⟨0, 0, 0⟩ ∧ a.storeQ = [] ∧ a.batches = ⟨0, 0, 0, [], []⟩ ∧ a.run = .running ∧ a.wait = .none ∧
      ∀ k, a.readG k = if k = 60 then BitVec.ofNat 64 (0x1FFF_E000 + (4 * c + l.cls) * 0x200) else 0) ∧
  (∀ (ctx : Nat) (id : Word) (s : State) (l : Launch), s.launch ctx id = some l →
    (64 ≤ l.passed.length → l.blocking = false → s.ready l = true →
      exec (.launchBecomesBlocking ctx id) s = .next (s.setLaunch { l with blocking := true })) ∧
    (l.passed.length < 64 → exec (.launchBecomesBlocking ctx id) s = .refused .notDue))

/-- CANCEL and CCNT (R192, R193, R197): an MBZ bit traps; CANCEL answers 2 for an id that is not known, 1 for one that has
completed, else 0 with the launch cancelled and stopping; at graph level the graph is closed with its launches cancelled, at
phase level the phase, and at job level every launch of the context is cancelled; CCNT reads what is left of a level, and
faults in deterministic mode. -/
def Obligations.CancelAndCountResults : Prop :=
  (∀ a d s, Clear (gNeed .core [d, a]) s →
    let x := s.me.readG a.toNat
    let ctx := s.me.ctx
    let id := x.extractLsb' 0 32
    (x.extractLsb' 32 30 ≠ 0 → Traps (.cancel a d) s .illegalField) ∧
    (x.extractLsb' 32 32 = 0 → s.redeemRun ctx id = none →
      (s.launch ctx id = none → Answers (.cancel a d) s fun t => GroupEffect s t d.toNat 2 true) ∧
      (∀ l, s.launch ctx id = some l → l.complete = true → (s.context ctx).launchDone - l.doneSeq ≤ 4096 →
        Answers (.cancel a d) s fun t => GroupEffect s t d.toNat 1 true) ∧
      (∀ l, s.launch ctx id = some l → l.complete = false → Answers (.cancel a d) s fun t =>
        (∃ u, GroupEffect s u d.toNat 0 true ∧ t = u.cancelLaunch l) ∧
        ((∀ x ∈ s.units, x.key = s.me.unit → x.saved = false) → (∀ m ∈ s.agents, m.who ≠ s.me.who) → t.me.readG d.toNat = 0) ∧
        (t.launch ctx id).map (fun k => k.cancelled && k.stopping) = some true ∧ t.mem = s.mem)) ∧
    (x.extractLsb' 32 32 = 0x4000_0000 →
      (s.graphOf ctx id = none → Answers (.cancel a d) s fun t => GroupEffect s t d.toNat 2 true) ∧
      (∀ g, s.graphOf ctx id = some g → g.complete = true → Answers (.cancel a d) s fun t =>
        GroupEffect s t d.toNat (if (s.context ctx).graphDone - g.doneSeq ≤ 4096 then 1 else 2) true) ∧
      (∀ g, s.graphOf ctx id = some g → g.complete = false → Answers (.cancel a d) s fun t =>
        ∃ u, GroupEffect s u d.toNat 0 true ∧ t = u.cancelGraph g)) ∧
    (x.extractLsb' 32 32 = 0x8000_0000 →
      (s.phaseOf ctx id = none → Answers (.cancel a d) s fun t => GroupEffect s t d.toNat 2 true) ∧
      (∀ p, s.phaseOf ctx id = some p → p.complete = true → Answers (.cancel a d) s fun t =>
        GroupEffect s t d.toNat (if (s.context ctx).phaseDone - p.doneSeq ≤ 4096 then 1 else 2) true) ∧
      (∀ p, s.phaseOf ctx id = some p → p.complete = false → Answers (.cancel a d) s fun t =>
        ∃ u, GroupEffect s u d.toNat 0 true ∧ t = u.cancelPhase p)) ∧
    (x.extractLsb' 32 32 = 0xC000_0000 →
      (id ≠ 0 → Answers (.cancel a d) s fun t => GroupEffect s t d.toNat 2 true) ∧
      (id = 0 → Answers (.cancel a d) s fun t => (∃ u, GroupEffect s u d.toNat 0 true ∧
        t = u.cancelAll (s.launches.filter fun l => l.ctx == ctx && !l.complete))))) ∧
  (∀ (s : State) (ls : List Launch) (l : Launch), l ∈ ls → s.launch l.ctx l.id = some l → l.complete = false →
    ((s.cancelAll ls).launch l.ctx l.id).map (fun k => k.cancelled && k.stopping) = some true ∧ (s.cancelAll ls).mem = s.mem) ∧
  (∀ (s : State) (g : Graph), s.graph g.inst = some g →
    ((s.cancelGraph g).graph g.inst).map (fun x => x.closed && x.cancelled) = some true ∧
    ∀ l ∈ s.launches, s.launch l.ctx l.id = some l → l.graphInst = g.inst → l.complete = false →
      ((s.cancelGraph g).launch l.ctx l.id).map (fun k => k.cancelled && k.stopping) = some true) ∧
  (∀ (s : State) (p : Phase), s.phase p.inst = some p → (s.graphs.all fun g => g.phase != p.inst || g.complete) = true →
    ((s.cancelPhase p).phase p.inst).map (fun x => x.closed && x.cancelled && x.complete) = some true) ∧
  (∀ a d s, Clear (gNeed .core [d, a]) s →
    let x := s.me.readG a.toNat
    let ctx := s.me.ctx
    let id := x.extractLsb' 0 32
    (x.extractLsb' 32 30 ≠ 0 → Traps (.ccnt a d) s .illegalField) ∧
    (x.extractLsb' 32 30 = 0 → s.me.env.det = true → Traps (.ccnt a d) s .detViolation) ∧
    (x.extractLsb' 32 30 = 0 → s.me.env.det = false → Answers (.ccnt a d) s fun t =>
      GroupEffect s t d.toNat (s.count ctx (x.extractLsb' 62 2).toNat id) true)) ∧
  (∀ (s : State) (ctx : Nat) (id : Word), s.redeemRun ctx id = none →
    (s.launch ctx id = none → s.count ctx 0 id = 0xFFFF_FFFF) ∧
    (∀ l, s.launch ctx id = some l → l.complete = false → s.count ctx 0 id =
      BitVec.ofNat 64 ((if l.cancelled = true then 2 ^ 62 else 0) + (if l.faulted = true then 2 ^ 61 else 0) + s.unitsLeft l))) ∧
  (∀ (s : State) (ctx : Nat), s.count ctx 3 0 =
    BitVec.ofNat 64 (s.launches.filter fun l => l.ctx == ctx && !l.complete).length)

/-- How units and launches end (R105, R191, R201, R290, R295, R341): a slot is released once its agent has ended with nothing
under way, and the unit ends with its last; a launch completes, or commits, once every unit has ended and nothing of it is
under way (that timed stores, held records and undelivered fault records count as under way is log entry 45, DEDUCED); its
handle then receives one arrival, and its result word DONE, CANCELLED and FAULTED, unless a later record has taken its place;
SNAPM refuses outside a co-operative launch, and its milestone releases every group that waits, with its ordinal in g[D]; a
CTXSV saves a unit that stands at its stop points. -/
def Obligations.LaunchEndResults : Prop :=
  (∀ w s a, s.agent w = some a →
    let done := a.run = .ended ∧ a.kind ≠ .sup ∧ a.storeQ = [] ∧ a.atomics = [] ∧ a.arrivals = [] ∧ (∀ g ∈ a.gath, g.arrived = true)
    (¬done → exec (.slotRelease w) s = .refused .notDue) ∧
    (done → ((s.removeAgent w).allAgents.any fun b => b.unit == a.unit && b.kind != .sup) = true →
      exec (.slotRelease w) s = .next (s.removeAgent w)) ∧
    (done → ((s.removeAgent w).allAgents.any fun b => b.unit == a.unit && b.kind != .sup) = false →
      Answers (.slotRelease w) s fun t => ∀ x, s.unit a.unit = some x → (t.unit a.unit).map (fun y => y.ended) = some true)) ∧
  (∀ (ctx : Nat) (id : Word) (s : State) (l : Launch), s.launch ctx id = some l →
    (s.settled l = false → exec (.launchComplete ctx id) s = .refused .notDue ∧ exec (.launchCommit ctx id) s = .refused .notDue) ∧
    (s.settled l = true → l.replay = none → l.det = false → l.run = none → s.graph l.graphInst = none →
      Answers (.launchComplete ctx id) s fun t =>
        (t.context ctx).launchDone = (s.context ctx).launchDone + 1 ∧ (t.launch ctx id).map (fun k => k.complete) = some true) ∧
    (s.settled l = true → l.replay = none → l.det = false → l.run = none → s.graph l.graphInst = none →
      (∀ p ∈ (s.context ctx).heldPub, p.2 ≠ id) → Answers (.launchComplete ctx id) s fun t =>
        (∀ k, l.bar = some k → 1 ≤ (s.barrier k).pending → (s.barrier k).counted ≤ (s.barrier k).expected →
          t.barrier k = ({ s.barrier k with pending := (s.barrier k).pending - 1,
                                            cur := statusMerge (s.barrier k).cur 0 } : Barrier).settle.release) ∧
        (l.res = none → t.mem = s.mem) ∧
        ∀ i, l.res = some i →
          let n := 2 ^ ((s.ctxReg ctx 0x00F).extractLsb' 0 7).toNat
          let word := id.toNat + 2 ^ 62 + (if l.cancelled = true then 2 ^ 61 else 0) + (if l.faulted = true then 2 ^ 60 else 0)
          (i + n < (s.context ctx).taken → t.mem = s.mem) ∧
          ((s.context ctx).taken ≤ i + n →
            t.mem = (s.ctxWrite ctx ((s.ctxReg ctx 0x010).toNat % 2 ^ 56 + 0x40 + 8 * (i % n)) (leBytes 8 word)).mem)) ∧
    (s.settled l = true → l.replay.isSome = true → exec (.launchComplete ctx id) s = .refused .notDue) ∧
    (∀ r, s.settled l = true → l.replay = some r → l.det = false → (∀ p ∈ (s.context ctx).heldPub, p.2 ≠ id) →
      (∀ w ∈ r.staged, ∀ c ∈ w.cells, s.keyFault c.1 = none) → Answers (.launchCommit ctx id) s fun t =>
        (t.launch ctx id).map (fun k => (k.committed, k.replay)) = some (true, none) ∧
        t.mem = Memory.writeAll s.mem (r.staged.flatMap fun w => w.cells))) ∧
  (∀ d s, Clear (gNeed .core [d]) s →
    (s.me.env.coop = false → Answers (.snapm d) s fun t => GroupEffect s t d.toNat 0x8000_0000_0000_0001 true) ∧
    (s.me.env.coop = true → exec (.snapm d) s = .next { s with me := s.me.setWait (.snapm d.toNat) })) ∧
  (∀ (ctx : Nat) (id : Word) (s : State) (l : Launch), s.launch ctx id = some l →
    (l.coop = false ∨ l.stopping = true → exec (.snapmRelease ctx id) s = .refused .notDue) ∧
    (l.coop = true → l.stopping = false → l.rollback = none → lnUnits l.raw ≤ l.next →
      (∃ a ∈ s.launchAgents ctx id, a.run = .running ∧ a.anyWait Wait.isSnapm = true) →
      (∀ a ∈ s.launchAgents ctx id, a.atMilestone = true ∧ a.storeQ = [] ∧ a.atomics = []) →
      (∀ u ∈ s.unitsOf ctx id, u.saved = false ∧ u.preempt = none) →
      Answers (.snapmRelease ctx id) s fun t => (∀ a ∈ t.launchAgents ctx id, a.run = .running → a.anyWait Wait.isSnapm = false) ∧
        (l.det = false → ∀ n, s.unitsOf ctx id ≠ [] → (∀ u ∈ s.unitsOf ctx id, u.snaps = n) →
          ∀ a ∈ s.launchAgents ctx id, ∀ d, a.run = .running → a.wait = .snapm d → a.others = [] →
            ∃ b ∈ t.launchAgents ctx id, b.who = a.who ∧ b.wait = .none ∧ b.cur.pc = a.cur.pc + 4 ∧
              b.readG d = if d = 0 then 0 else BitVec.ofNat 64 (n + 1)))) ∧
  (∀ (u : UnitKey) (s : State) (x : WorkUnit) (w : Agent) (d : Nat) (im : BitVec 56), s.unit u = some x →
    (s.allAgents.find? fun a => match a.wait with | .ctxsv _ v _ => v == u | _ => false) = some w → w.wait = .ctxsv d u im →
    let mapped := s.supMapped im.toNat (s.imageLen x (s.liveAgents u)) true
    (x.ended = true → exec (.preemptionStop u) s = .next (s.setAgent (w.wake d 1))) ∧
    (x.ended = false → s.liveAgents u = [] ∨ s.atStop x = false → exec (.preemptionStop u) s = .refused .notDue) ∧
    (x.ended = false → s.liveAgents u ≠ [] → s.atStop x = true →
      (mapped = false → exec (.preemptionStop u) s =
        .next (((s.setUnit { x with preempt := none }).clearAsked u.ctx u.launch).setAgent (w.wake d 2))) ∧
      (mapped = true → exec (.preemptionStop u) s =
        .next (((s.standDown u).saveUnit x im w).setAgent (w.wake d 0)))))

/-! Tickets, updates and publication (R179, R262 to R274, R350 to R352). -/

/-- TICKET, TKDROP and TKQRY (R262 to R264): TICKET refuses an unbound launch, a redeem run and bad fields in that order,
then traps on a full shelf, else it writes the record of Table 2 at a free entry and gives its id; from TICKET and TKDROP on
their launch cannot be rolled back, whatever they answer (R342); TKDROP frees an entry whose redeem is not under way, after
which its id is unknown; TKQRY reads eight bytes of a record or of a model. -/
def Obligations.TicketResults : Prop :=
  (∀ a d s, Clear (gNeed .core [d, a]) s →
    let x := s.me.readG a.toNat
    let ea := (x.extractLsb' 0 32).toNat
    (2 ^ 32 ≤ x.toNat → Traps (.ticket a d) s .illegalField) ∧
    (x.toNat < 2 ^ 32 → ∀ c, s.image ea 64 = .error c → exec (.ticket a d) s = .next (addrTrap s c ea)) ∧
    (x.toNat < 2 ^ 32 → ∀ img l, s.image ea 64 = .ok img → s.launch s.me.ctx s.me.unit.launch = some l →
      let bad := 4095 < numAt img 12 4 ∨ 2 ^ 9 ≤ numAt img 4 2 ∨ ((numAt img 4 2).testBit 8 = true ∧ zeroAt img 40 59 = false)
      let u := s.exposeUnit s.me.unit
      (l.bound = none → Answers (.ticket a d) s fun t => GroupEffect u t d.toNat 0x8000_0000_0000_0001 true) ∧
      (l.bound.isSome = true → l.run.isSome = true →
        Answers (.ticket a d) s fun t => GroupEffect u t d.toNat 0x8000_0000_0000_0002 true) ∧
      (l.bound.isSome = true → l.run = none → bad →
        Answers (.ticket a d) s fun t => GroupEffect u t d.toNat 0x8000_0000_0000_0003 true) ∧
      (l.bound.isSome = true → l.run = none → ¬bad → u.freeShelf l.ctx = none →
        exec (.ticket a d) s = .next (takeTrap u .shelfFull)) ∧
      (l.bound.isSome = true → l.run = none → ¬bad → ∀ i, u.freeShelf l.ctx = some i →
        Answers (.ticket a d) s fun t => GroupEffect (u.issueTicket l i img).1 t d.toNat
          ((BitVec.ofNat 32 ((u.context l.ctx).shelfGenOf i * 2 ^ 26 + i)).setWidth 64) true)) ∧
    (x.toNat < 2 ^ 32 → ∀ img, s.image ea 64 = .ok img → s.launch s.me.ctx s.me.unit.launch = none →
      Answers (.ticket a d) s fun t => GroupEffect s t d.toNat 0x8000_0000_0000_0001 true)) ∧
  (∀ (s : State) (ctx i : Nat), s.freeShelf ctx = some i → i < s.shelfSize ctx ∧ i ∉ (s.context ctx).shelfUse) ∧
  (∀ (l : Launch) (id : Word) (img : List Byte), img.length = 64 →
    (ticketOf l id img).length = 64 ∧
    (ticketOf l id img).take 6 = leBytes 4 id.toNat ++ [1, img.getD 5 0] ∧
    ((ticketOf l id img).drop 6).take 10 = leBytes 2 l.model ++ leBytes 4 (l.bound.getD 0).toNat ++ (img.drop 12).take 4 ∧
    ((ticketOf l id img).drop 16).take 44 = leBytes 8 l.seed.toNat ++ (img.drop 24).take 36 ∧
    (ticketOf l id img).drop 60 = leBytes 4 (crc32c ((ticketOf l id img).take 60))) ∧
  (∀ a d s, Clear (gNeed .core [d, a]) s →
    let x := s.me.readG a.toNat
    let id := x.extractLsb' 0 32
    let u := s.exposeUnit s.me.unit
    (2 ^ 32 ≤ x.toNat → Traps (.tkdrop a d) s .illegalField) ∧
    (x.toNat < 2 ^ 32 → u.ticketEntry s.me.ctx id = none →
      Answers (.tkdrop a d) s fun t => GroupEffect u t d.toNat 2 true) ∧
    (x.toNat < 2 ^ 32 → ∀ i, u.ticketEntry s.me.ctx id = some i →
      (u.redeeming s.me.ctx id = true → Answers (.tkdrop a d) s fun t => GroupEffect u t d.toNat 3 true) ∧
      (u.redeeming s.me.ctx id = false → Answers (.tkdrop a d) s fun t =>
        GroupEffect (u.freeTicket s.me.ctx i) t d.toNat
          (if tkState (u.ticketRecord s.me.ctx i) = 1 then 0 else 1) true))) ∧
  (∀ (s : State) (ctx : Nat) (id : Word) (i : Nat), s.ticketEntry ctx id = some i →
    (s.freeTicket ctx i).ticketEntry ctx id = none) ∧
  (∀ b a d s, Clear (gNeed .core [d, a, b]) s →
    let x := s.me.readG a.toNat
    let sel := s.me.readG b.toNat
    let w := (sel.extractLsb' 0 4).toNat
    (32 ≤ sel.toNat → Traps (.tkqry b a d) s .illegalField) ∧
    (sel.toNat < 16 → 2 ^ 32 ≤ x.toNat ∨ 7 < w → Traps (.tkqry b a d) s .illegalField) ∧
    (16 ≤ sel.toNat → 256 ≤ x.toNat → Traps (.tkqry b a d) s .illegalField) ∧
    (sel.toNat < 8 → x.toNat < 2 ^ 32 →
      (s.ticketEntry s.me.ctx (x.extractLsb' 0 32) = none → Answers (.tkqry b a d) s fun t => GroupEffect s t d.toNat 0 true) ∧
      (∀ i, s.ticketEntry s.me.ctx (x.extractLsb' 0 32) = some i → Answers (.tkqry b a d) s fun t =>
        GroupEffect s t d.toNat (BitVec.ofNat 64 (numAt (s.ticketRecord s.me.ctx i) (8 * w) 8)) true)) ∧
    (16 ≤ sel.toNat → sel.toNat < 32 → x.toNat < 256 →
      let r := s.model s.me.ctx x.toNat
      Answers (.tkqry b a d) s fun t =>
        GroupEffect s t d.toNat (if mdTiles r = 0 then 0 else BitVec.ofNat 64 (recField r (8 * w) 8)) true))

/-- REDEEM and its run (R265 to R270): a bad operand, deterministic mode, the block and its handle are checked in this
order; then an unknown ticket, a wrong check word, bad parameters, a ticket that is not ISSUED, one too stale and a version
not retained; else a run starts with the next launch id. Whatever it answers, its launch cannot be rolled back from there on
(R342). A run that is not failing takes a free staging buffer of its graph entry in order, and after its backward graph
delivers one tile after another, under the control registers of its acceptance (R283). -/
def Obligations.RedeemResults : Prop :=
  (∀ b a d s, Clear (gNeed .core [d, a, b]) s →
    let x := s.me.readG a.toNat
    let y := s.me.readG b.toNat
    let ea := (y.extractLsb' 0 32).toNat
    let small := x.toNat < 2 ^ 32 ∧ y.toNat < 2 ^ 32
    (¬small → Traps (.redeem b a d) s .illegalField) ∧
    (small → s.me.env.det = true → Traps (.redeem b a d) s .detViolation) ∧
    (small → s.me.env.det = false → ∀ c, s.image ea 32 = .error c → exec (.redeem b a d) s = .next (addrTrap s c ea)) ∧
    (small → s.me.env.det = false → ∀ blk, s.image ea 32 = .ok blk →
      let h := BitVec.ofNat 16 (numAt blk 8 2)
      (h ≠ 0 → s.handle h = none → Traps (.redeem b a d) s .barrierHandle) ∧
      (∀ bar, s.cmdHandle h = .ok bar → exec (.redeem b a d) s = .next (s.redeem d (x.extractLsb' 0 32) blk bar h)))) ∧
  (∀ (s : State) (d : BitVec 7) (id : Word) (blk : List Byte) (bar : Option Nat) (h : Half),
    let ctx := s.me.ctx
    let u := s.exposeUnit s.me.unit
    (u.ticketEntry ctx id = none → s.redeem d id blk bar h = subTrap u .ticketUnknown 1) ∧
    ∀ i, u.ticketEntry ctx id = some i →
      let t := u.ticketRecord ctx i
      let g := u.redeemEntry ctx (tkGraph t)
      let m := u.model ctx (tkModel t)
      let cls := byteAt blk 10
      let p : RunPlan := ⟨ctx, tkKey t, if cls = 0xFF then none else some cls, s.me.place.die, (u.context ctx).nextId, tkModel t, tkVersion t⟩
      let bad := zeroAt blk 11 31 = false ∨ (4 ≤ cls ∧ cls ≠ 0xFF) ∨ 4095 < tkGraph t ∨ redeemEntryOk g = false ∨ mdTiles m = 0
        ∨ (u.recordsAt ctx (rgFwd g) (rgNfwd g)).any (u.runRecordBad p (u.runGraphIds ctx (u.context ctx).nextId).1) = true
        ∨ (u.recordsAt ctx (rgBwd g) (rgNbwd g)).any (u.runRecordBad p (u.runGraphIds ctx (u.context ctx).nextId).2) = true
      let delta := (mdVcur m - tkVersion t).toNat
      (ticketCrc t ≠ tkCheck t → s.redeem d id blk bar h = subTrap u .ticketUnknown 2) ∧
      (ticketCrc t = tkCheck t → bad → s.redeem d id blk bar h = takeTrap u .updateParam) ∧
      (ticketCrc t = tkCheck t → ¬bad → tkState t ≠ 1 → GroupEffect u (s.redeem d id blk bar h) d.toNat (2 ^ 32) true) ∧
      (ticketCrc t = tkCheck t → ¬bad → tkState t = 1 → 8 ≤ delta →
        GroupEffect (u.setTicketState ctx s.me.unit.launch u.me.holder i 3) (s.redeem d id blk bar h) d.toNat (2 ^ 33) true) ∧
      (ticketCrc t = tkCheck t → ¬bad → tkState t = 1 → delta < 8 → retained m (tkVersion t) = false →
        s.redeem d id blk bar h = takeTrap u .ticketVersionRetired) ∧
      (ticketCrc t = tkCheck t → ¬bad → tkState t = 1 → delta < 8 → retained m (tkVersion t) = true →
        let v := s.redeem d id blk bar h
        v.me.readG d.toNat = (if d = 0 then 0 else (u.context ctx).nextId.setWidth 64) ∧ v.me.cur.pc = s.me.cur.pc + 4 ∧
        (v.context ctx).runs.length = (u.context ctx).runs.length + 1 ∧
        ((v.context ctx).runs.getLast?).map (fun r => (r.id, r.ticket, r.model, r.version, r.delta, r.bar)) =
          some ((u.context ctx).nextId, id, tkModel t, tkVersion t, delta, bar) ∧
        ((v.context ctx).runs.getLast?).map (fun r => (r.buffer, r.done, r.ended, r.cancelled)) = some (none, 0, false, false))) ∧
  (∀ (ctx : Nat) (id : Word) (s : State) (r : RedeemRun),
    ((s.context ctx).runs.find? fun x => x.id == id && !x.ended) = some r →
    let u : State := { s with cr := crWith s.cr ctx r.regs }
    let Back := fun (i : Instr) (t : State) => exec i s = .next { t with cr := crWith t.cr ctx (s.regsOf ctx) }
    let rs := (s.context ctx).runs.filter fun x => !x.ended
    let first := (rs.find? fun x => x.entry == r.entry && x.buffer.isNone && !u.runFailing ctx x).map fun x => x.id
    let Free := fun b : Nat => b < rgNstage (u.redeemEntry ctx r.entry) ∧ ∀ x ∈ rs, x.entry = r.entry → x.buffer ≠ some b
    (r.buffer.isSome = true ∨ first ≠ some id → exec (.stagingBufferTake ctx id) s = .refused .notDue) ∧
    (r.buffer = none → first = some id →
      ((∀ b, ¬Free b) → exec (.stagingBufferTake ctx id) s = .refused .notDue) ∧
      ((∃ b, Free b) → ∃ b, Free b ∧ Back (.stagingBufferTake ctx id) (u.useFree.setRun ctx { r with buffer := some b }))) ∧
    let blocked := u.runFailing ctx r = true ∨ u.runFaulted ctx r = true ∨ (u.graph r.bwd).any Graph.complete = false ∨ u.answered r.die r.seq = false
    let m := u.model ctx r.model
    let e := r.issuer ctx
    let asked := u.updPeers e [mdGacc m + 65536 * r.done, r.bufferVa (mdTiles m) + 65536 * r.done]
      ++ u.peerKeysOf e 1 ((List.range 4).map fun j => mdGflags m + 16 * r.done + 4 + j)
    let t := u.deliverTile ctx r r.done
    (blocked → exec (.delivery ctx id) s = .refused .notDue) ∧
    (¬blocked → r.step = 2 → Back (.delivery ctx id) (u.tileDelivered ctx r)) ∧
    (¬blocked → r.step = 1 ∨ (r.step = 0 ∧ asked = []) →
      (metWait t.2.2 = true → Back (.delivery ctx id) (u.keepMisses t.1 r.die)) ∧
      (metWait t.2.2 = false → metLock t.2.2 = true ∨ u.commitPending r.die t.2.1 = true →
        exec (.delivery ctx id) s = .refused .notDue) ∧
      (metWait t.2.2 = false → metLock t.2.2 = false → u.commitPending r.die t.2.1 = false → t.2.1.any isPeerKey = false →
        Back (.delivery ctx id) ((t.1.reportDelivery ctx r t.2.2).tileDelivered ctx r)))) ∧
  (∀ (s : State) (ctx : Nat) (r : RedeemRun),
    let r' : RedeemRun := { r with done := r.done + 1, step := 0 }
    (r.done + 1 < mdTiles (s.model ctx r.model) → s.tileDelivered ctx r = s.setRun ctx r') ∧
    (mdTiles (s.model ctx r.model) ≤ r.done + 1 → s.tileDelivered ctx r = s.endRun ctx r' true))

/-- UPD, NORM, WVPUB and WVRET (R259, R271 to R274): MBZ bits, the block's address, its handles and its parameters are
checked in this order; a full queue holds the group back, else the command joins the update engine's queue. WVPUB makes the
version in the making current once all its tiles are committed; WVRET discards a retained version that is not current and
counts the tickets that record it. The steps of the update engine, of a replicated commit and of a digest exchange (R179,
R180, R271, R272, R352), under the control registers of the command's acceptance (R283): UPD starts once its norm barrier
has flipped, and with a sum that is no finite number drops its shard; a tile commits where its slot is not held, the engine
is free of higher classes and no read meets a lock; NORM adds its shard's sum; a commit takes its locks, then writes every
replica and counts; a command stalled at a lock for 40,000 dtu completes in error; equal digests agree, different ones are a
fault, and so is one that has not come after 40,000,000 dtu. That a poisoned NORMV counts as 0 is log entry 67 (DESIGN
CHOICE), and through which window NORMV is reached log entry 28 (DEDUCED). -/
def Obligations.UpdateResults : Prop :=
  ((∀ b a s, Clear (gNeed .core [a, b]) s →
     let ga := s.me.readG a.toNat
     let gb := s.me.readG b.toNat
     let h := gb.extractLsb' 0 16
     let ea := (ga.extractLsb' 0 32).toNat
     let small := ga.toNat < 2 ^ 32 ∧ gb.toNat < 2 ^ 16
     (¬small → Traps (.upd b a) s .illegalField ∧ Traps (.norm b a) s .illegalField) ∧
     (small → (∀ c, s.updImage ea 64 = .error c → exec (.upd b a) s = .next (addrTrap s c ea)) ∧
       (∀ c, s.updImage ea 16 = .error c → exec (.norm b a) s = .next (addrTrap s c ea))) ∧
     (small → ∀ bs, s.updImage ea 64 = .ok bs →
       let blk := BitVec.ofNat 512 (leNat bs)
       (h ≠ 0 → s.handle h = none → Traps (.upd b a) s .barrierHandle) ∧
       ∀ bar, s.cmdHandle h = .ok bar →
         (ubNormh blk ≠ 0 → s.handle (ubNormh blk) = none → Traps (.upd b a) s .barrierHandle) ∧
         ∀ nb, s.cmdHandle (ubNormh blk) = .ok nb →
           (s.shardBlockOk blk = false → Traps (.upd b a) s .updateParam) ∧
           (s.shardBlockOk blk = true → 64 ≤ (s.die s.me.place.die).updQ.length → exec (.upd b a) s = .next s) ∧
           (s.shardBlockOk blk = true → (s.die s.me.place.die).updQ.length < 64 → Answers (.upd b a) s fun t =>
             ∃ place, FlowEffect (s.acceptUpd false blk place (if nb.isSome = true then s.normPlace true (ubNormv blk) else none) bar h nb) t
               (s.me.cur.pc + 4) true ∧
             ∀ ks, s.odaBytes s.me (ea + 0x34) 4 = .ok ks → place = (odaKeys ks).head?)) ∧
     (small → ∀ bs, s.updImage ea 16 = .ok bs →
       let blk := BitVec.ofNat 512 (leNat bs)
       (h ≠ 0 → s.handle h = none → Traps (.norm b a) s .barrierHandle) ∧
       ∀ bar, s.cmdHandle h = .ok bar →
         (s.normBlockOk blk = false → Traps (.norm b a) s .updateParam) ∧
         (s.normBlockOk blk = true → 64 ≤ (s.die s.me.place.die).updQ.length → exec (.norm b a) s = .next s) ∧
         (s.normBlockOk blk = true → (s.die s.me.place.die).updQ.length < 64 → Answers (.norm b a) s fun t =>
           FlowEffect (s.acceptUpd true blk (s.normPlace false (nbNormv blk)) none bar h none) t (s.me.cur.pc + 4) true))) ∧
   (∀ (s : State) (n : Bool) (blk : BitVec 512) (o p bar nb : Option Nat) (h : Half),
     ∃ c, ((s.acceptUpd n blk o p bar h nb).die s.me.place.die).updQ = (s.die s.me.place.die).updQ ++ [c] ∧
       c.isNorm = n ∧ c.block = blk ∧ c.bar = bar ∧ c.normBar = nb ∧ c.unit = s.me.unit ∧ c.started = false ∧ c.done = 0) ∧
   (∀ a d s, Clear (gNeed .core [d, a]) s →
     let x := s.me.readG a.toNat
     let ctx := s.me.ctx
     let id := s.me.unit.launch
     let r := s.model ctx x.toNat
     let open' := x.toNat < 256 ∧ s.me.env.det = false ∧ mdTiles r ≠ 0
     (256 ≤ x.toNat → Traps (.wvpub a d) s .illegalField) ∧
     (x.toNat < 256 → s.me.env.det = true → Traps (.wvpub a d) s .detViolation) ∧
     (x.toNat < 256 → s.me.env.det = false → mdTiles r = 0 → Traps (.wvpub a d) s .updateParam) ∧
     (open' → (s.launch ctx id).all (fun l => !l.replayable) = true →
       (mdPend r ≠ mdTiles r ∨ s.digestFlag ctx x.toNat 1 = true →
         Answers (.wvpub a d) s fun t => GroupEffect s t d.toNat (BitVec.ofNat 64 (2 ^ 63 + mdPend r)) true) ∧
       (mdPend r = mdTiles r → s.digestFlag ctx x.toNat 1 = false → Answers (.wvpub a d) s fun t =>
         GroupEffect ((s.exchangeDigest ctx x.toNat id (mdVcur r + 1) (s.digestOf ctx x.toNat) s.now).publish ctx id s.me.holder x.toNat) t d.toNat
           ((mdVcur r + 1).setWidth 64) true)) ∧
     (open' → (s.launch ctx id).any (fun l => l.replayable) = true →
       ((x.toNat, id) ∈ (s.context ctx).heldPub → Traps (.wvpub a d) s .updateParam) ∧
       ((x.toNat, id) ∉ (s.context ctx).heldPub → mdPend r ≠ mdTiles r ∨ s.digestFlag ctx x.toNat 1 = true →
         Answers (.wvpub a d) s fun t => GroupEffect s t d.toNat (BitVec.ofNat 64 (2 ^ 63 + mdPend r)) true) ∧
       ((x.toNat, id) ∉ (s.context ctx).heldPub → mdPend r = mdTiles r → s.digestFlag ctx x.toNat 1 = false →
         Answers (.wvpub a d) s fun t =>
           (t.context ctx).heldPub = (s.context ctx).heldPub ++ [(x.toNat, id)] ∧
           t.me.readG d.toNat = if d = 0 then 0 else (mdVcur r + 1).setWidth 64))) ∧
   (∀ (s : State) (ctx m : Nat) (id version : Word) (dg : BitVec 128) (now : DWord),
     (s.digestFlag ctx m 0 = false → s.exchangeDigest ctx m id version dg now = s) ∧
     ∀ h : Holder, ((s.publish ctx id h m).context ctx).committed = (s.context ctx).committed.filter (fun x => x.model != m)) ∧
   (∀ b a d s, Clear (gNeed .core [d, a, b]) s →
     let x := s.me.readG a.toNat
     let y := s.me.readG b.toNat
     let ctx := s.me.ctx
     let r := s.model ctx x.toNat
     let v := y.extractLsb' 0 32
     let small := x.toNat < 256 ∧ y.toNat < 2 ^ 32
     let open' := small ∧ s.me.env.det = false ∧ mdTiles r ≠ 0
     let u := s.exposeUnit s.me.unit
     (¬small → Traps (.wvret b a d) s .illegalField) ∧
     (small → s.me.env.det = true → Traps (.wvret b a d) s .detViolation) ∧
     (small → s.me.env.det = false → mdTiles r = 0 → Traps (.wvret b a d) s .updateParam) ∧
     (open' → v = mdVcur r → Answers (.wvret b a d) s fun t => GroupEffect u t d.toNat 0x8000_0000_0000_0001 true) ∧
     (open' → v ≠ mdVcur r → retained r v = false →
       Answers (.wvret b a d) s fun t => GroupEffect u t d.toNat 0x8000_0000_0000_0002 true) ∧
     (open' → v ≠ mdVcur r → retained r v = true → Answers (.wvret b a d) s fun t =>
       GroupEffect (u.setModel s.me.unit s.me.holder x.toNat 6 1 (mdDisc r ||| 2 ^ (mdVcur r - v).toNat)) t d.toNat
         (BitVec.ofNat 64 (s.issuedTickets ctx x.toNat v)) true))) ∧
  ((∀ (die i : Nat) (s : State) (c : UpdCmd), (s.die die).updQ[i]? = some c →
     let u : State := { s with cr := crWith s.cr c.unit.ctx c.regs }
     let Back := fun (j : Instr) (t : State) => exec j s = .next { t with cr := crWith t.cr c.unit.ctx (s.regsOf c.unit.ctx) }
     let e := c.issuer die
     (s.answered die c.seq = false → exec (.updStart die i) s = .refused .notDue ∧ exec (.updTileCommit die i) s = .refused .notDue ∧
       exec (.normApply die i) s = .refused .notDue) ∧
     (s.answered die c.seq = true →
       (let waits := c.isNorm = true ∨ c.started = true ∨ c.normBar.any (fun b => (s.barrier b).phase == ubNpar c.block) = true
        let bad := c.normAt.any (fun k => s.poison.contains (k / 16)) = true
        let sum : Word := if bad then 0 else
          c.normAt.elim 0 fun k => BitVec.ofNat 32 (leNat ((List.range 4).map fun j => Memory.read s.mem (k + j)))
        let v := match c.normBar with | some b => u.setBarrier b (u.barrier b).release | none => u
        (waits → exec (.updStart die i) s = .refused .notDue) ∧
        (¬waits → Back (.updStart die i) (v.setUpd die i
          { c with started := true, sum := sum, normBar := none, skipped := (f32 sum).isNaN || (f32 sum).isInf,
                   status := if bad then errStatus .uncorrectable ||| 0x20 else 0 }))) ∧
       (let m := ubModel c.block
        let tile := ubTile0 c.block + c.done
        let r := u.commitTile e c tile
        let z := u.dropShard e c
        let Next := fun (t : State) (c' : UpdCmd) =>
          Back (.updTileCommit die i) (if ubNt c.block ≤ c.done + 1 then t.finishUpd die i c' else t.setUpd die i c')
        (c.started = false ∨ u.updYields die c = true → exec (.updTileCommit die i) s = .refused .notDue) ∧
        (c.started = true → c.skipped = true →
          (c.stage = 2 → Back (.updTileCommit die i) (u.finishUpd die i c)) ∧
          (c.stage ≠ 2 → u.updYields die c = false → metWait z.2.2 = false → metLock z.2.2 = false → u.commitPending die z.2.1 = false →
            z.2.1.any isPeerKey = false → Back (.updTileCommit die i) (z.1.finishUpd die i
              { c with status := statusMerge c.status z.2.2, stall := none, stage := 0 }))) ∧
        (c.started = true → c.skipped = false →
          (c.stage = 2 → Next u { c with done := c.done + 1, stage := 0 }) ∧
          (c.stage ≠ 2 → u.updYields die c = false → u.isCommitted c.unit.ctx m tile = true → Next u { c with done := c.done + 1, already := true, stage := 0 }) ∧
          (c.stage ≠ 2 → u.isCommitted c.unit.ctx m tile = false →
            (u.updRunnable c = false → exec (.updTileCommit die i) s = .refused .notDue) ∧
            (u.updRunnable c = true → u.updYields die c = false →
              c.stage = 1 ∨ (c.stage = 0 ∧ u.updPeers e (tileReads (u.model c.unit.ctx m) tile) = []) →
              (metWait r.2.2 = true → Back (.updTileCommit die i) (u.keepMisses r.1 die)) ∧
              (metWait r.2.2 = false → metLock r.2.2 = true →
                (c.stall.isSome = true → exec (.updTileCommit die i) s = .refused .notDue) ∧
                (c.stall = none → Back (.updTileCommit die i) (u.setUpd die i { c with stall := some (u.die die).time }))) ∧
              (metWait r.2.2 = false → metLock r.2.2 = false → u.commitPending die r.2.1 = true →
                exec (.updTileCommit die i) s = .refused .notDue) ∧
              (metWait r.2.2 = false → metLock r.2.2 = false → u.commitPending die r.2.1 = false → r.2.1.any isPeerKey = false →
                Next r.1 { c with done := c.done + 1, status := statusMerge c.status r.2.2, stall := none, stage := 0 }))))) ∧
       (let w := u.applyNorm e c
        let r := u.model c.unit.ctx (ubModel c.block)
        let tiles := (List.range (ubNt c.block)).map fun j => ubTile0 c.block + j
        let asked := u.updPeers e (tiles.map fun j => mdGacc r + 65536 * j)
          ++ u.peerKeysOf e 1 (tiles.flatMap fun j => (List.range 16).map fun b => mdGflags r + 16 * j + b)
        (c.isNorm = false ∨ u.updYields die c = true → exec (.normApply die i) s = .refused .notDue) ∧
        (c.isNorm = true → u.updYields die c = false → c.stage = 1 ∨ (c.stage = 0 ∧ asked = []) →
          (metWait w.2.2 = true → Back (.normApply die i) (u.keepMisses w.1 die)) ∧
          (metWait w.2.2 = false → metLock w.2.2 = true →
            (c.stall.isSome = true → exec (.normApply die i) s = .refused .notDue) ∧
            (c.stall = none → Back (.normApply die i) (u.setUpd die i { c with stall := some (u.die die).time }))) ∧
          (metWait w.2.2 = false → metLock w.2.2 = false → Back (.normApply die i) (w.1.endUpd die i
            { c with status := statusMerge c.status w.2.2, stall := none, stage := 0 })))))) ∧
   (∀ (s : State) (e : Issuer) (c : UpdCmd) (k : Nat), c.outAt = some k →
     let r := s.shardNorm e (s.model c.unit.ctx (ubModel c.block)) (ubNt c.block) (ubTile0 c.block) 0
     let old : Word := BitVec.ofNat 32 (leNat ((List.range 4).map fun j => Memory.read r.1.mem (k + j)))
     let p : Word := if r.2.2.1 = true then 0x7F80_0000 else r.2.1
     r.1.poison.contains (k / 16) = false →
     (r.1.regionBars e k = true → s.applyNorm e c = (r.1, [], statusMerge r.2.2.2 (errStatus .detViolation))) ∧
     (r.1.regionBars e k = false → s.applyNorm e c =
       ((r.1.launchWrite e.agent.ctx e.agent.unit.launch none (cellsAt k (leBytes 4 (faddW old p).toNat))).holdLines
         (.command e.agent.who e.seq) ((List.range 4).map fun i => k + i), [], statusMerge r.2.2.2 0))) ∧
   (∀ (i : Nat) (s : State) (c : Commit), s.commits[i]? = some c →
     let now := (s.die (s.dieOfUnit c.done.unit)).time
     (c.locked = true → exec (.replicaCommit i) s =
       .next ((List.range 8).foldl State.liftStalls (({ c.apply s with commits := s.commits.eraseIdx i } : State).endCommit c now))) ∧
     (c.locked = false → (∃ x ∈ s.commits, x.locked = true ∧ x.meets c = true) ∨ (c.missed = true ∧ s.commitLate c = false) →
       exec (.replicaCommit i) s = .refused .notDue) ∧
     (c.locked = false → (∀ x ∈ s.commits, x.locked = true → x.meets c = false) → c.missed = false ∨ s.commitLate c = true → exec (.replicaCommit i) s =
       .next { s with commits := s.commits.set i { c with locked := true, since := now } })) ∧
   (∀ (s : State) (c : Commit) (now : DWord),
     (c.timed = none → s.endCommit c now = s.complete c.done now) ∧
     (∀ T thr dest, c.timed = some (T, thr, dest) → s.isLate c.done.unit.ctx T (s.die dest).time = true → s.endCommit c now =
       (s.complete { c.done with status := c.done.status ||| 8 } now).reportLate c.done.unit dest T thr 0)) ∧
   (∀ (s : State) (die : Nat), (s.liftStalls die).mem = s.mem ∧ (s.liftStalls die).commits = s.commits ∧
     ∀ (i : Nat) (c : CopyCmd), (s.die die).copyQ[i]? = some c → c.stall.isSome = true → s.meetsLock die c.seq = false →
       ((s.liftStalls die).die die).copyQ[i]? = some { c with stall := none }) ∧
   (∀ (die q : Nat) (s : State),
     (s.stallOf die q = none → exec (.replicaLockTimeout die q) s = .refused .notDue) ∧
     ∀ T, s.stallOf die q = some T →
       let due := 40000 ≤ ((s.die die).time - T).toNat ∧ s.meetsLock die q = true
       (due → exec (.replicaLockTimeout die q) s = .next (s.failCommand die q .replicaLockTimeout)) ∧
       (¬due → exec (.replicaLockTimeout die q) s = .refused .notDue)) ∧
   (∀ (m ctx : Nat) (version : Word) (dg : BitVec 128) (chk : Word) (s : State) (w : WaitPub) (i : Nat),
     s.waitingPub ctx m = some w → s.digestItem ctx m version dg chk = some i →
     let u := ({ s with inbox := s.inbox.eraseIdx i } : State).dropWait ctx w
     (w.version ≠ version → exec (.digest m ctx version dg chk) s = .refused .notDue) ∧
     (w.version = version → w.digest = dg → exec (.digest m ctx version dg chk) s =
       .next ((u.ctxWrite ctx (u.digestAt ctx m + 4) (leBytes 4 version.toNat)).ctxWrite ctx (u.digestAt ctx m + 24) [0, 0, 0, 0])) ∧
     (w.version = version → w.digest ≠ dg → Answers (.digest m ctx version dg chk) s fun t =>
       t.pending.length = s.pending.length + 1 ∧ t.pending.getLast?.map (fun p => (p.cause, p.ctx, p.launch)) =
         some (.digestMismatch, ctx, w.launch))) ∧
   (∀ (ctx m : Nat) (s : State) (w : WaitPub), s.waitingPub ctx m = some w →
     let now := (s.die (s.firstDie ctx)).time
     (now.toNat < w.time.toNat + 40000000 → exec (.digestTimeout ctx m) s = .refused .notDue) ∧
     (w.time.toNat + 40000000 ≤ now.toNat → exec (.digestTimeout ctx m) s =
       .next (raiseAsync (s.dropWait ctx w) .linkDown ctx w.launch none ((s.launch ctx w.launch).any Launch.det) .none now 0))))

/-! Control registers, contexts, the supervisor's instructions and its traps (R279 to R285, R296, R301, R309 to R317, R345). -/

/-- CSRR, CSRW, CSRS and CSRC (R282, R283): a selector that is no register, one with MBZ bits set and one of level M trap; a
read gives the value; a write is checked against its register's MBZ fields and the context's incomplete launches, gives the
old value, and takes effect at once or, of a register whose change takes time, when that has passed. A register reads what
was written, its reserved bits as 0 (R3); a read-only one keeps its value. -/
def Obligations.ControlRegisterResults : Prop :=
  (∀ a d s, Clear (gNeed .sup [d, a]) s →
    (∀ c, selectorCause (s.me.readG a.toNat) = some c → Traps (.csrr a d) s c) ∧
    (selectorCause (s.me.readG a.toNat) = none → Answers (.csrr a d) s fun t =>
      GroupEffect s t d.toNat (s.csrRead (s.me.readG a.toNat)) true)) ∧
  (let Writes := fun (i : BitVec 7 → BitVec 7 → BitVec 7 → Instr) (n : Nat) (f : DWord → DWord → DWord) =>
    ∀ b a d s, Clear (gNeed .sup [d, a, b]) s →
      let x := s.me.readG a.toNat
      let old := s.csrRead x
      let new := f old (s.me.readG b.toNat)
      (∀ c, selectorCause x = some c → Traps (i b a d) s c) ∧
      (selectorCause x = none → ∀ c, s.csrTrap x old new = some c → Traps (i b a d) s c) ∧
      (selectorCause x = none → s.csrTrap x old new = none →
        (csrWaits (selNumber x) old new = false → Answers (i b a d) s fun t => GroupEffect (s.csrWrite x old new) t d.toNat old true) ∧
        (csrWaits (selNumber x) old new = true → exec (i b a d) s =
          .next { s with me := s.me.setWait (.csr d.toNat x n (s.me.readG b.toNat)) }))
   Writes .csrw 1 (fun _ x => x) ∧ Writes .csrs 2 (fun old x => old ||| x) ∧ Writes .csrc 3 (fun old x => old &&& ~~~x)) ∧
  (∀ (s : State) (x old new : DWord), selectorCause x = none →
    (csrReadOnly (selNumber x) = true → s.csrWrite x old new = s) ∧
    (csrReadOnly (selNumber x) = false → selNumber x ≠ 0x012 → (s.csrWrite x old new).csrRead x = new &&& csrMask (selNumber x))) ∧
  (∀ x : DWord, 0x016 ≤ selNumber x → selNumber x < 0x400 → selectorCause x = some .illegalField) ∧
  (∀ x : DWord, x.toNat < 2 ^ 12 → 0x800 ≤ x.toNat → x.toNat ≤ 0x848 → selectorCause x = some .privileged)

/-- The steps in which a write of a register takes effect (R281, R283, R309, R359): a context becomes valid empty; one ends once
its launches, all cancelled, have completed, and a write that has waited behind another which made the same change takes
effect on the other fields; a change of ASID or root table drops the translations of the old ASID on every
die and the limits of the context's xt registers, the copies in its queued row commands among them; the map of the fabric
and its routes are loaded from the supervisor's memory once no store to a peer is queued. -/
def Obligations.ContextSteps : Prop :=
  (∀ (ctx : Nat) (cfg : DWord) (s : State) (a : Agent) (d : Nat) (old new : DWord), s.csrWaiter ctx 0x000 = some (a, d, old, new) →
    let due := new = cfg ∧ old.getLsbD 0 = false ∧ new.getLsbD 0 = true ∧ ctx < 64
    (¬due → exec (.contextCreate ctx cfg) s = .refused .notDue) ∧
    (due → s.asidTaken ctx (s.asidOf ctx) = true → exec (.contextCreate ctx cfg) s = .next (s.trapWaiter a .illegalField)) ∧
    (due → s.asidTaken ctx (s.asidOf ctx) = false → ∃ u : State, exec (.contextCreate ctx cfg) s = .next (u.setAgent (a.wake d old)) ∧
      u.context ctx = Context.fresh ∧ u.ctxReg ctx 0x000 = new ∧ u.ctxReg ctx 0x005 = 0 ∧ u.ctxReg ctx 0x00D = 0 ∧
      u.ctxReg ctx 0x011 = 0x0019_5559 ∧ ∀ l ∈ u.launches, l.ctx ≠ ctx)) ∧
  (∀ (ctx : Nat) (s : State) (a : Agent) (d : Nat) (old new : DWord), s.csrWaiter ctx 0x000 = some (a, d, old, new) →
    let due := old.getLsbD 0 = true ∧ new.getLsbD 0 = false
    let ls := s.launches.filter fun l => l.ctx == ctx && !l.complete && !l.stopping
    let trap := s.csrTrap (BitVec.ofNat 64 (ctx * 4096)) old new
    (old.getLsbD 0 = false → new.getLsbD 0 = true → exec (.contextEnd ctx) s = .refused .notDue) ∧
    (old.getLsbD 0 = new.getLsbD 0 → (∀ c, trap = some c → exec (.contextEnd ctx) s = .next (s.trapWaiter a c)) ∧
      (trap = none → exec (.contextEnd ctx) s =
        .next (((s.moveTiles ctx old new).setCtxReg ctx 0x000 new).setAgent (a.wake d old)))) ∧
    (due → s.ctxBusy ctx = false → exec (.contextEnd ctx) s = .next ((s.setCtxReg ctx 0x000 new).setAgent (a.wake d old))) ∧
    (due → s.ctxBusy ctx = true → ls ≠ [] → exec (.contextEnd ctx) s = .next (s.cancelAll ls)) ∧
    (due → s.ctxBusy ctx = true → ls = [] → exec (.contextEnd ctx) s = .refused .notDue)) ∧
  (∀ (ctx : Nat) (asid : Bool) (value : DWord) (s : State) (a : Agent) (d : Nat) (old new : DWord),
    let n := if asid = true then 0x001 else 0x002
    s.csrWaiter ctx n = some (a, d, old, new) →
      (new ≠ value → exec (.asidChange ctx asid value) s = .refused .notDue) ∧
      (new = value → s.asidClash ctx n old new = true → exec (.asidChange ctx asid value) s = .next (s.trapWaiter a .illegalField)) ∧
      (new = value → s.asidClash ctx n old new = false → s.busyChange ctx n old new = true →
        exec (.asidChange ctx asid value) s = .next (s.trapWaiter a .contextBusy)) ∧
      (new = value → s.asidClash ctx n old new = false → s.busyChange ctx n old new = false →
        exec (.asidChange ctx asid value) s =
          .next (((((s.dropTlb (s.asidOf ctx) fun _ => true).dropXts (fun a => a.kind != .sup && a.ctx == ctx) (fun c => c == ctx)
            fun _ => true)).setCtxReg ctx n new).setAgent (a.wake d old)))) ∧
  (∀ (s : State) (asid : Half) (p : TlbEntry → Bool) (q : Xt → Bool),
    (∀ d, d < 9 → ∀ t ∈ ((s.dropTranslations asid p q).die d).tlb, t ∈ (s.die d).tlb ∧ ¬(t.asid = asid ∧ p t = true)) ∧
    (s.agentAsid s.me = asid → ∀ n, ((s.dropTranslations asid p (fun _ => true)).me.readXt n).limit = 0) ∧
    ∀ d, ∀ c ∈ ((s.dropTranslations asid p (fun _ => true)).die d).copyQ, s.asidOf c.unit.ctx = asid →
      ∀ g n em offs lbase rowb xt, c.work = .rows g n em offs lbase rowb xt → xt.limit = 0) ∧
  (∀ (value : DWord) (s : State) (a : Agent) (d : Nat) (old new : DWord),
    let held := new ≠ value ∨ s.storesToPeers = true
    (s.csrWaiter 0 0x880 = some (a, d, old, new) →
      (held → exec (.topoReload value) s = .refused .notDue) ∧
      (¬held → exec (.topoReload value) s = .next ((s.setDevReg 0x880 new).reloadMap.setAgent (a.wake d old)))) ∧
    (s.csrWaiter 0 0x881 = some (a, d, old, new) →
      (held → exec (.routesReload value) s = .refused .notDue) ∧
      (¬held → exec (.routesReload value) s = .next ((s.setDevReg 0x881 new).reloadMap.setAgent (a.wake d old))))) ∧
  (∀ s : State,
    let va := ((s.devReg 0x880).extractLsb' 12 44).toNat * 2 ^ 12
    let n := numAt (s.supRead va 64) 0 2
    s.reloadMap = { s with topo := s.supRead va (64 + 528 * n),
                           routes := s.supRead (((s.devReg 0x881).extractLsb' 12 44).toNat * 2 ^ 12) (128 * n) })

/-- A trap on a supervisor thread (R279): CR.SEPC takes the resume PC, CR.SCAUSE the cause in [7:0] and the detail in
[63:8], and the PC is CR.STVEC; no record is written. Nothing of the chain stands, on any agent (R53): the lane, g, xt and
scratch registers read as before it, the latches are void and nothing is held. A trap that lets its chain take effect
resumes at the next instruction. ERET goes on at CR.SEPC (R284). That bit 0 of STVEC and of SEPC counts as 0 there is the
model's reading (DEDUCED, log entry 35). -/
def Obligations.SupervisorTrapEntry : Prop :=
  (∀ (s : State) (c : Cause) (i : FaultInfo),
    let t := takeTrapWith s c i
    (∀ n l, t.me.readV n l = (Store.get Lanes.zero s.me.v n).at l) ∧
    (∀ n, t.me.readG n = if n = 0 then 0 else Store.get 0 s.me.g n) ∧
    (∀ n, t.me.readXt n = Store.get Xt.zero s.me.xt n) ∧ (∀ n, t.me.readScratch n = Store.get 0 s.me.scratch n) ∧
    t.me.cur.latches = .void ∧ t.me.cur.held = [] ∧ t.me.cur.pos = 0 ∧ t.me.cur.em = s.me.cur.headEm ∧
    t.me.retired = s.me.retired ∧ (∀ h ∈ t.me.heldG, h ∈ s.me.heldG ∧ h.sub ≠ s.me.cur.id) ∧
    (s.me.kind = .sup → s.me.cur.wait = .none → s.trapThread s.me c i = t)) ∧
  (∀ (s : State) (c : Cause) (i : FaultInfo), s.me.kind = .sup →
    let t := takeTrapWith s c i
    t.me.sepc = s.me.cur.headPc.setWidth 64 ∧
    t.me.scause.extractLsb' 0 8 = BitVec.ofNat 8 c.code ∧
    t.me.scause.extractLsb' 8 56 = (if 0x60 ≤ c.code ∧ c.code ≤ 0x65 then i.addr else i.detail).extractLsb' 0 56 ∧
    t.me.cur.pc = (s.me.stvec.extractLsb' 0 32 &&& 0xFFFF_FFFE) ∧ t.me.cur.pos = 0 ∧ t.me.cur.em = s.me.cur.headEm ∧
    t.me.stvec = s.me.stvec ∧ t.pending = s.pending ∧ t.mem = s.mem ∧ t.agents = s.agents) ∧
  (∀ (s : State) (c : Cause) (i : FaultInfo) (size : Nat), s.me.kind = .sup →
    let t := takeTrapAfter s c i size
    t.me.sepc = (s.me.cur.pc + BitVec.ofNat 32 size).setWidth 64 ∧ t.me.scause.extractLsb' 0 8 = BitVec.ofNat 8 c.code ∧
    t.me.cur.pc = (s.me.stvec.extractLsb' 0 32 &&& 0xFFFF_FFFE) ∧ t.pending = s.pending) ∧
  (∀ (s : State) (c : Cause) (i : FaultInfo), s.me.kind ≠ .sup →
    let t := takeTrapWith s c i
    t.me.run = .faulted ∧ t.me.cur.pc = s.me.cur.headPc ∧ t.me.cur.pos = 0 ∧ t.mem = s.mem ∧
    t.pending.length = s.pending.length + 1 ∧ t.pending.getLast?.map (fun p => (p.cause, p.headPc)) = some (c, s.me.cur.headPc)) ∧
  (∀ s, Clear (Need.of .sup) s → Answers .eret s fun t => FlowEffect s t (s.me.sepc.extractLsb' 0 32 &&& 0xFFFF_FFFE) true)

/-- TLBI, TLBIA, PREFW, ZERO, HALT, HIRQ and RTCHK (R284, R285, R315, R317, R359) with the steps that end them: an
invalidation drops translations once earlier stores and accesses already translated have performed; PREFW adds the leaf that
the page table has, if it is present and not retired, and sets nothing in it; ZERO answers 1 for a range that cannot be
zeroed, else it waits and its bytes then read 0; HALT waits for an interrupt; RTCHK reads its record as the thread reads memory
(R278: at a VA, where R284's row writes ODA; log entry 36), the bytes of a peer after asking for them. CTXSV, CTXLD, SNAPB and SNAPC (R296, R301,
R302, R345, R352): CTXSV asks a unit's agents to stop, unless it is not known, has ended or is saved already (1) or its
image has no place (2); CTXLD puts a saved unit back at a free place, with the generator windows that its context had (R127;
where they stand meanwhile is the model's choice, log entry 71), or gives its status, and first asks peers for the bytes of
an image in their memory (the order of its statuses, and its trap at poisoned bytes, are the model's reading, log entry 33);
SNAPB begins the snapshot of a launch of which nothing has started, SNAPC commits it, once a digest that it awaits and a
rollback under way have ended, or waits for its rollback. Where several contexts have an incomplete launch of one id, which
SNAPB and SNAPC name is open, and what SNAPC does during a rollback is the model's reading (log entry 36). -/
def Obligations.SupervisorResults : Prop :=
  ((∀ b a s, Clear (gNeed .sup [a, b]) s → s.me.storeQ = [] →
     let asid := (s.me.readG a.toNat).extractLsb' 0 16
     let va := ((s.me.readG b.toNat).extractLsb' 0 56).toNat
     let held := s.peerWrites s.me.who = true ∨ (∃ c ∈ s.agents, c.kind = .sup ∧ c.storeQ ≠ []) ∨
       ∃ r ∈ s.requests, isPeerKey r.key = true ∧
         ∃ g ∈ s.pagesAt asid va, g.1 ≤ (peerVa r.key).toNat ∧ (peerVa r.key).toNat < g.1 + g.2
     (held → exec (.tlbi b a) s = .next s) ∧
     (¬held → Answers (.tlbi b a) s fun t => t.me.cur.pc = s.me.cur.pc + 4 ∧ t.mem = s.mem ∧
       ∀ d, d < 9 → ∀ e ∈ (t.die d).tlb, e ∈ (s.die d).tlb ∧
         (e.asid = asid → e.base.toNat / pageSize e.level ≠ va / pageSize e.level))) ∧
   (∀ a s, Clear (gNeed .sup [a]) s → s.me.storeQ = [] →
     let x := s.me.readG a.toNat
     let held := s.peerWrites s.me.who = true ∨ (∃ c ∈ s.agents, c.kind = .sup ∧ c.storeQ ≠ []) ∨
       ∃ r ∈ s.requests, isPeerKey r.key = true
     (held → exec (.tlbia a) s = .next s) ∧
     (¬held → Answers (.tlbia a) s fun t => t.me.cur.pc = s.me.cur.pc + 4 ∧ t.mem = s.mem ∧
       (x.getLsbD 16 = true → ∀ d, d < 9 → (t.die d).tlb = []) ∧
       (x.getLsbD 16 = false → ∀ d, d < 9 → ∀ e ∈ (t.die d).tlb, e.asid ≠ x.extractLsb' 0 16))) ∧
   (∀ b a s, Clear (gNeed .sup [a, b]) s → Answers (.prefw b a) s fun t =>
     let x := s.me.readG a.toNat
     let asid := x.extractLsb' 0 16
     let d := (x.extractLsb' 17 3).toNat
     let va := (s.me.readG b.toNat).extractLsb' 0 56
     let adds := fun f : Found => (∃ root, s.rootOfAsid asid = some root ∧ walkFrom s.mem s.poison va 3 root.toNat = .ok f) ∧
       f.leaf.getLsbD 2 = true ∧ f.leaf.getLsbD 11 = false ∧
       ∀ e ∈ (s.die d).tlb, ¬(e.ptr = false ∧ e.asid = asid ∧ e.level = f.level ∧ e.base = pageBase f.level va)
     t.me.cur.pc = s.me.cur.pc + 4 ∧ t.mem = s.mem ∧ (∀ k, k ≠ d → t.die k = s.die k) ∧
     (∀ f, adds f → t.die d = { s.die d with
       tlb := (s.die d).tlb ++ [⟨false, asid, pageBase f.level va, f.level, f.leaf⟩] }) ∧
     ((∀ f, ¬adds f) → t.die d = s.die d)) ∧
   (∀ b a d s, Clear (gNeed .sup [d, a, b]) s →
     let pa := (s.me.readG a.toNat).toNat
     let n := (s.me.readG b.toNat).toNat
     (zeroRangeOk pa n = false → Answers (.zeroRange b a d) s fun t => GroupEffect s t d.toNat 1 true) ∧
     (zeroRangeOk pa n = true → exec (.zeroRange b a d) s = .next { s with me := s.me.setWait (.zero d.toNat pa n) })) ∧
   (∀ w s a d pa n, s.agent w = some a → a.wait = .zero d pa n → s.mem.wf = true → ∃ u : State,
     exec (.zeroComplete w) s = .next (u.setAgent (a.wake d 0)) ∧
     (∀ k, Memory.read u.mem k = if pa ≤ k ∧ k < pa + n then 0 else Memory.read s.mem k) ∧ u.me = s.me ∧ u.dies = s.dies) ∧
   (∀ w s a, s.agent w = some a → (∀ d pa n, a.wait ≠ .zero d pa n) → exec (.zeroComplete w) s = .refused .notDue) ∧
   (∀ s, Clear (Need.of .sup) s → exec .halt s = .next { s with me := s.me.setWait .halt }) ∧
   (∀ w s a, s.agent w = some a →
     (a.wait ≠ .halt → exec (.haltResume w) s = .refused .notDue) ∧
     (a.wait = .halt → ∃ b : Agent, exec (.haltResume w) s = .next (s.setAgent b) ∧ b.who = a.who ∧ b.wait = .none ∧
       b.cur.pc = a.cur.pc + 4 ∧ ∀ k, b.readG k = a.readG k)) ∧
   (∀ a s, Clear (gNeed .sup [a]) s →
     let x := s.me.readG a.toNat
     let mbz := x.extractLsb' 11 5 ≠ 0 ∨ x.extractLsb' 17 47 ≠ 0
     (mbz → Traps (.hirq a) s .illegalField) ∧
     (¬mbz → Answers (.hirq a) s fun t =>
       FlowEffect { s with msix := s.msix ++ [(x.getLsbD 16, (x.extractLsb' 0 11).toNat)] } t (s.me.cur.pc + 4) true)) ∧
   (∀ a d s, Clear (gNeed .sup [d, a]) s →
     let r := s.routeImage ((s.me.readG a.toNat).extractLsb' 0 56) 32
     (r.2 = .error none → exec (.rtchk a d) s = .next r.1) ∧
     (∀ c va, r.2 = .error (some (c, va)) → exec (.rtchk a d) s = .next (supTrap r.1 c va)) ∧
     (∀ ks, r.2 = .ok ks → (∃ k ∈ ks, isPeerKey k = true) → exec (.rtchk a d) s =
       .next ({ r.1 with me := r.1.me.setWait (.rtchk d.toNat ((s.me.readG a.toNat).extractLsb' 0 56)) }.sendReads
         (ks.filter isPeerKey) (supRequest r.1.me (r.1.die r.1.me.place.die).time))) ∧
     (∀ ks, r.2 = .ok ks → (∀ k ∈ ks, isPeerKey k = false) → Answers (.rtchk a d) s fun t =>
       GroupEffect r.1 t d.toNat
         (BitVec.ofNat 64 ((routeCheck r.1.topo (ks.map (Memory.read r.1.mem))).elim 0 Cause.code)) true))) ∧
  ((∀ b a d s, Clear (gNeed .sup [d, a, b]) s →
     let x := s.me.readG a.toNat
     let va := (s.me.readG b.toNat).extractLsb' 0 56
     (2 ^ 58 ≤ x.toNat → Traps (.ctxsv b a d) s .illegalField) ∧
     (x.toNat < 2 ^ 58 → va.toNat % 256 ≠ 0 → exec (.ctxsv b a d) s = .next (supTrap s .align va)) ∧
     (x.toNat < 2 ^ 58 → va.toNat % 256 = 0 →
       (s.unit (saveTarget x) = none → Answers (.ctxsv b a d) s fun t => GroupEffect s t d.toNat 1 true) ∧
       ∀ u, s.unit (saveTarget x) = some u →
         let shut := u.ended = true ∨ u.saved = true ∨ u.kind = .sup ∨ u.preempt.isSome = true
         let mapped := s.supMapped va.toNat (s.imageLen u (s.liveAgents u.key)) true
         (shut → Answers (.ctxsv b a d) s fun t => GroupEffect s t d.toNat 1 true) ∧
         (¬shut → mapped = false → Answers (.ctxsv b a d) s fun t => GroupEffect s t d.toNat 2 true) ∧
         (¬shut → mapped = true → exec (.ctxsv b a d) s =
           .next { s.setUnit { u with preempt := some s.me.who } with me := s.me.setWait (.ctxsv d.toNat u.key va) }))) ∧
   (∀ b a d s, Clear (gNeed .sup [d, a, b]) s →
     let va := (s.me.readG a.toNat).extractLsb' 0 56
     let w := s.me.readG b.toNat
     let die := (w.extractLsb' 0 3).toNat
     let cl := (w.extractLsb' 3 2).toNat
     let size := numAt (s.imageRead va.toNat 256) 0x18 4
     let im := s.imageRead va.toNat size
     let plain := w.extractLsb' 5 3 = 0
     let header := s.supMapped va.toNat 256 false = true
     let sized := 0x1100 ≤ size ∧ size ≤ 2 ^ 24 ∧ s.supMapped va.toNat size false = true
     let asks := fun n : Nat => exec (.ctxld b a d) s = .next ((s.setAgent (s.me.setWait (.ctxld d.toNat va w n))).sendReads
       (s.imagePeers va.toNat n) (supRequest s.me (s.die s.me.place.die).time))
     let near := plain ∧ header ∧ s.imagePeers va.toNat 256 = []
     let clean := near ∧ s.supPoisoned va.toNat 256 = none
     let whole := clean ∧ sized ∧ s.imagePeers va.toNat size = []
     let there := whole ∧ s.supPoisoned va.toNat size = none
     let poisoned := fun v : BitVec 56 => exec (.ctxld b a d) s =
       .next (s.trapThread s.me .uncorrectable { FaultInfo.none with addr := v.setWidth 64 })
     (¬plain → Traps (.ctxld b a d) s .illegalField) ∧
     (plain → ¬header → Answers (.ctxld b a d) s fun t => GroupEffect s t d.toNat 4 true) ∧
     (plain → header → s.imagePeers va.toNat 256 ≠ [] → asks 256) ∧
     (near → ∀ v, s.supPoisoned va.toNat 256 = some v → poisoned v) ∧
     (clean → ¬sized → Answers (.ctxld b a d) s fun t => GroupEffect s t d.toNat 4 true) ∧
     (clean → sized → s.imagePeers va.toNat size ≠ [] → asks size) ∧
     (whole → ∀ v, s.supPoisoned va.toNat size = some v → poisoned v) ∧
     (there → s.unit (imageUnit im) = none → Answers (.ctxld b a d) s fun t => GroupEffect s t d.toNat 4 true) ∧
     (there → ∀ x, s.unit (imageUnit im) = some x →
       let cores := if x.kind = .csq then [] else placeCores w x.cores.length
       let st := s.restoreStatus x im die cl cores
       (st ≠ 0 → Answers (.ctxld b a d) s fun t => GroupEffect s t d.toNat (BitVec.ofNat 64 st) true) ∧
       (st = 0 → Answers (.ctxld b a d) s fun t =>
         (t.unit x.key).map (fun y => (y.saved, y.preempt, y.die, y.cluster, y.cores)) = some (false, none, die, cl, cores) ∧
         (t.context x.key.ctx).windows = x.windows))) ∧
   (∀ a d s, Clear (gNeed .sup [d, a]) s →
     let x := s.me.readG a.toNat
     let r := s.launchById (x.extractLsb' 0 32)
     (r = none → Answers (.snapb a d) s fun t => GroupEffect s t d.toNat 1 true) ∧
     (∀ l, r = some l → l.next ≠ 0 → Answers (.snapb a d) s fun t => GroupEffect s.useFree t d.toNat 1 true) ∧
     (∀ l, r = some l → l.next = 0 → s.launch l.ctx l.id = some l → Answers (.snapb a d) s fun t => t.me.cur.pc = s.me.cur.pc + 4 ∧
       (t.launch l.ctx l.id).map (fun k => k.replay.isSome && k.replayable) = some true)) ∧
   (∀ b a d s, Clear (gNeed .sup [d, a, b]) s →
     let r := s.launchById ((s.me.readG a.toNat).extractLsb' 0 32)
     let u := s.useFree
     (r = none → Answers (.snapc b a d) s fun t => GroupEffect s t d.toNat 1 true) ∧
     ∀ l, r = some l →
       let back := (s.me.readG b.toNat).getLsbD 0
       let held := l.rollback.isSome = true ∨ u.awaitsDigest l.ctx l.id = true
       (l.replay = none → Answers (.snapc b a d) s fun t => GroupEffect u t d.toNat 1 true) ∧
       (l.replay ≠ none → back = false → held → exec (.snapc b a d) s = .next s) ∧
       (l.replay ≠ none → back = false → ¬held → Answers (.snapc b a d) s fun t =>
         GroupEffect (u.commitLaunch l) t d.toNat 0 true) ∧
       (l.replay ≠ none → back = true → exec (.snapc b a d) s =
         let t := u.startRollback l false
         .next { t with me := t.me.setWait (.snapc d.toNat l.ctx l.id) })))

/-- Demand accesses and the page walker (R310 to R313): a cached leaf whose A is set, and D for a write, translates; a walk
that met contention answers so, once, to each access that shares it; an access that writes and reads needs both rights; a
miss waits while no slot is free, an older miss waits, or its walk takes steps
of its own (the model's choice, log entry 7); else its walk sets A, and D for a write, in a leaf that is Translated, caches
the pointer entries and the leaf, and answers the leaf's outcome. Of a walk in steps of its own: a waiting miss takes a slot
and reads its leaf if it is the oldest and a slot is free; a leaf whose A and D are set already is cached; a
compare-and-swap that finds the leaf as it was read sets them, the fifth that does not ends the walk as contended. -/
def Obligations.PageWalkResults : Prop :=
  (∀ (s : State) (u : Option UnitKey) (k : Asker) (die : Nat) (asid : Half) (root : DWord) (va : BitVec 56)
      (write reads : Bool),
    let d := s.die die
    let rd := s.replicaOf die asid
    let r := s.translate u k die asid root va write reads
    let hit := tlbFind d.tlb asid va write reads
    let met := fun w : Walk => (w ∈ d.contended ∧ s.walkIsFor w asid va = true) ∧ k ∈ w.askers
    let b := walkStart d.tlb asid va root
    let outcome := fun f => (leafOutcome rd f va write).needing reads
    let found := walkFrom s.mem s.poison va b.1 b.2
    let holds := s.mayWalk die asid va = false ∨ s.walkApart die asid va write = true
    (∀ t, hit = some t → r = (s, leafOutcome rd ⟨0, t.level, t.leaf⟩ va write)) ∧
    (hit = none → (∃ w, met w) → r.2 = .contention ∧ r.1.mem = s.mem ∧ (r.1.die die).tlb = d.tlb ∧
      ∀ who, k = .agent who → ∀ w ∈ (r.1.die die).contended, s.walkIsFor w asid va = true → k ∉ w.askers) ∧
    (hit = none → (∀ w, ¬met w) → holds → r = (s.queueMiss u k die asid va write reads, .waits)) ∧
    (hit = none → (∀ w, ¬met w) → ¬holds →
      (∀ o, found = .error o → r.2 = o ∧ r.1.mem = s.mem) ∧
      (∀ f, found = .ok f → (outcome f).leaf = none → r.2 = outcome f ∧ r.1.mem = s.mem) ∧
      (∀ f, found = .ok f → (outcome f).leaf ≠ none →
        let n := f.leaf ||| 0x20 ||| (if write = true then 0x40 else 0)
        r.2 = leafOutcome rd { f with leaf := n } va write ∧
        (n = f.leaf → r.1.mem = s.mem) ∧
        (u = none → n ≠ f.leaf → r.1.mem = Memory.writeAll s.mem (cellsAt f.leafAt (leBytes 8 n.toNat))) ∧
        (u = none → (r.1.die die).tlb.head? = some ⟨false, asid, pageBase f.level va, f.level, n⟩)))) ∧
  (∀ (die ctx : Nat) (va : BitVec 56) (write : Bool) (s : State),
    let ws := (s.die die).walks
    let found := ws.find? fun w => s.walkIsFor w (s.walkAsid ctx) va && w.write == write
    (found = none → exec (.pageWalk die ctx va write) s = .refused .notDue) ∧
    (∀ w, found = some w → w.granted = true → exec (.pageWalk die ctx va write) s = .next (s.walkCas die w)) ∧
    (∀ w, found = some w → w.granted = false →
      let first := ws.find? (fun x => !x.granted) = some w ∧ (ws.filter fun x => x.granted).length < (if die = 8 then 64 else 384)
      (first → exec (.pageWalk die ctx va write) s = .next (s.walkRead die { w with granted := true })) ∧
      (¬first → exec (.pageWalk die ctx va write) s = .refused .notDue))) ∧
  (∀ (s : State) (die : Nat) (w : Walk),
    let n := w.leaf ||| 0x20 ||| (if w.write = true then 0x40 else 0)
    let cells := cellsAt w.leafAt (leBytes 8 n.toNat)
    (readEntry s.mem w.leafAt = w.leaf → s.walkCas die w =
      ((s.endWalk die w).sysWrite w.unit cells).cacheLeaf die (s.walkAsid w.ctx) w.va w.level n) ∧
    (readEntry s.mem w.leafAt = w.leaf → w.unit = none → (s.walkCas die w).mem = Memory.writeAll s.mem cells ∧
      ((s.walkCas die w).die die).tlb = tlbInsert (s.die die).tlb ⟨false, s.walkAsid w.ctx, pageBase w.level w.va, w.level, n⟩) ∧
    (readEntry s.mem w.leafAt ≠ w.leaf → 5 ≤ w.attempt → (s.walkCas die w).mem = s.mem ∧
      ((s.walkCas die w).die die).contended = w :: (s.die die).contended) ∧
    (readEntry s.mem w.leafAt ≠ w.leaf → w.attempt < 5 → s.walkCas die w = s.walkRead die { w with attempt := w.attempt + 1 })) ∧
  (∀ (s : State) (die : Nat) (w : Walk),
    let asid := s.walkAsid w.ctx
    let b := s.attemptStart die w
    let t := s.walkRead die w
    let tlb := (walkPtrs s.mem s.poison w.va b.1 b.2).foldl
      (fun l e => tlbInsert l ⟨true, asid, pageBase e.1 w.va, e.1, e.2⟩) (s.die die).tlb
    let found := walkFrom s.mem s.poison w.va b.1 b.2
    t.mem = s.mem ∧
    (1 < w.attempt → b = (3, (s.walkRoot w.ctx).toNat)) ∧
    (∀ o, found = .error o → (t.die die).tlb = tlb) ∧
    (∀ f, found = .ok f →
      (((leafOutcome die f w.va w.write).needing w.reads).leaf = none → (t.die die).tlb = tlb) ∧
      (((leafOutcome die f w.va w.write).needing w.reads).leaf ≠ none →
        (markLeaf f.leaf w.write = f.leaf →
          (t.die die).tlb = tlbInsert tlb ⟨false, asid, pageBase f.level w.va, f.level, f.leaf⟩) ∧
        (markLeaf f.leaf w.write ≠ f.leaf → (t.die die).tlb = tlb ∧
          (t.die die).walks.getLast?.map (fun x => (x.leafAt, x.level, x.leaf, x.granted, x.attempt)) =
            some (f.leafAt, f.level, f.leaf, w.granted, w.attempt))))) ∧
  (∀ (s : State) (u : Option UnitKey) (k : Asker) (die : Nat) (asid : Half) (va : BitVec 56) (write reads : Bool),
    let ws := (s.die die).walks
    let ts := ((s.queueMiss u k die asid va write reads).die die).walks
    ((∃ w ∈ ws, s.walkIsFor w asid va = true) → ts.length = ws.length ∧
      ∀ w ∈ ts, s.walkIsFor w asid va = true → k ∈ w.askers) ∧
    ((∀ w ∈ ws, s.walkIsFor w asid va = false) → ts.length = ws.length + 1 ∧
      ts.getLast?.map (fun w => (w.va, w.write, w.reads, w.granted, w.attempt, w.askers)) =
        some (va, write, reads, false, 1, [k]))) ∧
  (∀ (die : Nat) (s : State),
    let ws := (s.die die).walks
    let next := ws.find? fun w => !w.granted
    let free := (ws.filter fun x => x.granted).length < (if die = 8 then 64 else 384)
    (next = none → exec (.walkSlotGrant die) s = .refused .notDue) ∧
    ∀ w, next = some w →
      (¬free → exec (.walkSlotGrant die) s = .refused .notDue) ∧
      (free → exec (.walkSlotGrant die) s = .next (s.walkRead die { w with granted := true })))

/-! Faults and their policies, the host's ports (R287 to R290, R323 to R331, R343). -/

/-- The fault record and the fault ring (R323, R324): each field of a record is what the fault says; a record enters the
ring while there is room and none waits, waits behind the others, or, with 64 waiting, is counted as lost; the oldest that
waits enters once there is room. A fault's delivery applies its policy and its record goes to the ring, once the cycle of a
deterministic block in which it arose has passed (R325; log entry 73); a launch that already ends, or is not known, has
policy 3, but for a merge conflict and a fault of a run's delivery. The policies are those that stood at the unit's admission
(R283), and of a fault that names no unit those of its launch's first unit that stands (the model's reading, log entry 70); a
digest mismatch that cannot be replayed kills (R352). -/
def Obligations.FaultDelivery : Prop :=
  (∀ (p : Pending) (policy : Nat) (again : Bool),
    let r := recordOf p policy again
    r.extractLsb' 0 8 = BitVec.ofNat 8 p.cause.code ∧
    r.extractLsb' 8 8 = (match p.kind with | .precise => 0 | .postEffect => 1 | .asynchronous => 2) ∧
    r.extractLsb' 18 1 = (if again = true then 1 else 0) ∧ r.extractLsb' 20 1 = (if p.throttled = true then 1 else 0) ∧
    r.extractLsb' 56 8 = BitVec.ofNat 8 policy ∧
    r.extractLsb' 64 32 = p.launch ∧ r.extractLsb' 96 32 = BitVec.ofNat 32 (p.unit.getD 0xFFFF_FFFF) ∧
    r.extractLsb' 160 32 = p.em ∧ r.extractLsb' 192 32 = p.headPc ∧ r.extractLsb' 224 32 = p.pc ∧
    r.extractLsb' 256 64 = p.addr ∧ r.extractLsb' 320 64 = p.detail ∧ r.extractLsb' 384 64 = p.aux ∧
    r.extractLsb' 448 64 = p.time) ∧
  (∀ (s : State) (p : Nat) (r : BitVec 512),
    let q := s.part p
    (q.waiting = [] → s.faultFull p = false → s.emitRecord p r = s.writeRecord p r) ∧
    (q.waiting ≠ [] ∨ s.faultFull p = true → q.waiting.length < 64 →
      (s.emitRecord p r).part p = { q with waiting := q.waiting ++ [r] } ∧ (s.emitRecord p r).mem = s.mem) ∧
    (64 ≤ q.waiting.length → (s.emitRecord p r).part p = { q with lost := q.lost + 1, lostFlag := true })) ∧
  (∀ (s : State) (p : Nat) (r : BitVec 512), ((s.writeRecord p r).part p).faultTail = (s.part p).faultTail + 1 ∧
    ((s.writeRecord p r).part p).lostFlag = false) ∧
  (∀ (p : Nat) (s : State),
    ((s.part p).waiting = [] ∨ s.faultFull p = true → exec (.faultRingDrain p) s = .refused .notDue) ∧
    (∀ r rest, (s.part p).waiting = r :: rest → s.faultFull p = false → exec (.faultRingDrain p) s =
      .next ((s.setPart p { s.part p with waiting := rest }).writeRecord p r))) ∧
  (∀ (s : State), s.pending = [] → exec .faultRecordDeliver s = .refused .notDue) ∧
  (∀ (s : State) (p : Pending) (rest : List Pending), s.pending = p :: rest → s.recordSettled p = false →
    exec .faultRecordDeliver s = .refused .notDue) ∧
  (∀ (s : State) (p : Pending), s.recordSettled p = true ↔
    (p.cycle = none ∨ ∀ i, p.unit = some i → ∀ u ∈ s.units, u.key = ⟨p.ctx, p.launch, i⟩ → u.ended = true)) ∧
  (∀ (s : State) (p : Pending) (rest : List Pending), s.pending = p :: rest → s.recordSettled p = true →
    let u : State := { s with pending := rest }
    (s.launch p.ctx p.launch = none → exec .faultRecordDeliver s =
      .next ((u.landAgent p.who Agent.land).emitRecord (s.partOf p.ctx) (recordOf p (p.policy.getD 3) false))) ∧
    (∀ l, s.launch p.ctx p.launch = some l → p.policy = none →
      let policy := u.policyFor l p.unit p.cause
      exec .faultRecordDeliver s = .next ((u.applyPolicy p l policy).emitRecord (s.partOf p.ctx)
        (recordOf p policy (decide (0 < l.replays))))) ∧
    (∀ l n, s.launch p.ctx p.launch = some l → p.policy = some n → exec .faultRecordDeliver s =
      .next ((u.landAgent p.who Agent.land).emitRecord (s.partOf p.ctx) (recordOf p n (decide (0 < l.replays)))))) ∧
  (∀ (s : State) (l : Launch) (unit : Option Nat) (c : Cause),
    let n := ((s.policyReg l.ctx l.id unit).toNat / 4 ^ causeClass c) % 4
    let ends := l.cancelled = true ∨ l.stopping = true ∨ l.rollback.isSome = true ∨
      (l.complete = true ∧ c ≠ .mergeConflict ∧ s.inRun l = false)
    let can := l.replay.isSome = true ∧ l.replays < (if c = .digestMismatch then 1 else 2)
    (ends → s.policyFor l unit c = 3) ∧
    (¬ends → c = .digestMismatch → ¬can → s.policyFor l unit c = 1) ∧
    (¬ends → c ≠ .digestMismatch ∨ can →
      (n = 0 → s.policyFor l unit c = 0) ∧ (n = 1 → s.policyFor l unit c = 1) ∧
      (n = 2 → ¬can → s.policyFor l unit c = 1) ∧ (n = 2 → can → s.policyFor l unit c = 2))) ∧
  (∀ (s : State) (ctx : Nat) (id : Word) (unit : Option Nat),
    let mine := fun u : WorkUnit => u.key.ctx = ctx ∧ u.key.launch = id ∧ ∀ i, unit = some i → u.key.index = i
    (∀ u, s.units.find? (fun u => decide (u.key.ctx = ctx) && decide (u.key.launch = id) && unit.all fun i => u.key.index == i) = some u →
      s.policyReg ctx id unit = u.env.fpol) ∧
    ((∀ u ∈ s.units, ¬mine u) → s.policyReg ctx id unit = s.ctxReg ctx 0x011))

/-- What the policies do (R327 to R329): STOP leaves the faulting agent at its chain's head, stopped, its launch FAULTED;
KILL ends the launch; REPLAY rolls it back. Writes of CR.FACT act on a launch (R330): none, KILL, REPLAY of one that stands
pending or can be replayed, and RESUME of its stopped groups. Rollback (R343): once its units have ended and its commands
have counted, the copied pages stand again as they were and every other byte is unchanged; the launch is as it was accepted,
counted as replayed or held; a SNAPC that awaited it goes on, and a write of CR.FACT with REPLAY where the launch is replayed.
A launch that its graph's end has completed reads FAULTED, and under KILL its run ends without delivery (R270, R333, R334). -/
def Obligations.FaultActions : Prop :=
  ((∀ (s : State) (p : Pending) (l : Launch) (w : Who) (a : Agent), s.launch l.ctx l.id = some l → p.who = some w →
     s.agent w = some a → a.run = .faulted → l.complete = false →
     let t := s.applyPolicy p l 0
     (t.launch l.ctx l.id).map (fun k => k.faulted) = some true ∧
     ∃ b, t.agent w = some b ∧ b.run = .stopped ∧
       (a.cur.wait = .none ∨ a.cur.wait.discardable = true → b.cur.pc = a.cur.headPc ∧ b.cur.em = a.cur.headEm ∧ b.cur.pos = 0)) ∧
   (∀ (s : State) (p : Pending) (l : Launch),
     (l.complete = false → s.applyPolicy p l 1 = (s.killLaunch l).landAgent p.who Agent.land) ∧
     (l.complete = true → s.applyPolicy p l 0 = s.faultComplete l ∧
       (l.run = none → s.applyPolicy p l 1 = (s.faultComplete { l with stopping := true }).faultGraph l) ∧
       (∀ id, l.run = some id → s.applyPolicy p l 1 =
         ((s.faultComplete { l with stopping := true }).faultGraph l).settleRun l.ctx id)) ∧
     s.applyPolicy p l 2 = (s.startRollback { l with faulted := true } true).landAgent p.who Agent.land ∧
     s.applyPolicy p l 3 = s.landAgent p.who Agent.land) ∧
   (∀ a : Agent, (a.between.waitsNot = true → a.land = a.stopNow) ∧
     (a.between.waitsNot = false → a.land.run = .running) ∧ a.stopNow.run = .ended ∧ a.stopNow.cur.pc = a.cur.headPc) ∧
   (∀ (s : State) (l : Launch), s.launch l.ctx l.id = some l → l.complete = false → s.graph l.graphInst = none → l.graphInst = 0 →
     ((s.killLaunch l).launch l.ctx l.id).map (fun k => (k.faulted, k.stopping)) = some (true, true)) ∧
   (∀ (ctx : Nat) (id : Word) (s : State) (a : Agent) (d : Nat), s.factWaiter ctx id 0 = some (a, d) →
     exec (.factNone ctx id) s = .next (s.setAgent (a.wake d 0))) ∧
   (∀ (ctx : Nat) (id : Word) (s : State) (a : Agent) (d : Nat), s.factWaiter ctx id 1 = some (a, d) →
     (s.factLaunch ctx id = none → exec (.factKill ctx id) s = .next (s.setAgent (a.wake d 0))) ∧
     ∀ l, s.factLaunch ctx id = some l →
       (l.stopping = true → exec (.factKill ctx id) s = .refused .notDue) ∧
       (l.stopping = false → exec (.factKill ctx id) s = .next (s.killLaunch { l with rollback := none }))) ∧
   (∀ (ctx : Nat) (id : Word) (s : State) (a : Agent) (d : Nat), s.factWaiter ctx id 2 = some (a, d) →
     (s.factLaunch ctx id = none → exec (.factReplay ctx id) s = .next (s.setAgent (a.wake d 0))) ∧
     ∀ l, s.factLaunch ctx id = some l →
       let can := l.stopping = false ∧ l.replay.isSome = true ∧ l.replays < 2
       let held := l.held = true ∧ l.replays < 2
       (l.rollback.isSome = true → exec (.factReplay ctx id) s = .refused .notDue) ∧
       (l.rollback = none → held → exec (.factReplay ctx id) s =
         .next ((s.setLaunch { l with held := false, replays := l.replays + 1 }).setAgent (a.wake d 0))) ∧
       (l.rollback = none → ¬held → can → exec (.factReplay ctx id) s = .next (s.startRollback l true)) ∧
       (l.rollback = none → ¬held → ¬can → l.stopping = false →
         exec (.factReplay ctx id) s = .next (s.killLaunch { l with rollback := none })) ∧
       (l.rollback = none → ¬held → l.stopping = true → exec (.factReplay ctx id) s = .refused .notDue)) ∧
   (∀ (ctx : Nat) (id : Word) (s : State) (a : Agent) (d : Nat), s.factWaiter ctx id 3 = some (a, d) →
     (s.factLaunch ctx id = none → exec (.factResume ctx id) s = .next (s.setAgent (a.wake d 0))) ∧
     (∀ l, s.factLaunch ctx id = some l → Answers (.factResume ctx id) s fun t => t.mem = s.mem ∧
       ∀ b ∈ t.allAgents, b.kind ≠ .sup → b.unit.ctx = ctx → b.unit.launch = id → b.run ≠ .stopped))) ∧
  ((∀ (ctx : Nat) (id : Word) (s : State) (l : Launch), s.launch ctx id = some l →
     (l.rollback = none → s.snapcWaits ctx id = false → exec (.rollback ctx id) s = .refused .notDue) ∧
     (l.rollback = none → s.snapcWaits ctx id = true → exec (.rollback ctx id) s = .next (s.wakeRollback ctx id false)) ∧
     (∀ again, l.rollback = some again →
       let due := (∀ u ∈ s.unitsOf ctx id, u.ended = true) ∧ s.busyFor ctx id = false ∧ l.complete = false
       (¬due → exec (.rollback ctx id) s = .refused .notDue) ∧
       (due → exec (.rollback ctx id) s = .next ((s.rollback l again).wakeRollback ctx id again)))) ∧
   (∀ (s : State) (ctx : Nat) (id : Word) (again : Bool),
     let t := s.wakeRollback ctx id again
     (∀ d, s.me.wait = .snapc d ctx id → t.me = s.me.wake d 0) ∧
     (∀ d, s.me.wait.fact ctx id 2 = some d → t.me = if again = true then s.me.wake d 0 else s.me) ∧
     ((∀ d, s.me.wait ≠ .snapc d ctx id) → s.me.wait.fact ctx id 2 = none → t.me = s.me)) ∧
   (∀ (s : State) (r : Replay), let copies := r.copies
     s.mem.wf = true → (∀ c ∈ copies, ∀ m ∈ c.2, m.1 / 2 ^ 16 = c.1) →
     (copies.map fun c => c.1).Nodup → (∀ c ∈ copies, Memory.wf c.2 = true) →
     (s.restorePages r).mem.wf = true ∧
     (∀ k, (∀ c ∈ copies, c.1 ≠ k / 2 ^ 16) → Memory.read (s.restorePages r).mem k = Memory.read s.mem k) ∧
     (∀ c ∈ copies, ∀ k, k / 2 ^ 16 = c.1 → Memory.read (s.restorePages r).mem k = Memory.read c.2 k)) ∧
   (∀ l : Launch, l.again.next = 0 ∧ l.again.passed = [] ∧ l.again.replay = none ∧ l.again.rollback = none ∧ l.again.stopping = false ∧
     l.again.id = l.id ∧ l.again.raw = l.raw ∧ l.again.replays = l.replays))

/-- The host's ports (R286 to R290, R369): a submission ring's next record is taken unless the pools are full, and each new
value of PROD that is too far ahead is reported; HSEM is held by the port that claims it while it is free, and is released
by its owner's token alone or with its link; a control write from a port that does not hold it is dropped and reported, and
one from its owner is kept (log entry 37); an access through HDM writes or returns its bytes; a report appears for a nonce.
-/
def Obligations.HostPortResults : Prop :=
  (∀ (ctx : Nat) (s : State), ctx < 64 → s.ctxValid ctx = true → s.ringLog ctx ≠ 0 →
    let i := (s.context ctx).taken
    let prod := BitVec.ofNat 32 (s.ctxNum ctx (s.watchBase ctx) 4)
    let ahead := (prod - BitVec.ofNat 32 i).toNat
    let seen : Out := if (s.context ctx).badProd = none then .refused .notDue
      else .next (s.setContext ctx { s.context ctx with badProd := none })
    (ahead = 0 → exec (.submissionRingTake ctx) s = seen) ∧
    (2 ^ s.ringLog ctx < ahead → (s.context ctx).badProd ≠ some prod → Answers (.submissionRingTake ctx) s fun t =>
      t.pending.getLast?.map (fun p => (p.cause, p.ctx)) = some (.queueEntry, ctx) ∧ (t.context ctx).badProd = some prod ∧
      t.mem = s.mem) ∧
    (2 ^ s.ringLog ctx < ahead → (s.context ctx).badProd = some prod → exec (.submissionRingTake ctx) s = .refused .notDue) ∧
    (0 < ahead → ahead ≤ 2 ^ s.ringLog ctx →
      (s.answer ctx (s.ringDraft ctx i) = .error 3 → exec (.submissionRingTake ctx) s = seen) ∧
      (∀ n, n ≠ 3 → s.answer ctx (s.ringDraft ctx i) = .error n → exec (.submissionRingTake ctx) s =
        .next (s.ringTaken ctx i (BitVec.ofNat 64 (2 ^ 63 + n)))) ∧
      (∀ t, s.answer ctx (s.ringDraft ctx i) = .ok t → exec (.submissionRingTake ctx) s =
        .next (t.ringTaken ctx i ((s.context ctx).nextId.setWidth 64))))) ∧
  (∀ (s : State) (ctx i : Nat) (res : DWord), ((s.ringTaken ctx i res).context ctx).taken = i + 1) ∧
  (∀ (port : Bool) (tok : Half) (s : State), s.hsem.up port = true →
    (∀ o t', s.agenda.head? ≠ some (.event (.hsemClaim o t'))) →
    (s.hsem.held = true ∨ s.hsemLocked = true → exec (.hsemClaim port tok) s = .next s) ∧
    (s.hsem.held = false → s.hsemLocked = false →
      exec (.hsemClaim port tok) s = .next { s with hsem := { s.hsem with held := true, port := port, token := tok } })) ∧
  (∀ (port : Bool) (tok tok' : Half) (r : List Turn) (s : State), s.hsem.up port = true → s.hsem.up (!port) = true →
    s.hsem.held = false → s.hsemLocked = false → s.agenda = .event (.hsemClaim (!port) tok') :: r →
    let winner := s.hsem.lastLost.getD false
    let h : Hsem := { s.hsem with held := true, port := winner, token := if winner = port then tok else tok', lastLost := some (!winner) }
    exec (.hsemClaim port tok) s = .next { s with agenda := r, hsem := h }) ∧
  (∀ (port : Bool) (tok : Half) (s : State), s.hsem.up port = true →
    let mine := s.hsem.held = true ∧ s.hsem.port = port ∧ s.hsem.token = tok
    let free : Hsem := { s.hsem with held := false, port := false, token := 0 }
    (mine → exec (.hsemRelease port tok) s = .next { s with hsem := free }) ∧
    (¬mine → exec (.hsemRelease port tok) s = .next s)) ∧
  (∀ (port : Bool) (s : State),
    (s.hsem.up port = true → Answers (.hostLinkDown port) s fun t => t.hsem.up port = false ∧ t.mem = s.mem ∧
      (s.hsem.held = true → s.hsem.port = port → t.hsem.held = false) ∧ (s.hsem.port ≠ port → t.hsem.held = s.hsem.held)) ∧
    (s.hsem.up port = false → Answers (.hostLinkUp port) s fun t => t.hsem.up port = true ∧ t.hsem.held = s.hsem.held)) ∧
  (∀ (port : Bool) (off : Nat) (v : DWord) (s : State), s.hsem.up port = true → 0 < off → off < 2 ^ 26 →
    (s.hsem.held = true → s.hsem.port = port →
      exec (.bar0ControlWrite port off v) s = .next { s with bar0 := Store.set 0 s.bar0 off v }) ∧
    (s.hsem.held = false ∨ s.hsem.port ≠ port → Answers (.bar0ControlWrite port off v) s fun t =>
      t = { s with pending := t.pending } ∧ t.pending.getLast?.map (fun p => p.cause) = some .hsem)) ∧
  (∀ (port : Bool) (v : DWord) (s : State), s.hsem.up port = true →
    let tok := v.extractLsb' 32 16
    let mine := s.hsem.held = true ∧ s.hsem.port = port ∧ s.hsem.token = tok
    let shut := s.hsem.held = true ∨ s.hsemLocked = true
    (v.getLsbD 0 = true → shut → exec (.bar0ControlWrite port 0 v) s = .next s) ∧
    (v.getLsbD 0 = true → ¬shut → exec (.bar0ControlWrite port 0 v) s =
      .next { s with hsem := { s.hsem with held := true, port := port, token := tok } }) ∧
    (v.getLsbD 0 = false → mine → exec (.bar0ControlWrite port 0 v) s =
      .next { s with hsem := { s.hsem with held := false, port := false, token := 0 } }) ∧
    (v.getLsbD 0 = false → ¬mine → exec (.bar0ControlWrite port 0 v) s = .next s)) ∧
  (∀ (port write : Bool) (pa : Nat) (data : List Byte) (s : State), s.hsem.up port = true → inHbm pa data.length = true →
    (write = true → Answers (.hostHdmAccess port write pa data) s fun t =>
      t.mem = Memory.writeAll s.mem (cellsAt pa data) ∧ t.hdmRead = s.hdmRead) ∧
    (write = false → (∀ i, i < data.length → s.poison.contains ((pa + i) / 16) = false) →
      Answers (.hostHdmAccess port write pa data) s fun t => t.mem = s.mem ∧
        t.hdmRead = (List.range data.length).map fun i => Memory.read s.mem (pa + i)) ∧
    (write = false → (∃ i, i < data.length ∧ s.poison.contains ((pa + i) / 16) = true) →
      Answers (.hostHdmAccess port write pa data) s fun t => t.mem = s.mem ∧ t.hdmRead = [])) ∧
  (∀ (port : Bool) (nonce : List Byte) (s : State), s.hsem.up port = true → nonce.length = 48 →
    Answers (.attestationRequest port nonce) s fun t => t.reports.find? (fun r => r.1 == port) = some (port, s.report nonce) ∧
      t = { s with reports := t.reports } ∧ (s.report nonce).length = 512)

/-! The fabric, die time, power and reliability (R338, R339, R346 to R348, R353 to R367, R370). -/

/-- Packets and links (R353, R354, R356, R360, R361): a header that cannot be used is discarded; a packet goes on by its
next waymark, is delivered here by its last, is lost on a link that is DOWN, and waits behind an earlier one of its route,
at a stopped link, for one of VC 2 or 3, and where it is the turn of the other VC of its pair; STOP and GO follow the free
beats; a port's state goes to LINKST and the map, with MSI-X vector 1; with eight failed replays in a row a link carries
nothing more and goes DOWN, and nowhere else. That a packet with HOP 16 or more is discarded, and that STOP stands while a
link goes between UP and DEGRADED, is the model's choice (log entry 21). -/
def Obligations.FabricResults : Prop :=
  (∀ (port : Nat) (h : BitVec 512) (data : List Byte) (s : State), port < 12 → (s.port port).carries = true →
    (∀ q ∈ s.packets, ¬(q.header = h ∧ q.data = data ∧ q.port = port)) →
    let p : Packet := ⟨h, data, port, (s.die 8).time⟩
    let u : State := { s with packets := s.packets ++ [p] }.setPort port { s.port port with replays := 0 }
    (headerOk h = false → exec (.packetForward port h data) s = .next s) ∧
    (headerOk h = true → (data.length + 63) / 64 = p.hd.nb → p.beats ≤ s.bufferFree port p.hd.inVc →
      exec (.packetForward port h data) s = .next ((u.forwardAt s.packets.length p).getD u)) ∧
    (headerOk h = true → s.bufferFree port p.hd.inVc < p.beats → exec (.packetForward port h data) s = .refused .notDue)) ∧
  (∀ (s : State) (i : Nat) (p : Packet),
    let gone : State := { s with packets := s.packets.eraseIdx i }
    let w := p.hd.mark p.hd.hop
    let k := markPort w
    (s.queuedAhead i p = true → s.forwardAt i p = none) ∧
    (s.queuedAhead i p = false →
      (16 ≤ p.hd.hop → s.forwardAt i p = some gone) ∧
      (p.hd.hop < 16 → markLast w = true → k ≤ 8 → s.forwardAt i p = some { gone with inbox := s.inbox ++ [p.hopped k] }) ∧
      (p.hd.hop < 16 → markLast w = false → k < 12 → (s.port k).ls = 0 → s.forwardAt i p = some gone) ∧
      (p.hd.hop < 16 → markLast w = false → k < 12 → (s.port k).ls ≠ 0 →
        (s.port k).carries = false ∨ (s.port k).stopped.getLsbD (markVc w) = true → s.forwardAt i p = none) ∧
      (p.hd.hop < 16 → markLast w = false → k < 12 → (s.port k).carries = true → (s.port k).stopped.getLsbD (markVc w) = false →
        let vc := markVc w
        let waits := fun v => (s.port k).stopped.getLsbD v = false ∧ ∃ q ∈ s.packets, q.port ≤ 32 ∧ q.hd.hop < 16 ∧
          markLast (q.hd.mark q.hd.hop) = false ∧ markPort (q.hd.mark q.hd.hop) = k ∧ markVc (q.hd.mark q.hd.hop) = v
        let other := vc / 2 * 2 + 1 - vc % 2
        let turn := (s.port k).turns.getLsbD (vc / 2) = decide (vc % 2 = 1) ∧ waits other
        let held := (vc < 2 ∧ (waits 2 ∨ waits 3)) ∨ turn
        (held → s.forwardAt i p = none) ∧
        (¬held → ∃ t : State, s.forwardAt i p = some (t.stampEgress p k) ∧
          t = { s with packets := s.packets.eraseIdx i ++ [p.hopped (64 + k)], ports := t.ports } ∧
          (∀ j, j ≠ k → t.port j = s.port j) ∧ (t.port k).ls = (s.port k).ls ∧ (t.port k).replays = 0 ∧
          (t.port k).turns.getLsbD (vc / 2) = decide (vc % 2 = 1))))) ∧
  (∀ (s : State) (p : Packet) (k : Nat), p.port ≠ 32 ∨ (p.hd.opc ≠ 7 ∧ p.hd.opc ≠ 9) → s.stampEgress p k = s) ∧
  (∀ (port vc : Nat) (s : State), port < 12 → vc < 4 → (s.port port).carries = true →
    let p := s.port port
    let free := s.bufferFree port vc
    (free < 24 → p.told.getLsbD vc = false → Answers (.flowStop port vc true) s fun t => (t.port port).told.getLsbD vc = true) ∧
    (24 ≤ free → exec (.flowStop port vc true) s = .refused .notDue) ∧
    (40 ≤ free → p.told.getLsbD vc = true → Answers (.flowGo port vc true) s fun t => (t.port port).told.getLsbD vc = false) ∧
    (free < 40 → exec (.flowGo port vc true) s = .refused .notDue) ∧
    (Answers (.flowStop port vc false) s fun t => (t.port port).stopped.getLsbD vc = true) ∧
    (Answers (.flowGo port vc false) s fun t => (t.port port).stopped.getLsbD vc = false)) ∧
  (∀ (port : Nat) (ls : BitVec 2) (s : State), port < 12 →
    ((s.port port).ls = ls ∨ (8 ≤ (s.port port).replays ∧ ls ≠ 0) → exec (.linkStateChange port ls) s = .refused .notDue) ∧
    ((s.port port).ls ≠ ls → (s.port port).replays < 8 ∨ ls = 0 → Answers (.linkStateChange port ls) s fun t =>
      (t.port port).ls = ls ∧
      (t.linkst.toNat / 4 ^ port) % 4 = ls.toNat ∧ t.msix = s.msix ++ [(false, 1), (true, 1)] ∧ t.topo = s.topo ∧
      ((s.port port).ls = 1 ∨ (s.port port).ls = 2 → ls = 1 ∨ ls = 2 → (t.port port).stopped = (s.port port).stopped) ∧
      (ls = 0 → ∀ q ∈ t.packets, q.port ≠ 64 + port))) ∧
  (∀ (port : Nat) (s : State), port < 12 →
    ((s.port port).carries = true → (s.port port).replays < 8 →
      (Answers (.linkLevelReplay port) s fun t => (t.port port).replays = (s.port port).replays + 1) ∧
      exec (.linkDown port) s = .refused .notDue) ∧
    (8 ≤ (s.port port).replays → exec (.linkLevelReplay port) s = .refused .notDue ∧
      Answers (.linkDown port) s fun t => (t.port port).ls = 0))

/-- Requests of peers at home and the responses to this device's own (R310, R316, R361): a READ returns the bytes it names,
a WRITE stores its payload and answers when it has performed, an ATOMIC returns the old word; each answers with a cause and
has no effect where a byte is not translated, and is taken up again where a miss waits for a walk slot; one for a die
outside its context's partition makes a record (R322; the cause in the response is the model's, log entry 47). A response
settles the request with its tag, unless none awaits it or 1 ms has passed; then the access has failed with LINK_DOWN. What
an ATOMIC stores is a free value, a response with a reserved CAUSE is discarded, and a READ whose bytes this device has
meanwhile written is made again (the model's choices, log entry 21). -/
def Obligations.PeerResults : Prop :=
  (∀ (i : Nat) (s : State) (p : Packet), s.inboxItem 1 i = some p →
    let r := (s.dropInbox i).homeKeys p.hd false false p.hd.va p.hd.len
    (r.2 = .error 0 → exec (.read i) s = .next (s.keepMisses r.1 8)) ∧
    (∀ c, c ≠ 0 → r.2 = .error c → exec (.read i) s = .next (r.1.respond p.hd 4 c [])) ∧
    (∀ ks, r.2 = .ok ks → r.1.poisonedAny ks = true → exec (.read i) s = .next (r.1.respond p.hd 4 0xD0 [])) ∧
    (∀ ks, r.2 = .ok ks → r.1.poisonedAny ks = false →
      exec (.read i) s = .next (r.1.respond p.hd 4 0 (ks.map fun k => Memory.read r.1.mem (k.headD 0))))) ∧
  (∀ (i : Nat) (s : State) (p : Packet), s.inboxItem 2 i = some p →
    let r := (s.dropInbox i).homeKeys p.hd true false p.hd.va p.hd.len
    (r.2 = .error 0 → exec (.write i) s = .next (s.keepMisses r.1 8)) ∧
    (∀ c, c ≠ 0 → r.2 = .error c → exec (.write i) s = .next (r.1.respond p.hd 5 c [])) ∧
    (∀ ks, r.2 = .ok ks → exec (.write i) s =
      .next ((r.1.homeWrite ks ((List.range p.hd.len).map fun j => p.data.getD j 0)).respond p.hd 5 0 []))) ∧
  (∀ (i : Nat) (s : State) (p : Packet), s.inboxItem 3 i = some p →
    let r := (s.dropInbox i).homeKeys p.hd true true (p.hd.va / 8 * 8) 8
    (r.2 = .error 0 → exec (.atomic i) s = .next (s.keepMisses r.1 8)) ∧
    (∀ c, c ≠ 0 → r.2 = .error c → exec (.atomic i) s = .next (r.1.respond p.hd 6 c [])) ∧
    (∀ ks, r.2 = .ok ks → r.1.poisonedAny ks = true → exec (.atomic i) s = .next (r.1.respond p.hd 6 0xD0 [])) ∧
    (∀ ks, r.2 = .ok ks → r.1.poisonedAny ks = false →
      let old := leNat (ks.map fun k => Memory.read r.1.mem (k.headD 0))
      exec (.atomic i) s = .next ((r.1.homeWrite ks (leBytes 8
        (Config.peerAtomic (BitVec.ofNat 128 p.hd.arg) (BitVec.ofNat 64 old)).toNat)).respond p.hd 6 0 (leBytes 16 old)))) ∧
  (∀ (s : State) (ctx : Nat) (va : BitVec 56) (write reads : Bool), ∀ k e l,
    s.peek 8 (s.rootOf ctx) va write = .frame k e l → e.getLsbD 13 = false → s.homeByte ctx va write reads = (s, .error 0x61)) ∧
  (∀ (s : State) (ctx : Nat) (va : BitVec 56) (reads : Bool), ∀ t k e l,
    s.translate none .request 8 (s.asidOf ctx) (s.rootOf ctx) va true reads = (t, .frame k e l) → e.getLsbD 7 = true →
    ∀ u ks, s.homeByte ctx va true reads = (u, .ok ks) →
      ks = (t.replicaDies ctx).map fun d => k - t.replicaOf 8 (t.asidOf ctx) * 2 ^ 37 + d * 2 ^ 37) ∧
  (∀ (s : State) (h : Header) (write reads : Bool) (va n : Nat), s.homeCtx h.pasid = none →
    s.homeKeys h write reads va n = (s, .error 0x62)) ∧
  (∀ (s : State) (h : Header) (write reads : Bool) (va n c : Nat), s.homeCtx h.pasid = some c →
    let b := s.homeBytes c write reads n (BitVec.ofNat 56 va)
    let r := s.homeKeys h write reads va n
    r.2 = b.2 ∧ (b.2 ≠ .error 0xE0 → r.1 = b.1) ∧
    (b.2 = .error 0xE0 → r.1.pending.getLast?.map (fun q => (q.cause, q.ctx, q.policy)) = some (.partition, c, none))) ∧
  (let Settles := fun (ins : Nat → Instr) (opc req : Nat) =>
    ∀ (i : Nat) (s : State),
      (s.inboxItem opc i = none → exec (ins i) s = .refused .notDue) ∧
      ∀ p, s.inboxItem opc i = some p →
        let u := s.dropInbox i
        let found := s.requests.find? fun r => r.tag.toNat == p.hd.tag && r.opc == req
        (found = none → exec (ins i) s = .next u) ∧
        (∀ r, found = some r → 4000000 < ((s.die r.die).time - r.sent).toNat → exec (ins i) s = .next u) ∧
        (∀ r, found = some r → p.hd.cause ≠ 0 → causeOf p.hd.cause = none → exec (ins i) s = .next u) ∧
        (∀ r, found = some r → ((s.die r.die).time - r.sent).toNat ≤ 4000000 → p.hd.cause = 0 ∨ causeOf p.hd.cause ≠ none →
          exec (ins i) s = .next (u.settleRequest r p.hd.cause p.data))
   Settles .rddata 4 1 ∧ Settles .wrack 5 2 ∧ Settles .atrsp 6 3) ∧
  (∀ (s : State) (r : PeerRequest) (bs : List Byte), r.who = none → r.opc = 1 →
    let t := s.settleRequest r 0 bs
    (r.stale = false → t.mem = Memory.writeAll s.mem (cellsAt r.key ((List.range 16).map fun j => bs.getD j 0))) ∧
    (r.stale = true → s.routeFault (peerNode r.key) (peerVa r.key) = none → t.mem = s.mem ∧
      t.requests.getLast?.map (fun q => (q.key, q.opc, q.seq, q.sent)) = some (r.key, 1, r.seq, (s.die r.die).time))) ∧
  (∀ (i : Nat) (s : State) (r : PeerRequest), s.requests[i]? = some r →
    let late := 4000000 < ((s.die r.die).time - r.sent).toNat
    let t := s.settleRequest r 0xC3 []
    (¬late → exec (.peerRequestTimeout i) s = .refused .notDue) ∧
    (late → r.who.isSome = true → exec (.peerRequestTimeout i) s = .next t) ∧
    (late → r.who = none → exec (.peerRequestTimeout i) s = .next (raiseAsync t .linkDown r.ctx r.launch r.unit r.det
      { FaultInfo.none with addr := (peerVa r.key).setWidth 64 } (s.die r.die).time 0)))

/-- Die time (R177, R362 to R364): a disciplined die adds 1 at a tick, and while it has a correction to make 0 or 2 once in
1,024, and never runs more than 8 dtu ahead of another; a measurement beyond 80 dtu undisciplines it, one within 64 disciplines
it again (R364; that R16 and R177 bound disciplined dies at 8 dtu, and such a die stands until the others have come up, is the
model's choice, log entry 38); a die that has missed four exchanges is undisciplined; one that is behind steps forward at once.
The hops beyond the parent add at least 20 dtu to ε. SYNC and DREQ are stamped as they leave and as they come in; the child of a link
measures half of (t2 − t1) − (t4 − t3) and corrects its package master. Which step a packet's times stand for is the model's
(log entry 38). -/
def Obligations.DieTimeResults : Prop :=
  (∀ (die : Nat) (s : State), die ≤ 8 →
    let d := s.die die
    let within := fun time : DWord => ∀ e, e < 9 → e ≠ die → s.disciplined e = true → time.toNat ≤ (s.die e).time.toNat + 8
    (d.disciplined = true → d.slew = 0 ∨ d.sinceSlew < 1023 → within (d.time + 1) → Answers (.dieTimeTick die 1) s fun t =>
      (t.die die).time = d.time + 1 ∧ t.mem = s.mem ∧ ∀ k, k ≠ die → t.die k = s.die k) ∧
    (d.disciplined = true → d.slew ≠ 0 → 1023 ≤ d.sinceSlew → exec (.dieTimeTick die 1) s = .refused .notDue) ∧
    (d.disciplined = true → ¬within (d.time + 1) → exec (.dieTimeTick die 1) s = .refused .notDue) ∧
    (d.disciplined = true → d.sinceSlew < 1023 →
      exec (.dieTimeTick die 0) s = .refused .notDue ∧ exec (.dieTimeTick die 2) s = .refused .notDue) ∧
    (d.disciplined = true → 1023 ≤ d.sinceSlew → d.slew < 0 → within d.time → Answers (.dieTimeTick die 0) s fun t =>
      (t.die die).time = d.time ∧ (t.die die).slew = d.slew + 1 ∧ (t.die die).sinceSlew = 0) ∧
    (d.disciplined = true → 1023 ≤ d.sinceSlew → 0 < d.slew → within (d.time + 2) → Answers (.dieTimeTick die 2) s fun t =>
      (t.die die).time = d.time + 2 ∧ (t.die die).slew = d.slew - 1 ∧ (t.die die).sinceSlew = 0)) ∧
  (∀ (d : Die) (twice : Int),
    let e := d.measured twice true
    let forward := if twice < 0 then d.time + BitVec.ofInt 64 (-(twice / 2)) else d.time
    (d.disciplined = true → e.disciplined = decide (twice.natAbs ≤ 160)) ∧
    (d.disciplined = true → twice.natAbs ≤ 160 → e.time = d.time) ∧
    (d.disciplined = true → 160 < twice.natAbs → e.time = forward) ∧
    (d.disciplined = false → e.disciplined = decide (twice.natAbs ≤ 128) ∧ e.time = forward) ∧
    e.offset = BitVec.ofInt 32 (twice / 2) ∧ e.lastEx = e.time) ∧
  (∀ (s : State) (recent : List Nat),
    let most := recent.foldl max 0
    (s.neighbour s.parentPort = topoGm s.topo → (s.epsilon recent).2 = 20 + most) ∧
    (s.neighbour s.parentPort ≠ topoGm s.topo → 40 + most ≤ (s.epsilon recent).2)) ∧
  (∀ (die : Nat) (m : DWord) (s : State), die < 8 →
    (m ≠ (s.die 8).time → exec (.packageTimeExchange die m) s = .refused .notDue) ∧
    (m = (s.die 8).time → exec (.packageTimeExchange die m) s =
      .next (s.measure die (2 * ((s.die die).time - m).toInt) s.masterOk))) ∧
  (∀ (ns : DWord) (s : State), (s.devReg 0x882).getLsbD 4 = true →
    ((s.devReg 0x882).getLsbD 5 = true → exec (.ptmSync ns) s = .next (s.measure 8 (2 * ((s.die 8).time - ns * 4).toInt) true)) ∧
    ((s.devReg 0x882).getLsbD 5 = false → exec (.ptmSync ns) s = .refused .notDue)) ∧
  (∀ (die : Nat) (s : State), die ≤ 8 → (s.die die).disciplined = true →
    let since := ((s.die die).time - (s.die die).lastEx).toNat
    let period := if die = 8 then ((s.devReg 0x882).extractLsb' 16 10).toNat * 4000 else 4000
    (since < 4 * period → exec (.disciplineLoss die) s = .refused .notDue) ∧
    (4 * period ≤ since → Answers (.disciplineLoss die) s fun t => (t.die die).disciplined = false ∧ (t.die die).time = (s.die die).time)) ∧
  (∀ (port : Nat) (s : State), port < 12 →
    (s.timeRoute port = true → exec (.timeExchangeStart port) s = .next (s.timePacket port 7 0)) ∧
    (s.timeRoute port = false → exec (.timeExchangeStart port) s = .next s)) ∧
  (∀ (s : State) (p : Packet) (k : Nat), p.port = 32 →
    (p.hd.opc = 7 → s.stampEgress p k = s.inject { p.hd with opc := 8, arg := (s.die 8).time.toNat } []) ∧
    (p.hd.opc = 9 → k = s.parentPort → s.stampEgress p k = { s with exchange := { s.exchange with t3 := (s.die 8).time } })) ∧
  (∀ (s : State) (i : Nat) (p : Packet),
    let from' := s.neighbour s.parentPort
    (∀ t2 : DWord, s.timeItem 7 from' = some (i, p) → (s.devReg 0x882).getLsbD 4 = false → p.stamp = t2 → exec (.sync t2) s = .next { s.dropInbox i with exchange := { s.exchange with active := true, t2 := t2 } }) ∧
    (∀ t1 : DWord, s.timeItem 8 from' = some (i, p) → p.hd.arg % 2 ^ 64 = t1.toNat → s.exchange.active = true →
      Answers (.follow t1) s fun t => t.exchange.t1 = t1 ∧ t.exchange.t2 = s.exchange.t2 ∧
        t.exchange.active = s.timeRoute s.parentPort ∧ t.inbox = s.inbox.eraseIdx i ∧ (s.timeRoute s.parentPort = true →
          t.packets.length = s.packets.length + 1 ∧ t.packets.getLast?.map (fun q => q.port) = some 32)) ∧
    (∀ t4 : DWord, s.timeItem 10 from' = some (i, p) → p.hd.arg % 2 ^ 64 = t4.toNat → s.exchange.active = true →
      let twice := (s.exchange.t2 - s.exchange.t1).toInt - (t4 - s.exchange.t3).toInt
      Answers (.drsp t4) s fun t => (t.die 8).offset = BitVec.ofInt 32 (twice / 2) ∧ t.exchange.active = false ∧
        t.inbox = s.inbox.eraseIdx i ∧ t.exchange.delay = (s.exchange.t2 - s.exchange.t1).toInt + (t4 - s.exchange.t3).toInt ∧
        ((s.die 8).disciplined = true → (t.die 8).disciplined = decide (twice.natAbs ≤ 160)))) ∧
  (∀ (port : Nat) (t4 : DWord) (s : State) (i : Nat) (p : Packet), s.timeItem 9 (s.neighbour port) = some (i, p) → port < 12 →
    (p.stamp = t4 → exec (.dreq port t4) s =
      .next (if s.timeRoute port = true then (s.dropInbox i).timePacket port 10 t4.toNat else s.dropInbox i)) ∧
    (p.stamp ≠ t4 → exec (.dreq port t4) s = .refused .notDue))

/-- Power and measured boot (R365 to R368): cold power-on derives the identity key and verifies stage 1, then stage 2, and
stands in recovery where one fails; it measures what it has verified; the supervisor then starts at the body of stage 2 (at PC
0: the model's, log entry 40), the Waldlink ports train, and MSI-X vector 0 is sent on both ports. A minimum is raised and never
lowered. Power-off loses what power held. Errors, retirement, throttling and warm reset (R338, R339, R346 to R348, R370):
a corrected error is counted for its die and its row; an uncorrectable one poisons its 16 bytes; a bad row's frame is
retired, in the list while there is room; a checker's event traps its agent; a throttle event is counted once; a warm reset
comes of an uncorrectable error, a checker event or a die's limit, and a limit within 1 s of the last powers the device off; a
row of HBM is one frame (the model's reading, log entry 39), and which arrays a reset finds where is log entry 13; it counts, keeps HBM and what lies beyond the package,
zeroes every SRAM array and drops what the logic held, and starts the supervisor where stage 2 still verifies. -/
def Obligations.PowerAndReliabilityResults : Prop :=
  ((∀ s : State, s.power = .up → exec .coldPowerOn s = .refused .notDue) ∧
   (∀ s : State, s.power ≠ .up →
     let u := s.unpowered .on
     (u.imageOk 1 s.flash1 = false → Answers .coldPowerOn s fun t => t.power = .recovery 2 ∧
       t.m0 = extendM 0 Config.bootRomIdentity ∧ t.m1 = 0 ∧ t.m2 = 0 ∧ t.msix = s.msix) ∧
     (u.imageOk 1 s.flash1 = true → u.imageOk 2 s.flash2 = false → Answers .coldPowerOn s fun t => t.power = .recovery 4 ∧
       t.m0 = extendM 0 Config.bootRomIdentity ∧ t.m1 = extendM 0 (imageHead s.flash1) ∧ t.m2 = 0 ∧ t.msix = s.msix) ∧
     (u.imageOk 1 s.flash1 = true → u.imageOk 2 s.flash2 = true → Answers .coldPowerOn s fun t => t.power = .up ∧
       t.m0 = extendM 0 Config.bootRomIdentity ∧ t.m1 = extendM 0 (imageHead s.flash1) ∧ t.m2 = extendM 0 (imageHead s.flash2) ∧
       t.msix = s.msix ++ (List.replicate 12 [(false, 1), (true, 1)]).flatten ++ [(false, 0), (true, 0)] ∧
       (∀ k, k < 12 → (t.port k).ls = 3) ∧ t.identity = identityOf s.secret ∧
       t.me.kind = .sup ∧ t.me.code = imageBody s.flash2 ∧ t.me.cur.pc = 0 ∧ t.launches = [] ∧ t.units = [])) ∧
   (∀ (s : State) (stage : Nat) (value : Word), (stage = 1 ∨ stage = 2) →
     let t := s.raiseMinimum stage value
     (stage = 1 → t.minSvn1.toNat = max s.minSvn1.toNat value.toNat ∧ t.minSvn2 = s.minSvn2) ∧
     (stage = 2 → t.minSvn2.toNat = max s.minSvn2.toNat value.toNat ∧ t.minSvn1 = s.minSvn1)) ∧
   (∀ s : State,
     (s.power = .off → exec .powerOff s = .refused .notDue) ∧
     (s.power ≠ .off → Answers .powerOff s fun t => t.power = .off ∧ (∀ k, k < 2 ^ 56 → Memory.read t.mem k = 0) ∧
       t.m0 = 0 ∧ t.launches = [] ∧ t.flash1 = s.flash1 ∧ t.flash2 = s.flash2 ∧ t.retired = s.retired ∧ t.revoked = s.revoked ∧
       ∀ k, k < 64 → t.devReg (0x808 + k) = s.devReg (0x808 + k)))) ∧
  ((∀ (die : Nat) (s : State), die < 8 →
     (Answers (.eccCorrected die none) s fun t => t.devReg (0x860 + die) = s.devReg (0x860 + die) + 1 ∧ t.mem = s.mem) ∧
     (∀ pa, pa / 2 ^ 37 = die → inHbm pa 1 = true → Answers (.eccCorrected die (some pa)) s fun t =>
       t.devReg (0x860 + die) = s.devReg (0x860 + die) + 1 ∧ t.mem = s.mem ∧
       Store.get 0 (t.die die).corrected (pa / 2 ^ 16) = Store.get 0 (s.die die).corrected (pa / 2 ^ 16) + 1)) ∧
   (∀ (key : Nat) (s : State),
     (ownStorage key = true → Answers (.eccUncorrectable key) s fun t =>
       t = { s with poison := t.poison, badRows := t.badRows } ∧ (∀ q, q ∈ t.poison ↔ q = key / 16 ∨ q ∈ s.poison) ∧
       ∀ r, r ∈ t.badRows ↔ (inHbm key 1 = true ∧ r = key / 2 ^ 16) ∨ r ∈ s.badRows) ∧
     (ownStorage key = false → exec (.eccUncorrectable key) s = .refused .notDue)) ∧
   (∀ (pa : Nat) (s : State), inHbm pa 1 = true → s.meetsRetired (pa / 2 ^ 16 * 2 ^ 16) 1 = false →
     (s.rowBad pa = true ↔ 16 ≤ Store.get 0 (s.die (pa / 2 ^ 37)).corrected (pa / 2 ^ 16) ∨ pa / 2 ^ 16 ∈ s.badRows) ∧
     (s.rowBad pa = false → exec (.rowRetire pa) s = .refused .notDue) ∧
     (s.rowBad pa = true → s.retired.length < 4096 → Answers (.rowRetire pa) s fun t =>
       t.retired = s.retired ++ [pa / 2 ^ 16 * 2 ^ 16] ∧ t.overflow = s.overflow ∧ pa / 2 ^ 16 ∉ t.badRows) ∧
     (s.rowBad pa = true → 4096 ≤ s.retired.length → Answers (.rowRetire pa) s fun t =>
       t.overflow = s.overflow ++ [pa / 2 ^ 16 * 2 ^ 16] ∧ t.retired = s.retired ∧ (t.devReg 0x871).getLsbD 0 = true ∧
       t.msix = s.msix ++ [(false, 2), (true, 2)])) ∧
   (∀ (w : Who) (parity : Bool) (s : State) (a : Agent), s.agent w = some a →
     let c : Cause := if parity = true then .pipeParity else .pipeResidue
     (a.run = .running → a.wait = .none → exec (.checkerMismatch (.agent w) parity) s =
       .next ((s.countChecker a.place.die).trapAgent a c)) ∧
     (a.run ≠ .running ∨ a.wait ≠ .none → exec (.checkerMismatch (.agent w) parity) s = .refused .notDue)) ∧
   (∀ (parity : Bool) (s : State), exec (.checkerMismatch .hub parity) s =
     .next (s.countChk.warmReset 255 (if parity = true then .pipeParity else .pipeResidue))) ∧
   (∀ (x : CheckSite) (die : Nat) (parity : Bool) (s : State) (q : Nat) (u : UnitKey) (det : Bool),
     s.siteCommand x = some (die, q) → s.commandUnit die q = some (u, det) →
     let c : Cause := if parity = true then .pipeParity else .pipeResidue
     exec (.checkerMismatch x parity) s =
       let t := (s.countChecker die).failCommand die q c
       .next (raiseFor t c u det .none (t.die die).time 0)) ∧
   (∀ (ctx : Nat) (id : Word) (parity : Bool) (s : State) (r : RedeemRun),
     (s.context ctx).runs.find? (fun r => r.id == id && !r.ended) = some r → r.regs = s.regsOf ctx →
     let due := s.runFailing ctx r = false ∧ s.runFaulted ctx r = false ∧ (∃ g, s.graph r.bwd = some g ∧ g.complete = true)
     (¬due → exec (.checkerMismatch (.delivery ctx id) parity) s = .refused .notDue) ∧
     (due → Answers (.checkerMismatch (.delivery ctx id) parity) s fun t =>
       t.pending.getLast?.map (fun p => (p.cause, p.ctx, p.launch)) =
         some (if parity = true then .pipeParity else .pipeResidue, ctx, id))) ∧
   (∀ (die : Nat) (s : State), die < 8 →
     ((s.die die).throttled = true → exec (.throttleEvent die) s = .refused .notDue ∧
       Answers (.throttleEnd die) s fun t => (t.die die).throttled = false ∧ (t.die die).time = (s.die die).time) ∧
     ((s.die die).throttled = false → exec (.throttleEnd die) s = .refused .notDue ∧
       Answers (.throttleEvent die) s fun t => (t.die die).throttled = true ∧
         t.devReg (0x858 + die) = s.devReg (0x858 + die) + 1)) ∧
   (∀ (die : Nat) (s : State), die < 8 →
     let now := (s.die 8).time
     let again := ∃ at' : DWord, s.thermalAt = some at' ∧ (now - at').toNat ≤ 4 * 10 ^ 9
     (again → exec (.thermalLimit die false) s = .refused .notDue ∧ exec (.thermalLimit die true) s = .next (s.unpowered .off) ∧ exec (.warmReset die 0xD2) s = .next (s.unpowered .off)) ∧
     (¬again → exec (.thermalLimit die true) s = .refused .notDue ∧
       exec (.thermalLimit die false) s = .next { s.warmReset die .thermal with thermalAt := some now } ∧
       exec (.warmReset die 0xD2) s = .next { s.warmReset die .thermal with thermalAt := some now })) ∧
   (∀ (die : Nat) (b : Byte) (s : State), die < 8 ∨ die = 255 →
     (b = 0xD0 → exec (.warmReset die b) s = .next (s.warmReset die .uncorrectable)) ∧
     (b = 0x20 → exec (.warmReset die b) s = .next ((s.countChecker die).warmReset die .pipeResidue)) ∧
     (b = 0x21 → exec (.warmReset die b) s = .next ((s.countChecker die).warmReset die .pipeParity)) ∧
     (b ≠ 0xD0 → b ≠ 0x20 → b ≠ 0x21 → (b ≠ 0xD2 ∨ die = 255) → exec (.warmReset die b) s = .refused .notDue)) ∧
   (∀ (s : State), s.commits = [] →
     (∀ k, 2 ^ 40 ≤ k → k < 2 ^ 56 → Memory.read s.clearLogic.mem k = 0) ∧
     (∀ k, k < 2 ^ 40 ∨ 2 ^ 56 ≤ k → Memory.read s.clearLogic.mem k = Memory.read s.mem k) ∧
     s.clearLogic.units = [] ∧ s.clearLogic.barriers = [] ∧ s.clearLogic.packets = [] ∧ s.clearLogic.cr = s.cr) ∧
   (∀ (s : State) (die : Nat) (c : Cause), s.flash2 = [] → (s.warmReset die c).power = .recovery 4))

/-! Words, steps and reset (R39 to R45, R56 to R59, R278, R365). -/

/-- R57: a word of a reserved major or sub-op is no instruction, and the agent that meets it traps ILLEGAL_OPCODE; so does
every word of major 0x7F. -/
def Obligations.ReservedEncodings : Prop :=
  ∀ (w : Word) (s : State) (rest : List Byte), w.getLsbD 0 = true →
    let op := (opField w).toNat
    let sub := (sField w).toNat
    (0x08 ≤ op ∧ op ≤ 0x0F) ∨ (0x18 ≤ op ∧ op ≤ 0x1F) ∨ (0x26 ≤ op ∧ op ≤ 0x27) ∨ (0x2E ≤ op ∧ op ≤ 0x2F) ∨
      (0x3D ≤ op ∧ op ≤ 0x3F) ∨ op = 0x57 ∨ (0x63 ≤ op ∧ op ≤ 0x67) ∨ (0x6C ≤ op ∧ op ≤ 0x6F) ∨ (0x74 ≤ op ∧ op ≤ 0x7F) ∨
      (op = 0x17 ∧ sub = 3) ∨ (op = 0x2C ∧ sub = 3) ∨ (op = 0x6B ∧ 2 ≤ sub) →
    decode (bytesOfWord w ++ rest) = .error .reserved ∧ Traps (.wordThatDoesNotExecute w) s .illegalOpcode

/-- Words that do not execute, units and decode (R40, R41, R48, R49, R52, R54, R55, R58, R59, R87, R89, R278, R280). The halfword
0x0000 traps ZERO_HALFWORD, a 16-bit form of code 15 with a field set ILLEGAL_FIELD. Of the 32-bit words that the encodings leave
out, one with a set MBZ bit traps ILLEGAL_FIELD and one with a scope code where SC must be 0 ILLEGAL_SCOPE, unless the unit does
not execute its major, whose trap goes before; with RET's or JMPG's major and sub-op an odd target goes before it. An
instruction on a unit that does not execute it traps, whatever it is: every lane instruction and every form of 0x68 to 0x6B among
them. Of every instruction, the needs that decode tests: the first of them that is not met, in the order of R59, is the trap, and
while an earlier instruction owes it a result it does not issue. -/
def Obligations.WordAndUnitTraps : Prop :=
  ((∀ (w : Word) (s : State), w.extractLsb' 0 16 = 0 → Traps (.wordThatDoesNotExecute w) s .zeroHalfword) ∧
   (∀ (w : Word) (s : State), w.getLsbD 0 = false → w.extractLsb' 1 4 = 15 → w.extractLsb' 5 11 ≠ 0 →
     Traps (.wordThatDoesNotExecute w) s .illegalField) ∧
   (∀ (i : Instr) (s : State) (w : Word), encodeForm i = .word w → exec (.wordThatDoesNotExecute w) s = .refused .notDue) ∧
   (∀ (w : Word) (rest : List Byte) (e : DecodeError), w.getLsbD 0 = true → decode (bytesOfWord w ++ rest) = .error e →
     (e = .reserved ∨ e = .field ∨ e = .scope) ∧ ∀ (s : State),
       let unit := unitCause (opField w).toNat (subOp w) s.me.kind
       (e ≠ .reserved → ∀ c, unit = some c → Traps (.wordThatDoesNotExecute w) s c) ∧
       (e = .scope → unit = none → Traps (.wordThatDoesNotExecute w) s .illegalScope) ∧
       (e = .field → unit = none → jumpSource w = none → Traps (.wordThatDoesNotExecute w) s .illegalField) ∧
       (e = .field → unit = none → ∀ r, jumpSource w = some r → Clear { Need.of .all with wide := gReg r } s →
         Traps (.wordThatDoesNotExecute w) s (if (s.me.readG r).getLsbD 0 = true then .pcAlign else .illegalField))) ∧
   (∀ (k : Nat) (m w : Word) (rest : List Byte), (k, m) ∈ fixedZero → w.getLsbD 0 = true →
     (opField w).toNat * 4 + subOp w = k → w &&& m ≠ 0 → decode (bytesOfWord w ++ rest) = .error .field) ∧
   (∀ (w : Word) (rest : List Byte), w.getLsbD 0 = true → w.getLsbD 29 = true →
     let op := (opField w).toNat
     (0x40 ≤ op ∧ op ≤ 0x43) ∨ op = 0x47 ∨ op = 0x4D ∨ op = 0x4E ∨ (0x58 ≤ op ∧ op ≤ 0x62) ∨ (0x68 ≤ op ∧ op ≤ 0x6A) ∨
       (op = 0x6B ∧ subOp w < 2) ∨ (0x70 ≤ op ∧ op ≤ 0x73) →
     decode (bytesOfWord w ++ rest) = .error .field)) ∧
  ((∀ (i : Instr) (w : Word) (s : State) (c : Cause), encodeForm i = .word w → s.me.gath = [] →
     unitCause (opField w).toNat (subOp w) s.me.kind = some c → Traps i s c) ∧
   (∀ (i : Instr) (h : Half) (s : State), encodeForm i = .half h → i ≠ .nop → s.me.gath = [] → s.me.kind ≠ .core →
     Traps i s .wrongUnit)) ∧
  ((∀ (a : Agent) (n : Need),
     let unit := n.units.trap a.kind
     let above := ∃ r, (r ∈ n.reads ∨ r ∈ n.writes) ∧ a.quota ≤ r
     let void := ∃ k ∈ n.latches, a.cur.latches.get k = none
     (∀ c, unit = some c → decodeCause a n = some c) ∧
     (unit = none → n.field = true → decodeCause a n = some .illegalField) ∧
     (unit = none → n.field = false → n.scope = true → decodeCause a n = some .illegalScope) ∧
     (unit = none → n.field = false → n.scope = false → n.reg = true → decodeCause a n = some .illegalRegister) ∧
     (unit = none → n.field = false → n.scope = false → n.reg = false →
       (above → decodeCause a n = some .quota) ∧ (¬above → void → decodeCause a n = some .latchChain) ∧
       (¬above → ¬void → decodeCause a n = none))) ∧
   (∀ (n : BitVec 1) (d : BitVec 7) (cs : List (BitVec 7)) (rd : Bool),
     let x := laneNeed n d cs rd
     (x.reg = true ↔ 120 ≤ d.toNat) ∧ (x.field = true ↔ n = 1 ∧ d ≠ 0) ∧ (n = 0 → d.toNat < 120 → d.toNat ∈ x.writes) ∧
     (rd = true → d.toNat < 120 → d.toNat ∈ x.reads) ∧
     ∀ c ∈ cs, (c.toNat < 120 → c.toNat ∈ x.reads) ∧ (120 ≤ c.toNat → c.toNat < 124 → c.toNat - 120 ∈ x.latches)) ∧
   (∀ (u : Units) (cs : List (BitVec 7)), (gNeed u cs).reg = true ↔ ∃ c ∈ cs, 64 ≤ c.toNat) ∧
   (∀ (n : BitVec 1) (b a d : BitVec 7) (w : Nat),
     let x := rngNeed n b a d w
     (x.reg = true ↔ 119 ≤ a.toNat ∨ 119 ≤ b.toNat ∨ 120 < d.toNat + w) ∧ (x.field = true ↔ n = 1 ∧ d ≠ 0) ∧
     (∀ r, r ∈ x.reads ↔ r = a.toNat ∨ r = a.toNat + 1 ∨ r = b.toNat ∨ r = b.toNat + 1) ∧
     (∀ r, r ∈ x.writes ↔ n = 0 ∧ d.toNat ≤ r ∧ r < d.toNat + w)) ∧
   (∀ (a d : BitVec 7), ((movvNeed a d).reg = true ↔ 64 ≤ d.toNat ∨ 119 ≤ a.toNat) ∧
     ∀ r, r ∈ (movvNeed a d).reads ↔ r = a.toNat ∨ r = a.toNat + 1) ∧
   (∀ (w : Nat) (a d : BitVec 7), ((loadNeed w a d).reg = true ↔ 120 < d.toNat + accessRegs w) ∧
     (∀ r, r ∈ (loadNeed w a d).writes ↔ d.toNat ≤ r ∧ r < d.toNat + accessRegs w) ∧
     ((storeNeed w a d).reg = true ↔ 4 < w ∧ 120 < d.toNat + accessRegs w) ∧
     (4 < w → ∀ r, d.toNat ≤ r → r < d.toNat + accessRegs w → r ∈ (storeNeed w a d).reads)) ∧
   (∀ (op : AtomicOp) (c : BitVec 3) (f : BitVec 5) (a d : BitVec 7), ((atomicNeed op c f a d).scope = true ↔ c = 7) ∧
     ((atomicNeed op c f a d).reg = true ↔ 120 ≤ d.toNat ∨ (op = .cas ∧ f = 31)))) ∧
  (∀ s : State,
   let Atomic := fun (op : AtomicOp) (c : BitVec 3) (f : BitVec 5) (a d : BitVec 7) (i : Instr) =>
     (s.me.kind ≠ .sup ∨ op = .fadd → DecodesAs (atomicNeed op c f a d) s i) ∧
     (s.me.kind = .sup → op ≠ .fadd →
       DecodesAs { gNeed .coreSup [a, d] with scope := c == 7, reg := badG a || badG d || (op == .cas && f == 31) } s i)
   (∀ (n : BitVec 1) (b a d : BitVec 7), ∀ i ∈ ([.iadd n b a d, .isub n b a d, .iadds n b a d, .isubs n b a d,
     .imul n b a d, .imulhi n b a d, .imulhiu n b a d, .imin n b a d, .imax n b a d, .umin n b a d, .umax n b a d,
     .and n b a d, .or n b a d, .xor n b a d, .andn n b a d, .shl n b a d, .shr n b a d, .sra n b a d, .rotl n b a d,
     .bfx n b a d, .bfi n b a d, .udiv n b a d, .urem n b a d, .lea n b a d, .lea2 n b a d, .lea4 n b a d, .lea8 n b a d,
     .fadd n b a d, .fsub n b a d, .fmul n b a d, .fmin n b a d, .fmax n b a d, .faddBf2 n b a d, .fmulBf2 n b a d,
     .fmaxBf2 n b a d, .faddHf2 n b a d, .fmulHf2 n b a d, .fmaxHf2 n b a d, .fscale n b a d, .cvtBf2 n b a d,
     .cvtHf2 n b a d, .unpBf n b a d, .unpHf n b a d, .unpE4 n b a d, .unpE5 n b a d, .unpE3m2 n b a d, .unpE2m3 n b a d,
     .unpE2m1 n b a d, .icmpeq n b a d, .icmplt n b a d, .icmpltu n b a d, .icmple n b a d, .fcmpeq n b a d,
     .fcmplt n b a d, .fcmple n b a d, .fcmpun n b a d, .shfl n b a d, .shflup n b a d, .shfldn n b a d,
     .shflx n b a d] : List Instr), DecodesAs (laneNeed n d [a, b] false) s i) ∧
   (∀ (b a d : BitVec 7), ∀ i ∈ ([.imad b a d, .fma b a d, .fmaBf2 b a d, .fmaHf2 b a d, .fdot2Bf b a d, .fdot4E4 b a d,
     .fdot4E5 b a d, .fdot8E2m1 b a d, .cvtE4 b a d, .cvtE5 b a d, .cvtsrE4 b a d, .cvtsrE5 b a d, .cvtsrE3m2 b a d,
     .cvtsrE2m1 b a d, .cvtsrBf b a d, .cvtsrE2m3 b a d, .sel b a d] : List Instr),
     DecodesAs (laneNeed 0 d [a, b] true) s i) ∧
   (∀ (n : BitVec 1) (a d : BitVec 7), ∀ i ∈ ([.popc n a d, .clz n a d, .brev n a d, .iabs n a d, .fabs n a d, .fneg n a d,
     .frcp n a d, .frsq n a d, .fex2 n a d, .flg2 n a d, .raddF n a d, .rmaxF n a d, .raddI n a d, .rmaxI n a d,
     .ffloor n a d, .frint n a d, .i2f n a d, .u2f n a d, .f2i n a d, .f2u n a d, .ballot n a d, .matchLanes n a d,
     .mov n a d] : List Instr), DecodesAs (laneNeed n d [a] false) s i) ∧
   (∀ (a d : BitVec 7), ∀ i ∈ ([.cvtE3m2 a d, .cvtE2m3 a d, .cvtE2m1 a d] : List Instr),
     DecodesAs (laneNeed 0 d [a] true) s i) ∧
   (∀ (n : BitVec 1) (d : BitVec 7), DecodesAs (laneNeed n d [] false) s (.laneid n d)) ∧
   (∀ (n : BitVec 1) (b a d : BitVec 7), DecodesAs (rngNeed n b a d 4) s (.rng4 n b a d)) ∧
   (∀ (n : BitVec 1) (b a d : BitVec 7), ∀ i ∈ ([.rngu n b a d, .rngb n b a d] : List Instr),
     DecodesAs (rngNeed n b a d 1) s i) ∧
   (∀ (n : BitVec 1) (a d : BitVec 7),
     DecodesAs { laneNeed n d [] false with reg := badDest d || badG a, wide := gReg a.toNat } s (.movg n a d)) ∧
   (∀ (l : BitVec 5) (a d : BitVec 7), ∀ i ∈ ([.movvg a d, .movvgl l a d] : List Instr), DecodesAs (movvNeed a d) s i) ∧
   (∀ (m : BitVec 10) (a d : BitVec 7), ∀ i ∈ ([.iaddi m a d, .andi m a d, .ori m a d, .xori m a d, .icmplti m a d,
     .icmpeqi m a d, .imuli m a d] : List Instr), DecodesAs (laneNeed 0 d [a] false) s i) ∧
   (∀ (m : BitVec 5) (a d : BitVec 7), ∀ i ∈ ([.shli m a d, .shri m a d, .srai m a d] : List Instr),
     DecodesAs (laneNeed 0 d [a] false) s i) ∧
   (∀ (m : BitVec 17) (d : BitVec 7), DecodesAs (laneNeed 0 d [] false) s (.movi m d)) ∧
   (∀ (m : BitVec 16) (d : BitVec 7), DecodesAs (laneNeed 0 d [] true) s (.movh m d)) ∧
   (∀ (m : BitVec 10) (d : BitVec 7), DecodesAs { laneNeed 0 d [] false with field := !selectorOk m.toNat } s (.srd m d)) ∧
   (∀ (n : BitVec 1) (a d : BitVec 5), ∀ i ∈ ([.iadd16 n a d, .isub16 n a d, .imul16 n a d, .and16 n a d, .or16 n a d,
     .xor16 n a d, .fadd16 n a d, .fsub16 n a d, .fmul16 n a d, .fmax16 n a d, .icmplt16 n a d] : List Instr),
     DecodesAs (halfNeed n d true [a]) s i) ∧
   (∀ (n : BitVec 1) (d m : BitVec 5), ∀ i ∈ ([.shli16 n m d, .shri16 n m d] : List Instr),
     DecodesAs (halfNeed n d true []) s i) ∧
   (∀ (n : BitVec 1) (a d : BitVec 5), DecodesAs { halfNeed n d false [a] with field := n == 1 && d != 0 } s (.mov16 n a d))
     ∧
   (∀ (n : BitVec 1) (d m : BitVec 5), DecodesAs { halfNeed n d false [] with field := n == 1 && d != 0 } s (.movi5 n m d))
     ∧
   (∀ (x : BitVec 17), ∀ i ∈ ([.nop, .exit, .bra x] : List Instr), DecodesAs (Need.of .all) s i) ∧
   (∀ (b a d : BitVec 7), ∀ i ∈ ([.gadd b a d, .gsub b a d, .gmul b a d, .gmad b a d, .gand b a d, .gor b a d, .gxor b a d,
     .gandn b a d, .gshl b a d, .gshr b a d, .gsra b a d, .gmin b a d, .gcmpeq b a d, .gcmplt b a d, .gcmpltu b a d,
     .gmax b a d, .balloc b a d, .barv b a d, .bwait b a d, .bwaitt b a d, .bref b a d] : List Instr),
     DecodesAs (gNeed .all [d, a, b]) s i) ∧
   (∀ (m : BitVec 10) (a d : BitVec 7), ∀ i ∈ ([.gaddi m a d, .gmov a d, .btest a d] : List Instr),
     DecodesAs (gNeed .all [d, a]) s i) ∧
   (∀ (m : BitVec 17) (d : BitVec 7), DecodesAs (gNeed .all [d]) s (.gmovi m d)) ∧
   (∀ (m : BitVec 16) (d : BitVec 7), DecodesAs (gNeed .all [d]) s (.gshi16 m d)) ∧
   (∀ (b d : BitVec 7), DecodesAs { gNeed .all [d] with field := !selectorOk b.toNat } s (.gsrd b d)) ∧
   (∀ (b a : BitVec 7),
     DecodesAs { gNeed .all [a] with field := decide (b.toNat < 32) || decide (35 < b.toNat) } s (.gswr b a)) ∧
   (∀ (b a d : BitVec 7),
     DecodesAs { gNeed .all [a, b] with reg := badG a || badG b || decide (7 < d.toNat), wide := gReg a.toNat ++ gReg b.toNat ++ [xtReg d.toNat] } s (.xlt b a d))
     ∧
   (∀ (x : BitVec 17) (p : BitVec 7), ∀ i ∈ ([.brg x p, .brzg x p] : List Instr), DecodesAs (gNeed .all [p]) s i) ∧
   (∀ (x : BitVec 17) (p : BitVec 7),
     DecodesAs { Need.of .core with reads := srcReg p, latches := srcLatch p, wide := srcWide p } s (.brv x p)) ∧
   (∀ (x : BitVec 17), ∀ i ∈ ([.call x, .ret] : List Instr), DecodesAs { Need.of .all with wide := gReg 62 } s i) ∧
   (∀ (t : BitVec 4) (a : BitVec 7), ∀ i ∈ ([.jmpg a, .bfree a, .trap t a] : List Instr), DecodesAs (gNeed .all [a]) s i) ∧
   (∀ i ∈ ([.fuse, .yield, .bkpt] : List Instr), DecodesAs (Need.of .core) s i) ∧
   (∀ (d : BitVec 7), ∀ i ∈ ([.emrd d, .mrecv d, .snapm d] : List Instr), DecodesAs (gNeed .core [d]) s i) ∧
   (∀ (a : BitVec 7), ∀ i ∈ ([.emwr a, .tfree a] : List Instr), DecodesAs (gNeed .core [a]) s i) ∧
   (∀ (x : BitVec 17) (p : BitVec 7), DecodesAs (gNeed .core [p]) s (.mskip x p)) ∧
   (∀ (f : BitVec 5) (a d : BitVec 7), DecodesAs (loadNeed 4 a d) s (.ld32 f a d)) ∧
   (∀ (f : BitVec 5) (a d : BitVec 7), DecodesAs (loadNeed 8 a d) s (.ld64 f a d)) ∧
   (∀ (f : BitVec 5) (a d : BitVec 7), DecodesAs (loadNeed 16 a d) s (.ld128 f a d)) ∧
   (∀ (f : BitVec 5) (a d : BitVec 7), DecodesAs (loadNeed 2 a d) s (.ld16 f a d)) ∧
   (∀ (f : BitVec 5) (a d : BitVec 7), DecodesAs (storeNeed 4 a d) s (.st32 f a d)) ∧
   (∀ (f : BitVec 5) (a d : BitVec 7), DecodesAs (storeNeed 8 a d) s (.st64 f a d)) ∧
   (∀ (f : BitVec 5) (a d : BitVec 7), DecodesAs (storeNeed 16 a d) s (.st128 f a d)) ∧
   (∀ (f : BitVec 5) (a d : BitVec 7), DecodesAs (storeNeed 2 a d) s (.st16 f a d)) ∧
   (∀ (f : BitVec 5) (a d : BitVec 7), DecodesAs (loadNeed 1 a d) s (.ld8 f a d)) ∧
   (∀ (f : BitVec 5) (a d : BitVec 7), DecodesAs (storeNeed 1 a d) s (.st8 f a d)) ∧
   (∀ (f : BitVec 5) (a d : BitVec 7), DecodesAs { loadNeed 4 a d with wide := srcWide a ++ gReg f.toNat } s (.ldnb f a d))
     ∧
   (∀ (f : BitVec 5) (a d : BitVec 7),
     DecodesAs { storeNeed 4 a d with wide := srcWide a ++ srcWide d ++ gReg f.toNat } s (.stva f a d)) ∧
   (∀ (c : BitVec 3) (f : BitVec 5),
     DecodesAs { Need.of .coreSup with field := !(f == 1 || f == 2 || f == 3), scope := c == 7 } s (.fence c f)) ∧
   (∀ (c : BitVec 3) (f : BitVec 5),
     DecodesAs { Need.of .coreSup with field := !(f == 2 || f == 3), scope := c == 7 } s (.fenceE c f)) ∧
   (∀ (c : BitVec 3) (f : BitVec 5) (a d : BitVec 7), DecodesAs { loadNeed 4 a d with scope := c == 7 } s (.ldaq c f a d)) ∧
   (∀ (c : BitVec 3) (f : BitVec 5) (a d : BitVec 7), DecodesAs { storeNeed 4 a d with scope := c == 7 } s (.strl c f a d))
     ∧
   (∀ (f : BitVec 5) (a d : BitVec 7), ∀ i ∈ ([.gld f a d, .gst f a d] : List Instr), DecodesAs (gNeed .all [a, d]) s i) ∧
   (∀ (c : BitVec 3) (f : BitVec 5) (a d : BitVec 7), ∀ i ∈ ([.gldaq c f a d, .gstrl c f a d] : List Instr),
     DecodesAs { gNeed .all [a, d] with scope := c == 7 } s i) ∧
   (∀ (b a : BitVec 7), ∀ i ∈ ([.tdef b a, .tscl b a, .datt b a, .ddist b a, .dtopk b a, .dkvap b a, .upd b a,
     .norm b a] : List Instr), DecodesAs (gNeed .core [a, b]) s i) ∧
   (∀ (b a d : BitVec 7), ∀ i ∈ ([.tqry b a d, .cpy b a d, .msig b a d, .kvreq b a d, .kvpin b a d, .kvrel b a d,
     .lnch b a d, .lnchc b a d, .redeem b a d, .tkqry b a d, .wvret b a d, .regq b a d, .pgreq b a d] : List Instr),
     DecodesAs (gNeed .core [d, a, b]) s i) ∧
   (∀ (b a d : BitVec 7),
     DecodesAs { gNeed .core [d, a, b] with reg := badG d || badG a || decide (62 < b.toNat), wide := [d.toNat, a.toNat, b.toNat, b.toNat + 1].flatMap gReg } s (.cpyt b a d))
     ∧
   (∀ (b a : BitVec 7), DecodesAs (gNeed .all [a, b]) s (.bexp b a)) ∧
   (∀ (a : BitVec 7), DecodesAs { gNeed .core [a] with reads := regSpan 88 32 } s (.mfeed a)) ∧
   (∀ (a : BitVec 7), DecodesAs { gNeed .core [a] with writes := regSpan 88 32 } s (.mdrain a)) ∧
   (∀ (a d : BitVec 7), ∀ i ∈ ([.kvres a d, .cancel a d, .ccnt a d, .ticket a d, .tkdrop a d, .wvpub a d] : List Instr),
     DecodesAs (gNeed .core [d, a]) s i) ∧
   (∀ (b a d : BitVec 7), ∀ i ∈ ([.mma b a d, .mmaSp b a d, .mmaz b a d, .mmazSp b a d, .epq b a d, .epst b a d,
     .epov b a d, .accz b a d, .mquad b a d] : List Instr), DecodesAs (gNeed .csq [d, a, b]) s i) ∧
   (∀ (d : BitVec 7), DecodesAs (gNeed .csq [d]) s (.mbatch d)) ∧
   (∀ (a d : BitVec 7), DecodesAs (gNeed .csq [d, a]) s (.mwait a d)) ∧
   (∀ (a : BitVec 7), DecodesAs (gNeed .csq [a]) s (.mclass a)) ∧
   (DecodesAs (Need.of .csq) s (.myld)) ∧
   (∀ (b a : BitVec 7), DecodesAs (gNeed .csq [a, b]) s (.mscale b a)) ∧
   (∀ (a d : BitVec 7), ∀ i ∈ ([.csrr a d, .rtchk a d, .snapb a d] : List Instr), DecodesAs (gNeed .sup [d, a]) s i) ∧
   (∀ (b a d : BitVec 7), ∀ i ∈ ([.csrw b a d, .csrs b a d, .csrc b a d, .zeroRange b a d, .ctxsv b a d, .ctxld b a d,
     .snapc b a d] : List Instr), DecodesAs (gNeed .sup [d, a, b]) s i) ∧
   (∀ (b a : BitVec 7), ∀ i ∈ ([.tlbi b a, .prefw b a] : List Instr), DecodesAs (gNeed .sup [a, b]) s i) ∧
   (∀ (a : BitVec 7), ∀ i ∈ ([.tlbia a, .hirq a] : List Instr), DecodesAs (gNeed .sup [a]) s i) ∧
   (∀ i ∈ ([.eret, .halt] : List Instr), DecodesAs (Need.of .sup) s i) ∧
   (∀ (c : BitVec 3) (f : BitVec 5) (a d : BitVec 7), Atomic .add c f a d (.atadd c f a d)) ∧
   (∀ (c : BitVec 3) (f : BitVec 5) (a d : BitVec 7), Atomic .max c f a d (.atmax c f a d)) ∧
   (∀ (c : BitVec 3) (f : BitVec 5) (a d : BitVec 7), Atomic .xch c f a d (.atxch c f a d)) ∧
   (∀ (c : BitVec 3) (f : BitVec 5) (a d : BitVec 7), Atomic .cas c f a d (.atcas c f a d)) ∧
   (∀ (c : BitVec 3) (f : BitVec 5) (a d : BitVec 7), Atomic .or c f a d (.ator c f a d)) ∧
   (∀ (c : BitVec 3) (f : BitVec 5) (a d : BitVec 7), Atomic .and c f a d (.atand c f a d)) ∧
   (∀ (c : BitVec 3) (f : BitVec 5) (a d : BitVec 7), Atomic .fadd c f a d (.atfadd c f a d)) ∧
   (∀ (c : BitVec 3) (f : BitVec 5) (a d : BitVec 7), Atomic .min c f a d (.atmin c f a d)) ∧
       (∀ b a d : BitVec 7, ∀ i ∈ ([.gath b a d, .scat b a d] : List Instr), DecodesAs { gNeed .core [b] with
       reg := badDest d || decide (120 ≤ a.toNat) || badG b, reads := srcReg a, writes := srcReg d, wide := gReg b.toNat ++
     [xtReg ((s.me.readG b.toNat).toNat % 8)] } s i))

/-- Words written out from the encoding tables of R41 to R45 and R56, and the instructions that they are. -/
def Obligations.WordsDecode : Prop :=
  decodeTableWord 32 0xC1828403 = some (.imad 6 5 4) ∧
  decodeTableWord 32 0x00400099 = some (.call 0x80) ∧
  decodeTableWord 32 0x108108A1 = some (.ld128 2 2 8) ∧
  decodeTableWord 32 0x014200B1 = some (.tdef 5 4) ∧
  decodeTableWord 16 0x001E = some .nop ∧
  decodeTableWord 32 0x000000E5 = some .eret

/-- Every well-formed instruction that has an encoding is read back from it as itself, with every operand, whatever follows
in memory; the encoding has the instruction's length (R39, R41 to R45, R56). -/
def Obligations.EncodeThenDecode : Prop :=
  ∀ i : Instr, i.wellFormed = true → i.isWord = true → ∀ rest : List Byte,
    decode (encode i ++ rest) = .ok (i, rest) ∧ (encode i).length = i.size

/-- What the decoder reads as an instruction is that instruction's one encoding: no bit of a word is passed over (R42, R54
to R57). -/
def Obligations.DecodeThenEncode : Prop :=
  ∀ (bs rest : List Byte) (i : Instr), decode bs = .ok (i, rest) → encode i ++ rest = bs

/-- A step runs the decoded instruction: an agent that may issue and that nothing holds back executes what the decoder reads
at its PC, after which one cycle more than an open number of its cycles has passed (log entry 4); a word that is no
instruction is met as such; outside the code image the fetch traps RANGE (R98). A turn of the agenda names the agent that
issues, a step of the device, or what the world does to it (the order of the turns is the model's, log entry 2). A group of
a deterministic block issues when the rotation offers it, its oldest ready sub-group first, and the rotation goes on (R199):
the order of the member cores and of their pipes in a cycle, what passes at its end and where a group is absent, and that a
return due holds the rotation, are the model's (log entry 19); the records of a cycle stand in the order of R325 at its end,
and those that one step of the device raises in that order (log entry 73). A timed store that is due performs before anything
else (R175). -/
def Obligations.StepRunsDecoded : Prop :=
  (∀ s : State, s.power = .up → s.agenda = [] →
    (s.timedDue = true → step s = .refused .notDue) ∧
    (s.timedDue = false → s.rotating s.me.who = none → step s = issue s) ∧
    (s.timedDue = false → ∀ x, s.rotating s.me.who = some x → step s = rotateWith exec x.key s.me.who s)) ∧
  (∀ (s : State) (i : Instr) (rest : List Byte), s.me.canIssue = true → s.gate = .go → decode s.me.fetch = .ok (i, rest) →
    let u : State := { s with me := { s.me with cur := { s.me.cur with holds := false } } }
    (∀ t, exec i u = .next t → issue s = .next { t with
      me := { t.me with cycle := t.me.cycle + 1 + (Config.freeCycles t.free &&& 0xFFFF_FFFF) }, free := t.free + 1 }) ∧
    (∀ f, exec i u = .fault f → issue s = .fault f) ∧ (∀ r, exec i u = .refused r → issue s = .refused r)) ∧
  (∀ (s : State) (e : DecodeError), s.me.canIssue = true → s.gate = .go → decode s.me.fetch = .error e →
    let u : State := { s with me := { s.me with cur := { s.me.cur with holds := false } } }
    (e = .truncated → issue s = .next (takeTrapWith u .range { FaultInfo.none with addr := s.me.cur.pc.setWidth 64 })) ∧
    (e ≠ .truncated → issue s = afterIssue (exec (.wordThatDoesNotExecute (wordAt s.me.fetch)) u))) ∧
  (∀ s : State, (s.me.canIssue = false → issue s = .refused .notDue) ∧
    (s.me.canIssue = true → s.gate = .hold → issue s = .refused .notDue) ∧
    (s.me.canIssue = true → s.gate = .ends → issue s = .next { s with me := s.me.stopNow })) ∧
  (∀ (s : State) (w : Who) (sub : Nat) (r : List Turn), s.power = .up → s.agenda = .issue w sub :: r →
    let u : State := { s with agenda := r }
    (u.timedDue = true → step s = .refused .notDue) ∧
    (u.timedDue = false → u.rotating w = none →
      (∀ t, u.select w sub = some t → step s = issue t) ∧ (u.select w sub = none → step s = .refused .notDue)) ∧
    (u.timedDue = false → ∀ x, u.rotating w = some x → step s = rotateWith exec x.key w u)) ∧
  (∀ (s : State) (i : Instr) (r : List Turn), s.power = .up → s.agenda = .event i :: r →
    let u : State := { s with agenda := r }
    let ahead := (∃ c k, i = .timedStorePerform c k) ∨ ∃ d n, i = .dieTimeTick d n
    (i.isWord = true → step s = .refused .notDue) ∧
    (u.timedDue = true → ¬ahead → step s = .refused .notDue) ∧
    (i.isWord = false → u.timedDue = false ∨ ahead →
      (∀ t, exec i u = .next t → step s = .next (t.settleRecords u.pending)) ∧
      (∀ f, exec i u = .fault f → step s = .fault f) ∧ (∀ x, exec i u = .refused x → step s = .refused x))) ∧
  (∀ (s : State) (old : List Pending), ∃ ps, s.settleRecords old = { s with pending := ps } ∧ ps.length = s.pending.length ∧
    ((s.pending.filter fun p => !old.contains p).length ≤ 1 → ps = s.pending)) ∧
  (∀ (s : State) (r : List Turn), s.power = .up →
    (∀ o, s.agenda = .load o :: r → step s = execLoad o { s with agenda := r }) ∧
    (∀ n v, s.agenda = .firmware n v :: r → step s = execFirmwareWrite n v { s with agenda := r }) ∧
    (∀ d i, s.agenda = .evict d i :: r → step s = execTlbEvict d i { s with agenda := r }) ∧
    (∀ a, s.agenda = .window a :: r → step s = execWindow a { s with agenda := r })) ∧
  (∀ (s : State) (n : Nat) (r : List Turn), s.power = .recovery n →
    (s.agenda = .event .coldPowerOn :: r → step s = exec .coldPowerOn { s with agenda := r }) ∧
    (s.agenda = .event .powerOff :: r → step s = exec .powerOff { s with agenda := r }) ∧
    (∀ a, s.agenda = .window a :: r → step s = execWindow a { s with agenda := r }) ∧
    (s.agenda = [] → step s = .fault .notRunning)) ∧
  (∀ (s : State) (u : UnitKey) (w : Who) (x : WorkUnit),
    let v := skipAbsent (24 * ((s.unit u).elim 0 fun x => x.cores.length) + 2) u s
    let o := x.rotation
    let ids := (v.agent w).elim [] Agent.subIds
    let mine := ∃ b, x.byCore[o.place / 2]? = some b ∧ w = .group u (16 * b + (2 * o.cycle + o.place % 2) % 16)
    let stands := v.standsAtStop x = true ∨ v.owesEvent x = true ∨ ¬mine
    v.unit u = some x →
    (stands → (s.unit u).map WorkUnit.rot = some x.rot → rotateWith exec u w s = .refused .notDue) ∧
    (stands → (s.unit u).map WorkUnit.rot ≠ some x.rot → rotateWith exec u w s = .next v) ∧
    (¬stands →
      (∀ id rest b c, ids = id :: rest → v.select w id = some b → b.readyAt o.cycle = true → issue b = .next c →
        b.me.moved c.me = true →
          rotateWith exec u w s = .next (((b.bookIssue c o.cycle).markRecords v.pending o.cycle).nextPlace u)) ∧
      (∀ id b, ids = [id] → v.select w id = some b → b.readyAt o.cycle = false →
        rotateWith exec u w s = .next (b.nextPlace u)))) ∧
  (∀ (x : WorkUnit), x.byCore.length = x.cores.length ∧
    ∀ i j a b : Nat, i < j → x.byCore[i]? = some a → x.byCore[j]? = some b → x.cores.getD a 0 ≤ x.cores.getD b 0) ∧
  (∀ (s : State) (x : WorkUnit), s.unit x.key = some x →
    let o := x.rotation
    let n := 2 * x.cores.length
    let t := s.nextPlace x.key
    (o.place + 1 < n → t.unit x.key = some { x with rot := some { o with place := o.place + 1 } } ∧ t.mem = s.mem ∧
      t.pending = s.pending) ∧
    (o.place + 1 = n → (t.unit x.key).map (fun y => y.rot) = some (some { o with place := n }) ∧ t.mem = s.mem) ∧
    (n ≤ o.place → (t.unit x.key).map (fun y => y.rot.map fun r => (r.cycle, r.place)) = some (some (o.cycle + 1, 0)) ∧
      ∀ p ∈ t.pending, p.ofCycle x.key = false)) ∧
  (∀ (s : State) (nbits w : Nat) (i : Instr), nbits ≤ 32 → decodeTableWord nbits w = some i →
    let t := s.withFetchWord nbits w
    t.agenda = [] ∧ t.power = .up ∧ t.timedDue = false ∧ t.rotating t.me.who = none ∧ t.me.canIssue = true ∧ t.gate = .go ∧
    ∃ rest, decode t.me.fetch = .ok (i, rest))

/-- The package right after reset (R365): power is applied and its boot has not run, so the first step is the cold power-on;
nothing is launched, raised or listed. That registers for which the specification gives no reset value read 0 is the model's
choice (log entry 3), and so is that memory reads 0 (log entry 5). -/
def Obligations.ResetState : Prop :=
  State.reset.power = .on ∧ step State.reset = exec .coldPowerOn State.reset ∧ State.reset.mem.wf = true ∧
  (∀ k, Memory.read State.reset.mem k = 0) ∧ State.reset.launches = [] ∧ State.reset.units = [] ∧ State.reset.pending = [] ∧
  (∀ c n, State.reset.ctxReg c n = 0) ∧ (∀ c, State.reset.ctxValid c = false) ∧ State.reset.hsem.held = false ∧
  (∀ k, k < 12 → (State.reset.port k).ls = 0) ∧ (∀ n, State.reset.me.readG n = 0) ∧
  State.reset.m0 = 0 ∧ State.reset.m1 = 0 ∧ State.reset.m2 = 0 ∧ State.reset.m3 = 0

/-- Memory keeps its canonical form: from every state whose memory has it, a step gives a state whose memory has it. -/
def Obligations.MemoryStaysCanonical : Prop :=
  ∀ s t : State, s.mem.wf = true → step s = .next t → t.mem.wf = true
end

