-- ==== Sys2Proof/Laws/Memory.lean ====
section
/-!
SUPPORT. Sparse stores and memory: every operation keeps the canonical form, and what is read after a write.
-/
namespace Sys2Proof.Laws
open Sys2Proof.Machine

variable {α : Type} [DecidableEq α] {dflt : α}

/-- The canonical form as one rule on the whole list. -/
theorem wf_iff (m : Store α) :
    Store.wf dflt m = true ↔ m.Pairwise (fun a b => a.1 < b.1) ∧ ∀ e ∈ m, e.2 ≠ dflt := by
  induction m with
  | nil => simp [Store.wf]
  | cons e r ih =>
    cases r with
    | nil => obtain ⟨k, x⟩ := e; simp [Store.wf]
    | cons f r =>
      obtain ⟨k, x⟩ := e
      obtain ⟨l, y⟩ := f
      have h : Store.wf dflt ((k, x) :: (l, y) :: r) = (decide (x ≠ dflt) && decide (k < l) && Store.wf dflt ((l, y) :: r)) := rfl
      rw [h, Bool.and_eq_true, ih, List.pairwise_cons (a := (k, x))]
      simp only [Bool.and_eq_true, decide_eq_true_eq]
      constructor
      · rintro ⟨⟨hx, hk⟩, hp, hd⟩
        refine ⟨⟨?_, hp⟩, ?_⟩
        · intro a ha
          rcases List.mem_cons.1 ha with rfl | ha
          · exact hk
          · exact lt_trans hk ((List.pairwise_cons.1 hp).1 a ha)
        · intro a ha
          rcases List.mem_cons.1 ha with rfl | ha
          · exact hx
          · exact hd a ha
      · rintro ⟨⟨ha, hp⟩, hd⟩
        exact ⟨⟨hd (k, x) (by simp), ha (l, y) (by simp)⟩, hp, fun a h => hd a (List.mem_cons_of_mem _ h)⟩

theorem wf_tail {e : Nat × α} {m : Store α} (h : Store.wf dflt (e :: m) = true) : Store.wf dflt m = true := by
  rw [wf_iff] at h ⊢
  exact ⟨(List.pairwise_cons.1 h.1).2, fun a ha => h.2 a (List.mem_cons_of_mem _ ha)⟩

omit [DecidableEq α] in
theorem erase_sublist (m : Store α) (n : Nat) : (Store.erase m n).Sublist m := by
  induction m with
  | nil => exact List.Sublist.slnil
  | cons f r ih =>
    obtain ⟨k, y⟩ := f
    simp only [Store.erase]
    split
    · exact ih.cons _
    · exact ih.cons_cons _

omit [DecidableEq α] in
theorem erase_ne {m : Store α} {n : Nat} {e : Nat × α} (h : e ∈ Store.erase m n) : e.1 ≠ n := by
  induction m with
  | nil => simp [Store.erase] at h
  | cons f r ih =>
    obtain ⟨k, y⟩ := f
    simp only [Store.erase] at h
    split at h
    · exact ih h
    · rename_i hk
      rcases List.mem_cons.1 h with rfl | h
      · exact hk
      · exact ih h

/-- The entries of a store after a write are old ones or the written one. -/
theorem mem_set {m : Store α} {n : Nat} {x : α} {e : Nat × α} (h : e ∈ Store.set dflt m n x) : e ∈ m ∨ e = (n, x) := by
  induction m with
  | nil => by_cases hx : x = dflt <;> simp_all [Store.set]
  | cons f r ih =>
    obtain ⟨k, y⟩ := f
    simp only [Store.set] at h
    split at h
    · rcases List.mem_cons.1 h with rfl | h
      · simp
      · rcases ih h with h | h <;> simp [h]
    · split at h
      · exact .inl ((erase_sublist _ _).subset h)
      · rcases List.mem_cons.1 h with rfl | h
        · simp
        · exact .inl ((erase_sublist _ _).subset h)

/-- A write keeps the canonical form. -/
theorem set_wf {m : Store α} (h : Store.wf dflt m = true) (n : Nat) (x : α) : Store.wf dflt (Store.set dflt m n x) = true := by
  induction m with
  | nil => by_cases hx : x = dflt <;> simp [Store.set, Store.wf, hx]
  | cons f r ih =>
    obtain ⟨k, y⟩ := f
    have hh := (wf_iff _).1 h
    have hk : ∀ a ∈ r, k < a.1 := (List.pairwise_cons.1 hh.1).1
    have hs : (Store.erase ((k, y) :: r) n).Sublist ((k, y) :: r) := erase_sublist _ _
    simp only [Store.set]
    split
    · rename_i hlt
      rw [wf_iff, List.pairwise_cons]
      have hs := (wf_iff _).1 (ih (wf_tail h))
      refine ⟨⟨?_, hs.1⟩, ?_⟩
      · intro a ha
        rcases mem_set ha with ha | rfl
        · exact hk a ha
        · exact hlt
      · intro a ha
        rcases List.mem_cons.1 ha with rfl | ha
        · exact hh.2 (k, y) (by simp)
        · exact hs.2 a ha
    · rename_i hlt
      split
      · rw [wf_iff]
        exact ⟨hh.1.sublist hs, fun a ha => hh.2 a (hs.subset ha)⟩
      · rename_i hx
        rw [wf_iff, List.pairwise_cons]
        refine ⟨⟨?_, hh.1.sublist hs⟩, ?_⟩
        · intro a ha
          have hne := erase_ne ha
          rcases List.mem_cons.1 (hs.subset ha) with rfl | ha
          · simp only at hne ⊢
            omega
          · have := hk a ha
            simp only at *
            omega
        · intro a ha
          rcases List.mem_cons.1 ha with rfl | ha
          · exact hx
          · exact hh.2 a (hs.subset ha)

/-- Dropping entries keeps the canonical form. -/
theorem filter_wf {m : Store α} (h : Store.wf dflt m = true) (p : Nat × α → Bool) : Store.wf dflt (m.filter p) = true := by
  rw [wf_iff] at h ⊢
  exact ⟨h.1.filter _, fun e he => h.2 e (List.mem_filter.1 he).1⟩

omit [DecidableEq α] in
theorem get_erase_same (m : Store α) (n : Nat) : Store.get dflt (Store.erase m n) n = dflt := by
  induction m with
  | nil => rfl
  | cons f r ih =>
    obtain ⟨k, y⟩ := f
    by_cases h : k = n <;> simp [Store.erase, Store.get, h, ih]

omit [DecidableEq α] in
theorem get_erase_ne (m : Store α) {n k : Nat} (hne : k ≠ n) : Store.get dflt (Store.erase m n) k = Store.get dflt m k := by
  induction m with
  | nil => rfl
  | cons f r ih =>
    obtain ⟨l, y⟩ := f
    by_cases h : l = n
    · subst h; simp [Store.erase, Store.get, Ne.symm hne, ih]
    · simp [Store.erase, Store.get, h, ih]

/-- A read after a write to the same number gives the value written. -/
@[simp] theorem get_set_same (m : Store α) (n : Nat) (x : α) : Store.get dflt (Store.set dflt m n x) n = x := by
  induction m with
  | nil => by_cases hx : x = dflt <;> simp [Store.set, Store.get, hx]
  | cons f r ih =>
    obtain ⟨k, y⟩ := f
    simp only [Store.set]
    split
    · simp only [Store.get, if_neg (by omega : ¬k = n), ih]
    · split
      · rename_i hx; rw [get_erase_same, hx]
      · simp [Store.get]

/-- A write leaves every other number alone. -/
theorem get_set_ne (m : Store α) {n k : Nat} (hne : k ≠ n) (x : α) : Store.get dflt (Store.set dflt m n x) k = Store.get dflt m k := by
  induction m with
  | nil => by_cases hx : x = dflt <;> simp [Store.set, Store.get, hx, Ne.symm hne]
  | cons f r ih =>
    obtain ⟨l, y⟩ := f
    simp only [Store.set]
    split
    · simp only [Store.get, ih]
    · split
      · exact get_erase_ne _ hne
      · simp only [Store.get, if_neg (Ne.symm hne)]
        exact get_erase_ne ((l, y) :: r) hne

/-- What a store holds after a write. -/
theorem get_set (m : Store α) (n k : Nat) (x : α) :
    Store.get dflt (Store.set dflt m n x) k = if k = n then x else Store.get dflt m k := by
  split
  · rename_i h; rw [h, get_set_same]
  · rename_i h; exact get_set_ne m h x

/-! Memory. -/

theorem write_wf {m : Memory} (h : m.wf = true) (k : Nat) (b : Byte) : (m.write k b).wf = true := set_wf h k b

theorem writeAll_wf {m : Memory} (h : m.wf = true) (cells : List (Nat × Byte)) : (m.writeAll cells).wf = true := by
  induction cells generalizing m with
  | nil => exact h
  | cons c r ih => exact ih (write_wf h c.1 c.2)

theorem read_write_same (m : Memory) (k : Nat) (b : Byte) : (m.write k b).read k = b := get_set_same m k b

theorem read_write_ne (m : Memory) {k j : Nat} (hne : j ≠ k) (b : Byte) : (m.write k b).read j = m.read j := get_set_ne m hne b

/-- Bytes outside the cells written read as before. -/
theorem read_writeAll_other (m : Memory) {cells : List (Nat × Byte)} {j : Nat} (h : ∀ c ∈ cells, c.1 ≠ j) :
    (m.writeAll cells).read j = m.read j := by
  induction cells generalizing m with
  | nil => rfl
  | cons c r ih =>
    have e : m.writeAll (c :: r) = (m.write c.1 c.2).writeAll r := rfl
    rw [e, ih _ fun d hd => h d (List.mem_cons_of_mem _ hd), read_write_ne m (h c (by simp)).symm]

/-- The last write to a location is what it then reads as. -/
theorem read_writeAll_last (m : Memory) (pre post : List (Nat × Byte)) (k : Nat) (b : Byte)
    (hp : ∀ c ∈ post, c.1 ≠ k) : (m.writeAll (pre ++ (k, b) :: post)).read k = b := by
  have e : m.writeAll (pre ++ (k, b) :: post) = ((m.writeAll pre).write k b).writeAll post := by
    simp [Memory.writeAll, List.foldl_append]
  rw [e, read_writeAll_other _ hp, read_write_same]

theorem filter_memory_wf {m : Memory} (h : m.wf = true) (p : Nat × Byte → Bool) : Memory.wf (m.filter p) = true := filter_wf h p

end Sys2Proof.Laws
end

