-- ==== Sys2Proof/Laws/Agents.lean ====
section
/-!
SUPPORT. The registers of an agent: what each write of a chain, and the end of a chain, leaves, and what is read after.
-/
namespace Sys2Proof.Laws
open Sys2Proof.Machine

theorem at_make (f : Nat → Word) (l : Nat) : (Lanes.make f).at l = if l < 32 then f l else 0 := by
  simp only [Lanes.make, Lanes.at]
  by_cases h : l < 32 <;> simp [h]

/-! Writes held by a chain. -/

@[simp] theorem writeV_who (a : Agent) (r : Nat) (m : Word) (x : Lanes) : (a.writeV r m x).who = a.who := rfl
@[simp] theorem writeV_kind (a : Agent) (r : Nat) (m : Word) (x : Lanes) : (a.writeV r m x).kind = a.kind := rfl
@[simp] theorem writeV_place (a : Agent) (r : Nat) (m : Word) (x : Lanes) : (a.writeV r m x).place = a.place := rfl
@[simp] theorem writeV_ctx (a : Agent) (r : Nat) (m : Word) (x : Lanes) : (a.writeV r m x).ctx = a.ctx := rfl
@[simp] theorem writeV_unit (a : Agent) (r : Nat) (m : Word) (x : Lanes) : (a.writeV r m x).unit = a.unit := rfl
@[simp] theorem writeV_index (a : Agent) (r : Nat) (m : Word) (x : Lanes) : (a.writeV r m x).index = a.index := rfl
@[simp] theorem writeV_bcore (a : Agent) (r : Nat) (m : Word) (x : Lanes) : (a.writeV r m x).bcore = a.bcore := rfl
@[simp] theorem writeV_env (a : Agent) (r : Nat) (m : Word) (x : Lanes) : (a.writeV r m x).env = a.env := rfl
@[simp] theorem writeV_code (a : Agent) (r : Nat) (m : Word) (x : Lanes) : (a.writeV r m x).code = a.code := rfl
@[simp] theorem writeV_codeBase (a : Agent) (r : Nat) (m : Word) (x : Lanes) : (a.writeV r m x).codeBase = a.codeBase := rfl
@[simp] theorem writeV_quota (a : Agent) (r : Nat) (m : Word) (x : Lanes) : (a.writeV r m x).quota = a.quota := rfl
@[simp] theorem writeV_v (a : Agent) (r : Nat) (m : Word) (x : Lanes) : (a.writeV r m x).v = a.v := rfl
@[simp] theorem writeV_g (a : Agent) (r : Nat) (m : Word) (x : Lanes) : (a.writeV r m x).g = a.g := rfl
@[simp] theorem writeV_xt (a : Agent) (r : Nat) (m : Word) (x : Lanes) : (a.writeV r m x).xt = a.xt := rfl
@[simp] theorem writeV_scratch (a : Agent) (r : Nat) (m : Word) (x : Lanes) : (a.writeV r m x).scratch = a.scratch := rfl
@[simp] theorem writeV_others (a : Agent) (r : Nat) (m : Word) (x : Lanes) : (a.writeV r m x).others = a.others := rfl
@[simp] theorem writeV_splits (a : Agent) (r : Nat) (m : Word) (x : Lanes) : (a.writeV r m x).splits = a.splits := rfl
@[simp] theorem writeV_nextId (a : Agent) (r : Nat) (m : Word) (x : Lanes) : (a.writeV r m x).nextId = a.nextId := rfl
@[simp] theorem writeV_heldG (a : Agent) (r : Nat) (m : Word) (x : Lanes) : (a.writeV r m x).heldG = a.heldG := rfl
@[simp] theorem writeV_storeQ (a : Agent) (r : Nat) (m : Word) (x : Lanes) : (a.writeV r m x).storeQ = a.storeQ := rfl
@[simp] theorem writeV_arrivals (a : Agent) (r : Nat) (m : Word) (x : Lanes) : (a.writeV r m x).arrivals = a.arrivals := rfl
@[simp] theorem writeV_gath (a : Agent) (r : Nat) (m : Word) (x : Lanes) : (a.writeV r m x).gath = a.gath := rfl
@[simp] theorem writeV_relNext (a : Agent) (r : Nat) (m : Word) (x : Lanes) : (a.writeV r m x).relNext = a.relNext := rfl
@[simp] theorem writeV_mailbox (a : Agent) (r : Nat) (m : Word) (x : Lanes) : (a.writeV r m x).mailbox = a.mailbox := rfl
@[simp] theorem writeV_due (a : Agent) (r : Nat) (m : Word) (x : Lanes) : (a.writeV r m x).due = a.due := rfl
@[simp] theorem writeV_ready (a : Agent) (r : Nat) (m : Word) (x : Lanes) : (a.writeV r m x).ready = a.ready := rfl
@[simp] theorem writeV_timeFloor (a : Agent) (r : Nat) (m : Word) (x : Lanes) : (a.writeV r m x).timeFloor = a.timeFloor := rfl
@[simp] theorem writeV_run (a : Agent) (r : Nat) (m : Word) (x : Lanes) : (a.writeV r m x).run = a.run := rfl
@[simp] theorem writeV_retired (a : Agent) (r : Nat) (m : Word) (x : Lanes) : (a.writeV r m x).retired = a.retired := rfl
@[simp] theorem writeV_cycle (a : Agent) (r : Nat) (m : Word) (x : Lanes) : (a.writeV r m x).cycle = a.cycle := rfl
@[simp] theorem writeV_eclass (a : Agent) (r : Nat) (m : Word) (x : Lanes) : (a.writeV r m x).eclass = a.eclass := rfl
@[simp] theorem writeV_scaleW (a : Agent) (r : Nat) (m : Word) (x : Lanes) : (a.writeV r m x).scaleW = a.scaleW := rfl
@[simp] theorem writeV_quadW (a : Agent) (r : Nat) (m : Word) (x : Lanes) : (a.writeV r m x).quadW = a.quadW := rfl
@[simp] theorem writeV_batches (a : Agent) (r : Nat) (m : Word) (x : Lanes) : (a.writeV r m x).batches = a.batches := rfl
@[simp] theorem writeV_sepc (a : Agent) (r : Nat) (m : Word) (x : Lanes) : (a.writeV r m x).sepc = a.sepc := rfl
@[simp] theorem writeV_scause (a : Agent) (r : Nat) (m : Word) (x : Lanes) : (a.writeV r m x).scause = a.scause := rfl
@[simp] theorem writeV_stvec (a : Agent) (r : Nat) (m : Word) (x : Lanes) : (a.writeV r m x).stvec = a.stvec := rfl
@[simp] theorem writeV_cur_id (a : Agent) (r : Nat) (m : Word) (x : Lanes) : (a.writeV r m x).cur.id = a.cur.id := rfl
@[simp] theorem writeV_cur_ls (a : Agent) (r : Nat) (m : Word) (x : Lanes) : (a.writeV r m x).cur.ls = a.cur.ls := rfl
@[simp] theorem writeV_cur_em (a : Agent) (r : Nat) (m : Word) (x : Lanes) : (a.writeV r m x).cur.em = a.cur.em := rfl
@[simp] theorem writeV_cur_pc (a : Agent) (r : Nat) (m : Word) (x : Lanes) : (a.writeV r m x).cur.pc = a.cur.pc := rfl
@[simp] theorem writeV_cur_parent (a : Agent) (r : Nat) (m : Word) (x : Lanes) : (a.writeV r m x).cur.parent = a.cur.parent := rfl
@[simp] theorem writeV_cur_stack (a : Agent) (r : Nat) (m : Word) (x : Lanes) : (a.writeV r m x).cur.stack = a.cur.stack := rfl
@[simp] theorem writeV_cur_parked (a : Agent) (r : Nat) (m : Word) (x : Lanes) : (a.writeV r m x).cur.parked = a.cur.parked := rfl
@[simp] theorem writeV_cur_pos (a : Agent) (r : Nat) (m : Word) (x : Lanes) : (a.writeV r m x).cur.pos = a.cur.pos := rfl
@[simp] theorem writeV_cur_headPc (a : Agent) (r : Nat) (m : Word) (x : Lanes) : (a.writeV r m x).cur.headPc = a.cur.headPc := rfl
@[simp] theorem writeV_cur_headEm (a : Agent) (r : Nat) (m : Word) (x : Lanes) : (a.writeV r m x).cur.headEm = a.cur.headEm := rfl
@[simp] theorem writeV_cur_latches (a : Agent) (r : Nat) (m : Word) (x : Lanes) : (a.writeV r m x).cur.latches = a.cur.latches := rfl
@[simp] theorem writeV_cur_wait (a : Agent) (r : Nat) (m : Word) (x : Lanes) : (a.writeV r m x).cur.wait = a.cur.wait := rfl
@[simp] theorem writeV_cur_ready (a : Agent) (r : Nat) (m : Word) (x : Lanes) : (a.writeV r m x).cur.ready = a.cur.ready := rfl
@[simp] theorem writeV_cur_latchDue (a : Agent) (r : Nat) (m : Word) (x : Lanes) : (a.writeV r m x).cur.latchDue = a.cur.latchDue := rfl

@[simp] theorem writeXt_who (a : Agent) (r : Nat) (x : Xt) : (a.writeXt r x).who = a.who := rfl
@[simp] theorem writeXt_kind (a : Agent) (r : Nat) (x : Xt) : (a.writeXt r x).kind = a.kind := rfl
@[simp] theorem writeXt_place (a : Agent) (r : Nat) (x : Xt) : (a.writeXt r x).place = a.place := rfl
@[simp] theorem writeXt_ctx (a : Agent) (r : Nat) (x : Xt) : (a.writeXt r x).ctx = a.ctx := rfl
@[simp] theorem writeXt_unit (a : Agent) (r : Nat) (x : Xt) : (a.writeXt r x).unit = a.unit := rfl
@[simp] theorem writeXt_index (a : Agent) (r : Nat) (x : Xt) : (a.writeXt r x).index = a.index := rfl
@[simp] theorem writeXt_bcore (a : Agent) (r : Nat) (x : Xt) : (a.writeXt r x).bcore = a.bcore := rfl
@[simp] theorem writeXt_env (a : Agent) (r : Nat) (x : Xt) : (a.writeXt r x).env = a.env := rfl
@[simp] theorem writeXt_code (a : Agent) (r : Nat) (x : Xt) : (a.writeXt r x).code = a.code := rfl
@[simp] theorem writeXt_codeBase (a : Agent) (r : Nat) (x : Xt) : (a.writeXt r x).codeBase = a.codeBase := rfl
@[simp] theorem writeXt_quota (a : Agent) (r : Nat) (x : Xt) : (a.writeXt r x).quota = a.quota := rfl
@[simp] theorem writeXt_v (a : Agent) (r : Nat) (x : Xt) : (a.writeXt r x).v = a.v := rfl
@[simp] theorem writeXt_g (a : Agent) (r : Nat) (x : Xt) : (a.writeXt r x).g = a.g := rfl
@[simp] theorem writeXt_xt (a : Agent) (r : Nat) (x : Xt) : (a.writeXt r x).xt = a.xt := rfl
@[simp] theorem writeXt_scratch (a : Agent) (r : Nat) (x : Xt) : (a.writeXt r x).scratch = a.scratch := rfl
@[simp] theorem writeXt_cur (a : Agent) (r : Nat) (x : Xt) : (a.writeXt r x).cur = a.cur := rfl
@[simp] theorem writeXt_others (a : Agent) (r : Nat) (x : Xt) : (a.writeXt r x).others = a.others := rfl
@[simp] theorem writeXt_splits (a : Agent) (r : Nat) (x : Xt) : (a.writeXt r x).splits = a.splits := rfl
@[simp] theorem writeXt_nextId (a : Agent) (r : Nat) (x : Xt) : (a.writeXt r x).nextId = a.nextId := rfl
@[simp] theorem writeXt_storeQ (a : Agent) (r : Nat) (x : Xt) : (a.writeXt r x).storeQ = a.storeQ := rfl
@[simp] theorem writeXt_arrivals (a : Agent) (r : Nat) (x : Xt) : (a.writeXt r x).arrivals = a.arrivals := rfl
@[simp] theorem writeXt_gath (a : Agent) (r : Nat) (x : Xt) : (a.writeXt r x).gath = a.gath := rfl
@[simp] theorem writeXt_relNext (a : Agent) (r : Nat) (x : Xt) : (a.writeXt r x).relNext = a.relNext := rfl
@[simp] theorem writeXt_mailbox (a : Agent) (r : Nat) (x : Xt) : (a.writeXt r x).mailbox = a.mailbox := rfl
@[simp] theorem writeXt_due (a : Agent) (r : Nat) (x : Xt) : (a.writeXt r x).due = a.due := rfl
@[simp] theorem writeXt_ready (a : Agent) (r : Nat) (x : Xt) : (a.writeXt r x).ready = a.ready := rfl
@[simp] theorem writeXt_timeFloor (a : Agent) (r : Nat) (x : Xt) : (a.writeXt r x).timeFloor = a.timeFloor := rfl
@[simp] theorem writeXt_run (a : Agent) (r : Nat) (x : Xt) : (a.writeXt r x).run = a.run := rfl
@[simp] theorem writeXt_retired (a : Agent) (r : Nat) (x : Xt) : (a.writeXt r x).retired = a.retired := rfl
@[simp] theorem writeXt_cycle (a : Agent) (r : Nat) (x : Xt) : (a.writeXt r x).cycle = a.cycle := rfl
@[simp] theorem writeXt_eclass (a : Agent) (r : Nat) (x : Xt) : (a.writeXt r x).eclass = a.eclass := rfl
@[simp] theorem writeXt_scaleW (a : Agent) (r : Nat) (x : Xt) : (a.writeXt r x).scaleW = a.scaleW := rfl
@[simp] theorem writeXt_quadW (a : Agent) (r : Nat) (x : Xt) : (a.writeXt r x).quadW = a.quadW := rfl
@[simp] theorem writeXt_batches (a : Agent) (r : Nat) (x : Xt) : (a.writeXt r x).batches = a.batches := rfl
@[simp] theorem writeXt_sepc (a : Agent) (r : Nat) (x : Xt) : (a.writeXt r x).sepc = a.sepc := rfl
@[simp] theorem writeXt_scause (a : Agent) (r : Nat) (x : Xt) : (a.writeXt r x).scause = a.scause := rfl
@[simp] theorem writeXt_stvec (a : Agent) (r : Nat) (x : Xt) : (a.writeXt r x).stvec = a.stvec := rfl

@[simp] theorem writeScratch_who (a : Agent) (r : Nat) (x : DWord) : (a.writeScratch r x).who = a.who := rfl
@[simp] theorem writeScratch_kind (a : Agent) (r : Nat) (x : DWord) : (a.writeScratch r x).kind = a.kind := rfl
@[simp] theorem writeScratch_place (a : Agent) (r : Nat) (x : DWord) : (a.writeScratch r x).place = a.place := rfl
@[simp] theorem writeScratch_ctx (a : Agent) (r : Nat) (x : DWord) : (a.writeScratch r x).ctx = a.ctx := rfl
@[simp] theorem writeScratch_unit (a : Agent) (r : Nat) (x : DWord) : (a.writeScratch r x).unit = a.unit := rfl
@[simp] theorem writeScratch_index (a : Agent) (r : Nat) (x : DWord) : (a.writeScratch r x).index = a.index := rfl
@[simp] theorem writeScratch_bcore (a : Agent) (r : Nat) (x : DWord) : (a.writeScratch r x).bcore = a.bcore := rfl
@[simp] theorem writeScratch_env (a : Agent) (r : Nat) (x : DWord) : (a.writeScratch r x).env = a.env := rfl
@[simp] theorem writeScratch_code (a : Agent) (r : Nat) (x : DWord) : (a.writeScratch r x).code = a.code := rfl
@[simp] theorem writeScratch_codeBase (a : Agent) (r : Nat) (x : DWord) : (a.writeScratch r x).codeBase = a.codeBase := rfl
@[simp] theorem writeScratch_quota (a : Agent) (r : Nat) (x : DWord) : (a.writeScratch r x).quota = a.quota := rfl
@[simp] theorem writeScratch_v (a : Agent) (r : Nat) (x : DWord) : (a.writeScratch r x).v = a.v := rfl
@[simp] theorem writeScratch_g (a : Agent) (r : Nat) (x : DWord) : (a.writeScratch r x).g = a.g := rfl
@[simp] theorem writeScratch_xt (a : Agent) (r : Nat) (x : DWord) : (a.writeScratch r x).xt = a.xt := rfl
@[simp] theorem writeScratch_scratch (a : Agent) (r : Nat) (x : DWord) : (a.writeScratch r x).scratch = a.scratch := rfl
@[simp] theorem writeScratch_cur (a : Agent) (r : Nat) (x : DWord) : (a.writeScratch r x).cur = a.cur := rfl
@[simp] theorem writeScratch_others (a : Agent) (r : Nat) (x : DWord) : (a.writeScratch r x).others = a.others := rfl
@[simp] theorem writeScratch_splits (a : Agent) (r : Nat) (x : DWord) : (a.writeScratch r x).splits = a.splits := rfl
@[simp] theorem writeScratch_nextId (a : Agent) (r : Nat) (x : DWord) : (a.writeScratch r x).nextId = a.nextId := rfl
@[simp] theorem writeScratch_storeQ (a : Agent) (r : Nat) (x : DWord) : (a.writeScratch r x).storeQ = a.storeQ := rfl
@[simp] theorem writeScratch_arrivals (a : Agent) (r : Nat) (x : DWord) : (a.writeScratch r x).arrivals = a.arrivals := rfl
@[simp] theorem writeScratch_gath (a : Agent) (r : Nat) (x : DWord) : (a.writeScratch r x).gath = a.gath := rfl
@[simp] theorem writeScratch_relNext (a : Agent) (r : Nat) (x : DWord) : (a.writeScratch r x).relNext = a.relNext := rfl
@[simp] theorem writeScratch_mailbox (a : Agent) (r : Nat) (x : DWord) : (a.writeScratch r x).mailbox = a.mailbox := rfl
@[simp] theorem writeScratch_due (a : Agent) (r : Nat) (x : DWord) : (a.writeScratch r x).due = a.due := rfl
@[simp] theorem writeScratch_ready (a : Agent) (r : Nat) (x : DWord) : (a.writeScratch r x).ready = a.ready := rfl
@[simp] theorem writeScratch_timeFloor (a : Agent) (r : Nat) (x : DWord) : (a.writeScratch r x).timeFloor = a.timeFloor := rfl
@[simp] theorem writeScratch_run (a : Agent) (r : Nat) (x : DWord) : (a.writeScratch r x).run = a.run := rfl
@[simp] theorem writeScratch_retired (a : Agent) (r : Nat) (x : DWord) : (a.writeScratch r x).retired = a.retired := rfl
@[simp] theorem writeScratch_cycle (a : Agent) (r : Nat) (x : DWord) : (a.writeScratch r x).cycle = a.cycle := rfl
@[simp] theorem writeScratch_eclass (a : Agent) (r : Nat) (x : DWord) : (a.writeScratch r x).eclass = a.eclass := rfl
@[simp] theorem writeScratch_scaleW (a : Agent) (r : Nat) (x : DWord) : (a.writeScratch r x).scaleW = a.scaleW := rfl
@[simp] theorem writeScratch_quadW (a : Agent) (r : Nat) (x : DWord) : (a.writeScratch r x).quadW = a.quadW := rfl
@[simp] theorem writeScratch_batches (a : Agent) (r : Nat) (x : DWord) : (a.writeScratch r x).batches = a.batches := rfl
@[simp] theorem writeScratch_sepc (a : Agent) (r : Nat) (x : DWord) : (a.writeScratch r x).sepc = a.sepc := rfl
@[simp] theorem writeScratch_scause (a : Agent) (r : Nat) (x : DWord) : (a.writeScratch r x).scause = a.scause := rfl
@[simp] theorem writeScratch_stvec (a : Agent) (r : Nat) (x : DWord) : (a.writeScratch r x).stvec = a.stvec := rfl

@[simp] theorem writeG_who (a : Agent) (r : Nat) (x : DWord) : (a.writeG r x).who = a.who := by
  unfold Agent.writeG; split <;> rfl
@[simp] theorem writeG_kind (a : Agent) (r : Nat) (x : DWord) : (a.writeG r x).kind = a.kind := by
  unfold Agent.writeG; split <;> rfl
@[simp] theorem writeG_place (a : Agent) (r : Nat) (x : DWord) : (a.writeG r x).place = a.place := by
  unfold Agent.writeG; split <;> rfl
@[simp] theorem writeG_ctx (a : Agent) (r : Nat) (x : DWord) : (a.writeG r x).ctx = a.ctx := by
  unfold Agent.writeG; split <;> rfl
@[simp] theorem writeG_unit (a : Agent) (r : Nat) (x : DWord) : (a.writeG r x).unit = a.unit := by
  unfold Agent.writeG; split <;> rfl
@[simp] theorem writeG_index (a : Agent) (r : Nat) (x : DWord) : (a.writeG r x).index = a.index := by
  unfold Agent.writeG; split <;> rfl
@[simp] theorem writeG_bcore (a : Agent) (r : Nat) (x : DWord) : (a.writeG r x).bcore = a.bcore := by
  unfold Agent.writeG; split <;> rfl
@[simp] theorem writeG_env (a : Agent) (r : Nat) (x : DWord) : (a.writeG r x).env = a.env := by
  unfold Agent.writeG; split <;> rfl
@[simp] theorem writeG_code (a : Agent) (r : Nat) (x : DWord) : (a.writeG r x).code = a.code := by
  unfold Agent.writeG; split <;> rfl
@[simp] theorem writeG_codeBase (a : Agent) (r : Nat) (x : DWord) : (a.writeG r x).codeBase = a.codeBase := by
  unfold Agent.writeG; split <;> rfl
@[simp] theorem writeG_quota (a : Agent) (r : Nat) (x : DWord) : (a.writeG r x).quota = a.quota := by
  unfold Agent.writeG; split <;> rfl
@[simp] theorem writeG_v (a : Agent) (r : Nat) (x : DWord) : (a.writeG r x).v = a.v := by
  unfold Agent.writeG; split <;> rfl
@[simp] theorem writeG_g (a : Agent) (r : Nat) (x : DWord) : (a.writeG r x).g = a.g := by
  unfold Agent.writeG; split <;> rfl
@[simp] theorem writeG_xt (a : Agent) (r : Nat) (x : DWord) : (a.writeG r x).xt = a.xt := by
  unfold Agent.writeG; split <;> rfl
@[simp] theorem writeG_scratch (a : Agent) (r : Nat) (x : DWord) : (a.writeG r x).scratch = a.scratch := by
  unfold Agent.writeG; split <;> rfl
@[simp] theorem writeG_cur (a : Agent) (r : Nat) (x : DWord) : (a.writeG r x).cur = a.cur := by
  unfold Agent.writeG; split <;> rfl
@[simp] theorem writeG_others (a : Agent) (r : Nat) (x : DWord) : (a.writeG r x).others = a.others := by
  unfold Agent.writeG; split <;> rfl
@[simp] theorem writeG_splits (a : Agent) (r : Nat) (x : DWord) : (a.writeG r x).splits = a.splits := by
  unfold Agent.writeG; split <;> rfl
@[simp] theorem writeG_nextId (a : Agent) (r : Nat) (x : DWord) : (a.writeG r x).nextId = a.nextId := by
  unfold Agent.writeG; split <;> rfl
@[simp] theorem writeG_storeQ (a : Agent) (r : Nat) (x : DWord) : (a.writeG r x).storeQ = a.storeQ := by
  unfold Agent.writeG; split <;> rfl
@[simp] theorem writeG_arrivals (a : Agent) (r : Nat) (x : DWord) : (a.writeG r x).arrivals = a.arrivals := by
  unfold Agent.writeG; split <;> rfl
@[simp] theorem writeG_gath (a : Agent) (r : Nat) (x : DWord) : (a.writeG r x).gath = a.gath := by
  unfold Agent.writeG; split <;> rfl
@[simp] theorem writeG_relNext (a : Agent) (r : Nat) (x : DWord) : (a.writeG r x).relNext = a.relNext := by
  unfold Agent.writeG; split <;> rfl
@[simp] theorem writeG_mailbox (a : Agent) (r : Nat) (x : DWord) : (a.writeG r x).mailbox = a.mailbox := by
  unfold Agent.writeG; split <;> rfl
@[simp] theorem writeG_due (a : Agent) (r : Nat) (x : DWord) : (a.writeG r x).due = a.due := by
  unfold Agent.writeG; split <;> rfl
@[simp] theorem writeG_ready (a : Agent) (r : Nat) (x : DWord) : (a.writeG r x).ready = a.ready := by
  unfold Agent.writeG; split <;> rfl
@[simp] theorem writeG_timeFloor (a : Agent) (r : Nat) (x : DWord) : (a.writeG r x).timeFloor = a.timeFloor := by
  unfold Agent.writeG; split <;> rfl
@[simp] theorem writeG_run (a : Agent) (r : Nat) (x : DWord) : (a.writeG r x).run = a.run := by
  unfold Agent.writeG; split <;> rfl
@[simp] theorem writeG_retired (a : Agent) (r : Nat) (x : DWord) : (a.writeG r x).retired = a.retired := by
  unfold Agent.writeG; split <;> rfl
@[simp] theorem writeG_cycle (a : Agent) (r : Nat) (x : DWord) : (a.writeG r x).cycle = a.cycle := by
  unfold Agent.writeG; split <;> rfl
@[simp] theorem writeG_eclass (a : Agent) (r : Nat) (x : DWord) : (a.writeG r x).eclass = a.eclass := by
  unfold Agent.writeG; split <;> rfl
@[simp] theorem writeG_scaleW (a : Agent) (r : Nat) (x : DWord) : (a.writeG r x).scaleW = a.scaleW := by
  unfold Agent.writeG; split <;> rfl
@[simp] theorem writeG_quadW (a : Agent) (r : Nat) (x : DWord) : (a.writeG r x).quadW = a.quadW := by
  unfold Agent.writeG; split <;> rfl
@[simp] theorem writeG_batches (a : Agent) (r : Nat) (x : DWord) : (a.writeG r x).batches = a.batches := by
  unfold Agent.writeG; split <;> rfl
@[simp] theorem writeG_sepc (a : Agent) (r : Nat) (x : DWord) : (a.writeG r x).sepc = a.sepc := by
  unfold Agent.writeG; split <;> rfl
@[simp] theorem writeG_scause (a : Agent) (r : Nat) (x : DWord) : (a.writeG r x).scause = a.scause := by
  unfold Agent.writeG; split <;> rfl
@[simp] theorem writeG_stvec (a : Agent) (r : Nat) (x : DWord) : (a.writeG r x).stvec = a.stvec := by
  unfold Agent.writeG; split <;> rfl

theorem applyHeldG_shape (a : Agent) (i : Nat) (hs : List HeldG) :
    applyHeldG a i hs = { a with g := (applyHeldG a i hs).g, xt := (applyHeldG a i hs).xt,
                                 scratch := (applyHeldG a i hs).scratch } := by
  induction hs with
  | nil => rfl
  | cons h r ih =>
    simp only [applyHeldG]
    split
    · split <;> (rw [ih])
    · exact ih

/-- What the end of a chain changes of an agent: its files, the held writes and its chain. -/
theorem endChain_shape (a : Agent) :
    a.endChain = { a with v := a.endChain.v, g := a.endChain.g, xt := a.endChain.xt, scratch := a.endChain.scratch,
                          heldG := a.endChain.heldG, retired := a.endChain.retired, cur := a.endChain.cur } := by
  simp only [Agent.endChain]
  rw [applyHeldG_shape a a.cur.id a.heldG]

@[simp] theorem endChain_who (a : Agent) : a.endChain.who = a.who := by rw [endChain_shape]
@[simp] theorem endChain_kind (a : Agent) : a.endChain.kind = a.kind := by rw [endChain_shape]
@[simp] theorem endChain_place (a : Agent) : a.endChain.place = a.place := by rw [endChain_shape]
@[simp] theorem endChain_ctx (a : Agent) : a.endChain.ctx = a.ctx := by rw [endChain_shape]
@[simp] theorem endChain_unit (a : Agent) : a.endChain.unit = a.unit := by rw [endChain_shape]
@[simp] theorem endChain_index (a : Agent) : a.endChain.index = a.index := by rw [endChain_shape]
@[simp] theorem endChain_bcore (a : Agent) : a.endChain.bcore = a.bcore := by rw [endChain_shape]
@[simp] theorem endChain_env (a : Agent) : a.endChain.env = a.env := by rw [endChain_shape]
@[simp] theorem endChain_code (a : Agent) : a.endChain.code = a.code := by rw [endChain_shape]
@[simp] theorem endChain_codeBase (a : Agent) : a.endChain.codeBase = a.codeBase := by rw [endChain_shape]
@[simp] theorem endChain_quota (a : Agent) : a.endChain.quota = a.quota := by rw [endChain_shape]
@[simp] theorem endChain_others (a : Agent) : a.endChain.others = a.others := by rw [endChain_shape]
@[simp] theorem endChain_splits (a : Agent) : a.endChain.splits = a.splits := by rw [endChain_shape]
@[simp] theorem endChain_nextId (a : Agent) : a.endChain.nextId = a.nextId := by rw [endChain_shape]
@[simp] theorem endChain_storeQ (a : Agent) : a.endChain.storeQ = a.storeQ := by rw [endChain_shape]
@[simp] theorem endChain_arrivals (a : Agent) : a.endChain.arrivals = a.arrivals := by rw [endChain_shape]
@[simp] theorem endChain_gath (a : Agent) : a.endChain.gath = a.gath := by rw [endChain_shape]
@[simp] theorem endChain_relNext (a : Agent) : a.endChain.relNext = a.relNext := by rw [endChain_shape]
@[simp] theorem endChain_mailbox (a : Agent) : a.endChain.mailbox = a.mailbox := by rw [endChain_shape]
@[simp] theorem endChain_due (a : Agent) : a.endChain.due = a.due := by rw [endChain_shape]
@[simp] theorem endChain_ready (a : Agent) : a.endChain.ready = a.ready := by rw [endChain_shape]
@[simp] theorem endChain_timeFloor (a : Agent) : a.endChain.timeFloor = a.timeFloor := by rw [endChain_shape]
@[simp] theorem endChain_run (a : Agent) : a.endChain.run = a.run := by rw [endChain_shape]
@[simp] theorem endChain_cycle (a : Agent) : a.endChain.cycle = a.cycle := by rw [endChain_shape]
@[simp] theorem endChain_eclass (a : Agent) : a.endChain.eclass = a.eclass := by rw [endChain_shape]
@[simp] theorem endChain_scaleW (a : Agent) : a.endChain.scaleW = a.scaleW := by rw [endChain_shape]
@[simp] theorem endChain_quadW (a : Agent) : a.endChain.quadW = a.quadW := by rw [endChain_shape]
@[simp] theorem endChain_batches (a : Agent) : a.endChain.batches = a.batches := by rw [endChain_shape]
@[simp] theorem endChain_sepc (a : Agent) : a.endChain.sepc = a.sepc := by rw [endChain_shape]
@[simp] theorem endChain_scause (a : Agent) : a.endChain.scause = a.scause := by rw [endChain_shape]
@[simp] theorem endChain_stvec (a : Agent) : a.endChain.stvec = a.stvec := by rw [endChain_shape]
@[simp] theorem endChain_cur_id (a : Agent) : a.endChain.cur.id = a.cur.id := rfl
@[simp] theorem endChain_cur_ls (a : Agent) : a.endChain.cur.ls = a.cur.ls := rfl
@[simp] theorem endChain_cur_em (a : Agent) : a.endChain.cur.em = a.cur.em := rfl
@[simp] theorem endChain_cur_pc (a : Agent) : a.endChain.cur.pc = a.cur.pc := rfl
@[simp] theorem endChain_cur_parent (a : Agent) : a.endChain.cur.parent = a.cur.parent := rfl
@[simp] theorem endChain_cur_stack (a : Agent) : a.endChain.cur.stack = a.cur.stack := rfl
@[simp] theorem endChain_cur_parked (a : Agent) : a.endChain.cur.parked = a.cur.parked := rfl
@[simp] theorem endChain_cur_wait (a : Agent) : a.endChain.cur.wait = a.cur.wait := rfl
@[simp] theorem endChain_cur_ready (a : Agent) : a.endChain.cur.ready = a.cur.ready := rfl
@[simp] theorem endChain_cur_latchDue (a : Agent) : a.endChain.cur.latchDue = a.cur.latchDue := rfl
@[simp] theorem endChain_cur_pos (a : Agent) : a.endChain.cur.pos = 0 := rfl
@[simp] theorem endChain_cur_headPc (a : Agent) : a.endChain.cur.headPc = a.cur.pc := rfl
@[simp] theorem endChain_cur_headEm (a : Agent) : a.endChain.cur.headEm = a.cur.em := rfl
@[simp] theorem endChain_cur_latches (a : Agent) : a.endChain.cur.latches = .void := rfl
@[simp] theorem endChain_cur_held (a : Agent) : a.endChain.cur.held = [] := rfl
@[simp] theorem endChain_retired (a : Agent) : a.endChain.retired = a.retired + BitVec.ofNat 64 a.cur.pos := rfl
@[simp] theorem endChain_heldG (a : Agent) : a.endChain.heldG = remainingHeldG a.cur.id a.heldG [] := rfl
@[simp] theorem endChain_v (a : Agent) : a.endChain.v = applyHeldV a.v a.cur.held := rfl

/-! What is read. -/

theorem readV_writeV (a : Agent) (r : Nat) (m : Word) (x : Lanes) (n l : Nat) :
    (a.writeV r m x).readV n l = if r = n ∧ m.getLsbD l then x.at l else a.readV n l := by
  simp only [Agent.readV, Agent.writeV, heldLane]
  split <;> simp

@[simp] theorem readV_writeG (a : Agent) (r : Nat) (x : DWord) (n l : Nat) : (a.writeG r x).readV n l = a.readV n l := by
  simp [Agent.readV]
@[simp] theorem readV_writeXt (a : Agent) (r : Nat) (x : Xt) (n l : Nat) : (a.writeXt r x).readV n l = a.readV n l := rfl
@[simp] theorem readV_writeScratch (a : Agent) (r : Nat) (x : DWord) (n l : Nat) :
    (a.writeScratch r x).readV n l = a.readV n l := rfl

@[simp] theorem readG_zero (a : Agent) : a.readG 0 = 0 := by simp [Agent.readG]

theorem readG_writeG (a : Agent) (r n : Nat) (x : DWord) :
    (a.writeG r x).readG n = if n = r ∧ r ≠ 0 then x else a.readG n := by
  by_cases hn : n = 0
  · simp [hn]; rintro rfl; simp
  · by_cases hr : r = 0
    · simp [Agent.writeG, hr]
    · simp only [Agent.readG, Agent.writeG, if_neg hr, if_neg hn, heldGVal, true_and]
      by_cases h : r = n
      · simp [h, hn]
      · simp [h, Ne.symm h]

@[simp] theorem readG_writeV (a : Agent) (r : Nat) (m : Word) (x : Lanes) (n : Nat) : (a.writeV r m x).readG n = a.readG n := rfl
@[simp] theorem readG_writeXt (a : Agent) (r : Nat) (x : Xt) (n : Nat) : (a.writeXt r x).readG n = a.readG n := by
  simp [Agent.readG, Agent.writeXt, heldGVal]
@[simp] theorem readG_writeScratch (a : Agent) (r : Nat) (x : DWord) (n : Nat) :
    (a.writeScratch r x).readG n = a.readG n := by
  simp [Agent.readG, Agent.writeScratch, heldGVal]

theorem readXt_writeXt (a : Agent) (r n : Nat) (x : Xt) :
    (a.writeXt r x).readXt n = if n = r then x else a.readXt n := by
  simp only [Agent.readXt, Agent.writeXt, heldXtVal, true_and]
  by_cases h : r = n <;> simp [h, eq_comm]
@[simp] theorem readXt_writeV (a : Agent) (r : Nat) (m : Word) (x : Lanes) (n : Nat) : (a.writeV r m x).readXt n = a.readXt n := rfl
@[simp] theorem readXt_writeG (a : Agent) (r : Nat) (x : DWord) (n : Nat) : (a.writeG r x).readXt n = a.readXt n := by
  simp only [Agent.readXt, Agent.writeG]; split <;> simp [heldXtVal]
@[simp] theorem readXt_writeScratch (a : Agent) (r : Nat) (x : DWord) (n : Nat) :
    (a.writeScratch r x).readXt n = a.readXt n := by simp [Agent.readXt, Agent.writeScratch, heldXtVal]

theorem readScratch_writeScratch (a : Agent) (r n : Nat) (x : DWord) :
    (a.writeScratch r x).readScratch n = if n = r then x else a.readScratch n := by
  simp only [Agent.readScratch, Agent.writeScratch, heldScratchVal, true_and]
  by_cases h : r = n <;> simp [h, eq_comm]
@[simp] theorem readScratch_writeV (a : Agent) (r : Nat) (m : Word) (x : Lanes) (n : Nat) :
    (a.writeV r m x).readScratch n = a.readScratch n := rfl
@[simp] theorem readScratch_writeG (a : Agent) (r : Nat) (x : DWord) (n : Nat) :
    (a.writeG r x).readScratch n = a.readScratch n := by
  simp only [Agent.readScratch, Agent.writeG]; split <;> simp [heldScratchVal]
@[simp] theorem readScratch_writeXt (a : Agent) (r : Nat) (x : Xt) (n : Nat) :
    (a.writeXt r x).readScratch n = a.readScratch n := by simp [Agent.readScratch, Agent.writeXt, heldScratchVal]

/-! The end of a chain makes its writes final: what its sub-group reads stays. -/

/-- Lanes.at of a register after held writes. -/
theorem applyHeldV_at (v : Store Lanes) (hs : List HeldV) (n l : Nat) (hl : l < 32) :
    (Store.get Lanes.zero (applyHeldV v hs) n).at l = (heldLane hs n l).getD ((Store.get Lanes.zero v n).at l) := by
  induction hs with
  | nil => rfl
  | cons h r ih =>
    simp only [applyHeldV, heldLane, get_set]
    by_cases e : n = h.reg
    · subst e
      simp only [if_pos, Lanes.merge, at_make, if_pos hl, true_and]
      by_cases m : h.mask.getLsbD l <;> simp [m, ih]
    · simp [e, Ne.symm e, ih]

@[simp] theorem readV_endChain (a : Agent) (n l : Nat) (hl : l < 32) : a.endChain.readV n l = a.readV n l := by
  simp only [Agent.readV, endChain_v, endChain_cur_held, heldLane, Option.getD_none]
  exact applyHeldV_at _ _ _ _ hl

theorem remaining_val (i n : Nat) (hs : List HeldG) (seen : List (Nat × Nat)) :
    heldGVal (remainingHeldG i hs seen) i n = none ∧ heldXtVal (remainingHeldG i hs seen) i n = none ∧
      heldScratchVal (remainingHeldG i hs seen) i n = none := by
  induction hs generalizing seen with
  | nil => simp [remainingHeldG, heldGVal, heldXtVal, heldScratchVal]
  | cons h r ih =>
    simp only [remainingHeldG]
    split
    · exact ih _
    · rename_i hne
      split
      · exact ih _
      · obtain ⟨j, w⟩ := h
        cases w <;> simp_all [heldGVal, heldXtVal, heldScratchVal]

theorem applyHeldG_vals (a : Agent) (i : Nat) (hs : List HeldG) (n : Nat) :
    Store.get 0 (applyHeldG a i hs).g n = (heldGVal hs i n).getD (Store.get 0 a.g n) ∧
      Store.get Xt.zero (applyHeldG a i hs).xt n = (heldXtVal hs i n).getD (Store.get Xt.zero a.xt n) ∧
      Store.get 0 (applyHeldG a i hs).scratch n = (heldScratchVal hs i n).getD (Store.get 0 a.scratch n) := by
  induction hs with
  | nil => simp [applyHeldG, heldGVal, heldXtVal, heldScratchVal]
  | cons h r ih =>
    obtain ⟨j, w⟩ := h
    simp only [BitVec.ofNat_eq_ofNat] at ih
    simp only [applyHeldG]
    by_cases e : j = i
    · subst e
      cases w with
      | g k x =>
        simp only [if_pos, heldGVal, heldXtVal, heldScratchVal, true_and, get_set]
        by_cases hk : k = n
        · subst hk; simp [ih]
        · simp [hk, Ne.symm hk, ih]
      | xt k x =>
        simp only [if_pos, heldGVal, heldXtVal, heldScratchVal, true_and, get_set]
        by_cases hk : k = n
        · subst hk; simp [ih]
        · simp [hk, Ne.symm hk, ih]
      | scratch k x =>
        simp only [if_pos, heldGVal, heldXtVal, heldScratchVal, true_and, get_set]
        by_cases hk : k = n
        · subst hk; simp [ih]
        · simp [hk, Ne.symm hk, ih]
    · rw [if_neg e]
      cases w <;> simp [heldGVal, heldXtVal, heldScratchVal, e, ih]

@[simp] theorem readG_endChain (a : Agent) (n : Nat) : a.endChain.readG n = a.readG n := by
  by_cases hn : n = 0
  · simp [hn]
  · have h := (applyHeldG_vals a a.cur.id a.heldG n).1
    simp only [Agent.readG, if_neg hn, endChain_heldG, endChain_cur_id, (remaining_val _ _ _ _).1, Option.getD_none]
    exact h

@[simp] theorem readXt_endChain (a : Agent) (n : Nat) : a.endChain.readXt n = a.readXt n := by
  have h := (applyHeldG_vals a a.cur.id a.heldG n).2.1
  simp only [Agent.readXt, endChain_heldG, endChain_cur_id, (remaining_val _ _ _ _).2.1, Option.getD_none]
  exact h

@[simp] theorem readScratch_endChain (a : Agent) (n : Nat) : a.endChain.readScratch n = a.readScratch n := by
  have h := (applyHeldG_vals a a.cur.id a.heldG n).2.2
  simp only [Agent.readScratch, endChain_heldG, endChain_cur_id, (remaining_val _ _ _ _).2.2, Option.getD_none]
  exact h

/-! An instruction has executed. -/

/-- Whether the chain ends with an instruction of the agent (R51). -/
def chainEnds (a : Agent) (ends : Bool) : Bool := ends || decide (8 ≤ a.cur.pos + 1) || a.kind == .csq

@[simp] theorem retire_who (a : Agent) (r : Option Lanes) (p : Word) (e : Bool) : (a.retire r p e).who = a.who := by
  simp only [Agent.retire]; split <;> simp
@[simp] theorem retire_kind (a : Agent) (r : Option Lanes) (p : Word) (e : Bool) : (a.retire r p e).kind = a.kind := by
  simp only [Agent.retire]; split <;> simp
@[simp] theorem retire_place (a : Agent) (r : Option Lanes) (p : Word) (e : Bool) : (a.retire r p e).place = a.place := by
  simp only [Agent.retire]; split <;> simp
@[simp] theorem retire_ctx (a : Agent) (r : Option Lanes) (p : Word) (e : Bool) : (a.retire r p e).ctx = a.ctx := by
  simp only [Agent.retire]; split <;> simp
@[simp] theorem retire_unit (a : Agent) (r : Option Lanes) (p : Word) (e : Bool) : (a.retire r p e).unit = a.unit := by
  simp only [Agent.retire]; split <;> simp
@[simp] theorem retire_index (a : Agent) (r : Option Lanes) (p : Word) (e : Bool) : (a.retire r p e).index = a.index := by
  simp only [Agent.retire]; split <;> simp
@[simp] theorem retire_bcore (a : Agent) (r : Option Lanes) (p : Word) (e : Bool) : (a.retire r p e).bcore = a.bcore := by
  simp only [Agent.retire]; split <;> simp
@[simp] theorem retire_env (a : Agent) (r : Option Lanes) (p : Word) (e : Bool) : (a.retire r p e).env = a.env := by
  simp only [Agent.retire]; split <;> simp
@[simp] theorem retire_code (a : Agent) (r : Option Lanes) (p : Word) (e : Bool) : (a.retire r p e).code = a.code := by
  simp only [Agent.retire]; split <;> simp
@[simp] theorem retire_codeBase (a : Agent) (r : Option Lanes) (p : Word) (e : Bool) : (a.retire r p e).codeBase = a.codeBase := by
  simp only [Agent.retire]; split <;> simp
@[simp] theorem retire_quota (a : Agent) (r : Option Lanes) (p : Word) (e : Bool) : (a.retire r p e).quota = a.quota := by
  simp only [Agent.retire]; split <;> simp
@[simp] theorem retire_others (a : Agent) (r : Option Lanes) (p : Word) (e : Bool) : (a.retire r p e).others = a.others := by
  simp only [Agent.retire]; split <;> simp
@[simp] theorem retire_splits (a : Agent) (r : Option Lanes) (p : Word) (e : Bool) : (a.retire r p e).splits = a.splits := by
  simp only [Agent.retire]; split <;> simp
@[simp] theorem retire_nextId (a : Agent) (r : Option Lanes) (p : Word) (e : Bool) : (a.retire r p e).nextId = a.nextId := by
  simp only [Agent.retire]; split <;> simp
@[simp] theorem retire_storeQ (a : Agent) (r : Option Lanes) (p : Word) (e : Bool) : (a.retire r p e).storeQ = a.storeQ := by
  simp only [Agent.retire]; split <;> simp
@[simp] theorem retire_arrivals (a : Agent) (r : Option Lanes) (p : Word) (e : Bool) : (a.retire r p e).arrivals = a.arrivals := by
  simp only [Agent.retire]; split <;> simp
@[simp] theorem retire_gath (a : Agent) (r : Option Lanes) (p : Word) (e : Bool) : (a.retire r p e).gath = a.gath := by
  simp only [Agent.retire]; split <;> simp
@[simp] theorem retire_relNext (a : Agent) (r : Option Lanes) (p : Word) (e : Bool) : (a.retire r p e).relNext = a.relNext := by
  simp only [Agent.retire]; split <;> simp
@[simp] theorem retire_mailbox (a : Agent) (r : Option Lanes) (p : Word) (e : Bool) : (a.retire r p e).mailbox = a.mailbox := by
  simp only [Agent.retire]; split <;> simp
@[simp] theorem retire_due (a : Agent) (r : Option Lanes) (p : Word) (e : Bool) : (a.retire r p e).due = a.due := by
  simp only [Agent.retire]; split <;> simp
@[simp] theorem retire_ready (a : Agent) (r : Option Lanes) (p : Word) (e : Bool) : (a.retire r p e).ready = a.ready := by
  simp only [Agent.retire]; split <;> simp
@[simp] theorem retire_timeFloor (a : Agent) (r : Option Lanes) (p : Word) (e : Bool) : (a.retire r p e).timeFloor = a.timeFloor := by
  simp only [Agent.retire]; split <;> simp
@[simp] theorem retire_run (a : Agent) (r : Option Lanes) (p : Word) (e : Bool) : (a.retire r p e).run = a.run := by
  simp only [Agent.retire]; split <;> simp
@[simp] theorem retire_cycle (a : Agent) (r : Option Lanes) (p : Word) (e : Bool) : (a.retire r p e).cycle = a.cycle := by
  simp only [Agent.retire]; split <;> simp
@[simp] theorem retire_eclass (a : Agent) (r : Option Lanes) (p : Word) (e : Bool) : (a.retire r p e).eclass = a.eclass := by
  simp only [Agent.retire]; split <;> simp
@[simp] theorem retire_scaleW (a : Agent) (r : Option Lanes) (p : Word) (e : Bool) : (a.retire r p e).scaleW = a.scaleW := by
  simp only [Agent.retire]; split <;> simp
@[simp] theorem retire_quadW (a : Agent) (r : Option Lanes) (p : Word) (e : Bool) : (a.retire r p e).quadW = a.quadW := by
  simp only [Agent.retire]; split <;> simp
@[simp] theorem retire_batches (a : Agent) (r : Option Lanes) (p : Word) (e : Bool) : (a.retire r p e).batches = a.batches := by
  simp only [Agent.retire]; split <;> simp
@[simp] theorem retire_sepc (a : Agent) (r : Option Lanes) (p : Word) (e : Bool) : (a.retire r p e).sepc = a.sepc := by
  simp only [Agent.retire]; split <;> simp
@[simp] theorem retire_scause (a : Agent) (r : Option Lanes) (p : Word) (e : Bool) : (a.retire r p e).scause = a.scause := by
  simp only [Agent.retire]; split <;> simp
@[simp] theorem retire_stvec (a : Agent) (r : Option Lanes) (p : Word) (e : Bool) : (a.retire r p e).stvec = a.stvec := by
  simp only [Agent.retire]; split <;> simp
@[simp] theorem retire_cur_id (a : Agent) (r : Option Lanes) (p : Word) (e : Bool) :
    (a.retire r p e).cur.id = a.cur.id := by
  simp only [Agent.retire]; split <;> simp
@[simp] theorem retire_cur_ls (a : Agent) (r : Option Lanes) (p : Word) (e : Bool) :
    (a.retire r p e).cur.ls = a.cur.ls := by
  simp only [Agent.retire]; split <;> simp
@[simp] theorem retire_cur_em (a : Agent) (r : Option Lanes) (p : Word) (e : Bool) :
    (a.retire r p e).cur.em = a.cur.em := by
  simp only [Agent.retire]; split <;> simp
@[simp] theorem retire_cur_parent (a : Agent) (r : Option Lanes) (p : Word) (e : Bool) :
    (a.retire r p e).cur.parent = a.cur.parent := by
  simp only [Agent.retire]; split <;> simp
@[simp] theorem retire_cur_stack (a : Agent) (r : Option Lanes) (p : Word) (e : Bool) :
    (a.retire r p e).cur.stack = a.cur.stack := by
  simp only [Agent.retire]; split <;> simp
@[simp] theorem retire_cur_parked (a : Agent) (r : Option Lanes) (p : Word) (e : Bool) :
    (a.retire r p e).cur.parked = a.cur.parked := by
  simp only [Agent.retire]; split <;> simp
@[simp] theorem retire_cur_pc (a : Agent) (r : Option Lanes) (p : Word) (e : Bool) : (a.retire r p e).cur.pc = p := by
  simp only [Agent.retire]; split <;> simp
theorem retire_cur_pos (a : Agent) (r : Option Lanes) (p : Word) (e : Bool) :
    (a.retire r p e).cur.pos = if chainEnds a e then 0 else a.cur.pos + 1 := by
  simp only [Agent.retire, chainEnds]; split <;> simp_all
theorem retire_cur_latches (a : Agent) (r : Option Lanes) (p : Word) (e : Bool) :
    (a.retire r p e).cur.latches
      = if chainEnds a e then .void else ⟨r, a.cur.latches.b0, a.cur.latches.b1, a.cur.latches.b2⟩ := by
  simp only [Agent.retire, chainEnds]; split <;> simp_all
theorem retire_retired (a : Agent) (r : Option Lanes) (p : Word) (e : Bool) :
    (a.retire r p e).retired = if chainEnds a e then a.retired + BitVec.ofNat 64 (a.cur.pos + 1) else a.retired := by
  simp only [Agent.retire, chainEnds]; split <;> simp_all

@[simp] theorem readV_retire (a : Agent) (r : Option Lanes) (p : Word) (e : Bool) (n l : Nat) (hl : l < 32) :
    (a.retire r p e).readV n l = a.readV n l := by
  simp only [Agent.retire]
  split
  · rw [readV_endChain _ _ _ hl]; rfl
  · rfl
@[simp] theorem readG_retire (a : Agent) (r : Option Lanes) (p : Word) (e : Bool) (n : Nat) :
    (a.retire r p e).readG n = a.readG n := by
  simp only [Agent.retire]
  split
  · rw [readG_endChain]; rfl
  · rfl
@[simp] theorem readXt_retire (a : Agent) (r : Option Lanes) (p : Word) (e : Bool) (n : Nat) :
    (a.retire r p e).readXt n = a.readXt n := by
  simp only [Agent.retire]
  split
  · rw [readXt_endChain]; rfl
  · rfl
@[simp] theorem readScratch_retire (a : Agent) (r : Option Lanes) (p : Word) (e : Bool) (n : Nat) :
    (a.retire r p e).readScratch n = a.readScratch n := by
  simp only [Agent.retire]
  split
  · rw [readScratch_endChain]; rfl
  · rfl

/-- An instruction's retirement changes its chain, the files and the held writes alone. -/
theorem retire_shape (a : Agent) (r : Option Lanes) (p : Word) (e : Bool) :
    a.retire r p e = { a with v := (a.retire r p e).v, g := (a.retire r p e).g, xt := (a.retire r p e).xt,
                              scratch := (a.retire r p e).scratch, heldG := (a.retire r p e).heldG,
                              retired := (a.retire r p e).retired, cur := (a.retire r p e).cur } := by
  simp only [Agent.retire]
  split
  · rw [endChain_shape]
  · rfl

end Sys2Proof.Laws
end

