-- ==== Sys2Proof/Laws/Guard.lean ====
section
/-!
SUPPORT. What passes decode and what an instruction of an agent leaves: one lemma for each shared operation.
-/
namespace Sys2Proof.Laws
open Sys2Proof.Machine

/-! Decode. -/

theorem guard_clear {n : Need} {s : State} (h : Clear n s) (k : State → Out) : Machine.guard n s k = k (cleared n s) := by
  obtain ⟨h1, h2⟩ := h
  simp only [Machine.guard, h1, h2, cleared]
  rfl

theorem guard_trap {n : Need} {s : State} {c : Cause} (h : decodeCause (gathHead s.me n) n = some c) (k : State → Out) :
    guard n s k = .next (takeTrap { s with me := gathHead s.me n } c) := by
  simp only [Machine.guard, h]

theorem gathHead_none {a : Agent} (n : Need) (h : n.reads = []) : gathHead a n = a := by
  simp [gathHead, h]

theorem gathHead_empty {a : Agent} (n : Need) (h : a.gath = []) : gathHead a n = a := by
  simp [gathHead, h]

theorem cleared_empty {n : Need} {s : State} (h : s.me.gath = []) : cleared n s = s := by
  simp [cleared, gathRead, gathHead, h]

theorem owes_none {t : Nat} {a : Agent} {n : Need} (hr : n.reads = []) (hw : n.writes = []) (hg : n.wide = [])
    (hl : n.latches = []) : owes t a n = false := by
  simp [owes, Need.regs, hr, hw, hg, hl]

/-- An agent that owes nothing, with no other sub-group that waits. -/
theorem owes_idle {t : Nat} {a : Agent} {n : Need} (hg : a.gath = []) (ho : a.others = []) (hd : a.due = [])
    (hl : ∀ k ∈ n.latches, a.cur.latchDue.getD k 0 ≤ t) : owes t a n = false := by
  simp only [owes, hg, ho, hd, List.any_nil, Bool.false_or, List.any_eq_false, decide_eq_true_eq, Nat.not_lt]
  exact hl

/-- An instruction that reads and writes no lane register executes in the state as it is. -/
theorem cleared_noreads {n : Need} (s : State) (h : n.reads = []) : cleared n s = s := by
  have : gathRead s.me n = s.me := by
    simp only [gathRead, h]; split
    · rfl
    · simp
  simp [cleared, gathHead_none n h, this]

/-- Where an instruction reads and writes no register, passing decode is passing R59. -/
theorem clear_noreads {n : Need} {s : State} (hr : n.reads = []) (hw : n.writes = []) (hg : n.wide = [])
    (hl : n.latches = []) : Clear n s ↔ decodeCause s.me n = none := by
  simp [Clear, gathHead_none n hr, owes_none hr hw hg hl]

/-! Retirement. -/

theorem chainGoes_retire (s : State) (a : Agent) (r : Option Lanes) (p : Word) (e : Bool)
    (hp : a.cur.pos = s.me.cur.pos) (hk : a.kind = s.me.kind) (hl : a.cur.latches = s.me.cur.latches)
    (ht : a.retired = s.me.retired) : ChainGoes s { s with me := a.retire r p e } e r := by
  have hc : (e = true ∨ 8 ≤ s.me.cur.pos + 1 ∨ s.me.kind = .csq) ↔ chainEnds a e = true := by
    simp [chainEnds, hp, hk, or_assoc]
  unfold ChainGoes
  by_cases h : chainEnds a e = true
  · rw [if_pos (hc.2 h)]
    simp [retire_cur_pos, retire_cur_latches, retire_retired, h, hp, ht]
  · rw [if_neg (fun x => h (hc.1 x))]
    simp [retire_cur_pos, retire_cur_latches, retire_retired, h, hp, ht, hl]

/-- An agent that differs from `me` in its files and its chain alone, retired. -/
theorem agentOnly_retire (s : State) (v : Store Lanes) (g : Store DWord) (xt : Store Xt) (sc : Store DWord)
    (hg : List HeldG) (n : DWord) (c : Sub) (r : Option Lanes) (p : Word) (e : Bool)
    (hi : c.id = s.me.cur.id) (hl : c.ls = s.me.cur.ls) (hp : c.parent = s.me.cur.parent)
    (hs : c.stack = s.me.cur.stack) (hk : c.parked = s.me.cur.parked) :
    AgentOnly s { s with
      me := ({ s.me with v := v, g := g, xt := xt, scratch := sc, heldG := hg, retired := n, cur := c } : Agent).retire r p e } := by
  refine ⟨?_, by simpa using hi, by simpa using hl, by simpa using hp, by simpa using hs, by simpa using hk⟩
  conv_lhs => rw [retire_shape]

theorem agentOnly_writeV (s : State) (n : Nat) (m : Word) (x : Lanes) (r : Option Lanes) (p : Word) (e : Bool) :
    AgentOnly s { s with me := (s.me.writeV n m x).retire r p e } :=
  agentOnly_retire s s.me.v s.me.g s.me.xt s.me.scratch s.me.heldG s.me.retired (s.me.writeV n m x).cur r p e
    rfl rfl rfl rfl rfl

theorem agentOnly_same (s : State) (r : Option Lanes) (p : Word) (e : Bool) :
    AgentOnly s { s with me := s.me.retire r p e } :=
  agentOnly_retire s s.me.v s.me.g s.me.xt s.me.scratch s.me.heldG s.me.retired s.me.cur r p e rfl rfl rfl rfl rfl

theorem writeG_shape (a : Agent) (d : Nat) (x : DWord) : a.writeG d x = { a with heldG := (a.writeG d x).heldG } := by
  unfold Agent.writeG; split <;> rfl

theorem agentOnly_writeG (s : State) (d : Nat) (x : DWord) (r : Option Lanes) (p : Word) (e : Bool) :
    AgentOnly s { s with me := (s.me.writeG d x).retire r p e } := by
  rw [writeG_shape]
  exact agentOnly_retire s s.me.v s.me.g s.me.xt s.me.scratch _ s.me.retired s.me.cur r p e rfl rfl rfl rfl rfl

/-- What `writeLane` does (R70). -/
theorem writeLane_effect (s : State) (n : BitVec 1) (d : Nat) (f : Nat → Word) (size : Nat) :
    LaneEffect s (s.writeLane n d f size) n d size f := by
  have hb : ∀ l, l < 32 → (laneResult s.me.cur.em f).at l = if s.me.cur.em.getLsbD l = true then f l else 0 := by
    intro l hl; simp [laneResult, at_make, hl]
  have hn : n = 0 ∨ n = 1 := by bv_omega
  rcases hn with rfl | rfl
  · simp only [State.writeLane, if_neg (by decide : ¬ (0 : BitVec 1) = 1)]
    refine ⟨agentOnly_writeV .., by simp, by simp [Agent.nextPc], ?_, ?_, ?_, ?_, _, hb, ?_⟩
    · intro k l hl
      rw [readV_retire _ _ _ _ _ _ hl, readV_writeV]
      by_cases h : d = k <;> by_cases m : s.me.cur.em.getLsbD l = true <;> simp [h, m, hb l hl, eq_comm]
    · intro k; simp
    · intro k; simp
    · intro k; simp
    · exact chainGoes_retire s _ _ _ _ rfl rfl rfl rfl
  · simp only [State.writeLane, if_true]
    refine ⟨agentOnly_same .., by simp, by simp [Agent.nextPc], ?_, ?_, ?_, ?_, _, hb, ?_⟩
    · intro k l hl; simp [hl]
    · intro k; simp
    · intro k; simp
    · intro k; simp
    · exact chainGoes_retire s _ _ _ _ rfl rfl rfl rfl

/-- What `finishG` does (R48). -/
theorem finishG_effect (s : State) (d : BitVec 7) (x : DWord) (ends : Bool) :
    GroupEffect s (s.finishG d x ends) d.toNat x ends := by
  refine ⟨agentOnly_writeG .., by simp [State.finishG], by simp [State.finishG, Agent.nextPc], ?_, ?_, ?_, ?_, ?_⟩
  · intro k; simp [State.finishG, readG_writeG]
  · intro k l hl; simp [State.finishG, hl]
  · intro k; simp [State.finishG]
  · intro k; simp [State.finishG]
  · exact chainGoes_retire s _ _ _ _ (by simp) (by simp) (by simp) (by simp)

/-- What a jump does (R51). -/
theorem flow_effect (s : State) (p : Word) (ends : Bool) :
    FlowEffect s { s with me := s.me.retire none p ends } p ends := by
  refine ⟨agentOnly_same .., by simp, by simp, ?_, ?_, ?_, ?_, ?_⟩
  · intro k l hl; simp [hl]
  · intro k; simp
  · intro k; simp
  · intro k; simp
  · exact chainGoes_retire s _ _ _ _ rfl rfl rfl rfl

theorem jump_effect (s : State) (p : Word) : FlowEffect s (s.jump p) p true := flow_effect s p true

theorem finish_effect (s : State) (ends : Bool) : FlowEffect s (s.finish ends) (s.me.cur.pc + 4) ends :=
  flow_effect s (s.me.nextPc 4) ends

/-! The shapes of lane instructions (Safety.lean): each follows from the form that the instruction's meaning has. -/

theorem laneTwo_of {i : BitVec 1 → BitVec 7 → BitVec 7 → BitVec 7 → Instr} {op : Word → Word → Word}
    {f : Word → Word → Word → Prop} (h : ∀ n b a d s, exec (i n b a d) s = lane2 op n b a d s)
    (hf : ∀ x y, f x y (op x y)) : LaneTwo i f := by
  intro n b a d s hc
  refine ⟨_, ?_, _, writeLane_effect _ n d.toNat _ 4, fun l _ _ => hf _ _⟩
  simp only [h, lane2, guard_clear hc]

theorem laneOne_of {i : BitVec 1 → BitVec 7 → BitVec 7 → Instr} {op : Word → Word}
    {f : Word → Word → Prop} (h : ∀ n a d s, exec (i n a d) s = lane1 op n a d s)
    (hf : ∀ x, f x (op x)) : LaneOne i f := by
  intro n a d s hc
  refine ⟨_, ?_, _, writeLane_effect _ n d.toNat _ 4, fun l _ _ => hf _⟩
  simp only [h, lane1, guard_clear hc]

theorem laneThree_of {i : BitVec 7 → BitVec 7 → BitVec 7 → Instr} {op : Word → Word → Word → Word}
    {f : Word → Word → Word → Word → Prop} (h : ∀ b a d s, exec (i b a d) s = lane3 op b a d s)
    (hf : ∀ x y z, f x y z (op x y z)) : LaneThree i f := by
  intro b a d s hc
  refine ⟨_, ?_, _, writeLane_effect _ 0 d.toNat _ 4, fun l _ _ => hf _ _ _⟩
  simp only [h, lane3, guard_clear hc]

theorem laneThreeOne_of {i : BitVec 7 → BitVec 7 → Instr} {op : Word → Word → Word}
    {f : Word → Word → Word → Prop} (h : ∀ a d s, exec (i a d) s = lane3One op a d s)
    (hf : ∀ x z, f x z (op x z)) : LaneThreeOne i f := by
  intro a d s hc
  refine ⟨_, ?_, _, writeLane_effect _ 0 d.toNat _ 4, fun l _ _ => hf _ _⟩
  simp only [h, lane3One, guard_clear hc]

theorem laneImmediate_of {w : Nat} {i : BitVec w → BitVec 7 → BitVec 7 → Instr} {op : Word → Word → Word}
    {ext : BitVec w → Word} {f : Word → BitVec w → Word → Prop}
    (h : ∀ x a d s, exec (i x a d) s = laneImm op (ext x) a d s) (hf : ∀ x y, f x y (op x (ext y))) : LaneImmediate i f := by
  intro x a d s hc
  refine ⟨_, ?_, _, writeLane_effect _ 0 d.toNat _ 4, fun l _ _ => hf _ _⟩
  simp only [h, laneImm, guard_clear hc]

theorem halfTwo_of {i : BitVec 1 → BitVec 5 → BitVec 5 → Instr} {op : Word → Word → Word}
    {f : Word → Word → Word → Prop} (h : ∀ n a d s, exec (i n a d) s = half2 op n a d s)
    (hf : ∀ x y, f x y (op x y)) : HalfTwo i f := by
  intro n a d s hc
  refine ⟨_, ?_, _, writeLane_effect _ n d.toNat _ 2, fun l _ _ => hf _ _⟩
  simp only [h, half2, guard_clear hc]

theorem halfImmediate_of {i : BitVec 1 → BitVec 5 → BitVec 5 → Instr} {op : Word → Word → Word}
    {f : Word → BitVec 5 → Word → Prop} (h : ∀ n x d s, exec (i n x d) s = halfImm op n (x.setWidth 32) d s)
    (hf : ∀ x y, f x y (op x (y.setWidth 32))) : HalfImmediate i f := by
  intro n x d s hc
  refine ⟨_, ?_, _, writeLane_effect _ n d.toNat _ 2, fun l _ _ => hf _ _⟩
  simp only [h, halfImm, guard_clear hc]

@[simp] theorem gathHead_cur_em (a : Agent) (n : Need) : (gathHead a n).cur.em = a.cur.em := by
  unfold gathHead; split <;> simp

@[simp] theorem gathRead_cur (a : Agent) (n : Need) : (gathRead a n).cur = a.cur := by
  unfold gathRead; split <;> rfl

/-- Clearing keeps the mask. -/
@[simp] theorem cleared_em (n : Need) (s : State) : (cleared n s).me.cur.em = s.me.cur.em := by simp [cleared]

@[simp] theorem gathHead_readG (a : Agent) (n : Need) (k : Nat) : (gathHead a n).readG k = a.readG k := by
  unfold gathHead; split <;> simp

@[simp] theorem gathRead_readG (a : Agent) (n : Need) (k : Nat) : (gathRead a n).readG k = a.readG k := by
  unfold gathRead; split <;> rfl

@[simp] theorem cleared_readG (n : Need) (s : State) (k : Nat) : (cleared n s).me.readG k = s.me.readG k := by
  simp [cleared]

theorem laneReduce_of {i : BitVec 1 → BitVec 7 → BitVec 7 → Instr} {op : Word → Word → Word} {x : Word}
    (h : ∀ n a d s, exec (i n a d) s = reduce op x n a d s) : LaneReduce i op x := by
  intro n a d s hc u
  refine ⟨_, ?_, writeLane_effect _ n d.toNat _ 4⟩
  simp only [h, reduce, guard_clear hc, cleared_em, u]

theorem groupTwo_of {i : BitVec 7 → BitVec 7 → BitVec 7 → Instr} {op : DWord → DWord → DWord}
    {f : DWord → DWord → DWord → Prop} (h : ∀ b a d s, exec (i b a d) s = group2 op b a d s)
    (hf : ∀ x y, f x y (op x y)) : GroupTwo i f := by
  intro b a d s hc
  refine ⟨_, ?_, _, finishG_effect s d _ false, hf _ _⟩
  simp only [h, group2, guard_clear hc, cleared_noreads s (n := gNeed .all [d, a, b]) rfl, Agent.g7]

end Sys2Proof.Laws
end

