-- ==== Sys2Proof/Laws/State.lean ====
section
/-!
SUPPORT. What each update of one part of the state leaves: one lemma for each field.
-/
namespace Sys2Proof.Laws
open Sys2Proof.Machine

@[simp] theorem useFree_power (s : State) : s.useFree.power = s.power := rfl
@[simp] theorem useFree_me (s : State) : s.useFree.me = s.me := rfl
@[simp] theorem useFree_agents (s : State) : s.useFree.agents = s.agents := rfl
@[simp] theorem useFree_agenda (s : State) : s.useFree.agenda = s.agenda := rfl
@[simp] theorem useFree_mem (s : State) : s.useFree.mem = s.mem := rfl
@[simp] theorem useFree_poison (s : State) : s.useFree.poison = s.poison := rfl
@[simp] theorem useFree_units (s : State) : s.useFree.units = s.units := rfl
@[simp] theorem useFree_launches (s : State) : s.useFree.launches = s.launches := rfl
@[simp] theorem useFree_graphs (s : State) : s.useFree.graphs = s.graphs := rfl
@[simp] theorem useFree_phases (s : State) : s.useFree.phases = s.phases := rfl
@[simp] theorem useFree_nextAge (s : State) : s.useFree.nextAge = s.nextAge := rfl
@[simp] theorem useFree_nextInst (s : State) : s.useFree.nextInst = s.nextInst := rfl
@[simp] theorem useFree_nextSeq (s : State) : s.useFree.nextSeq = s.nextSeq := rfl
@[simp] theorem useFree_tables (s : State) : s.useFree.tables = s.tables := rfl
@[simp] theorem useFree_barriers (s : State) : s.useFree.barriers = s.barriers := rfl
@[simp] theorem useFree_clusters (s : State) : s.useFree.clusters = s.clusters := rfl
@[simp] theorem useFree_dies (s : State) : s.useFree.dies = s.dies := rfl
@[simp] theorem useFree_cores (s : State) : s.useFree.cores = s.cores := rfl
@[simp] theorem useFree_contexts (s : State) : s.useFree.contexts = s.contexts := rfl
@[simp] theorem useFree_cr (s : State) : s.useFree.cr = s.cr := rfl
@[simp] theorem useFree_padOwner (s : State) : s.useFree.padOwner = s.padOwner := rfl
@[simp] theorem useFree_parts (s : State) : s.useFree.parts = s.parts := rfl
@[simp] theorem useFree_pending (s : State) : s.useFree.pending = s.pending := rfl
@[simp] theorem useFree_commits (s : State) : s.useFree.commits = s.commits := rfl
@[simp] theorem useFree_supAsid (s : State) : s.useFree.supAsid = s.supAsid := rfl
@[simp] theorem useFree_supRoot (s : State) : s.useFree.supRoot = s.supRoot := rfl
@[simp] theorem useFree_hsem (s : State) : s.useFree.hsem = s.hsem := rfl
@[simp] theorem useFree_msix (s : State) : s.useFree.msix = s.msix := rfl
@[simp] theorem useFree_bar0 (s : State) : s.useFree.bar0 = s.bar0 := rfl
@[simp] theorem useFree_monitors (s : State) : s.useFree.monitors = s.monitors := rfl
@[simp] theorem useFree_snoops (s : State) : s.useFree.snoops = s.snoops := rfl
@[simp] theorem useFree_hdmRead (s : State) : s.useFree.hdmRead = s.hdmRead := rfl
@[simp] theorem useFree_barRead (s : State) : s.useFree.barRead = s.barRead := rfl
@[simp] theorem useFree_badRows (s : State) : s.useFree.badRows = s.badRows := rfl
@[simp] theorem useFree_thermalAt (s : State) : s.useFree.thermalAt = s.thermalAt := rfl
@[simp] theorem useFree_secret (s : State) : s.useFree.secret = s.secret := rfl
@[simp] theorem useFree_identity (s : State) : s.useFree.identity = s.identity := rfl
@[simp] theorem useFree_certificate (s : State) : s.useFree.certificate = s.certificate := rfl
@[simp] theorem useFree_ports (s : State) : s.useFree.ports = s.ports := rfl
@[simp] theorem useFree_packets (s : State) : s.useFree.packets = s.packets := rfl
@[simp] theorem useFree_inbox (s : State) : s.useFree.inbox = s.inbox := rfl
@[simp] theorem useFree_requests (s : State) : s.useFree.requests = s.requests := rfl
@[simp] theorem useFree_nextTag (s : State) : s.useFree.nextTag = s.nextTag := rfl
@[simp] theorem useFree_topo (s : State) : s.useFree.topo = s.topo := rfl
@[simp] theorem useFree_routes (s : State) : s.useFree.routes = s.routes := rfl
@[simp] theorem useFree_exchange (s : State) : s.useFree.exchange = s.exchange := rfl
@[simp] theorem useFree_retired (s : State) : s.useFree.retired = s.retired := rfl
@[simp] theorem useFree_overflow (s : State) : s.useFree.overflow = s.overflow := rfl
@[simp] theorem useFree_flash1 (s : State) : s.useFree.flash1 = s.flash1 := rfl
@[simp] theorem useFree_flash2 (s : State) : s.useFree.flash2 = s.flash2 := rfl
@[simp] theorem useFree_revoked (s : State) : s.useFree.revoked = s.revoked := rfl
@[simp] theorem useFree_minSvn1 (s : State) : s.useFree.minSvn1 = s.minSvn1 := rfl
@[simp] theorem useFree_minSvn2 (s : State) : s.useFree.minSvn2 = s.minSvn2 := rfl
@[simp] theorem useFree_m0 (s : State) : s.useFree.m0 = s.m0 := rfl
@[simp] theorem useFree_m1 (s : State) : s.useFree.m1 = s.m1 := rfl
@[simp] theorem useFree_m2 (s : State) : s.useFree.m2 = s.m2 := rfl
@[simp] theorem useFree_m3 (s : State) : s.useFree.m3 = s.m3 := rfl
@[simp] theorem useFree_reports (s : State) : s.useFree.reports = s.reports := rfl

@[simp] theorem setDie_power (s : State) (d : Nat) (x : Die) : (s.setDie d x).power = s.power := rfl
@[simp] theorem setDie_me (s : State) (d : Nat) (x : Die) : (s.setDie d x).me = s.me := rfl
@[simp] theorem setDie_agents (s : State) (d : Nat) (x : Die) : (s.setDie d x).agents = s.agents := rfl
@[simp] theorem setDie_agenda (s : State) (d : Nat) (x : Die) : (s.setDie d x).agenda = s.agenda := rfl
@[simp] theorem setDie_free (s : State) (d : Nat) (x : Die) : (s.setDie d x).free = s.free := rfl
@[simp] theorem setDie_mem (s : State) (d : Nat) (x : Die) : (s.setDie d x).mem = s.mem := rfl
@[simp] theorem setDie_poison (s : State) (d : Nat) (x : Die) : (s.setDie d x).poison = s.poison := rfl
@[simp] theorem setDie_units (s : State) (d : Nat) (x : Die) : (s.setDie d x).units = s.units := rfl
@[simp] theorem setDie_launches (s : State) (d : Nat) (x : Die) : (s.setDie d x).launches = s.launches := rfl
@[simp] theorem setDie_graphs (s : State) (d : Nat) (x : Die) : (s.setDie d x).graphs = s.graphs := rfl
@[simp] theorem setDie_phases (s : State) (d : Nat) (x : Die) : (s.setDie d x).phases = s.phases := rfl
@[simp] theorem setDie_nextAge (s : State) (d : Nat) (x : Die) : (s.setDie d x).nextAge = s.nextAge := rfl
@[simp] theorem setDie_nextInst (s : State) (d : Nat) (x : Die) : (s.setDie d x).nextInst = s.nextInst := rfl
@[simp] theorem setDie_nextSeq (s : State) (d : Nat) (x : Die) : (s.setDie d x).nextSeq = s.nextSeq := rfl
@[simp] theorem setDie_tables (s : State) (d : Nat) (x : Die) : (s.setDie d x).tables = s.tables := rfl
@[simp] theorem setDie_barriers (s : State) (d : Nat) (x : Die) : (s.setDie d x).barriers = s.barriers := rfl
@[simp] theorem setDie_clusters (s : State) (d : Nat) (x : Die) : (s.setDie d x).clusters = s.clusters := rfl
@[simp] theorem setDie_cores (s : State) (d : Nat) (x : Die) : (s.setDie d x).cores = s.cores := rfl
@[simp] theorem setDie_contexts (s : State) (d : Nat) (x : Die) : (s.setDie d x).contexts = s.contexts := rfl
@[simp] theorem setDie_cr (s : State) (d : Nat) (x : Die) : (s.setDie d x).cr = s.cr := rfl
@[simp] theorem setDie_padOwner (s : State) (d : Nat) (x : Die) : (s.setDie d x).padOwner = s.padOwner := rfl
@[simp] theorem setDie_parts (s : State) (d : Nat) (x : Die) : (s.setDie d x).parts = s.parts := rfl
@[simp] theorem setDie_pending (s : State) (d : Nat) (x : Die) : (s.setDie d x).pending = s.pending := rfl
@[simp] theorem setDie_commits (s : State) (d : Nat) (x : Die) : (s.setDie d x).commits = s.commits := rfl
@[simp] theorem setDie_supAsid (s : State) (d : Nat) (x : Die) : (s.setDie d x).supAsid = s.supAsid := rfl
@[simp] theorem setDie_supRoot (s : State) (d : Nat) (x : Die) : (s.setDie d x).supRoot = s.supRoot := rfl
@[simp] theorem setDie_hsem (s : State) (d : Nat) (x : Die) : (s.setDie d x).hsem = s.hsem := rfl
@[simp] theorem setDie_msix (s : State) (d : Nat) (x : Die) : (s.setDie d x).msix = s.msix := rfl
@[simp] theorem setDie_bar0 (s : State) (d : Nat) (x : Die) : (s.setDie d x).bar0 = s.bar0 := rfl
@[simp] theorem setDie_monitors (s : State) (d : Nat) (x : Die) : (s.setDie d x).monitors = s.monitors := rfl
@[simp] theorem setDie_snoops (s : State) (d : Nat) (x : Die) : (s.setDie d x).snoops = s.snoops := rfl
@[simp] theorem setDie_hdmRead (s : State) (d : Nat) (x : Die) : (s.setDie d x).hdmRead = s.hdmRead := rfl
@[simp] theorem setDie_barRead (s : State) (d : Nat) (x : Die) : (s.setDie d x).barRead = s.barRead := rfl
@[simp] theorem setDie_badRows (s : State) (d : Nat) (x : Die) : (s.setDie d x).badRows = s.badRows := rfl
@[simp] theorem setDie_thermalAt (s : State) (d : Nat) (x : Die) : (s.setDie d x).thermalAt = s.thermalAt := rfl
@[simp] theorem setDie_secret (s : State) (d : Nat) (x : Die) : (s.setDie d x).secret = s.secret := rfl
@[simp] theorem setDie_identity (s : State) (d : Nat) (x : Die) : (s.setDie d x).identity = s.identity := rfl
@[simp] theorem setDie_certificate (s : State) (d : Nat) (x : Die) : (s.setDie d x).certificate = s.certificate := rfl
@[simp] theorem setDie_ports (s : State) (d : Nat) (x : Die) : (s.setDie d x).ports = s.ports := rfl
@[simp] theorem setDie_packets (s : State) (d : Nat) (x : Die) : (s.setDie d x).packets = s.packets := rfl
@[simp] theorem setDie_inbox (s : State) (d : Nat) (x : Die) : (s.setDie d x).inbox = s.inbox := rfl
@[simp] theorem setDie_requests (s : State) (d : Nat) (x : Die) : (s.setDie d x).requests = s.requests := rfl
@[simp] theorem setDie_nextTag (s : State) (d : Nat) (x : Die) : (s.setDie d x).nextTag = s.nextTag := rfl
@[simp] theorem setDie_topo (s : State) (d : Nat) (x : Die) : (s.setDie d x).topo = s.topo := rfl
@[simp] theorem setDie_routes (s : State) (d : Nat) (x : Die) : (s.setDie d x).routes = s.routes := rfl
@[simp] theorem setDie_exchange (s : State) (d : Nat) (x : Die) : (s.setDie d x).exchange = s.exchange := rfl
@[simp] theorem setDie_retired (s : State) (d : Nat) (x : Die) : (s.setDie d x).retired = s.retired := rfl
@[simp] theorem setDie_overflow (s : State) (d : Nat) (x : Die) : (s.setDie d x).overflow = s.overflow := rfl
@[simp] theorem setDie_flash1 (s : State) (d : Nat) (x : Die) : (s.setDie d x).flash1 = s.flash1 := rfl
@[simp] theorem setDie_flash2 (s : State) (d : Nat) (x : Die) : (s.setDie d x).flash2 = s.flash2 := rfl
@[simp] theorem setDie_revoked (s : State) (d : Nat) (x : Die) : (s.setDie d x).revoked = s.revoked := rfl
@[simp] theorem setDie_minSvn1 (s : State) (d : Nat) (x : Die) : (s.setDie d x).minSvn1 = s.minSvn1 := rfl
@[simp] theorem setDie_minSvn2 (s : State) (d : Nat) (x : Die) : (s.setDie d x).minSvn2 = s.minSvn2 := rfl
@[simp] theorem setDie_m0 (s : State) (d : Nat) (x : Die) : (s.setDie d x).m0 = s.m0 := rfl
@[simp] theorem setDie_m1 (s : State) (d : Nat) (x : Die) : (s.setDie d x).m1 = s.m1 := rfl
@[simp] theorem setDie_m2 (s : State) (d : Nat) (x : Die) : (s.setDie d x).m2 = s.m2 := rfl
@[simp] theorem setDie_m3 (s : State) (d : Nat) (x : Die) : (s.setDie d x).m3 = s.m3 := rfl
@[simp] theorem setDie_reports (s : State) (d : Nat) (x : Die) : (s.setDie d x).reports = s.reports := rfl

@[simp] theorem setContext_power (s : State) (c : Nat) (x : Context) : (s.setContext c x).power = s.power := rfl
@[simp] theorem setContext_me (s : State) (c : Nat) (x : Context) : (s.setContext c x).me = s.me := rfl
@[simp] theorem setContext_agents (s : State) (c : Nat) (x : Context) : (s.setContext c x).agents = s.agents := rfl
@[simp] theorem setContext_agenda (s : State) (c : Nat) (x : Context) : (s.setContext c x).agenda = s.agenda := rfl
@[simp] theorem setContext_free (s : State) (c : Nat) (x : Context) : (s.setContext c x).free = s.free := rfl
@[simp] theorem setContext_mem (s : State) (c : Nat) (x : Context) : (s.setContext c x).mem = s.mem := rfl
@[simp] theorem setContext_poison (s : State) (c : Nat) (x : Context) : (s.setContext c x).poison = s.poison := rfl
@[simp] theorem setContext_units (s : State) (c : Nat) (x : Context) : (s.setContext c x).units = s.units := rfl
@[simp] theorem setContext_launches (s : State) (c : Nat) (x : Context) : (s.setContext c x).launches = s.launches := rfl
@[simp] theorem setContext_graphs (s : State) (c : Nat) (x : Context) : (s.setContext c x).graphs = s.graphs := rfl
@[simp] theorem setContext_phases (s : State) (c : Nat) (x : Context) : (s.setContext c x).phases = s.phases := rfl
@[simp] theorem setContext_nextAge (s : State) (c : Nat) (x : Context) : (s.setContext c x).nextAge = s.nextAge := rfl
@[simp] theorem setContext_nextInst (s : State) (c : Nat) (x : Context) : (s.setContext c x).nextInst = s.nextInst := rfl
@[simp] theorem setContext_nextSeq (s : State) (c : Nat) (x : Context) : (s.setContext c x).nextSeq = s.nextSeq := rfl
@[simp] theorem setContext_tables (s : State) (c : Nat) (x : Context) : (s.setContext c x).tables = s.tables := rfl
@[simp] theorem setContext_barriers (s : State) (c : Nat) (x : Context) : (s.setContext c x).barriers = s.barriers := rfl
@[simp] theorem setContext_clusters (s : State) (c : Nat) (x : Context) : (s.setContext c x).clusters = s.clusters := rfl
@[simp] theorem setContext_dies (s : State) (c : Nat) (x : Context) : (s.setContext c x).dies = s.dies := rfl
@[simp] theorem setContext_cores (s : State) (c : Nat) (x : Context) : (s.setContext c x).cores = s.cores := rfl
@[simp] theorem setContext_cr (s : State) (c : Nat) (x : Context) : (s.setContext c x).cr = s.cr := rfl
@[simp] theorem setContext_padOwner (s : State) (c : Nat) (x : Context) : (s.setContext c x).padOwner = s.padOwner := rfl
@[simp] theorem setContext_parts (s : State) (c : Nat) (x : Context) : (s.setContext c x).parts = s.parts := rfl
@[simp] theorem setContext_pending (s : State) (c : Nat) (x : Context) : (s.setContext c x).pending = s.pending := rfl
@[simp] theorem setContext_commits (s : State) (c : Nat) (x : Context) : (s.setContext c x).commits = s.commits := rfl
@[simp] theorem setContext_supAsid (s : State) (c : Nat) (x : Context) : (s.setContext c x).supAsid = s.supAsid := rfl
@[simp] theorem setContext_supRoot (s : State) (c : Nat) (x : Context) : (s.setContext c x).supRoot = s.supRoot := rfl
@[simp] theorem setContext_hsem (s : State) (c : Nat) (x : Context) : (s.setContext c x).hsem = s.hsem := rfl
@[simp] theorem setContext_msix (s : State) (c : Nat) (x : Context) : (s.setContext c x).msix = s.msix := rfl
@[simp] theorem setContext_bar0 (s : State) (c : Nat) (x : Context) : (s.setContext c x).bar0 = s.bar0 := rfl
@[simp] theorem setContext_monitors (s : State) (c : Nat) (x : Context) : (s.setContext c x).monitors = s.monitors := rfl
@[simp] theorem setContext_snoops (s : State) (c : Nat) (x : Context) : (s.setContext c x).snoops = s.snoops := rfl
@[simp] theorem setContext_hdmRead (s : State) (c : Nat) (x : Context) : (s.setContext c x).hdmRead = s.hdmRead := rfl
@[simp] theorem setContext_barRead (s : State) (c : Nat) (x : Context) : (s.setContext c x).barRead = s.barRead := rfl
@[simp] theorem setContext_badRows (s : State) (c : Nat) (x : Context) : (s.setContext c x).badRows = s.badRows := rfl
@[simp] theorem setContext_thermalAt (s : State) (c : Nat) (x : Context) : (s.setContext c x).thermalAt = s.thermalAt := rfl
@[simp] theorem setContext_secret (s : State) (c : Nat) (x : Context) : (s.setContext c x).secret = s.secret := rfl
@[simp] theorem setContext_identity (s : State) (c : Nat) (x : Context) : (s.setContext c x).identity = s.identity := rfl
@[simp] theorem setContext_certificate (s : State) (c : Nat) (x : Context) : (s.setContext c x).certificate = s.certificate := rfl
@[simp] theorem setContext_ports (s : State) (c : Nat) (x : Context) : (s.setContext c x).ports = s.ports := rfl
@[simp] theorem setContext_packets (s : State) (c : Nat) (x : Context) : (s.setContext c x).packets = s.packets := rfl
@[simp] theorem setContext_inbox (s : State) (c : Nat) (x : Context) : (s.setContext c x).inbox = s.inbox := rfl
@[simp] theorem setContext_requests (s : State) (c : Nat) (x : Context) : (s.setContext c x).requests = s.requests := rfl
@[simp] theorem setContext_nextTag (s : State) (c : Nat) (x : Context) : (s.setContext c x).nextTag = s.nextTag := rfl
@[simp] theorem setContext_topo (s : State) (c : Nat) (x : Context) : (s.setContext c x).topo = s.topo := rfl
@[simp] theorem setContext_routes (s : State) (c : Nat) (x : Context) : (s.setContext c x).routes = s.routes := rfl
@[simp] theorem setContext_exchange (s : State) (c : Nat) (x : Context) : (s.setContext c x).exchange = s.exchange := rfl
@[simp] theorem setContext_retired (s : State) (c : Nat) (x : Context) : (s.setContext c x).retired = s.retired := rfl
@[simp] theorem setContext_overflow (s : State) (c : Nat) (x : Context) : (s.setContext c x).overflow = s.overflow := rfl
@[simp] theorem setContext_flash1 (s : State) (c : Nat) (x : Context) : (s.setContext c x).flash1 = s.flash1 := rfl
@[simp] theorem setContext_flash2 (s : State) (c : Nat) (x : Context) : (s.setContext c x).flash2 = s.flash2 := rfl
@[simp] theorem setContext_revoked (s : State) (c : Nat) (x : Context) : (s.setContext c x).revoked = s.revoked := rfl
@[simp] theorem setContext_minSvn1 (s : State) (c : Nat) (x : Context) : (s.setContext c x).minSvn1 = s.minSvn1 := rfl
@[simp] theorem setContext_minSvn2 (s : State) (c : Nat) (x : Context) : (s.setContext c x).minSvn2 = s.minSvn2 := rfl
@[simp] theorem setContext_m0 (s : State) (c : Nat) (x : Context) : (s.setContext c x).m0 = s.m0 := rfl
@[simp] theorem setContext_m1 (s : State) (c : Nat) (x : Context) : (s.setContext c x).m1 = s.m1 := rfl
@[simp] theorem setContext_m2 (s : State) (c : Nat) (x : Context) : (s.setContext c x).m2 = s.m2 := rfl
@[simp] theorem setContext_m3 (s : State) (c : Nat) (x : Context) : (s.setContext c x).m3 = s.m3 := rfl
@[simp] theorem setContext_reports (s : State) (c : Nat) (x : Context) : (s.setContext c x).reports = s.reports := rfl

@[simp] theorem setCluster_power (s : State) (d c : Nat) (x : Cluster) : (s.setCluster d c x).power = s.power := rfl
@[simp] theorem setCluster_me (s : State) (d c : Nat) (x : Cluster) : (s.setCluster d c x).me = s.me := rfl
@[simp] theorem setCluster_agents (s : State) (d c : Nat) (x : Cluster) : (s.setCluster d c x).agents = s.agents := rfl
@[simp] theorem setCluster_agenda (s : State) (d c : Nat) (x : Cluster) : (s.setCluster d c x).agenda = s.agenda := rfl
@[simp] theorem setCluster_free (s : State) (d c : Nat) (x : Cluster) : (s.setCluster d c x).free = s.free := rfl
@[simp] theorem setCluster_mem (s : State) (d c : Nat) (x : Cluster) : (s.setCluster d c x).mem = s.mem := rfl
@[simp] theorem setCluster_poison (s : State) (d c : Nat) (x : Cluster) : (s.setCluster d c x).poison = s.poison := rfl
@[simp] theorem setCluster_units (s : State) (d c : Nat) (x : Cluster) : (s.setCluster d c x).units = s.units := rfl
@[simp] theorem setCluster_launches (s : State) (d c : Nat) (x : Cluster) : (s.setCluster d c x).launches = s.launches := rfl
@[simp] theorem setCluster_graphs (s : State) (d c : Nat) (x : Cluster) : (s.setCluster d c x).graphs = s.graphs := rfl
@[simp] theorem setCluster_phases (s : State) (d c : Nat) (x : Cluster) : (s.setCluster d c x).phases = s.phases := rfl
@[simp] theorem setCluster_nextAge (s : State) (d c : Nat) (x : Cluster) : (s.setCluster d c x).nextAge = s.nextAge := rfl
@[simp] theorem setCluster_nextInst (s : State) (d c : Nat) (x : Cluster) : (s.setCluster d c x).nextInst = s.nextInst := rfl
@[simp] theorem setCluster_nextSeq (s : State) (d c : Nat) (x : Cluster) : (s.setCluster d c x).nextSeq = s.nextSeq := rfl
@[simp] theorem setCluster_tables (s : State) (d c : Nat) (x : Cluster) : (s.setCluster d c x).tables = s.tables := rfl
@[simp] theorem setCluster_barriers (s : State) (d c : Nat) (x : Cluster) : (s.setCluster d c x).barriers = s.barriers := rfl
@[simp] theorem setCluster_dies (s : State) (d c : Nat) (x : Cluster) : (s.setCluster d c x).dies = s.dies := rfl
@[simp] theorem setCluster_cores (s : State) (d c : Nat) (x : Cluster) : (s.setCluster d c x).cores = s.cores := rfl
@[simp] theorem setCluster_contexts (s : State) (d c : Nat) (x : Cluster) : (s.setCluster d c x).contexts = s.contexts := rfl
@[simp] theorem setCluster_cr (s : State) (d c : Nat) (x : Cluster) : (s.setCluster d c x).cr = s.cr := rfl
@[simp] theorem setCluster_padOwner (s : State) (d c : Nat) (x : Cluster) : (s.setCluster d c x).padOwner = s.padOwner := rfl
@[simp] theorem setCluster_parts (s : State) (d c : Nat) (x : Cluster) : (s.setCluster d c x).parts = s.parts := rfl
@[simp] theorem setCluster_pending (s : State) (d c : Nat) (x : Cluster) : (s.setCluster d c x).pending = s.pending := rfl
@[simp] theorem setCluster_commits (s : State) (d c : Nat) (x : Cluster) : (s.setCluster d c x).commits = s.commits := rfl
@[simp] theorem setCluster_supAsid (s : State) (d c : Nat) (x : Cluster) : (s.setCluster d c x).supAsid = s.supAsid := rfl
@[simp] theorem setCluster_supRoot (s : State) (d c : Nat) (x : Cluster) : (s.setCluster d c x).supRoot = s.supRoot := rfl
@[simp] theorem setCluster_hsem (s : State) (d c : Nat) (x : Cluster) : (s.setCluster d c x).hsem = s.hsem := rfl
@[simp] theorem setCluster_msix (s : State) (d c : Nat) (x : Cluster) : (s.setCluster d c x).msix = s.msix := rfl
@[simp] theorem setCluster_bar0 (s : State) (d c : Nat) (x : Cluster) : (s.setCluster d c x).bar0 = s.bar0 := rfl
@[simp] theorem setCluster_monitors (s : State) (d c : Nat) (x : Cluster) : (s.setCluster d c x).monitors = s.monitors := rfl
@[simp] theorem setCluster_snoops (s : State) (d c : Nat) (x : Cluster) : (s.setCluster d c x).snoops = s.snoops := rfl
@[simp] theorem setCluster_hdmRead (s : State) (d c : Nat) (x : Cluster) : (s.setCluster d c x).hdmRead = s.hdmRead := rfl
@[simp] theorem setCluster_barRead (s : State) (d c : Nat) (x : Cluster) : (s.setCluster d c x).barRead = s.barRead := rfl
@[simp] theorem setCluster_badRows (s : State) (d c : Nat) (x : Cluster) : (s.setCluster d c x).badRows = s.badRows := rfl
@[simp] theorem setCluster_thermalAt (s : State) (d c : Nat) (x : Cluster) : (s.setCluster d c x).thermalAt = s.thermalAt := rfl
@[simp] theorem setCluster_secret (s : State) (d c : Nat) (x : Cluster) : (s.setCluster d c x).secret = s.secret := rfl
@[simp] theorem setCluster_identity (s : State) (d c : Nat) (x : Cluster) : (s.setCluster d c x).identity = s.identity := rfl
@[simp] theorem setCluster_certificate (s : State) (d c : Nat) (x : Cluster) : (s.setCluster d c x).certificate = s.certificate := rfl
@[simp] theorem setCluster_ports (s : State) (d c : Nat) (x : Cluster) : (s.setCluster d c x).ports = s.ports := rfl
@[simp] theorem setCluster_packets (s : State) (d c : Nat) (x : Cluster) : (s.setCluster d c x).packets = s.packets := rfl
@[simp] theorem setCluster_inbox (s : State) (d c : Nat) (x : Cluster) : (s.setCluster d c x).inbox = s.inbox := rfl
@[simp] theorem setCluster_requests (s : State) (d c : Nat) (x : Cluster) : (s.setCluster d c x).requests = s.requests := rfl
@[simp] theorem setCluster_nextTag (s : State) (d c : Nat) (x : Cluster) : (s.setCluster d c x).nextTag = s.nextTag := rfl
@[simp] theorem setCluster_topo (s : State) (d c : Nat) (x : Cluster) : (s.setCluster d c x).topo = s.topo := rfl
@[simp] theorem setCluster_routes (s : State) (d c : Nat) (x : Cluster) : (s.setCluster d c x).routes = s.routes := rfl
@[simp] theorem setCluster_exchange (s : State) (d c : Nat) (x : Cluster) : (s.setCluster d c x).exchange = s.exchange := rfl
@[simp] theorem setCluster_retired (s : State) (d c : Nat) (x : Cluster) : (s.setCluster d c x).retired = s.retired := rfl
@[simp] theorem setCluster_overflow (s : State) (d c : Nat) (x : Cluster) : (s.setCluster d c x).overflow = s.overflow := rfl
@[simp] theorem setCluster_flash1 (s : State) (d c : Nat) (x : Cluster) : (s.setCluster d c x).flash1 = s.flash1 := rfl
@[simp] theorem setCluster_flash2 (s : State) (d c : Nat) (x : Cluster) : (s.setCluster d c x).flash2 = s.flash2 := rfl
@[simp] theorem setCluster_revoked (s : State) (d c : Nat) (x : Cluster) : (s.setCluster d c x).revoked = s.revoked := rfl
@[simp] theorem setCluster_minSvn1 (s : State) (d c : Nat) (x : Cluster) : (s.setCluster d c x).minSvn1 = s.minSvn1 := rfl
@[simp] theorem setCluster_minSvn2 (s : State) (d c : Nat) (x : Cluster) : (s.setCluster d c x).minSvn2 = s.minSvn2 := rfl
@[simp] theorem setCluster_m0 (s : State) (d c : Nat) (x : Cluster) : (s.setCluster d c x).m0 = s.m0 := rfl
@[simp] theorem setCluster_m1 (s : State) (d c : Nat) (x : Cluster) : (s.setCluster d c x).m1 = s.m1 := rfl
@[simp] theorem setCluster_m2 (s : State) (d c : Nat) (x : Cluster) : (s.setCluster d c x).m2 = s.m2 := rfl
@[simp] theorem setCluster_m3 (s : State) (d c : Nat) (x : Cluster) : (s.setCluster d c x).m3 = s.m3 := rfl
@[simp] theorem setCluster_reports (s : State) (d c : Nat) (x : Cluster) : (s.setCluster d c x).reports = s.reports := rfl

@[simp] theorem setCore_power (s : State) (d c k : Nat) (x : Core) : (s.setCore d c k x).power = s.power := rfl
@[simp] theorem setCore_me (s : State) (d c k : Nat) (x : Core) : (s.setCore d c k x).me = s.me := rfl
@[simp] theorem setCore_agents (s : State) (d c k : Nat) (x : Core) : (s.setCore d c k x).agents = s.agents := rfl
@[simp] theorem setCore_agenda (s : State) (d c k : Nat) (x : Core) : (s.setCore d c k x).agenda = s.agenda := rfl
@[simp] theorem setCore_free (s : State) (d c k : Nat) (x : Core) : (s.setCore d c k x).free = s.free := rfl
@[simp] theorem setCore_mem (s : State) (d c k : Nat) (x : Core) : (s.setCore d c k x).mem = s.mem := rfl
@[simp] theorem setCore_poison (s : State) (d c k : Nat) (x : Core) : (s.setCore d c k x).poison = s.poison := rfl
@[simp] theorem setCore_units (s : State) (d c k : Nat) (x : Core) : (s.setCore d c k x).units = s.units := rfl
@[simp] theorem setCore_launches (s : State) (d c k : Nat) (x : Core) : (s.setCore d c k x).launches = s.launches := rfl
@[simp] theorem setCore_graphs (s : State) (d c k : Nat) (x : Core) : (s.setCore d c k x).graphs = s.graphs := rfl
@[simp] theorem setCore_phases (s : State) (d c k : Nat) (x : Core) : (s.setCore d c k x).phases = s.phases := rfl
@[simp] theorem setCore_nextAge (s : State) (d c k : Nat) (x : Core) : (s.setCore d c k x).nextAge = s.nextAge := rfl
@[simp] theorem setCore_nextInst (s : State) (d c k : Nat) (x : Core) : (s.setCore d c k x).nextInst = s.nextInst := rfl
@[simp] theorem setCore_nextSeq (s : State) (d c k : Nat) (x : Core) : (s.setCore d c k x).nextSeq = s.nextSeq := rfl
@[simp] theorem setCore_tables (s : State) (d c k : Nat) (x : Core) : (s.setCore d c k x).tables = s.tables := rfl
@[simp] theorem setCore_barriers (s : State) (d c k : Nat) (x : Core) : (s.setCore d c k x).barriers = s.barriers := rfl
@[simp] theorem setCore_clusters (s : State) (d c k : Nat) (x : Core) : (s.setCore d c k x).clusters = s.clusters := rfl
@[simp] theorem setCore_dies (s : State) (d c k : Nat) (x : Core) : (s.setCore d c k x).dies = s.dies := rfl
@[simp] theorem setCore_contexts (s : State) (d c k : Nat) (x : Core) : (s.setCore d c k x).contexts = s.contexts := rfl
@[simp] theorem setCore_cr (s : State) (d c k : Nat) (x : Core) : (s.setCore d c k x).cr = s.cr := rfl
@[simp] theorem setCore_padOwner (s : State) (d c k : Nat) (x : Core) : (s.setCore d c k x).padOwner = s.padOwner := rfl
@[simp] theorem setCore_parts (s : State) (d c k : Nat) (x : Core) : (s.setCore d c k x).parts = s.parts := rfl
@[simp] theorem setCore_pending (s : State) (d c k : Nat) (x : Core) : (s.setCore d c k x).pending = s.pending := rfl
@[simp] theorem setCore_commits (s : State) (d c k : Nat) (x : Core) : (s.setCore d c k x).commits = s.commits := rfl
@[simp] theorem setCore_supAsid (s : State) (d c k : Nat) (x : Core) : (s.setCore d c k x).supAsid = s.supAsid := rfl
@[simp] theorem setCore_supRoot (s : State) (d c k : Nat) (x : Core) : (s.setCore d c k x).supRoot = s.supRoot := rfl
@[simp] theorem setCore_hsem (s : State) (d c k : Nat) (x : Core) : (s.setCore d c k x).hsem = s.hsem := rfl
@[simp] theorem setCore_msix (s : State) (d c k : Nat) (x : Core) : (s.setCore d c k x).msix = s.msix := rfl
@[simp] theorem setCore_bar0 (s : State) (d c k : Nat) (x : Core) : (s.setCore d c k x).bar0 = s.bar0 := rfl
@[simp] theorem setCore_monitors (s : State) (d c k : Nat) (x : Core) : (s.setCore d c k x).monitors = s.monitors := rfl
@[simp] theorem setCore_snoops (s : State) (d c k : Nat) (x : Core) : (s.setCore d c k x).snoops = s.snoops := rfl
@[simp] theorem setCore_hdmRead (s : State) (d c k : Nat) (x : Core) : (s.setCore d c k x).hdmRead = s.hdmRead := rfl
@[simp] theorem setCore_barRead (s : State) (d c k : Nat) (x : Core) : (s.setCore d c k x).barRead = s.barRead := rfl
@[simp] theorem setCore_badRows (s : State) (d c k : Nat) (x : Core) : (s.setCore d c k x).badRows = s.badRows := rfl
@[simp] theorem setCore_thermalAt (s : State) (d c k : Nat) (x : Core) : (s.setCore d c k x).thermalAt = s.thermalAt := rfl
@[simp] theorem setCore_secret (s : State) (d c k : Nat) (x : Core) : (s.setCore d c k x).secret = s.secret := rfl
@[simp] theorem setCore_identity (s : State) (d c k : Nat) (x : Core) : (s.setCore d c k x).identity = s.identity := rfl
@[simp] theorem setCore_certificate (s : State) (d c k : Nat) (x : Core) : (s.setCore d c k x).certificate = s.certificate := rfl
@[simp] theorem setCore_ports (s : State) (d c k : Nat) (x : Core) : (s.setCore d c k x).ports = s.ports := rfl
@[simp] theorem setCore_packets (s : State) (d c k : Nat) (x : Core) : (s.setCore d c k x).packets = s.packets := rfl
@[simp] theorem setCore_inbox (s : State) (d c k : Nat) (x : Core) : (s.setCore d c k x).inbox = s.inbox := rfl
@[simp] theorem setCore_requests (s : State) (d c k : Nat) (x : Core) : (s.setCore d c k x).requests = s.requests := rfl
@[simp] theorem setCore_nextTag (s : State) (d c k : Nat) (x : Core) : (s.setCore d c k x).nextTag = s.nextTag := rfl
@[simp] theorem setCore_topo (s : State) (d c k : Nat) (x : Core) : (s.setCore d c k x).topo = s.topo := rfl
@[simp] theorem setCore_routes (s : State) (d c k : Nat) (x : Core) : (s.setCore d c k x).routes = s.routes := rfl
@[simp] theorem setCore_exchange (s : State) (d c k : Nat) (x : Core) : (s.setCore d c k x).exchange = s.exchange := rfl
@[simp] theorem setCore_retired (s : State) (d c k : Nat) (x : Core) : (s.setCore d c k x).retired = s.retired := rfl
@[simp] theorem setCore_overflow (s : State) (d c k : Nat) (x : Core) : (s.setCore d c k x).overflow = s.overflow := rfl
@[simp] theorem setCore_flash1 (s : State) (d c k : Nat) (x : Core) : (s.setCore d c k x).flash1 = s.flash1 := rfl
@[simp] theorem setCore_flash2 (s : State) (d c k : Nat) (x : Core) : (s.setCore d c k x).flash2 = s.flash2 := rfl
@[simp] theorem setCore_revoked (s : State) (d c k : Nat) (x : Core) : (s.setCore d c k x).revoked = s.revoked := rfl
@[simp] theorem setCore_minSvn1 (s : State) (d c k : Nat) (x : Core) : (s.setCore d c k x).minSvn1 = s.minSvn1 := rfl
@[simp] theorem setCore_minSvn2 (s : State) (d c k : Nat) (x : Core) : (s.setCore d c k x).minSvn2 = s.minSvn2 := rfl
@[simp] theorem setCore_m0 (s : State) (d c k : Nat) (x : Core) : (s.setCore d c k x).m0 = s.m0 := rfl
@[simp] theorem setCore_m1 (s : State) (d c k : Nat) (x : Core) : (s.setCore d c k x).m1 = s.m1 := rfl
@[simp] theorem setCore_m2 (s : State) (d c k : Nat) (x : Core) : (s.setCore d c k x).m2 = s.m2 := rfl
@[simp] theorem setCore_m3 (s : State) (d c k : Nat) (x : Core) : (s.setCore d c k x).m3 = s.m3 := rfl
@[simp] theorem setCore_reports (s : State) (d c k : Nat) (x : Core) : (s.setCore d c k x).reports = s.reports := rfl

@[simp] theorem setPart_power (s : State) (p : Nat) (x : Partition) : (s.setPart p x).power = s.power := rfl
@[simp] theorem setPart_me (s : State) (p : Nat) (x : Partition) : (s.setPart p x).me = s.me := rfl
@[simp] theorem setPart_agents (s : State) (p : Nat) (x : Partition) : (s.setPart p x).agents = s.agents := rfl
@[simp] theorem setPart_agenda (s : State) (p : Nat) (x : Partition) : (s.setPart p x).agenda = s.agenda := rfl
@[simp] theorem setPart_free (s : State) (p : Nat) (x : Partition) : (s.setPart p x).free = s.free := rfl
@[simp] theorem setPart_mem (s : State) (p : Nat) (x : Partition) : (s.setPart p x).mem = s.mem := rfl
@[simp] theorem setPart_poison (s : State) (p : Nat) (x : Partition) : (s.setPart p x).poison = s.poison := rfl
@[simp] theorem setPart_units (s : State) (p : Nat) (x : Partition) : (s.setPart p x).units = s.units := rfl
@[simp] theorem setPart_launches (s : State) (p : Nat) (x : Partition) : (s.setPart p x).launches = s.launches := rfl
@[simp] theorem setPart_graphs (s : State) (p : Nat) (x : Partition) : (s.setPart p x).graphs = s.graphs := rfl
@[simp] theorem setPart_phases (s : State) (p : Nat) (x : Partition) : (s.setPart p x).phases = s.phases := rfl
@[simp] theorem setPart_nextAge (s : State) (p : Nat) (x : Partition) : (s.setPart p x).nextAge = s.nextAge := rfl
@[simp] theorem setPart_nextInst (s : State) (p : Nat) (x : Partition) : (s.setPart p x).nextInst = s.nextInst := rfl
@[simp] theorem setPart_nextSeq (s : State) (p : Nat) (x : Partition) : (s.setPart p x).nextSeq = s.nextSeq := rfl
@[simp] theorem setPart_tables (s : State) (p : Nat) (x : Partition) : (s.setPart p x).tables = s.tables := rfl
@[simp] theorem setPart_barriers (s : State) (p : Nat) (x : Partition) : (s.setPart p x).barriers = s.barriers := rfl
@[simp] theorem setPart_clusters (s : State) (p : Nat) (x : Partition) : (s.setPart p x).clusters = s.clusters := rfl
@[simp] theorem setPart_dies (s : State) (p : Nat) (x : Partition) : (s.setPart p x).dies = s.dies := rfl
@[simp] theorem setPart_cores (s : State) (p : Nat) (x : Partition) : (s.setPart p x).cores = s.cores := rfl
@[simp] theorem setPart_contexts (s : State) (p : Nat) (x : Partition) : (s.setPart p x).contexts = s.contexts := rfl
@[simp] theorem setPart_cr (s : State) (p : Nat) (x : Partition) : (s.setPart p x).cr = s.cr := rfl
@[simp] theorem setPart_padOwner (s : State) (p : Nat) (x : Partition) : (s.setPart p x).padOwner = s.padOwner := rfl
@[simp] theorem setPart_pending (s : State) (p : Nat) (x : Partition) : (s.setPart p x).pending = s.pending := rfl
@[simp] theorem setPart_commits (s : State) (p : Nat) (x : Partition) : (s.setPart p x).commits = s.commits := rfl
@[simp] theorem setPart_supAsid (s : State) (p : Nat) (x : Partition) : (s.setPart p x).supAsid = s.supAsid := rfl
@[simp] theorem setPart_supRoot (s : State) (p : Nat) (x : Partition) : (s.setPart p x).supRoot = s.supRoot := rfl
@[simp] theorem setPart_hsem (s : State) (p : Nat) (x : Partition) : (s.setPart p x).hsem = s.hsem := rfl
@[simp] theorem setPart_msix (s : State) (p : Nat) (x : Partition) : (s.setPart p x).msix = s.msix := rfl
@[simp] theorem setPart_bar0 (s : State) (p : Nat) (x : Partition) : (s.setPart p x).bar0 = s.bar0 := rfl
@[simp] theorem setPart_monitors (s : State) (p : Nat) (x : Partition) : (s.setPart p x).monitors = s.monitors := rfl
@[simp] theorem setPart_snoops (s : State) (p : Nat) (x : Partition) : (s.setPart p x).snoops = s.snoops := rfl
@[simp] theorem setPart_hdmRead (s : State) (p : Nat) (x : Partition) : (s.setPart p x).hdmRead = s.hdmRead := rfl
@[simp] theorem setPart_barRead (s : State) (p : Nat) (x : Partition) : (s.setPart p x).barRead = s.barRead := rfl
@[simp] theorem setPart_badRows (s : State) (p : Nat) (x : Partition) : (s.setPart p x).badRows = s.badRows := rfl
@[simp] theorem setPart_thermalAt (s : State) (p : Nat) (x : Partition) : (s.setPart p x).thermalAt = s.thermalAt := rfl
@[simp] theorem setPart_secret (s : State) (p : Nat) (x : Partition) : (s.setPart p x).secret = s.secret := rfl
@[simp] theorem setPart_identity (s : State) (p : Nat) (x : Partition) : (s.setPart p x).identity = s.identity := rfl
@[simp] theorem setPart_certificate (s : State) (p : Nat) (x : Partition) : (s.setPart p x).certificate = s.certificate := rfl
@[simp] theorem setPart_ports (s : State) (p : Nat) (x : Partition) : (s.setPart p x).ports = s.ports := rfl
@[simp] theorem setPart_packets (s : State) (p : Nat) (x : Partition) : (s.setPart p x).packets = s.packets := rfl
@[simp] theorem setPart_inbox (s : State) (p : Nat) (x : Partition) : (s.setPart p x).inbox = s.inbox := rfl
@[simp] theorem setPart_requests (s : State) (p : Nat) (x : Partition) : (s.setPart p x).requests = s.requests := rfl
@[simp] theorem setPart_nextTag (s : State) (p : Nat) (x : Partition) : (s.setPart p x).nextTag = s.nextTag := rfl
@[simp] theorem setPart_topo (s : State) (p : Nat) (x : Partition) : (s.setPart p x).topo = s.topo := rfl
@[simp] theorem setPart_routes (s : State) (p : Nat) (x : Partition) : (s.setPart p x).routes = s.routes := rfl
@[simp] theorem setPart_exchange (s : State) (p : Nat) (x : Partition) : (s.setPart p x).exchange = s.exchange := rfl
@[simp] theorem setPart_retired (s : State) (p : Nat) (x : Partition) : (s.setPart p x).retired = s.retired := rfl
@[simp] theorem setPart_overflow (s : State) (p : Nat) (x : Partition) : (s.setPart p x).overflow = s.overflow := rfl
@[simp] theorem setPart_flash1 (s : State) (p : Nat) (x : Partition) : (s.setPart p x).flash1 = s.flash1 := rfl
@[simp] theorem setPart_flash2 (s : State) (p : Nat) (x : Partition) : (s.setPart p x).flash2 = s.flash2 := rfl
@[simp] theorem setPart_revoked (s : State) (p : Nat) (x : Partition) : (s.setPart p x).revoked = s.revoked := rfl
@[simp] theorem setPart_minSvn1 (s : State) (p : Nat) (x : Partition) : (s.setPart p x).minSvn1 = s.minSvn1 := rfl
@[simp] theorem setPart_minSvn2 (s : State) (p : Nat) (x : Partition) : (s.setPart p x).minSvn2 = s.minSvn2 := rfl
@[simp] theorem setPart_m0 (s : State) (p : Nat) (x : Partition) : (s.setPart p x).m0 = s.m0 := rfl
@[simp] theorem setPart_m1 (s : State) (p : Nat) (x : Partition) : (s.setPart p x).m1 = s.m1 := rfl
@[simp] theorem setPart_m2 (s : State) (p : Nat) (x : Partition) : (s.setPart p x).m2 = s.m2 := rfl
@[simp] theorem setPart_m3 (s : State) (p : Nat) (x : Partition) : (s.setPart p x).m3 = s.m3 := rfl
@[simp] theorem setPart_reports (s : State) (p : Nat) (x : Partition) : (s.setPart p x).reports = s.reports := rfl

@[simp] theorem setBarrier_power (s : State) (b : Nat) (x : Barrier) : (s.setBarrier b x).power = s.power := rfl
@[simp] theorem setBarrier_me (s : State) (b : Nat) (x : Barrier) : (s.setBarrier b x).me = s.me := rfl
@[simp] theorem setBarrier_agents (s : State) (b : Nat) (x : Barrier) : (s.setBarrier b x).agents = s.agents := rfl
@[simp] theorem setBarrier_agenda (s : State) (b : Nat) (x : Barrier) : (s.setBarrier b x).agenda = s.agenda := rfl
@[simp] theorem setBarrier_free (s : State) (b : Nat) (x : Barrier) : (s.setBarrier b x).free = s.free := rfl
@[simp] theorem setBarrier_mem (s : State) (b : Nat) (x : Barrier) : (s.setBarrier b x).mem = s.mem := rfl
@[simp] theorem setBarrier_poison (s : State) (b : Nat) (x : Barrier) : (s.setBarrier b x).poison = s.poison := rfl
@[simp] theorem setBarrier_units (s : State) (b : Nat) (x : Barrier) : (s.setBarrier b x).units = s.units := rfl
@[simp] theorem setBarrier_launches (s : State) (b : Nat) (x : Barrier) : (s.setBarrier b x).launches = s.launches := rfl
@[simp] theorem setBarrier_graphs (s : State) (b : Nat) (x : Barrier) : (s.setBarrier b x).graphs = s.graphs := rfl
@[simp] theorem setBarrier_phases (s : State) (b : Nat) (x : Barrier) : (s.setBarrier b x).phases = s.phases := rfl
@[simp] theorem setBarrier_nextAge (s : State) (b : Nat) (x : Barrier) : (s.setBarrier b x).nextAge = s.nextAge := rfl
@[simp] theorem setBarrier_nextInst (s : State) (b : Nat) (x : Barrier) : (s.setBarrier b x).nextInst = s.nextInst := rfl
@[simp] theorem setBarrier_nextSeq (s : State) (b : Nat) (x : Barrier) : (s.setBarrier b x).nextSeq = s.nextSeq := rfl
@[simp] theorem setBarrier_tables (s : State) (b : Nat) (x : Barrier) : (s.setBarrier b x).tables = s.tables := rfl
@[simp] theorem setBarrier_clusters (s : State) (b : Nat) (x : Barrier) : (s.setBarrier b x).clusters = s.clusters := rfl
@[simp] theorem setBarrier_dies (s : State) (b : Nat) (x : Barrier) : (s.setBarrier b x).dies = s.dies := rfl
@[simp] theorem setBarrier_cores (s : State) (b : Nat) (x : Barrier) : (s.setBarrier b x).cores = s.cores := rfl
@[simp] theorem setBarrier_contexts (s : State) (b : Nat) (x : Barrier) : (s.setBarrier b x).contexts = s.contexts := rfl
@[simp] theorem setBarrier_cr (s : State) (b : Nat) (x : Barrier) : (s.setBarrier b x).cr = s.cr := rfl
@[simp] theorem setBarrier_padOwner (s : State) (b : Nat) (x : Barrier) : (s.setBarrier b x).padOwner = s.padOwner := rfl
@[simp] theorem setBarrier_parts (s : State) (b : Nat) (x : Barrier) : (s.setBarrier b x).parts = s.parts := rfl
@[simp] theorem setBarrier_pending (s : State) (b : Nat) (x : Barrier) : (s.setBarrier b x).pending = s.pending := rfl
@[simp] theorem setBarrier_commits (s : State) (b : Nat) (x : Barrier) : (s.setBarrier b x).commits = s.commits := rfl
@[simp] theorem setBarrier_supAsid (s : State) (b : Nat) (x : Barrier) : (s.setBarrier b x).supAsid = s.supAsid := rfl
@[simp] theorem setBarrier_supRoot (s : State) (b : Nat) (x : Barrier) : (s.setBarrier b x).supRoot = s.supRoot := rfl
@[simp] theorem setBarrier_hsem (s : State) (b : Nat) (x : Barrier) : (s.setBarrier b x).hsem = s.hsem := rfl
@[simp] theorem setBarrier_msix (s : State) (b : Nat) (x : Barrier) : (s.setBarrier b x).msix = s.msix := rfl
@[simp] theorem setBarrier_bar0 (s : State) (b : Nat) (x : Barrier) : (s.setBarrier b x).bar0 = s.bar0 := rfl
@[simp] theorem setBarrier_monitors (s : State) (b : Nat) (x : Barrier) : (s.setBarrier b x).monitors = s.monitors := rfl
@[simp] theorem setBarrier_snoops (s : State) (b : Nat) (x : Barrier) : (s.setBarrier b x).snoops = s.snoops := rfl
@[simp] theorem setBarrier_hdmRead (s : State) (b : Nat) (x : Barrier) : (s.setBarrier b x).hdmRead = s.hdmRead := rfl
@[simp] theorem setBarrier_barRead (s : State) (b : Nat) (x : Barrier) : (s.setBarrier b x).barRead = s.barRead := rfl
@[simp] theorem setBarrier_badRows (s : State) (b : Nat) (x : Barrier) : (s.setBarrier b x).badRows = s.badRows := rfl
@[simp] theorem setBarrier_thermalAt (s : State) (b : Nat) (x : Barrier) : (s.setBarrier b x).thermalAt = s.thermalAt := rfl
@[simp] theorem setBarrier_secret (s : State) (b : Nat) (x : Barrier) : (s.setBarrier b x).secret = s.secret := rfl
@[simp] theorem setBarrier_identity (s : State) (b : Nat) (x : Barrier) : (s.setBarrier b x).identity = s.identity := rfl
@[simp] theorem setBarrier_certificate (s : State) (b : Nat) (x : Barrier) : (s.setBarrier b x).certificate = s.certificate := rfl
@[simp] theorem setBarrier_ports (s : State) (b : Nat) (x : Barrier) : (s.setBarrier b x).ports = s.ports := rfl
@[simp] theorem setBarrier_packets (s : State) (b : Nat) (x : Barrier) : (s.setBarrier b x).packets = s.packets := rfl
@[simp] theorem setBarrier_inbox (s : State) (b : Nat) (x : Barrier) : (s.setBarrier b x).inbox = s.inbox := rfl
@[simp] theorem setBarrier_requests (s : State) (b : Nat) (x : Barrier) : (s.setBarrier b x).requests = s.requests := rfl
@[simp] theorem setBarrier_nextTag (s : State) (b : Nat) (x : Barrier) : (s.setBarrier b x).nextTag = s.nextTag := rfl
@[simp] theorem setBarrier_topo (s : State) (b : Nat) (x : Barrier) : (s.setBarrier b x).topo = s.topo := rfl
@[simp] theorem setBarrier_routes (s : State) (b : Nat) (x : Barrier) : (s.setBarrier b x).routes = s.routes := rfl
@[simp] theorem setBarrier_exchange (s : State) (b : Nat) (x : Barrier) : (s.setBarrier b x).exchange = s.exchange := rfl
@[simp] theorem setBarrier_retired (s : State) (b : Nat) (x : Barrier) : (s.setBarrier b x).retired = s.retired := rfl
@[simp] theorem setBarrier_overflow (s : State) (b : Nat) (x : Barrier) : (s.setBarrier b x).overflow = s.overflow := rfl
@[simp] theorem setBarrier_flash1 (s : State) (b : Nat) (x : Barrier) : (s.setBarrier b x).flash1 = s.flash1 := rfl
@[simp] theorem setBarrier_flash2 (s : State) (b : Nat) (x : Barrier) : (s.setBarrier b x).flash2 = s.flash2 := rfl
@[simp] theorem setBarrier_revoked (s : State) (b : Nat) (x : Barrier) : (s.setBarrier b x).revoked = s.revoked := rfl
@[simp] theorem setBarrier_minSvn1 (s : State) (b : Nat) (x : Barrier) : (s.setBarrier b x).minSvn1 = s.minSvn1 := rfl
@[simp] theorem setBarrier_minSvn2 (s : State) (b : Nat) (x : Barrier) : (s.setBarrier b x).minSvn2 = s.minSvn2 := rfl
@[simp] theorem setBarrier_m0 (s : State) (b : Nat) (x : Barrier) : (s.setBarrier b x).m0 = s.m0 := rfl
@[simp] theorem setBarrier_m1 (s : State) (b : Nat) (x : Barrier) : (s.setBarrier b x).m1 = s.m1 := rfl
@[simp] theorem setBarrier_m2 (s : State) (b : Nat) (x : Barrier) : (s.setBarrier b x).m2 = s.m2 := rfl
@[simp] theorem setBarrier_m3 (s : State) (b : Nat) (x : Barrier) : (s.setBarrier b x).m3 = s.m3 := rfl
@[simp] theorem setBarrier_reports (s : State) (b : Nat) (x : Barrier) : (s.setBarrier b x).reports = s.reports := rfl

@[simp] theorem setTable_power (s : State) (w : Who) (t : Store HandleSlot) : (s.setTable w t).power = s.power := rfl
@[simp] theorem setTable_me (s : State) (w : Who) (t : Store HandleSlot) : (s.setTable w t).me = s.me := rfl
@[simp] theorem setTable_agents (s : State) (w : Who) (t : Store HandleSlot) : (s.setTable w t).agents = s.agents := rfl
@[simp] theorem setTable_agenda (s : State) (w : Who) (t : Store HandleSlot) : (s.setTable w t).agenda = s.agenda := rfl
@[simp] theorem setTable_free (s : State) (w : Who) (t : Store HandleSlot) : (s.setTable w t).free = s.free := rfl
@[simp] theorem setTable_mem (s : State) (w : Who) (t : Store HandleSlot) : (s.setTable w t).mem = s.mem := rfl
@[simp] theorem setTable_poison (s : State) (w : Who) (t : Store HandleSlot) : (s.setTable w t).poison = s.poison := rfl
@[simp] theorem setTable_units (s : State) (w : Who) (t : Store HandleSlot) : (s.setTable w t).units = s.units := rfl
@[simp] theorem setTable_launches (s : State) (w : Who) (t : Store HandleSlot) : (s.setTable w t).launches = s.launches := rfl
@[simp] theorem setTable_graphs (s : State) (w : Who) (t : Store HandleSlot) : (s.setTable w t).graphs = s.graphs := rfl
@[simp] theorem setTable_phases (s : State) (w : Who) (t : Store HandleSlot) : (s.setTable w t).phases = s.phases := rfl
@[simp] theorem setTable_nextAge (s : State) (w : Who) (t : Store HandleSlot) : (s.setTable w t).nextAge = s.nextAge := rfl
@[simp] theorem setTable_nextInst (s : State) (w : Who) (t : Store HandleSlot) : (s.setTable w t).nextInst = s.nextInst := rfl
@[simp] theorem setTable_nextSeq (s : State) (w : Who) (t : Store HandleSlot) : (s.setTable w t).nextSeq = s.nextSeq := rfl
@[simp] theorem setTable_barriers (s : State) (w : Who) (t : Store HandleSlot) : (s.setTable w t).barriers = s.barriers := rfl
@[simp] theorem setTable_clusters (s : State) (w : Who) (t : Store HandleSlot) : (s.setTable w t).clusters = s.clusters := rfl
@[simp] theorem setTable_dies (s : State) (w : Who) (t : Store HandleSlot) : (s.setTable w t).dies = s.dies := rfl
@[simp] theorem setTable_cores (s : State) (w : Who) (t : Store HandleSlot) : (s.setTable w t).cores = s.cores := rfl
@[simp] theorem setTable_contexts (s : State) (w : Who) (t : Store HandleSlot) : (s.setTable w t).contexts = s.contexts := rfl
@[simp] theorem setTable_cr (s : State) (w : Who) (t : Store HandleSlot) : (s.setTable w t).cr = s.cr := rfl
@[simp] theorem setTable_padOwner (s : State) (w : Who) (t : Store HandleSlot) : (s.setTable w t).padOwner = s.padOwner := rfl
@[simp] theorem setTable_parts (s : State) (w : Who) (t : Store HandleSlot) : (s.setTable w t).parts = s.parts := rfl
@[simp] theorem setTable_pending (s : State) (w : Who) (t : Store HandleSlot) : (s.setTable w t).pending = s.pending := rfl
@[simp] theorem setTable_commits (s : State) (w : Who) (t : Store HandleSlot) : (s.setTable w t).commits = s.commits := rfl
@[simp] theorem setTable_supAsid (s : State) (w : Who) (t : Store HandleSlot) : (s.setTable w t).supAsid = s.supAsid := rfl
@[simp] theorem setTable_supRoot (s : State) (w : Who) (t : Store HandleSlot) : (s.setTable w t).supRoot = s.supRoot := rfl
@[simp] theorem setTable_hsem (s : State) (w : Who) (t : Store HandleSlot) : (s.setTable w t).hsem = s.hsem := rfl
@[simp] theorem setTable_msix (s : State) (w : Who) (t : Store HandleSlot) : (s.setTable w t).msix = s.msix := rfl
@[simp] theorem setTable_bar0 (s : State) (w : Who) (t : Store HandleSlot) : (s.setTable w t).bar0 = s.bar0 := rfl
@[simp] theorem setTable_monitors (s : State) (w : Who) (t : Store HandleSlot) : (s.setTable w t).monitors = s.monitors := rfl
@[simp] theorem setTable_snoops (s : State) (w : Who) (t : Store HandleSlot) : (s.setTable w t).snoops = s.snoops := rfl
@[simp] theorem setTable_hdmRead (s : State) (w : Who) (t : Store HandleSlot) : (s.setTable w t).hdmRead = s.hdmRead := rfl
@[simp] theorem setTable_barRead (s : State) (w : Who) (t : Store HandleSlot) : (s.setTable w t).barRead = s.barRead := rfl
@[simp] theorem setTable_badRows (s : State) (w : Who) (t : Store HandleSlot) : (s.setTable w t).badRows = s.badRows := rfl
@[simp] theorem setTable_thermalAt (s : State) (w : Who) (t : Store HandleSlot) : (s.setTable w t).thermalAt = s.thermalAt := rfl
@[simp] theorem setTable_secret (s : State) (w : Who) (t : Store HandleSlot) : (s.setTable w t).secret = s.secret := rfl
@[simp] theorem setTable_identity (s : State) (w : Who) (t : Store HandleSlot) : (s.setTable w t).identity = s.identity := rfl
@[simp] theorem setTable_certificate (s : State) (w : Who) (t : Store HandleSlot) : (s.setTable w t).certificate = s.certificate := rfl
@[simp] theorem setTable_ports (s : State) (w : Who) (t : Store HandleSlot) : (s.setTable w t).ports = s.ports := rfl
@[simp] theorem setTable_packets (s : State) (w : Who) (t : Store HandleSlot) : (s.setTable w t).packets = s.packets := rfl
@[simp] theorem setTable_inbox (s : State) (w : Who) (t : Store HandleSlot) : (s.setTable w t).inbox = s.inbox := rfl
@[simp] theorem setTable_requests (s : State) (w : Who) (t : Store HandleSlot) : (s.setTable w t).requests = s.requests := rfl
@[simp] theorem setTable_nextTag (s : State) (w : Who) (t : Store HandleSlot) : (s.setTable w t).nextTag = s.nextTag := rfl
@[simp] theorem setTable_topo (s : State) (w : Who) (t : Store HandleSlot) : (s.setTable w t).topo = s.topo := rfl
@[simp] theorem setTable_routes (s : State) (w : Who) (t : Store HandleSlot) : (s.setTable w t).routes = s.routes := rfl
@[simp] theorem setTable_exchange (s : State) (w : Who) (t : Store HandleSlot) : (s.setTable w t).exchange = s.exchange := rfl
@[simp] theorem setTable_retired (s : State) (w : Who) (t : Store HandleSlot) : (s.setTable w t).retired = s.retired := rfl
@[simp] theorem setTable_overflow (s : State) (w : Who) (t : Store HandleSlot) : (s.setTable w t).overflow = s.overflow := rfl
@[simp] theorem setTable_flash1 (s : State) (w : Who) (t : Store HandleSlot) : (s.setTable w t).flash1 = s.flash1 := rfl
@[simp] theorem setTable_flash2 (s : State) (w : Who) (t : Store HandleSlot) : (s.setTable w t).flash2 = s.flash2 := rfl
@[simp] theorem setTable_revoked (s : State) (w : Who) (t : Store HandleSlot) : (s.setTable w t).revoked = s.revoked := rfl
@[simp] theorem setTable_minSvn1 (s : State) (w : Who) (t : Store HandleSlot) : (s.setTable w t).minSvn1 = s.minSvn1 := rfl
@[simp] theorem setTable_minSvn2 (s : State) (w : Who) (t : Store HandleSlot) : (s.setTable w t).minSvn2 = s.minSvn2 := rfl
@[simp] theorem setTable_m0 (s : State) (w : Who) (t : Store HandleSlot) : (s.setTable w t).m0 = s.m0 := rfl
@[simp] theorem setTable_m1 (s : State) (w : Who) (t : Store HandleSlot) : (s.setTable w t).m1 = s.m1 := rfl
@[simp] theorem setTable_m2 (s : State) (w : Who) (t : Store HandleSlot) : (s.setTable w t).m2 = s.m2 := rfl
@[simp] theorem setTable_m3 (s : State) (w : Who) (t : Store HandleSlot) : (s.setTable w t).m3 = s.m3 := rfl
@[simp] theorem setTable_reports (s : State) (w : Who) (t : Store HandleSlot) : (s.setTable w t).reports = s.reports := rfl

@[simp] theorem setUnit_power (s : State) (x : WorkUnit) : (s.setUnit x).power = s.power := rfl
@[simp] theorem setUnit_me (s : State) (x : WorkUnit) : (s.setUnit x).me = s.me := rfl
@[simp] theorem setUnit_agents (s : State) (x : WorkUnit) : (s.setUnit x).agents = s.agents := rfl
@[simp] theorem setUnit_agenda (s : State) (x : WorkUnit) : (s.setUnit x).agenda = s.agenda := rfl
@[simp] theorem setUnit_free (s : State) (x : WorkUnit) : (s.setUnit x).free = s.free := rfl
@[simp] theorem setUnit_mem (s : State) (x : WorkUnit) : (s.setUnit x).mem = s.mem := rfl
@[simp] theorem setUnit_poison (s : State) (x : WorkUnit) : (s.setUnit x).poison = s.poison := rfl
@[simp] theorem setUnit_launches (s : State) (x : WorkUnit) : (s.setUnit x).launches = s.launches := rfl
@[simp] theorem setUnit_graphs (s : State) (x : WorkUnit) : (s.setUnit x).graphs = s.graphs := rfl
@[simp] theorem setUnit_phases (s : State) (x : WorkUnit) : (s.setUnit x).phases = s.phases := rfl
@[simp] theorem setUnit_nextAge (s : State) (x : WorkUnit) : (s.setUnit x).nextAge = s.nextAge := rfl
@[simp] theorem setUnit_nextInst (s : State) (x : WorkUnit) : (s.setUnit x).nextInst = s.nextInst := rfl
@[simp] theorem setUnit_nextSeq (s : State) (x : WorkUnit) : (s.setUnit x).nextSeq = s.nextSeq := rfl
@[simp] theorem setUnit_tables (s : State) (x : WorkUnit) : (s.setUnit x).tables = s.tables := rfl
@[simp] theorem setUnit_barriers (s : State) (x : WorkUnit) : (s.setUnit x).barriers = s.barriers := rfl
@[simp] theorem setUnit_clusters (s : State) (x : WorkUnit) : (s.setUnit x).clusters = s.clusters := rfl
@[simp] theorem setUnit_dies (s : State) (x : WorkUnit) : (s.setUnit x).dies = s.dies := rfl
@[simp] theorem setUnit_cores (s : State) (x : WorkUnit) : (s.setUnit x).cores = s.cores := rfl
@[simp] theorem setUnit_contexts (s : State) (x : WorkUnit) : (s.setUnit x).contexts = s.contexts := rfl
@[simp] theorem setUnit_cr (s : State) (x : WorkUnit) : (s.setUnit x).cr = s.cr := rfl
@[simp] theorem setUnit_padOwner (s : State) (x : WorkUnit) : (s.setUnit x).padOwner = s.padOwner := rfl
@[simp] theorem setUnit_parts (s : State) (x : WorkUnit) : (s.setUnit x).parts = s.parts := rfl
@[simp] theorem setUnit_pending (s : State) (x : WorkUnit) : (s.setUnit x).pending = s.pending := rfl
@[simp] theorem setUnit_commits (s : State) (x : WorkUnit) : (s.setUnit x).commits = s.commits := rfl
@[simp] theorem setUnit_supAsid (s : State) (x : WorkUnit) : (s.setUnit x).supAsid = s.supAsid := rfl
@[simp] theorem setUnit_supRoot (s : State) (x : WorkUnit) : (s.setUnit x).supRoot = s.supRoot := rfl
@[simp] theorem setUnit_hsem (s : State) (x : WorkUnit) : (s.setUnit x).hsem = s.hsem := rfl
@[simp] theorem setUnit_msix (s : State) (x : WorkUnit) : (s.setUnit x).msix = s.msix := rfl
@[simp] theorem setUnit_bar0 (s : State) (x : WorkUnit) : (s.setUnit x).bar0 = s.bar0 := rfl
@[simp] theorem setUnit_monitors (s : State) (x : WorkUnit) : (s.setUnit x).monitors = s.monitors := rfl
@[simp] theorem setUnit_snoops (s : State) (x : WorkUnit) : (s.setUnit x).snoops = s.snoops := rfl
@[simp] theorem setUnit_hdmRead (s : State) (x : WorkUnit) : (s.setUnit x).hdmRead = s.hdmRead := rfl
@[simp] theorem setUnit_barRead (s : State) (x : WorkUnit) : (s.setUnit x).barRead = s.barRead := rfl
@[simp] theorem setUnit_badRows (s : State) (x : WorkUnit) : (s.setUnit x).badRows = s.badRows := rfl
@[simp] theorem setUnit_thermalAt (s : State) (x : WorkUnit) : (s.setUnit x).thermalAt = s.thermalAt := rfl
@[simp] theorem setUnit_secret (s : State) (x : WorkUnit) : (s.setUnit x).secret = s.secret := rfl
@[simp] theorem setUnit_identity (s : State) (x : WorkUnit) : (s.setUnit x).identity = s.identity := rfl
@[simp] theorem setUnit_certificate (s : State) (x : WorkUnit) : (s.setUnit x).certificate = s.certificate := rfl
@[simp] theorem setUnit_ports (s : State) (x : WorkUnit) : (s.setUnit x).ports = s.ports := rfl
@[simp] theorem setUnit_packets (s : State) (x : WorkUnit) : (s.setUnit x).packets = s.packets := rfl
@[simp] theorem setUnit_inbox (s : State) (x : WorkUnit) : (s.setUnit x).inbox = s.inbox := rfl
@[simp] theorem setUnit_requests (s : State) (x : WorkUnit) : (s.setUnit x).requests = s.requests := rfl
@[simp] theorem setUnit_nextTag (s : State) (x : WorkUnit) : (s.setUnit x).nextTag = s.nextTag := rfl
@[simp] theorem setUnit_topo (s : State) (x : WorkUnit) : (s.setUnit x).topo = s.topo := rfl
@[simp] theorem setUnit_routes (s : State) (x : WorkUnit) : (s.setUnit x).routes = s.routes := rfl
@[simp] theorem setUnit_exchange (s : State) (x : WorkUnit) : (s.setUnit x).exchange = s.exchange := rfl
@[simp] theorem setUnit_retired (s : State) (x : WorkUnit) : (s.setUnit x).retired = s.retired := rfl
@[simp] theorem setUnit_overflow (s : State) (x : WorkUnit) : (s.setUnit x).overflow = s.overflow := rfl
@[simp] theorem setUnit_flash1 (s : State) (x : WorkUnit) : (s.setUnit x).flash1 = s.flash1 := rfl
@[simp] theorem setUnit_flash2 (s : State) (x : WorkUnit) : (s.setUnit x).flash2 = s.flash2 := rfl
@[simp] theorem setUnit_revoked (s : State) (x : WorkUnit) : (s.setUnit x).revoked = s.revoked := rfl
@[simp] theorem setUnit_minSvn1 (s : State) (x : WorkUnit) : (s.setUnit x).minSvn1 = s.minSvn1 := rfl
@[simp] theorem setUnit_minSvn2 (s : State) (x : WorkUnit) : (s.setUnit x).minSvn2 = s.minSvn2 := rfl
@[simp] theorem setUnit_m0 (s : State) (x : WorkUnit) : (s.setUnit x).m0 = s.m0 := rfl
@[simp] theorem setUnit_m1 (s : State) (x : WorkUnit) : (s.setUnit x).m1 = s.m1 := rfl
@[simp] theorem setUnit_m2 (s : State) (x : WorkUnit) : (s.setUnit x).m2 = s.m2 := rfl
@[simp] theorem setUnit_m3 (s : State) (x : WorkUnit) : (s.setUnit x).m3 = s.m3 := rfl
@[simp] theorem setUnit_reports (s : State) (x : WorkUnit) : (s.setUnit x).reports = s.reports := rfl

@[simp] theorem setLaunch_power (s : State) (x : Launch) : (s.setLaunch x).power = s.power := rfl
@[simp] theorem setLaunch_me (s : State) (x : Launch) : (s.setLaunch x).me = s.me := rfl
@[simp] theorem setLaunch_agents (s : State) (x : Launch) : (s.setLaunch x).agents = s.agents := rfl
@[simp] theorem setLaunch_agenda (s : State) (x : Launch) : (s.setLaunch x).agenda = s.agenda := rfl
@[simp] theorem setLaunch_free (s : State) (x : Launch) : (s.setLaunch x).free = s.free := rfl
@[simp] theorem setLaunch_mem (s : State) (x : Launch) : (s.setLaunch x).mem = s.mem := rfl
@[simp] theorem setLaunch_poison (s : State) (x : Launch) : (s.setLaunch x).poison = s.poison := rfl
@[simp] theorem setLaunch_units (s : State) (x : Launch) : (s.setLaunch x).units = s.units := rfl
@[simp] theorem setLaunch_graphs (s : State) (x : Launch) : (s.setLaunch x).graphs = s.graphs := rfl
@[simp] theorem setLaunch_phases (s : State) (x : Launch) : (s.setLaunch x).phases = s.phases := rfl
@[simp] theorem setLaunch_nextAge (s : State) (x : Launch) : (s.setLaunch x).nextAge = s.nextAge := rfl
@[simp] theorem setLaunch_nextInst (s : State) (x : Launch) : (s.setLaunch x).nextInst = s.nextInst := rfl
@[simp] theorem setLaunch_nextSeq (s : State) (x : Launch) : (s.setLaunch x).nextSeq = s.nextSeq := rfl
@[simp] theorem setLaunch_tables (s : State) (x : Launch) : (s.setLaunch x).tables = s.tables := rfl
@[simp] theorem setLaunch_barriers (s : State) (x : Launch) : (s.setLaunch x).barriers = s.barriers := rfl
@[simp] theorem setLaunch_clusters (s : State) (x : Launch) : (s.setLaunch x).clusters = s.clusters := rfl
@[simp] theorem setLaunch_dies (s : State) (x : Launch) : (s.setLaunch x).dies = s.dies := rfl
@[simp] theorem setLaunch_cores (s : State) (x : Launch) : (s.setLaunch x).cores = s.cores := rfl
@[simp] theorem setLaunch_contexts (s : State) (x : Launch) : (s.setLaunch x).contexts = s.contexts := rfl
@[simp] theorem setLaunch_cr (s : State) (x : Launch) : (s.setLaunch x).cr = s.cr := rfl
@[simp] theorem setLaunch_padOwner (s : State) (x : Launch) : (s.setLaunch x).padOwner = s.padOwner := rfl
@[simp] theorem setLaunch_parts (s : State) (x : Launch) : (s.setLaunch x).parts = s.parts := rfl
@[simp] theorem setLaunch_pending (s : State) (x : Launch) : (s.setLaunch x).pending = s.pending := rfl
@[simp] theorem setLaunch_commits (s : State) (x : Launch) : (s.setLaunch x).commits = s.commits := rfl
@[simp] theorem setLaunch_supAsid (s : State) (x : Launch) : (s.setLaunch x).supAsid = s.supAsid := rfl
@[simp] theorem setLaunch_supRoot (s : State) (x : Launch) : (s.setLaunch x).supRoot = s.supRoot := rfl
@[simp] theorem setLaunch_hsem (s : State) (x : Launch) : (s.setLaunch x).hsem = s.hsem := rfl
@[simp] theorem setLaunch_msix (s : State) (x : Launch) : (s.setLaunch x).msix = s.msix := rfl
@[simp] theorem setLaunch_bar0 (s : State) (x : Launch) : (s.setLaunch x).bar0 = s.bar0 := rfl
@[simp] theorem setLaunch_monitors (s : State) (x : Launch) : (s.setLaunch x).monitors = s.monitors := rfl
@[simp] theorem setLaunch_snoops (s : State) (x : Launch) : (s.setLaunch x).snoops = s.snoops := rfl
@[simp] theorem setLaunch_hdmRead (s : State) (x : Launch) : (s.setLaunch x).hdmRead = s.hdmRead := rfl
@[simp] theorem setLaunch_barRead (s : State) (x : Launch) : (s.setLaunch x).barRead = s.barRead := rfl
@[simp] theorem setLaunch_badRows (s : State) (x : Launch) : (s.setLaunch x).badRows = s.badRows := rfl
@[simp] theorem setLaunch_thermalAt (s : State) (x : Launch) : (s.setLaunch x).thermalAt = s.thermalAt := rfl
@[simp] theorem setLaunch_secret (s : State) (x : Launch) : (s.setLaunch x).secret = s.secret := rfl
@[simp] theorem setLaunch_identity (s : State) (x : Launch) : (s.setLaunch x).identity = s.identity := rfl
@[simp] theorem setLaunch_certificate (s : State) (x : Launch) : (s.setLaunch x).certificate = s.certificate := rfl
@[simp] theorem setLaunch_ports (s : State) (x : Launch) : (s.setLaunch x).ports = s.ports := rfl
@[simp] theorem setLaunch_packets (s : State) (x : Launch) : (s.setLaunch x).packets = s.packets := rfl
@[simp] theorem setLaunch_inbox (s : State) (x : Launch) : (s.setLaunch x).inbox = s.inbox := rfl
@[simp] theorem setLaunch_requests (s : State) (x : Launch) : (s.setLaunch x).requests = s.requests := rfl
@[simp] theorem setLaunch_nextTag (s : State) (x : Launch) : (s.setLaunch x).nextTag = s.nextTag := rfl
@[simp] theorem setLaunch_topo (s : State) (x : Launch) : (s.setLaunch x).topo = s.topo := rfl
@[simp] theorem setLaunch_routes (s : State) (x : Launch) : (s.setLaunch x).routes = s.routes := rfl
@[simp] theorem setLaunch_exchange (s : State) (x : Launch) : (s.setLaunch x).exchange = s.exchange := rfl
@[simp] theorem setLaunch_retired (s : State) (x : Launch) : (s.setLaunch x).retired = s.retired := rfl
@[simp] theorem setLaunch_overflow (s : State) (x : Launch) : (s.setLaunch x).overflow = s.overflow := rfl
@[simp] theorem setLaunch_flash1 (s : State) (x : Launch) : (s.setLaunch x).flash1 = s.flash1 := rfl
@[simp] theorem setLaunch_flash2 (s : State) (x : Launch) : (s.setLaunch x).flash2 = s.flash2 := rfl
@[simp] theorem setLaunch_revoked (s : State) (x : Launch) : (s.setLaunch x).revoked = s.revoked := rfl
@[simp] theorem setLaunch_minSvn1 (s : State) (x : Launch) : (s.setLaunch x).minSvn1 = s.minSvn1 := rfl
@[simp] theorem setLaunch_minSvn2 (s : State) (x : Launch) : (s.setLaunch x).minSvn2 = s.minSvn2 := rfl
@[simp] theorem setLaunch_m0 (s : State) (x : Launch) : (s.setLaunch x).m0 = s.m0 := rfl
@[simp] theorem setLaunch_m1 (s : State) (x : Launch) : (s.setLaunch x).m1 = s.m1 := rfl
@[simp] theorem setLaunch_m2 (s : State) (x : Launch) : (s.setLaunch x).m2 = s.m2 := rfl
@[simp] theorem setLaunch_m3 (s : State) (x : Launch) : (s.setLaunch x).m3 = s.m3 := rfl
@[simp] theorem setLaunch_reports (s : State) (x : Launch) : (s.setLaunch x).reports = s.reports := rfl

/-! What is read after an update of the same kind. -/

theorem die_setDie (s : State) (d e : Nat) (x : Die) : (s.setDie d x).die e = if e = d then x else s.die e :=
  get_set s.dies d e x

theorem context_setContext (s : State) (c e : Nat) (x : Context) :
    (s.setContext c x).context e = if e = c then x else s.context e := get_set s.contexts c e x

theorem part_setPart (s : State) (p e : Nat) (x : Partition) : (s.setPart p x).part e = if e = p then x else s.part e :=
  get_set s.parts p e x

theorem barrier_setBarrier (s : State) (b e : Nat) (x : Barrier) :
    (s.setBarrier b x).barrier e = if e = b then x else s.barrier e := get_set s.barriers b e x

@[simp] theorem die_setDie_same (s : State) (d : Nat) (x : Die) : (s.setDie d x).die d = x := get_set_same s.dies d x

@[simp] theorem context_setContext_same (s : State) (c : Nat) (x : Context) : (s.setContext c x).context c = x :=
  get_set_same s.contexts c x

@[simp] theorem cluster_setCluster_same (s : State) (d c : Nat) (x : Cluster) : (s.setCluster d c x).cluster d c = x :=
  get_set_same s.clusters (d * 4 + c) x

@[simp] theorem core_setCore_same (s : State) (d c k : Nat) (x : Core) : (s.setCore d c k x).core d c k = x :=
  get_set_same s.cores ((d * 4 + c) * 128 + k) x

@[simp] theorem part_setPart_same (s : State) (p : Nat) (x : Partition) : (s.setPart p x).part p = x :=
  get_set_same s.parts p x

@[simp] theorem barrier_setBarrier_same (s : State) (b : Nat) (x : Barrier) : (s.setBarrier b x).barrier b = x :=
  get_set_same s.barriers b x

theorem table_setTable (s : State) (w : Who) (t : Store HandleSlot) : (s.setTable w t).table w = t := by
  simp [State.table, State.setTable]

end Sys2Proof.Laws
end

