-- ==== Sys2Proof/Laws/Access.lean ====
section
/-!
SUPPORT. Lane accesses: the lanes of an access that passes or fails, spans of registers, and stores that perform.
-/
namespace Sys2Proof.Laws
open Sys2Proof.Machine

/-! The lanes of an access (R110). -/

theorem collectLanes_ok {α : Type} {em : Word} {f : Nat → Except LaneFault α} {acc : Nat → α} {ls : List Nat}
    (h : ∀ l ∈ ls, em.getLsbD l = true → f l = .ok (acc l)) :
    collectLanes em f ls = .ok ((ls.filter fun l => em.getLsbD l).map fun l => (l, acc l)) := by
  induction ls with
  | nil => rfl
  | cons l r ih =>
    have ih := ih fun k hk => h k (List.mem_cons_of_mem _ hk)
    simp only [collectLanes]
    by_cases he : em.getLsbD l = true
    · rw [if_pos he, h l (by simp) he, ih]; simp [he]
    · rw [if_neg he, ih]; simp [he]

theorem collectLanes_error {α : Type} {em : Word} {f : Nat → Except LaneFault α} {e : LaneFault} {pre post : List Nat} {l : Nat}
    (hp : ∀ k ∈ pre, em.getLsbD k = true → ∃ x, f k = .ok x) (he : em.getLsbD l = true) (hl : f l = .error e) :
    collectLanes em f (pre ++ l :: post) = .error e := by
  induction pre with
  | nil => simp [collectLanes, he, hl]
  | cons k r ih =>
    have ih := ih fun j hj => hp j (List.mem_cons_of_mem _ hj)
    simp only [List.cons_append, collectLanes]
    by_cases hk : em.getLsbD k = true
    · obtain ⟨x, hx⟩ := hp k (by simp) hk
      rw [if_pos hk, hx, ih]
    · rw [if_neg hk, ih]

theorem lanes_pass {s : State} {w off : Nat} {a : BitVec 7} {fault : Nat → List OdaByte → Option Cause} {acc : Nat → Access}
    (h : LanesPass s w off a fault acc) :
    collectLanes s.me.cur.em (fun l => s.laneAccess s.me w fault l (s.me.ea a off l)) allLanes
      = .ok ((activeLanes s).map fun l => (l, acc l)) := by
  apply collectLanes_ok
  intro l hl he
  exact h l (by simpa [allLanes] using hl) he

theorem lanes_fail {s : State} {w off : Nat} {a : BitVec 7} {fault : Nat → List OdaByte → Option Cause} {e : LaneFault}
    (h : LaneFails s w off a fault e) :
    collectLanes s.me.cur.em (fun l => s.laneAccess s.me w fault l (s.me.ea a off l)) allLanes = .error e := by
  obtain ⟨l, hl, he, hf, hp⟩ := h
  have hsplit : allLanes = (List.range l) ++ l :: ((List.range (31 - l)).map fun i => l + 1 + i) := by
    have : allLanes = List.range (l + (1 + (31 - l))) := by simp only [allLanes]; congr 1; omega
    rw [this, List.range_add]
    congr 1
    rw [Nat.add_comm 1, List.range_succ_eq_map]
    simp [Function.comp_def]
    intro i hi; omega
  rw [hsplit]
  exact collectLanes_error (fun k hk he' => hp k (List.mem_range.1 hk) he') he hf

/-- What a lane's value is among the active lanes' values. -/
theorem laneVal_active {s : State} {g : Nat → Nat} {l : Nat} (hl : l < 32) (he : s.me.cur.em.getLsbD l = true) :
    laneVal ((activeLanes s).map fun l => (l, g l)) l = g l := by
  have hm : l ∈ activeLanes s := by simp [activeLanes, hl, he]
  generalize activeLanes s = ls at hm
  simp only [laneVal]
  induction ls with
  | nil => simp at hm
  | cons k r ih =>
    by_cases h : k = l
    · subst h; simp
    · have : l ∈ r := by simpa [Ne.symm h] using hm
      rw [List.map_cons, List.find?_cons_of_neg (by simpa using h)]
      exact ih this

/-! Spans of registers. -/

theorem writeSpan_shape (a : Agent) (em : Word) (d : Nat) (rs : List Lanes) :
    a.writeSpan em d rs = { a with cur := { a.cur with held := (a.writeSpan em d rs).cur.held } } := by
  induction rs generalizing a d with
  | nil => rfl
  | cons r rs ih => simp only [Agent.writeSpan]; rw [ih]; rfl

theorem readV_writeSpan (a : Agent) (em : Word) (d : Nat) (rs : List Lanes) (n l : Nat) :
    (a.writeSpan em d rs).readV n l
      = if d ≤ n ∧ n < d + rs.length ∧ em.getLsbD l = true then (rs.getD (n - d) Lanes.zero).at l else a.readV n l := by
  induction rs generalizing a d with
  | nil => simp [Agent.writeSpan]; omega
  | cons r rs ih =>
    simp only [Agent.writeSpan]
    rw [ih, readV_writeV]
    by_cases he : em.getLsbD l = true
    · simp only [he, and_true, List.length_cons]
      by_cases h1 : d = n
      · subst h1
        rw [if_neg (by omega), if_pos rfl, if_pos (by omega)]; simp
      · by_cases h2 : d + 1 ≤ n ∧ n < d + 1 + rs.length
        · rw [if_pos h2, if_pos (by omega)]
          have : n - d = (n - (d + 1)) + 1 := by omega
          rw [this]; simp
        · rw [if_neg h2, if_neg h1, if_neg (by omega)]
    · simp [he]

/-- What a span of registers and a retirement do. -/
theorem span_effect (s : State) (d k : Nat) (r : Nat → Nat → Word) (ends : Bool) :
    let rs := (List.range k).map fun i => laneResult s.me.cur.em (r i)
    let b0 := laneResult s.me.cur.em (r 0)
    SpanEffect s { s with me := (s.me.writeSpan s.me.cur.em d rs).retire (some b0) (s.me.nextPc 4) ends } d k r ends := by
  intro rs b0
  have hrs : (List.range k).map (fun i => laneResult s.me.cur.em (r i)) = rs := rfl
  clear_value rs
  have hlen : rs.length = k := by simp [← hrs]
  have hb : ∀ i l, l < 32 → (laneResult s.me.cur.em (r i)).at l = if s.me.cur.em.getLsbD l = true then r i l else 0 := by
    intro i l hl; simp [laneResult, at_make, hl]
  have hsh := writeSpan_shape s.me s.me.cur.em d rs
  refine ⟨?_, ?_, by simp [Agent.nextPc], ?_, ?_, ?_, ?_, _, hb 0, ?_⟩
  · rw [hsh]
    exact agentOnly_retire s s.me.v s.me.g s.me.xt s.me.scratch s.me.heldG s.me.retired _ _ _ ends rfl rfl rfl rfl rfl
  · rw [hsh]; simp
  · intro n l hl
    rw [readV_retire _ _ _ _ _ _ hl, readV_writeSpan, hlen]
    by_cases h : d ≤ n ∧ n < d + k ∧ s.me.cur.em.getLsbD l = true
    · rw [if_pos h, if_pos h]
      have : rs.getD (n - d) Lanes.zero = laneResult s.me.cur.em (r (n - d)) := by
        rw [← hrs]; simp; rw [List.getElem?_range (by omega)]; rfl
      rw [this, hb _ _ hl, if_pos h.2.2]
    · rw [if_neg h, if_neg h]
  · intro n; rw [readG_retire, hsh]; rfl
  · intro n; rw [readXt_retire, hsh]; rfl
  · intro n; rw [readScratch_retire, hsh]; rfl
  · rw [hsh]; exact chainGoes_retire s _ _ _ _ rfl rfl rfl rfl

end Sys2Proof.Laws
end

