-- ==== Sys2Proof/Laws/Decode.lean ====
section
/-!
SUPPORT. What the decoder reads back from the fields that the encoder lays out.
-/
namespace Sys2Proof.Laws

theorem halfOf_bytes (h : Half) : halfOf (h.extractLsb' 0 8) (h.extractLsb' 8 8) = h := by
  apply BitVec.eq_of_getLsbD_eq
  intro i hi
  simp only [halfOf, BitVec.getLsbD_append, BitVec.getLsbD_extractLsb']
  by_cases h8 : i < 8
  · simp [h8]
  · have : i - 8 < 8 := by omega
    simp [h8, this, Nat.add_sub_cancel' (by omega : 8 ≤ i)]

theorem word_of_halves (w : Word) : (w.extractLsb' 16 16 ++ w.extractLsb' 0 16 : Word) = w := by
  apply BitVec.eq_of_getLsbD_eq
  intro i hi
  simp only [BitVec.getLsbD_append, BitVec.getLsbD_extractLsb']
  by_cases h16 : i < 16
  · simp [h16]
  · have : i - 16 < 16 := by omega
    simp [h16, this, Nat.add_sub_cancel' (by omega : 16 ≤ i)]

/-- A word with bit 0 set is decoded by its fields. -/
theorem decode_word (w : Word) (rest : List Byte) (h : w.getLsbD 0 = true) :
    decode (bytesOfWord w ++ rest) = (decodeWord w).map fun i => (i, rest) := by
  have h0 : (w.extractLsb' 0 16).getLsbD 0 = true := by simpa using h
  simp only [bytesOfWord, bytesOfHalf, List.cons_append, List.nil_append, decode, halfOf_bytes, word_of_halves, h0, if_true]

/-- A halfword with bit 0 clear is decoded alone. -/
theorem decode_half (x : Half) (rest : List Byte) (h : x.getLsbD 0 = false) :
    decode (bytesOfHalf x ++ rest) = (decodeHalfWord x).map fun i => (i, rest) := by
  simp only [bytesOfHalf, List.cons_append, List.nil_append, decode, halfOf_bytes, h]
  rfl

/-! The fields of each format. -/

theorem extract_high {a b : Nat} (x : BitVec a) (y : BitVec b) (s l : Nat) (h : b ≤ s) :
    (x ++ y).extractLsb' s l = x.extractLsb' (s - b) l := by
  apply BitVec.eq_of_getLsbD_eq
  intro i hi
  simp only [BitVec.getLsbD_extractLsb', BitVec.getLsbD_append]
  rw [if_neg (by omega), show s + i - b = s - b + i by omega]

theorem extract_low {a b : Nat} (x : BitVec a) (y : BitVec b) (s l : Nat) (h : s + l ≤ b) :
    (x ++ y).extractLsb' s l = y.extractLsb' s l := by
  apply BitVec.eq_of_getLsbD_eq
  intro i hi
  simp only [BitVec.getLsbD_extractLsb', BitVec.getLsbD_append]
  rw [if_pos (by omega)]

theorem extract_all {a : Nat} (x : BitVec a) : x.extractLsb' 0 a = x := by
  apply BitVec.eq_of_getLsbD_eq
  intro i hi
  simp [hi]

theorem extract_setWidth {n : Nat} (x : BitVec n) (m : Nat) (h : n ≤ m) : (x.setWidth m).extractLsb' 0 n = x := by
  apply BitVec.eq_of_getLsbD_eq
  intro i hi
  have : i < m := by omega
  simp [this, hi]

theorem extract_setWidth_high {n : Nat} (x : BitVec n) (m k : Nat) : (x.setWidth m).extractLsb' n k = 0#k := by
  apply BitVec.eq_of_getLsbD_eq
  intro i hi
  simp

theorem append_bit0 {a : Nat} (x : BitVec a) (y : BitVec 1) : (x ++ y).getLsbD 0 = y.getLsbD 0 := by
  rw [BitVec.getLsbD_append]; simp

theorem wordR_bit0 (s : BitVec 2) (n : BitVec 1) (b : BitVec 7) (a : BitVec 7) (d : BitVec 7) (op : BitVec 7) : (wordR s n b a d op).getLsbD 0 = true := append_bit0 _ 1#1
theorem sField_wordR (s : BitVec 2) (n : BitVec 1) (b : BitVec 7) (a : BitVec 7) (d : BitVec 7) (op : BitVec 7) : sField (wordR s n b a d op) = s := by
  unfold sField wordR
  rw [extract_high _ 1#1 _ _ (by decide), extract_high _ _ _ _ (by decide), extract_high _ _ _ _ (by decide), extract_high _ _ _ _ (by decide), extract_high _ _ _ _ (by decide), extract_high _ _ _ _ (by decide)]
  exact extract_all _
theorem nField_wordR (s : BitVec 2) (n : BitVec 1) (b : BitVec 7) (a : BitVec 7) (d : BitVec 7) (op : BitVec 7) : nField (wordR s n b a d op) = n := by
  unfold nField wordR
  rw [extract_high _ 1#1 _ _ (by decide), extract_high _ _ _ _ (by decide), extract_high _ _ _ _ (by decide), extract_high _ _ _ _ (by decide), extract_high _ _ _ _ (by decide), extract_low _ _ _ _ (by decide)]
  exact extract_all _
theorem bField_wordR (s : BitVec 2) (n : BitVec 1) (b : BitVec 7) (a : BitVec 7) (d : BitVec 7) (op : BitVec 7) : bField (wordR s n b a d op) = b := by
  unfold bField wordR
  rw [extract_high _ 1#1 _ _ (by decide), extract_high _ _ _ _ (by decide), extract_high _ _ _ _ (by decide), extract_high _ _ _ _ (by decide), extract_low _ _ _ _ (by decide)]
  exact extract_all _
theorem aField_wordR (s : BitVec 2) (n : BitVec 1) (b : BitVec 7) (a : BitVec 7) (d : BitVec 7) (op : BitVec 7) : aField (wordR s n b a d op) = a := by
  unfold aField wordR
  rw [extract_high _ 1#1 _ _ (by decide), extract_high _ _ _ _ (by decide), extract_high _ _ _ _ (by decide), extract_low _ _ _ _ (by decide)]
  exact extract_all _
theorem dField_wordR (s : BitVec 2) (n : BitVec 1) (b : BitVec 7) (a : BitVec 7) (d : BitVec 7) (op : BitVec 7) : dField (wordR s n b a d op) = d := by
  unfold dField wordR
  rw [extract_high _ 1#1 _ _ (by decide), extract_high _ _ _ _ (by decide), extract_low _ _ _ _ (by decide)]
  exact extract_all _
theorem opField_wordR (s : BitVec 2) (n : BitVec 1) (b : BitVec 7) (a : BitVec 7) (d : BitVec 7) (op : BitVec 7) : opField (wordR s n b a d op) = op := by
  unfold opField wordR
  rw [extract_high _ 1#1 _ _ (by decide), extract_low _ _ _ _ (by decide)]
  exact extract_all _
theorem wordI_bit0 (i : BitVec 10) (a : BitVec 7) (d : BitVec 7) (op : BitVec 7) : (wordI i a d op).getLsbD 0 = true := append_bit0 _ 1#1
theorem imm10Field_wordI (i : BitVec 10) (a : BitVec 7) (d : BitVec 7) (op : BitVec 7) : imm10Field (wordI i a d op) = i := by
  unfold imm10Field wordI
  rw [extract_high _ 1#1 _ _ (by decide), extract_high _ _ _ _ (by decide), extract_high _ _ _ _ (by decide), extract_high _ _ _ _ (by decide)]
  exact extract_all _
theorem aField_wordI (i : BitVec 10) (a : BitVec 7) (d : BitVec 7) (op : BitVec 7) : aField (wordI i a d op) = a := by
  unfold aField wordI
  rw [extract_high _ 1#1 _ _ (by decide), extract_high _ _ _ _ (by decide), extract_high _ _ _ _ (by decide), extract_low _ _ _ _ (by decide)]
  exact extract_all _
theorem dField_wordI (i : BitVec 10) (a : BitVec 7) (d : BitVec 7) (op : BitVec 7) : dField (wordI i a d op) = d := by
  unfold dField wordI
  rw [extract_high _ 1#1 _ _ (by decide), extract_high _ _ _ _ (by decide), extract_low _ _ _ _ (by decide)]
  exact extract_all _
theorem opField_wordI (i : BitVec 10) (a : BitVec 7) (d : BitVec 7) (op : BitVec 7) : opField (wordI i a d op) = op := by
  unfold opField wordI
  rw [extract_high _ 1#1 _ _ (by decide), extract_low _ _ _ _ (by decide)]
  exact extract_all _
theorem wordL_bit0 (i : BitVec 17) (d : BitVec 7) (op : BitVec 7) : (wordL i d op).getLsbD 0 = true := append_bit0 _ 1#1
theorem imm17Field_wordL (i : BitVec 17) (d : BitVec 7) (op : BitVec 7) : imm17Field (wordL i d op) = i := by
  unfold imm17Field wordL
  rw [extract_high _ 1#1 _ _ (by decide), extract_high _ _ _ _ (by decide), extract_high _ _ _ _ (by decide)]
  exact extract_all _
theorem dField_wordL (i : BitVec 17) (d : BitVec 7) (op : BitVec 7) : dField (wordL i d op) = d := by
  unfold dField wordL
  rw [extract_high _ 1#1 _ _ (by decide), extract_high _ _ _ _ (by decide), extract_low _ _ _ _ (by decide)]
  exact extract_all _
theorem opField_wordL (i : BitVec 17) (d : BitVec 7) (op : BitVec 7) : opField (wordL i d op) = op := by
  unfold opField wordL
  rw [extract_high _ 1#1 _ _ (by decide), extract_low _ _ _ _ (by decide)]
  exact extract_all _
theorem wordM_bit0 (c : BitVec 3) (s : BitVec 2) (f : BitVec 5) (a : BitVec 7) (d : BitVec 7) (op : BitVec 7) : (wordM c s f a d op).getLsbD 0 = true := append_bit0 _ 1#1
theorem scField_wordM (c : BitVec 3) (s : BitVec 2) (f : BitVec 5) (a : BitVec 7) (d : BitVec 7) (op : BitVec 7) : scField (wordM c s f a d op) = c := by
  unfold scField wordM
  rw [extract_high _ 1#1 _ _ (by decide), extract_high _ _ _ _ (by decide), extract_high _ _ _ _ (by decide), extract_high _ _ _ _ (by decide), extract_high _ _ _ _ (by decide), extract_high _ _ _ _ (by decide)]
  exact extract_all _
theorem subField_wordM (c : BitVec 3) (s : BitVec 2) (f : BitVec 5) (a : BitVec 7) (d : BitVec 7) (op : BitVec 7) : subField (wordM c s f a d op) = s := by
  unfold subField wordM
  rw [extract_high _ 1#1 _ _ (by decide), extract_high _ _ _ _ (by decide), extract_high _ _ _ _ (by decide), extract_high _ _ _ _ (by decide), extract_high _ _ _ _ (by decide), extract_low _ _ _ _ (by decide)]
  exact extract_all _
theorem b5Field_wordM (c : BitVec 3) (s : BitVec 2) (f : BitVec 5) (a : BitVec 7) (d : BitVec 7) (op : BitVec 7) : b5Field (wordM c s f a d op) = f := by
  unfold b5Field wordM
  rw [extract_high _ 1#1 _ _ (by decide), extract_high _ _ _ _ (by decide), extract_high _ _ _ _ (by decide), extract_high _ _ _ _ (by decide), extract_low _ _ _ _ (by decide)]
  exact extract_all _
theorem aField_wordM (c : BitVec 3) (s : BitVec 2) (f : BitVec 5) (a : BitVec 7) (d : BitVec 7) (op : BitVec 7) : aField (wordM c s f a d op) = a := by
  unfold aField wordM
  rw [extract_high _ 1#1 _ _ (by decide), extract_high _ _ _ _ (by decide), extract_high _ _ _ _ (by decide), extract_low _ _ _ _ (by decide)]
  exact extract_all _
theorem dField_wordM (c : BitVec 3) (s : BitVec 2) (f : BitVec 5) (a : BitVec 7) (d : BitVec 7) (op : BitVec 7) : dField (wordM c s f a d op) = d := by
  unfold dField wordM
  rw [extract_high _ 1#1 _ _ (by decide), extract_high _ _ _ _ (by decide), extract_low _ _ _ _ (by decide)]
  exact extract_all _
theorem opField_wordM (c : BitVec 3) (s : BitVec 2) (f : BitVec 5) (a : BitVec 7) (d : BitVec 7) (op : BitVec 7) : opField (wordM c s f a d op) = op := by
  unfold opField wordM
  rw [extract_high _ 1#1 _ _ (by decide), extract_low _ _ _ _ (by decide)]
  exact extract_all _
theorem wordH_bit0 (n : BitVec 1) (a d : BitVec 5) (op : BitVec 4) : (wordH n a d op).getLsbD 0 = false := append_bit0 _ 0#1

/-! The decoder on the encoder's words, format by format. -/

theorem decode_fieldsR (s : BitVec 2) (n : BitVec 1) (b a d op : BitVec 7) (h : isImmMajor op = false) (h' : isMemMajor op = false) :
    decodeWord (wordR s n b a d op) =
      if op < 0x30#7 then decodeLane op s n b a d else if op < 0x50#7 then decodeGroupWide op s n b a d
      else if op < 0x68#7 then decodeEngine op s n b a d else decodeSystem op s n b a d := by
  simp only [decodeWord, opField_wordR, sField_wordR, nField_wordR, bField_wordR, aField_wordR, dField_wordR, h, h',
    Bool.false_eq_true, if_false]

theorem decode_fieldsI (i : BitVec 10) (a d op : BitVec 7) (h : isImmMajor op = true) :
    decodeWord (wordI i a d op) = decodeImm op i a d (i ++ a) := by
  have e : imm17Field (wordI i a d op) = i ++ a := imm17Field_wordL (i ++ a) d op
  simp only [decodeWord, opField_wordI, imm10Field_wordI, aField_wordI, dField_wordI, e, h, if_true]

theorem decode_fieldsL (i : BitVec 17) (d op : BitVec 7) (h : isImmMajor op = true) :
    decodeWord (wordL i d op) = decodeImm op (imm10Field (wordL i d op)) (aField (wordL i d op)) d i := by
  simp only [decodeWord, opField_wordL, imm17Field_wordL, dField_wordL, h, if_true]

theorem decode_fieldsM (c : BitVec 3) (s : BitVec 2) (f : BitVec 5) (a d op : BitVec 7) (h : isMemMajor op = true)
    (h' : isImmMajor op = false) : decodeWord (wordM c s f a d op) = decodeMem op c s f a d := by
  simp only [decodeWord, opField_wordM, scField_wordM, subField_wordM, b5Field_wordM, aField_wordM, dField_wordM, h, h',
    Bool.false_eq_true, if_true, if_false]

theorem decode_fieldsH (n : BitVec 1) (a d : BitVec 5) (op : BitVec 4) (h : wordH n a d op ≠ 0#16) :
    decodeHalfWord (wordH n a d op) = decodeHalf n a d op := by
  have e1 : (wordH n a d op).extractLsb' 15 1 = n := by
    unfold wordH
    rw [extract_high _ 0#1 _ _ (by decide), extract_high _ _ _ _ (by decide), extract_high _ _ _ _ (by decide),
      extract_high _ _ _ _ (by decide)]
    exact extract_all _
  have e2 : (wordH n a d op).extractLsb' 10 5 = a := by
    unfold wordH
    rw [extract_high _ 0#1 _ _ (by decide), extract_high _ _ _ _ (by decide), extract_high _ _ _ _ (by decide),
      extract_low _ _ _ _ (by decide)]
    exact extract_all _
  have e3 : (wordH n a d op).extractLsb' 5 5 = d := by
    unfold wordH
    rw [extract_high _ 0#1 _ _ (by decide), extract_high _ _ _ _ (by decide), extract_low _ _ _ _ (by decide)]
    exact extract_all _
  have e4 : (wordH n a d op).extractLsb' 1 4 = op := by
    unfold wordH
    rw [extract_high _ 0#1 _ _ (by decide), extract_low _ _ _ _ (by decide)]
    exact extract_all _
  simp only [decodeHalfWord, if_neg h, e1, e2, e3, e4]

end Sys2Proof.Laws
end

