-- ==== Sys2Proof/Laws/Engine.lean ====
section
/-!
SUPPORT. What an engine's reads can report: where no commit holds a lock, no read meets one (R179), and where no walk stands and
no other turn is due, none waits for a walk slot (R311); and where memory is empty, an engine writes nowhere.
-/
namespace Sys2Proof.Laws
open Sys2Proof.Machine

/-- A status word that reports neither a lock nor a wait. -/
def NoStall (st : DWord) : Prop := st.getLsbD 4 = false ∧ st.getLsbD 6 = false

/-- No commit, launch or agenda stands, and a die has no walk. -/
def Quiet (s : State) (die : Nat) : Prop :=
  s.commits = [] ∧ s.agenda = [] ∧ s.launches = [] ∧ (s.die die).walks = []

theorem noStall_zero : NoStall 0 := ⟨rfl, rfl⟩

theorem noStall_errStatus (c : Cause) : NoStall (errStatus c) := by
  have h : ∀ i, i < 8 → (errStatus c).getLsbD i = (2 : Nat).testBit i := fun i hi => by
    show (BitVec.ofNat 64 (c.code * 256 + 2)).getLsbD i = _
    rw [BitVec.getLsbD_ofNat, Nat.mul_comm, show 256 = 2 ^ 8 from rfl, Nat.testBit_two_pow_mul_add _ (by norm_num), if_pos hi]
    simp; omega
  exact ⟨(h 4 (by norm_num)).trans (by decide), (h 6 (by norm_num)).trans (by decide)⟩

theorem noStall_or {a b : DWord} (ha : NoStall a) (hb : NoStall b) : NoStall (a ||| b) := by
  unfold NoStall at *; rw [BitVec.getLsbD_or, BitVec.getLsbD_or, ha.1, ha.2, hb.1, hb.2]; exact ⟨rfl, rfl⟩

theorem noStall_statusMerge {a b : DWord} (ha : NoStall a) (hb : NoStall b) : NoStall (statusMerge a b) := by
  have h : ∀ x y z i : Nat, i < 8 → (x * 2 ^ 56 + y * 2 ^ 16 + z * 2 ^ 8).testBit i = false := fun x y z i hi => by
    rw [show x * 2 ^ 56 + y * 2 ^ 16 + z * 2 ^ 8 = 2 ^ 8 * (x * 2 ^ 48 + y * 2 ^ 8 + z) by ring, Nat.testBit_two_pow_mul]
    simp; omega
  unfold NoStall at *
  simp only [statusMerge, BitVec.getLsbD_or, BitVec.getLsbD_and, BitVec.getLsbD_ofNat, h _ _ _ 4 (by norm_num),
    h _ _ _ 6 (by norm_num), ha.1, ha.2, hb.1, hb.2]
  simp

theorem noStall_outcomeStatus {o : WalkOutcome} (ho : o ≠ .waits) (va : BitVec 56) (w : Bool) :
    NoStall (outcomeStatus o va w) := by
  cases o with
  | waits => exact absurd rfl ho
  | notPresent =>
    have h : ∀ i, i < 7 → (2 ^ 56 + va.toNat / 2 ^ 16 * 2 ^ 16 + 128).testBit i = false := fun i hi => by
      rw [show 2 ^ 56 + va.toNat / 2 ^ 16 * 2 ^ 16 + 128 = 2 ^ 7 * (2 ^ 49 + va.toNat / 2 ^ 16 * 2 ^ 9 + 1) by ring,
        Nat.testBit_two_pow_mul]
      simp; omega
    unfold NoStall outcomeStatus
    simp only [BitVec.getLsbD_or, BitVec.getLsbD_ofNat, h 4 (by norm_num), h 6 (by norm_num)]
    cases w <;> exact ⟨rfl, rfl⟩
  | unmapped => exact noStall_or (by cases w <;> exact ⟨by decide, by decide⟩) ⟨by decide, by decide⟩
  | retired => exact noStall_or (noStall_errStatus _) (by cases w <;> exact ⟨by decide, by decide⟩)
  | format => exact noStall_errStatus _
  | permission => exact noStall_errStatus _
  | contention => exact noStall_errStatus _
  | frame _ _ _ => exact noStall_zero
  | peer _ _ _ _ => exact noStall_zero

/-! What a translation leaves quiet. -/

theorem quiet_setDie {s : State} {d : Nat} (h : Quiet s d) (x : Die) (hx : x.walks = []) : Quiet (s.setDie d x) d :=
  ⟨by simpa using h.1, by simpa using h.2.1, by simpa using h.2.2.1, by simpa using hx⟩

theorem quiet_mapMonitors {s : State} {d : Nat} (h : Quiet s d) (f : Nat → List Holder → List Holder) : Quiet (s.mapMonitors f) d := by
  unfold State.mapMonitors; split <;> exact h

theorem quiet_holdLines {s : State} {d : Nat} (h : Quiet s d) (x : Holder) (ks : List Nat) : Quiet (s.holdLines x ks) d :=
  quiet_mapMonitors h _

theorem quiet_noteWrites {s : State} {d : Nat} (h : Quiet s d) (w : Writer) (cs : List (Nat × Byte)) :
    Quiet (s.noteWrites w cs) d := by
  unfold State.noteWrites; dsimp only; split
  · exact quiet_holdLines (quiet_mapMonitors h _) _ _
  · exact quiet_mapMonitors h _

theorem quiet_launchWrite {s : State} {d : Nat} (h : Quiet s d) (ctx : Nat) (id : Word) (va : Option Nat)
    (cs : List (Nat × Byte)) : Quiet (s.launchWrite ctx id va cs) d := by
  have : s.launch ctx id = none := by simp [State.launch, h.2.2.1]
  simp only [State.launchWrite, this]
  exact quiet_noteWrites (by exact h) _ _

theorem quiet_sysWrite {s : State} {d : Nat} (h : Quiet s d) (u : Option UnitKey) (cs : List (Nat × Byte)) :
    Quiet (s.sysWrite u cs) d := by
  cases u with
  | none => exact quiet_noteWrites (s := { s with mem := _, poison := _, padOwner := _ }) (by exact h) _ _
  | some u => exact quiet_launchWrite h u.ctx u.launch none cs

theorem mayWalk_quiet {s : State} {d : Nat} (h : Quiet s d) (asid : Half) (va : BitVec 56) : s.mayWalk d asid va = true := by
  simp [State.mayWalk, h.2.2.2, Die.slotFree, walkSlots]; split <;> decide

theorem walkApart_quiet {s : State} {d : Nat} (h : Quiet s d) (asid : Half) (va : BitVec 56) (w : Bool) :
    s.walkApart d asid va w = false := by
  simp [State.walkApart, h.2.1]

theorem leafOutcome_ne_waits (rd : Nat) (f : Found) (va : BitVec 56) (w : Bool) : leafOutcome rd f va w ≠ .waits := by
  unfold leafOutcome; repeat' split
  all_goals simp

theorem needing_ne_waits {o : WalkOutcome} (h : o ≠ .waits) (r : Bool) : o.needing r ≠ .waits := by
  unfold WalkOutcome.needing; repeat' split
  all_goals first | exact h | simp

theorem walkFrom_ne_waits (m : Memory) (p : List Nat) (va : BitVec 56) (n at' : Nat) :
    walkFrom m p va n at' ≠ .error .waits := by
  induction n generalizing at' with
  | zero => simp only [walkFrom, walkFrom.step0]; repeat' split
            all_goals simp
  | succ n ih => simp only [walkFrom]; repeat' split
                 all_goals first | exact ih _ | simp

/-- A translation where all is quiet: it stays quiet, and waits for nothing. -/
theorem translate_quiet {s : State} {d : Nat} (h : Quiet s d) (u : Option UnitKey) (k : Asker) (asid : Half) (root : DWord)
    (va : BitVec 56) (w rd : Bool) :
    Quiet (s.translate u k d asid root va w rd).1 d ∧ (s.translate u k d asid root va w rd).2 ≠ .waits := by
  have hw : ∀ b : Nat × Nat, Quiet ((s.endWalks d asid va).cachePtrs d asid va (walkPtrs s.mem s.poison va b.1 b.2)) d := by
    intro b
    refine quiet_setDie (quiet_setDie h _ ?_) _ ?_
    · simp [h.2.2.2]
    · simp [State.endWalks, h.2.2.2]
  unfold State.translate
  dsimp only
  split
  · exact ⟨h, leafOutcome_ne_waits _ _ _ _⟩
  · split
    · refine ⟨?_, by simp⟩
      unfold State.answerContention
      split
      · exact h
      · exact quiet_setDie h _ h.2.2.2
    · rw [if_neg (by simp [mayWalk_quiet h, walkApart_quiet h])]
      split
      · rename_i o ho
        exact ⟨hw _, fun e => walkFrom_ne_waits _ _ _ _ _ (ho.trans (congrArg _ e))⟩
      · split
        · exact ⟨hw _, needing_ne_waits (leafOutcome_ne_waits _ _ _ _) _⟩
        · refine ⟨?_, leafOutcome_ne_waits _ _ _ _⟩
          have : ∀ t : State, Quiet t d → ∀ l f, Quiet (t.cacheLeaf d asid va l f) d := fun t ht l f =>
            quiet_setDie ht _ ht.2.2.2
          split
          · exact this _ (hw _) _ _
          · exact this _ (quiet_sysWrite (hw _) _ _) _ _

theorem engineByte_quiet {s : State} {e : Issuer} (h : Quiet s e.die) (space addr : Nat) (w : Bool) :
    Quiet (s.engineByte e space addr w).1 e.die ∧
    ∀ st, (s.engineByte e space addr w).2 = .miss st → NoStall st := by
  have ht := translate_quiet h (some e.agent.unit) (.command e.seq) (s.asidOf e.agent.ctx) (s.rootOf e.agent.ctx)
    (BitVec.ofNat 56 addr) w false
  unfold State.engineByte State.vaByte
  dsimp only
  split
  · split <;> refine ⟨ht.1, fun st hs => ?_⟩
    · exact EngineByte.miss.inj hs ▸ noStall_errStatus _
    · exact absurd hs (by simp)
    · exact EngineByte.miss.inj hs ▸ noStall_outcomeStatus ht.2 _ _
  · split
    · exact ⟨h, fun st hs => EngineByte.miss.inj hs ▸ noStall_errStatus _⟩
    · split
      · exact ⟨h, fun st hs => EngineByte.miss.inj hs ▸ noStall_errStatus _⟩
      · exact ⟨h, fun st hs => absurd hs (by simp)⟩
    · exact ⟨h, fun st hs => absurd hs (by simp)⟩

theorem engineRead_quiet {s : State} {e : Issuer} (h : Quiet s e.die) (space addr : Nat) :
    Quiet (s.engineRead e space addr).1 e.die ∧ NoStall (s.engineRead e space addr).2.2 := by
  have hb := engineByte_quiet h space addr false
  unfold State.engineRead
  split <;> rename_i ht <;> rw [ht] at hb
  · rw [if_neg (by simp only [State.replicaLocked]; rw [hb.1.1]; simp)]
    split
    · exact ⟨hb.1, noStall_or (noStall_errStatus _) ⟨by decide, by decide⟩⟩
    · exact ⟨hb.1, noStall_zero⟩
  · dsimp only; split
    · exact ⟨hb.1, noStall_errStatus _⟩
    · exact ⟨hb.1, noStall_zero⟩
  · exact ⟨hb.1, hb.2 _ rfl⟩

theorem engineBytes_quiet (e : Issuer) (space : Nat) (xs : List Nat) {s : State} (h : Quiet s e.die) :
    Quiet (s.engineBytes e space xs).1 e.die ∧ NoStall (s.engineBytes e space xs).2.2 := by
  induction xs generalizing s with
  | nil => exact ⟨h, noStall_zero⟩
  | cons a r ih =>
    have h1 := engineRead_quiet h space a
    have h2 := ih h1.1
    exact ⟨h2.1, noStall_statusMerge h1.2 h2.2⟩

theorem updWords_quiet {s : State} {e : Issuer} (h : Quiet s e.die) (va n : Nat) :
    Quiet (s.updWords e va n).1 e.die ∧ NoStall (s.updWords e va n).2.2 := engineBytes_quiet _ _ _ h

theorem updDest_quiet {s : State} {e : Issuer} (h : Quiet s e.die) (va : Nat) :
    Quiet (s.updDest e va).1 e.die ∧ NoStall (s.updDest e va).2.2 := by
  have ht := translate_quiet h (some e.agent.unit) (.command e.seq) (s.asidOf e.agent.ctx) (s.rootOf e.agent.ctx)
    (BitVec.ofNat 56 va) true false
  unfold State.updDest State.vaByte
  dsimp only
  split
  · exact ⟨ht.1, noStall_errStatus _⟩
  · split
    · exact ⟨ht.1, noStall_errStatus _⟩
    · exact ⟨ht.1, noStall_zero⟩
  · exact ⟨ht.1, noStall_zero⟩
  · exact ⟨ht.1, noStall_outcomeStatus ht.2 _ _⟩

theorem updCells_quiet (e : Issuer) (xs : List (Nat × Byte)) {s : State} (h : Quiet s e.die) :
    NoStall (s.updCells e xs).2.2 := by
  induction xs generalizing s with
  | nil => exact noStall_zero
  | cons x r ih => exact noStall_statusMerge (updDest_quiet h _).2 (ih (updDest_quiet h _).1)

theorem updWrite_quiet {s : State} {e : Issuer} (h : Quiet s e.die) (xs : List (Nat × Byte)) :
    NoStall (s.updWrite e xs).2.2 := updCells_quiet e xs h

/-- The commit of a tile where all is quiet. -/
theorem commitTile_noStall {s : State} {e : Issuer} (h : Quiet s e.die) (c : UpdCmd) (i : Nat) :
    NoStall (s.commitTile e c i).2.2 := by
  unfold State.commitTile
  have h1 := updWords_quiet h (mdGacc (s.model c.unit.ctx (ubModel c.block)) + 65536 * i) 16384
  have h2 := updWords_quiet h1.1 (mdOstate (s.model c.unit.ctx (ubModel c.block)) + 131072 * i) 16384
  have h3 := updWords_quiet h2.1 (mdOstate (s.model c.unit.ctx (ubModel c.block)) + 131072 * i + 65536) 16384
  have h4 := updWords_quiet h3.1 (mdMaster (s.model c.unit.ctx (ubModel c.block)) + 65536 * i) 16384
  exact noStall_statusMerge h1.2 (noStall_statusMerge h2.2 (noStall_statusMerge h3.2
    (noStall_statusMerge h4.2 (updWrite_quiet h4.1 _))))

/-- The delivery of a tile where all is quiet. -/
theorem deliverTile_noStall {s : State} {ctx : Nat} {r : RedeemRun} (h : Quiet s (r.issuer ctx).die) (i : Nat) :
    NoStall (s.deliverTile ctx r i).2.2 := by
  unfold State.deliverTile
  have h1 := updWords_quiet h (mdGacc (s.model ctx r.model) + 65536 * i) 16384
  have h2 := updWords_quiet h1.1 (r.bufferVa (mdTiles (s.model ctx r.model)) + 65536 * i) 16384
  have h3 := updWords_quiet h2.1 (mdGflags (s.model ctx r.model) + 16 * i + 4) 1
  exact noStall_statusMerge h1.2 (noStall_statusMerge h2.2 (noStall_statusMerge h3.2 (updWrite_quiet h3.1 _)))

/-! Where memory is empty no VA is mapped, so that an engine writes nowhere. -/

/-- A quiet state with no memory, whose die has nothing of a page in its TLB. -/
def Bare (s : State) (die : Nat) : Prop :=
  Quiet s die ∧ s.mem = [] ∧ s.poison = [] ∧ (s.die die).tlb = [] ∧ (s.die die).contended = []

theorem readEntry_bare (at' : Nat) : readEntry [] at' = 0 := rfl

theorem walkFrom_bare (va : BitVec 56) (at' : Nat) : walkFrom [] [] va 3 at' = .error .unmapped := by
  simp [walkFrom, readEntry_bare]

theorem walkPtrs_bare (va : BitVec 56) (n at' : Nat) : walkPtrs [] [] va n at' = [] := by
  cases n <;> simp [walkPtrs, readEntry_bare]

theorem peek_bare {s : State} {d : Nat} (h : Bare s d) (root : DWord) (va : BitVec 56) (w : Bool) :
    s.peek d root va w = .unmapped := by
  simp [State.peek, h.2.1, h.2.2.1, walkFrom_bare]

theorem translate_bare {s : State} {d : Nat} (h : Bare s d) (u : Option UnitKey) (k : Asker) (asid : Half) (root : DWord)
    (va : BitVec 56) (w rd : Bool) :
    Bare (s.translate u k d asid root va w rd).1 d ∧ (s.translate u k d asid root va w rd).2 = .unmapped := by
  obtain ⟨hq, hm, hp, ht, hc⟩ := h
  have hs : walkStart [] asid va root = (3, root.toNat) := rfl
  unfold State.translate
  have hcf : s.contendedFor d k asid va = false := by simp [State.contendedFor, hc]
  simp only [ht, hcf, hm, hp, hs, walkFrom_bare, walkPtrs_bare, tlbFind, mayWalk_quiet hq, walkApart_quiet hq,
    List.find?_nil, Bool.false_eq_true, if_false, Bool.not_true, Bool.or_self, and_true]
  refine ⟨quiet_setDie (quiet_setDie hq _ ?_) _ ?_, ?_⟩
  · simp [hq.2.2.2]
  · simp [State.endWalks, hq.2.2.2]
  · simp [State.cachePtrs, State.endWalks, hm, hp, ht, hc]

theorem engineRead_bare {s : State} {e : Issuer} (h : Bare s e.die) (addr : Nat) : Bare (s.engineRead e 1 addr).1 e.die := by
  have ht := translate_bare h (some e.agent.unit) (.command e.seq) (s.asidOf e.agent.ctx) (s.rootOf e.agent.ctx)
    (BitVec.ofNat 56 addr) false false
  simp only [State.engineRead, State.engineByte, State.vaByte, if_true, ht.2, State.peerFault, WalkOutcome.place]
  exact ht.1

theorem engineBytes_bare (e : Issuer) (xs : List Nat) {s : State} (h : Bare s e.die) :
    Bare (s.engineBytes e 1 xs).1 e.die := by
  induction xs generalizing s with
  | nil => exact h
  | cons a r ih => exact ih (engineRead_bare h a)

theorem updWords_bare {s : State} {e : Issuer} (h : Bare s e.die) (va n : Nat) : Bare (s.updWords e va n).1 e.die :=
  engineBytes_bare _ _ h

theorem updCells_bare (e : Issuer) (xs : List (Nat × Byte)) {s : State} (h : Bare s e.die) : (s.updCells e xs).2.1 = [] := by
  induction xs generalizing s with
  | nil => rfl
  | cons x r ih =>
    have ht := translate_bare h (some e.agent.unit) (.command e.seq) (s.asidOf e.agent.ctx) (s.rootOf e.agent.ctx)
      (BitVec.ofNat 56 x.1) true false
    simp only [State.updCells, State.updDest, State.vaByte, ht.2, State.peerFault]
    simpa using ih ht.1

theorem peerKeysOf_bare {s : State} {e : Issuer} (h : Bare s e.die) (space : Nat) (as : List Nat) : s.peerKeysOf e space as = [] := by
  have ht := fun a => (translate_bare h (some e.agent.unit) (.command e.seq) (s.asidOf e.agent.ctx) (s.rootOf e.agent.ctx)
    (BitVec.ofNat 56 a) false false).2
  simp [State.peerKeysOf, State.vaByte, ht]

theorem updPeers_bare {s : State} {e : Issuer} (h : Bare s e.die) (vas : List Nat) : s.updPeers e vas = [] := by
  simp [State.updPeers, peerKeysOf_bare h]

theorem updWrite_bare {s : State} {e : Issuer} (h : Bare s e.die) (xs : List (Nat × Byte)) : (s.updWrite e xs).2.1 = [] := by
  simp [State.updWrite, updCells_bare e xs h]

theorem dropShard_bare {s : State} {e : Issuer} (h : Bare s e.die) (c : UpdCmd) : (s.dropShard e c).2.1 = [] := updWrite_bare h _

theorem dropShard_noStall {s : State} {e : Issuer} (h : Quiet s e.die) (c : UpdCmd) : NoStall (s.dropShard e c).2.2 :=
  updWrite_quiet h _


theorem pair_fst {α β : Type} (a : α) (b : β) : (a, b).1 = a := rfl
theorem pair_snd {α β : Type} (a : α) (b : β) : (a, b).2 = b := rfl

theorem commitTile_bare {s : State} {e : Issuer} (h : Bare s e.die) (c : UpdCmd) (i : Nat) : (s.commitTile e c i).2.1 = [] := by
  rw [State.commitTile]
  have h1 := updWords_bare h (mdGacc (s.model c.unit.ctx (ubModel c.block)) + 65536 * i) 16384
  have h2 := updWords_bare h1 (mdOstate (s.model c.unit.ctx (ubModel c.block)) + 131072 * i) 16384
  have h3 := updWords_bare h2 (mdOstate (s.model c.unit.ctx (ubModel c.block)) + 131072 * i + 65536) 16384
  have h4 := updWords_bare h3 (mdMaster (s.model c.unit.ctx (ubModel c.block)) + 65536 * i) 16384
  rw [pair_snd, pair_fst]
  rw [updWrite_bare h4]

theorem deliverTile_bare {s : State} {ctx : Nat} {r : RedeemRun} (h : Bare s (r.issuer ctx).die) (i : Nat) :
    (s.deliverTile ctx r i).2.1 = [] := by
  rw [State.deliverTile]
  have h1 := updWords_bare h (mdGacc (s.model ctx r.model) + 65536 * i) 16384
  have h2 := updWords_bare h1 (r.bufferVa (mdTiles (s.model ctx r.model)) + 65536 * i) 16384
  have h3 := updWords_bare h2 (mdGflags (s.model ctx r.model) + 16 * i + 4) 1
  rw [pair_snd, pair_fst]
  rw [updWrite_bare h3]

end Sys2Proof.Laws
end

