-- ==== Sys2Proof/Laws/Exec.lean ====
section
/-!
SUPPORT. The meaning of each instruction: one equation for each arm of the dispatch.
-/
namespace Sys2Proof.Laws
open Sys2Proof.Machine

theorem exec_iadd (n : BitVec 1) (b : BitVec 7) (a : BitVec 7) (d : BitVec 7) (s : State) : exec (.iadd n b a d) s = execIadd n b a d s := rfl
theorem exec_isub (n : BitVec 1) (b : BitVec 7) (a : BitVec 7) (d : BitVec 7) (s : State) : exec (.isub n b a d) s = execIsub n b a d s := rfl
theorem exec_iadds (n : BitVec 1) (b : BitVec 7) (a : BitVec 7) (d : BitVec 7) (s : State) : exec (.iadds n b a d) s = execIadds n b a d s := rfl
theorem exec_isubs (n : BitVec 1) (b : BitVec 7) (a : BitVec 7) (d : BitVec 7) (s : State) : exec (.isubs n b a d) s = execIsubs n b a d s := rfl
theorem exec_imul (n : BitVec 1) (b : BitVec 7) (a : BitVec 7) (d : BitVec 7) (s : State) : exec (.imul n b a d) s = execImul n b a d s := rfl
theorem exec_imulhi (n : BitVec 1) (b : BitVec 7) (a : BitVec 7) (d : BitVec 7) (s : State) : exec (.imulhi n b a d) s = execImulhi n b a d s := rfl
theorem exec_imulhiu (n : BitVec 1) (b : BitVec 7) (a : BitVec 7) (d : BitVec 7) (s : State) : exec (.imulhiu n b a d) s = execImulhiu n b a d s := rfl
theorem exec_imad (b : BitVec 7) (a : BitVec 7) (d : BitVec 7) (s : State) : exec (.imad b a d) s = execImad b a d s := rfl
theorem exec_imin (n : BitVec 1) (b : BitVec 7) (a : BitVec 7) (d : BitVec 7) (s : State) : exec (.imin n b a d) s = execImin n b a d s := rfl
theorem exec_imax (n : BitVec 1) (b : BitVec 7) (a : BitVec 7) (d : BitVec 7) (s : State) : exec (.imax n b a d) s = execImax n b a d s := rfl
theorem exec_umin (n : BitVec 1) (b : BitVec 7) (a : BitVec 7) (d : BitVec 7) (s : State) : exec (.umin n b a d) s = execUmin n b a d s := rfl
theorem exec_umax (n : BitVec 1) (b : BitVec 7) (a : BitVec 7) (d : BitVec 7) (s : State) : exec (.umax n b a d) s = execUmax n b a d s := rfl
theorem exec_and (n : BitVec 1) (b : BitVec 7) (a : BitVec 7) (d : BitVec 7) (s : State) : exec (.and n b a d) s = execAnd n b a d s := rfl
theorem exec_or (n : BitVec 1) (b : BitVec 7) (a : BitVec 7) (d : BitVec 7) (s : State) : exec (.or n b a d) s = execOr n b a d s := rfl
theorem exec_xor (n : BitVec 1) (b : BitVec 7) (a : BitVec 7) (d : BitVec 7) (s : State) : exec (.xor n b a d) s = execXor n b a d s := rfl
theorem exec_andn (n : BitVec 1) (b : BitVec 7) (a : BitVec 7) (d : BitVec 7) (s : State) : exec (.andn n b a d) s = execAndn n b a d s := rfl
theorem exec_shl (n : BitVec 1) (b : BitVec 7) (a : BitVec 7) (d : BitVec 7) (s : State) : exec (.shl n b a d) s = execShl n b a d s := rfl
theorem exec_shr (n : BitVec 1) (b : BitVec 7) (a : BitVec 7) (d : BitVec 7) (s : State) : exec (.shr n b a d) s = execShr n b a d s := rfl
theorem exec_sra (n : BitVec 1) (b : BitVec 7) (a : BitVec 7) (d : BitVec 7) (s : State) : exec (.sra n b a d) s = execSra n b a d s := rfl
theorem exec_rotl (n : BitVec 1) (b : BitVec 7) (a : BitVec 7) (d : BitVec 7) (s : State) : exec (.rotl n b a d) s = execRotl n b a d s := rfl
theorem exec_popc (n : BitVec 1) (a : BitVec 7) (d : BitVec 7) (s : State) : exec (.popc n a d) s = execPopc n a d s := rfl
theorem exec_clz (n : BitVec 1) (a : BitVec 7) (d : BitVec 7) (s : State) : exec (.clz n a d) s = execClz n a d s := rfl
theorem exec_brev (n : BitVec 1) (a : BitVec 7) (d : BitVec 7) (s : State) : exec (.brev n a d) s = execBrev n a d s := rfl
theorem exec_bfx (n : BitVec 1) (b : BitVec 7) (a : BitVec 7) (d : BitVec 7) (s : State) : exec (.bfx n b a d) s = execBfx n b a d s := rfl
theorem exec_bfi (n : BitVec 1) (b : BitVec 7) (a : BitVec 7) (d : BitVec 7) (s : State) : exec (.bfi n b a d) s = execBfi n b a d s := rfl
theorem exec_iabs (n : BitVec 1) (a : BitVec 7) (d : BitVec 7) (s : State) : exec (.iabs n a d) s = execIabs n a d s := rfl
theorem exec_udiv (n : BitVec 1) (b : BitVec 7) (a : BitVec 7) (d : BitVec 7) (s : State) : exec (.udiv n b a d) s = execUdiv n b a d s := rfl
theorem exec_urem (n : BitVec 1) (b : BitVec 7) (a : BitVec 7) (d : BitVec 7) (s : State) : exec (.urem n b a d) s = execUrem n b a d s := rfl
theorem exec_lea (n : BitVec 1) (b : BitVec 7) (a : BitVec 7) (d : BitVec 7) (s : State) : exec (.lea n b a d) s = execLea n b a d s := rfl
theorem exec_lea2 (n : BitVec 1) (b : BitVec 7) (a : BitVec 7) (d : BitVec 7) (s : State) : exec (.lea2 n b a d) s = execLea2 n b a d s := rfl
theorem exec_lea4 (n : BitVec 1) (b : BitVec 7) (a : BitVec 7) (d : BitVec 7) (s : State) : exec (.lea4 n b a d) s = execLea4 n b a d s := rfl
theorem exec_lea8 (n : BitVec 1) (b : BitVec 7) (a : BitVec 7) (d : BitVec 7) (s : State) : exec (.lea8 n b a d) s = execLea8 n b a d s := rfl
theorem exec_fadd (n : BitVec 1) (b : BitVec 7) (a : BitVec 7) (d : BitVec 7) (s : State) : exec (.fadd n b a d) s = execFadd n b a d s := rfl
theorem exec_fsub (n : BitVec 1) (b : BitVec 7) (a : BitVec 7) (d : BitVec 7) (s : State) : exec (.fsub n b a d) s = execFsub n b a d s := rfl
theorem exec_fmul (n : BitVec 1) (b : BitVec 7) (a : BitVec 7) (d : BitVec 7) (s : State) : exec (.fmul n b a d) s = execFmul n b a d s := rfl
theorem exec_fma (b : BitVec 7) (a : BitVec 7) (d : BitVec 7) (s : State) : exec (.fma b a d) s = execFma b a d s := rfl
theorem exec_fmin (n : BitVec 1) (b : BitVec 7) (a : BitVec 7) (d : BitVec 7) (s : State) : exec (.fmin n b a d) s = execFmin n b a d s := rfl
theorem exec_fmax (n : BitVec 1) (b : BitVec 7) (a : BitVec 7) (d : BitVec 7) (s : State) : exec (.fmax n b a d) s = execFmax n b a d s := rfl
theorem exec_fabs (n : BitVec 1) (a : BitVec 7) (d : BitVec 7) (s : State) : exec (.fabs n a d) s = execFabs n a d s := rfl
theorem exec_fneg (n : BitVec 1) (a : BitVec 7) (d : BitVec 7) (s : State) : exec (.fneg n a d) s = execFneg n a d s := rfl
theorem exec_frcp (n : BitVec 1) (a : BitVec 7) (d : BitVec 7) (s : State) : exec (.frcp n a d) s = execFrcp n a d s := rfl
theorem exec_frsq (n : BitVec 1) (a : BitVec 7) (d : BitVec 7) (s : State) : exec (.frsq n a d) s = execFrsq n a d s := rfl
theorem exec_fex2 (n : BitVec 1) (a : BitVec 7) (d : BitVec 7) (s : State) : exec (.fex2 n a d) s = execFex2 n a d s := rfl
theorem exec_flg2 (n : BitVec 1) (a : BitVec 7) (d : BitVec 7) (s : State) : exec (.flg2 n a d) s = execFlg2 n a d s := rfl
theorem exec_faddBf2 (n : BitVec 1) (b : BitVec 7) (a : BitVec 7) (d : BitVec 7) (s : State) : exec (.faddBf2 n b a d) s = execFaddBf2 n b a d s := rfl
theorem exec_fmulBf2 (n : BitVec 1) (b : BitVec 7) (a : BitVec 7) (d : BitVec 7) (s : State) : exec (.fmulBf2 n b a d) s = execFmulBf2 n b a d s := rfl
theorem exec_fmaBf2 (b : BitVec 7) (a : BitVec 7) (d : BitVec 7) (s : State) : exec (.fmaBf2 b a d) s = execFmaBf2 b a d s := rfl
theorem exec_fmaxBf2 (n : BitVec 1) (b : BitVec 7) (a : BitVec 7) (d : BitVec 7) (s : State) : exec (.fmaxBf2 n b a d) s = execFmaxBf2 n b a d s := rfl
theorem exec_faddHf2 (n : BitVec 1) (b : BitVec 7) (a : BitVec 7) (d : BitVec 7) (s : State) : exec (.faddHf2 n b a d) s = execFaddHf2 n b a d s := rfl
theorem exec_fmulHf2 (n : BitVec 1) (b : BitVec 7) (a : BitVec 7) (d : BitVec 7) (s : State) : exec (.fmulHf2 n b a d) s = execFmulHf2 n b a d s := rfl
theorem exec_fmaHf2 (b : BitVec 7) (a : BitVec 7) (d : BitVec 7) (s : State) : exec (.fmaHf2 b a d) s = execFmaHf2 b a d s := rfl
theorem exec_fmaxHf2 (n : BitVec 1) (b : BitVec 7) (a : BitVec 7) (d : BitVec 7) (s : State) : exec (.fmaxHf2 n b a d) s = execFmaxHf2 n b a d s := rfl
theorem exec_fdot2Bf (b : BitVec 7) (a : BitVec 7) (d : BitVec 7) (s : State) : exec (.fdot2Bf b a d) s = execFdot2Bf b a d s := rfl
theorem exec_fdot4E4 (b : BitVec 7) (a : BitVec 7) (d : BitVec 7) (s : State) : exec (.fdot4E4 b a d) s = execFdot4E4 b a d s := rfl
theorem exec_fdot4E5 (b : BitVec 7) (a : BitVec 7) (d : BitVec 7) (s : State) : exec (.fdot4E5 b a d) s = execFdot4E5 b a d s := rfl
theorem exec_fdot8E2m1 (b : BitVec 7) (a : BitVec 7) (d : BitVec 7) (s : State) : exec (.fdot8E2m1 b a d) s = execFdot8E2m1 b a d s := rfl
theorem exec_raddF (n : BitVec 1) (a : BitVec 7) (d : BitVec 7) (s : State) : exec (.raddF n a d) s = execRaddF n a d s := rfl
theorem exec_rmaxF (n : BitVec 1) (a : BitVec 7) (d : BitVec 7) (s : State) : exec (.rmaxF n a d) s = execRmaxF n a d s := rfl
theorem exec_raddI (n : BitVec 1) (a : BitVec 7) (d : BitVec 7) (s : State) : exec (.raddI n a d) s = execRaddI n a d s := rfl
theorem exec_rmaxI (n : BitVec 1) (a : BitVec 7) (d : BitVec 7) (s : State) : exec (.rmaxI n a d) s = execRmaxI n a d s := rfl
theorem exec_fscale (n : BitVec 1) (b : BitVec 7) (a : BitVec 7) (d : BitVec 7) (s : State) : exec (.fscale n b a d) s = execFscale n b a d s := rfl
theorem exec_ffloor (n : BitVec 1) (a : BitVec 7) (d : BitVec 7) (s : State) : exec (.ffloor n a d) s = execFfloor n a d s := rfl
theorem exec_frint (n : BitVec 1) (a : BitVec 7) (d : BitVec 7) (s : State) : exec (.frint n a d) s = execFrint n a d s := rfl
theorem exec_i2f (n : BitVec 1) (a : BitVec 7) (d : BitVec 7) (s : State) : exec (.i2f n a d) s = execI2f n a d s := rfl
theorem exec_u2f (n : BitVec 1) (a : BitVec 7) (d : BitVec 7) (s : State) : exec (.u2f n a d) s = execU2f n a d s := rfl
theorem exec_f2i (n : BitVec 1) (a : BitVec 7) (d : BitVec 7) (s : State) : exec (.f2i n a d) s = execF2i n a d s := rfl
theorem exec_f2u (n : BitVec 1) (a : BitVec 7) (d : BitVec 7) (s : State) : exec (.f2u n a d) s = execF2u n a d s := rfl
theorem exec_cvtBf2 (n : BitVec 1) (b : BitVec 7) (a : BitVec 7) (d : BitVec 7) (s : State) : exec (.cvtBf2 n b a d) s = execCvtBf2 n b a d s := rfl
theorem exec_cvtHf2 (n : BitVec 1) (b : BitVec 7) (a : BitVec 7) (d : BitVec 7) (s : State) : exec (.cvtHf2 n b a d) s = execCvtHf2 n b a d s := rfl
theorem exec_cvtE4 (b : BitVec 7) (a : BitVec 7) (d : BitVec 7) (s : State) : exec (.cvtE4 b a d) s = execCvtE4 b a d s := rfl
theorem exec_cvtE5 (b : BitVec 7) (a : BitVec 7) (d : BitVec 7) (s : State) : exec (.cvtE5 b a d) s = execCvtE5 b a d s := rfl
theorem exec_cvtsrE4 (b : BitVec 7) (a : BitVec 7) (d : BitVec 7) (s : State) : exec (.cvtsrE4 b a d) s = execCvtsrE4 b a d s := rfl
theorem exec_cvtsrE5 (b : BitVec 7) (a : BitVec 7) (d : BitVec 7) (s : State) : exec (.cvtsrE5 b a d) s = execCvtsrE5 b a d s := rfl
theorem exec_cvtsrE3m2 (b : BitVec 7) (a : BitVec 7) (d : BitVec 7) (s : State) : exec (.cvtsrE3m2 b a d) s = execCvtsrE3m2 b a d s := rfl
theorem exec_cvtsrE2m1 (b : BitVec 7) (a : BitVec 7) (d : BitVec 7) (s : State) : exec (.cvtsrE2m1 b a d) s = execCvtsrE2m1 b a d s := rfl
theorem exec_cvtE3m2 (a : BitVec 7) (d : BitVec 7) (s : State) : exec (.cvtE3m2 a d) s = execCvtE3m2 a d s := rfl
theorem exec_cvtE2m3 (a : BitVec 7) (d : BitVec 7) (s : State) : exec (.cvtE2m3 a d) s = execCvtE2m3 a d s := rfl
theorem exec_cvtE2m1 (a : BitVec 7) (d : BitVec 7) (s : State) : exec (.cvtE2m1 a d) s = execCvtE2m1 a d s := rfl
theorem exec_cvtsrBf (b : BitVec 7) (a : BitVec 7) (d : BitVec 7) (s : State) : exec (.cvtsrBf b a d) s = execCvtsrBf b a d s := rfl
theorem exec_unpBf (n : BitVec 1) (b : BitVec 7) (a : BitVec 7) (d : BitVec 7) (s : State) : exec (.unpBf n b a d) s = execUnpBf n b a d s := rfl
theorem exec_unpHf (n : BitVec 1) (b : BitVec 7) (a : BitVec 7) (d : BitVec 7) (s : State) : exec (.unpHf n b a d) s = execUnpHf n b a d s := rfl
theorem exec_unpE4 (n : BitVec 1) (b : BitVec 7) (a : BitVec 7) (d : BitVec 7) (s : State) : exec (.unpE4 n b a d) s = execUnpE4 n b a d s := rfl
theorem exec_unpE5 (n : BitVec 1) (b : BitVec 7) (a : BitVec 7) (d : BitVec 7) (s : State) : exec (.unpE5 n b a d) s = execUnpE5 n b a d s := rfl
theorem exec_unpE3m2 (n : BitVec 1) (b : BitVec 7) (a : BitVec 7) (d : BitVec 7) (s : State) : exec (.unpE3m2 n b a d) s = execUnpE3m2 n b a d s := rfl
theorem exec_unpE2m3 (n : BitVec 1) (b : BitVec 7) (a : BitVec 7) (d : BitVec 7) (s : State) : exec (.unpE2m3 n b a d) s = execUnpE2m3 n b a d s := rfl
theorem exec_unpE2m1 (n : BitVec 1) (b : BitVec 7) (a : BitVec 7) (d : BitVec 7) (s : State) : exec (.unpE2m1 n b a d) s = execUnpE2m1 n b a d s := rfl
theorem exec_cvtsrE2m3 (b : BitVec 7) (a : BitVec 7) (d : BitVec 7) (s : State) : exec (.cvtsrE2m3 b a d) s = execCvtsrE2m3 b a d s := rfl
theorem exec_icmpeq (n : BitVec 1) (b : BitVec 7) (a : BitVec 7) (d : BitVec 7) (s : State) : exec (.icmpeq n b a d) s = execIcmpeq n b a d s := rfl
theorem exec_icmplt (n : BitVec 1) (b : BitVec 7) (a : BitVec 7) (d : BitVec 7) (s : State) : exec (.icmplt n b a d) s = execIcmplt n b a d s := rfl
theorem exec_icmpltu (n : BitVec 1) (b : BitVec 7) (a : BitVec 7) (d : BitVec 7) (s : State) : exec (.icmpltu n b a d) s = execIcmpltu n b a d s := rfl
theorem exec_icmple (n : BitVec 1) (b : BitVec 7) (a : BitVec 7) (d : BitVec 7) (s : State) : exec (.icmple n b a d) s = execIcmple n b a d s := rfl
theorem exec_fcmpeq (n : BitVec 1) (b : BitVec 7) (a : BitVec 7) (d : BitVec 7) (s : State) : exec (.fcmpeq n b a d) s = execFcmpeq n b a d s := rfl
theorem exec_fcmplt (n : BitVec 1) (b : BitVec 7) (a : BitVec 7) (d : BitVec 7) (s : State) : exec (.fcmplt n b a d) s = execFcmplt n b a d s := rfl
theorem exec_fcmple (n : BitVec 1) (b : BitVec 7) (a : BitVec 7) (d : BitVec 7) (s : State) : exec (.fcmple n b a d) s = execFcmple n b a d s := rfl
theorem exec_fcmpun (n : BitVec 1) (b : BitVec 7) (a : BitVec 7) (d : BitVec 7) (s : State) : exec (.fcmpun n b a d) s = execFcmpun n b a d s := rfl
theorem exec_sel (b : BitVec 7) (a : BitVec 7) (d : BitVec 7) (s : State) : exec (.sel b a d) s = execSel b a d s := rfl
theorem exec_ballot (n : BitVec 1) (a : BitVec 7) (d : BitVec 7) (s : State) : exec (.ballot n a d) s = execBallot n a d s := rfl
theorem exec_matchLanes (n : BitVec 1) (a : BitVec 7) (d : BitVec 7) (s : State) : exec (.matchLanes n a d) s = execMatchLanes n a d s := rfl
theorem exec_laneid (n : BitVec 1) (d : BitVec 7) (s : State) : exec (.laneid n d) s = execLaneid n d s := rfl
theorem exec_shfl (n : BitVec 1) (b : BitVec 7) (a : BitVec 7) (d : BitVec 7) (s : State) : exec (.shfl n b a d) s = execShfl n b a d s := rfl
theorem exec_shflup (n : BitVec 1) (b : BitVec 7) (a : BitVec 7) (d : BitVec 7) (s : State) : exec (.shflup n b a d) s = execShflup n b a d s := rfl
theorem exec_shfldn (n : BitVec 1) (b : BitVec 7) (a : BitVec 7) (d : BitVec 7) (s : State) : exec (.shfldn n b a d) s = execShfldn n b a d s := rfl
theorem exec_shflx (n : BitVec 1) (b : BitVec 7) (a : BitVec 7) (d : BitVec 7) (s : State) : exec (.shflx n b a d) s = execShflx n b a d s := rfl
theorem exec_rng4 (n : BitVec 1) (b : BitVec 7) (a : BitVec 7) (d : BitVec 7) (s : State) : exec (.rng4 n b a d) s = execRng4 n b a d s := rfl
theorem exec_rngu (n : BitVec 1) (b : BitVec 7) (a : BitVec 7) (d : BitVec 7) (s : State) : exec (.rngu n b a d) s = execRngu n b a d s := rfl
theorem exec_rngb (n : BitVec 1) (b : BitVec 7) (a : BitVec 7) (d : BitVec 7) (s : State) : exec (.rngb n b a d) s = execRngb n b a d s := rfl
theorem exec_mov (n : BitVec 1) (a : BitVec 7) (d : BitVec 7) (s : State) : exec (.mov n a d) s = execMov n a d s := rfl
theorem exec_movg (n : BitVec 1) (a : BitVec 7) (d : BitVec 7) (s : State) : exec (.movg n a d) s = execMovg n a d s := rfl
theorem exec_movvg (a : BitVec 7) (d : BitVec 7) (s : State) : exec (.movvg a d) s = execMovvg a d s := rfl
theorem exec_movvgl (l : BitVec 5) (a : BitVec 7) (d : BitVec 7) (s : State) : exec (.movvgl l a d) s = execMovvgl l a d s := rfl
theorem exec_iaddi (im : BitVec 10) (a : BitVec 7) (d : BitVec 7) (s : State) : exec (.iaddi im a d) s = execIaddi im a d s := rfl
theorem exec_andi (im : BitVec 10) (a : BitVec 7) (d : BitVec 7) (s : State) : exec (.andi im a d) s = execAndi im a d s := rfl
theorem exec_ori (im : BitVec 10) (a : BitVec 7) (d : BitVec 7) (s : State) : exec (.ori im a d) s = execOri im a d s := rfl
theorem exec_xori (im : BitVec 10) (a : BitVec 7) (d : BitVec 7) (s : State) : exec (.xori im a d) s = execXori im a d s := rfl
theorem exec_shli (im : BitVec 5) (a : BitVec 7) (d : BitVec 7) (s : State) : exec (.shli im a d) s = execShli im a d s := rfl
theorem exec_shri (im : BitVec 5) (a : BitVec 7) (d : BitVec 7) (s : State) : exec (.shri im a d) s = execShri im a d s := rfl
theorem exec_srai (im : BitVec 5) (a : BitVec 7) (d : BitVec 7) (s : State) : exec (.srai im a d) s = execSrai im a d s := rfl
theorem exec_icmplti (im : BitVec 10) (a : BitVec 7) (d : BitVec 7) (s : State) : exec (.icmplti im a d) s = execIcmplti im a d s := rfl
theorem exec_icmpeqi (im : BitVec 10) (a : BitVec 7) (d : BitVec 7) (s : State) : exec (.icmpeqi im a d) s = execIcmpeqi im a d s := rfl
theorem exec_imuli (im : BitVec 10) (a : BitVec 7) (d : BitVec 7) (s : State) : exec (.imuli im a d) s = execImuli im a d s := rfl
theorem exec_movi (im : BitVec 17) (d : BitVec 7) (s : State) : exec (.movi im d) s = execMovi im d s := rfl
theorem exec_movh (im : BitVec 16) (d : BitVec 7) (s : State) : exec (.movh im d) s = execMovh im d s := rfl
theorem exec_srd (im : BitVec 10) (d : BitVec 7) (s : State) : exec (.srd im d) s = execSrd im d s := rfl
theorem exec_iadd16 (n : BitVec 1) (a : BitVec 5) (d : BitVec 5) (s : State) : exec (.iadd16 n a d) s = execIadd16 n a d s := rfl
theorem exec_isub16 (n : BitVec 1) (a : BitVec 5) (d : BitVec 5) (s : State) : exec (.isub16 n a d) s = execIsub16 n a d s := rfl
theorem exec_imul16 (n : BitVec 1) (a : BitVec 5) (d : BitVec 5) (s : State) : exec (.imul16 n a d) s = execImul16 n a d s := rfl
theorem exec_and16 (n : BitVec 1) (a : BitVec 5) (d : BitVec 5) (s : State) : exec (.and16 n a d) s = execAnd16 n a d s := rfl
theorem exec_or16 (n : BitVec 1) (a : BitVec 5) (d : BitVec 5) (s : State) : exec (.or16 n a d) s = execOr16 n a d s := rfl
theorem exec_xor16 (n : BitVec 1) (a : BitVec 5) (d : BitVec 5) (s : State) : exec (.xor16 n a d) s = execXor16 n a d s := rfl
theorem exec_shli16 (n : BitVec 1) (im : BitVec 5) (d : BitVec 5) (s : State) : exec (.shli16 n im d) s = execShli16 n im d s := rfl
theorem exec_shri16 (n : BitVec 1) (im : BitVec 5) (d : BitVec 5) (s : State) : exec (.shri16 n im d) s = execShri16 n im d s := rfl
theorem exec_mov16 (n : BitVec 1) (a : BitVec 5) (d : BitVec 5) (s : State) : exec (.mov16 n a d) s = execMov16 n a d s := rfl
theorem exec_movi5 (n : BitVec 1) (im : BitVec 5) (d : BitVec 5) (s : State) : exec (.movi5 n im d) s = execMovi5 n im d s := rfl
theorem exec_fadd16 (n : BitVec 1) (a : BitVec 5) (d : BitVec 5) (s : State) : exec (.fadd16 n a d) s = execFadd16 n a d s := rfl
theorem exec_fsub16 (n : BitVec 1) (a : BitVec 5) (d : BitVec 5) (s : State) : exec (.fsub16 n a d) s = execFsub16 n a d s := rfl
theorem exec_fmul16 (n : BitVec 1) (a : BitVec 5) (d : BitVec 5) (s : State) : exec (.fmul16 n a d) s = execFmul16 n a d s := rfl
theorem exec_fmax16 (n : BitVec 1) (a : BitVec 5) (d : BitVec 5) (s : State) : exec (.fmax16 n a d) s = execFmax16 n a d s := rfl
theorem exec_icmplt16 (n : BitVec 1) (a : BitVec 5) (d : BitVec 5) (s : State) : exec (.icmplt16 n a d) s = execIcmplt16 n a d s := rfl
theorem exec_nop (s : State) : exec (.nop) s = execNop s := rfl
theorem exec_gadd (b : BitVec 7) (a : BitVec 7) (d : BitVec 7) (s : State) : exec (.gadd b a d) s = execGadd b a d s := rfl
theorem exec_gsub (b : BitVec 7) (a : BitVec 7) (d : BitVec 7) (s : State) : exec (.gsub b a d) s = execGsub b a d s := rfl
theorem exec_gmul (b : BitVec 7) (a : BitVec 7) (d : BitVec 7) (s : State) : exec (.gmul b a d) s = execGmul b a d s := rfl
theorem exec_gmad (b : BitVec 7) (a : BitVec 7) (d : BitVec 7) (s : State) : exec (.gmad b a d) s = execGmad b a d s := rfl
theorem exec_gand (b : BitVec 7) (a : BitVec 7) (d : BitVec 7) (s : State) : exec (.gand b a d) s = execGand b a d s := rfl
theorem exec_gor (b : BitVec 7) (a : BitVec 7) (d : BitVec 7) (s : State) : exec (.gor b a d) s = execGor b a d s := rfl
theorem exec_gxor (b : BitVec 7) (a : BitVec 7) (d : BitVec 7) (s : State) : exec (.gxor b a d) s = execGxor b a d s := rfl
theorem exec_gandn (b : BitVec 7) (a : BitVec 7) (d : BitVec 7) (s : State) : exec (.gandn b a d) s = execGandn b a d s := rfl
theorem exec_gshl (b : BitVec 7) (a : BitVec 7) (d : BitVec 7) (s : State) : exec (.gshl b a d) s = execGshl b a d s := rfl
theorem exec_gshr (b : BitVec 7) (a : BitVec 7) (d : BitVec 7) (s : State) : exec (.gshr b a d) s = execGshr b a d s := rfl
theorem exec_gsra (b : BitVec 7) (a : BitVec 7) (d : BitVec 7) (s : State) : exec (.gsra b a d) s = execGsra b a d s := rfl
theorem exec_gmin (b : BitVec 7) (a : BitVec 7) (d : BitVec 7) (s : State) : exec (.gmin b a d) s = execGmin b a d s := rfl
theorem exec_gcmpeq (b : BitVec 7) (a : BitVec 7) (d : BitVec 7) (s : State) : exec (.gcmpeq b a d) s = execGcmpeq b a d s := rfl
theorem exec_gcmplt (b : BitVec 7) (a : BitVec 7) (d : BitVec 7) (s : State) : exec (.gcmplt b a d) s = execGcmplt b a d s := rfl
theorem exec_gcmpltu (b : BitVec 7) (a : BitVec 7) (d : BitVec 7) (s : State) : exec (.gcmpltu b a d) s = execGcmpltu b a d s := rfl
theorem exec_gmax (b : BitVec 7) (a : BitVec 7) (d : BitVec 7) (s : State) : exec (.gmax b a d) s = execGmax b a d s := rfl
theorem exec_gaddi (im : BitVec 10) (a : BitVec 7) (d : BitVec 7) (s : State) : exec (.gaddi im a d) s = execGaddi im a d s := rfl
theorem exec_gmovi (im : BitVec 17) (d : BitVec 7) (s : State) : exec (.gmovi im d) s = execGmovi im d s := rfl
theorem exec_gshi16 (im : BitVec 16) (d : BitVec 7) (s : State) : exec (.gshi16 im d) s = execGshi16 im d s := rfl
theorem exec_gsrd (b : BitVec 7) (d : BitVec 7) (s : State) : exec (.gsrd b d) s = execGsrd b d s := rfl
theorem exec_gswr (b : BitVec 7) (a : BitVec 7) (s : State) : exec (.gswr b a) s = execGswr b a s := rfl
theorem exec_xlt (b : BitVec 7) (a : BitVec 7) (d : BitVec 7) (s : State) : exec (.xlt b a d) s = execXlt b a d s := rfl
theorem exec_gmov (a : BitVec 7) (d : BitVec 7) (s : State) : exec (.gmov a d) s = execGmov a d s := rfl
theorem exec_bra (x : BitVec 17) (s : State) : exec (.bra x) s = execBra x s := rfl
theorem exec_brg (x : BitVec 17) (p : BitVec 7) (s : State) : exec (.brg x p) s = execBrg x p s := rfl
theorem exec_brzg (x : BitVec 17) (p : BitVec 7) (s : State) : exec (.brzg x p) s = execBrzg x p s := rfl
theorem exec_brv (x : BitVec 17) (p : BitVec 7) (s : State) : exec (.brv x p) s = execBrv x p s := rfl
theorem exec_call (x : BitVec 17) (s : State) : exec (.call x) s = execCall x s := rfl
theorem exec_ret (s : State) : exec (.ret) s = execRet s := rfl
theorem exec_jmpg (a : BitVec 7) (s : State) : exec (.jmpg a) s = execJmpg a s := rfl
theorem exec_fuse (s : State) : exec (.fuse) s = execFuse s := rfl
theorem exec_exit (s : State) : exec (.exit) s = execExit s := rfl
theorem exec_emrd (d : BitVec 7) (s : State) : exec (.emrd d) s = execEmrd d s := rfl
theorem exec_emwr (a : BitVec 7) (s : State) : exec (.emwr a) s = execEmwr a s := rfl
theorem exec_yield (s : State) : exec (.yield) s = execYield s := rfl
theorem exec_bkpt (s : State) : exec (.bkpt) s = execBkpt s := rfl
theorem exec_mskip (x : BitVec 17) (p : BitVec 7) (s : State) : exec (.mskip x p) s = execMskip x p s := rfl
theorem exec_ld32 (f : BitVec 5) (a : BitVec 7) (d : BitVec 7) (s : State) : exec (.ld32 f a d) s = execLd32 f a d s := rfl
theorem exec_ld64 (f : BitVec 5) (a : BitVec 7) (d : BitVec 7) (s : State) : exec (.ld64 f a d) s = execLd64 f a d s := rfl
theorem exec_ld128 (f : BitVec 5) (a : BitVec 7) (d : BitVec 7) (s : State) : exec (.ld128 f a d) s = execLd128 f a d s := rfl
theorem exec_ld16 (f : BitVec 5) (a : BitVec 7) (d : BitVec 7) (s : State) : exec (.ld16 f a d) s = execLd16 f a d s := rfl
theorem exec_st32 (f : BitVec 5) (a : BitVec 7) (d : BitVec 7) (s : State) : exec (.st32 f a d) s = execSt32 f a d s := rfl
theorem exec_st64 (f : BitVec 5) (a : BitVec 7) (d : BitVec 7) (s : State) : exec (.st64 f a d) s = execSt64 f a d s := rfl
theorem exec_st128 (f : BitVec 5) (a : BitVec 7) (d : BitVec 7) (s : State) : exec (.st128 f a d) s = execSt128 f a d s := rfl
theorem exec_st16 (f : BitVec 5) (a : BitVec 7) (d : BitVec 7) (s : State) : exec (.st16 f a d) s = execSt16 f a d s := rfl
theorem exec_ld8 (f : BitVec 5) (a : BitVec 7) (d : BitVec 7) (s : State) : exec (.ld8 f a d) s = execLd8 f a d s := rfl
theorem exec_st8 (f : BitVec 5) (a : BitVec 7) (d : BitVec 7) (s : State) : exec (.st8 f a d) s = execSt8 f a d s := rfl
theorem exec_ldnb (f : BitVec 5) (a : BitVec 7) (d : BitVec 7) (s : State) : exec (.ldnb f a d) s = execLdnb f a d s := rfl
theorem exec_stva (f : BitVec 5) (a : BitVec 7) (d : BitVec 7) (s : State) : exec (.stva f a d) s = execStva f a d s := rfl
theorem exec_atadd (c : BitVec 3) (f : BitVec 5) (a : BitVec 7) (d : BitVec 7) (s : State) : exec (.atadd c f a d) s = execAtadd c f a d s := rfl
theorem exec_atmax (c : BitVec 3) (f : BitVec 5) (a : BitVec 7) (d : BitVec 7) (s : State) : exec (.atmax c f a d) s = execAtmax c f a d s := rfl
theorem exec_atxch (c : BitVec 3) (f : BitVec 5) (a : BitVec 7) (d : BitVec 7) (s : State) : exec (.atxch c f a d) s = execAtxch c f a d s := rfl
theorem exec_atcas (c : BitVec 3) (f : BitVec 5) (a : BitVec 7) (d : BitVec 7) (s : State) : exec (.atcas c f a d) s = execAtcas c f a d s := rfl
theorem exec_ator (c : BitVec 3) (f : BitVec 5) (a : BitVec 7) (d : BitVec 7) (s : State) : exec (.ator c f a d) s = execAtor c f a d s := rfl
theorem exec_atand (c : BitVec 3) (f : BitVec 5) (a : BitVec 7) (d : BitVec 7) (s : State) : exec (.atand c f a d) s = execAtand c f a d s := rfl
theorem exec_atfadd (c : BitVec 3) (f : BitVec 5) (a : BitVec 7) (d : BitVec 7) (s : State) : exec (.atfadd c f a d) s = execAtfadd c f a d s := rfl
theorem exec_atmin (c : BitVec 3) (f : BitVec 5) (a : BitVec 7) (d : BitVec 7) (s : State) : exec (.atmin c f a d) s = execAtmin c f a d s := rfl
theorem exec_fence (c : BitVec 3) (f : BitVec 5) (s : State) : exec (.fence c f) s = execFence c f s := rfl
theorem exec_fenceE (c : BitVec 3) (f : BitVec 5) (s : State) : exec (.fenceE c f) s = execFenceE c f s := rfl
theorem exec_ldaq (c : BitVec 3) (f : BitVec 5) (a : BitVec 7) (d : BitVec 7) (s : State) : exec (.ldaq c f a d) s = execLdaq c f a d s := rfl
theorem exec_strl (c : BitVec 3) (f : BitVec 5) (a : BitVec 7) (d : BitVec 7) (s : State) : exec (.strl c f a d) s = execStrl c f a d s := rfl
theorem exec_gld (f : BitVec 5) (a : BitVec 7) (d : BitVec 7) (s : State) : exec (.gld f a d) s = execGld f a d s := rfl
theorem exec_gst (f : BitVec 5) (a : BitVec 7) (d : BitVec 7) (s : State) : exec (.gst f a d) s = execGst f a d s := rfl
theorem exec_gldaq (c : BitVec 3) (f : BitVec 5) (a : BitVec 7) (d : BitVec 7) (s : State) : exec (.gldaq c f a d) s = execGldaq c f a d s := rfl
theorem exec_gstrl (c : BitVec 3) (f : BitVec 5) (a : BitVec 7) (d : BitVec 7) (s : State) : exec (.gstrl c f a d) s = execGstrl c f a d s := rfl
theorem exec_tdef (b : BitVec 7) (a : BitVec 7) (s : State) : exec (.tdef b a) s = execTdef b a s := rfl
theorem exec_tqry (b : BitVec 7) (a : BitVec 7) (d : BitVec 7) (s : State) : exec (.tqry b a d) s = execTqry b a d s := rfl
theorem exec_tfree (a : BitVec 7) (s : State) : exec (.tfree a) s = execTfree a s := rfl
theorem exec_tscl (b : BitVec 7) (a : BitVec 7) (s : State) : exec (.tscl b a) s = execTscl b a s := rfl
theorem exec_cpy (b : BitVec 7) (a : BitVec 7) (d : BitVec 7) (s : State) : exec (.cpy b a d) s = execCpy b a d s := rfl
theorem exec_cpyt (b : BitVec 7) (a : BitVec 7) (d : BitVec 7) (s : State) : exec (.cpyt b a d) s = execCpyt b a d s := rfl
theorem exec_gath (b : BitVec 7) (a : BitVec 7) (d : BitVec 7) (s : State) : exec (.gath b a d) s = execGath b a d s := rfl
theorem exec_scat (b : BitVec 7) (a : BitVec 7) (d : BitVec 7) (s : State) : exec (.scat b a d) s = execScat b a d s := rfl
theorem exec_balloc (b : BitVec 7) (a : BitVec 7) (d : BitVec 7) (s : State) : exec (.balloc b a d) s = execBalloc b a d s := rfl
theorem exec_bfree (a : BitVec 7) (s : State) : exec (.bfree a) s = execBfree a s := rfl
theorem exec_bexp (b : BitVec 7) (a : BitVec 7) (s : State) : exec (.bexp b a) s = execBexp b a s := rfl
theorem exec_barv (b : BitVec 7) (a : BitVec 7) (d : BitVec 7) (s : State) : exec (.barv b a d) s = execBarv b a d s := rfl
theorem exec_bwait (b : BitVec 7) (a : BitVec 7) (d : BitVec 7) (s : State) : exec (.bwait b a d) s = execBwait b a d s := rfl
theorem exec_bwaitt (b : BitVec 7) (a : BitVec 7) (d : BitVec 7) (s : State) : exec (.bwaitt b a d) s = execBwaitt b a d s := rfl
theorem exec_btest (a : BitVec 7) (d : BitVec 7) (s : State) : exec (.btest a d) s = execBtest a d s := rfl
theorem exec_bref (b : BitVec 7) (a : BitVec 7) (d : BitVec 7) (s : State) : exec (.bref b a d) s = execBref b a d s := rfl
theorem exec_mfeed (a : BitVec 7) (s : State) : exec (.mfeed a) s = execMfeed a s := rfl
theorem exec_mdrain (a : BitVec 7) (s : State) : exec (.mdrain a) s = execMdrain a s := rfl
theorem exec_msig (b : BitVec 7) (a : BitVec 7) (d : BitVec 7) (s : State) : exec (.msig b a d) s = execMsig b a d s := rfl
theorem exec_mrecv (d : BitVec 7) (s : State) : exec (.mrecv d) s = execMrecv d s := rfl
theorem exec_datt (b : BitVec 7) (a : BitVec 7) (s : State) : exec (.datt b a) s = execDatt b a s := rfl
theorem exec_ddist (b : BitVec 7) (a : BitVec 7) (s : State) : exec (.ddist b a) s = execDdist b a s := rfl
theorem exec_dtopk (b : BitVec 7) (a : BitVec 7) (s : State) : exec (.dtopk b a) s = execDtopk b a s := rfl
theorem exec_dkvap (b : BitVec 7) (a : BitVec 7) (s : State) : exec (.dkvap b a) s = execDkvap b a s := rfl
theorem exec_kvres (a : BitVec 7) (d : BitVec 7) (s : State) : exec (.kvres a d) s = execKvres a d s := rfl
theorem exec_kvreq (b : BitVec 7) (a : BitVec 7) (d : BitVec 7) (s : State) : exec (.kvreq b a d) s = execKvreq b a d s := rfl
theorem exec_kvpin (b : BitVec 7) (a : BitVec 7) (d : BitVec 7) (s : State) : exec (.kvpin b a d) s = execKvpin b a d s := rfl
theorem exec_kvrel (b : BitVec 7) (a : BitVec 7) (d : BitVec 7) (s : State) : exec (.kvrel b a d) s = execKvrel b a d s := rfl
theorem exec_lnch (b : BitVec 7) (a : BitVec 7) (d : BitVec 7) (s : State) : exec (.lnch b a d) s = execLnch b a d s := rfl
theorem exec_lnchc (b : BitVec 7) (a : BitVec 7) (d : BitVec 7) (s : State) : exec (.lnchc b a d) s = execLnchc b a d s := rfl
theorem exec_cancel (a : BitVec 7) (d : BitVec 7) (s : State) : exec (.cancel a d) s = execCancel a d s := rfl
theorem exec_ccnt (a : BitVec 7) (d : BitVec 7) (s : State) : exec (.ccnt a d) s = execCcnt a d s := rfl
theorem exec_ticket (a : BitVec 7) (d : BitVec 7) (s : State) : exec (.ticket a d) s = execTicket a d s := rfl
theorem exec_redeem (b : BitVec 7) (a : BitVec 7) (d : BitVec 7) (s : State) : exec (.redeem b a d) s = execRedeem b a d s := rfl
theorem exec_tkqry (b : BitVec 7) (a : BitVec 7) (d : BitVec 7) (s : State) : exec (.tkqry b a d) s = execTkqry b a d s := rfl
theorem exec_tkdrop (a : BitVec 7) (d : BitVec 7) (s : State) : exec (.tkdrop a d) s = execTkdrop a d s := rfl
theorem exec_upd (b : BitVec 7) (a : BitVec 7) (s : State) : exec (.upd b a) s = execUpd b a s := rfl
theorem exec_wvpub (a : BitVec 7) (d : BitVec 7) (s : State) : exec (.wvpub a d) s = execWvpub a d s := rfl
theorem exec_wvret (b : BitVec 7) (a : BitVec 7) (d : BitVec 7) (s : State) : exec (.wvret b a d) s = execWvret b a d s := rfl
theorem exec_norm (b : BitVec 7) (a : BitVec 7) (s : State) : exec (.norm b a) s = execNorm b a s := rfl
theorem exec_regq (b : BitVec 7) (a : BitVec 7) (d : BitVec 7) (s : State) : exec (.regq b a d) s = execRegq b a d s := rfl
theorem exec_snapm (d : BitVec 7) (s : State) : exec (.snapm d) s = execSnapm d s := rfl
theorem exec_pgreq (b : BitVec 7) (a : BitVec 7) (d : BitVec 7) (s : State) : exec (.pgreq b a d) s = execPgreq b a d s := rfl
theorem exec_trap (t : BitVec 4) (a : BitVec 7) (s : State) : exec (.trap t a) s = execTrap t a s := rfl
theorem exec_mma (b : BitVec 7) (a : BitVec 7) (d : BitVec 7) (s : State) : exec (.mma b a d) s = execMma b a d s := rfl
theorem exec_mmaSp (b : BitVec 7) (a : BitVec 7) (d : BitVec 7) (s : State) : exec (.mmaSp b a d) s = execMmaSp b a d s := rfl
theorem exec_mmaz (b : BitVec 7) (a : BitVec 7) (d : BitVec 7) (s : State) : exec (.mmaz b a d) s = execMmaz b a d s := rfl
theorem exec_mmazSp (b : BitVec 7) (a : BitVec 7) (d : BitVec 7) (s : State) : exec (.mmazSp b a d) s = execMmazSp b a d s := rfl
theorem exec_epq (b : BitVec 7) (a : BitVec 7) (d : BitVec 7) (s : State) : exec (.epq b a d) s = execEpq b a d s := rfl
theorem exec_epst (b : BitVec 7) (a : BitVec 7) (d : BitVec 7) (s : State) : exec (.epst b a d) s = execEpst b a d s := rfl
theorem exec_epov (b : BitVec 7) (a : BitVec 7) (d : BitVec 7) (s : State) : exec (.epov b a d) s = execEpov b a d s := rfl
theorem exec_accz (b : BitVec 7) (a : BitVec 7) (d : BitVec 7) (s : State) : exec (.accz b a d) s = execAccz b a d s := rfl
theorem exec_mbatch (d : BitVec 7) (s : State) : exec (.mbatch d) s = execMbatch d s := rfl
theorem exec_mwait (a : BitVec 7) (d : BitVec 7) (s : State) : exec (.mwait a d) s = execMwait a d s := rfl
theorem exec_mclass (a : BitVec 7) (s : State) : exec (.mclass a) s = execMclass a s := rfl
theorem exec_myld (s : State) : exec (.myld) s = execMyld s := rfl
theorem exec_mquad (b : BitVec 7) (a : BitVec 7) (d : BitVec 7) (s : State) : exec (.mquad b a d) s = execMquad b a d s := rfl
theorem exec_mscale (b : BitVec 7) (a : BitVec 7) (s : State) : exec (.mscale b a) s = execMscale b a s := rfl
theorem exec_csrr (a : BitVec 7) (d : BitVec 7) (s : State) : exec (.csrr a d) s = execCsrr a d s := rfl
theorem exec_csrw (b : BitVec 7) (a : BitVec 7) (d : BitVec 7) (s : State) : exec (.csrw b a d) s = execCsrw b a d s := rfl
theorem exec_csrs (b : BitVec 7) (a : BitVec 7) (d : BitVec 7) (s : State) : exec (.csrs b a d) s = execCsrs b a d s := rfl
theorem exec_csrc (b : BitVec 7) (a : BitVec 7) (d : BitVec 7) (s : State) : exec (.csrc b a d) s = execCsrc b a d s := rfl
theorem exec_tlbi (b : BitVec 7) (a : BitVec 7) (s : State) : exec (.tlbi b a) s = execTlbi b a s := rfl
theorem exec_tlbia (a : BitVec 7) (s : State) : exec (.tlbia a) s = execTlbia a s := rfl
theorem exec_prefw (b : BitVec 7) (a : BitVec 7) (s : State) : exec (.prefw b a) s = execPrefw b a s := rfl
theorem exec_zeroRange (b : BitVec 7) (a : BitVec 7) (d : BitVec 7) (s : State) : exec (.zeroRange b a d) s = execZeroRange b a d s := rfl
theorem exec_eret (s : State) : exec (.eret) s = execEret s := rfl
theorem exec_halt (s : State) : exec (.halt) s = execHalt s := rfl
theorem exec_hirq (a : BitVec 7) (s : State) : exec (.hirq a) s = execHirq a s := rfl
theorem exec_rtchk (a : BitVec 7) (d : BitVec 7) (s : State) : exec (.rtchk a d) s = execRtchk a d s := rfl
theorem exec_ctxsv (b : BitVec 7) (a : BitVec 7) (d : BitVec 7) (s : State) : exec (.ctxsv b a d) s = execCtxsv b a d s := rfl
theorem exec_ctxld (b : BitVec 7) (a : BitVec 7) (d : BitVec 7) (s : State) : exec (.ctxld b a d) s = execCtxld b a d s := rfl
theorem exec_snapb (a : BitVec 7) (d : BitVec 7) (s : State) : exec (.snapb a d) s = execSnapb a d s := rfl
theorem exec_snapc (b : BitVec 7) (a : BitVec 7) (d : BitVec 7) (s : State) : exec (.snapc b a d) s = execSnapc b a d s := rfl
theorem exec_storePerform (w : Who) (s : State) : exec (.storePerform w) s = execStorePerform w s := rfl
theorem exec_timedStorePerform (core : CoreId) (im : Nat) (s : State) : exec (.timedStorePerform core im) s = execTimedStorePerform core im s := rfl
theorem exec_ldnbPerform (w : Who) (s : State) : exec (.ldnbPerform w) s = execLdnbPerform w s := rfl
theorem exec_gathStatusArrive (die im : Nat) (s : State) : exec (.gathStatusArrive die im) s = execGathStatusArrive die im s := rfl
theorem exec_barvArrival (w : Who) (s : State) : exec (.barvArrival w) s = execBarvArrival w s := rfl
theorem exec_bwaitReturn (w : Who) (s : State) : exec (.bwaitReturn w) s = execBwaitReturn w s := rfl
theorem exec_bwaittTimeout (w : Who) (s : State) : exec (.bwaittTimeout w) s = execBwaittTimeout w s := rfl
theorem exec_copyCommandComplete (die im : Nat) (s : State) : exec (.copyCommandComplete die im) s = execCopyCommandComplete die im s := rfl
theorem exec_cpytWriteRelease (die im : Nat) (s : State) : exec (.cpytWriteRelease die im) s = execCpytWriteRelease die im s := rfl
theorem exec_bulkQueuePublish (u : UnitKey) (s : State) : exec (.bulkQueuePublish u) s = execBulkQueuePublish u s := rfl
theorem exec_bulkEntryStart (die : Nat) (s : State) : exec (.bulkEntryStart die) s = execBulkEntryStart die s := rfl
theorem exec_bulkEntryComplete (die im : Nat) (s : State) : exec (.bulkEntryComplete die im) s = execBulkEntryComplete die im s := rfl
theorem exec_completionRecordWrite (u : UnitKey) (s : State) : exec (.completionRecordWrite u) s = execCompletionRecordWrite u s := rfl
theorem exec_pageRequestComplete (part im : Nat) (s : State) : exec (.pageRequestComplete part im) s = execPageRequestComplete part im s := rfl
theorem exec_launchAnswer (w : Who) (s : State) : exec (.launchAnswer w) s = execLaunchAnswer w s := rfl
theorem exec_unitAdmit (u : UnitKey) (die cluster : Nat) (cores : List Nat) (s : State) : exec (.unitAdmit u die cluster cores) s = execUnitAdmit u die cluster cores s := rfl
theorem exec_launchBecomesBlocking (ctx : Nat) (id : Word) (s : State) : exec (.launchBecomesBlocking ctx id) s = execLaunchBecomesBlocking ctx id s := rfl
theorem exec_launchComplete (ctx : Nat) (id : Word) (s : State) : exec (.launchComplete ctx id) s = execLaunchComplete ctx id s := rfl
theorem exec_launchCommit (ctx : Nat) (id : Word) (s : State) : exec (.launchCommit ctx id) s = execLaunchCommit ctx id s := rfl
theorem exec_snapmRelease (ctx : Nat) (id : Word) (s : State) : exec (.snapmRelease ctx id) s = execSnapmRelease ctx id s := rfl
theorem exec_slotRelease (w : Who) (s : State) : exec (.slotRelease w) s = execSlotRelease w s := rfl
theorem exec_preemptionStop (u : UnitKey) (s : State) : exec (.preemptionStop u) s = execPreemptionStop u s := rfl
theorem exec_mxeStep (die cluster : Nat) (s : State) : exec (.mxeStep die cluster) s = execMxeStep die cluster s := rfl
theorem exec_mquadInstall (w : Who) (s : State) : exec (.mquadInstall w) s = execMquadInstall w s := rfl
theorem exec_mwaitReturn (w : Who) (s : State) : exec (.mwaitReturn w) s = execMwaitReturn w s := rfl
theorem exec_mdrainRead (w : Who) (s : State) : exec (.mdrainRead w) s = execMdrainRead w s := rfl
theorem exec_mrecvWake (w : Who) (s : State) : exec (.mrecvWake w) s = execMrecvWake w s := rfl
theorem exec_dcePage (die : Nat) (s : State) : exec (.dcePage die) s = execDcePage die s := rfl
theorem exec_kvRequestComplete (ctx im : Nat) (frames : List Nat) (s : State) : exec (.kvRequestComplete ctx im frames) s = execKvRequestComplete ctx im frames s := rfl
theorem exec_kvVictimAction (ctx : Nat) (s : State) : exec (.kvVictimAction ctx) s = execKvVictimAction ctx s := rfl
theorem exec_updStart (die im : Nat) (s : State) : exec (.updStart die im) s = execUpdStart die im s := rfl
theorem exec_updTileCommit (die im : Nat) (s : State) : exec (.updTileCommit die im) s = execUpdTileCommit die im s := rfl
theorem exec_normApply (die im : Nat) (s : State) : exec (.normApply die im) s = execNormApply die im s := rfl
theorem exec_stagingBufferTake (ctx : Nat) (id : Word) (s : State) : exec (.stagingBufferTake ctx id) s = execStagingBufferTake ctx id s := rfl
theorem exec_delivery (ctx : Nat) (id : Word) (s : State) : exec (.delivery ctx id) s = execDelivery ctx id s := rfl
theorem exec_replicaCommit (im : Nat) (s : State) : exec (.replicaCommit im) s = execReplicaCommit im s := rfl
theorem exec_replicaLockTimeout (die im : Nat) (s : State) : exec (.replicaLockTimeout die im) s = execReplicaLockTimeout die im s := rfl
theorem exec_pageWalk (die ctx : Nat) (va : BitVec 56) (write : Bool) (s : State) : exec (.pageWalk die ctx va write) s = execPageWalk die ctx va write s := rfl
theorem exec_walkSlotGrant (die : Nat) (s : State) : exec (.walkSlotGrant die) s = execWalkSlotGrant die s := rfl
theorem exec_hsemClaim (port : Bool) (token : Half) (s : State) : exec (.hsemClaim port token) s = execHsemClaim port token s := rfl
theorem exec_hsemRelease (port : Bool) (token : Half) (s : State) : exec (.hsemRelease port token) s = execHsemRelease port token s := rfl
theorem exec_hostLinkDown (port : Bool) (s : State) : exec (.hostLinkDown port) s = execHostLinkDown port s := rfl
theorem exec_bar0ControlWrite (port : Bool) (offset : Nat) (value : DWord) (s : State) : exec (.bar0ControlWrite port offset value) s = execBar0ControlWrite port offset value s := rfl
theorem exec_hostHdmAccess (port write : Bool) (pa : Nat) (data : List Byte) (s : State) : exec (.hostHdmAccess port write pa data) s = execHostHdmAccess port write pa data s := rfl
theorem exec_submissionRingTake (ctx : Nat) (s : State) : exec (.submissionRingTake ctx) s = execSubmissionRingTake ctx s := rfl
theorem exec_attestationRequest (port : Bool) (nonce : List Byte) (s : State) : exec (.attestationRequest port nonce) s = execAttestationRequest port nonce s := rfl
theorem exec_faultRecordDeliver (s : State) : exec (.faultRecordDeliver) s = execFaultRecordDeliver s := rfl
theorem exec_faultRingDrain (part : Nat) (s : State) : exec (.faultRingDrain part) s = execFaultRingDrain part s := rfl
theorem exec_rollback (ctx : Nat) (id : Word) (s : State) : exec (.rollback ctx id) s = execRollback ctx id s := rfl
theorem exec_contextCreate (ctx : Nat) (cfg : DWord) (s : State) : exec (.contextCreate ctx cfg) s = execContextCreate ctx cfg s := rfl
theorem exec_contextEnd (ctx : Nat) (s : State) : exec (.contextEnd ctx) s = execContextEnd ctx s := rfl
theorem exec_asidChange (ctx : Nat) (asid : Bool) (value : DWord) (s : State) : exec (.asidChange ctx asid value) s = execAsidChange ctx asid value s := rfl
theorem exec_factNone (ctx : Nat) (id : Word) (s : State) : exec (.factNone ctx id) s = execFactNone ctx id s := rfl
theorem exec_factKill (ctx : Nat) (id : Word) (s : State) : exec (.factKill ctx id) s = execFactKill ctx id s := rfl
theorem exec_factReplay (ctx : Nat) (id : Word) (s : State) : exec (.factReplay ctx id) s = execFactReplay ctx id s := rfl
theorem exec_factResume (ctx : Nat) (id : Word) (s : State) : exec (.factResume ctx id) s = execFactResume ctx id s := rfl
theorem exec_topoReload (value : DWord) (s : State) : exec (.topoReload value) s = execTopoReload value s := rfl
theorem exec_routesReload (value : DWord) (s : State) : exec (.routesReload value) s = execRoutesReload value s := rfl
theorem exec_haltResume (w : Who) (s : State) : exec (.haltResume w) s = execHaltResume w s := rfl
theorem exec_eccCorrected (die : Nat) (frame : Option Nat) (s : State) : exec (.eccCorrected die frame) s = execEccCorrected die frame s := rfl
theorem exec_eccUncorrectable (key : Nat) (s : State) : exec (.eccUncorrectable key) s = execEccUncorrectable key s := rfl
theorem exec_rowRetire (pa : Nat) (s : State) : exec (.rowRetire pa) s = execRowRetire pa s := rfl
theorem exec_checkerMismatch (site : CheckSite) (parity : Bool) (s : State) : exec (.checkerMismatch site parity) s = execCheckerMismatch site parity s := rfl
theorem exec_warmReset (die : Nat) (cause : Byte) (s : State) : exec (.warmReset die cause) s = execWarmReset die cause s := rfl
theorem exec_throttleEvent (die : Nat) (s : State) : exec (.throttleEvent die) s = execThrottleEvent die s := rfl
theorem exec_thermalLimit (die : Nat) (within : Bool) (s : State) : exec (.thermalLimit die within) s = execThermalLimit die within s := rfl
theorem exec_coldPowerOn (s : State) : exec (.coldPowerOn) s = execColdPowerOn s := rfl
theorem exec_digest (model : Nat) (ctx : Nat) (version : Word) (digest : BitVec 128) (chk : Word) (s : State) : exec (.digest model ctx version digest chk) s = execDigest model ctx version digest chk s := rfl
theorem exec_digestTimeout (ctx model : Nat) (s : State) : exec (.digestTimeout ctx model) s = execDigestTimeout ctx model s := rfl
theorem exec_read (im : Nat) (s : State) : exec (.read im) s = execRead im s := rfl
theorem exec_write (im : Nat) (s : State) : exec (.write im) s = execWrite im s := rfl
theorem exec_atomic (im : Nat) (s : State) : exec (.atomic im) s = execAtomic im s := rfl
theorem exec_rddata (im : Nat) (s : State) : exec (.rddata im) s = execRddata im s := rfl
theorem exec_wrack (im : Nat) (s : State) : exec (.wrack im) s = execWrack im s := rfl
theorem exec_atrsp (im : Nat) (s : State) : exec (.atrsp im) s = execAtrsp im s := rfl
theorem exec_sync (t2 : DWord) (s : State) : exec (.sync t2) s = execSync t2 s := rfl
theorem exec_follow (t1 : DWord) (s : State) : exec (.follow t1) s = execFollow t1 s := rfl
theorem exec_dreq (port : Nat) (t4 : DWord) (s : State) : exec (.dreq port t4) s = execDreq port t4 s := rfl
theorem exec_drsp (t4 : DWord) (s : State) : exec (.drsp t4) s = execDrsp t4 s := rfl
theorem exec_packetForward (port : Nat) (header : BitVec 512) (data : List Byte) (s : State) : exec (.packetForward port header data) s = execPacketForward port header data s := rfl
theorem exec_flowStop (port vc : Nat) (here : Bool) (s : State) : exec (.flowStop port vc here) s = execFlowStop port vc here s := rfl
theorem exec_flowGo (port vc : Nat) (here : Bool) (s : State) : exec (.flowGo port vc here) s = execFlowGo port vc here s := rfl
theorem exec_linkDown (port : Nat) (s : State) : exec (.linkDown port) s = execLinkDown port s := rfl
theorem exec_linkStateChange (port : Nat) (ls : BitVec 2) (s : State) : exec (.linkStateChange port ls) s = execLinkStateChange port ls s := rfl
theorem exec_peerRequestTimeout (im : Nat) (s : State) : exec (.peerRequestTimeout im) s = execPeerRequestTimeout im s := rfl
theorem exec_timeExchangeStart (port : Nat) (s : State) : exec (.timeExchangeStart port) s = execTimeExchangeStart port s := rfl
theorem exec_packageTimeExchange (die : Nat) (measured : DWord) (s : State) : exec (.packageTimeExchange die measured) s = execPackageTimeExchange die measured s := rfl
theorem exec_ptmSync (ns : DWord) (s : State) : exec (.ptmSync ns) s = execPtmSync ns s := rfl
theorem exec_disciplineLoss (die : Nat) (s : State) : exec (.disciplineLoss die) s = execDisciplineLoss die s := rfl
theorem exec_dieTimeTick (die : Nat) (add : Nat) (s : State) : exec (.dieTimeTick die add) s = execDieTimeTick die add s := rfl
theorem exec_wordThatDoesNotExecute (w : Word) (s : State) : exec (.wordThatDoesNotExecute w) s = execWordThatDoesNotExecute w s := rfl
theorem exec_linkLevelReplay (port : Nat) (s : State) : exec (.linkLevelReplay port) s = execLinkLevelReplay port s := rfl
theorem exec_hostLinkUp (port : Bool) (s : State) : exec (.hostLinkUp port) s = execHostLinkUp port s := rfl
theorem exec_powerOff (s : State) : exec (.powerOff) s = execPowerOff s := rfl
theorem exec_throttleEnd (die : Nat) (s : State) : exec (.throttleEnd die) s = execThrottleEnd die s := rfl
theorem exec_zeroComplete (w : Who) (s : State) : exec (.zeroComplete w) s = execZeroComplete w s := rfl

end Sys2Proof.Laws
end

