-- ==== Sys2Proof/Laws/Lanes.lean ====
section
/-!
SUPPORT. Masks of lanes.
-/
namespace Sys2Proof.Laws
open Sys2Proof.Machine

theorem maskFold (p : Nat → Bool) (n : Nat) :
    (List.range n).foldl (fun m l => if p l then m + 2 ^ l else m) 0 < 2 ^ n ∧
      ∀ k, k < n → ((List.range n).foldl (fun m l => if p l then m + 2 ^ l else m) 0).testBit k = p k := by
  induction n with
  | zero => simp
  | succ n ih =>
    rw [List.range_succ, List.foldl_append]
    simp only [List.foldl_cons, List.foldl_nil]
    generalize (List.range n).foldl (fun m l => if p l then m + 2 ^ l else m) 0 = m at ih
    obtain ⟨h1, h2⟩ := ih
    by_cases hp : p n = true
    · rw [if_pos hp, Nat.add_comm m]
      refine ⟨by rw [Nat.pow_succ]; omega, fun k hk => ?_⟩
      rcases Nat.lt_succ_iff_lt_or_eq.1 hk with h | rfl
      · rw [Nat.testBit_two_pow_add_gt h, h2 k h]
      · rw [Nat.testBit_two_pow_add_eq, Nat.testBit_lt_two_pow h1, hp]; rfl
    · rw [if_neg hp]
      refine ⟨by rw [Nat.pow_succ]; omega, fun k hk => ?_⟩
      rcases Nat.lt_succ_iff_lt_or_eq.1 hk with h | rfl
      · exact h2 k h
      · rw [Nat.testBit_lt_two_pow h1]; simpa using hp

/-- A bit of the mask of the active lanes for which `p` holds. -/
theorem laneMask_bit (em : Word) (p : Nat → Bool) {k : Nat} (hk : k < 32) :
    (laneMask em p).getLsbD k = (em.getLsbD k && p k) := by
  obtain ⟨h1, h2⟩ := maskFold (fun l => em.getLsbD l && p l) 32
  simp only [laneMask, BitVec.getLsbD_ofNat, hk, decide_true, Bool.true_and]
  exact h2 k hk

end Sys2Proof.Laws
end

