-- ==== Sys2Proof/Laws/PerInstr.lean ====
section
/-!
SUPPORT. The round trip, instruction by instruction: the decoder reads an instruction's encoding back as that
instruction, with every operand and whatever follows in memory.
-/
namespace Sys2Proof.Laws.RoundTrip

/-- Decoding the encoding of an instruction gives it back. IADD.16 of N = 0, A = 0 and D = 0 would be the halfword
0x0000, which is no instruction (R40); a step of the device has no encoding. -/
def Statement (i : Instr) : Prop :=
  i.isWord = true → i ≠ .iadd16 0 0 0 → ∀ rest, decode (encode i ++ rest) = .ok (i, rest)

theorem of_word {i : Instr} {w : Word} (he : encodeForm i = .word w) (h0 : w.getLsbD 0 = true) (hd : decodeWord w = .ok i) :
    Statement i := by
  intro _ _ rest
  have e : encode i = bytesOfWord w := by simp only [encode, he]
  rw [e, decode_word w rest h0, hd]; rfl

theorem of_half {i : Instr} {x : Half} (he : encodeForm i = .half x) (h0 : x.getLsbD 0 = false)
    (hd : i ≠ .iadd16 0 0 0 → decodeHalfWord x = .ok i) : Statement i := by
  intro _ hi rest
  have e : encode i = bytesOfHalf x := by simp only [encode, he]
  rw [e, decode_half x rest h0, hd hi]; rfl

theorem of_none {i : Instr} (he : encodeForm i = .none) : Statement i := by
  intro h
  simp [Instr.isWord, he] at h

/-- A 16-bit form is not the zero halfword where its operation code is not 0. -/
theorem wordH_ne {n : BitVec 1} {a d : BitVec 5} {op : BitVec 4} (h : op ≠ 0#4) : wordH n a d op ≠ 0#16 := by
  intro e
  apply h
  have := congrArg (fun x : Half => x.extractLsb' 1 4) e
  simp only [wordH] at this
  rw [extract_high _ 0#1 _ _ (by decide), extract_low _ _ _ _ (by decide)] at this
  rw [← extract_all op]
  simpa using this

theorem iadd (n : BitVec 1) (b : BitVec 7) (a : BitVec 7) (d : BitVec 7) : Statement (.iadd n b a d) := of_word rfl (wordR_bit0 _ _ _ _ _ _) ((decode_fieldsR _ _ _ _ _ _ rfl rfl).trans rfl)
theorem isub (n : BitVec 1) (b : BitVec 7) (a : BitVec 7) (d : BitVec 7) : Statement (.isub n b a d) := of_word rfl (wordR_bit0 _ _ _ _ _ _) ((decode_fieldsR _ _ _ _ _ _ rfl rfl).trans rfl)
theorem iadds (n : BitVec 1) (b : BitVec 7) (a : BitVec 7) (d : BitVec 7) : Statement (.iadds n b a d) := of_word rfl (wordR_bit0 _ _ _ _ _ _) ((decode_fieldsR _ _ _ _ _ _ rfl rfl).trans rfl)
theorem isubs (n : BitVec 1) (b : BitVec 7) (a : BitVec 7) (d : BitVec 7) : Statement (.isubs n b a d) := of_word rfl (wordR_bit0 _ _ _ _ _ _) ((decode_fieldsR _ _ _ _ _ _ rfl rfl).trans rfl)
theorem imul (n : BitVec 1) (b : BitVec 7) (a : BitVec 7) (d : BitVec 7) : Statement (.imul n b a d) := of_word rfl (wordR_bit0 _ _ _ _ _ _) ((decode_fieldsR _ _ _ _ _ _ rfl rfl).trans rfl)
theorem imulhi (n : BitVec 1) (b : BitVec 7) (a : BitVec 7) (d : BitVec 7) : Statement (.imulhi n b a d) := of_word rfl (wordR_bit0 _ _ _ _ _ _) ((decode_fieldsR _ _ _ _ _ _ rfl rfl).trans rfl)
theorem imulhiu (n : BitVec 1) (b : BitVec 7) (a : BitVec 7) (d : BitVec 7) : Statement (.imulhiu n b a d) := of_word rfl (wordR_bit0 _ _ _ _ _ _) ((decode_fieldsR _ _ _ _ _ _ rfl rfl).trans rfl)
theorem imad (b : BitVec 7) (a : BitVec 7) (d : BitVec 7) : Statement (.imad b a d) := of_word rfl (wordR_bit0 _ _ _ _ _ _) ((decode_fieldsR _ _ _ _ _ _ rfl rfl).trans rfl)
theorem imin (n : BitVec 1) (b : BitVec 7) (a : BitVec 7) (d : BitVec 7) : Statement (.imin n b a d) := of_word rfl (wordR_bit0 _ _ _ _ _ _) ((decode_fieldsR _ _ _ _ _ _ rfl rfl).trans rfl)
theorem imax (n : BitVec 1) (b : BitVec 7) (a : BitVec 7) (d : BitVec 7) : Statement (.imax n b a d) := of_word rfl (wordR_bit0 _ _ _ _ _ _) ((decode_fieldsR _ _ _ _ _ _ rfl rfl).trans rfl)
theorem umin (n : BitVec 1) (b : BitVec 7) (a : BitVec 7) (d : BitVec 7) : Statement (.umin n b a d) := of_word rfl (wordR_bit0 _ _ _ _ _ _) ((decode_fieldsR _ _ _ _ _ _ rfl rfl).trans rfl)
theorem umax (n : BitVec 1) (b : BitVec 7) (a : BitVec 7) (d : BitVec 7) : Statement (.umax n b a d) := of_word rfl (wordR_bit0 _ _ _ _ _ _) ((decode_fieldsR _ _ _ _ _ _ rfl rfl).trans rfl)
theorem and (n : BitVec 1) (b : BitVec 7) (a : BitVec 7) (d : BitVec 7) : Statement (.and n b a d) := of_word rfl (wordR_bit0 _ _ _ _ _ _) ((decode_fieldsR _ _ _ _ _ _ rfl rfl).trans rfl)
theorem or (n : BitVec 1) (b : BitVec 7) (a : BitVec 7) (d : BitVec 7) : Statement (.or n b a d) := of_word rfl (wordR_bit0 _ _ _ _ _ _) ((decode_fieldsR _ _ _ _ _ _ rfl rfl).trans rfl)
theorem xor (n : BitVec 1) (b : BitVec 7) (a : BitVec 7) (d : BitVec 7) : Statement (.xor n b a d) := of_word rfl (wordR_bit0 _ _ _ _ _ _) ((decode_fieldsR _ _ _ _ _ _ rfl rfl).trans rfl)
theorem andn (n : BitVec 1) (b : BitVec 7) (a : BitVec 7) (d : BitVec 7) : Statement (.andn n b a d) := of_word rfl (wordR_bit0 _ _ _ _ _ _) ((decode_fieldsR _ _ _ _ _ _ rfl rfl).trans rfl)
theorem shl (n : BitVec 1) (b : BitVec 7) (a : BitVec 7) (d : BitVec 7) : Statement (.shl n b a d) := of_word rfl (wordR_bit0 _ _ _ _ _ _) ((decode_fieldsR _ _ _ _ _ _ rfl rfl).trans rfl)
theorem shr (n : BitVec 1) (b : BitVec 7) (a : BitVec 7) (d : BitVec 7) : Statement (.shr n b a d) := of_word rfl (wordR_bit0 _ _ _ _ _ _) ((decode_fieldsR _ _ _ _ _ _ rfl rfl).trans rfl)
theorem sra (n : BitVec 1) (b : BitVec 7) (a : BitVec 7) (d : BitVec 7) : Statement (.sra n b a d) := of_word rfl (wordR_bit0 _ _ _ _ _ _) ((decode_fieldsR _ _ _ _ _ _ rfl rfl).trans rfl)
theorem rotl (n : BitVec 1) (b : BitVec 7) (a : BitVec 7) (d : BitVec 7) : Statement (.rotl n b a d) := of_word rfl (wordR_bit0 _ _ _ _ _ _) ((decode_fieldsR _ _ _ _ _ _ rfl rfl).trans rfl)
theorem popc (n : BitVec 1) (a : BitVec 7) (d : BitVec 7) : Statement (.popc n a d) := of_word rfl (wordR_bit0 _ _ _ _ _ _) ((decode_fieldsR _ _ _ _ _ _ rfl rfl).trans rfl)
theorem clz (n : BitVec 1) (a : BitVec 7) (d : BitVec 7) : Statement (.clz n a d) := of_word rfl (wordR_bit0 _ _ _ _ _ _) ((decode_fieldsR _ _ _ _ _ _ rfl rfl).trans rfl)
theorem brev (n : BitVec 1) (a : BitVec 7) (d : BitVec 7) : Statement (.brev n a d) := of_word rfl (wordR_bit0 _ _ _ _ _ _) ((decode_fieldsR _ _ _ _ _ _ rfl rfl).trans rfl)
theorem bfx (n : BitVec 1) (b : BitVec 7) (a : BitVec 7) (d : BitVec 7) : Statement (.bfx n b a d) := of_word rfl (wordR_bit0 _ _ _ _ _ _) ((decode_fieldsR _ _ _ _ _ _ rfl rfl).trans rfl)
theorem bfi (n : BitVec 1) (b : BitVec 7) (a : BitVec 7) (d : BitVec 7) : Statement (.bfi n b a d) := of_word rfl (wordR_bit0 _ _ _ _ _ _) ((decode_fieldsR _ _ _ _ _ _ rfl rfl).trans rfl)
theorem iabs (n : BitVec 1) (a : BitVec 7) (d : BitVec 7) : Statement (.iabs n a d) := of_word rfl (wordR_bit0 _ _ _ _ _ _) ((decode_fieldsR _ _ _ _ _ _ rfl rfl).trans rfl)
theorem udiv (n : BitVec 1) (b : BitVec 7) (a : BitVec 7) (d : BitVec 7) : Statement (.udiv n b a d) := of_word rfl (wordR_bit0 _ _ _ _ _ _) ((decode_fieldsR _ _ _ _ _ _ rfl rfl).trans rfl)
theorem urem (n : BitVec 1) (b : BitVec 7) (a : BitVec 7) (d : BitVec 7) : Statement (.urem n b a d) := of_word rfl (wordR_bit0 _ _ _ _ _ _) ((decode_fieldsR _ _ _ _ _ _ rfl rfl).trans rfl)
theorem lea (n : BitVec 1) (b : BitVec 7) (a : BitVec 7) (d : BitVec 7) : Statement (.lea n b a d) := of_word rfl (wordR_bit0 _ _ _ _ _ _) ((decode_fieldsR _ _ _ _ _ _ rfl rfl).trans rfl)
theorem lea2 (n : BitVec 1) (b : BitVec 7) (a : BitVec 7) (d : BitVec 7) : Statement (.lea2 n b a d) := of_word rfl (wordR_bit0 _ _ _ _ _ _) ((decode_fieldsR _ _ _ _ _ _ rfl rfl).trans rfl)
theorem lea4 (n : BitVec 1) (b : BitVec 7) (a : BitVec 7) (d : BitVec 7) : Statement (.lea4 n b a d) := of_word rfl (wordR_bit0 _ _ _ _ _ _) ((decode_fieldsR _ _ _ _ _ _ rfl rfl).trans rfl)
theorem lea8 (n : BitVec 1) (b : BitVec 7) (a : BitVec 7) (d : BitVec 7) : Statement (.lea8 n b a d) := of_word rfl (wordR_bit0 _ _ _ _ _ _) ((decode_fieldsR _ _ _ _ _ _ rfl rfl).trans rfl)
theorem fadd (n : BitVec 1) (b : BitVec 7) (a : BitVec 7) (d : BitVec 7) : Statement (.fadd n b a d) := of_word rfl (wordR_bit0 _ _ _ _ _ _) ((decode_fieldsR _ _ _ _ _ _ rfl rfl).trans rfl)
theorem fsub (n : BitVec 1) (b : BitVec 7) (a : BitVec 7) (d : BitVec 7) : Statement (.fsub n b a d) := of_word rfl (wordR_bit0 _ _ _ _ _ _) ((decode_fieldsR _ _ _ _ _ _ rfl rfl).trans rfl)
theorem fmul (n : BitVec 1) (b : BitVec 7) (a : BitVec 7) (d : BitVec 7) : Statement (.fmul n b a d) := of_word rfl (wordR_bit0 _ _ _ _ _ _) ((decode_fieldsR _ _ _ _ _ _ rfl rfl).trans rfl)
theorem fma (b : BitVec 7) (a : BitVec 7) (d : BitVec 7) : Statement (.fma b a d) := of_word rfl (wordR_bit0 _ _ _ _ _ _) ((decode_fieldsR _ _ _ _ _ _ rfl rfl).trans rfl)
theorem fmin (n : BitVec 1) (b : BitVec 7) (a : BitVec 7) (d : BitVec 7) : Statement (.fmin n b a d) := of_word rfl (wordR_bit0 _ _ _ _ _ _) ((decode_fieldsR _ _ _ _ _ _ rfl rfl).trans rfl)
theorem fmax (n : BitVec 1) (b : BitVec 7) (a : BitVec 7) (d : BitVec 7) : Statement (.fmax n b a d) := of_word rfl (wordR_bit0 _ _ _ _ _ _) ((decode_fieldsR _ _ _ _ _ _ rfl rfl).trans rfl)
theorem fabs (n : BitVec 1) (a : BitVec 7) (d : BitVec 7) : Statement (.fabs n a d) := of_word rfl (wordR_bit0 _ _ _ _ _ _) ((decode_fieldsR _ _ _ _ _ _ rfl rfl).trans rfl)
theorem fneg (n : BitVec 1) (a : BitVec 7) (d : BitVec 7) : Statement (.fneg n a d) := of_word rfl (wordR_bit0 _ _ _ _ _ _) ((decode_fieldsR _ _ _ _ _ _ rfl rfl).trans rfl)
theorem frcp (n : BitVec 1) (a : BitVec 7) (d : BitVec 7) : Statement (.frcp n a d) := of_word rfl (wordR_bit0 _ _ _ _ _ _) ((decode_fieldsR _ _ _ _ _ _ rfl rfl).trans rfl)
theorem frsq (n : BitVec 1) (a : BitVec 7) (d : BitVec 7) : Statement (.frsq n a d) := of_word rfl (wordR_bit0 _ _ _ _ _ _) ((decode_fieldsR _ _ _ _ _ _ rfl rfl).trans rfl)
theorem fex2 (n : BitVec 1) (a : BitVec 7) (d : BitVec 7) : Statement (.fex2 n a d) := of_word rfl (wordR_bit0 _ _ _ _ _ _) ((decode_fieldsR _ _ _ _ _ _ rfl rfl).trans rfl)
theorem flg2 (n : BitVec 1) (a : BitVec 7) (d : BitVec 7) : Statement (.flg2 n a d) := of_word rfl (wordR_bit0 _ _ _ _ _ _) ((decode_fieldsR _ _ _ _ _ _ rfl rfl).trans rfl)
theorem faddBf2 (n : BitVec 1) (b : BitVec 7) (a : BitVec 7) (d : BitVec 7) : Statement (.faddBf2 n b a d) := of_word rfl (wordR_bit0 _ _ _ _ _ _) ((decode_fieldsR _ _ _ _ _ _ rfl rfl).trans rfl)
theorem fmulBf2 (n : BitVec 1) (b : BitVec 7) (a : BitVec 7) (d : BitVec 7) : Statement (.fmulBf2 n b a d) := of_word rfl (wordR_bit0 _ _ _ _ _ _) ((decode_fieldsR _ _ _ _ _ _ rfl rfl).trans rfl)
theorem fmaBf2 (b : BitVec 7) (a : BitVec 7) (d : BitVec 7) : Statement (.fmaBf2 b a d) := of_word rfl (wordR_bit0 _ _ _ _ _ _) ((decode_fieldsR _ _ _ _ _ _ rfl rfl).trans rfl)
theorem fmaxBf2 (n : BitVec 1) (b : BitVec 7) (a : BitVec 7) (d : BitVec 7) : Statement (.fmaxBf2 n b a d) := of_word rfl (wordR_bit0 _ _ _ _ _ _) ((decode_fieldsR _ _ _ _ _ _ rfl rfl).trans rfl)
theorem faddHf2 (n : BitVec 1) (b : BitVec 7) (a : BitVec 7) (d : BitVec 7) : Statement (.faddHf2 n b a d) := of_word rfl (wordR_bit0 _ _ _ _ _ _) ((decode_fieldsR _ _ _ _ _ _ rfl rfl).trans rfl)
theorem fmulHf2 (n : BitVec 1) (b : BitVec 7) (a : BitVec 7) (d : BitVec 7) : Statement (.fmulHf2 n b a d) := of_word rfl (wordR_bit0 _ _ _ _ _ _) ((decode_fieldsR _ _ _ _ _ _ rfl rfl).trans rfl)
theorem fmaHf2 (b : BitVec 7) (a : BitVec 7) (d : BitVec 7) : Statement (.fmaHf2 b a d) := of_word rfl (wordR_bit0 _ _ _ _ _ _) ((decode_fieldsR _ _ _ _ _ _ rfl rfl).trans rfl)
theorem fmaxHf2 (n : BitVec 1) (b : BitVec 7) (a : BitVec 7) (d : BitVec 7) : Statement (.fmaxHf2 n b a d) := of_word rfl (wordR_bit0 _ _ _ _ _ _) ((decode_fieldsR _ _ _ _ _ _ rfl rfl).trans rfl)
theorem fdot2Bf (b : BitVec 7) (a : BitVec 7) (d : BitVec 7) : Statement (.fdot2Bf b a d) := of_word rfl (wordR_bit0 _ _ _ _ _ _) ((decode_fieldsR _ _ _ _ _ _ rfl rfl).trans rfl)
theorem fdot4E4 (b : BitVec 7) (a : BitVec 7) (d : BitVec 7) : Statement (.fdot4E4 b a d) := of_word rfl (wordR_bit0 _ _ _ _ _ _) ((decode_fieldsR _ _ _ _ _ _ rfl rfl).trans rfl)
theorem fdot4E5 (b : BitVec 7) (a : BitVec 7) (d : BitVec 7) : Statement (.fdot4E5 b a d) := of_word rfl (wordR_bit0 _ _ _ _ _ _) ((decode_fieldsR _ _ _ _ _ _ rfl rfl).trans rfl)
theorem fdot8E2m1 (b : BitVec 7) (a : BitVec 7) (d : BitVec 7) : Statement (.fdot8E2m1 b a d) := of_word rfl (wordR_bit0 _ _ _ _ _ _) ((decode_fieldsR _ _ _ _ _ _ rfl rfl).trans rfl)
theorem raddF (n : BitVec 1) (a : BitVec 7) (d : BitVec 7) : Statement (.raddF n a d) := of_word rfl (wordR_bit0 _ _ _ _ _ _) ((decode_fieldsR _ _ _ _ _ _ rfl rfl).trans rfl)
theorem rmaxF (n : BitVec 1) (a : BitVec 7) (d : BitVec 7) : Statement (.rmaxF n a d) := of_word rfl (wordR_bit0 _ _ _ _ _ _) ((decode_fieldsR _ _ _ _ _ _ rfl rfl).trans rfl)
theorem raddI (n : BitVec 1) (a : BitVec 7) (d : BitVec 7) : Statement (.raddI n a d) := of_word rfl (wordR_bit0 _ _ _ _ _ _) ((decode_fieldsR _ _ _ _ _ _ rfl rfl).trans rfl)
theorem rmaxI (n : BitVec 1) (a : BitVec 7) (d : BitVec 7) : Statement (.rmaxI n a d) := of_word rfl (wordR_bit0 _ _ _ _ _ _) ((decode_fieldsR _ _ _ _ _ _ rfl rfl).trans rfl)
theorem fscale (n : BitVec 1) (b : BitVec 7) (a : BitVec 7) (d : BitVec 7) : Statement (.fscale n b a d) := of_word rfl (wordR_bit0 _ _ _ _ _ _) ((decode_fieldsR _ _ _ _ _ _ rfl rfl).trans rfl)
theorem ffloor (n : BitVec 1) (a : BitVec 7) (d : BitVec 7) : Statement (.ffloor n a d) := of_word rfl (wordR_bit0 _ _ _ _ _ _) ((decode_fieldsR _ _ _ _ _ _ rfl rfl).trans rfl)
theorem frint (n : BitVec 1) (a : BitVec 7) (d : BitVec 7) : Statement (.frint n a d) := of_word rfl (wordR_bit0 _ _ _ _ _ _) ((decode_fieldsR _ _ _ _ _ _ rfl rfl).trans rfl)
theorem i2f (n : BitVec 1) (a : BitVec 7) (d : BitVec 7) : Statement (.i2f n a d) := of_word rfl (wordR_bit0 _ _ _ _ _ _) ((decode_fieldsR _ _ _ _ _ _ rfl rfl).trans rfl)
theorem u2f (n : BitVec 1) (a : BitVec 7) (d : BitVec 7) : Statement (.u2f n a d) := of_word rfl (wordR_bit0 _ _ _ _ _ _) ((decode_fieldsR _ _ _ _ _ _ rfl rfl).trans rfl)
theorem f2i (n : BitVec 1) (a : BitVec 7) (d : BitVec 7) : Statement (.f2i n a d) := of_word rfl (wordR_bit0 _ _ _ _ _ _) ((decode_fieldsR _ _ _ _ _ _ rfl rfl).trans rfl)
theorem f2u (n : BitVec 1) (a : BitVec 7) (d : BitVec 7) : Statement (.f2u n a d) := of_word rfl (wordR_bit0 _ _ _ _ _ _) ((decode_fieldsR _ _ _ _ _ _ rfl rfl).trans rfl)
theorem cvtBf2 (n : BitVec 1) (b : BitVec 7) (a : BitVec 7) (d : BitVec 7) : Statement (.cvtBf2 n b a d) := of_word rfl (wordR_bit0 _ _ _ _ _ _) ((decode_fieldsR _ _ _ _ _ _ rfl rfl).trans rfl)
theorem cvtHf2 (n : BitVec 1) (b : BitVec 7) (a : BitVec 7) (d : BitVec 7) : Statement (.cvtHf2 n b a d) := of_word rfl (wordR_bit0 _ _ _ _ _ _) ((decode_fieldsR _ _ _ _ _ _ rfl rfl).trans rfl)
theorem cvtE4 (b : BitVec 7) (a : BitVec 7) (d : BitVec 7) : Statement (.cvtE4 b a d) := of_word rfl (wordR_bit0 _ _ _ _ _ _) ((decode_fieldsR _ _ _ _ _ _ rfl rfl).trans rfl)
theorem cvtE5 (b : BitVec 7) (a : BitVec 7) (d : BitVec 7) : Statement (.cvtE5 b a d) := of_word rfl (wordR_bit0 _ _ _ _ _ _) ((decode_fieldsR _ _ _ _ _ _ rfl rfl).trans rfl)
theorem cvtsrE4 (b : BitVec 7) (a : BitVec 7) (d : BitVec 7) : Statement (.cvtsrE4 b a d) := of_word rfl (wordR_bit0 _ _ _ _ _ _) ((decode_fieldsR _ _ _ _ _ _ rfl rfl).trans rfl)
theorem cvtsrE5 (b : BitVec 7) (a : BitVec 7) (d : BitVec 7) : Statement (.cvtsrE5 b a d) := of_word rfl (wordR_bit0 _ _ _ _ _ _) ((decode_fieldsR _ _ _ _ _ _ rfl rfl).trans rfl)
theorem cvtsrE3m2 (b : BitVec 7) (a : BitVec 7) (d : BitVec 7) : Statement (.cvtsrE3m2 b a d) := of_word rfl (wordR_bit0 _ _ _ _ _ _) ((decode_fieldsR _ _ _ _ _ _ rfl rfl).trans rfl)
theorem cvtsrE2m1 (b : BitVec 7) (a : BitVec 7) (d : BitVec 7) : Statement (.cvtsrE2m1 b a d) := of_word rfl (wordR_bit0 _ _ _ _ _ _) ((decode_fieldsR _ _ _ _ _ _ rfl rfl).trans rfl)
theorem cvtE3m2 (a : BitVec 7) (d : BitVec 7) : Statement (.cvtE3m2 a d) := of_word rfl (wordR_bit0 _ _ _ _ _ _) ((decode_fieldsR _ _ _ _ _ _ rfl rfl).trans rfl)
theorem cvtE2m3 (a : BitVec 7) (d : BitVec 7) : Statement (.cvtE2m3 a d) := of_word rfl (wordR_bit0 _ _ _ _ _ _) ((decode_fieldsR _ _ _ _ _ _ rfl rfl).trans rfl)
theorem cvtE2m1 (a : BitVec 7) (d : BitVec 7) : Statement (.cvtE2m1 a d) := of_word rfl (wordR_bit0 _ _ _ _ _ _) ((decode_fieldsR _ _ _ _ _ _ rfl rfl).trans rfl)
theorem cvtsrBf (b : BitVec 7) (a : BitVec 7) (d : BitVec 7) : Statement (.cvtsrBf b a d) := of_word rfl (wordR_bit0 _ _ _ _ _ _) ((decode_fieldsR _ _ _ _ _ _ rfl rfl).trans rfl)
theorem unpBf (n : BitVec 1) (b : BitVec 7) (a : BitVec 7) (d : BitVec 7) : Statement (.unpBf n b a d) := of_word rfl (wordR_bit0 _ _ _ _ _ _) ((decode_fieldsR _ _ _ _ _ _ rfl rfl).trans rfl)
theorem unpHf (n : BitVec 1) (b : BitVec 7) (a : BitVec 7) (d : BitVec 7) : Statement (.unpHf n b a d) := of_word rfl (wordR_bit0 _ _ _ _ _ _) ((decode_fieldsR _ _ _ _ _ _ rfl rfl).trans rfl)
theorem unpE4 (n : BitVec 1) (b : BitVec 7) (a : BitVec 7) (d : BitVec 7) : Statement (.unpE4 n b a d) := of_word rfl (wordR_bit0 _ _ _ _ _ _) ((decode_fieldsR _ _ _ _ _ _ rfl rfl).trans rfl)
theorem unpE5 (n : BitVec 1) (b : BitVec 7) (a : BitVec 7) (d : BitVec 7) : Statement (.unpE5 n b a d) := of_word rfl (wordR_bit0 _ _ _ _ _ _) ((decode_fieldsR _ _ _ _ _ _ rfl rfl).trans rfl)
theorem unpE3m2 (n : BitVec 1) (b : BitVec 7) (a : BitVec 7) (d : BitVec 7) : Statement (.unpE3m2 n b a d) := of_word rfl (wordR_bit0 _ _ _ _ _ _) ((decode_fieldsR _ _ _ _ _ _ rfl rfl).trans rfl)
theorem unpE2m3 (n : BitVec 1) (b : BitVec 7) (a : BitVec 7) (d : BitVec 7) : Statement (.unpE2m3 n b a d) := of_word rfl (wordR_bit0 _ _ _ _ _ _) ((decode_fieldsR _ _ _ _ _ _ rfl rfl).trans rfl)
theorem unpE2m1 (n : BitVec 1) (b : BitVec 7) (a : BitVec 7) (d : BitVec 7) : Statement (.unpE2m1 n b a d) := of_word rfl (wordR_bit0 _ _ _ _ _ _) ((decode_fieldsR _ _ _ _ _ _ rfl rfl).trans rfl)
theorem cvtsrE2m3 (b : BitVec 7) (a : BitVec 7) (d : BitVec 7) : Statement (.cvtsrE2m3 b a d) := of_word rfl (wordR_bit0 _ _ _ _ _ _) ((decode_fieldsR _ _ _ _ _ _ rfl rfl).trans rfl)
theorem icmpeq (n : BitVec 1) (b : BitVec 7) (a : BitVec 7) (d : BitVec 7) : Statement (.icmpeq n b a d) := of_word rfl (wordR_bit0 _ _ _ _ _ _) ((decode_fieldsR _ _ _ _ _ _ rfl rfl).trans rfl)
theorem icmplt (n : BitVec 1) (b : BitVec 7) (a : BitVec 7) (d : BitVec 7) : Statement (.icmplt n b a d) := of_word rfl (wordR_bit0 _ _ _ _ _ _) ((decode_fieldsR _ _ _ _ _ _ rfl rfl).trans rfl)
theorem icmpltu (n : BitVec 1) (b : BitVec 7) (a : BitVec 7) (d : BitVec 7) : Statement (.icmpltu n b a d) := of_word rfl (wordR_bit0 _ _ _ _ _ _) ((decode_fieldsR _ _ _ _ _ _ rfl rfl).trans rfl)
theorem icmple (n : BitVec 1) (b : BitVec 7) (a : BitVec 7) (d : BitVec 7) : Statement (.icmple n b a d) := of_word rfl (wordR_bit0 _ _ _ _ _ _) ((decode_fieldsR _ _ _ _ _ _ rfl rfl).trans rfl)
theorem fcmpeq (n : BitVec 1) (b : BitVec 7) (a : BitVec 7) (d : BitVec 7) : Statement (.fcmpeq n b a d) := of_word rfl (wordR_bit0 _ _ _ _ _ _) ((decode_fieldsR _ _ _ _ _ _ rfl rfl).trans rfl)
theorem fcmplt (n : BitVec 1) (b : BitVec 7) (a : BitVec 7) (d : BitVec 7) : Statement (.fcmplt n b a d) := of_word rfl (wordR_bit0 _ _ _ _ _ _) ((decode_fieldsR _ _ _ _ _ _ rfl rfl).trans rfl)
theorem fcmple (n : BitVec 1) (b : BitVec 7) (a : BitVec 7) (d : BitVec 7) : Statement (.fcmple n b a d) := of_word rfl (wordR_bit0 _ _ _ _ _ _) ((decode_fieldsR _ _ _ _ _ _ rfl rfl).trans rfl)
theorem fcmpun (n : BitVec 1) (b : BitVec 7) (a : BitVec 7) (d : BitVec 7) : Statement (.fcmpun n b a d) := of_word rfl (wordR_bit0 _ _ _ _ _ _) ((decode_fieldsR _ _ _ _ _ _ rfl rfl).trans rfl)
theorem sel (b : BitVec 7) (a : BitVec 7) (d : BitVec 7) : Statement (.sel b a d) := of_word rfl (wordR_bit0 _ _ _ _ _ _) ((decode_fieldsR _ _ _ _ _ _ rfl rfl).trans rfl)
theorem ballot (n : BitVec 1) (a : BitVec 7) (d : BitVec 7) : Statement (.ballot n a d) := of_word rfl (wordR_bit0 _ _ _ _ _ _) ((decode_fieldsR _ _ _ _ _ _ rfl rfl).trans rfl)
theorem matchLanes (n : BitVec 1) (a : BitVec 7) (d : BitVec 7) : Statement (.matchLanes n a d) := of_word rfl (wordR_bit0 _ _ _ _ _ _) ((decode_fieldsR _ _ _ _ _ _ rfl rfl).trans rfl)
theorem laneid (n : BitVec 1) (d : BitVec 7) : Statement (.laneid n d) := of_word rfl (wordR_bit0 _ _ _ _ _ _) ((decode_fieldsR _ _ _ _ _ _ rfl rfl).trans rfl)
theorem shfl (n : BitVec 1) (b : BitVec 7) (a : BitVec 7) (d : BitVec 7) : Statement (.shfl n b a d) := of_word rfl (wordR_bit0 _ _ _ _ _ _) ((decode_fieldsR _ _ _ _ _ _ rfl rfl).trans rfl)
theorem shflup (n : BitVec 1) (b : BitVec 7) (a : BitVec 7) (d : BitVec 7) : Statement (.shflup n b a d) := of_word rfl (wordR_bit0 _ _ _ _ _ _) ((decode_fieldsR _ _ _ _ _ _ rfl rfl).trans rfl)
theorem shfldn (n : BitVec 1) (b : BitVec 7) (a : BitVec 7) (d : BitVec 7) : Statement (.shfldn n b a d) := of_word rfl (wordR_bit0 _ _ _ _ _ _) ((decode_fieldsR _ _ _ _ _ _ rfl rfl).trans rfl)
theorem shflx (n : BitVec 1) (b : BitVec 7) (a : BitVec 7) (d : BitVec 7) : Statement (.shflx n b a d) := of_word rfl (wordR_bit0 _ _ _ _ _ _) ((decode_fieldsR _ _ _ _ _ _ rfl rfl).trans rfl)
theorem rng4 (n : BitVec 1) (b : BitVec 7) (a : BitVec 7) (d : BitVec 7) : Statement (.rng4 n b a d) := of_word rfl (wordR_bit0 _ _ _ _ _ _) ((decode_fieldsR _ _ _ _ _ _ rfl rfl).trans rfl)
theorem rngu (n : BitVec 1) (b : BitVec 7) (a : BitVec 7) (d : BitVec 7) : Statement (.rngu n b a d) := of_word rfl (wordR_bit0 _ _ _ _ _ _) ((decode_fieldsR _ _ _ _ _ _ rfl rfl).trans rfl)
theorem rngb (n : BitVec 1) (b : BitVec 7) (a : BitVec 7) (d : BitVec 7) : Statement (.rngb n b a d) := of_word rfl (wordR_bit0 _ _ _ _ _ _) ((decode_fieldsR _ _ _ _ _ _ rfl rfl).trans rfl)
theorem mov (n : BitVec 1) (a : BitVec 7) (d : BitVec 7) : Statement (.mov n a d) := of_word rfl (wordR_bit0 _ _ _ _ _ _) ((decode_fieldsR _ _ _ _ _ _ rfl rfl).trans rfl)
theorem movg (n : BitVec 1) (a : BitVec 7) (d : BitVec 7) : Statement (.movg n a d) := of_word rfl (wordR_bit0 _ _ _ _ _ _) ((decode_fieldsR _ _ _ _ _ _ rfl rfl).trans rfl)
theorem movvg (a : BitVec 7) (d : BitVec 7) : Statement (.movvg a d) := of_word rfl (wordR_bit0 _ _ _ _ _ _) ((decode_fieldsR _ _ _ _ _ _ rfl rfl).trans rfl)
theorem movvgl (l : BitVec 5) (a : BitVec 7) (d : BitVec 7) : Statement (.movvgl l a d) := of_word rfl (wordR_bit0 _ _ _ _ _ _) ((decode_fieldsR _ _ _ _ _ _ rfl rfl).trans (by
  have h1 : (l.setWidth 7).extractLsb' 5 2 = 0#2 := extract_setWidth_high _ _ _
  have h2 : (l.setWidth 7).extractLsb' 0 5 = l := extract_setWidth _ _ (by decide)
  simp [decodeEngine, decodeLane, mbz, h1, h2]))
theorem iaddi (i : BitVec 10) (a : BitVec 7) (d : BitVec 7) : Statement (.iaddi i a d) := of_word rfl (wordI_bit0 _ _ _ _) ((decode_fieldsI _ _ _ _ rfl).trans rfl)
theorem andi (i : BitVec 10) (a : BitVec 7) (d : BitVec 7) : Statement (.andi i a d) := of_word rfl (wordI_bit0 _ _ _ _) ((decode_fieldsI _ _ _ _ rfl).trans rfl)
theorem ori (i : BitVec 10) (a : BitVec 7) (d : BitVec 7) : Statement (.ori i a d) := of_word rfl (wordI_bit0 _ _ _ _) ((decode_fieldsI _ _ _ _ rfl).trans rfl)
theorem xori (i : BitVec 10) (a : BitVec 7) (d : BitVec 7) : Statement (.xori i a d) := of_word rfl (wordI_bit0 _ _ _ _) ((decode_fieldsI _ _ _ _ rfl).trans rfl)
theorem shli (i : BitVec 5) (a : BitVec 7) (d : BitVec 7) : Statement (.shli i a d) := of_word rfl (wordI_bit0 _ _ _ _) ((decode_fieldsI _ _ _ _ rfl).trans (by
  have h1 : (i.setWidth 10).extractLsb' 5 5 = 0#5 := extract_setWidth_high _ _ _
  have h2 : (i.setWidth 10).extractLsb' 0 5 = i := extract_setWidth _ _ (by decide)
  simp [decodeImm, mbz, h1, h2]))
theorem shri (i : BitVec 5) (a : BitVec 7) (d : BitVec 7) : Statement (.shri i a d) := of_word rfl (wordI_bit0 _ _ _ _) ((decode_fieldsI _ _ _ _ rfl).trans (by
  have h1 : (i.setWidth 10).extractLsb' 5 5 = 0#5 := extract_setWidth_high _ _ _
  have h2 : (i.setWidth 10).extractLsb' 0 5 = i := extract_setWidth _ _ (by decide)
  simp [decodeImm, mbz, h1, h2]))
theorem srai (i : BitVec 5) (a : BitVec 7) (d : BitVec 7) : Statement (.srai i a d) := of_word rfl (wordI_bit0 _ _ _ _) ((decode_fieldsI _ _ _ _ rfl).trans (by
  have h1 : (i.setWidth 10).extractLsb' 5 5 = 0#5 := extract_setWidth_high _ _ _
  have h2 : (i.setWidth 10).extractLsb' 0 5 = i := extract_setWidth _ _ (by decide)
  simp [decodeImm, mbz, h1, h2]))
theorem icmplti (i : BitVec 10) (a : BitVec 7) (d : BitVec 7) : Statement (.icmplti i a d) := of_word rfl (wordI_bit0 _ _ _ _) ((decode_fieldsI _ _ _ _ rfl).trans rfl)
theorem icmpeqi (i : BitVec 10) (a : BitVec 7) (d : BitVec 7) : Statement (.icmpeqi i a d) := of_word rfl (wordI_bit0 _ _ _ _) ((decode_fieldsI _ _ _ _ rfl).trans rfl)
theorem imuli (i : BitVec 10) (a : BitVec 7) (d : BitVec 7) : Statement (.imuli i a d) := of_word rfl (wordI_bit0 _ _ _ _) ((decode_fieldsI _ _ _ _ rfl).trans rfl)
theorem movi (i : BitVec 17) (d : BitVec 7) : Statement (.movi i d) := of_word rfl (wordL_bit0 _ _ _) ((decode_fieldsL _ _ _ rfl).trans rfl)
theorem movh (i : BitVec 16) (d : BitVec 7) : Statement (.movh i d) := of_word rfl (wordL_bit0 _ _ _) ((decode_fieldsL _ _ _ rfl).trans (by
  have h1 : (i.setWidth 17).extractLsb' 16 1 = 0#1 := extract_setWidth_high _ _ _
  have h2 : (i.setWidth 17).extractLsb' 0 16 = i := extract_setWidth _ _ (by decide)
  simp [decodeImm, mbz, h1, h2]))
theorem srd (i : BitVec 10) (d : BitVec 7) : Statement (.srd i d) := of_word rfl (wordI_bit0 _ _ _ _) ((decode_fieldsI _ _ _ _ rfl).trans rfl)
theorem iadd16 (n : BitVec 1) (a : BitVec 5) (d : BitVec 5) : Statement (.iadd16 n a d) := of_half rfl (wordH_bit0 _ _ _ _) fun hi => by
  refine (decode_fieldsH n a d 0#4 ?_).trans rfl
  intro e
  apply hi
  have h1 : n = 0 := by
    have := congrArg (fun x : Half => x.extractLsb' 15 1) e
    simp only [wordH] at this
    rw [extract_high _ 0#1 _ _ (by decide), extract_high _ _ _ _ (by decide), extract_high _ _ _ _ (by decide),
      extract_high _ _ _ _ (by decide)] at this
    rw [← extract_all n]; simpa using this
  have h2 : a = 0 := by
    have := congrArg (fun x : Half => x.extractLsb' 10 5) e
    simp only [wordH] at this
    rw [extract_high _ 0#1 _ _ (by decide), extract_high _ _ _ _ (by decide), extract_high _ _ _ _ (by decide),
      extract_low _ _ _ _ (by decide)] at this
    rw [← extract_all a]; simpa using this
  have h3 : d = 0 := by
    have := congrArg (fun x : Half => x.extractLsb' 5 5) e
    simp only [wordH] at this
    rw [extract_high _ 0#1 _ _ (by decide), extract_high _ _ _ _ (by decide), extract_low _ _ _ _ (by decide)] at this
    rw [← extract_all d]; simpa using this
  rw [h1, h2, h3]
theorem isub16 (n : BitVec 1) (a : BitVec 5) (d : BitVec 5) : Statement (.isub16 n a d) := of_half rfl (wordH_bit0 _ _ _ _) fun _ => (decode_fieldsH _ _ _ _ (wordH_ne (by decide))).trans rfl
theorem imul16 (n : BitVec 1) (a : BitVec 5) (d : BitVec 5) : Statement (.imul16 n a d) := of_half rfl (wordH_bit0 _ _ _ _) fun _ => (decode_fieldsH _ _ _ _ (wordH_ne (by decide))).trans rfl
theorem and16 (n : BitVec 1) (a : BitVec 5) (d : BitVec 5) : Statement (.and16 n a d) := of_half rfl (wordH_bit0 _ _ _ _) fun _ => (decode_fieldsH _ _ _ _ (wordH_ne (by decide))).trans rfl
theorem or16 (n : BitVec 1) (a : BitVec 5) (d : BitVec 5) : Statement (.or16 n a d) := of_half rfl (wordH_bit0 _ _ _ _) fun _ => (decode_fieldsH _ _ _ _ (wordH_ne (by decide))).trans rfl
theorem xor16 (n : BitVec 1) (a : BitVec 5) (d : BitVec 5) : Statement (.xor16 n a d) := of_half rfl (wordH_bit0 _ _ _ _) fun _ => (decode_fieldsH _ _ _ _ (wordH_ne (by decide))).trans rfl
theorem shli16 (n : BitVec 1) (i : BitVec 5) (d : BitVec 5) : Statement (.shli16 n i d) := of_half rfl (wordH_bit0 _ _ _ _) fun _ => (decode_fieldsH _ _ _ _ (wordH_ne (by decide))).trans rfl
theorem shri16 (n : BitVec 1) (i : BitVec 5) (d : BitVec 5) : Statement (.shri16 n i d) := of_half rfl (wordH_bit0 _ _ _ _) fun _ => (decode_fieldsH _ _ _ _ (wordH_ne (by decide))).trans rfl
theorem mov16 (n : BitVec 1) (a : BitVec 5) (d : BitVec 5) : Statement (.mov16 n a d) := of_half rfl (wordH_bit0 _ _ _ _) fun _ => (decode_fieldsH _ _ _ _ (wordH_ne (by decide))).trans rfl
theorem movi5 (n : BitVec 1) (i : BitVec 5) (d : BitVec 5) : Statement (.movi5 n i d) := of_half rfl (wordH_bit0 _ _ _ _) fun _ => (decode_fieldsH _ _ _ _ (wordH_ne (by decide))).trans rfl
theorem fadd16 (n : BitVec 1) (a : BitVec 5) (d : BitVec 5) : Statement (.fadd16 n a d) := of_half rfl (wordH_bit0 _ _ _ _) fun _ => (decode_fieldsH _ _ _ _ (wordH_ne (by decide))).trans rfl
theorem fsub16 (n : BitVec 1) (a : BitVec 5) (d : BitVec 5) : Statement (.fsub16 n a d) := of_half rfl (wordH_bit0 _ _ _ _) fun _ => (decode_fieldsH _ _ _ _ (wordH_ne (by decide))).trans rfl
theorem fmul16 (n : BitVec 1) (a : BitVec 5) (d : BitVec 5) : Statement (.fmul16 n a d) := of_half rfl (wordH_bit0 _ _ _ _) fun _ => (decode_fieldsH _ _ _ _ (wordH_ne (by decide))).trans rfl
theorem fmax16 (n : BitVec 1) (a : BitVec 5) (d : BitVec 5) : Statement (.fmax16 n a d) := of_half rfl (wordH_bit0 _ _ _ _) fun _ => (decode_fieldsH _ _ _ _ (wordH_ne (by decide))).trans rfl
theorem icmplt16 (n : BitVec 1) (a : BitVec 5) (d : BitVec 5) : Statement (.icmplt16 n a d) := of_half rfl (wordH_bit0 _ _ _ _) fun _ => (decode_fieldsH _ _ _ _ (wordH_ne (by decide))).trans rfl
theorem nop : Statement (.nop) := of_half rfl (wordH_bit0 _ _ _ _) fun _ => (decode_fieldsH _ _ _ _ (wordH_ne (by decide))).trans rfl
theorem gadd (b : BitVec 7) (a : BitVec 7) (d : BitVec 7) : Statement (.gadd b a d) := of_word rfl (wordR_bit0 _ _ _ _ _ _) ((decode_fieldsR _ _ _ _ _ _ rfl rfl).trans rfl)
theorem gsub (b : BitVec 7) (a : BitVec 7) (d : BitVec 7) : Statement (.gsub b a d) := of_word rfl (wordR_bit0 _ _ _ _ _ _) ((decode_fieldsR _ _ _ _ _ _ rfl rfl).trans rfl)
theorem gmul (b : BitVec 7) (a : BitVec 7) (d : BitVec 7) : Statement (.gmul b a d) := of_word rfl (wordR_bit0 _ _ _ _ _ _) ((decode_fieldsR _ _ _ _ _ _ rfl rfl).trans rfl)
theorem gmad (b : BitVec 7) (a : BitVec 7) (d : BitVec 7) : Statement (.gmad b a d) := of_word rfl (wordR_bit0 _ _ _ _ _ _) ((decode_fieldsR _ _ _ _ _ _ rfl rfl).trans rfl)
theorem gand (b : BitVec 7) (a : BitVec 7) (d : BitVec 7) : Statement (.gand b a d) := of_word rfl (wordR_bit0 _ _ _ _ _ _) ((decode_fieldsR _ _ _ _ _ _ rfl rfl).trans rfl)
theorem gor (b : BitVec 7) (a : BitVec 7) (d : BitVec 7) : Statement (.gor b a d) := of_word rfl (wordR_bit0 _ _ _ _ _ _) ((decode_fieldsR _ _ _ _ _ _ rfl rfl).trans rfl)
theorem gxor (b : BitVec 7) (a : BitVec 7) (d : BitVec 7) : Statement (.gxor b a d) := of_word rfl (wordR_bit0 _ _ _ _ _ _) ((decode_fieldsR _ _ _ _ _ _ rfl rfl).trans rfl)
theorem gandn (b : BitVec 7) (a : BitVec 7) (d : BitVec 7) : Statement (.gandn b a d) := of_word rfl (wordR_bit0 _ _ _ _ _ _) ((decode_fieldsR _ _ _ _ _ _ rfl rfl).trans rfl)
theorem gshl (b : BitVec 7) (a : BitVec 7) (d : BitVec 7) : Statement (.gshl b a d) := of_word rfl (wordR_bit0 _ _ _ _ _ _) ((decode_fieldsR _ _ _ _ _ _ rfl rfl).trans rfl)
theorem gshr (b : BitVec 7) (a : BitVec 7) (d : BitVec 7) : Statement (.gshr b a d) := of_word rfl (wordR_bit0 _ _ _ _ _ _) ((decode_fieldsR _ _ _ _ _ _ rfl rfl).trans rfl)
theorem gsra (b : BitVec 7) (a : BitVec 7) (d : BitVec 7) : Statement (.gsra b a d) := of_word rfl (wordR_bit0 _ _ _ _ _ _) ((decode_fieldsR _ _ _ _ _ _ rfl rfl).trans rfl)
theorem gmin (b : BitVec 7) (a : BitVec 7) (d : BitVec 7) : Statement (.gmin b a d) := of_word rfl (wordR_bit0 _ _ _ _ _ _) ((decode_fieldsR _ _ _ _ _ _ rfl rfl).trans rfl)
theorem gcmpeq (b : BitVec 7) (a : BitVec 7) (d : BitVec 7) : Statement (.gcmpeq b a d) := of_word rfl (wordR_bit0 _ _ _ _ _ _) ((decode_fieldsR _ _ _ _ _ _ rfl rfl).trans rfl)
theorem gcmplt (b : BitVec 7) (a : BitVec 7) (d : BitVec 7) : Statement (.gcmplt b a d) := of_word rfl (wordR_bit0 _ _ _ _ _ _) ((decode_fieldsR _ _ _ _ _ _ rfl rfl).trans rfl)
theorem gcmpltu (b : BitVec 7) (a : BitVec 7) (d : BitVec 7) : Statement (.gcmpltu b a d) := of_word rfl (wordR_bit0 _ _ _ _ _ _) ((decode_fieldsR _ _ _ _ _ _ rfl rfl).trans rfl)
theorem gmax (b : BitVec 7) (a : BitVec 7) (d : BitVec 7) : Statement (.gmax b a d) := of_word rfl (wordR_bit0 _ _ _ _ _ _) ((decode_fieldsR _ _ _ _ _ _ rfl rfl).trans rfl)
theorem gaddi (i : BitVec 10) (a : BitVec 7) (d : BitVec 7) : Statement (.gaddi i a d) := of_word rfl (wordI_bit0 _ _ _ _) ((decode_fieldsI _ _ _ _ rfl).trans rfl)
theorem gmovi (i : BitVec 17) (d : BitVec 7) : Statement (.gmovi i d) := of_word rfl (wordL_bit0 _ _ _) ((decode_fieldsL _ _ _ rfl).trans rfl)
theorem gshi16 (i : BitVec 16) (d : BitVec 7) : Statement (.gshi16 i d) := of_word rfl (wordL_bit0 _ _ _) ((decode_fieldsL _ _ _ rfl).trans (by
  have h1 : (i.setWidth 17).extractLsb' 16 1 = 0#1 := extract_setWidth_high _ _ _
  have h2 : (i.setWidth 17).extractLsb' 0 16 = i := extract_setWidth _ _ (by decide)
  simp [decodeImm, mbz, h1, h2]))
theorem gsrd (b : BitVec 7) (d : BitVec 7) : Statement (.gsrd b d) := of_word rfl (wordR_bit0 _ _ _ _ _ _) ((decode_fieldsR _ _ _ _ _ _ rfl rfl).trans rfl)
theorem gswr (b : BitVec 7) (a : BitVec 7) : Statement (.gswr b a) := of_word rfl (wordR_bit0 _ _ _ _ _ _) ((decode_fieldsR _ _ _ _ _ _ rfl rfl).trans rfl)
theorem xlt (b : BitVec 7) (a : BitVec 7) (d : BitVec 7) : Statement (.xlt b a d) := of_word rfl (wordR_bit0 _ _ _ _ _ _) ((decode_fieldsR _ _ _ _ _ _ rfl rfl).trans rfl)
theorem gmov (a : BitVec 7) (d : BitVec 7) : Statement (.gmov a d) := of_word rfl (wordR_bit0 _ _ _ _ _ _) ((decode_fieldsR _ _ _ _ _ _ rfl rfl).trans rfl)
theorem bra (x : BitVec 17) : Statement (.bra x) := of_word rfl (wordL_bit0 _ _ _) ((decode_fieldsL _ _ _ rfl).trans rfl)
theorem brg (x : BitVec 17) (p : BitVec 7) : Statement (.brg x p) := of_word rfl (wordL_bit0 _ _ _) ((decode_fieldsL _ _ _ rfl).trans rfl)
theorem brzg (x : BitVec 17) (p : BitVec 7) : Statement (.brzg x p) := of_word rfl (wordL_bit0 _ _ _) ((decode_fieldsL _ _ _ rfl).trans rfl)
theorem brv (x : BitVec 17) (p : BitVec 7) : Statement (.brv x p) := of_word rfl (wordL_bit0 _ _ _) ((decode_fieldsL _ _ _ rfl).trans rfl)
theorem call (x : BitVec 17) : Statement (.call x) := of_word rfl (wordL_bit0 _ _ _) ((decode_fieldsL _ _ _ rfl).trans rfl)
theorem ret : Statement (.ret) := of_word rfl (wordR_bit0 _ _ _ _ _ _) ((decode_fieldsR _ _ _ _ _ _ rfl rfl).trans rfl)
theorem jmpg (a : BitVec 7) : Statement (.jmpg a) := of_word rfl (wordR_bit0 _ _ _ _ _ _) ((decode_fieldsR _ _ _ _ _ _ rfl rfl).trans rfl)
theorem fuse : Statement (.fuse) := of_word rfl (wordR_bit0 _ _ _ _ _ _) ((decode_fieldsR _ _ _ _ _ _ rfl rfl).trans rfl)
theorem exit : Statement (.exit) := of_word rfl (wordR_bit0 _ _ _ _ _ _) ((decode_fieldsR _ _ _ _ _ _ rfl rfl).trans rfl)
theorem emrd (d : BitVec 7) : Statement (.emrd d) := of_word rfl (wordR_bit0 _ _ _ _ _ _) ((decode_fieldsR _ _ _ _ _ _ rfl rfl).trans rfl)
theorem emwr (a : BitVec 7) : Statement (.emwr a) := of_word rfl (wordR_bit0 _ _ _ _ _ _) ((decode_fieldsR _ _ _ _ _ _ rfl rfl).trans rfl)
theorem yield : Statement (.yield) := of_word rfl (wordR_bit0 _ _ _ _ _ _) ((decode_fieldsR _ _ _ _ _ _ rfl rfl).trans rfl)
theorem bkpt : Statement (.bkpt) := of_word rfl (wordR_bit0 _ _ _ _ _ _) ((decode_fieldsR _ _ _ _ _ _ rfl rfl).trans rfl)
theorem mskip (x : BitVec 17) (p : BitVec 7) : Statement (.mskip x p) := of_word rfl (wordL_bit0 _ _ _) ((decode_fieldsL _ _ _ rfl).trans rfl)
theorem ld32 (f : BitVec 5) (a : BitVec 7) (d : BitVec 7) : Statement (.ld32 f a d) := of_word rfl (wordM_bit0 _ _ _ _ _ _) ((decode_fieldsM _ _ _ _ _ _ rfl rfl).trans rfl)
theorem ld64 (f : BitVec 5) (a : BitVec 7) (d : BitVec 7) : Statement (.ld64 f a d) := of_word rfl (wordM_bit0 _ _ _ _ _ _) ((decode_fieldsM _ _ _ _ _ _ rfl rfl).trans rfl)
theorem ld128 (f : BitVec 5) (a : BitVec 7) (d : BitVec 7) : Statement (.ld128 f a d) := of_word rfl (wordM_bit0 _ _ _ _ _ _) ((decode_fieldsM _ _ _ _ _ _ rfl rfl).trans rfl)
theorem ld16 (f : BitVec 5) (a : BitVec 7) (d : BitVec 7) : Statement (.ld16 f a d) := of_word rfl (wordM_bit0 _ _ _ _ _ _) ((decode_fieldsM _ _ _ _ _ _ rfl rfl).trans rfl)
theorem st32 (f : BitVec 5) (a : BitVec 7) (d : BitVec 7) : Statement (.st32 f a d) := of_word rfl (wordM_bit0 _ _ _ _ _ _) ((decode_fieldsM _ _ _ _ _ _ rfl rfl).trans rfl)
theorem st64 (f : BitVec 5) (a : BitVec 7) (d : BitVec 7) : Statement (.st64 f a d) := of_word rfl (wordM_bit0 _ _ _ _ _ _) ((decode_fieldsM _ _ _ _ _ _ rfl rfl).trans rfl)
theorem st128 (f : BitVec 5) (a : BitVec 7) (d : BitVec 7) : Statement (.st128 f a d) := of_word rfl (wordM_bit0 _ _ _ _ _ _) ((decode_fieldsM _ _ _ _ _ _ rfl rfl).trans rfl)
theorem st16 (f : BitVec 5) (a : BitVec 7) (d : BitVec 7) : Statement (.st16 f a d) := of_word rfl (wordM_bit0 _ _ _ _ _ _) ((decode_fieldsM _ _ _ _ _ _ rfl rfl).trans rfl)
theorem ld8 (f : BitVec 5) (a : BitVec 7) (d : BitVec 7) : Statement (.ld8 f a d) := of_word rfl (wordM_bit0 _ _ _ _ _ _) ((decode_fieldsM _ _ _ _ _ _ rfl rfl).trans rfl)
theorem st8 (f : BitVec 5) (a : BitVec 7) (d : BitVec 7) : Statement (.st8 f a d) := of_word rfl (wordM_bit0 _ _ _ _ _ _) ((decode_fieldsM _ _ _ _ _ _ rfl rfl).trans rfl)
theorem ldnb (f : BitVec 5) (a : BitVec 7) (d : BitVec 7) : Statement (.ldnb f a d) := of_word rfl (wordM_bit0 _ _ _ _ _ _) ((decode_fieldsM _ _ _ _ _ _ rfl rfl).trans rfl)
theorem stva (f : BitVec 5) (a : BitVec 7) (d : BitVec 7) : Statement (.stva f a d) := of_word rfl (wordM_bit0 _ _ _ _ _ _) ((decode_fieldsM _ _ _ _ _ _ rfl rfl).trans rfl)
theorem atadd (c : BitVec 3) (f : BitVec 5) (a : BitVec 7) (d : BitVec 7) : Statement (.atadd c f a d) := of_word rfl (wordM_bit0 _ _ _ _ _ _) ((decode_fieldsM _ _ _ _ _ _ rfl rfl).trans rfl)
theorem atmax (c : BitVec 3) (f : BitVec 5) (a : BitVec 7) (d : BitVec 7) : Statement (.atmax c f a d) := of_word rfl (wordM_bit0 _ _ _ _ _ _) ((decode_fieldsM _ _ _ _ _ _ rfl rfl).trans rfl)
theorem atxch (c : BitVec 3) (f : BitVec 5) (a : BitVec 7) (d : BitVec 7) : Statement (.atxch c f a d) := of_word rfl (wordM_bit0 _ _ _ _ _ _) ((decode_fieldsM _ _ _ _ _ _ rfl rfl).trans rfl)
theorem atcas (c : BitVec 3) (f : BitVec 5) (a : BitVec 7) (d : BitVec 7) : Statement (.atcas c f a d) := of_word rfl (wordM_bit0 _ _ _ _ _ _) ((decode_fieldsM _ _ _ _ _ _ rfl rfl).trans rfl)
theorem ator (c : BitVec 3) (f : BitVec 5) (a : BitVec 7) (d : BitVec 7) : Statement (.ator c f a d) := of_word rfl (wordM_bit0 _ _ _ _ _ _) ((decode_fieldsM _ _ _ _ _ _ rfl rfl).trans rfl)
theorem atand (c : BitVec 3) (f : BitVec 5) (a : BitVec 7) (d : BitVec 7) : Statement (.atand c f a d) := of_word rfl (wordM_bit0 _ _ _ _ _ _) ((decode_fieldsM _ _ _ _ _ _ rfl rfl).trans rfl)
theorem atfadd (c : BitVec 3) (f : BitVec 5) (a : BitVec 7) (d : BitVec 7) : Statement (.atfadd c f a d) := of_word rfl (wordM_bit0 _ _ _ _ _ _) ((decode_fieldsM _ _ _ _ _ _ rfl rfl).trans rfl)
theorem atmin (c : BitVec 3) (f : BitVec 5) (a : BitVec 7) (d : BitVec 7) : Statement (.atmin c f a d) := of_word rfl (wordM_bit0 _ _ _ _ _ _) ((decode_fieldsM _ _ _ _ _ _ rfl rfl).trans rfl)
theorem fence (c : BitVec 3) (f : BitVec 5) : Statement (.fence c f) := of_word rfl (wordM_bit0 _ _ _ _ _ _) ((decode_fieldsM _ _ _ _ _ _ rfl rfl).trans rfl)
theorem fenceE (c : BitVec 3) (f : BitVec 5) : Statement (.fenceE c f) := of_word rfl (wordM_bit0 _ _ _ _ _ _) ((decode_fieldsM _ _ _ _ _ _ rfl rfl).trans rfl)
theorem ldaq (c : BitVec 3) (f : BitVec 5) (a : BitVec 7) (d : BitVec 7) : Statement (.ldaq c f a d) := of_word rfl (wordM_bit0 _ _ _ _ _ _) ((decode_fieldsM _ _ _ _ _ _ rfl rfl).trans rfl)
theorem strl (c : BitVec 3) (f : BitVec 5) (a : BitVec 7) (d : BitVec 7) : Statement (.strl c f a d) := of_word rfl (wordM_bit0 _ _ _ _ _ _) ((decode_fieldsM _ _ _ _ _ _ rfl rfl).trans rfl)
theorem gld (f : BitVec 5) (a : BitVec 7) (d : BitVec 7) : Statement (.gld f a d) := of_word rfl (wordM_bit0 _ _ _ _ _ _) ((decode_fieldsM _ _ _ _ _ _ rfl rfl).trans rfl)
theorem gst (f : BitVec 5) (a : BitVec 7) (d : BitVec 7) : Statement (.gst f a d) := of_word rfl (wordM_bit0 _ _ _ _ _ _) ((decode_fieldsM _ _ _ _ _ _ rfl rfl).trans rfl)
theorem gldaq (c : BitVec 3) (f : BitVec 5) (a : BitVec 7) (d : BitVec 7) : Statement (.gldaq c f a d) := of_word rfl (wordM_bit0 _ _ _ _ _ _) ((decode_fieldsM _ _ _ _ _ _ rfl rfl).trans rfl)
theorem gstrl (c : BitVec 3) (f : BitVec 5) (a : BitVec 7) (d : BitVec 7) : Statement (.gstrl c f a d) := of_word rfl (wordM_bit0 _ _ _ _ _ _) ((decode_fieldsM _ _ _ _ _ _ rfl rfl).trans rfl)
theorem tdef (b : BitVec 7) (a : BitVec 7) : Statement (.tdef b a) := of_word rfl (wordR_bit0 _ _ _ _ _ _) ((decode_fieldsR _ _ _ _ _ _ rfl rfl).trans rfl)
theorem tqry (b : BitVec 7) (a : BitVec 7) (d : BitVec 7) : Statement (.tqry b a d) := of_word rfl (wordR_bit0 _ _ _ _ _ _) ((decode_fieldsR _ _ _ _ _ _ rfl rfl).trans rfl)
theorem tfree (a : BitVec 7) : Statement (.tfree a) := of_word rfl (wordR_bit0 _ _ _ _ _ _) ((decode_fieldsR _ _ _ _ _ _ rfl rfl).trans rfl)
theorem tscl (b : BitVec 7) (a : BitVec 7) : Statement (.tscl b a) := of_word rfl (wordR_bit0 _ _ _ _ _ _) ((decode_fieldsR _ _ _ _ _ _ rfl rfl).trans rfl)
theorem cpy (b : BitVec 7) (a : BitVec 7) (d : BitVec 7) : Statement (.cpy b a d) := of_word rfl (wordR_bit0 _ _ _ _ _ _) ((decode_fieldsR _ _ _ _ _ _ rfl rfl).trans rfl)
theorem cpyt (b : BitVec 7) (a : BitVec 7) (d : BitVec 7) : Statement (.cpyt b a d) := of_word rfl (wordR_bit0 _ _ _ _ _ _) ((decode_fieldsR _ _ _ _ _ _ rfl rfl).trans rfl)
theorem gath (b : BitVec 7) (a : BitVec 7) (d : BitVec 7) : Statement (.gath b a d) := of_word rfl (wordR_bit0 _ _ _ _ _ _) ((decode_fieldsR _ _ _ _ _ _ rfl rfl).trans rfl)
theorem scat (b : BitVec 7) (a : BitVec 7) (d : BitVec 7) : Statement (.scat b a d) := of_word rfl (wordR_bit0 _ _ _ _ _ _) ((decode_fieldsR _ _ _ _ _ _ rfl rfl).trans rfl)
theorem balloc (b : BitVec 7) (a : BitVec 7) (d : BitVec 7) : Statement (.balloc b a d) := of_word rfl (wordR_bit0 _ _ _ _ _ _) ((decode_fieldsR _ _ _ _ _ _ rfl rfl).trans rfl)
theorem bfree (a : BitVec 7) : Statement (.bfree a) := of_word rfl (wordR_bit0 _ _ _ _ _ _) ((decode_fieldsR _ _ _ _ _ _ rfl rfl).trans rfl)
theorem bexp (b : BitVec 7) (a : BitVec 7) : Statement (.bexp b a) := of_word rfl (wordR_bit0 _ _ _ _ _ _) ((decode_fieldsR _ _ _ _ _ _ rfl rfl).trans rfl)
theorem barv (b : BitVec 7) (a : BitVec 7) (d : BitVec 7) : Statement (.barv b a d) := of_word rfl (wordR_bit0 _ _ _ _ _ _) ((decode_fieldsR _ _ _ _ _ _ rfl rfl).trans rfl)
theorem bwait (b : BitVec 7) (a : BitVec 7) (d : BitVec 7) : Statement (.bwait b a d) := of_word rfl (wordR_bit0 _ _ _ _ _ _) ((decode_fieldsR _ _ _ _ _ _ rfl rfl).trans rfl)
theorem bwaitt (b : BitVec 7) (a : BitVec 7) (d : BitVec 7) : Statement (.bwaitt b a d) := of_word rfl (wordR_bit0 _ _ _ _ _ _) ((decode_fieldsR _ _ _ _ _ _ rfl rfl).trans rfl)
theorem btest (a : BitVec 7) (d : BitVec 7) : Statement (.btest a d) := of_word rfl (wordR_bit0 _ _ _ _ _ _) ((decode_fieldsR _ _ _ _ _ _ rfl rfl).trans rfl)
theorem bref (b : BitVec 7) (a : BitVec 7) (d : BitVec 7) : Statement (.bref b a d) := of_word rfl (wordR_bit0 _ _ _ _ _ _) ((decode_fieldsR _ _ _ _ _ _ rfl rfl).trans rfl)
theorem mfeed (a : BitVec 7) : Statement (.mfeed a) := of_word rfl (wordR_bit0 _ _ _ _ _ _) ((decode_fieldsR _ _ _ _ _ _ rfl rfl).trans rfl)
theorem mdrain (a : BitVec 7) : Statement (.mdrain a) := of_word rfl (wordR_bit0 _ _ _ _ _ _) ((decode_fieldsR _ _ _ _ _ _ rfl rfl).trans rfl)
theorem msig (b : BitVec 7) (a : BitVec 7) (d : BitVec 7) : Statement (.msig b a d) := of_word rfl (wordR_bit0 _ _ _ _ _ _) ((decode_fieldsR _ _ _ _ _ _ rfl rfl).trans rfl)
theorem mrecv (d : BitVec 7) : Statement (.mrecv d) := of_word rfl (wordR_bit0 _ _ _ _ _ _) ((decode_fieldsR _ _ _ _ _ _ rfl rfl).trans rfl)
theorem datt (b : BitVec 7) (a : BitVec 7) : Statement (.datt b a) := of_word rfl (wordR_bit0 _ _ _ _ _ _) ((decode_fieldsR _ _ _ _ _ _ rfl rfl).trans rfl)
theorem ddist (b : BitVec 7) (a : BitVec 7) : Statement (.ddist b a) := of_word rfl (wordR_bit0 _ _ _ _ _ _) ((decode_fieldsR _ _ _ _ _ _ rfl rfl).trans rfl)
theorem dtopk (b : BitVec 7) (a : BitVec 7) : Statement (.dtopk b a) := of_word rfl (wordR_bit0 _ _ _ _ _ _) ((decode_fieldsR _ _ _ _ _ _ rfl rfl).trans rfl)
theorem dkvap (b : BitVec 7) (a : BitVec 7) : Statement (.dkvap b a) := of_word rfl (wordR_bit0 _ _ _ _ _ _) ((decode_fieldsR _ _ _ _ _ _ rfl rfl).trans rfl)
theorem kvres (a : BitVec 7) (d : BitVec 7) : Statement (.kvres a d) := of_word rfl (wordR_bit0 _ _ _ _ _ _) ((decode_fieldsR _ _ _ _ _ _ rfl rfl).trans rfl)
theorem kvreq (b : BitVec 7) (a : BitVec 7) (d : BitVec 7) : Statement (.kvreq b a d) := of_word rfl (wordR_bit0 _ _ _ _ _ _) ((decode_fieldsR _ _ _ _ _ _ rfl rfl).trans rfl)
theorem kvpin (b : BitVec 7) (a : BitVec 7) (d : BitVec 7) : Statement (.kvpin b a d) := of_word rfl (wordR_bit0 _ _ _ _ _ _) ((decode_fieldsR _ _ _ _ _ _ rfl rfl).trans rfl)
theorem kvrel (b : BitVec 7) (a : BitVec 7) (d : BitVec 7) : Statement (.kvrel b a d) := of_word rfl (wordR_bit0 _ _ _ _ _ _) ((decode_fieldsR _ _ _ _ _ _ rfl rfl).trans rfl)
theorem lnch (b : BitVec 7) (a : BitVec 7) (d : BitVec 7) : Statement (.lnch b a d) := of_word rfl (wordR_bit0 _ _ _ _ _ _) ((decode_fieldsR _ _ _ _ _ _ rfl rfl).trans rfl)
theorem lnchc (b : BitVec 7) (a : BitVec 7) (d : BitVec 7) : Statement (.lnchc b a d) := of_word rfl (wordR_bit0 _ _ _ _ _ _) ((decode_fieldsR _ _ _ _ _ _ rfl rfl).trans rfl)
theorem cancel (a : BitVec 7) (d : BitVec 7) : Statement (.cancel a d) := of_word rfl (wordR_bit0 _ _ _ _ _ _) ((decode_fieldsR _ _ _ _ _ _ rfl rfl).trans rfl)
theorem ccnt (a : BitVec 7) (d : BitVec 7) : Statement (.ccnt a d) := of_word rfl (wordR_bit0 _ _ _ _ _ _) ((decode_fieldsR _ _ _ _ _ _ rfl rfl).trans rfl)
theorem ticket (a : BitVec 7) (d : BitVec 7) : Statement (.ticket a d) := of_word rfl (wordR_bit0 _ _ _ _ _ _) ((decode_fieldsR _ _ _ _ _ _ rfl rfl).trans rfl)
theorem redeem (b : BitVec 7) (a : BitVec 7) (d : BitVec 7) : Statement (.redeem b a d) := of_word rfl (wordR_bit0 _ _ _ _ _ _) ((decode_fieldsR _ _ _ _ _ _ rfl rfl).trans rfl)
theorem tkqry (b : BitVec 7) (a : BitVec 7) (d : BitVec 7) : Statement (.tkqry b a d) := of_word rfl (wordR_bit0 _ _ _ _ _ _) ((decode_fieldsR _ _ _ _ _ _ rfl rfl).trans rfl)
theorem tkdrop (a : BitVec 7) (d : BitVec 7) : Statement (.tkdrop a d) := of_word rfl (wordR_bit0 _ _ _ _ _ _) ((decode_fieldsR _ _ _ _ _ _ rfl rfl).trans rfl)
theorem upd (b : BitVec 7) (a : BitVec 7) : Statement (.upd b a) := of_word rfl (wordR_bit0 _ _ _ _ _ _) ((decode_fieldsR _ _ _ _ _ _ rfl rfl).trans rfl)
theorem wvpub (a : BitVec 7) (d : BitVec 7) : Statement (.wvpub a d) := of_word rfl (wordR_bit0 _ _ _ _ _ _) ((decode_fieldsR _ _ _ _ _ _ rfl rfl).trans rfl)
theorem wvret (b : BitVec 7) (a : BitVec 7) (d : BitVec 7) : Statement (.wvret b a d) := of_word rfl (wordR_bit0 _ _ _ _ _ _) ((decode_fieldsR _ _ _ _ _ _ rfl rfl).trans rfl)
theorem norm (b : BitVec 7) (a : BitVec 7) : Statement (.norm b a) := of_word rfl (wordR_bit0 _ _ _ _ _ _) ((decode_fieldsR _ _ _ _ _ _ rfl rfl).trans rfl)
theorem regq (b : BitVec 7) (a : BitVec 7) (d : BitVec 7) : Statement (.regq b a d) := of_word rfl (wordR_bit0 _ _ _ _ _ _) ((decode_fieldsR _ _ _ _ _ _ rfl rfl).trans rfl)
theorem snapm (d : BitVec 7) : Statement (.snapm d) := of_word rfl (wordR_bit0 _ _ _ _ _ _) ((decode_fieldsR _ _ _ _ _ _ rfl rfl).trans rfl)
theorem pgreq (b : BitVec 7) (a : BitVec 7) (d : BitVec 7) : Statement (.pgreq b a d) := of_word rfl (wordR_bit0 _ _ _ _ _ _) ((decode_fieldsR _ _ _ _ _ _ rfl rfl).trans rfl)
theorem trap (t : BitVec 4) (a : BitVec 7) : Statement (.trap t a) := of_word rfl (wordR_bit0 _ _ _ _ _ _) ((decode_fieldsR _ _ _ _ _ _ rfl rfl).trans (by
  have h1 : (t.setWidth 7).extractLsb' 4 3 = 0#3 := extract_setWidth_high _ _ _
  have h2 : (t.setWidth 7).extractLsb' 0 4 = t := extract_setWidth _ _ (by decide)
  simp [decodeEngine, decodeLane, mbz, h1, h2]))
theorem mma (b : BitVec 7) (a : BitVec 7) (d : BitVec 7) : Statement (.mma b a d) := of_word rfl (wordR_bit0 _ _ _ _ _ _) ((decode_fieldsR _ _ _ _ _ _ rfl rfl).trans rfl)
theorem mmaSp (b : BitVec 7) (a : BitVec 7) (d : BitVec 7) : Statement (.mmaSp b a d) := of_word rfl (wordR_bit0 _ _ _ _ _ _) ((decode_fieldsR _ _ _ _ _ _ rfl rfl).trans rfl)
theorem mmaz (b : BitVec 7) (a : BitVec 7) (d : BitVec 7) : Statement (.mmaz b a d) := of_word rfl (wordR_bit0 _ _ _ _ _ _) ((decode_fieldsR _ _ _ _ _ _ rfl rfl).trans rfl)
theorem mmazSp (b : BitVec 7) (a : BitVec 7) (d : BitVec 7) : Statement (.mmazSp b a d) := of_word rfl (wordR_bit0 _ _ _ _ _ _) ((decode_fieldsR _ _ _ _ _ _ rfl rfl).trans rfl)
theorem epq (b : BitVec 7) (a : BitVec 7) (d : BitVec 7) : Statement (.epq b a d) := of_word rfl (wordR_bit0 _ _ _ _ _ _) ((decode_fieldsR _ _ _ _ _ _ rfl rfl).trans rfl)
theorem epst (b : BitVec 7) (a : BitVec 7) (d : BitVec 7) : Statement (.epst b a d) := of_word rfl (wordR_bit0 _ _ _ _ _ _) ((decode_fieldsR _ _ _ _ _ _ rfl rfl).trans rfl)
theorem epov (b : BitVec 7) (a : BitVec 7) (d : BitVec 7) : Statement (.epov b a d) := of_word rfl (wordR_bit0 _ _ _ _ _ _) ((decode_fieldsR _ _ _ _ _ _ rfl rfl).trans rfl)
theorem accz (b : BitVec 7) (a : BitVec 7) (d : BitVec 7) : Statement (.accz b a d) := of_word rfl (wordR_bit0 _ _ _ _ _ _) ((decode_fieldsR _ _ _ _ _ _ rfl rfl).trans rfl)
theorem mbatch (d : BitVec 7) : Statement (.mbatch d) := of_word rfl (wordR_bit0 _ _ _ _ _ _) ((decode_fieldsR _ _ _ _ _ _ rfl rfl).trans rfl)
theorem mwait (a : BitVec 7) (d : BitVec 7) : Statement (.mwait a d) := of_word rfl (wordR_bit0 _ _ _ _ _ _) ((decode_fieldsR _ _ _ _ _ _ rfl rfl).trans rfl)
theorem mclass (a : BitVec 7) : Statement (.mclass a) := of_word rfl (wordR_bit0 _ _ _ _ _ _) ((decode_fieldsR _ _ _ _ _ _ rfl rfl).trans rfl)
theorem myld : Statement (.myld) := of_word rfl (wordR_bit0 _ _ _ _ _ _) ((decode_fieldsR _ _ _ _ _ _ rfl rfl).trans rfl)
theorem mquad (b : BitVec 7) (a : BitVec 7) (d : BitVec 7) : Statement (.mquad b a d) := of_word rfl (wordR_bit0 _ _ _ _ _ _) ((decode_fieldsR _ _ _ _ _ _ rfl rfl).trans rfl)
theorem mscale (b : BitVec 7) (a : BitVec 7) : Statement (.mscale b a) := of_word rfl (wordR_bit0 _ _ _ _ _ _) ((decode_fieldsR _ _ _ _ _ _ rfl rfl).trans rfl)
theorem csrr (a : BitVec 7) (d : BitVec 7) : Statement (.csrr a d) := of_word rfl (wordR_bit0 _ _ _ _ _ _) ((decode_fieldsR _ _ _ _ _ _ rfl rfl).trans rfl)
theorem csrw (b : BitVec 7) (a : BitVec 7) (d : BitVec 7) : Statement (.csrw b a d) := of_word rfl (wordR_bit0 _ _ _ _ _ _) ((decode_fieldsR _ _ _ _ _ _ rfl rfl).trans rfl)
theorem csrs (b : BitVec 7) (a : BitVec 7) (d : BitVec 7) : Statement (.csrs b a d) := of_word rfl (wordR_bit0 _ _ _ _ _ _) ((decode_fieldsR _ _ _ _ _ _ rfl rfl).trans rfl)
theorem csrc (b : BitVec 7) (a : BitVec 7) (d : BitVec 7) : Statement (.csrc b a d) := of_word rfl (wordR_bit0 _ _ _ _ _ _) ((decode_fieldsR _ _ _ _ _ _ rfl rfl).trans rfl)
theorem tlbi (b : BitVec 7) (a : BitVec 7) : Statement (.tlbi b a) := of_word rfl (wordR_bit0 _ _ _ _ _ _) ((decode_fieldsR _ _ _ _ _ _ rfl rfl).trans rfl)
theorem tlbia (a : BitVec 7) : Statement (.tlbia a) := of_word rfl (wordR_bit0 _ _ _ _ _ _) ((decode_fieldsR _ _ _ _ _ _ rfl rfl).trans rfl)
theorem prefw (b : BitVec 7) (a : BitVec 7) : Statement (.prefw b a) := of_word rfl (wordR_bit0 _ _ _ _ _ _) ((decode_fieldsR _ _ _ _ _ _ rfl rfl).trans rfl)
theorem zeroRange (b : BitVec 7) (a : BitVec 7) (d : BitVec 7) : Statement (.zeroRange b a d) := of_word rfl (wordR_bit0 _ _ _ _ _ _) ((decode_fieldsR _ _ _ _ _ _ rfl rfl).trans rfl)
theorem eret : Statement (.eret) := of_word rfl (wordR_bit0 _ _ _ _ _ _) ((decode_fieldsR _ _ _ _ _ _ rfl rfl).trans rfl)
theorem halt : Statement (.halt) := of_word rfl (wordR_bit0 _ _ _ _ _ _) ((decode_fieldsR _ _ _ _ _ _ rfl rfl).trans rfl)
theorem hirq (a : BitVec 7) : Statement (.hirq a) := of_word rfl (wordR_bit0 _ _ _ _ _ _) ((decode_fieldsR _ _ _ _ _ _ rfl rfl).trans rfl)
theorem rtchk (a : BitVec 7) (d : BitVec 7) : Statement (.rtchk a d) := of_word rfl (wordR_bit0 _ _ _ _ _ _) ((decode_fieldsR _ _ _ _ _ _ rfl rfl).trans rfl)
theorem ctxsv (b : BitVec 7) (a : BitVec 7) (d : BitVec 7) : Statement (.ctxsv b a d) := of_word rfl (wordR_bit0 _ _ _ _ _ _) ((decode_fieldsR _ _ _ _ _ _ rfl rfl).trans rfl)
theorem ctxld (b : BitVec 7) (a : BitVec 7) (d : BitVec 7) : Statement (.ctxld b a d) := of_word rfl (wordR_bit0 _ _ _ _ _ _) ((decode_fieldsR _ _ _ _ _ _ rfl rfl).trans rfl)
theorem snapb (a : BitVec 7) (d : BitVec 7) : Statement (.snapb a d) := of_word rfl (wordR_bit0 _ _ _ _ _ _) ((decode_fieldsR _ _ _ _ _ _ rfl rfl).trans rfl)
theorem snapc (b : BitVec 7) (a : BitVec 7) (d : BitVec 7) : Statement (.snapc b a d) := of_word rfl (wordR_bit0 _ _ _ _ _ _) ((decode_fieldsR _ _ _ _ _ _ rfl rfl).trans rfl)
theorem storePerform (w : Who) : Statement (.storePerform w) := of_none rfl
theorem timedStorePerform (core : CoreId) (i : Nat) : Statement (.timedStorePerform core i) := of_none rfl
theorem ldnbPerform (w : Who) : Statement (.ldnbPerform w) := of_none rfl
theorem gathStatusArrive (die i : Nat) : Statement (.gathStatusArrive die i) := of_none rfl
theorem barvArrival (w : Who) : Statement (.barvArrival w) := of_none rfl
theorem bwaitReturn (w : Who) : Statement (.bwaitReturn w) := of_none rfl
theorem bwaittTimeout (w : Who) : Statement (.bwaittTimeout w) := of_none rfl
theorem copyCommandComplete (die i : Nat) : Statement (.copyCommandComplete die i) := of_none rfl
theorem cpytWriteRelease (die i : Nat) : Statement (.cpytWriteRelease die i) := of_none rfl
theorem bulkQueuePublish (u : UnitKey) : Statement (.bulkQueuePublish u) := of_none rfl
theorem bulkEntryStart (die : Nat) : Statement (.bulkEntryStart die) := of_none rfl
theorem bulkEntryComplete (die i : Nat) : Statement (.bulkEntryComplete die i) := of_none rfl
theorem completionRecordWrite (u : UnitKey) : Statement (.completionRecordWrite u) := of_none rfl
theorem pageRequestComplete (part i : Nat) : Statement (.pageRequestComplete part i) := of_none rfl
theorem launchAnswer (w : Who) : Statement (.launchAnswer w) := of_none rfl
theorem unitAdmit (u : UnitKey) (die cluster : Nat) (cores : List Nat) : Statement (.unitAdmit u die cluster cores) := of_none rfl
theorem launchBecomesBlocking (ctx : Nat) (id : Word) : Statement (.launchBecomesBlocking ctx id) := of_none rfl
theorem launchComplete (ctx : Nat) (id : Word) : Statement (.launchComplete ctx id) := of_none rfl
theorem launchCommit (ctx : Nat) (id : Word) : Statement (.launchCommit ctx id) := of_none rfl
theorem snapmRelease (ctx : Nat) (id : Word) : Statement (.snapmRelease ctx id) := of_none rfl
theorem slotRelease (w : Who) : Statement (.slotRelease w) := of_none rfl
theorem preemptionStop (u : UnitKey) : Statement (.preemptionStop u) := of_none rfl
theorem mxeStep (die cluster : Nat) : Statement (.mxeStep die cluster) := of_none rfl
theorem mquadInstall (w : Who) : Statement (.mquadInstall w) := of_none rfl
theorem mwaitReturn (w : Who) : Statement (.mwaitReturn w) := of_none rfl
theorem mdrainRead (w : Who) : Statement (.mdrainRead w) := of_none rfl
theorem mrecvWake (w : Who) : Statement (.mrecvWake w) := of_none rfl
theorem dcePage (die : Nat) : Statement (.dcePage die) := of_none rfl
theorem kvRequestComplete (ctx i : Nat) (frames : List Nat) : Statement (.kvRequestComplete ctx i frames) := of_none rfl
theorem kvVictimAction (ctx : Nat) : Statement (.kvVictimAction ctx) := of_none rfl
theorem updStart (die i : Nat) : Statement (.updStart die i) := of_none rfl
theorem updTileCommit (die i : Nat) : Statement (.updTileCommit die i) := of_none rfl
theorem normApply (die i : Nat) : Statement (.normApply die i) := of_none rfl
theorem stagingBufferTake (ctx : Nat) (id : Word) : Statement (.stagingBufferTake ctx id) := of_none rfl
theorem delivery (ctx : Nat) (id : Word) : Statement (.delivery ctx id) := of_none rfl
theorem replicaCommit (i : Nat) : Statement (.replicaCommit i) := of_none rfl
theorem replicaLockTimeout (die i : Nat) : Statement (.replicaLockTimeout die i) := of_none rfl
theorem pageWalk (die ctx : Nat) (va : BitVec 56) (write : Bool) : Statement (.pageWalk die ctx va write) := of_none rfl
theorem walkSlotGrant (die : Nat) : Statement (.walkSlotGrant die) := of_none rfl
theorem hsemClaim (port : Bool) (token : Half) : Statement (.hsemClaim port token) := of_none rfl
theorem hsemRelease (port : Bool) (token : Half) : Statement (.hsemRelease port token) := of_none rfl
theorem hostLinkDown (port : Bool) : Statement (.hostLinkDown port) := of_none rfl
theorem bar0ControlWrite (port : Bool) (offset : Nat) (value : DWord) : Statement (.bar0ControlWrite port offset value) := of_none rfl
theorem hostHdmAccess (port write : Bool) (pa : Nat) (data : List Byte) : Statement (.hostHdmAccess port write pa data) := of_none rfl
theorem submissionRingTake (ctx : Nat) : Statement (.submissionRingTake ctx) := of_none rfl
theorem attestationRequest (port : Bool) (nonce : List Byte) : Statement (.attestationRequest port nonce) := of_none rfl
theorem faultRecordDeliver : Statement (.faultRecordDeliver) := of_none rfl
theorem faultRingDrain (part : Nat) : Statement (.faultRingDrain part) := of_none rfl
theorem rollback (ctx : Nat) (id : Word) : Statement (.rollback ctx id) := of_none rfl
theorem contextCreate (ctx : Nat) (cfg : DWord) : Statement (.contextCreate ctx cfg) := of_none rfl
theorem contextEnd (ctx : Nat) : Statement (.contextEnd ctx) := of_none rfl
theorem asidChange (ctx : Nat) (asid : Bool) (value : DWord) : Statement (.asidChange ctx asid value) := of_none rfl
theorem factNone (ctx : Nat) (id : Word) : Statement (.factNone ctx id) := of_none rfl
theorem factKill (ctx : Nat) (id : Word) : Statement (.factKill ctx id) := of_none rfl
theorem factReplay (ctx : Nat) (id : Word) : Statement (.factReplay ctx id) := of_none rfl
theorem factResume (ctx : Nat) (id : Word) : Statement (.factResume ctx id) := of_none rfl
theorem topoReload (value : DWord) : Statement (.topoReload value) := of_none rfl
theorem routesReload (value : DWord) : Statement (.routesReload value) := of_none rfl
theorem haltResume (w : Who) : Statement (.haltResume w) := of_none rfl
theorem eccCorrected (die : Nat) (frame : Option Nat) : Statement (.eccCorrected die frame) := of_none rfl
theorem eccUncorrectable (key : Nat) : Statement (.eccUncorrectable key) := of_none rfl
theorem rowRetire (pa : Nat) : Statement (.rowRetire pa) := of_none rfl
theorem checkerMismatch (site : CheckSite) (parity : Bool) : Statement (.checkerMismatch site parity) := of_none rfl
theorem warmReset (die : Nat) (cause : Byte) : Statement (.warmReset die cause) := of_none rfl
theorem throttleEvent (die : Nat) : Statement (.throttleEvent die) := of_none rfl
theorem thermalLimit (die : Nat) (within : Bool) : Statement (.thermalLimit die within) := of_none rfl
theorem coldPowerOn : Statement (.coldPowerOn) := of_none rfl
theorem digest (model : Nat) (ctx : Nat) (version : Word) (digest : BitVec 128) (chk : Word) : Statement (.digest model ctx version digest chk) := of_none rfl
theorem digestTimeout (ctx model : Nat) : Statement (.digestTimeout ctx model) := of_none rfl
theorem read (i : Nat) : Statement (.read i) := of_none rfl
theorem write (i : Nat) : Statement (.write i) := of_none rfl
theorem atomic (i : Nat) : Statement (.atomic i) := of_none rfl
theorem rddata (i : Nat) : Statement (.rddata i) := of_none rfl
theorem wrack (i : Nat) : Statement (.wrack i) := of_none rfl
theorem atrsp (i : Nat) : Statement (.atrsp i) := of_none rfl
theorem sync (t2 : DWord) : Statement (.sync t2) := of_none rfl
theorem follow (t1 : DWord) : Statement (.follow t1) := of_none rfl
theorem dreq (port : Nat) (t4 : DWord) : Statement (.dreq port t4) := of_none rfl
theorem drsp (t4 : DWord) : Statement (.drsp t4) := of_none rfl
theorem packetForward (port : Nat) (header : BitVec 512) (data : List Byte) : Statement (.packetForward port header data) := of_none rfl
theorem flowStop (port vc : Nat) (here : Bool) : Statement (.flowStop port vc here) := of_none rfl
theorem flowGo (port vc : Nat) (here : Bool) : Statement (.flowGo port vc here) := of_none rfl
theorem linkDown (port : Nat) : Statement (.linkDown port) := of_none rfl
theorem linkStateChange (port : Nat) (ls : BitVec 2) : Statement (.linkStateChange port ls) := of_none rfl
theorem peerRequestTimeout (i : Nat) : Statement (.peerRequestTimeout i) := of_none rfl
theorem timeExchangeStart (port : Nat) : Statement (.timeExchangeStart port) := of_none rfl
theorem packageTimeExchange (die : Nat) (measured : DWord) : Statement (.packageTimeExchange die measured) := of_none rfl
theorem ptmSync (ns : DWord) : Statement (.ptmSync ns) := of_none rfl
theorem disciplineLoss (die : Nat) : Statement (.disciplineLoss die) := of_none rfl
theorem dieTimeTick (die : Nat) (add : Nat) : Statement (.dieTimeTick die add) := of_none rfl
theorem wordThatDoesNotExecute (w : Word) : Statement (.wordThatDoesNotExecute w) := of_none rfl
theorem linkLevelReplay (port : Nat) : Statement (.linkLevelReplay port) := of_none rfl
theorem hostLinkUp (port : Bool) : Statement (.hostLinkUp port) := of_none rfl
theorem powerOff : Statement (.powerOff) := of_none rfl
theorem throttleEnd (die : Nat) : Statement (.throttleEnd die) := of_none rfl
theorem zeroComplete (w : Who) : Statement (.zeroComplete w) := of_none rfl

end Sys2Proof.Laws.RoundTrip
end

