-- ==== Sys2Proof/Tests/Slice0.lean ====
section
/-!
SUPPORT. Tests. Expected values are the specification's: its tables of words, its worked examples, and values worked
out by hand from its rules. A theorem `witness_<Name>` shows states and operands that meet the hypotheses of the
statement `Obligations.<Name>`, clause by clause.
-/
namespace Sys2Proof.Tests
open Sys2Proof.Machine

set_option Elab.async false

/-! Ill-formed terms, one for each check of WellFormed.lean. -/

theorem test_wf_discard : Instr.wellFormed (.iadd 1 2 1 3) = false := by decide
theorem test_wf_destination : Instr.wellFormed (.iadd 0 2 1 120) = false := by decide
theorem test_wf_span : Instr.wellFormed (.ld128 0 1 117) = false := by decide
theorem test_wf_pair : Instr.wellFormed (.movvg 119 1) = false := by decide
theorem test_wf_g : Instr.wellFormed (.gadd 64 1 2) = false := by decide
theorem test_wf_scope : Instr.wellFormed (.ldaq 7 0 1 2) = false := by decide
theorem test_wf_scratch : Instr.wellFormed (.gswr 31 1) = false := by decide
theorem test_wf_selector : Instr.wellFormed (.gsrd 22 1) = false := by decide
theorem test_wf_unit : Instr.wellFormed (.bulkQueuePublish ⟨64, 1, 0⟩) = false := by decide
theorem test_wf_core : Instr.wellFormed (.timedStorePerform ⟨8, 0, 0⟩ 0) = false := by decide
theorem test_wf_agent : Instr.wellFormed (.storePerform (.group ⟨0, 1, 0⟩ 128)) = false := by decide
theorem test_wf_good : Instr.wellFormed (.iadd 1 127 123 0) = true ∧ Instr.wellFormed (.ld128 31 127 116) = true ∧
    Instr.wellFormed (.gsrd 35 63) = true ∧ Instr.wellFormed (.storePerform (.group ⟨63, 1, 0⟩ 127)) = true := by decide

/-! Words of the specification's tables and the instructions they stand for. -/

/-- Table 1 of Scope and the worked encodings of Instruction Encoding. -/
theorem test_words_formats :
    decodeTableWord 32 0x00808301 = some (.iadd 0 2 1 3) ∧ decodeTableWord 32 0xA0808021 = some (.fmul 1 2 1 0) ∧
    decodeTableWord 16 0x1460 = some (.iadd16 0 5 3) ∧ decodeTableWord 16 0x10EC = some (.shli16 0 4 7) ∧
    decodeTableWord 16 0xA458 = some (.fmul16 1 9 2) ∧ decodeTableWord 32 0xDE420A21 = some (.fma 121 4 10) ∧
    decodeTableWord 32 0x1F830603 = some (.imul 0 126 6 6) ∧ decodeTableWord 32 0xFF410261 = some (.iaddi 0x3FD 2 2) ∧
    decodeTableWord 32 0x02C00179 = some (.srd 11 1) ∧ decodeTableWord 32 0xF01EBD89 = some (.gaddi 0x3C0 61 61) ∧
    decodeTableWord 32 0x2B3C0775 = some (.movi 0x5678 7) ∧ decodeTableWord 32 0x091A0777 = some (.movh 0x1234 7) ∧
    decodeTableWord 32 0x0009098B = some (.gmovi 0x12 9) ∧ decodeTableWord 32 0x1A2B098D = some (.gshi16 0x3456 9) := by
  decide +kernel

/-- Tables 3, 6, 9, 10, 11 and 12 of Lane Instructions. -/
theorem test_words_lane :
    decodeTableWord 32 0xC1828403 = some (.imad 6 5 4) ∧ decodeTableWord 32 0xC101820B = some (.bfx 0 4 3 2) ∧
    decodeTableWord 32 0x00010125 = some (.frcp 0 2 1) ∧ decodeTableWord 32 0x82848827 = some (.fmaBf2 10 9 8) ∧
    decodeTableWord 32 0x43868C2B = some (.fdot4E4 14 13 12) ∧ decodeTableWord 32 0x0001832D = some (.raddF 0 3 3) ∧
    decodeTableWord 32 0x858A9443 = some (.cvtE4 22 21 20) ∧ decodeTableWord 32 0x05CA9445 = some (.cvtsrE4 23 21 20) ∧
    decodeTableWord 32 0x9F8A0549 = some (.unpE4 0 126 20 5) ∧ decodeTableWord 32 0x40808653 = some (.fcmplt 0 2 1 6) ∧
    decodeTableWord 32 0x02038655 = some (.sel 8 7 6) ∧ decodeTableWord 32 0x40030955 = some (.ballot 0 6 9) ∧
    decodeTableWord 32 0xDF408157 = some (.shflx 0 125 1 1) ∧ decodeTableWord 32 0x03052859 = some (.rng4 0 12 10 40) ∧
    decodeTableWord 32 0x4003835B = some (.movg 0 7 3) ∧ decodeTableWord 32 0xC145085B = some (.movvgl 5 10 8) ∧
    decodeTableWord 32 0xFFC18263 = some (.andi 0x3FF 3 2) ∧ decodeTableWord 32 0x01C2046D = some (.srai 7 4 4) ∧
    decodeTableWord 16 0x7932 = some (.movi5 0 0x1E 9) ∧ decodeTableWord 16 0x001E = some .nop := by decide +kernel

/-- Table 7 of Group-Wide Instructions, and the worked programs. -/
theorem test_words_control :
    decodeTableWord 32 0xC1C30581 = some (.gmad 7 6 5) ∧ decodeTableWord 32 0x41018287 = some (.gcmplt 4 3 2) ∧
    decodeTableWord 32 0x04C00A8F = some (.gsrd 19 10) ∧ decodeTableWord 32 0x4805808F = some (.gswr 32 11) ∧
    decodeTableWord 32 0x854A028F = some (.xlt 21 20 2) ∧ decodeTableWord 32 0xC002038F = some (.gmov 4 3) ∧
    decodeTableWord 32 0x00400099 = some (.call 0x80) ∧ decodeTableWord 32 0x0000009B = some .ret ∧
    decodeTableWord 32 0x4002809B = some (.jmpg 5) ∧ decodeTableWord 32 0x8000009B = some .fuse ∧
    decodeTableWord 32 0xC000009B = some .exit ∧ decodeTableWord 32 0x0000069D = some (.emrd 6) ∧
    decodeTableWord 32 0x4003009D = some (.emwr 6) ∧ decodeTableWord 32 0x8000009D = some .yield ∧
    decodeTableWord 32 0xC000009D = some .bkpt ∧ decodeTableWord 32 0x00C101C5 = some (.regq 3 2 1) ∧
    decodeTableWord 32 0xC0C380C5 = some (.trap 3 7) ∧ decodeTableWord 32 0x00138297 = some (.brv 39 2) ∧
    decodeTableWord 32 0xFFFF0A93 = some (.brg 0x1FFFE 10) ∧ decodeTableWord 32 0xFFE88091 = some (.bra 0x1FFD1) := by
  decide +kernel

/-- Tables 2, 5, 8, 11 and 14 of Memory Instructions. -/
theorem test_words_memory :
    decodeTableWord 32 0x108108A1 = some (.ld128 2 2 8) ∧ decodeTableWord 32 0x18C184A3 = some (.st16 3 3 4) ∧
    decodeTableWord 32 0x07C305A5 = some (.ld8 31 6 5) ∧ decodeTableWord 32 0x10C101A5 = some (.ldnb 3 2 1) ∧
    decodeTableWord 32 0x1A4388A5 = some (.stva 9 7 8) ∧ decodeTableWord 32 0x7B058AA7 = some (.atcas 3 12 11 10) ∧
    decodeTableWord 32 0x90C101A9 = some (.atfadd 4 3 2 1) ∧ decodeTableWord 32 0xA0C000AB = some (.fence 5 3) ∧
    decodeTableWord 32 0x888000AB = some (.fenceE 4 2) ∧ decodeTableWord 32 0x584286AB = some (.strl 2 1 5 6) ∧
    decodeTableWord 32 0x085E87AD = some (.gst 1 61 7) ∧ decodeTableWord 32 0xD00284AD = some (.gldaq 6 0 5 4) ∧
    decodeTableWord 32 0x014200B1 = some (.tdef 5 4) ∧ decodeTableWord 32 0xC14200B1 = some (.tscl 5 4) ∧
    decodeTableWord 32 0x00C101B5 = some (.balloc 3 2 1) ∧ decodeTableWord 32 0x400080B5 = some (.bfree 1) ∧
    decodeTableWord 32 0xC18085B5 = some (.barv 6 1 5) ∧ decodeTableWord 32 0x014087B7 = some (.bwait 5 1 7) ∧
    decodeTableWord 32 0x03058AB3 = some (.cpy 12 11 10) ∧ decodeTableWord 32 0x818A94B3 = some (.gath 6 21 20) ∧
    decodeTableWord 32 0x80C101C5 = some (.pgreq 3 2 1) := by decide +kernel

/-- The tables of Launching, Matrix, Decode and KV, Tickets and Privileged Architecture. -/
theorem test_words_engines :
    decodeTableWord 32 0x02C504BF = some (.lnch 11 10 4) ∧ decodeTableWord 32 0x800305BF = some (.cancel 6 5) ∧
    decodeTableWord 32 0x400008C5 = some (.snapm 8) ∧ decodeTableWord 32 0x00C101D1 = some (.mma 3 2 1) ∧
    decodeTableWord 32 0xC18284D1 = some (.mmazSp 6 5 4) ∧ decodeTableWord 32 0x824401D3 = some (.epov 9 8 1) ∧
    decodeTableWord 32 0x400509D5 = some (.mwait 10 9) ∧ decodeTableWord 32 0x440780D7 = some (.mscale 16 15) ∧
    decodeTableWord 32 0x400B00B9 = some (.mdrain 22) ∧ decodeTableWord 32 0x864C17B9 = some (.msig 25 24 23) ∧
    decodeTableWord 32 0x014200BB = some (.datt 5 4) ∧ decodeTableWord 32 0x420386BD = some (.kvreq 8 7 6) ∧
    decodeTableWord 32 0x000284C1 = some (.ticket 5 4) ∧ decodeTableWord 32 0x418284C1 = some (.redeem 6 5 4) ∧
    decodeTableWord 32 0x024400C3 = some (.upd 9 8) ∧ decodeTableWord 32 0x818284C3 = some (.wvret 6 5 4) ∧
    decodeTableWord 32 0x40C101E1 = some (.csrw 3 2 1) ∧ decodeTableWord 32 0xC20386E3 = some (.zeroRange 8 7 6) ∧
    decodeTableWord 32 0x000000E5 = some .eret ∧ decodeTableWord 32 0xC00386E5 = some (.rtchk 7 6) ∧
    decodeTableWord 32 0x020386E7 = some (.ctxsv 8 7 6) ∧ decodeTableWord 32 0x800386E7 = some (.snapb 7 6) := by
  decide +kernel

/-- Encodings that are refused by name: the reserved major 0x7F, the halfword 0x0000, N = 1 on IMAD (R54, R57). -/
theorem test_words_refused :
    decodeTableWord 32 0x000000FF = none ∧ decodeTableWord 16 0 = none ∧ decodeTableWord 32 0xE1828403 = none := by
  decide +kernel

/-! Small states. -/

/-- A group with every register at 0. -/
def coreAgent : Agent := { Agent.start (.group ⟨0, 1, 0⟩ 0) .core ⟨0, 0, 0, 0⟩ with quota := 120, unit := ⟨0, 1, 0⟩ }
/-- The device up, with one agent and its turn. -/
def withAgent (a : Agent) : State := { State.reset with power := .up, me := a }
def coreS : State := withAgent coreAgent
def csqS : State := withAgent (Agent.start (.thread ⟨0, 1, 0⟩) .csq ⟨0, 0, 0, 0⟩)
def supS : State := withAgent (Agent.start (.sup 0) .sup ⟨8, 0, 0, 0⟩)

/-- A group with given registers, the same in every lane. -/
def laneS (v : List (Nat × Word)) : State :=
  withAgent { coreAgent with v := v.map fun x => (x.1, Lanes.make fun _ => x.2) }
def groupS (g : List (Nat × DWord)) : State := withAgent { coreAgent with g := g }
def supG (g : List (Nat × DWord)) : State := withAgent { Agent.start (.sup 0) .sup ⟨8, 0, 0, 0⟩ with g := g }
def csqG (g : List (Nat × DWord)) : State := withAgent { Agent.start (.thread ⟨0, 1, 0⟩) .csq ⟨0, 0, 0, 0⟩ with g := g }
/-- A group whose chain has filled all four latches. -/
def latchS : State :=
  withAgent { coreAgent with cur := { coreAgent.cur with latches := ⟨some Lanes.zero, some Lanes.zero, some Lanes.zero, some Lanes.zero⟩ } }

/-- v[d] of lane 5 after an instruction. -/
def laneAfter (i : Instr) (s : State) (d : Nat) : Option Word :=
  match exec i s with | .next t => some (t.me.readV d 5) | _ => none
def groupAfter (i : Instr) (s : State) (d : Nat) : Option DWord :=
  match exec i s with | .next t => some (t.me.readG d) | _ => none
def pcAfter (i : Instr) (s : State) : Option Word :=
  match exec i s with | .next t => some t.me.cur.pc | _ => none
/-- The cause of the one fault that an instruction leaves to be delivered. -/
def causeAfter (i : Instr) (s : State) : Option Cause :=
  match exec i s with | .next t => t.pending.head?.map Pending.cause | _ => none

/-! Lane instructions. -/

/-- R74: 0x23 from a = 0xABCD1234, and the sign-extended field 0xD12. -/
theorem test_bfx : laneAfter (.bfx 0 4 3 2) (laneS [(3, 0xABCD1234), (4, 0x00010804)]) 2 = some 0x00000023 ∧
    laneAfter (.bfx 0 4 3 2) (laneS [(3, 0xABCD1234), (4, 0x00010C08)]) 2 = some 0xFFFFFD12 := by decide +kernel

/-- R73: IADDS saturates; IADD wraps. -/
theorem test_iadds : laneAfter (.iadds 0 2 1 3) (laneS [(1, 0x7FFFFFFF), (2, 1)]) 3 = some 0x7FFFFFFF ∧
    laneAfter (.iadd 0 2 1 1) (laneS [(1, 0xFFFFFFFF), (2, 2)]) 1 = some 1 := by decide +kernel

/-- R73: UDIV by 0, UREM by 0, SHL by 32, SRA by 40 of a negative number. -/
theorem test_corners : laneAfter (.udiv 0 2 1 3) (laneS [(1, 7)]) 3 = some 0xFFFFFFFF ∧
    laneAfter (.urem 0 2 1 3) (laneS [(1, 7)]) 3 = some 7 ∧
    laneAfter (.shl 0 2 1 3) (laneS [(1, 7), (2, 32)]) 3 = some 0 ∧
    laneAfter (.sra 0 2 1 3) (laneS [(1, 0x80000000), (2, 40)]) 3 = some 0xFFFFFFFF := by decide +kernel

/-- R19, R75: 1.0 + 2.0 = 3.0, and 1.5 × 1.5 + 0.25 = 2.5. -/
theorem test_float : laneAfter (.fadd 0 2 1 3) (laneS [(1, 0x3F800000), (2, 0x40000000)]) 3 = some 0x40400000 ∧
    laneAfter (.fma 2 1 3) (laneS [(1, 0x3FC00000), (2, 0x3FC00000), (3, 0x3E800000)]) 3 = some 0x40200000 := by
  decide +kernel

/-- Table 5 of Lane Instructions. -/
theorem test_transcendentals : laneAfter (.frcp 0 2 1) (laneS [(2, 0x80000000)]) 1 = some 0xFF800000 ∧
    laneAfter (.frsq 0 2 1) (laneS [(2, 0xBF800000)]) 1 = some 0x7FC00000 ∧
    laneAfter (.frcp 0 2 1) (laneS [(2, 0x40000000)]) 1 = some 0x3F000000 := by decide +kernel

/-- R82: four products 1.0 × 1.0 of E4M3 codes 0x38 added to 0. -/
theorem test_dot4 : laneAfter (.fdot4E4 14 13 12) (laneS [(12, 0), (13, 0x38383838), (14, 0x38383838)]) 12
    = some 0x40800000 := by decide +kernel

/-- R79: 32 lanes of 1.0 add to 32.0. -/
theorem test_radd : laneAfter (.raddF 0 3 3) (laneS [(3, 0x3F800000)]) 3 = some 0x42000000 := by decide +kernel

/-- R27, R80: saturation and NaN. -/
theorem test_f2i : laneAfter (.f2i 0 2 1) (laneS [(2, 0x4F000000)]) 1 = some 0x7FFFFFFF ∧
    laneAfter (.f2i 0 2 1) (laneS [(2, 0x7FC00000)]) 1 = some 0 ∧
    laneAfter (.f2u 0 2 1) (laneS [(2, 0xBF800000)]) 1 = some 0 := by decide +kernel

/-- R84: +0 = −0, and a NaN compares with nothing. -/
theorem test_fcmp : laneAfter (.fcmpeq 0 2 1 3) (laneS [(2, 0x80000000)]) 3 = some 1 ∧
    laneAfter (.fcmpeq 0 2 1 3) (laneS [(1, 0x7FC00000), (2, 0x7FC00000)]) 3 = some 0 := by decide +kernel

/-- R85: SEL takes its third operand from D. -/
theorem test_sel : laneAfter (.sel 8 7 6) (laneS [(6, 1), (7, 11), (8, 22)]) 6 = some 11 ∧
    laneAfter (.sel 8 7 6) (laneS [(7, 11), (8, 22)]) 6 = some 22 := by decide +kernel

/-- R47, R48: source code 125 is g1, and a destination code of 120 or more traps. -/
theorem test_sources : laneAfter (.mov 0 125 3) (groupS [(1, 0x1234567800000009)]) 3 = some 9 ∧
    causeAfter (.iadd 0 2 1 120) coreS = some .illegalRegister ∧
    causeAfter (.iadd 0 121 1 3) coreS = some .latchChain := by decide +kernel

/-! Witnesses for the lane statements. -/

theorem witness_IntegerLaneResults :
    Clear (laneNeed 0 119 [127, 119] false) coreS ∧ Clear (laneNeed 1 0 [120, 123] false) latchS ∧
    Clear (laneNeed 0 119 [119, 123] true) latchS ∧ Clear (laneNeed 0 0 [124] false) coreS ∧
    coreS.me.cur.em.getLsbD 31 = true := ⟨⟨rfl, rfl⟩, ⟨rfl, rfl⟩, ⟨rfl, rfl⟩, ⟨rfl, rfl⟩, rfl⟩

/-- Of FSCALE, a finite operand and the bounds ±600; of the others, a NaN, an infinity and a zero; a quarter, and a number
between two powers of two. -/
theorem witness_FloatLaneResults :
    Clear (laneNeed 0 119 [1, 2] false) coreS ∧ Clear (laneNeed 0 0 [1, 2] true) coreS ∧ Clear (laneNeed 1 0 [1] false) coreS ∧
    (f32 0x7FC00000).isNaN = true ∧ (f32 0xFF800000).isInf = true ∧ (f32 0x80000000).isZero = true ∧
    f32 0x40000000 = .num false 2 ∧ f32 0x3E800000 = .num false (mkRat 1 4) ∧ f32 0x40400000 = .num false 3 ∧ -600 ≤ (0xFFFFFDA8 : Word).toInt ∧ (600 : Word).toInt ≤ 600 := by
  refine ⟨⟨rfl, rfl⟩, ⟨rfl, rfl⟩, ⟨rfl, rfl⟩, ?_⟩; decide +kernel

theorem witness_PackedAndReductionResults :
    Clear (laneNeed 0 119 [1, 127] false) coreS ∧ Clear (laneNeed 0 1 [1, 2] true) coreS ∧
    Clear (laneNeed 1 0 [119] false) coreS := ⟨⟨rfl, rfl⟩, ⟨rfl, rfl⟩, ⟨rfl, rfl⟩⟩

theorem witness_ConversionResults :
    Clear (laneNeed 0 119 [1] false) coreS ∧ Clear (laneNeed 1 0 [1, 126] false) coreS ∧ Clear (laneNeed 0 119 [1, 2] true) coreS ∧
    Clear (laneNeed 0 119 [119] true) coreS := ⟨⟨rfl, rfl⟩, ⟨rfl, rfl⟩, ⟨rfl, rfl⟩, ⟨rfl, rfl⟩⟩

theorem witness_CompareAndSelectionResults :
    Clear (laneNeed 0 119 [1, 2] false) coreS ∧ Clear (laneNeed 0 119 [1, 2] true) coreS ∧ Clear (laneNeed 1 0 [119] false) coreS ∧
    Clear (laneNeed 0 119 [] false) coreS := ⟨⟨rfl, rfl⟩, ⟨rfl, rfl⟩, ⟨rfl, rfl⟩, ⟨rfl, rfl⟩⟩

/-- MOVVG with no active lane, and with lane 31 the lowest; SRD of selectors 0 and 35. -/
theorem witness_RandomAndMoveResults :
    Clear (rngNeed 0 118 0 119 1) coreS ∧ Clear (rngNeed 0 118 0 116 4) coreS ∧ Clear (rngNeed 1 118 0 0 4) coreS ∧
    Clear { laneNeed 0 119 [] false with reg := badDest 119 || badG 63, wide := gReg 63 } coreS ∧
    Clear (movvNeed 118 63) (withEm coreS 0) ∧ Clear (movvNeed 118 0) (withEm coreS 0x80000000) ∧
    (withEm coreS 0x80000000).me.cur.em.getLsbD 31 = true ∧
    (∀ k, k < 31 → (withEm coreS 0x80000000).me.cur.em.getLsbD k = false) ∧
    Clear (laneNeed 0 119 [127] false) coreS ∧ Clear (laneNeed 0 119 [] true) coreS ∧
    Clear { laneNeed 0 119 [] false with field := !selectorOk 0 } coreS ∧
    Clear { laneNeed 0 119 [] false with field := !selectorOk 35 } coreS :=
  ⟨⟨rfl, rfl⟩, ⟨rfl, rfl⟩, ⟨rfl, rfl⟩, ⟨rfl, rfl⟩, ⟨rfl, rfl⟩, ⟨rfl, rfl⟩, rfl, by decide, ⟨rfl, rfl⟩, ⟨rfl, rfl⟩, ⟨rfl, rfl⟩, ⟨rfl, rfl⟩⟩

theorem witness_HalfFormResults :
    Clear (halfNeed 0 31 true [31]) coreS ∧ Clear (halfNeed 1 31 true []) coreS ∧
    Clear { halfNeed 0 31 false [31] with field := (0 : BitVec 1) == 1 && (31 : BitVec 5) != 0 } coreS ∧
    Clear { halfNeed 1 0 false [] with field := (1 : BitVec 1) == 1 && (0 : BitVec 5) != 0 } coreS :=
  ⟨⟨rfl, rfl⟩, ⟨rfl, rfl⟩, ⟨rfl, rfl⟩, ⟨rfl, rfl⟩⟩

/-! Group-wide instructions. -/

/-- R93: the product and sum are kept modulo 2^64; a write to g0 is discarded (R48). -/
theorem test_gmad : groupAfter (.gmad 7 6 5) (groupS [(5, 1), (6, 0xFFFFFFFFFFFFFFFF), (7, 2)]) 5 = some 0xFFFFFFFFFFFFFFFF ∧
    groupAfter (.gadd 7 6 0) (groupS [(6, 1), (7, 2)]) 0 = some 0 ∧
    groupAfter (.gcmplt 4 3 2) (csqG [(3, 0xFFFFFFFFFFFFFFFF), (4, 0)]) 2 = some 1 := by decide +kernel

/-- R94: the scratch registers keep what GSWR writes; R337: RETIRED counts the BRG that goes before the GSRD in its chain. -/
theorem test_gsrd :
    (match exec (.gswr 35 1) (groupS [(1, 77)]) with | .next t => some (t.me.readScratch 3) | _ => none) = some 77 ∧
    groupAfter (.gsrd 10 5) { coreS with me := { coreS.me with retired := 34, cur := { coreS.me.cur with pos := 1 } } } 5 = some 35 ∧
    groupAfter (.gsrd 13 5) coreS 5 = some 120 ∧ causeAfter (.gsrd 22 5) coreS = some .illegalField := by decide +kernel

theorem witness_GroupArithmeticResults :
    Clear (gNeed .all [63, 0, 63]) coreS ∧ Clear (gNeed .all [63, 0, 63]) csqS ∧ Clear (gNeed .all [0, 63, 1]) supS ∧
    Clear (gNeed .all [63, 0]) coreS ∧ Clear (gNeed .all [63]) csqS := ⟨⟨rfl, rfl⟩, ⟨rfl, rfl⟩, ⟨rfl, rfl⟩, ⟨rfl, rfl⟩, ⟨rfl, rfl⟩⟩

/-- Two tables: a pointer at 0x10000 and, at 0x20000, a 1 GiB leaf with P, R, W, A and D that maps VA 0 to PA 0. -/
def mapped (s : State) : State :=
  { s with mem := [(0x10000, 0x01), (0x10002, 0x02), (0x20000, 0x7F), (0x20010, 0x7F), (0x20011, 0x04), (0x20012, 0x05),
                   (0x20013, 0x90)], cr := [(1, 7), (2, 0x10000)], supRoot := 0x10000 }

/-- R305, R310: the walk of a mapped address and of one that no entry maps. -/
theorem test_walk : (mapped coreS).peek 0 0x10000 0x12345 true = .frame 0x12345 0x7F 2 ∧
    (mapped coreS).peek 0 0x10000 0x40000000 false = .unmapped := by decide +kernel

/-- A miss of another page waits for a walk slot on die 0. -/
def missS (s : State) : State :=
  { s with dies := [(0, { Die.fresh with walks := [⟨0, 0xFF000000, false, false, 1, 0, 0, 0, none, [], false⟩] })] }

/-- GSRD at the bounds of its selectors, GSWR at 32 and 35 and beyond, XLT of 0 bytes, of a page that a leaf maps, of a peer's,
of one that none maps, and of one whose miss waits. -/
theorem witness_SpecialRegisterResults :
    Clear { gNeed .all [63] with field := !selectorOk 0 } coreS ∧ Clear { gNeed .all [63] with field := !selectorOk 21 } csqS ∧
    Clear { gNeed .all [63] with field := !selectorOk 35 } supS ∧
    Clear { gNeed .all [63] with field := decide ((32 : Nat) < 32) || decide (35 < 32) } coreS ∧
    Clear { gNeed .all [63] with field := decide ((35 : Nat) < 32) || decide (35 < 35) } coreS ∧ coreS.me.gath = [] ∧
    Clear { gNeed .all [1, 2] with reg := badG 1 || badG 2 || decide ((7 : Nat) < 7), wide := gReg 1 ++ gReg 2 ++ [xtReg 7] }
      (mapped (groupS [(1, 0x12345), (2, 16)])) ∧
    (mapped (groupS [(1, 0x12345), (2, 16)])).me.readG 2 ≠ 0 ∧ (groupS [(1, 5)]).me.readG 2 = 0 ∧
    ((mapped (groupS [(1, 0x12345), (2, 16)])).myByte 0x12345 false false).2 = .frame 0x12345 0x7F 2 ∧
    ((missS (mapped coreS)).myByte 0x12345 false false).2 = .waits ∧
    ((mapped coreS).myByte 0x80000000 false false).2 = .peer 5 9 0x9005047F 2 ∧
    ((mapped coreS).myByte 0x40000000 false false).2 = .unmapped := by unfold Clear; decide +kernel

/-! Control flow. -/

/-- R45, R98: the target is the branch's address plus twice the displacement; CALL leaves PC + 4 in g62. -/
theorem test_branches : pcAfter (.bra 0x1FFFF) coreS = some 0xFFFFFFFE ∧ pcAfter (.brg 39 1) (groupS [(1, 1)]) = some 78 ∧
    pcAfter (.brzg 39 1) (groupS [(1, 1)]) = some 4 ∧ groupAfter (.call 39) coreS 62 = some 4 ∧
    pcAfter (.jmpg 5) (groupS [(5, 0xFFFFFFFF00000010)]) = some 0x10 ∧ causeAfter .ret (groupS [(62, 1)]) = some .pcAlign := by
  decide +kernel

/-- R101: the taken lanes issue first, in a sub-group of their own; the others wait at the next instruction. -/
theorem test_brv :
    (match exec (.brv 8 1) (withAgent { coreAgent with v := [(1, Lanes.make fun l => if l = 3 then 1 else 0)] }) with
     | .next t => some (t.me.cur.em, t.me.cur.pc, t.me.others.map fun c => (c.em, c.pc)) | _ => none)
      = some (8, 16, [(0xFFFFFFF7, 4)]) := by decide +kernel

/-- R107: TRAP lets its chain take effect, and the record is post-effect with the code in [3:0] of 0xF0. -/
theorem test_trap :
    (match exec (.trap 3 7) (groupS [(7, 99)]) with
     | .next t => t.pending.map fun p => (p.cause.code, p.kind, p.detail, p.headPc) | _ => [])
      = [(0xF3, .postEffect, 99, 4)] := by decide +kernel

/-- R279: a supervisor thread saves its PC and cause and goes to STVEC. -/
theorem test_supervisor_trap :
    (match exec (.trap 3 7) (withAgent { supS.me with g := [(7, 99)], stvec := 0x100 }) with
     | .next t => some (t.me.sepc, t.me.scause, t.me.cur.pc) | _ => none) = some (4, 0x63F3, 0x100) := by decide +kernel

theorem witness_BranchResults :
    Clear (gNeed .all [63]) coreS ∧ Clear (gNeed .all [0]) csqS ∧ Clear (gNeed .all [1]) supS ∧
    (groupS [(62, 1)]).me.readG 62 = 1 ∧ (groupS [(62, 2)]).me.readG 62 = 2 ∧ (groupS [(1, 1)]).me.readG 1 ≠ 0 := by
  unfold Clear; decide +kernel

theorem witness_MaskSkipResults :
    Clear (gNeed .core [63]) coreS ∧ (groupS [(1, 0x80000000)]).me.readG 1 ≠ 0 ∧ Clear (gNeed .core [1]) (groupS [(1, 0x80000000)]) := by
  unfold Clear; decide +kernel

/-- BKPT with the debug enable of its context clear and set. -/
theorem witness_MaskAndTrapResults :
    Clear (gNeed .core [63]) coreS ∧ coreS.me.kind = .core ∧ coreS.me.env.debug = false ∧
    { coreAgent.env with debug := true }.debug = true ∧ Clear (gNeed .all [63]) coreS ∧ Clear (gNeed .all [0]) csqS ∧
    Clear (gNeed .all [63]) supS ∧ coreS.me.kind ≠ .sup ∧ supS.me.kind = .sup := by unfold Clear; decide +kernel

/-- A group with lanes 0 to 15 in its issuing sub-group and a sibling with the others at `pc`. -/
def splitS (parked : Bool) (pc : Word) : State :=
  withAgent { coreAgent with
    cur := { coreAgent.cur with id := 2, ls := 0xFFFF, em := 0xFFFF, parent := some 1 },
    others := [{ coreAgent.cur with id := 3, ls := 0xFFFF0000, em := 0xFFFF0000, parent := some 1, parked := parked, pc := pc }],
    splits := [⟨1, none, 0, 0⟩], nextId := 4 }
/-- A group whose sibling has ended. -/
def loneS : State :=
  withAgent { coreAgent with
    cur := { coreAgent.cur with id := 2, ls := 0xFFFF, em := 0xFFFF, parent := some 1 }, splits := [⟨1, none, 0, 1⟩], nextId := 4 }
/-- A group whose issuing sub-group is the child of a child, its sibling parked at the same FUSE; `k` lists what else stands. -/
def nestS (k : List Sub) : State :=
  withAgent { coreAgent with
    cur := { coreAgent.cur with id := 4, ls := 0xFF, em := 0xFF, parent := some 2 },
    others := { coreAgent.cur with id := 5, ls := 0xFF00, em := 0xFF00, parent := some 2, parked := true } :: k,
    splits := [⟨2, some 1, 0, 0⟩, ⟨1, none, 0, 0⟩], nextId := 6 }
/-- The sibling of the parent. -/
def uncle (parked : Bool) (pc : Word) : Sub := { coreAgent.cur with id := 3, parent := some 1, parked := parked, pc := pc }
/-- A group whose sibling has split further; one whose sibling's children have ended but for one. -/
def deeperS : State :=
  withAgent { coreAgent with
    cur := { coreAgent.cur with id := 2, parent := some 1 },
    others := [{ coreAgent.cur with id := 5, parent := some 3 }, { coreAgent.cur with id := 6, parent := some 3 }],
    splits := [⟨3, some 1, 0, 0⟩, ⟨1, none, 0, 0⟩], nextId := 7 }
def oneLeftS (parked : Bool) : State :=
  withAgent { coreAgent with
    cur := { coreAgent.cur with id := 4, parent := some 2 }, others := [uncle parked 0],
    splits := [⟨2, some 1, 0, 1⟩, ⟨1, none, 0, 0⟩], nextId := 6 }
/-- R102, R105: the FUSE of a nested sub-group joins all three groups; an EXIT that ends the last child of an inner entry
counts for the outer one, over which the parked sub-group fuses. -/
theorem test_nested :
    (match exec .fuse (nestS [uncle true 0]) with
     | .next t => some (t.me.cur.id, t.me.cur.pc, t.me.cur.parent, t.me.others.length, t.me.splits.length) | _ => none)
      = some (4, 4, none, 0, 0) ∧
    (match exec .exit (oneLeftS true) with
     | .next t => some (t.me.cur.id, t.me.cur.pc, t.me.cur.parent, t.me.others.length, t.me.splits.length) | _ => none)
      = some (3, 4, none, 0, 0) := by decide +kernel
/-- A group with serial-stack entries in a phase, and with a value in v1 that differs between the lanes. -/
def stackS (n : Nat) (phase : Bool) : State :=
  withAgent { coreAgent with
    v := [(1, Lanes.make fun l => if l = 31 then 1 else 0)],
    cur := { coreAgent.cur with stack := List.replicate n ⟨0xF0, 8, 0, phase, 0, 0xF, 12⟩ } }

theorem witness_DivergenceResults :
    Clear { Need.of .core with reads := srcReg 119, latches := srcLatch 119, wide := srcWide 119 } coreS ∧
    Clear { Need.of .core with reads := srcReg 123, latches := srcLatch 123, wide := srcWide 123 } latchS ∧
    Clear { Need.of .core with reads := srcReg 1, latches := srcLatch 1, wide := srcWide 1 } (stackS 0 false) ∧
    Clear { Need.of .core with reads := srcReg 1, latches := srcLatch 1, wide := srcWide 1 } (stackS 15 false) ∧
    Clear { Need.of .core with reads := srcReg 1, latches := srcLatch 1, wide := srcWide 1 } (stackS 16 false) ∧
    (stackS 0 false).me.src 1 31 ≠ 0 ∧ (stackS 0 false).me.src 1 0 = 0 ∧ 0 < (stackS 0 false).splitFree ∧
    (stackS 0 false).me.cur.stack = [] ∧ (stackS 15 false).me.cur.stack.length < 16 ∧ 16 ≤ (stackS 16 false).me.cur.stack.length ∧
    ((stackS 1 false).me.cur.stack.map SerialEntry.phase) = [false] ∧ ((stackS 1 true).me.cur.stack.map SerialEntry.phase) = [true] ∧
    coreS.me.cur.parent = none ∧ (splitS true 0).me.cur.parent = some 1 ∧ (splitS true 0).me.splits.map Split.parent = [none] ∧
    (splitS true 0).me.others.map (fun h => (h.parent, h.stack, h.parked, h.pc)) = [(some 1, [], true, (splitS true 0).me.cur.pc)] ∧
    (splitS true 8).me.others.map Sub.pc ≠ [(splitS true 8).me.cur.pc] ∧ (splitS false 0).me.others.map Sub.parked = [false] ∧
    loneS.me.others = [] ∧ loneS.me.splits.map Split.ended = [1] := by unfold Clear; decide +kernel

theorem witness_DivergenceResults_nested :
    (∀ h ∈ deeperS.me.others, h.parent ≠ some 1 ∧ h.parked = false ∧ h.id ≠ deeperS.me.cur.id) ∧
    (deeperS.me.splits.find? fun y => y.id == 1).map Split.ended = some 0 ∧
    (nestS [uncle true 0]).me.others.map (fun h => (h.id, h.parent, h.parked, h.pc)) = [(5, some 2, true, 0), (3, some 1, true, 0)] ∧
    (nestS []).me.cur.pc = 0 ∧ (uncle true 8).pc ≠ 0 ∧ (uncle false 0).parked = false ∧
    (oneLeftS true).me.splits.map Split.ended = [1, 0] := by decide +kernel

/-- A block of two groups: the other is the donee of a REGQ. -/
def quotaS (g : List (Nat × DWord)) : State :=
  { groupS g with agents := [{ coreAgent with who := .group ⟨0, 1, 0⟩ 1, index := 1, quota := 16 }] }

theorem witness_ExitAndQuotaResults :
    (stackS 1 true).me.cur.stack.map (fun e => (e.phase, e.em)) = [(true, 0xF)] ∧
    (exec .exit { stackS 1 true with me := { (stackS 1 true).me with cur := { (stackS 1 true).me.cur with stack := [] } } }
      matches .next _) = true ∧ (splitS true 0).me.splits.map Split.ended = [0] ∧ (splitS false 0).me.others.map Sub.parked = [false] ∧
    (oneLeftS false).me.others.map Sub.parked = [false] ∧ (oneLeftS true).me.splits.map Split.parent = [some 1, none] ∧
    (stackS 1 false).me.cur.stack.map SerialEntry.phase = [false] ∧ coreS.me.others = [] ∧ coreS.me.cur.parent = none ∧
    Clear (gNeed .core [63, 1, 2]) coreS ∧ ((coreS.me.readG 2).toNat = 0) ∧
    ((quotaS [(1, 0), (2, 8)]).me.readG 2).toNat % 8 = 0 ∧ ((quotaS [(1, 0), (2, 8)]).me.readG 1).toNat = coreS.me.index ∧
    (quotaS [(1, 1), (2, 104)]).agents.find? ((quotaS [(1, 1), (2, 104)]).donee 1) ≠ none ∧
    (120 : Nat) < 8 + 120 ∧ 104 + 8 ≤ (quotaS []).me.quota ∧ 16 + 104 ≤ 120 ∧ (quotaS []).me.quota < 120 + 8 := by
  unfold Clear; decide +kernel

/-! Memory instructions. -/

/-- A unit of one core. -/
def testUnit : WorkUnit :=
  { key := ⟨0, 1, 0⟩, kind := .core, die := 0, cluster := 0, cores := [0], drawn := [0], bshared := 0, runs := [0],
    env := coreAgent.env, snap := none, bulk := none, preempt := none, saved := false, ended := false, snaps := 0,
    discard := false, rot := none, savedAt := 0, windows := [] }
/-- Disciplined time of die 0. -/
def timedS (now : DWord) (s : State) : State := { s with dies := [(0, { Die.fresh with time := now, disciplined := true })] }
def detS (s : State) : State := { s with me := { s.me with env := { s.me.env with det := true } } }
/-- `n` stores in the queue. -/
def queuedS (n : Nat) (s : State) : State :=
  { s with me := { s.me with storeQ := List.replicate n ⟨[(spadKey 0 0, 7)], 0, false, 0⟩ } }
/-- The access of `w` bytes at local address 0. -/
def access0 (w : Nat) : Access := ⟨0, (List.range w).map fun i => .loc (localKey 0 0 0 i)⟩

/-- R1, R134, R135: bytes are little-endian, and B5 counts accesses of the form's width. -/
theorem test_load :
    laneAfter (.ld16 1 1 4) { laneS [(1, 0x10000000)] with mem := [(spadKey 0 2, 0x34), (spadKey 0 3, 0x12)] } 4 = some 0x1234 ∧
    causeAfter (.ld32 0 1 4) (laneS [(1, 0x80000)]) = some .range ∧ causeAfter (.ld32 0 1 4) (laneS [(1, 2)]) = some .align := by
  decide +kernel

/-- R135: a store waits in the queue, its own group reads it, and memory takes it when it performs. -/
theorem test_store :
    (match exec (.st8 3 1 2) (laneS [(1, 0x10000000), (2, 0x1FF)]) with
     | .next t =>
       (match exec (.storePerform t.me.who) t with
        | .next u => some (t.mem, laneAfter (.ld8 3 1 4) t 4, u.mem, u.me.storeQ.length)
        | _ => none)
     | _ => none) = some ([], some 0xFF, [(spadKey 0 3, 0xFF)], 0) := by decide +kernel

/-- R142: ATADD of 1 by 32 lanes at one word adds 32; v[D] of lane 5 is the value after lanes 0 to 4. -/
theorem test_atadd :
    (match exec (.atadd 4 3 2 1) (laneS [(2, 0x10000000), (3, 1)]) with
     | .next t => some (t.mem, t.me.readV 1 5) | _ => none) = some ([(spadKey 0 0, 32)], 5) := by decide +kernel

/-- R145: GLD reads 64 bits; a misaligned address traps. -/
theorem test_gld :
    groupAfter (.gld 1 5 6) { groupS [(5, 0x10000000)] with mem := [(spadKey 0 15, 0x80)] } 6 = some 0x8000000000000000 ∧
    causeAfter (.gld 0 5 6) (groupS [(5, 0x10000004)]) = some .align := by decide +kernel

/-- R140: LDNB without disciplined time, and in deterministic mode. -/
theorem test_ldnb : causeAfter (.ldnb 3 2 1) coreS = some .timeUndisciplined ∧
    causeAfter (.ldnb 3 2 1) (timedS 5 (detS coreS)) = some .timedInDet := by decide +kernel

/-- R278, R310: a supervisor's load goes by virtual address; an address that no leaf maps enters the handler. -/
theorem test_sup_load :
    groupAfter (.gld 0 1 2) (mapped (supG [(1, 0x10000)])) 2 = some 0x20001 ∧
    (match exec (.gld 0 1 2) (mapped (supG [(1, 0x40000000)])) with | .next t => some t.me.scause | _ => none)
      = some 0x4000000060 := by decide +kernel

theorem lanesPass0 (s : State) (w : Nat) (f : Nat → List OdaByte → Option Cause)
    (h : ∀ l, l < 32 → s.laneAccess s.me w f l (s.me.ea 0 0 l) = .ok (access0 w)) : LanesPass s w 0 0 f fun _ => access0 w :=
  fun l hl _ => h l hl

/-- Of each width: 16 bytes end at v119. A lane at the end of local memory fails. -/
theorem witness_LaneLoadResults :
    (Clear (loadNeed 1 0 119) coreS ∧ Clear (loadNeed 8 0 118) coreS ∧ Clear (loadNeed 16 127 116) coreS ∧
     Clear { loadNeed 4 0 119 with scope := (6 : BitVec 3) == 7 } coreS) ∧
    (LanesPass coreS 16 0 0 (fun ea bs => coreS.loadFault coreS.me ea bs) fun _ => access0 16) ∧
    (LaneFails (laneS [(1, 0x80000)]) 4 0 1 (fun ea bs => coreS.loadFault coreS.me ea bs) ⟨0, .range, 0x80000⟩) ∧
    ((access0 1).bytes.length = 1) := by
  refine ⟨by unfold Clear; decide +kernel, lanesPass0 _ _ _ (by decide +kernel), ⟨0, by decide, by decide, by decide +kernel, ?_⟩, rfl⟩
  intro k hk; omega

theorem witness_LaneStoreResults :
    (Clear (storeNeed 1 0 123) latchS ∧ Clear (storeNeed 4 0 124) coreS ∧ Clear (storeNeed 8 0 118) coreS ∧
     Clear (storeNeed 16 0 116) coreS ∧ Clear { storeNeed 4 0 119 with scope := (0 : BitVec 3) == 7 } coreS) ∧
    16 ≤ (queuedS 16 coreS).me.storeQ.length ∧ (queuedS 15 coreS).me.storeQ.length < 16 ∧
    (LanesPass coreS 16 0 0 (fun ea bs => coreS.storeFault coreS.me ea bs) fun _ => access0 16) ∧
    (LaneFails (laneS [(1, 0x80000)]) 4 0 1 (fun ea bs => coreS.storeFault coreS.me ea bs) ⟨0, .range, 0x80000⟩) ∧
    ((queuedS 1 coreS).agent coreS.me.who = some (queuedS 1 coreS).me ∧ (queuedS 1 coreS).peerWrites coreS.me.who = false ∧
     (queuedS 1 coreS).snapOf ⟨0, 1, 0⟩ = none ∧ (queuedS 1 coreS).units = [] ∧
     { coreS with units := [{ testUnit with snap := some ⟨[], [], [], []⟩ }] }.snapOf ⟨0, 1, 0⟩ = some ⟨[], [], [], []⟩) := by
  refine ⟨by unfold Clear; decide +kernel, by decide, by decide, lanesPass0 _ _ _ (by decide +kernel),
    ⟨0, by decide, by decide, by decide +kernel, fun k hk => by omega⟩, by decide +kernel⟩

/-- A timed store due at 5 in the table of core 0, and a group that waits for an LDNB due at 5. -/
def dueS (now : DWord) : State :=
  timedS now { withAgent (coreAgent.setWait (.ldnb 1 [(31, 0)] 5 [] 0)) with
    cores := [(0, ⟨none, [⟨coreAgent.who, ⟨0, 1, 0⟩, 0, 0, [(spadKey 0 0, 7)], 5, 0⟩]⟩)] }

/-- The first sixteen bytes of core 0's local memory are poisoned. -/
def badS (s : State) : State := { s with poison := [localKey 0 0 0 0 / 16] }

theorem witness_TimedAccessResults :
    (Clear (loadNeed 4 0 119) coreS ∧ Clear (storeNeed 4 0 127) coreS ∧ (detS coreS).me.env.det = true ∧ coreS.me.env.det = false ∧
     (coreS.die 0).disciplined = false ∧ ((timedS 5 coreS).die 0).disciplined = true) ∧
    (LanesPass (timedS 5 coreS) 4 0 0 (fun ea bs => coreS.loadFault coreS.me ea bs) fun _ => access0 4) ∧
    (LanesPass (timedS 5 coreS) 4 0 0 (fun ea bs => coreS.storeFault coreS.me ea bs) fun _ => access0 4) ∧
    (((dueS 5).core 0 0 0).timed.map TimedStore.time = [5] ∧ ((dueS 5).die 0).time = 5 ∧ ((dueS 4).die 0).time = 4 ∧
     (dueS 5).agent coreAgent.who = some (dueS 5).me ∧ (dueS 5).me.wait = .ldnb 1 [(31, 0)] 5 [] 0 ∧ (dueS 5).me.others = [] ∧
     ((dueS 5).ldnbLane (dueS 5).me [] 0).2 = false ∧ ((badS (dueS 5)).ldnbLane (dueS 5).me [] 0).2 = true ∧
     (dueS 5).storesDue 0 = [(5, 0, 0)] ∧ timedBefore (5, 0, 0) (5, 0, 0) = false ∧
     (dueS 5).tieBefore ⟨coreAgent.who, ⟨0, 1, 0⟩, 0, 0, [(spadKey 0 0, 7)], 5, 0⟩ (5, 0, 0) = false ∧
     (dueS 5).snapOf ⟨0, 1, 0⟩ = none ∧ (dueS 5).checkOda (dueS 5).me 0 4 = .ok (access0 4).bytes ∧
     { timedS 5 coreS with cores := [(0, ⟨none, List.replicate 32 ⟨coreAgent.who, ⟨0, 1, 0⟩, 0, 0, [], 5, 0⟩⟩)] }.core 0 0 0
       = ⟨none, List.replicate 32 ⟨coreAgent.who, ⟨0, 1, 0⟩, 0, 0, [], 5, 0⟩⟩) := by
  refine ⟨by unfold Clear; decide +kernel, lanesPass0 _ _ _ (by decide +kernel), lanesPass0 _ _ _ (by decide +kernel), by decide +kernel⟩

/-- A write to a peer of the agent whose turn it is has no response yet. -/
def peerBusy (s : State) : State :=
  { s with requests := [⟨0, 2, some s.me.who, s.me.place.die, 0, 0, 0, 0, 0, none, false, false⟩] }
/-- Its store queue holds a release at `.sys`, which waits for that response. -/
def heldQ (s : State) : State := { peerBusy s with me := { s.me with storeQ := [⟨[(spadKey 0 0, 7)], 6, true, 0⟩] } }

theorem witness_AtomicResults :
    (Clear (atomicNeed .cas 6 30 0 119) coreS ∧ Clear (atomicNeed .add 0 31 0 0) coreS ∧ coreS.me.kind = .core ∧
     (withEm coreS 0).me.cur.em = 0 ∧ Clear (atomicNeed .add 0 31 0 0) (withEm coreS 0)) ∧
    (LanesPass coreS 4 0 0 (fun ea bs => coreS.atomicFault coreS.me .add ea bs) fun _ => access0 4) ∧
    (LaneFails (laneS [(1, 0x20000000)]) 4 0 1 (fun ea bs => coreS.atomicFault coreS.me .add ea bs) ⟨0, .genStore, 0x20000000⟩) ∧
    (coreS.me.env.det = false ∧ coreS.snapOf coreS.me.unit = none ∧ coreS.launch 0 1 = none ∧ coreS.units = [] ∧
     coreS.drain.rotationOf coreS.drain.me = none ∧
     coreS.drain.me.storeQ = [] ∧ (heldQ coreS).drain.me.storeQ ≠ []) := by
  refine ⟨by unfold Clear; decide +kernel, lanesPass0 _ _ _ (by decide +kernel),
    ⟨0, by decide, by decide, by decide +kernel, fun k hk => by omega⟩, by decide +kernel⟩

/-- A group of a deterministic block, with an atomic that has not reached its words. -/
def detRotS : State :=
  { detS coreS with units := [{ testUnit with env := { coreAgent.env with det := true }, rot := some ⟨0, 0, false⟩ }] }
def lateAgent : Agent := { detRotS.me with atomics := [⟨9, .add, 0, [(0, 0, 1, 0)], 3, 1⟩] }

theorem witness_AtomicResults_rotation :
    detRotS.drain.me.storeQ = [] ∧ (detRotS.drain.rotationOf detRotS.drain.me).isSome = true ∧
    ({ detRotS with me := lateAgent }).agent lateAgent.who = some lateAgent ∧ lateAgent.atomics.length = 1 := by decide +kernel

/-- A copy command of its unit is in the queue of die 0. -/
def copyBusy (s : State) : State :=
  { s with dies := [(0, { Die.fresh with copyQ :=
      [{ seq := 0, who := s.me.who, place := s.me.place, unit := s.me.unit, env := s.me.env, work := .node 0, bar := none, handle := 0,
         time := none, dest := 0, windows := [], throttle := 0, codes := [], stage := 0, bytes := 0, status := 0, stall := none,
         missed := false }] })] }

theorem witness_FenceResults :
    Clear { Need.of .coreSup with field := !((1 : BitVec 5) == 1 || (1 : BitVec 5) == 2 || (1 : BitVec 5) == 3), scope := (0 : BitVec 3) == 7 } coreS ∧
    Clear { Need.of .coreSup with field := !((3 : BitVec 5) == 1 || (3 : BitVec 5) == 2 || (3 : BitVec 5) == 3), scope := (6 : BitVec 3) == 7 } supS ∧
    Clear { Need.of .coreSup with field := !((2 : BitVec 5) == 2 || (2 : BitVec 5) == 3), scope := (6 : BitVec 3) == 7 } coreS ∧
    coreS.drain.me.storeQ = [] ∧ coreS.drain.me.atomics = [] ∧ { detRotS with me := lateAgent }.drain.me.atomics ≠ [] ∧
    (heldQ coreS).drain.me.storeQ ≠ [] ∧ coreS.drain.peerWrites coreS.drain.me.who = false ∧ (peerBusy coreS).drain.peerWrites (peerBusy coreS).drain.me.who = true ∧
    coreS.drain.hasCommands = false ∧ (copyBusy coreS).drain.hasCommands = true := by unfold Clear; decide +kernel

theorem witness_GroupAccessResults :
    (Clear (gNeed .all [63, 0]) coreS ∧ Clear (gNeed .all [1, 2]) csqS ∧ coreS.me.kind ≠ .sup ∧
     Clear { gNeed .all [63, 63] with scope := (6 : BitVec 3) == 7 } csqS) ∧
    (coreS.laneAccess coreS.me 8 (fun ea bs => coreS.loadFault coreS.me ea bs) 0 0 = .ok (access0 8) ∧
     coreS.laneAccess coreS.me 8 (fun ea bs => coreS.storeFault coreS.me ea bs) 0 0 = .ok (access0 8) ∧
     coreS.laneAccess coreS.me 8 (fun ea bs => coreS.loadFault coreS.me ea bs) 0 4 = .error ⟨0, .align, 4⟩ ∧
     coreS.laneAccess coreS.me 8 (fun ea bs => coreS.storeFault coreS.me ea bs) 0 0xFFFFFFF8 = .error ⟨0, .range, 0xFFFFFFF8⟩) ∧
    (16 ≤ (queuedS 16 coreS).me.storeQ.length ∧ (queuedS 15 coreS).me.storeQ.length < 16) := by
  unfold Clear; decide +kernel

/-- A route to node 5 that passes its check: this device's own node is its end. -/
def routed (s : State) : State :=
  { s with topo := List.replicate 64 0 ++ [1], routes := List.replicate 640 0 ++ [0, 1, 0, 0, 0, 0, 0, 0, 0x88] }

/-- A miss of another page waits for a walk slot on the hub die. -/
def missHub (s : State) : State :=
  { s with dies := [(8, { Die.fresh with walks := [⟨64, 0xFF000000, false, false, 1, 0, 0, 0, none, [], false⟩] })] }

theorem witness_SupervisorAccessResults :
    (Clear (gNeed .all [63, 0]) supS ∧ supS.me.kind = .sup ∧ Clear { gNeed .all [1, 2] with scope := (6 : BitVec 3) == 7 } supS ∧
     supS.me.storeQ.length < 16 ∧
     Clear { gNeed .coreSup [1, 2] with scope := (6 : BitVec 3) == 7, reg := badG 1 || badG 2 || (AtomicOp.cas == .cas && (30 : BitVec 5) == 31) } supS) ∧
    ((mapped supS).translate none (.agent (.sup 0)) 8 0 0x10000 0x3FFFFFF8 false false).2 = .frame 0x3FFFFFF8 0x7F 2 ∧
    ((mapped supS).translate none (.agent (.sup 0)) 8 0 0x10000 0x10000 true false).2 = .frame 0x10000 0x7F 2 ∧ isPeerKey 0x10000 = false ∧
    ((mapped supS).translate none (.agent (.sup 0)) 8 0 0x10000 0x10000 true false).1.poison.contains (0x10000 / 16) = false ∧
    outcomeTrap ((mapped supS).translate none (.agent (.sup 0)) 8 0 0x10000 0x40000000 false false).2 = some .pageNotPresent ∧
    ((mapped supS).translate none (.agent (.sup 0)) 8 0 0x10000 0x80000000 false false).2 = .peer 5 9 0x9005047F 2 ∧
    ((missHub (mapped supS)).translate none (.agent (.sup 0)) 8 0 0x10000 0x10000 true false).2 = .waits ∧
    (routed (mapped supS)).routeFault 5 0x80000000 = none ∧
    supS.drain.peerWrites supS.drain.me.who = false ∧ (4 : BitVec 56).toNat % 8 ≠ 0 := by
  unfold Clear; decide +kernel

/-! Tensor records, barriers and copies. -/

/-- A tensor record of 2 rows of 8 FP32 elements in the die scratchpad, one tile. -/
def testRecord : BitVec 512 :=
  BitVec.ofNat 512 (0x10000000 + 2 * 2 ^ 72 + 2 * 2 ^ 96 + 8 * 2 ^ 112 + 8 * 2 ^ 128 + 2 * 2 ^ 160 + 32 * 2 ^ 256)
/-- The same at another base. -/
def testRecord2 : BitVec 512 := testRecord + 0x1000
/-- A context that has both, as ids 1 and 2. -/
def tensorCtx : Context := { Context.fresh with tensors := [(1, testRecord), (2, testRecord2)] }
def tensorS (s : State) : State := { s with contexts := [(0, tensorCtx)] }

/-- A live barrier entry, bound to slot 0 of the table of the agent whose turn it is. -/
def bar0 : Barrier := ⟨true, false, 2, 2, 0, 8, 0, 0, 5, 1, 1⟩
def barS (s : State) : State := { s with barriers := [(0, bar0)], tables := [(s.me.tableOwner, [(0, ⟨1, some 0⟩)])] }
/-- Its handle. -/
def hnd : DWord := 0x800

/-- R120: the record is legal; with RANK 0 it fails first by sub-reason 4. -/
theorem test_record : recordCheck testRecord = none ∧ recordCheck (testRecord - BitVec.ofNat 512 (2 * 2 ^ 72)) = some 4 := by
  decide +kernel

/-- R121: element (3, 1) of the record lies at BASE + 32 + 12. -/
theorem test_address : elemAddrs testRecord 3 1 0 0 = ([0x1000002C, 0x1000002D, 0x1000002E, 0x1000002F], 0) := by decide +kernel

/-- R146: an empty entry reads as SPACE 11 in word 0. -/
theorem test_tqry : groupAfter (.tqry 5 4 6) (groupS [(4, 9)]) 6 = some 0xC000000000000000 ∧
    groupAfter (.tqry 5 4 6) (tensorS (groupS [(4, 1), (5, 4)])) 6 = some 32 := by decide +kernel

/-- R147, R148: BALLOC gives slot 0 with generation 1, and the id of entry 0 with generation 1 in [47:32]. -/
theorem test_balloc : groupAfter (.balloc 3 2 1) (groupS [(2, 0x10000)]) 1 = some 0x040000000800 ∧
    groupAfter (.balloc 3 2 1) (groupS [(2, 0)]) 1 = some 0x8000000000000003 := by decide +kernel

/-- R150: the second of two arrivals with no byte expected flips the phase. -/
theorem test_barv :
    (match exec (.barv 6 1 5) (barS (groupS [(1, hnd), (6, 2)])) with
     | .next t => some ((t.barrier 0).phase, (t.barrier 0).pending) | _ => none) = some (false, 0) ∧
    ({ bar0 with expected := 0, pending := 0 }.settle.phase, { bar0 with expected := 0, pending := 0 }.settle.pending) = (true, 2) := by
  decide +kernel

/-- R154: a copy of a tile is one step; its bytes go from one record's base to the other's. -/
theorem test_cpy :
    (match exec (.cpy 12 11 10) { tensorS (groupS [(10, 2), (11, 1)]) with mem := [(spadKey 0 0x2C, 7)] } with
     | .next t =>
       (match exec (.copyCommandComplete 0 0) t with | .next u => some (u.mem, (u.die 0).copyQ.length) | _ => none)
     | _ => none) = some ([(spadKey 0 0x2C, 7), (spadKey 0 0x102C, 7)], 0) := by decide +kernel

def recordBytes (r : BitVec 512) : List (Nat × Byte) :=
  ((List.range 64).map fun i => (spadKey 0 i, BitVec.ofNat 8 (r.toNat / 2 ^ (8 * i)))).filter fun c => c.2 != 0
/-- The record's image at the base of the scratchpad, and g1 to g3 as given. -/
def imageS (r : BitVec 512) (sel : DWord) : State := { groupS [(1, 0x10000000), (2, sel)] with mem := recordBytes r }

theorem witness_TensorTableResults :
    (Clear (gNeed .core [1, 2]) (imageS testRecord 4095) ∧ Clear (gNeed .core [63, 1, 2]) coreS ∧ Clear (gNeed .core [1]) coreS) ∧
    ((imageS testRecord 4095).me.readG 2 = BitVec.ofNat 64 4095 ∧
     ((imageS testRecord 4095).image 0x10000000 64).toOption.map (fun bs => BitVec.ofNat 512 (leNat bs)) = some testRecord ∧
     ((imageS (testRecord + BitVec.ofNat 512 (2 ^ 80)) 0).image 0x10000000 64).toOption.map
       (fun bs => recordCheck (BitVec.ofNat 512 (leNat bs))) = some (some 8) ∧
     coreS.image 0x100000 64 = .error .range ∧ coreS.image 0x10000020 64 = .error .align) ∧
    ((BitVec.ofNat 64 (2 ^ 16 + 15) : DWord) = 0x1000F ∧ (coreS.image 0x10000020 32).toOption.isSome = true ∧ windowOk 0 = true ∧
     windowOk 0xFF = false ∧ 4096 ≤ (0x1000 : DWord).toNat ∧ ¬(2 ^ 16 ≤ (0x10010 : DWord).toNat ∧ (0x10010 : DWord).toNat < 2 ^ 16 + 16)) ∧
    ((tensorS coreS).queryTensor 1 = some testRecord ∧ coreS.queryTensor 0 = none) ∧
    (((tensorS coreS).context 0).tensor 1 = some testRecord ∧ 2 < trGran (setScale testRecord 0x30000) ∧
     trGran (setScale testRecord 0x10000) ≠ 0 ∧ (trRef (setScale testRecord 0x10000) 0x30).isNone = true ∧
     trGran (setScale testRecord 0x28005) = 2 ∧ (trRef (setScale testRecord 0x28005) 0x30).isNone = false ∧
     (0x28005 : DWord).extractLsb' 12 3 = 0) := by unfold Clear; decide +kernel

/-- A waiter for entry 0 at a parity with a deadline, at die time 5. -/
def waitS (p : Bool) (T : DWord) : State :=
  timedS 5 (barS (withAgent ({ coreAgent with arrivals := [⟨0, 1, 1, 0⟩] }.setWait (.bwait 1 0 p (some T)))))

theorem witness_BarrierPhases :
    (bar0.live = true ∧ ({ bar0 with pending := 0, expected := 0 }).counted = 0 ∧ 1 < ({ bar0 with refs := 2 } : Barrier).refs ∧
     bar0.refs ≤ 1 ∧ ((barS coreS).barrier 0).counted + 8 ≤ ((barS coreS).barrier 0).expected ∧ 2 ≤ ((barS coreS).barrier 0).pending ∧
     ((barS coreS).barrier 0).expected < ((barS coreS).barrier 0).counted + 9) ∧
    ((waitS true 5).agent coreAgent.who = some (waitS true 5).me ∧ ((waitS true 5).barrier 0).phase ≠ true ∧
     ((waitS false 5).barrier 0).phase = false ∧ (5 : DWord).toNat ≤ ((waitS false 5).die 0).time.toNat ∧
     ((waitS false 6).die 0).time.toNat < (6 : DWord).toNat ∧ (waitS true 5).me.arrivals = [⟨0, 1, 1, 0⟩] ∧
     ((waitS true 5).barrier 0).gen = 1 ∧ (waitS true 5).me.others = [] ∧
     (((waitS true 5).unit coreAgent.unit).bind fun u => u.rot) = none) := by decide +kernel

/-- A group of a deterministic block: its arrivals are made when the rotation reaches them. -/
theorem witness_BarrierPhases_rotation :
    (waitS true 5).rotates coreAgent = false ∧ (barS coreS).rotates (barS coreS).me = false ∧
    (barS detRotS).rotates (barS detRotS).me = true ∧ (barS coreS).me.atomics = [] := by decide +kernel

theorem witness_BarrierResults :
    (Clear (gNeed .all [63, 1, 2]) coreS ∧ Clear (gNeed .all [1]) csqS ∧ Clear (gNeed .all [1, 2]) supS) ∧
    (coreS.ballocSlot 0x1003F = some 63 ∧ (barS coreS).ballocSlot 0x10000 = none ∧ (barS coreS).ballocSlot 0x10040 = some 1 ∧
     coreS.freeEntry = some 0 ∧ (barS coreS).freeEntry = some 1 ∧ (0x10000 : DWord).extractLsb' 16 16 ≠ 0) ∧
    ((barS coreS).handle 0x800 = some 0 ∧ (barS coreS).handle 0x1000 = none ∧ (barS coreS).handle 0x801 = none) ∧
    (((barS coreS).barrier 0).live = true ∧ ((barS coreS).barrier 0).gen = ((0x400 : DWord).extractLsb' 10 6).toNat ∧
     (coreS.barrier 0).live = false ∧ ((barS coreS).slotOf coreS.me.tableOwner 0).bound.isSome = true ∧
     ((barS coreS).slotOf coreS.me.tableOwner 63).bound = none) ∧
    (2 ^ 40 ≤ ((barS coreS).barrier 0).expected + (2 ^ 40 - 8) ∧ ((barS coreS).barrier 0).expected + (2 ^ 40 - 9) < 2 ^ 40) ∧
    (((barS coreS).barrier 0).pending < 3 + (barS coreS).heldArrivals 0 1 ∧ ¬(((barS coreS).barrier 0).pending < 2 + (barS coreS).heldArrivals 0 1) ∧
     (barS coreS).me.storeQ = [] ∧ (queuedS 1 (barS coreS)).me.storeQ ≠ []) ∧
    (((barS coreS).barrier 0).phase = false ∧ coreS.me.env.det = false ∧ ((timedS 5 coreS).die 0).disciplined = true ∧
     (detS coreS).me.env.det = true ∧ (coreS.die 0).disciplined = false) := by unfold Clear; decide +kernel

/-- A barrier pool with no free entry. -/
def fullPool : State := { coreS with barriers := (List.range' 0 1024).map fun i => (i, bar0) }

theorem get_fullPool (n k i : Nat) (h : k ≤ i) (h' : i < k + n) :
    Store.get Barrier.fresh ((List.range' k n).map fun i => (i, bar0)) i = bar0 := by
  induction n generalizing k with
  | zero => omega
  | succ n ih =>
    simp only [List.range'_succ, List.map_cons, Store.get]
    split
    · rfl
    · exact ih (k + 1) (by omega) (by omega)

theorem witness_BarrierResults_pool : fullPool.freeEntry = none := by
  rw [State.freeEntry, List.find?_eq_none]
  intro i hi
  have hi : i < 1024 := by simpa using hi
  have hk : fullPool.poolKey i = i := by
    show barrierKey 0 0 i = i; simp [barrierKey]
  have hb : fullPool.barrier i = bar0 := get_fullPool 1024 0 i (by omega) (by omega)
  simp [hk, hb, show bar0.live = true from rfl]

/-- The issuer of a command of the agent whose turn it is. -/
def issuer0 (s : State) : Issuer := ⟨s.me, 0, [(0, 0)], 0⟩

theorem witness_EngineReferences :
    ((barS coreS).handle 0x800 = some 0 ∧ (barS coreS).handle 0x801 = none ∧ tensorCtx.tensor 3 = none ∧
     tensorCtx.tensor 1 = some testRecord ∧ (BitVec.ofNat 64 (1 + 2 ^ 55) : DWord).extractLsb' 53 3 ≠ 0 ∧
     (BitVec.ofNat 64 (1 + 2 ^ 52) : DWord).getLsbD 52 = true ∧ trTread testRecord = false ∧
     trExt testRecord 1 ≤ 1 * trRows testRecord ∧ 0 * trRows testRecord < trExt testRecord 1 ∧ 0 * trCols testRecord < trExt testRecord 0 ∧
     0 < trExt testRecord 2) ∧
    (coreS.odaByte coreS.me 0x80000 = .error .range ∧ coreS.odaByte coreS.me 0 = .ok (.loc (localKey 0 0 0 0)) ∧
     coreS.detClusterFault coreS.me 0 = false ∧ coreS.replicaLocked 0 (localKey 0 0 0 0) = false ∧
     coreS.odaByte coreS.me 0x2FFFFFFF = .ok (.window 15 0xFFFFFF)) := by decide +kernel

/-- R133: a window record whose bit DISCARD is set. -/
theorem witness_EngineReferences_window : ∃ r : BitVec 256, genDiscard r = true ∧ genDiscard 0 = false :=
  ⟨BitVec.allOnes 256, by decide +kernel⟩

/-- A command in the queues of die 0, and its issuer's unit. -/
def testCopy (work : CopyWork) : CopyCmd :=
  { seq := 0, who := coreAgent.who, place := coreAgent.place, unit := coreAgent.unit, env := coreAgent.env, work := work, bar := none,
    handle := 0, time := none, dest := 0, windows := [], throttle := 0, codes := [], stage := 0, bytes := 0, status := 0,
    stall := none, missed := false }
def copyS (c : CopyCmd) : State := { coreS with dies := [(0, { Die.fresh with copyQ := [c] })] }
def tile1 : TileRef := ⟨testRecord, 0, 0, 0, false⟩
def tile2 : TileRef := ⟨testRecord2, 0, 0, 0, false⟩
def fullS : State := { coreS with dies := [(0, { Die.fresh with copyQ := List.replicate 256 (testCopy (.node 0)), disciplined := true })] }

/-- A commit to the first byte of a tile on die 0. -/
def commit0 (locked : Bool) : Commit :=
  ⟨0, [(spadKey 0 0, 7)], [0], locked, 0, ⟨0, coreAgent.who, coreAgent.unit, false, none, 0, 0, 0, 0⟩, some (5, 0, 0), false⟩
def commitS (locked : Bool) (s : State) : State := { s with commits := [commit0 locked] }

theorem witness_CopyAcceptResults :
    (Clear (gNeed .core [63, 1, 2]) coreS ∧
     Clear { gNeed .core [1, 2, 62] with reg := badG 1 || badG 2 || decide (62 < (62 : BitVec 7).toNat),
                                         wide := [1, 2, 62, 62 + 1].flatMap gReg } coreS ∧
     Clear { units := .core, field := false, scope := false, reg := badDest 119 || decide (120 ≤ (119 : BitVec 7).toNat) || badG 63,
             reads := srcReg 119, writes := srcReg 119, latches := [], wide := gReg 63 ++ [xtReg 0] } coreS) ∧
    ((tensorS coreS).copyCheck 0 1 2 = .ok (none, 0, tile1, tile2) ∧ (tensorS coreS).copyCheck 0 1 3 = .error (.tensorId, 0) ∧
     256 ≤ (fullS.die 0).copyHeld ∧ (coreS.die 0).copyHeld < 256 ∧ (fullS.die 0).disciplined = true ∧ (coreS.die 0).disciplined = false ∧
     coreS.me.env.det = false ∧ (detS coreS).me.env.det = true) ∧
    ((BitVec.ofNat 64 (16 * 2 ^ 16) : DWord).extractLsb' 3 13 = 0 ∧ coreS.meetsSpill coreS.me.place 0 (32 * 16) = false ∧
     coreS.meetsSpill coreS.me.place 0x7E000 (32 * 16) = true ∧ coreS.me.gathOut < 8 ∧
     8 ≤ ({ coreS.me with gath := List.replicate 8 ⟨1, false⟩ } : Agent).gathOut) := by unfold Clear; decide +kernel

/-- A span in a block's shared backing, and a commit of a CPYT that has its locks to come. -/
theorem witness_CopyAcceptResults_shared :
    coreS.meetsShared coreS.me.place 0 (32 * 16) = false ∧
    { coreS with units := [{ testUnit with runs := [1], bshared := 0x10000 }] }.meetsShared coreS.me.place 0x10000 (32 * 16) = true ∧
    (commitS false coreS).commits.map (fun c => (c.locked, c.timed)) = [(false, some (5, 0, 0))] := by decide +kernel

/-- A CPYT due at 5 with its data read, at die time `now`. -/
def heldS (now : DWord) : State :=
  { coreS with dies := [(0, { Die.fresh with heldT := [{ testCopy (.tile 0 tile1 tile2) with time := some 5 }], time := now })] }
def testXt : Xt := ⟨0, 0, .device, 0x10, 3, 0⟩
def rowWork : CopyWork := .rows true 1 0xFFFFFFFF Lanes.zero 0 16 testXt

/-- The record of a replicated page, and of a tile in virtual space. -/
def replTile : TileRef := ⟨testRecord + BitVec.ofNat 512 (2 ^ 82), 0, 0, 0, false⟩
def vaTile : TileRef := ⟨testRecord + BitVec.ofNat 512 (2 ^ 62), 0, 0, 0, false⟩
/-- A tile in a peer's memory. -/
def peerTile : TileRef := ⟨testRecord + BitVec.ofNat 512 (2 ^ 62 + 0x70000000), 0, 0, 0, false⟩
def iss0 (c : CopyCmd) : Issuer := c.issuer 0

theorem witness_CopyPerformResults :
    (((copyS (testCopy (.tile 0 tile1 tile2))).die 0).copyQ.map CopyCmd.work = [.tile 0 tile1 tile2] ∧
     (copyS (testCopy (.tile 0 tile1 tile2))).answered 0 0 = true ∧
     { copyS (testCopy (.tile 0 tile1 tile2)) with requests := [⟨0, 1, none, 0, 0, 0, 0, 0, 0, none, false, false⟩] }.answered 0 0 = false ∧
     (copyS (testCopy (.tile 0 tile1 tile2))).peerKeysOf ((testCopy (.tile 0 tile1 tile2)).issuer 0) 0 (tile1.addrs tile2.positions) = [] ∧
     (let s := copyS (testCopy (.tile 0 tile1 replTile))
      let e := iss0 (testCopy (.tile 0 tile1 replTile))
      let r := s.readCodes e tile1 replTile.positions
      let w := r.1.writeTile e 0 tile1 replTile r.2.1
      metLock r.2.2 = false ∧ metWait r.2.2 = false ∧ metWait w.2.2 = false ∧ trRepl tile2.record = false ∧ trRepl replTile.record = true ∧
      r.1.commitPending 0 w.2.1 = false ∧ (commitS false r.1).commitPending 0 w.2.1 = true ∧ w.1.snapOf coreAgent.unit = none ∧
      coreAgent.env.det = false ∧ metLock ((commitS true s).readCodes e tile1 tile2.positions).2.2 = true ∧
      metWait ((commitS true s).readCodes e tile1 tile2.positions).2.2 = false)) ∧
    (metWait ((missS (mapped coreS)).readCodes (iss0 (testCopy (.tile 0 vaTile tile2))) vaTile tile2.positions).2.2 = true ∧
     metWait ((missS (mapped coreS)).writeTile (iss0 (testCopy (.tile 0 tile1 vaTile))) 0 tile1 vaTile [(0, 0, 0)]).2.2 = true ∧
     (heldS 5).goesOut coreAgent.unit = true ∧
     ((heldS 5).writeTile (iss0 (testCopy (.tile 0 tile1 tile2))) 0 tile1 tile2 []).2.1.any isPeerKey = false) ∧
    bulkOk 0 true = false ∧
    ((heldS 4).destDie 0 0 tile2 = 0 ∧ ((heldS 4).die 0).time.toNat < (5 : DWord).toNat ∧ (5 : DWord).toNat ≤ ((heldS 5).die 0).time.toNat ∧
     (heldS 5).isLate 0 5 5 = false ∧ (heldS 5).answered 0 0 = true) ∧
    (let s := copyS (testCopy rowWork)
     let r := s.moveRows (iss0 (testCopy rowWork)) true Lanes.zero 0 16 testXt [31]
     s.rowPeers (iss0 (testCopy rowWork)) Lanes.zero 16 testXt allLanes = [] ∧ r.2.1.any isPeerKey = false ∧
     metLock (BitVec.ofNat 64 (r.2.2.foldl (fun n x => n ||| x.2) 0)) = false ∧
     metWait (BitVec.ofNat 64 (r.2.2.foldl (fun n x => n ||| x.2) 0)) = false ∧
     metWait (BitVec.ofNat 64 (((missS (mapped s)).moveRows (iss0 (testCopy rowWork)) true Lanes.zero 0 16
       { testXt with limit := 0 } [31]).2.2.foldl (fun n x => n ||| x.2) 0)) = true) := by
  decide +kernel

/-- A bulk read that meets a lock of a commit: the bit that the step looks at. -/
theorem witness_CopyPerformResults_lock : (0x10 : DWord).getLsbD 4 = true := by decide

/-- An add to a tile that a commit has locked, and a held CPYT that ends with no commit of its own. -/
theorem witness_CopyPerformResults_write :
    metLock (((commitS true (heldS 5)).writeTile (iss0 (testCopy (.tile 1 tile2 tile1))) 1 tile2 tile1 [(0, 0, 0)]).2.2) = true ∧
    metWait (((commitS true (heldS 5)).writeTile (iss0 (testCopy (.tile 1 tile2 tile1))) 1 tile2 tile1 [(0, 0, 0)]).2.2) = false ∧
    (let c := { testCopy (.tile 0 tile1 tile2) with time := some 5 }
     let w := (heldS 5).writeTile (iss0 c) 0 tile1 tile2 c.codes
     let t := State.endCopy (heldS 5) w.1 0 true 0 c false w.2.1
     metLock w.2.2 = false ∧ metWait w.2.2 = false ∧ (t.die 0).heldT.length < ((heldS 5).die 0).heldT.length ∧
     t.commits? c.seq = false ∧ w.1.goesOut c.unit = true ∧ c.stage = 0 ∧ c.missed = false) := by decide +kernel

/-! Page requests and the bulk queue. -/

/-- The page at VA 2^30 is valid and not present; the page-request ring stands at VA 0. -/
def absentS (s : State) : State := { mapped s with mem := Memory.writeAll (mapped s).mem [(0x20008, 0x03)] }
def ringS (tail : Word) (s : State) : State := { absentS s with parts := [(0, { (coreS.part 0) with pgTail := tail })] }

/-- R157: one page that is not present is requested, and STATUS 0 is written; the record names its VA. -/
theorem test_pgreq :
    (match exec (.pgreq 2 1 3) (absentS (groupS [(1, 0x40001000), (2, 16)])) with
     | .next t => some (t.me.readG 3, (t.part 0).requests, t.mem.read 67)
     | _ => none) = some (0, [⟨0, none, 0⟩], 0x40) ∧
    groupAfter (.pgreq 2 1 3) (absentS (groupS [(1, 0x1000), (2, 16)])) 3 = some 1 ∧
    groupAfter (.pgreq 2 1 3) (absentS (groupS [(1, 0xC0000000), (2, 16)])) 3 = some 3 := by decide +kernel

/-- A control block at 0x100 of local memory: rings of 2 entries at 0x200 and of 2 records at 0x300, PROD as given. -/
def bulkMem (prod : Byte) : Memory :=
  [(localKey 0 0 0 0x101, 0x02), (localKey 0 0 0 0x104, 2), (localKey 0 0 0 0x108, prod), (localKey 0 0 0 0x111, 0x03),
   (localKey 0 0 0 0x114, 2)].filter fun c => c.2 != 0
def testQueue : BulkQueue := ⟨0x100, true, true, 0x200, 2, 0, 0x300, 2, 0, []⟩
def bulkS (prod : Byte) (q : BulkQueue) : State := { coreS with units := [{ testUnit with bulk := some q }], mem := bulkMem prod }
/-- An entry that fills 16 bytes at 0x400 by a pattern, with its completion ring, and one whose reserved bits are set. -/
def fillRaw : BitVec 256 := BitVec.ofNat 256 (5 + 2 ^ 17 + 2 ^ 18 + 7 * 2 ^ 32 + 0x400 * 2 ^ 96 + 16 * 2 ^ 160)
def testEntry (raw : BitVec 256) (started : Bool) : BulkEntry :=
  ⟨0, testUnit.key, raw, none, 0, 0, started, if bulkOk raw false then none else some .queueEntry, [], 0, 0, 0, none⟩
def entryS (b : BulkEntry) : State := { bulkS 0 testQueue with dies := [(0, { Die.fresh with bulkQ := [b] })] }

theorem test_bulk_fill :
    (match exec (.bulkEntryComplete 0 0) (entryS (testEntry fillRaw true)) with
     | .next t => some (t.mem.read (localKey 0 0 0 0x408), t.mem.read (localKey 0 0 0 0x118), (t.die 0).bulkQ.length)
     | _ => none) = some (7, 1, 0) := by decide +kernel

theorem witness_PageAndBulkResults :
    (Clear (gNeed .core [63, 1, 2]) coreS ∧ (0x10000000000 : DWord).extractLsb' 32 16 ≠ 0 ∧ coreS.handle 0x100 = none ∧
     coreS.cmdHandle 0 = .ok none ∧ (barS coreS).cmdHandle 0x800 = .ok (some 0) ∧ 2 ^ 30 < (0x40000001 : DWord).toNat) ∧
    (let q := fun (s : State) (n first : Nat) => s.pageOutcomes s.me.unit (.agent s.me.who) 0 0 n first
     (absentS coreS).pgStatus (q (absentS coreS) 1 0xC000).2 = 3 ∧
     (ringS 256 coreS).pgStatus (q (ringS 256 coreS) 1 0x4000).2 = 2 ∧
     (absentS coreS).pgStatus (q (absentS coreS) 1 0).2 = 1 ∧
     (absentS coreS).pgStatus (q (absentS coreS) 2 0x3FFF).2 = 0 ∧
     ((q (absentS coreS) 2 0x3FFF).2.any fun x => x.2 == .waits) = false ∧
     ((q (missS (absentS coreS)) 2 0x3FFF).2.any fun x => x.2 == .waits) = true ∧
     ((q (absentS coreS) 2 0x3FFF).2.find? fun x => x.2 == .notPresent).map (fun x => x.1 * 2 ^ 16) = some 0x40000000) ∧
    (let s : State := { barS coreS with parts := [(0, { (coreS.part 0) with requests := [⟨0, some 0, 0⟩] })] }
     (s.part 0).requests[0]? = some ⟨0, some 0, 0⟩ ∧ (s.ctxReg 0 0).getLsbD 0 = false ∧
     ({ s with cr := [(0, 1)] } : State).supRead 77 1 ≠ [1] ∧ ({ s with cr := [(0, 1)] } : State).pgRing 0 = 0 ∧
     ({ s with cr := [(0, 1)] } : State).ctxReg 0 0 = 1 ∧ (s.barrier 0).counted ≤ (s.barrier 0).expected ∧ 1 ≤ (s.barrier 0).pending) := by
  unfold Clear; decide +kernel

theorem witness_PageAndBulkResults_queue :
    ((bulkS 0 { testQueue with published := false }).unit testUnit.key = some { testUnit with bulk := some { testQueue with published := false } } ∧
     (let s := bulkS 0 { testQueue with serving := false, control := 0x110 }
      s.controlOk (s.bulkIssuer testUnit) (s.readControl (s.bulkIssuer testUnit) 0x110) = false) ∧
     (let s := bulkS 2 testQueue
      (s.prodOf (s.bulkIssuer testUnit) 0x100 - testQueue.cons).toNat ≤ testQueue.nent ∧
      s.controlOk (s.bulkIssuer testUnit) (s.readControl (s.bulkIssuer testUnit) 0x100) = true) ∧
     (let s := bulkS 3 testQueue
      testQueue.nent < (s.prodOf (s.bulkIssuer testUnit) 0x100 - testQueue.cons).toNat)) ∧
    (bulkReady [testEntry fillRaw false] 0 (testEntry fillRaw false) = true ∧ (testEntry (fillRaw + 0x20 * 2 ^ 16) true).bad = some .queueEntry ∧
     (let s := entryS (testEntry fillRaw true)
      (s.die 0).bulkQ[0]? = some (testEntry fillRaw true) ∧ (s.unit testUnit.key).isSome = true ∧ s.answered 0 0 = true ∧
      (testEntry fillRaw true).bad = none ∧
      s.bulkPeers { s.bulkIssuer testUnit with windows := [], seq := 0 } fillRaw = [] ∧
      metLock (s.bulkSource (s.bulkIssuer testUnit) fillRaw).2.2 = false ∧ metWait (s.bulkSource (s.bulkIssuer testUnit) fillRaw).2.2 = false ∧
      (let w := s.bulkMove (s.bulkIssuer testUnit) fillRaw (s.bulkSource (s.bulkIssuer testUnit) fillRaw).2.1
       w.2.1.any isPeerKey = false ∧ metWait w.2.2 = false ∧ metLock w.2.2 = false ∧ s.goesOut testUnit.key = true) ∧
      metWait ((missS (mapped s)).bulkMove (s.bulkIssuer testUnit) (fillRaw - 2 ^ 17) (List.replicate 16 7)).2.2 = true)) ∧
    ({ testUnit with saved := true }.saved = true ∧ testUnit.saved = false) ∧
    (let s := bulkS 0 { testQueue with heldRecs := [0] }
     (s.unit testUnit.key).isSome = true ∧ ((0 : Word) - BitVec.ofNat 32 (s.bulkNum (s.bulkIssuer testUnit) 0x11C 4)).toNat ≠ 2 ∧
     ((2 : Word) - BitVec.ofNat 32 (s.bulkNum (s.bulkIssuer testUnit) 0x11C 4)).toNat = 2) := by decide +kernel

/-! The matrix engine. -/

/-- A record of one E4M3 tile of 128 × 128 at the base of the cluster memory. -/
def mxRecord : BitVec 512 :=
  BitVec.ofNat 512 (0x4000000 + 3 * 2 ^ 64 + 2 * 2 ^ 72 + 128 * 2 ^ 96 + 128 * 2 ^ 112 + 128 * 2 ^ 128 + 128 * 2 ^ 160 + 128 * 2 ^ 256)
/-- The context: as ids 1 to 9 the record; the same with a scale tensor (2) per tile; the scale tensor; an FP32 output;
an FP16 output; an output with a flag tensor; the flag tensor; a
sparse record with its bitmap (8, 9). Its class 0 owns every tile. -/
def mxS (s : State) : State :=
  { s with
    contexts := [(0, { Context.fresh with tensors :=
      [(1, mxRecord), (2, mxRecord + BitVec.ofNat 512 (0x8003 * 2 ^ 384 + 2 * 2 ^ 400)), (3, testRecord),
       (4, mxRecord - BitVec.ofNat 512 (3 * 2 ^ 64)), (5, mxRecord - BitVec.ofNat 512 (2 ^ 64)),
       (6, mxRecord + BitVec.ofNat 512 (0x8007 * 2 ^ 480)), (7, testRecord + BitVec.ofNat 512 (9 * 2 ^ 64)),
       (8, mxRecord + BitVec.ofNat 512 (2 ^ 83 + 0x8009 * 2 ^ 416)), (9, mxRecord + BitVec.ofNat 512 (5 * 2 ^ 64))] })],
    cr := [(5, 0xFFFF)] }
def mxOp (work : MxWork) : MxOp :=
  ⟨0, .thread ⟨0, 1, 0⟩, ⟨0, 0, 0, 0⟩, ⟨0, 1, 0⟩, coreAgent.env, 0, 0, work, none, 0, 0, [], [], 0, 0, none, false⟩
def clusterS (k : Cluster) (s : State) : State := { s with clusters := [(0, k)] }

/-- R209, R224, R227: ACCZ of a tile that the class owns joins the queue; of one that it does not own it traps. -/
theorem test_accz :
    (match exec (.accz 0 0 1) (mxS (csqG [(1, 3)])) with
     | .next t => some (t.myCluster.queue0.map MxOp.work, t.me.batches.accepted) | _ => none)
      = some ([.epi 3 3 ⟨0, 0, 0, 0, false⟩ 0 0 0 0], 1) ∧
    causeAfter (.accz 0 0 1) (csqG [(1, 3)]) = some .mxOperand := by decide +kernel

theorem witness_MatrixAcceptResults :
    (Clear (gNeed .csq [63, 1, 2]) csqS ∧ Clear (Need.of .csq) csqS ∧ Clear (gNeed .csq [1, 2]) csqS) ∧
    (8 ≤ ((clusterS { (csqS.cluster 0 0) with queue0 := List.replicate 8 (mxOp .myld) } csqS).myCluster.queue csqS.me.env.cls).length ∧
     (csqS.myCluster.queue csqS.me.env.cls).length < 8) ∧
    (csqS.drain.me.storeQ = [] ∧ (heldQ csqS).drain.me.storeQ ≠ []) ∧
    ((csqS.mmaCheck false false 0 1 0x103).toBool = false ∧ ((mxS csqS).mmaCheck false false 0 1 0x103).toBool = true ∧
     ((mxS csqS).mmaCheck true true 15 8 0x103).toBool = true) ∧
    ((csqS.epiCheck 0 0 2 0).toBool = false ∧ ((mxS csqS).epiCheck 0 0 2 0).toBool = true ∧ ((mxS csqS).epiCheck 1 0 5 0x40000).toBool = true ∧
     ((mxS csqS).epiCheck 2 0 6 0).toBool = true ∧ ((mxS csqS).epiCheck 3 0 0 0).toBool = true) ∧
    ((1 : DWord).getLsbD 15 = false ∧ (1 : DWord).toNat % 256 ≠ 0 ∧ (1 : DWord).toNat < 4096) := by unfold Clear; decide +kernel

/-- A thread with batches: the second closed and not complete, one error. -/
def batchAgent : Agent :=
  { csqS.me with batches := ⟨2, 3, 1, [(2, 3), (1, 1)], [(0, 9)]⟩, g := [(1, 1), (2, 2), (3, 3)] }
def waitsS (a : Agent) (w : Wait) : State := withAgent (a.setWait w)
/-- The group bound as every quarter's feeder of class 0. -/
def quadS : State := clusterS { (coreS.cluster 0 0) with quads := [(0, ⟨coreAgent.unit, [0, 0, 0, 0]⟩)] } coreS

/-- R222, R223, R211: the batch's number; the error reported; a binding cleared. -/
theorem test_batches : groupAfter (.mbatch 5) (withAgent batchAgent) 5 = some 3 ∧
    groupAfter (.mwait 1 5) (withAgent batchAgent) 5 = some 0x8000000000000900 ∧
    causeAfter (.mwait 3 5) (withAgent batchAgent) = some .mxOperand ∧
    groupAfter (.mquad 0 0 5) csqS 5 = some 2 := by decide +kernel

/-- R212: MFEED of the class that binds the group stages one feed; of another it traps. -/
theorem test_mfeed :
    (match exec (.mfeed 0) quadS with | .next t => some (t.myCluster.feed 0 0).length | _ => none) = some 1 ∧
    causeAfter (.mfeed 0) coreS = some .mxOperand := by decide +kernel

/-- R230, R231: a word from a group to itself, then taken. -/
theorem test_mailbox :
    (match exec (.msig 2 0 3) (groupS [(2, 0x1FFFFFFFF)]) with
     | .next t => some (t.me.readG 3, t.me.mailbox) | _ => none) = some (0, [0xFFFFFFFF]) ∧
    groupAfter (.mrecv 4) (withAgent { coreAgent with mailbox := [9, 8] }) 4 = some 9 := by decide +kernel

theorem witness_MatrixThreadResults :
    (Clear (gNeed .csq [63]) csqS ∧ Clear (gNeed .csq [63, 1]) csqS ∧ Clear (gNeed .csq [1]) csqS ∧ Clear (gNeed .csq [63, 1, 2]) csqS) ∧
    (32768 ≤ (batchAgent.batches.counter - (3 : Half)).toNat ∧ (batchAgent.batches.counter - (2 : Half)).toNat < 32768 ∧
     batchAgent.batches.done 2 = false ∧ batchAgent.batches.done 1 = true) ∧
    ((waitsS batchAgent (.mwait 5 1)).agent batchAgent.who = some (batchAgent.setWait (.mwait 5 1)) ∧
     csqS.me.env.cls = 0 ∧ (0 : DWord).toNat ≤ csqS.me.env.cls) ∧
    (csqS.myCluster.queue 0 = [] ∧ (clusterS { (csqS.cluster 0 0) with queue0 := [mxOp .myld] } csqS).myCluster.queue 0 ≠ [] ∧
     (waitsS batchAgent (.mquad 5 0 0)).agent batchAgent.who = some (batchAgent.setWait (.mquad 5 0 0))) := by
  unfold Clear; decide +kernel

theorem witness_MatrixThreadResults_groups :
    (Clear { gNeed .core [1] with reads := regSpan 88 32 } coreS ∧ Clear { gNeed .core [1] with writes := regSpan 88 32 } coreS ∧
     Clear (gNeed .core [63, 1, 2]) coreS ∧ Clear (gNeed .core [63]) coreS) ∧
    ((quadS.myCluster.quad 0).unit = quadS.me.unit ∧ (quadS.myCluster.quad 0).groups[0]? = some quadS.me.index ∧
     (quadS.myCluster.quad 0).groups[3]? = some quadS.me.index ∧ (quadS.myCluster.feed 0 0).length < 2 ∧
     2 ≤ ((quadS.myCluster.setFeed 0 3 [[], []]).feed 0 3).length) ∧
    ((coreS.ctxReg 0 5).getLsbD 0 = false ∧ ((mxS coreS).ctxReg 0 5).getLsbD 15 = true ∧
     (waitsS coreAgent (.mdrain 0)).agent coreAgent.who = some (coreAgent.setWait (.mdrain 0)) ∧ coreAgent.env.det = false) ∧
    (coreS.agent (.group coreAgent.unit 127) = none ∧ coreS.agent (.group coreAgent.unit 0) = some coreAgent ∧
     coreAgent.run ≠ .ended ∧ coreAgent.mailbox.length < 4 ∧
     ({ coreS with agents := [{ coreAgent with who := .group coreAgent.unit 5 }] } : State).agent (.group coreAgent.unit 5)
       = some { coreAgent with who := .group coreAgent.unit 5 } ∧
     (withAgent { coreAgent with run := .ended }).agent (.group coreAgent.unit 0) = some { coreAgent with run := .ended } ∧
     4 ≤ ({ coreAgent with mailbox := [1, 2, 3, 4] } : Agent).mailbox.length ∧ coreAgent.run ≠ .saved) ∧
    ((detS coreS).me.env.det = true ∧ (waitsS { coreAgent with mailbox := [7] } (.mrecv 5)).me.wait = .mrecv 5) := by
  unfold Clear; decide +kernel

/-- A cluster with one queued operation. -/
def headS (work : MxWork) : State := clusterS { (csqS.cluster 0 0) with queue0 := [mxOp work] } csqS
def headFed (b : Nat) : State :=
  clusterS { (csqS.cluster 0 0) with
    queue0 := [mxOp (.mma false false 0 ⟨mxRecord, 0, 0, 0, false⟩ 1 b 0 0 ⟨0, 0, 0⟩)],
    feeds := [(0, [[]]), (1, [[]]), (2, [[]]), (3, [[]])] } csqS

theorem witness_MatrixStepResults :
    csqS.mxHeads (csqS.cluster 0 0) = [] ∧
    (headS .mscale).mxChoose ((headS .mscale).cluster 0 0) = some (mxOp .mscale, []) ∧
    (headS .myld).mxChoose ((headS .myld).cluster 0 0) = some (mxOp .myld, []) ∧
    ((headFed 3).mxChoose ((headFed 3).cluster 0 0)).isSome = true ∧
    (let op := mxOp (.mma false false 0 tile1 1 3 0 0 ⟨0, 0, 0⟩)
     let reads := fun (s : State) (t : TileRef) => (s.blocksReads op false t 0 0 ⟨0, 0, 0⟩ [0]).2
     op.place.die = 0 ∧ op.place.cluster = 0 ∧ op.asked = false ∧ Fmt.ofCode 3 ≠ some .e2m1 ∧
     metWait (reads csqS tile1) = false ∧ metLock (reads csqS tile1) = false ∧ metLock (reads (commitS true csqS) tile1) = true ∧
     metWait (reads (commitS true csqS) tile1) = false ∧ metWait (reads (missS (mapped csqS)) vaTile) = true) ∧
    (let r := fun (s : State) (flags : BitVec 512) => s.epiRun (mxOp .myld) 3 0 tile1 0 0 flags 0
     metWait (r csqS 0).status = false ∧ metLock (r csqS 0).status = false ∧ (r csqS 0).repl = [] ∧ (r csqS 0).plain = [] ∧
     metWait ((missS (mapped csqS)).epiRun (mxOp .myld) 1 0 vaTile 0 0 0 0).status = true) ∧
    ((headS .myld).cluster 0 0).yields = [] ∧ (List.range 128).Nodup := by decide +kernel

/-! The decode engine and the KV space. -/

def blockBytes (b : Nat) : Memory :=
  ((List.range 64).map fun i => (spadKey 0 i, BitVec.ofNat 8 (b / 2 ^ (8 * i)))).filter fun c => c.2 != 0
/-- DTOPK of 1 query, 2 columns, K = 2: scores at 0x100, indices at 0x200, the list at 0x300, status at 0x400. -/
def topBlock : Nat := 0x100 + 2 * 2 ^ 32 + 0x200 * 2 ^ 64 + 0x300 * 2 ^ 128 + 2 * 2 ^ 160 + 2 ^ 176 + 0x400 * 2 ^ 192
def distBlock : Nat := 1 + 2 ^ 24 + 2 ^ 32 + 0x100 * 2 ^ 64 + 0x200 * 2 ^ 96 + 0x300 * 2 ^ 128 + 0x400 * 2 ^ 160
def attBlock : Nat := 2 ^ 96 + 2 ^ 128 + 2 ^ 136 + 0x100 * 2 ^ 192 + 0x200 * 2 ^ 224 + 0x400 * 2 ^ 256
def apBlock : Nat := 2 ^ 96 + 0x100 * 2 ^ 128 + 0x200 * 2 ^ 160 + 0x400 * 2 ^ 192
/-- The block at the base of the scratchpad; the context has geometry BF16 × 64 and two tensors. -/
def dceS (b : Nat) : State :=
  { tensorS (groupS [(1, 0x10000000)]) with mem := blockBytes b, cr := [(6, 4)] }
def testDce (op : Nat) (b : Nat) (done : Nat) : DceCmd :=
  { seq := 0, who := coreAgent.who, place := coreAgent.place, unit := coreAgent.unit, env := coreAgent.env, op := op,
    block := BitVec.ofNat 512 b, regs := [], stall := none, stage := 0, peer := 0, recA := testRecord, recB := 0, windows := [], bar := some 0, handle := 0x800, done := done, status := 0 }
def word (base : Nat) (w : Nat) : Memory :=
  ((List.range 4).map fun i => (localKey 0 0 0 (base + i), BitVec.ofNat 8 (w / 2 ^ (8 * i)))).filter fun c => c.2 != 0
/-- The example of R246: the old list (5.0, 40), (3.0, 12), and the scores 3.0 at index 7 and 5.0 at index 40. -/
def topS : State :=
  { barS coreS with
    dies := [(0, { Die.fresh with dceQ := [testDce 2 topBlock 0] })],
    mem := word 0x100 0x40400000 ++ word 0x104 0x40A00000 ++ word 0x200 7 ++ word 0x204 40 ++ word 0x300 2 ++
      word 0x310 0x40A00000 ++ word 0x314 40 ++ word 0x318 0x40400000 ++ word 0x31C 12 }

/-- R246: the list becomes (5.0, 40), (3.0, 7). -/
theorem test_dtopk :
    (match exec (.dcePage 0) topS with
     | .next t => some ([0x300, 0x310, 0x313, 0x314, 0x318, 0x31B, 0x31C, 0x400].map fun i => t.mem.read (localKey 0 0 0 i), (t.die 0).dceQ.length)
     | _ => none) = some ([2, 0, 0x40, 40, 0, 0x40, 7, 0], 0) := by decide +kernel

/-- The example of R253: sequence 12 is the victim and is dropped; sequence 30 would be swapped. -/
def seq12 : SeqEntry := ⟨0, 12, 0, 1, 300, 39321600, 2000000⟩
def seq30 : SeqEntry := ⟨0, 30, 0, 1, 4000, 524288000, 5000000⟩

theorem test_victim : chooseVictim 50000 [seq30, seq12] = some seq12 ∧ swaps 50000 seq12 = false ∧ swaps 50000 seq30 = true ∧
    restoreCost 50000 seq12 = 600000000 * 50000 := by decide

theorem witness_DecodeEngineResults :
    Clear (gNeed .core [1, 2]) coreS ∧
    ((dceS topBlock).image 0x10000000 64).toOption.map leNat = some topBlock ∧
    (lowestSub ((dceS topBlock).dceConditions 2 (BitVec.ofNat 512 topBlock)).1 = none ∧
     lowestSub ((dceS distBlock).dceConditions 1 (BitVec.ofNat 512 distBlock)).1 = none ∧
     lowestSub ((dceS attBlock).dceConditions 0 (BitVec.ofNat 512 attBlock)).1 = none ∧
     lowestSub ((dceS apBlock).dceConditions 3 (BitVec.ofNat 512 apBlock)).1 = none ∧
     lowestSub ((dceS 0).dceConditions 0 0).1 = some 2 ∧ coreS.image 0x10000020 64 = .error .align) ∧
    (((dceS distBlock).dceConditions 1 (BitVec.ofNat 512 distBlock)).2.map (dceS distBlock).myContext.tensor = [some testRecord] ∧
     ((dceS apBlock).dceConditions 3 (BitVec.ofNat 512 apBlock)).2 = [] ∧ mayWrite testRecord = true ∧
     mayWrite (testRecord + BitVec.ofNat 512 (2 ^ 88)) = false ∧ (coreS.die 0).dceQ.length < 64) ∧
    (coreS.handle 0x100 = none ∧ (barS coreS).cmdHandle 0x800 = .ok (some 0)) := by unfold Clear; decide +kernel

/-- A queue with a command that stands within a page, and one with none. -/
theorem witness_DecodeEngineResults_stage :
    (∃ x ∈ [testDce 2 topBlock 0, { testDce 1 distBlock 0 with stage := 2 }], x.stage ≠ 0 ∨ x.stall.isSome = true) ∧
    (∀ x ∈ [testDce 2 topBlock 0], x.stage = 0 ∧ x.stall = none) ∧ (chooseDce [testDce 2 topBlock 0]).isSome = true := by
  decide +kernel

theorem witness_DecodeEngineResults_steps :
    ((topS.die 0).dceQ.map DceCmd.seq = [0] ∧ (chooseDce (topS.die 0).dceQ).map DceCmd.op = some 2 ∧
     dcePages (testDce 2 topBlock 0) ≤ 0 + 1 ∧ 0 + 1 < dcePages (testDce 2 (topBlock + 2 ^ 176) 0)) ∧
    (let st := fun (s : State) (r : BitVec 512) => (s.dceStep { testDce 1 distBlock 0 with recA := r } 0).status
     topS.answered 0 0 = true ∧ topS.commits? 0 = false ∧ ({ topS with commits := [commit0 false] } : State).commits? 0 = true ∧
     topS.dcePeers (testDce 2 topBlock 0) 0 = [] ∧ (topS.dceStep (testDce 2 topBlock 0) 0).report = none ∧
     metWait (topS.dceStep (testDce 2 topBlock 0) 0).status = false ∧ metLock (topS.dceStep (testDce 2 topBlock 0) 0).status = false ∧
     metWait (st (missS (mapped coreS)) vaTile.record) = true ∧
     (routed (mapped coreS)).dcePeers { testDce 1 distBlock 0 with recA := peerTile.record } 0 ≠ [] ∧
     metLock (st (commitS true coreS) testRecord) = true ∧ metWait (st (commitS true coreS) testRecord) = false) ∧
    (({ topS with barriers := [(0, { bar0 with expected := 100 })] } : State).barrier 0).counted +
       dceCount (testDce 2 topBlock 0) (topS.shapeOf (testDce 2 topBlock 0)) ≤ 100 ∧
    ([⟨0, 0, []⟩] : List Scored) ≠ [] := by decide +kernel

/-- A map with page 0 of sequence 3, head 0, RESIDENT with 0 pins in frame 0x100, and page 1 with 15 pins. -/
def kvCtx : Context :=
  { Context.fresh with kvmap := [(3 * 256 * 16384, kvEntry 1 0 1 0x100), (3 * 256 * 16384 + 1, kvEntry 1 15 1 0x200)] }
def kvS (g : List (Nat × DWord)) : State := { groupS g with contexts := [(0, kvCtx)], cr := [(6, 4), (8, 10)] }

/-- R249, R251: the entry without its address; a pin; status 1 of an unmapped page and 2 of a page with 15 pins. -/
theorem test_kv : groupAfter (.kvres 7 6) (kvS [(7, 3)]) 6 = some 0x4001000000000000 ∧
    (match exec (.kvpin 8 7 6) (kvS [(7, 3), (8, 1)]) with
     | .next t => some (kvPins ((t.context 0).kv ⟨3, 0, 0⟩)) | _ => none) = some 1 ∧
    groupAfter (.kvpin 8 7 6) (kvS [(7, 3), (8, 2)]) 6 = some 2 ∧ groupAfter (.kvpin 8 7 6) (kvS [(7, 4), (8, 1)]) 6 = some 1 := by
  decide +kernel

/-- A waiting request for page 5, and a free frame. -/
def kvReq : KvRequest := ⟨1, 3, 0, 0, 1, 5, 1, some 0, 0x800, coreAgent.unit, false, [(6, 4), (8, 10)]⟩
def kvWait : State := { barS coreS with contexts := [(0, { kvCtx with kvReqs := [kvReq] })] }
/-- A sequence table at VA 0x2000 with sequence 12 ACTIVE, and an append of sequence 5 that asked for a frame. -/
def victimS : State :=
  { mapped coreS with
    mem := [(0x2020, 12), (0x2023, 1)] ++ (mapped coreS).mem, cr := (mapped coreS).cr ++ [(9, 0x2000)],
    contexts := [(0, { Context.fresh with kvAsk := [5] })] }

theorem chooseVictim_some (bw : Nat) (es : List SeqEntry) (h : es ≠ []) : ∃ v, chooseVictim bw es = some v := by
  cases es with
  | nil => exact absurd rfl h
  | cons x r => unfold chooseVictim; split <;> (try split) <;> simp

theorem witness_KvCacheResults :
    (Clear (gNeed .core [63, 1]) coreS ∧ Clear (gNeed .core [63, 1, 2]) coreS) ∧
    ((0x100000000000 : DWord).extractLsb' 44 20 ≠ 0 ∧ (3 : DWord).extractLsb' 44 20 = 0 ∧ coreS.me.env.det = false ∧
     (detS coreS).me.env.det = true ∧ kvRefOk 0x10000000000000 = false ∧ kvRefOk 3 = true ∧ 2 ^ 15 ≤ (0x8000 : DWord).toNat) ∧
    (kvCtx.pinStatus (kvPages 3 0 1 0 1) = 0 ∧ kvCtx.pinStatus (kvPages 3 0 1 1 1) = 2 ∧ kvCtx.unpinStatus (kvPages 3 0 1 0 1) = 1 ∧
     kvCtx.unpinStatus (kvPages 3 0 1 1 1) = 0 ∧ (kvPages 3 0 1 0 1).Nodup ∧ kvPins (kvCtx.kv ⟨3, 0, 0⟩) < 15 ∧
     ⟨3, 1, 0⟩ ∉ kvPages 3 0 1 0 1) ∧
    (let r : Nat → Nat → KvRequest := fun op page => { kvReq with op := op, page := page }
     (kvS []).kvStatus 0 (r 1 5) = 0 ∧ (kvS []).kvStatus 0 (r 0 0) = 1 ∧ (kvS []).kvStatus 0 (r 0 5) = 3 ∧
     (kvSpan 3 1).isNone = false ∧ (barS coreS).cmdHandle 0x800 = .ok (some 0) ∧ coreS.handle 0x100 = none ∧
     ((barS coreS).barrier 0).counted ≤ ((barS coreS).barrier 0).expected ∧ 1 ≤ ((barS coreS).barrier 0).pending) := by
  unfold Clear; decide +kernel

theorem witness_KvCacheResults_supervisor :
    ((kvWait.context 0).kvReqs[0]? = some kvReq ∧ (kvWait.context 0).kvFree.length < (kvCtx.wanted kvReq).length ∧
     ({ kvCtx with kvFree := [0x800] } : Context).refuses kvReq = false ∧ (kvCtx.wanted kvReq).length ≤ 1 ∧
     (let u : State := { kvWait with cr := crWith kvWait.cr 0 kvReq.regs }
      u.framesOk 0 [0x800] = true ∧ u.framesOk 0 [0x801] = false ∧ u.meetsRetired (0x800 * 16) (u.kvFrameBytes 0) = false)) ∧
    ((coreS.context 0).frameWanted = none ∧ (victimS.context 0).frameWanted = some 5 ∧ seq12.prio < ({ seq30 with prio := 1 } : SeqEntry).prio) ∧
    ∃ v, chooseVictim (victimS.bwus 0) (victimS.candidates 0 5) = some v := by
  refine ⟨by decide +kernel, by decide +kernel, chooseVictim_some _ _ ?_⟩
  have h : (⟨0x2020, 12, 0, 1, 0, 0, 0⟩ : SeqEntry) ∈ victimS.seqEntries 0 := by
    unfold State.seqEntries
    rw [if_neg (by decide +kernel)]
    exact List.mem_filter.mpr ⟨List.mem_map.mpr ⟨0, by simp, by decide +kernel⟩, by decide⟩
  intro h0
  rw [State.candidates, List.filter_eq_nil_iff] at h0
  exact h0 _ h (by decide +kernel)

/-! Launches. -/

/-- A copy node of one unit; a kernel of one group with 120 registers. -/
def nodeRaw : BitVec 1024 := BitVec.ofNat 1024 (2 ^ 160 + 2 ^ 284)
def kernelRaw : BitVec 1024 := BitVec.ofNat 1024 (2 ^ 160)
def testDesc : BitVec 256 := BitVec.ofNat 256 (1 + 120 * 2 ^ 16 + 2 ^ 24)
/-- Every die belongs to partition 0. -/
def partS (s : State) : State := { s with cr := [(64 * 4096 + 0x800, 0xFF)] }
def testLaunch : Launch :=
  { (coreS.draft 0 kernelRaw false [0] none none 0) with id := 1, desc := testDesc, code := [], params := [1, 2], commands := [], age := 1 }
def launchS (l : Launch) : State := partS { coreS with launches := [l] }
def waitLaunch (bs : List Byte) : State :=
  { partS (waitsS coreAgent (.launch 5 0x10000000 none 0 false)) with mem := Memory.writeAll [] (cellsAt (spadKey 0 0) bs) }
/-- What LAUNCH_ANSWER writes. -/
def answerOf (s : State) : Option DWord :=
  match execLaunchAnswer coreAgent.who s with | .next t => some (t.me.readG 5) | _ => none

/-- R187, R188: an accepted node has its context's first id; a record of zeros has reason 1. -/
theorem test_launch : answerOf (waitLaunch (leBytes 128 nodeRaw.toNat)) = some 1 ∧
    answerOf (waitLaunch (leBytes 128 0)) = some 0x8000000000000001 := by decide +kernel

/-- R186: the group starts at the code's start, its parameters at the top of its slot's spill area. -/
theorem test_admit :
    (match exec (.unitAdmit ⟨0, 1, 0⟩ 0 0 [0]) { launchS testLaunch with me := supS.me } with
     | .next t => t.agents.map fun a => (a.cur.pc, a.readG 60, a.quota)
     | _ => []) = [(32, 0x101FFE, 120)] := by decide +kernel

theorem witness_LaunchAnswers :
    (Clear (gNeed .core [63, 1, 2]) coreS ∧ (coreS.recordImage 0x10000000).toBool = true ∧ coreS.recordImage 0x10000020 = .error .align ∧
     coreS.handle 0x100 = none ∧ (barS coreS).cmdHandle 0x800 = .ok (some 0)) ∧
    (let s := waitLaunch (leBytes 128 nodeRaw.toNat)
     let l := s.draftFor s.me (s.recordNow s.me 0x10000000) none 0 false
     s.agent coreAgent.who = some s.me ∧ s.me.wait = .launch 5 0x10000000 none 0 false ∧ s.submissionFull 0 = false ∧ (s.answer 0 l).toBool = true ∧
     l.coop = false ∧ l.ctx = 0 ∧ s.recordReason 0 l = none ∧ s.poolFull l.pool = false ∧
     ({ s with cr := [] } : State).neverFits { l with dies := [] } = true ∧
     ({ s with launches := List.replicate 256 { testLaunch with pool := some 0 } } : State).poolFull (some 0) = true ∧
     s.recordReason 0 (s.draftFor s.me (leBytes 128 0) none 0 false) = some 1) := by unfold Clear; decide +kernel

def detLaunch : Launch := { testLaunch with desc := testDesc + BitVec.ofNat 256 (2 ^ 72) }
def coopLaunch : Launch := { testLaunch with coop := true }

theorem witness_AdmissionResults :
    (let s := launchS testLaunch
     s.launch 0 1 = some testLaunch ∧ testLaunch.next = 0 ∧ s.ready testLaunch = true ∧ s.heldBack testLaunch = false ∧
     s.offeredBefore testLaunch = false ∧ s.fitsAt testLaunch 0 0 [0] = true ∧ testLaunch.det = false ∧ s.handDie testLaunch = some 0 ∧
     s.fitsAt testLaunch 0 0 [128] = false ∧ lnKind testLaunch.raw = 0 ∧ kdKind testLaunch.desc = 1 ∧ testLaunch.run = none ∧
     0 < kdGroups testLaunch.desc ∧ s.ready { testLaunch with stopping := true } = false) ∧
    (let s := launchS detLaunch
     detLaunch.det = true ∧ s.fitsAt detLaunch (s.draw detLaunch 0).1 (s.draw detLaunch 0).2.1 (s.draw detLaunch 0).2.2 = true ∧
     s.fitsAt detLaunch 0 0 [1] = true ∧ s.draw detLaunch 0 ≠ (0, 0, [1])) ∧
    (((launchS coopLaunch).admitAll 1 0 1).isSome = true ∧ (launchS coopLaunch).ready coopLaunch = true ∧
     (launchS coopLaunch).heldBack coopLaunch = false ∧ (launchS coopLaunch).offeredBefore coopLaunch = false) ∧
    (let l : Launch := { testLaunch with passed := List.range 64 }
     (launchS l).launch 0 1 = some l ∧ 64 ≤ l.passed.length ∧ l.blocking = false ∧ (launchS l).ready l = true ∧ testLaunch.passed.length < 64) := by
  decide +kernel

theorem witness_CancelAndCountResults :
    Clear (gNeed .core [63, 1]) coreS ∧ (1 : DWord).extractLsb' 32 32 = 0 ∧ (0x100000000 : DWord).extractLsb' 32 30 ≠ 0 ∧
    ((launchS testLaunch).redeemRun 0 1 = none ∧ coreS.launch 0 1 = none ∧ (launchS testLaunch).launch 0 1 = some testLaunch ∧
     testLaunch.complete = false) ∧
    ((launchS { testLaunch with complete := true }).launch 0 1 = some { testLaunch with complete := true } ∧
     ((launchS { testLaunch with complete := true }).context 0).launchDone - testLaunch.doneSeq ≤ 4096) ∧
    coreS.me.env.det = false ∧ (detS coreS).me.env.det = true := by unfold Clear; decide +kernel

/-- A graph and a phase of context 0, open or complete, with a launch of the graph. -/
def levelS (done : Bool) : State :=
  { launchS { testLaunch with graphInst := 3 } with
    graphs := [⟨3, 0, 0x80000001, 4, false, false, false, done, true, 0, none⟩], phases := [⟨4, 0, 2, false, false, false, done, 0⟩] }

theorem witness_CancelAndCountResults_levels :
    (0x4000000000000001 : DWord).extractLsb' 32 32 = 0x4000_0000 ∧ (0x8000000000000002 : DWord).extractLsb' 32 32 = 0x8000_0000 ∧
    (0xC000000000000000 : DWord).extractLsb' 32 32 = 0xC000_0000 ∧ (0xC000000000000000 : DWord).extractLsb' 0 32 = 0 ∧
    (coreS.graphOf 0 1 = none ∧ coreS.phaseOf 0 1 = none ∧ ((levelS true).graphOf 0 0x80000001).map Graph.complete = some true ∧
     ((levelS false).graphOf 0 0x80000001).map Graph.complete = some false ∧ ((levelS true).phaseOf 0 2).map Phase.complete = some true ∧
     ((levelS false).phaseOf 0 2).map Phase.complete = some false ∧ ((levelS false).graph 3).map Graph.inst = some 3 ∧
     ((levelS false).phase 4).map Phase.inst = some 4 ∧ ((levelS true).graphs.all fun g => g.phase != 4 || g.complete) = true) ∧
    ((levelS false).launch 0 1 = some { testLaunch with graphInst := 3 } ∧ testLaunch.complete = false ∧ testLaunch.ctx = 0 ∧ testLaunch.id = 1) ∧
    ((∀ x ∈ coreS.units, x.key = coreS.me.unit → x.saved = false) ∧ (∀ m ∈ coreS.agents, m.who ≠ coreS.me.who)) := by decide +kernel

/-- A launch of one unit that has been admitted, and its unit. -/
def runningLaunch (coop : Bool) : Launch := { testLaunch with next := 1, coop := coop }
def endS (ended : Bool) (l : Launch) (a : Agent) : State :=
  { withAgent a with launches := [l], units := [{ testUnit with ended := ended }] }
/-- The supervisor thread that waits for a CTXSV of the unit. -/
def saveWait : Agent := supS.me.setWait (.ctxsv 5 testUnit.key 0)

/-- R191: the launch completes, once its unit has ended. -/
theorem test_complete :
    (match execLaunchComplete 0 1 (endS true (runningLaunch false) supS.me) with
     | .next t => some ((t.launch 0 1).map Launch.complete, (t.context 0).launchDone) | _ => none) = some (some true, 1) ∧
    (match execLaunchComplete 0 1 (endS false (runningLaunch false) coreAgent) with | .refused _ => true | _ => false) = true := by
  decide +kernel

theorem witness_LaunchEndResults :
    (let a : Agent := { coreAgent with run := .ended }
     let b : Agent := { coreAgent with who := .group ⟨0, 1, 0⟩ 1 }
     (withAgent a).agent coreAgent.who = some a ∧ a.storeQ = [] ∧ a.gath = [] ∧ a.atomics = [] ∧ a.arrivals = [] ∧
     (({ withAgent a with agents := [b] } : State).removeAgent coreAgent.who).allAgents.any (fun x => x.unit == a.unit && x.kind != .sup) = true ∧
     (({ withAgent a with agents := [supS.me] } : State).removeAgent coreAgent.who).allAgents.any (fun x => x.unit == a.unit && x.kind != .sup) = false) ∧
    ((endS true (runningLaunch false) supS.me).launch 0 1 = some (runningLaunch false) ∧
     (endS true (runningLaunch false) supS.me).settled (runningLaunch false) = true ∧
     (endS false (runningLaunch false) coreAgent).settled (runningLaunch false) = false ∧
     (runningLaunch false).replay = none ∧ (runningLaunch false).det = false ∧ (runningLaunch false).run = none ∧
     (endS true (runningLaunch false) supS.me).graph 0 = none ∧ ((endS true (runningLaunch false) supS.me).context 0).heldPub = [] ∧
     (let l : Launch := { runningLaunch false with replay := some ⟨[], [⟨0, [(5, 1)]⟩], []⟩ }
      (endS true l supS.me).settled l = true ∧ (endS true l supS.me).keyFault 5 = none)) ∧
    (Clear (gNeed .core [63]) coreS ∧ coreS.me.env.coop = false ∧ ({ coreAgent with env := { coreAgent.env with coop := true } } : Agent).env.coop = true) ∧
    (let s := endS false (runningLaunch true) (coreAgent.setWait (.snapm 5))
     s.launch 0 1 = some (runningLaunch true) ∧ (runningLaunch true).stopping = false ∧ (runningLaunch true).rollback = none ∧
     lnUnits (runningLaunch true).raw ≤ (runningLaunch true).next ∧ s.launchAgents 0 1 = [s.me] ∧ s.me.atMilestone = true ∧ s.me.anyWait Wait.isSnapm = true ∧ s.me.storeQ = [] ∧
     s.me.run = .running ∧ s.me.wait = .snapm 5 ∧ s.me.others = [] ∧ s.me.atomics = [] ∧
     s.unitsOf 0 1 = [{ testUnit with ended := false }] ∧ testUnit.preempt = none ∧ testUnit.snaps = 0 ∧ (runningLaunch true).det = false) := by unfold Clear; decide +kernel

/-- A launch with a handle and a result word, at the end of the entries taken and with a later record in its place. -/
theorem witness_LaunchEndResults_result :
    (let l : Launch := { runningLaunch false with res := some 3, bar := some 0 }
     let s := endS true l supS.me
     s.launch 0 1 = some l ∧ s.settled l = true ∧ l.replay = none ∧ l.det = false ∧ l.run = none ∧ s.graph l.graphInst = none ∧
     (s.context 0).heldPub = [] ∧ (s.context 0).taken ≤ 3 + 2 ^ ((s.ctxReg 0 0x00F).extractLsb' 0 7).toNat) ∧
    3 + 1 < ({ Context.fresh with taken := 5 } : Context).taken ∧ 1 ≤ ((barS coreS).barrier 0).pending ∧
    ((barS coreS).barrier 0).counted ≤ ((barS coreS).barrier 0).expected := by decide +kernel

theorem witness_LaunchEndResults_save :
    let s : State := { endS false (runningLaunch false) saveWait with agents := [coreAgent] }
    s.unit testUnit.key = some { testUnit with ended := false } ∧
    (s.allAgents.find? fun a => match a.wait with | .ctxsv _ v _ => v == testUnit.key | _ => false) = some saveWait ∧
    s.liveAgents testUnit.key = [coreAgent] ∧
    s.atStop { testUnit with ended := false } = true ∧
    ({ s with commits := [⟨0, [], [], false, 0, ⟨0, coreAgent.who, testUnit.key, false, none, 0, 0, 0, 0⟩, none, false⟩] } : State).atStop
      { testUnit with ended := false } = false ∧
    s.supMapped 0 (s.imageLen testUnit [coreAgent]) true = false ∧
    (mapped s).supMapped 0 (s.imageLen testUnit [coreAgent]) true = true := by decide +kernel

/-! Tickets, updates and publication. -/

/-- A model record: version `v`, RW 2, one tile, PEND `p`. -/
def modelRec (v : Nat) (p : Nat) : BitVec 1024 := BitVec.ofNat 1024 (v + 2 * 2 ^ 32 + 2 ^ 64 + p * 2 ^ 96)
/-- A launch bound to version 5 of model 1, and the id of the ticket it issues at entry 0. -/
def boundLaunch : Launch := { testLaunch with next := 1, bound := some 5, model := 1 }
def testId : Word := 0x04000000
def shelfCr (size : Nat) : Store DWord :=
  [(1, 7), (2, 0x10000), (11, 0x40000), (12, 0x50000), (13, BitVec.ofNat 64 size), (14, 0x60000), (64 * 4096 + 0x800, 0xFF)]
/-- The page tables, and at 0x40080 the record of model 1 as in `modelRec 5 0`. -/
def modelMem (m : Memory) : Memory :=
  (0x10000, 0x01) :: (0x10002, 0x02) :: (0x20000, 0x7F) :: (0x40080, 5) :: (0x40084, 2) :: (0x40088, 1) :: m
/-- Also, at 0x50000 the ticket; at 0x60000 a redeem-graph entry with one copy node in each graph and one staging
buffer; the two records. -/
def shelfMem : Memory :=
  [(0x10000, 0x01), (0x10002, 0x02), (0x20000, 0x7F), (0x40080, 5), (0x40084, 2), (0x40088, 1), (0x4008C, 1),
   (0x50003, 4), (0x50004, 1), (0x50006, 1), (0x50008, 5), (0x5003C, 0xED), (0x5003D, 0x26), (0x5003E, 0xE8), (0x5003F, 0x11),
   (0x60001, 1), (0x60002, 6), (0x60008, 1), (0x6000A, 1), (0x60011, 2), (0x60012, 6), (0x6001A, 7), (0x60020, 1),
   (0x60114, 1), (0x60123, 16), (0x60214, 1), (0x60223, 16)]
def testTicket : List Byte := ticketOf boundLaunch testId (List.replicate 64 0)
def testGraph : BitVec 512 := BitVec.ofNat 512 (0x60100 + 2 ^ 64 + 2 ^ 80 + 0x60200 * 2 ^ 128 + 0x70000 * 2 ^ 192 + 2 ^ 256)
/-- Context 0 with its model table, PEND as given; the group's launch is bound. -/
def modelS (p : Nat) (s : State) : State := { s with mem := modelMem (if p = 1 then [(0x4008C, 1)] else []), cr := shelfCr 1, launches := [boundLaunch] }
/-- Context 0 with a shelf of one entry in use; the group's launch is bound. -/
def shelfS (use : List Nat) (s : State) : State :=
  { s with mem := shelfMem, cr := shelfCr 1, contexts := [(0, { Context.fresh with shelfUse := use })], launches := [boundLaunch] }

/-- R262: an unbound launch is refused; a bound one gets the id of entry 0 with generation 1. -/
theorem test_ticket : groupAfter (.ticket 1 2) (launchS testLaunch |> fun s => { s with me := (imageS 0 0).me }) 2 = some 0x8000000000000001 := by
  decide +kernel

/-- R263, R264: a ticket that was ISSUED is dropped with status 0; word 1 of its record is version 5 and graph 0. -/
theorem test_tkdrop : groupAfter (.tkdrop 1 2) (shelfS [0] (groupS [(1, 0x04000000)])) 2 = some 0 ∧
    groupAfter (.tkdrop 1 2) (shelfS [0] (groupS [(1, 0x08000000)])) 2 = some 2 ∧
    groupAfter (.tkqry 3 1 2) (shelfS [0] (groupS [(1, 0x04000000), (3, 1)])) 2 = some 5 := by decide +kernel

theorem witness_TicketResults :
    (((shelfS [0] coreS).exposeUnit coreS.me.unit).ticketEntry 0 testId = some 0 ∧
     (((shelfS [] coreS).exposeUnit coreS.me.unit).freeShelf 0).isSome = true ∧ (coreS.exposeUnit coreS.me.unit).freeShelf 0 = none) ∧
    (Clear (gNeed .core [63, 1]) coreS ∧ Clear (gNeed .core [63, 1, 2]) coreS) ∧
    ((coreS.image 0x10000000 64).toBool = true ∧ coreS.image 0x10000020 64 = .error .align ∧
     (shelfS [] coreS).launch 0 coreS.me.unit.launch = some boundLaunch ∧ boundLaunch.bound.isSome = true ∧ boundLaunch.run = none ∧
     testLaunch.bound = none ∧ numAt (List.replicate 64 0) 12 4 ≤ 4095 ∧ numAt (List.replicate 64 0) 4 2 < 2 ^ 9 ∧
     2 ^ 9 ≤ numAt (List.replicate 6 0xFF) 4 2 ∧ ((shelfS [] coreS).freeShelf 0).isSome = true ∧ coreS.freeShelf 0 = none) ∧
    ((List.replicate 64 (0 : Byte)).length = 64 ∧ (shelfS [0] coreS).ticketEntry 0 testId = some 0 ∧ coreS.ticketEntry 0 testId = none ∧
     (shelfS [0] coreS).redeeming 0 testId = false) ∧
    ((7 : DWord).toNat < 8 ∧ ((7 : DWord).extractLsb' 0 4).toNat ≤ 7 ∧ 7 < ((8 : DWord).extractLsb' 0 4).toNat ∧ 16 ≤ (31 : DWord).toNat ∧
     (255 : DWord).toNat < 256) := by unfold Clear; decide +kernel

/-- A run of the ticket. -/
def testRun : RedeemRun :=
  ⟨9, testId, 0, 1, 5, 0, 0, 0x70000, none, none, 0, ⟨0, 1, 0⟩, 0, 0, [], (shelfCr 1).take 6, 3, 0, false, false, 0, 0, 0⟩
def runS (r : RedeemRun) (done : Bool) : State :=
  { shelfS [0] coreS with contexts := [(0, { Context.fresh with shelfUse := [0], runs := [r] })],
                              graphs := [⟨3, 0, 0x80000001, 1, true, false, false, done, true, 0, some 9⟩] }
def planOf (t : List Byte) : RunPlan := ⟨0, tkKey t, some 0, 0, 1, tkModel t, tkVersion t⟩

theorem shelf_ticket : (shelfS [0] coreS).ticketRecord 0 0 = testTicket := by decide +kernel
theorem shelf_model : (shelfS [0] coreS).model 0 1 = modelRec 5 1 := by decide +kernel
theorem shelf_graph : (shelfS [0] coreS).redeemEntry 0 0 = testGraph := by decide +kernel
theorem shelf_records : (shelfS [0] coreS).recordsAt 0 0x60100 1 ++ (shelfS [0] coreS).recordsAt 0 0x60200 1 = [nodeRaw, nodeRaw] := by
  decide +kernel

theorem witness_RedeemResults :
    (Clear (gNeed .core [63, 1, 2]) coreS ∧ (coreS.image 0x10000000 32).toBool = true ∧ coreS.image 0x10000010 32 = .error .align ∧
     coreS.me.env.det = false ∧ (detS coreS).me.env.det = true ∧ coreS.handle 0x100 = none ∧ (barS coreS).cmdHandle 0x800 = .ok (some 0)) ∧
    (let s := shelfS [0] coreS
     let t := s.ticketRecord 0 0
     coreS.ticketEntry 0 testId = none ∧ s.ticketEntry 0 testId = some 0 ∧ ticketCrc t = tkCheck t ∧ tkState t = 1 ∧
     tkGraph t = 0 ∧ tkModel t = 1 ∧ (mdVcur (s.model 0 1) - tkVersion t).toNat < 8 ∧ retained (s.model 0 1) (tkVersion t) = true ∧
     ticketCrc (t.set 10 1) ≠ tkCheck (t.set 10 1) ∧ tkState (t.set 4 2) ≠ 1 ∧ ticketCrc (t.set 4 2) = tkCheck (t.set 4 2)) ∧
    (redeemEntryOk ((shelfS [0] coreS).redeemEntry 0 0) = true ∧ mdTiles ((shelfS [0] coreS).model 0 1) = 1 ∧
     ((shelfS [0] coreS).recordsAt 0 0x60100 1 ++ (shelfS [0] coreS).recordsAt 0 0x60200 1).any
       ((shelfS [0] coreS).runRecordBad (planOf testTicket) ((shelfS [0] coreS).runGraphIds 0 1).2) = false) ∧
    (zeroAt (List.replicate 32 0) 11 31 = true ∧ byteAt (List.replicate 32 0) 10 < 4 ∧ retained (modelRec 8 1) 5 = false ∧
     (mdVcur (modelRec 8 1) - 5).toNat < 8 ∧ 8 ≤ (mdVcur (modelRec 13 1) - 5).toNat ∧ redeemEntryOk 0 = false) := by
  simp only [shelf_ticket, shelf_model, shelf_graph, shelf_records]
  unfold Clear; decide +kernel

theorem witness_RedeemResults_run :
    crWith (runS testRun false).cr 0 testRun.regs = (runS testRun false).cr ∧
    (let rs := ((runS testRun false).context 0).runs.filter fun x => !x.ended
     (rs.find? fun x => x.id == 9) = some testRun ∧ testRun.buffer = none ∧
     (rs.find? fun x => x.entry == testRun.entry && x.buffer.isNone && !(runS testRun false).runFailing 0 x) = some testRun ∧
     0 < rgNstage ((runS testRun false).redeemEntry 0 0)) ∧
    ((runS testRun true).redeemRun 0 9 = some testRun ∧ (runS testRun true).runFailing 0 testRun = false ∧
     (runS testRun true).runFaulted 0 testRun = false ∧
     ((runS testRun true).graph 3).any Graph.complete = true ∧ ((runS testRun false).graph 3).any Graph.complete = false ∧
     mdTiles (modelRec 5 1) ≤ 0 + 1) ∧
    ((runS testRun true).answered 0 0 = true ∧ (runS { testRun with cancelled := true } true).runFailing 0 { testRun with cancelled := true } = true) := by
  decide +kernel

/-- A delivery where no page is mapped: what it reads is 0, and it is written nowhere. -/
def bareRun : RedeemRun := { testRun with regs := [] }
def bareRunS : State :=
  { coreS with contexts := [(0, { Context.fresh with runs := [bareRun] })], graphs := (runS testRun true).graphs }
theorem bareRunS_bare : Laws.Bare bareRunS 0 := ⟨⟨rfl, rfl, rfl, rfl⟩, rfl, rfl, rfl, rfl⟩

theorem witness_RedeemResults_delivery :
    (((bareRunS.context 0).runs.find? fun x => x.id == 9 && !x.ended) = some bareRun ∧ crWith bareRunS.cr 0 bareRun.regs = [] ∧
     bareRunS.runFailing 0 bareRun = false ∧ bareRunS.runFaulted 0 bareRun = false ∧ (bareRunS.graph bareRun.bwd).any Graph.complete = true ∧ bareRunS.answered 0 0 = true) ∧
    (∀ vas, bareRunS.updPeers (bareRun.issuer 0) vas = []) ∧ (∀ as, bareRunS.peerKeysOf (bareRun.issuer 0) 1 as = []) ∧
    metLock (bareRunS.deliverTile 0 bareRun 0).2.2 = false ∧ metWait (bareRunS.deliverTile 0 bareRun 0).2.2 = false ∧
    bareRunS.commitPending 0 (bareRunS.deliverTile 0 bareRun 0).2.1 = false ∧
    (bareRunS.deliverTile 0 bareRun 0).2.1.any isPeerKey = false := by
  refine ⟨by decide +kernel, fun _ => Laws.updPeers_bare (e := bareRun.issuer 0) bareRunS_bare _,
    fun _ => Laws.peerKeysOf_bare (e := bareRun.issuer 0) bareRunS_bare _ _,
    (Laws.deliverTile_noStall (r := bareRun) (ctx := 0) bareRunS_bare.1 0).1,
    (Laws.deliverTile_noStall (r := bareRun) (ctx := 0) bareRunS_bare.1 0).2, rfl, ?_⟩
  rw [Laws.deliverTile_bare (r := bareRun) (ctx := 0) bareRunS_bare 0]; rfl

/-! The update engine. -/

/-- Shard blocks of model 1: of UPD, and of NORM with its result in the scratchpad. -/
def updBlock : BitVec 512 := BitVec.ofNat 512 (1 + 2 ^ 64)
def normBlock : BitVec 512 := BitVec.ofNat 512 (1 + 2 ^ 64 + 0x10000100 * 2 ^ 96)
def testUpd (isNorm started : Bool) : UpdCmd :=
  { seq := 0, who := coreAgent.who, place := coreAgent.place, unit := coreAgent.unit, env := coreAgent.env, isNorm := isNorm,
    block := if isNorm then normBlock - BitVec.ofNat 512 (2 ^ 64) else updBlock, outAt := some (spadKey 0 0x100), normAt := none, bar := none, handle := 0,
    normBar := none, regs := (shelfCr 1).take 6, stall := none, stage := 0, started := started, sum := 0, done := 0, skipped := false, already := false, status := 0 }
def updS (c : UpdCmd) (s : State) : State := { s with dies := [(0, { Die.fresh with updQ := [c] })] }
/-- The update's own context: no launch is bound to the slot. -/
def freeSlot : State := { modelS 1 coreS with launches := [] }
def waitPub : WaitPub := ⟨1, 1, 5, 0, 10⟩
/-- A digest of the peer for model 1, version 5, in a packet from node 0. -/
def digestPacket (d : BitVec 128) : Packet :=
  ⟨({ way := [], opc := 11, nb := 1, hop := 0, src := 0, pasid := 0, va := 0, tag := 0, len := 32, cause := 0, arg := 0 } : Header).beat,
   digestBytes 1 5 d 0, 0, 0⟩
def digestS (d : BitVec 128) (now : DWord) : State :=
  { timedS now freeSlot with contexts := [(0, { Context.fresh with waitPub := [waitPub] })], inbox := [digestPacket d] }

/-- R273: WVPUB makes version 6 current once PEND is TILES, and else answers PEND. -/
theorem test_wvpub : groupAfter (.wvpub 1 2) (modelS 1 (groupS [(1, 1)])) 2 = some 6 ∧
    groupAfter (.wvpub 1 2) (modelS 0 (groupS [(1, 1)])) 2 = some 0x8000000000000000 := by decide +kernel

/-- R272: SGD with momentum: m = 0.5 × 2 + 1 = 2, and w = 4 − 0.5 × 2 = 3. -/
theorem test_sgd :
    sgdElem (BitVec.ofNat 512 (0x3F000000 * 2 ^ 160 + 0x3F000000 * 2 ^ 192)) 0x3F800000 ⟨0x40000000, 0, 0x40800000⟩
      = ⟨0x40000000, 0, 0x40400000⟩ := by decide +kernel

theorem witness_UpdateResults :
    (Clear (gNeed .core [1, 2]) coreS ∧ Clear (gNeed .core [63, 1]) coreS ∧ Clear (gNeed .core [63, 1, 2]) coreS) ∧
    ((coreS.updImage 0x10000000 64).toBool = true ∧ (coreS.updImage 0x10000010 16).toBool = true ∧
     coreS.updImage 0x10000020 64 = .error .align ∧ coreS.updImage 0x10000008 16 = .error .align ∧ (modelS 1 coreS).shardBlockOk updBlock = true ∧ coreS.shardBlockOk updBlock = false ∧
     (modelS 1 coreS).normBlockOk normBlock = true ∧ coreS.normBlockOk normBlock = false ∧ (coreS.die 0).updQ.length < 64 ∧
     64 ≤ (({ coreS with dies := [(0, { Die.fresh with updQ := List.replicate 64 (testUpd true false) })] } : State).die 0).updQ.length) ∧
    (mdPend (modelRec 5 1) = mdTiles (modelRec 5 1) ∧ mdPend (modelRec 5 0) ≠ mdTiles (modelRec 5 0) ∧
     (modelS 1 coreS).model 0 1 = modelRec 5 1 ∧ (modelS 1 coreS).digestFlag 0 1 0 = false ∧
     (modelS 1 coreS).digestFlag 0 1 1 = false ∧ ((modelS 1 coreS).launch 0 1).all (fun l => !l.replayable) = true ∧
     mdTiles (coreS.model 0 1) = 0) ∧
    (({ coreS with launches := [{ boundLaunch with replayable := true }] } : State).launch 0 1).any (fun l => l.replayable) = true ∧
    (retained (modelRec 5 1) 4 = true ∧ retained (modelRec 5 1) 3 = false ∧ mdVcur (modelRec 5 1) = 5) := by unfold Clear; decide +kernel

theorem witness_UpdateResults_steps :
    (let s := updS (testUpd false false) freeSlot
     crWith s.cr 0 (testUpd false false).regs = s.cr ∧ s.answered 0 0 = true ∧ (s.die 0).updQ[0]? = some (testUpd false false) ∧ (testUpd true false).isNorm = true ∧ (f32 0).isNaN = false ∧ (f32 0).isInf = false ∧
     (f32 0x7FC00000).isNaN = true) ∧
    (let s := updS (testUpd false true) freeSlot
     (s.die 0).updQ[0]? = some (testUpd false true) ∧ s.isCommitted 0 1 0 = false ∧ s.slotHeld 0 1 (mdVcur (s.model 0 1) + 1) = false ∧
     s.updYields 0 (testUpd false true) = false ∧ ubNt (testUpd false true).block ≤ 0 + 1 ∧
     0 + 1 < ubNt (updBlock + BitVec.ofNat 512 (2 ^ 64)) ∧
     (({ s with contexts := [(0, { Context.fresh with committed := [⟨1, 0, 1, 0⟩] })] } : State).isCommitted 0 1 0) = true ∧
     ({ s with launches := [{ boundLaunch with bound := some 6 }] } : State).slotHeld 0 1 (mdVcur (s.model 0 1) + 1) = true) ∧
    (let s := updS (testUpd true false) freeSlot
     (s.die 0).updQ[0]? = some (testUpd true false) ∧ s.updYields 0 (testUpd true false) = false ∧
     (let w := s.applyNorm ((testUpd true false).issuer 0) (testUpd true false)
      metLock w.2.2 = false ∧ metWait w.2.2 = false ∧ (List.range (ubNt (testUpd true false).block)) = [] ∧ w.1.poison = []) ∧
     (testUpd true false).outAt = some (spadKey 0 0x100) ∧ s.regionBars ((testUpd true false).issuer 0) (spadKey 0 0x100) = false ∧ ({ testUpd true false with stall := some 0 } : UpdCmd).stall.isSome = true) ∧
    (let c : Commit := ⟨0, [(0, 1)], [0], false, 0, ⟨0, coreAgent.who, testUnit.key, false, none, 0, 0, 0, 0⟩, none, false⟩
     let s : State := { coreS with commits := [{ c with locked := true }, c] }
     s.commits[0]? = some { c with locked := true } ∧ s.commits[1]? = some c ∧ c.meets c = true ∧
     Commit.meets { c with cells := [(9, 1)] } c = false ∧ c.missed = false ∧ c.timed = none ∧
     s.commitLate { c with missed := true } = false ∧ coreS.meetsLock 0 0 = false ∧
     (timedS 600 coreS).isLate 0 5 600 = true) := by decide +kernel

/-- The commit of a tile where the model's pages are mapped: no lock is met and no slot waited for, whatever the tile holds. -/
theorem witness_UpdateResults_quiet :
    metLock ((updS (testUpd false true) freeSlot).commitTile ((testUpd false true).issuer 0) (testUpd false true) 0).2.2 = false ∧
    metWait ((updS (testUpd false true) freeSlot).commitTile ((testUpd false true).issuer 0) (testUpd false true) 0).2.2 = false :=
  Laws.commitTile_noStall (e := (testUpd false true).issuer 0) ⟨rfl, rfl, rfl, rfl⟩ _ _

/-- An update where no page is mapped, of a tile and of a shard that it drops. -/
def bareUpd (skipped : Bool) : UpdCmd := { testUpd false true with skipped := skipped, regs := [] }
def bareUpdS (skipped : Bool) : State := updS (bareUpd skipped) coreS
theorem bareUpdS_bare (b : Bool) : Laws.Bare (bareUpdS b) 0 := ⟨⟨rfl, rfl, rfl, rfl⟩, rfl, rfl, rfl, rfl⟩

theorem witness_UpdateResults_commit :
    (((bareUpdS false).die 0).updQ[0]? = some (bareUpd false) ∧ crWith (bareUpdS false).cr 0 (bareUpd false).regs = (bareUpdS false).cr ∧
     (bareUpdS false).answered 0 0 = true ∧ (bareUpdS false).isCommitted 0 1 0 = false ∧ (bareUpdS false).updRunnable (bareUpd false) = true ∧
     (bareUpdS false).updYields 0 (bareUpd false) = false) ∧
    (let e := (bareUpd false).issuer 0
     let r := (bareUpdS false).commitTile e (bareUpd false) 0
     (∀ vas, (bareUpdS false).updPeers e vas = []) ∧ metLock r.2.2 = false ∧ metWait r.2.2 = false ∧
     (bareUpdS false).commitPending 0 r.2.1 = false ∧ r.2.1.any isPeerKey = false) ∧
    (let e := (bareUpd true).issuer 0
     let z := (bareUpdS true).dropShard e (bareUpd true)
     metLock z.2.2 = false ∧ metWait z.2.2 = false ∧ (bareUpdS true).commitPending 0 z.2.1 = false ∧ z.2.1.any isPeerKey = false) := by
  refine ⟨by decide +kernel, ⟨fun _ => Laws.updPeers_bare (e := (bareUpd false).issuer 0) (bareUpdS_bare false) _,
    (Laws.commitTile_noStall (e := (bareUpd false).issuer 0) (bareUpdS_bare false).1 _ _).1,
    (Laws.commitTile_noStall (e := (bareUpd false).issuer 0) (bareUpdS_bare false).1 _ _).2, rfl, ?_⟩,
    ⟨(Laws.dropShard_noStall (e := (bareUpd true).issuer 0) (bareUpdS_bare true).1 _).1,
     (Laws.dropShard_noStall (e := (bareUpd true).issuer 0) (bareUpdS_bare true).1 _).2, rfl, ?_⟩⟩
  · rw [Laws.commitTile_bare (e := (bareUpd false).issuer 0) (bareUpdS_bare false)]; rfl
  · rw [Laws.dropShard_bare (e := (bareUpd true).issuer 0) (bareUpdS_bare true)]; rfl

/-- A fill that is no read, and a copy whose source is locked since 40,000 dtu before. -/
def lockedS : State :=
  { copyS (testCopy (.tile 0 tile1 tile2)) with
    commits := [⟨0, [(spadKey 0 0, 1)], [0], true, 0, ⟨0, coreAgent.who, testUnit.key, false, none, 0, 0, 0, 0⟩, none, false⟩],
    dies := [(0, { Die.fresh with copyQ := [{ testCopy (.tile 0 tile1 tile2) with stall := some 0 }], time := 40000 })] }

theorem witness_UpdateResults_digest :
    (lockedS.stallOf 0 0 = some 0 ∧ lockedS.stallOf 0 1 = none ∧ 40000 ≤ ((lockedS.die 0).time - (0 : DWord)).toNat ∧ lockedS.meetsLock 0 0 = true) ∧
    ((digestS 0 20).waitingPub 0 1 = some waitPub ∧ (digestS 0 20).digestItem 0 1 5 0 0 = some 0 ∧ (digestS 7 20).digestItem 0 1 5 7 0 = some 0 ∧
     waitPub.version = 5 ∧ waitPub.digest = 0 ∧ waitPub.digest ≠ 7) ∧
    (((digestS 0 20).die ((digestS 0 20).firstDie 0)).time.toNat < waitPub.time.toNat + 40000000 ∧
     waitPub.time.toNat + 40000000 ≤ ((digestS 0 40000010).die ((digestS 0 40000010).firstDie 0)).time.toNat) := by decide +kernel

/-! Control registers, contexts and the supervisor. -/

/-- R282: CSRW of CR.STVEC gives the old value; CSRS then sets bits; selector 0x800 is the firmware's. -/
theorem test_csr :
    (match exec (.csrw 2 1 3) (supG [(1, 0x402), (2, 0x100)]) with
     | .next t => some (t.me.readG 3, t.me.stvec) | _ => none) = some (0, 0x100) ∧
    groupAfter (.csrr 1 3) ({ supG [(1, 0x402)] with me := { (supG [(1, 0x402)]).me with stvec := 9 } }) 3 = some 9 ∧
    (match exec (.csrr 1 3) (supG [(1, 0x800)]) with | .next t => some t.me.scause | _ => none) = some (BitVec.ofNat 64 Cause.privileged.code) := by
  decide +kernel

/-- R279, R284: a trap on the supervisor saves the PC and the cause and goes to STVEC; ERET goes back. -/
theorem test_trap_and_return :
    let s : State := withAgent { supS.me with stvec := 0x801, cur := { supS.me.cur with pc := 0x44, headPc := 0x40 } }
    let t := takeTrap s .illegalField
    (t.me.sepc, t.me.cur.pc, t.me.scause) = (0x40, 0x800, BitVec.ofNat 64 Cause.illegalField.code) ∧ pcAfter .eret t = some 0x40 := by
  decide +kernel

theorem witness_ControlRegisterResults :
    (Clear (gNeed .sup [63, 1]) supS ∧ Clear (gNeed .sup [63, 1, 2]) supS) ∧
    (selectorCause 0x800 = some .privileged ∧ selectorCause 0x016 = some .illegalField ∧ selectorCause 0x1402 = some .illegalField ∧
     selectorCause 0x402 = none ∧ selectorCause 0x3F000 = none) ∧
    (supS.csrTrap 0x002 0 0x1000 = some .illegalField ∧ csrMask 0x008 = 0xFFFFFFFF ∧ selNumber 0x402 ≠ 0x012 ∧
     supS.csrTrap 0x001 0 (2 ^ 16) = some .illegalField ∧ supS.csrTrap 0x402 0 0x100 = none ∧
     ({ supS with launches := [testLaunch] } : State).csrTrap 0x006 0 4 = some .contextBusy) ∧
    (csrWaits (selNumber 0x402) 0 1 = false ∧ csrWaits (selNumber 0x001) 0 1 = true ∧ csrReadOnly (selNumber 0x858) = true ∧
     csrReadOnly (selNumber 0x402) = false ∧ selectorCause 0x858 = none ∧ 0x016 ≤ selNumber 0x3FF ∧ selNumber 0x3FF < 0x400) := by
  unfold Clear; decide +kernel

/-- A supervisor thread that waits with a CSRW of a register. -/
def csrS (x v : DWord) : State := withAgent (supS.me.setWait (.csr 5 x 1 v))

/-- R281: context 1 becomes valid with the shelf empty and the reset value of its fault policy. -/
theorem test_context_create :
    (match execContextCreate 1 1 (csrS 0x1000 1) with
     | .next t => some (t.ctxValid 1, t.ctxReg 1 0x011, t.me.wait) | _ => none) = some (true, 0x195559, .none) := by decide +kernel

/-- A CSRW that a record must wait for, with a launch of context 1. -/
def csrBusy (l : Launch) : State := { csrS 0x1000 0 with cr := [(0x1000, 1)], launches := [l] }
def csrIdle : State := { csrS 0x1000 0 with cr := [(0x1000, 1)] }

theorem witness_ContextSteps :
    (csrS 0x1000 1).csrWaiter 1 0 = some ((csrS 0x1000 1).me, 5, 0, 1) ∧ (csrS 0x1000 1).asidTaken 1 ((csrS 0x1000 1).asidOf 1) = false ∧
    ({ csrS 0x1000 1 with cr := [(0, 1)] } : State).asidTaken 1 0 = true ∧ (0 : DWord).getLsbD 0 = false := by decide +kernel

theorem witness_ContextSteps_end :
    csrIdle.csrWaiter 1 0 = some (csrIdle.me, 5, 1, 0) ∧ csrIdle.ctxBusy 1 = false ∧
    (csrBusy { testLaunch with ctx := 1 }).ctxBusy 1 = true ∧ (csrBusy { testLaunch with ctx := 1, stopping := true }).ctxBusy 1 = true ∧
    ((csrBusy { testLaunch with ctx := 1 }).launches.filter (fun l => l.ctx == 1 && !l.complete && !l.stopping)).isEmpty = false ∧
    ((csrBusy { testLaunch with ctx := 1, stopping := true }).launches.filter (fun l => l.ctx == 1 && !l.complete && !l.stopping)).isEmpty = true := by
  decide +kernel

/-- A CSRW that leaves VALID as it stands, of the class tiles of an idle context and of a busy one. -/
theorem witness_ContextSteps_same :
    (let s : State := { csrS 0x1000 3 with cr := [(0x1000, 1)] }
     s.csrWaiter 1 0 = some (s.me, 5, 1, 3) ∧ (1 : DWord).getLsbD 0 = (3 : DWord).getLsbD 0 ∧
     s.csrTrap (BitVec.ofNat 64 (1 * 4096)) 1 3 = none ∧
     ({ s with launches := [{ testLaunch with ctx := 1 }] } : State).csrTrap (BitVec.ofNat 64 (1 * 4096)) 1 0x101 ≠ none) := by
  decide +kernel

theorem witness_ContextSteps_asid :
    (csrS 0x1001 7).csrWaiter 1 1 = some ((csrS 0x1001 7).me, 5, 0, 7) ∧ (csrS 0x1001 7).asidClash 1 1 0 7 = false ∧
    (csrS 0x1001 7).busyChange 1 1 0 7 = false ∧
    ({ csrS 0x1001 7 with cr := [(1, 7), (0, 1), (0x1000, 1)] } : State).asidClash 1 1 0 7 = true ∧
    (csrBusy { testLaunch with ctx := 1 }).busyChange 1 1 0 7 = true ∧
    (csrS 0x1002 7).csrWaiter 1 2 = some ((csrS 0x1002 7).me, 5, 0, 7) ∧ (csrS 0x880 0).csrWaiter 0 0x880 = some ((csrS 0x880 0).me, 5, 0, 0) ∧
    (csrS 0x881 0).csrWaiter 0 0x881 = some ((csrS 0x881 0).me, 5, 0, 0) ∧ supS.agentAsid supS.me = 0 := by decide +kernel

theorem witness_SupervisorTrapEntry :
    supS.me.kind = .sup ∧ supS.me.cur.wait = .none ∧ coreS.me.kind ≠ .sup ∧ csqS.me.kind ≠ .sup ∧ Clear (Need.of .sup) supS ∧
    (0x60 ≤ Cause.permission.code ∧ Cause.permission.code ≤ 0x65 ∧ 0x60 ≤ Cause.pteFormat.code ∧ Cause.pteFormat.code ≤ 0x65) ∧ ¬(0x60 ≤ Cause.illegalField.code ∧ Cause.illegalField.code ≤ 0x65) := by
  unfold Clear; decide +kernel

/-- A supervisor thread that waits, and one whose write to a peer has no answer. -/
def supWait (w : Wait) : State := withAgent (supS.me.setWait w)
def peerBusy' : State := { supS with requests := [⟨0, 2, some (.sup 0), 8, 0, 0, 0, 0, 0, none, false, false⟩] }

/-- R284, R285: ZERO takes whole 64 KiB ranges; HIRQ sends a vector; an MBZ bit traps. -/
theorem test_hirq :
    (match exec (.hirq 1) (supG [(1, 0x10003)]) with | .next t => some t.msix | _ => none) = some [(true, 3)] ∧
    groupAfter (.zeroRange 2 1 3) (supG [(1, 1), (2, 0x10000)]) 3 = some 1 ∧
    (match exec (.hirq 1) (supG [(1, 0x800)]) with | .next t => some t.me.scause | _ => none) = some (BitVec.ofNat 64 Cause.illegalField.code) := by
  decide +kernel

theorem witness_SupervisorResults :
    (Clear (gNeed .sup [1, 2]) supS ∧ Clear (gNeed .sup [1]) supS ∧ Clear (gNeed .sup [63, 1, 2]) supS ∧ Clear (gNeed .sup [63, 1]) supS ∧
     Clear (Need.of .sup) supS ∧ Clear (gNeed .sup [1, 2]) peerBusy') ∧
    (supS.me.storeQ = [] ∧ supS.peerWrites supS.me.who = false ∧ peerBusy'.me.storeQ = [] ∧ peerBusy'.peerWrites peerBusy'.me.who = true) ∧
    (zeroRangeOk 0 65536 = true ∧ zeroRangeOk (2 ^ 40 + 8 * 2 ^ 28 - 65536) 65536 = true ∧ zeroRangeOk (2 ^ 40 + 8 * 2 ^ 28) 65536 = false ∧
     zeroRangeOk 0 65537 = false) ∧
    ((supWait (.zero 5 0 65536)).agent (.sup 0) = some (supWait (.zero 5 0 65536)).me ∧ (supWait (.zero 5 0 65536)).mem.wf = true ∧
     (supWait .halt).agent (.sup 0) = some (supWait .halt).me ∧ supS.agent (.sup 0) = some supS.me ∧ supS.me.wait = .none) ∧
    ((0x800 : DWord).extractLsb' 11 5 ≠ 0 ∧ (0x20000 : DWord).extractLsb' 17 47 ≠ 0 ∧ (0x10007 : DWord).extractLsb' 17 47 = 0 ∧
     ((mapped supS).routeImage 0x30000 32).2.toBool = true ∧ (supS.routeImage 0x30000 32).2 = .error (some (.pageNotPresent, 0x30000)) ∧
     ((missHub (mapped supS)).routeImage 0x30000 32).2 = .error none) ∧
    (let s : State := { supS with requests := [⟨0, 1, some (.sup 1), 8, 0, 0, 0, 0, peerKey 5 9 0x80000010, none, false, false⟩] }
     (∃ r ∈ s.requests, isPeerKey r.key = true ∧ ∃ g ∈ s.pagesAt 0 0x80000000, g.1 ≤ (peerVa r.key).toNat ∧ (peerVa r.key).toNat < g.1 + g.2) ∧
     ¬(∃ r ∈ supS.requests, isPeerKey r.key = true) ∧ supS.agents = []) ∧
    ((mapped supS).rootOfAsid 0 = some 0x10000 ∧ (walkFrom (mapped supS).mem (mapped supS).poison 0x1000 3 0x10000).toOption = some ⟨0x20000, 2, 0x7F⟩ ∧
     (0x7F : DWord).getLsbD 2 = true ∧ (0x7F : DWord).getLsbD 11 = false ∧ ((mapped supS).die 0).tlb = []) := by
  unfold Clear; decide +kernel

/-- A saved unit, and the supervisor that loads it. -/
def savedUnit : WorkUnit := { testUnit with saved := true }
def savedS : State := { mapped supS with units := [savedUnit] }

theorem witness_SupervisorResults_save :
    ((0x0010000000000001 : DWord).toNat < 2 ^ 58 ∧ saveTarget 1 = ⟨0, 1, 0⟩ ∧ savedS.unit ⟨0, 1, 0⟩ = some savedUnit ∧
     supS.unit ⟨0, 1, 0⟩ = none ∧ (0x30000 : BitVec 56).toNat % 256 = 0 ∧ (0x30080 : BitVec 56).toNat % 256 ≠ 0) ∧
    (savedS.supMapped 0x30000 256 false = true ∧ savedS.imagePeers 0x30000 256 = [] ∧ supS.supMapped 0x30000 256 false = false ∧
     (routed savedS).imagePeers 0x80000000 256 ≠ []) ∧
    savedS.restoreStatus savedUnit [] 0 0 [0] = 4 := by decide +kernel

/-- Poisoned bytes of an image, a route record in a peer's memory, and a launch in rollback. -/
theorem witness_SupervisorResults_reads :
    savedS.supPoisoned 0x30000 256 = none ∧ ({ savedS with poison := [0x30010 / 16] } : State).supPoisoned 0x30000 256 = some 0x30010 ∧
    (match ((routed (mapped supS)).routeImage 0x80000000 32).2 with | .ok ks => ks.any isPeerKey | _ => false) = true ∧
    (match ((mapped supS).routeImage 0x30000 32).2 with | .ok ks => ks.all fun k => !isPeerKey k | _ => false) = true ∧
    ({ testLaunch with replay := some ⟨[], [], []⟩, rollback := some false } : Launch).rollback.isSome = true := by decide +kernel

/-- The launch as the supervisor names it: one of which nothing has been admitted, one that runs with a snapshot. -/
def snapLaunch : Launch := { testLaunch with next := 1, replay := some ⟨[], [], []⟩ }

/-- The supervisor thread on a core that serves partition 0 (log entry 36). -/
def keeperS (ls : List Launch) : State :=
  { supS with me := { supS.me with who := .sup (keeperOf 0) }, launches := ls }

theorem launchById_one (l : Launch) (hp : (keeperS [l]).partOf l.ctx = 0) (hc : l.complete = false) :
    (keeperS [l]).launchById l.id = some l := by
  have hs : (keeperS [l]).me.serves 0 = true := by simp [keeperS, Agent.serves]
  have hl : (keeperS [l]).launches = [l] := rfl
  simp [State.launchById, hl, hc, hp, hs, Nat.mod_one]

theorem witness_SupervisorResults_snap :
    (supS.launchById 1 = none ∧ testLaunch.next = 0 ∧ ({ supS with launches := [testLaunch] } : State).launch 0 1 = some testLaunch ∧
     snapLaunch.next ≠ 0 ∧ snapLaunch.replay.isSome = true ∧ snapLaunch.rollback = none ∧ snapLaunch.stopping = false ∧
     ({ snapLaunch with stopping := true } : Launch).stopping = true) ∧
    (keeperS [testLaunch]).launchById 1 = some testLaunch ∧ (keeperS [snapLaunch]).launchById 1 = some snapLaunch ∧
    (keeperS [snapLaunch]).useFree.awaitsDigest 0 1 = false :=
  ⟨by decide +kernel, launchById_one testLaunch rfl rfl, launchById_one snapLaunch rfl rfl, rfl⟩

/-- Die 0 with a cached leaf, a page marked contended, or a walk of the page of VA 0x1000 by context 0. -/
def tlbS (ds : Die) : State := { mapped coreS with dies := [(0, ds)] }
def walk0 (granted : Bool) : Walk := ⟨0, 0x1000, true, granted, 1, 0x20000, 2, 0x7F, none, [.agent coreAgent.who], false⟩

theorem witness_PageWalkResults :
    (tlbFind ((tlbS { Die.fresh with tlb := [⟨false, 7, 0, 2, 0x7F⟩] }).die 0).tlb 7 0x12345 true false = some ⟨false, 7, 0, 2, 0x7F⟩ ∧
     tlbFind (coreS.die 0).tlb 7 0x12345 true false = none ∧
     (walk0 true ∈ ((tlbS { Die.fresh with contended := [walk0 true] }).die 0).contended ∧
      (tlbS { Die.fresh with contended := [walk0 true] }).walkIsFor (walk0 true) 7 0x1FFF = true ∧
      Asker.agent coreAgent.who ∈ (walk0 true).askers ∧ Asker.command 0 ∉ (walk0 true).askers) ∧ (coreS.die 0).contended = [] ∧
     (missS (mapped coreS)).mayWalk 0 7 0x12345 = false ∧ (mapped coreS).mayWalk 0 7 0x12345 = true ∧
     ({ mapped coreS with agenda := [.event (.pageWalk 0 0 0x1000 true)] } : State).walkApart 0 7 0x1000 true = true ∧
     (mapped coreS).walkApart 0 7 0x12345 true = false ∧ walkStart [] 7 0x12345 0x10000 = (3, 0x10000)) ∧
    ((tlbS { Die.fresh with walks := [walk0 true] }).walkIsFor (walk0 true) ((mapped coreS).walkAsid 0) 0x1FFF = true ∧
     (mapped coreS).walkIsFor (walk0 true) 7 0x40000000 = false ∧ (walk0 false).granted = false ∧
     ([walk0 false].find? fun x => !x.granted) = some (walk0 false) ∧ ([walk0 true].find? fun x => !x.granted) = none ∧
     ([walk0 false].filter fun x => x.granted).length < 64 ∧ 384 ≤ ((List.replicate 384 (walk0 true)).filter fun x => x.granted).length) ∧
    (readEntry (mapped coreS).mem 0x20000 = (walk0 true).leaf ∧ readEntry (mapped coreS).mem 0x20000 ≠ 0x5F ∧
     (mapped coreS).attemptStart 0 (walk0 true) = (3, 0x10000) ∧
     (match walkFrom (mapped coreS).mem [] 0x1000 3 0x10000 with
      | .ok f => decide (f = ⟨0x20000, 2, 0x7F⟩) && (leafOutcome 0 f 0x1000 true).leaf.isSome | _ => false) = true ∧
     (match walkFrom (absentS coreS).mem [] 0x40000000 3 0x10000 with
      | .ok f => (leafOutcome 0 f 0x40000000 true).leaf.isNone | _ => false) = true ∧
     markLeaf 0x7F true = 0x7F ∧ markLeaf 0x1F true ≠ 0x1F ∧
     (match walkFrom (mapped coreS).mem [] 0x40000000 3 0x10000 with | .error _ => true | _ => false) = true) := by decide +kernel

/-! Faults, their policies, and the host's ports. -/

/-- Partition 0 with a fault ring of 16 records, its TAIL and the records that wait for it. -/
def faultS (tail : Word) (waiting : List (BitVec 512)) : State :=
  { supS with cr := [(64 * 4096 + 0x850, 4)], parts := [(0, { coreS.part 0 with faultTail := tail, waiting := waiting })] }
/-- A fault of launch 1, which runs with the policy that its context gives. -/
def testFault : Pending := pendingOf { coreAgent with run := .faulted } 7 .illegalField .precise .none 0x44
def policyS (policies : DWord) (l : Launch) : State :=
  { launchS l with me := { coreAgent with run := .faulted, cur := { coreAgent.cur with headPc := 0x40, pc := 0x44, pos := 1 } },
                   cr := [(0x011, policies)], pending := [testFault] }

/-- R323, R327: the record's cause, launch and resume PC; policy STOP leaves the agent stopped at its chain's head. -/
theorem test_fault_delivery :
    ((recordOf testFault 0 false).extractLsb' 0 8, (recordOf testFault 0 false).extractLsb' 64 32, (recordOf testFault 0 false).extractLsb' 192 32) =
      (0x02, 1, 0x44) ∧
    (match execFaultRecordDeliver (policyS 0 testLaunch) with
     | .next t => some (t.me.run, t.me.cur.pc, (t.launch 0 1).map Launch.faulted, t.pending.length) | _ => none) =
      some (.stopped, 0x40, some true, 0) := by decide +kernel

theorem witness_FaultDelivery :
    (((faultS 0 []).part 0).waiting = [] ∧ (faultS 0 []).faultFull 0 = false ∧ (faultS 16 []).faultFull 0 = true ∧
     (faultS 15 []).faultFull 0 = false ∧ ((faultS 16 []).part 0).waiting.length < 64 ∧
     64 ≤ ((faultS 16 (List.replicate 64 0)).part 0).waiting.length ∧ ((faultS 0 [7]).part 0).waiting = [7] ∧
     (faultS 0 [7]).faultFull 0 = false) ∧
    (coreS.pending = [] ∧ (policyS 0 testLaunch).pending = [testFault] ∧
     (policyS 0 testLaunch).launch testFault.ctx testFault.launch = some testLaunch ∧ testFault.policy = none ∧
     ({ policyS 0 testLaunch with launches := [] } : State).launch testFault.ctx testFault.launch = none) ∧
    (testLaunch.complete = false ∧ testLaunch.stopping = false ∧ testLaunch.rollback = none ∧
     (((policyS 0 testLaunch).ctxReg 0 0x011).toNat / 4 ^ causeClass .illegalField) % 4 = 0 ∧
     (((policyS 0x555555 testLaunch).ctxReg 0 0x011).toNat / 4 ^ causeClass .illegalField) % 4 = 1 ∧
     (((policyS 0xAAAAAA testLaunch).ctxReg 0 0x011).toNat / 4 ^ causeClass .illegalField) % 4 = 2 ∧
     testLaunch.replay = none ∧ snapLaunch.replay.isSome = true ∧ snapLaunch.replays = 0 ∧ testLaunch.cancelled = false ∧
     snapLaunch.cancelled = false ∧ snapLaunch.complete = false ∧ snapLaunch.stopping = false ∧ snapLaunch.rollback = none) ∧
    (({ testFault with policy := some 2 } : Pending).policy = some 2 ∧
     ({ testLaunch with complete := true } : Launch).complete = true ∧ Cause.illegalField ≠ .mergeConflict ∧
     ({ testLaunch with complete := true, cancelled := false } : Launch).cancelled = false) := by decide +kernel

/-- R329, R333, R352: a launch that ends takes POLICY 3, but for a graph end's conflict; a mismatch that cannot be replayed kills. -/
theorem test_policyFor :
    ((policyS 0 testLaunch).policyFor { testLaunch with complete := true } none .illegalField,
     (policyS 0 testLaunch).policyFor { testLaunch with complete := true } none .mergeConflict,
     (policyS 0 testLaunch).policyFor testLaunch none .digestMismatch,
     (policyS 0xAAAAAA testLaunch).policyFor { snapLaunch with replays := 1 } none .digestMismatch,
     (policyS 0xAAAAAA testLaunch).policyFor { snapLaunch with replays := 1 } none .illegalField) = (3, 0, 1, 1, 2) := by decide +kernel

/-- A record of a rotation cycle of a unit that stands; the fault of a run's launch. -/
theorem witness_FaultDelivery_cycle :
    ({ coreS with units := [testUnit] } : State).recordSettled { testFault with cycle := some 3 } = false ∧
    ({ coreS with units := [testUnit] } : State).recordSettled testFault = true ∧ testFault.cycle = none ∧
    (runS testRun true).inRun { testLaunch with run := some 9 } = true ∧ coreS.inRun testLaunch = false := by decide +kernel

/-- R283: a unit keeps the FPOL of its admission; a context's register serves where no unit stands. -/
theorem witness_FaultDelivery_policyReg :
    (let u := { testUnit with env := { testUnit.env with fpol := 5 } }
     ({ coreS with units := [u] } : State).units.find? (fun u => decide (u.key.ctx = 0) && decide (u.key.launch = testUnit.key.launch) && (none : Option Nat).all fun i => u.key.index == i) = some u) ∧
    (∀ u ∈ ({ coreS with units := [] } : State).units, ¬(u.key.ctx = 0)) := by decide +kernel

/-- A supervisor thread that writes an action on launch 1 to CR.FACT, with a launch. -/
def factS (action : Nat) (ls : List Launch) : State :=
  { supWait (.csr 5 0x012 1 (BitVec.ofNat 64 (1 + action * 2 ^ 32))) with launches := ls }
/-- A launch that is being rolled back, and its unit. -/
def rollS (ended : Bool) : State := endS ended { snapLaunch with rollback := some true } supS.me

/-- R343: a rolled back launch starts anew, and its copied page stands again. -/
theorem test_rollback :
    (match execRollback 0 1 { rollS true with launches := [{ snapLaunch with rollback := some true, replay := some ⟨[(1, [(0x10000, 5)])], [], []⟩ }],
                                              mem := [(0x10000, 9), (0x20000, 7)] } with
     | .next t => some ((t.launch 0 1).map fun l => (l.next, l.replays), Memory.read t.mem 0x10000, Memory.read t.mem 0x20000) | _ => none) =
      some (some (0, 1), 5, 7) := by decide +kernel

theorem witness_FaultActions :
    ((policyS 0 testLaunch).launch 0 1 = some testLaunch ∧ testFault.who = some coreAgent.who ∧
     ((policyS 0 testLaunch).agent coreAgent.who).map (fun a => a.run) = some .faulted ∧ testLaunch.complete = false ∧
     (policyS 0 testLaunch).graph testLaunch.graphInst = none ∧ testLaunch.graphInst = 0 ∧ (policyS 0 testLaunch).me.cur.wait = .none ∧
     (Wait.bwait 3 2 true none).discardable = true ∧ ({ testLaunch with complete := true } : Launch).complete = true ∧
     coreAgent.between.waitsNot = true ∧ (coreAgent.setWait (.csr 5 0x012 1 0)).between.waitsNot = false) ∧
    ((factS 0 []).factWaiter 0 1 0 = some ((factS 0 []).me, 5) ∧ (factS 1 []).factWaiter 0 1 1 = some ((factS 1 []).me, 5) ∧
     (factS 2 []).factWaiter 0 1 2 = some ((factS 2 []).me, 5) ∧ (factS 3 []).factWaiter 0 1 3 = some ((factS 3 []).me, 5) ∧
     (factS 1 []).factLaunch 0 1 = none ∧ (factS 1 [testLaunch]).factLaunch 0 1 = some testLaunch) ∧
    (testLaunch.stopping = false ∧ ({ testLaunch with stopping := true } : Launch).stopping = true ∧
     ({ snapLaunch with rollback := some true } : Launch).rollback.isSome = true ∧ ({ snapLaunch with held := true } : Launch).held = true ∧
     ({ snapLaunch with held := true } : Launch).rollback = none ∧ testLaunch.held = false ∧ snapLaunch.held = false ∧ snapLaunch.rollback = none ∧
     snapLaunch.stopping = false ∧ snapLaunch.replay.isSome = true ∧ snapLaunch.replays < 2 ∧ testLaunch.replay = none) ∧
    ((rollS true).launch 0 1 = some { snapLaunch with rollback := some true } ∧ (endS true snapLaunch supS.me).launch 0 1 = some snapLaunch ∧
     (endS true snapLaunch supS.me).snapcWaits 0 1 = false ∧
     (endS true snapLaunch (supS.me.setWait (.snapc 5 0 1))).snapcWaits 0 1 = true ∧ ({ snapLaunch with replays := 2 } : Launch).replays = 2 ∧ (∀ u ∈ (rollS true).unitsOf 0 1, u.ended = true) ∧ (rollS true).busyFor 0 1 = false ∧
     snapLaunch.complete = false ∧ ((rollS false).unitsOf 0 1).all (fun u => u.ended) = false) ∧
    (coreS.mem.wf = true ∧ (∀ c ∈ [(1, [(0x10000, (5 : Byte))])], ∀ m ∈ c.2, m.1 / 2 ^ 16 = c.1) ∧
     ([(1, [(0x10000, (5 : Byte))])].map fun c => c.1).Nodup ∧ (∀ c ∈ [(1, [(0x10000, (5 : Byte))])], Memory.wf c.2 = true)) := by decide +kernel

/-- Context 1 with ASID 7, a submission ring of 2 records at VA 0 and its watch block at VA 0x100, PROD as given. -/
def ringCr : Store DWord := [(0x1000, 1), (0x1001, 7), (0x1002, 0x10000), (0x100F, 1), (0x1010, 0x100)]
def subS (prod : Byte) : State :=
  { supS with mem := [(0x100, prod), (0x10000, 0x01), (0x10002, 0x02), (0x20000, 0x7F)], cr := ringCr, supRoot := 0x10000 }

/-- R290: the record of zeros is taken with reason 1; the consumer count goes up. -/
theorem test_ring_take :
    (match execSubmissionRingTake 1 (subS 1) with
     | .next t => some ((t.context 1).taken, Memory.read t.mem 0x108, Memory.read t.mem 0x140, Memory.read t.mem 0x147) | _ => none) =
      some (1, 1, 1, 0x80) := by decide +kernel

/-- Both host ports are up. -/
def semS (h : Hsem) : State := { coreS with hsem := { h with up0 := true, up1 := true } }

/-- R287, R289: a claim while HSEM is free, one while it is held, and a write through HDM. -/
theorem test_hsem :
    (match execHsemClaim true 3 (semS State.reset.hsem) with | .next t => some t.hsem.word | _ => none) = some 0x300000003 ∧
    (match execHsemClaim true 3 (semS ⟨true, false, 9, none, true, true⟩) with | .next t => some t.hsem.word | _ => none) = some 0x900000001 ∧
    (match execHostHdmAccess false true 0x40 [1, 2] (semS State.reset.hsem) with | .next t => some t.mem | _ => none) = some [(0x40, 1), (0x41, 2)] := by
  decide +kernel

theorem witness_HostPortResults :
    ((subS 0).ctxValid 1 = true ∧ (subS 0).ringLog 1 = 1 ∧ ((subS 0).context 1).taken = 0 ∧ ((subS 0).context 1).badProd = none ∧
     (subS 0).ctxNum 1 ((subS 0).watchBase 1) 4 = 0 ∧ (subS 1).ctxNum 1 ((subS 1).watchBase 1) 4 = 1 ∧
     (subS 3).ctxNum 1 ((subS 3).watchBase 1) 4 = 3 ∧ (match (subS 1).answer 1 ((subS 1).ringDraft 1 0) with | .error n => n | .ok _ => 0) = 1) ∧
    (let s := semS State.reset.hsem
     s.hsem.up true = true ∧ s.hsem.up false = true ∧ s.agenda = [] ∧ s.hsem.held = false ∧ s.hsemLocked = false ∧ State.reset.hsem.up true = false ∧
     (∀ o t', s.agenda.head? ≠ some (.event (.hsemClaim o t')))) ∧
    (let s := semS ⟨true, true, 9, none, true, true⟩
     s.hsem.held = true ∧ s.hsem.port = true ∧ s.hsem.token = 9) ∧
    (inHbm 0x40 2 = true ∧ (∀ i, i < 2 → coreS.poison.contains ((0x40 + i) / 16) = false) ∧
     (∃ i, i < 2 ∧ ({ coreS with poison := [4] } : State).poison.contains ((0x40 + i) / 16) = true) ∧ (List.replicate 48 (0 : Byte)).length = 48) ∧
    (({ subS 3 with contexts := [(1, { (subS 3).context 1 with badProd := some 3 })] } : State).context 1).badProd = some 3 ∧
    ((0 : Nat) < 8 ∧ (8 : Nat) < 2 ^ 26 ∧ (semS State.reset.hsem).hsem.held = false ∧ (0x700000001 : DWord).getLsbD 0 = true ∧
     (0x900000000 : DWord).getLsbD 0 = false ∧ (0x900000000 : DWord).extractLsb' 32 16 = 9 ∧
     ({ semS State.reset.hsem with cr := [(64 * 4096 + 0x848, 1)] } : State).hsemLocked = true) :=
  ⟨by decide +kernel, ⟨rfl, rfl, rfl, rfl, rfl, rfl, fun _ _ h => nomatch h⟩, by decide +kernel,
   ⟨by decide +kernel, by decide +kernel, ⟨0, by decide +kernel⟩, rfl⟩, by decide +kernel, by decide +kernel⟩

/-- R286, R287: a claim at BAR0 offset 0; the owner's control write is kept, the other port's is dropped with a record. -/
theorem test_bar0_write :
    (match execBar0ControlWrite true 0 0x700000001 (semS State.reset.hsem) with | .next t => some t.hsem.word | _ => none) = some 0x700000003 ∧
    (match execBar0ControlWrite true 8 5 (semS ⟨true, true, 9, none, true, true⟩) with | .next t => some t.bar0 | _ => none) = some [(8, 5)] ∧
    (match execBar0ControlWrite false 8 5 (semS ⟨true, true, 9, none, true, true⟩) with
     | .next t => some (t.bar0, t.pending.map fun p => p.cause) | _ => none) = some ([], [.hsem]) := by decide +kernel

/-- The ring's record 0 is that of a copy node of one unit; every die belongs to partition 0. -/
def nodeS (ls : List Launch) : State :=
  { subS 1 with mem := [(20, 1), (35, 0x10), (0x100, 1), (0x10000, 0x01), (0x10002, 0x02), (0x20000, 0x7F)],
                cr := ringCr ++ [(64 * 4096 + 0x800, 0xFF)], launches := ls }

theorem witness_HostPortResults_accept :
    (match (nodeS []).answer 1 ((nodeS []).ringDraft 1 0) with | .ok _ => true | .error _ => false) = true := by decide +kernel

theorem witness_HostPortResults_full :
    (match (nodeS (List.replicate 4096 testLaunch)).answer 1 ((nodeS []).ringDraft 1 0) with | .ok _ => 0 | .error n => n) = 3 := by decide +kernel

/-- Two claims of the two ports in one cycle. -/
theorem witness_HostPortResults_tie :
    ({ coreS with hsem := ⟨false, false, 0, none, true, true⟩, agenda := [.event (.hsemClaim false 4)] } : State).agenda =
      [.event (.hsemClaim (!true) 4)] := rfl

/-! The fabric, die time, power and reliability. -/

/-- Ports 0 and 1 are UP. -/
def linkS (packets : List Packet) : State := { coreS with ports := [(0, ⟨1, 0, 0, 0, 0⟩), (1, ⟨1, 0, 0, 0, 0⟩)], packets := packets }
/-- A packet that came in on port 0 and VC 2, with its next waymark and its HOP. -/
def testHeader (opc mark hop : Nat) : Header :=
  { way := [0x40, BitVec.ofNat 8 mark], opc := opc, nb := 0, hop := hop, src := 3, pasid := 7, va := 0x100, tag := 9, len := 16, cause := 0, arg := 5 }
def testPacket (opc mark hop : Nat) : Packet := ⟨(testHeader opc mark hop).beat, [], 0, 0⟩

/-- R353, R354: a packet goes on by its waymark, and one whose CRC is wrong is discarded. -/
theorem test_forward :
    (match execPacketForward 0 (testHeader 1 0x41 1).beat [] (linkS []) with
     | .next t => t.packets.map fun p => (p.port, p.hd.hop, headerOk p.header) | _ => []) = [(65, 2, true)] ∧
    (match execPacketForward 0 ((testHeader 1 0x41 1).beat ^^^ 1) [] (linkS []) with | .next t => some t.packets | _ => none) = some [] := by
  decide +kernel

theorem witness_FabricResults :
    (((linkS []).port 0).carries = true ∧ ((linkS []).packets.findIdx? fun q => q == testPacket 1 0x41 1) = none ∧
     headerOk (testPacket 1 0x41 1).header = true ∧ headerOk 0 = false ∧ (([] : List Byte).length + 63) / 64 = (testPacket 1 0x41 1).hd.nb ∧
     (testPacket 1 0x41 1).beats ≤ (linkS []).bufferFree 0 2 ∧ (testPacket 1 0x41 1).hd.inVc = 2 ∧
     (linkS (List.replicate 64 (testPacket 2 0x41 1))).bufferFree 0 2 < (testPacket 1 0x41 1).beats ∧
     ((linkS (List.replicate 64 (testPacket 2 0x41 1))).packets.findIdx? fun q => q == testPacket 1 0x41 1) = none) ∧
    ((linkS [testPacket 1 0x41 1, testPacket 1 0x41 1]).queuedAhead 1 (testPacket 1 0x41 1) = true ∧
     (linkS [testPacket 1 0x41 1]).queuedAhead 0 (testPacket 1 0x41 1) = false ∧ 16 ≤ (testPacket 1 0x41 16).hd.hop ∧
     (testPacket 1 0x88 1).hd.hop < 16 ∧ markLast ((testPacket 1 0x88 1).hd.mark 1) = true ∧ markPort ((testPacket 1 0x88 1).hd.mark 1) = 8 ∧
     markLast ((testPacket 1 0x45 1).hd.mark 1) = false ∧ markPort ((testPacket 1 0x45 1).hd.mark 1) = 5 ∧ ((linkS []).port 5).ls = 0 ∧
     markPort ((testPacket 1 0x41 1).hd.mark 1) = 1 ∧ ((linkS []).port 1).carries = true ∧ markVc ((testPacket 1 0x41 1).hd.mark 1) = 2 ∧
     ((linkS []).port 1).stopped.getLsbD 2 = false ∧ (⟨3, 0, 0, 0, 0⟩ : Port).carries = false ∧ (⟨1, 0, 4, 0, 0⟩ : Port).stopped.getLsbD 2 = true) := by
  decide +kernel

/-- Two packets for port 1, the second on VC 3, with the VCs that its pairs served last. -/
def turnS (turns : BitVec 2) (second : Nat) : State :=
  { linkS [testPacket 1 0x41 1, testPacket 1 second 1] with ports := [(0, ⟨1, 0, 0, 0, 0⟩), (1, ⟨1, 0, 0, 0, turns⟩)] }

/-- R360: where VC 2 went last, VC 3 of its pair has the turn. -/
theorem test_turn :
    ((turnS 0 0x61).forwardAt 0 (testPacket 1 0x41 1), ((turnS 2 0x61).forwardAt 0 (testPacket 1 0x41 1)).map fun t => (t.port 1).turns) =
      (none, some 0) := by decide +kernel

theorem witness_FabricResults_turns :
    (((turnS 0 0x61).port 1).turns.getLsbD (2 / 2) = decide (2 % 2 = 1) ∧ markVc ((testPacket 1 0x61 1).hd.mark 1) = 3 ∧
     ((turnS 0 0x61).port 1).stopped.getLsbD 3 = false ∧ testPacket 1 0x61 1 ∈ (turnS 0 0x61).packets ∧ (testPacket 1 0x61 1).port ≤ 32 ∧
     (testPacket 1 0x61 1).hd.hop < 16 ∧ markLast ((testPacket 1 0x61 1).hd.mark 1) = false ∧ markPort ((testPacket 1 0x61 1).hd.mark 1) = 1 ∧
     markVc ((testPacket 1 0x01 1).hd.mark 1) = 0 ∧ ((turnS 2 0x61).port 1).turns.getLsbD (2 / 2) ≠ decide (2 % 2 = 1) ∧
     (turnS 0 0x61).queuedAhead 0 (testPacket 1 0x41 1) = false) ∧
    ((∀ q ∈ (linkS []).packets, ¬(q.header = 0)) ∧ (testPacket 1 0x41 1).port ≠ 32) ∧
    ((⟨1, 8, 0, 0, 0⟩ : Port).carries = false ∧ ((linkS []).port 0).ls ≠ 2 ∧ ((linkS []).port 0).ls = 1) := by decide +kernel

theorem witness_FabricResults_links :
    ((linkS (List.replicate 41 (testPacket 2 0x41 1))).bufferFree 0 2 < 24 ∧ ((linkS []).port 0).told.getLsbD 2 = false ∧
     24 ≤ (linkS (List.replicate 40 (testPacket 2 0x41 1))).bufferFree 0 2 ∧ 40 ≤ (linkS (List.replicate 24 (testPacket 2 0x41 1))).bufferFree 0 2 ∧
     (⟨1, 0, 0, 4, 0⟩ : Port).told.getLsbD 2 = true ∧ (linkS (List.replicate 25 (testPacket 2 0x41 1))).bufferFree 0 2 < 40) ∧
    (((linkS []).port 0).ls = 1 ∧ ((linkS []).port 0).ls ≠ 0 ∧ ((linkS []).port 0).replays < 8 ∧ 8 ≤ (⟨1, 8, 0, 0, 0⟩ : Port).replays ∧
     ((linkS []).port 0).ls ≠ 2) := by
  decide +kernel

/-- The home of a request: context 0 has ASID 7 and a leaf with bit 13 maps VA 0 to PA 0. -/
def homeS (opc : Nat) (poison : List Nat) : State :=
  { coreS with mem := [(0x100, 0xAB), (0x10000, 0x01), (0x10002, 0x02), (0x20000, 0x7F), (0x20001, 0x20)], inbox := [testPacket opc 0x88 2], poison := poison,
               cr := [(0, 1), (1, 7), (2, 0x10000), (64 * 4096 + 0x800, 0xFF)] }

/-- The same, of a context whose partition holds no die. -/
def foreignS : State := { homeS 1 [] with cr := [(0, 1), (1, 7), (2, 0x10000)] }

/-- R322: a request for a die outside its context's partition makes a PARTITION record. -/
theorem test_partition :
    (match execRead 0 foreignS with | .next t => t.pending.map fun p => (p.cause, p.ctx) | _ => []) = [(.partition, 0)] ∧
    (match foreignS.homeBytes 0 false false 16 0x100 with | (_, .error c) => c | _ => 0) = 0xE0 := by decide +kernel

/-- R316: a READ of 16 bytes answers with them; a WRITE without context answers with cause ASID. -/
theorem test_home_read :
    (match execRead 0 (homeS 1 []) with | .next t => t.packets.map fun p => (p.hd.opc, p.hd.cause, p.hd.tag, p.data.head?) | _ => []) =
      [(4, 0, 9, some 0xAB)] ∧
    (match execWrite 0 { homeS 2 [] with cr := [] } with | .next t => t.packets.map fun p => (p.hd.opc, p.hd.cause, p.hd.nb) | _ => []) =
      [(5, 0x62, 0)] := by decide +kernel

theorem witness_PeerResults :
    ((homeS 1 []).inboxItem 1 0 = some (testPacket 1 0x88 2) ∧ (homeS 2 []).inboxItem 2 0 = some (testPacket 2 0x88 2) ∧
     (homeS 3 []).inboxItem 3 0 = some (testPacket 3 0x88 2) ∧ (homeS 1 []).homeCtx 7 = some 0 ∧ (homeS 1 []).homeCtx 8 = none ∧
     (match ({ homeS 1 [] with cr := [] } : State).homeKeys (testHeader 1 0x88 2) false false 0x100 16 with | (_, .error c) => c | _ => 0) = 0x62 ∧
     (match (homeS 1 []).homeKeys (testHeader 1 0x88 2) false false 0x100 8 with
      | (t, .ok ks) => decide (ks.map (fun k => k.headD 0) = List.range' 0x100 8) && !t.poisonedAny ks | _ => false) = true ∧
     (match (homeS 1 [0x10]).homeKeys (testHeader 1 0x88 2) true false 0x100 8 with | (t, .ok ks) => t.poisonedAny ks | _ => false) = true) ∧
    ((match foreignS.homeKeys (testHeader 1 0x88 2) false false 0x100 16 with | (_, .error c) => c | _ => 0) = 0xE0 ∧
     (match (missHub (homeS 1 [])).homeKeys (testHeader 1 0x88 2) false false 0x100 16 with | (_, .error c) => c | _ => 1) = 0 ∧
     (match (homeS 1 []).homeBytes 0 false false 16 0x100 with | (_, .ok _) => true | _ => false) = true) ∧
    ((mapped coreS).peek 8 ((mapped coreS).rootOf 0) 0x100 false = .frame 0x100 0x7F 2 ∧ (0x7F : DWord).getLsbD 13 = false) := by decide +kernel

/-- A request that waits, of a supervisor thread or of a command, and its response. -/
def waitReq (who : Option Who) : PeerRequest := ⟨9, 1, who, 0, 0, 0, 0, 0, 2 ^ 56 + 0x100, none, false, false⟩
def respS (now : DWord) (opc : Nat) (who : Option Who) : State :=
  timedS now { supWait (.peer 5 0 9 true) with inbox := [testPacket opc 0x88 2], requests := [waitReq who] }

theorem witness_PeerResults_responses :
    ((respS 0 4 none).inboxItem 4 0 = some (testPacket 4 0x88 2) ∧ (respS 0 5 none).inboxItem 5 0 = some (testPacket 5 0x88 2) ∧
     (respS 0 6 none).inboxItem 6 0 = some (testPacket 6 0x88 2) ∧ coreS.inboxItem 4 0 = none ∧
     ((respS 0 4 none).requests.find? fun r => r.tag.toNat == (testPacket 4 0x88 2).hd.tag && r.opc == 1) = some (waitReq none) ∧
     ((respS 0 5 none).requests.find? fun r => r.tag.toNat == (testPacket 5 0x88 2).hd.tag && r.opc == 2) = none) ∧
    (4000000 < (((respS 4000001 4 none).die 0).time - (waitReq none).sent).toNat ∧
     (((respS 4000000 4 none).die 0).time - (waitReq none).sent).toNat ≤ 4000000 ∧ (respS 0 4 none).requests[0]? = some (waitReq none) ∧
     (waitReq (some (.sup 0))).who.isSome = true ∧ (waitReq none).who = none ∧ (waitReq none).opc = 1) := by decide +kernel

/-- The home of a request whose leaf is a replicated page's, with dies 1 to 7 in its partition. -/
def replHomeS : State :=
  { homeS 2 [] with mem := [(0x100, 0xAB), (0x10000, 0x01), (0x10002, 0x02), (0x20000, 0xFF), (0x20001, 0x20)],
                    cr := [(0, 1), (1, 7), (2, 0x10000), (64 * 4096 + 0x800, 0xFE)] }
/-- R308, R316: a WRITE to it goes to the frame on each die of the partition. -/
theorem test_repl_write :
    (match replHomeS.homeByte 0 0x100 true false with | (_, .ok ks) => ks | _ => []) =
      (List.range' 1 7).map fun d => 0x100 + d * 2 ^ 37 := by decide +kernel

theorem witness_PeerResults_writes :
    (match replHomeS.translate none .request 8 (replHomeS.asidOf 0) (replHomeS.rootOf 0) 0x100 true false with
     | (_, .frame _ e _) => e.getLsbD 7 | _ => false) = true ∧
    ((routed coreS).routeFault (peerNode (peerKey 5 9 0x80000000)) (peerVa (peerKey 5 9 0x80000000)) = none) ∧
    causeOf 0xF = none ∧ causeOf 0x60 ≠ none ∧ ({ waitReq none with stale := true } : PeerRequest).opc = 1 := by decide +kernel

/-- Dies 0 and 1 are disciplined, die 1 at time 0. -/
def twoDies (time : DWord) (slew : Int) (since : Nat) : State :=
  { coreS with dies := [(0, { Die.fresh with disciplined := true, time := time, slew := slew, sinceSlew := since }), (1, { Die.fresh with disciplined := true })] }

/-- R177: a die 8 dtu ahead of another waits for it. -/
theorem test_bound :
    (match execDieTimeTick 0 1 (twoDies 7 0 0) with | .next t => some (t.die 0).time | _ => none) = some 8 ∧
    (match execDieTimeTick 0 1 (twoDies 8 0 0) with | .refused _ => true | _ => false) = true := by decide +kernel

theorem witness_DieTimeResults_bound :
    (((twoDies 7 0 0).die 0).disciplined = true ∧
     (∀ e, e < 9 → e ≠ 0 → (twoDies 7 0 0).disciplined e = true → (((twoDies 7 0 0).die 0).time + 1).toNat ≤ ((twoDies 7 0 0).die e).time.toNat + 8) ∧
     ¬(∀ e, e < 9 → e ≠ 0 → (twoDies 8 0 0).disciplined e = true → (((twoDies 8 0 0).die 0).time + 1).toNat ≤ ((twoDies 8 0 0).die e).time.toNat + 8) ∧
     (∀ e, e < 9 → e ≠ 0 → (twoDies 8 (-1) 1023).disciplined e = true → (((twoDies 8 (-1) 1023).die 0).time).toNat ≤ ((twoDies 8 (-1) 1023).die e).time.toNat + 8) ∧
     (∀ e, e < 9 → e ≠ 0 → (twoDies 6 1 1023).disciplined e = true → (((twoDies 6 1 1023).die 0).time + 2).toNat ≤ ((twoDies 6 1 1023).die e).time.toNat + 8)) := by
  decide +kernel

/-- Die 0 with a slew, and the hub die. -/
def slewS (slew : Int) (since : Nat) : State := { coreS with dies := [(0, { Die.fresh with disciplined := true, slew := slew, sinceSlew := since })] }

/-- R362, R364: 0 or 2 in place of 1 once in 1,024 ticks; a measurement of 81 dtu undisciplines. -/
theorem test_time :
    (match execDieTimeTick 0 2 (slewS 3 1023) with | .next t => some ((t.die 0).time, (t.die 0).slew) | _ => none) = some (2, 2) ∧
    (match execDieTimeTick 0 0 (slewS 3 1023) with | .refused _ => true | _ => false) = true ∧
    ({ Die.fresh with disciplined := true } : Die).measured 162 true = { Die.fresh with slew := -81, offset := 81 } := by decide +kernel

/-- The map of two nodes: this is node 1, its parent is node 0 on port 0. -/
def treeTopo : List Byte := [0, 0, 1, 0, 1] ++ List.replicate 59 0 ++ [1] ++ List.replicate 543 0 ++ [5, 0, 0, 0]
def treeS (opc : Nat) (active : Bool) : State :=
  { coreS with topo := treeTopo, dies := [(8, { Die.fresh with time := 50, disciplined := true })],
               inbox := [⟨({ way := [], opc := opc, nb := 0, hop := 1, src := 0, pasid := 0, va := 0, tag := 0, len := 0, cause := 0, arg := 40 } : Header).beat, [], 0, 0⟩],
               exchange := ⟨active, 10, 20, 30, [], 0, 0⟩ }

/-- The header of a time packet. -/
def timeHeader (opc : Nat) : Header := { way := [], opc := opc, nb := 0, hop := 1, src := 0, pasid := 0, va := 0, tag := 0, len := 0, cause := 0, arg := 40 }

/-- R363: (t2 − t1) − (t4 − t3) = 10 − 10: no offset; the delay is half of their sum. -/
theorem test_drsp :
    (match execDrsp 40 (treeS 10 true) with | .next t => some ((t.die 8).offset, t.exchange.delay, t.exchange.active) | _ => none) =
      some (0, 20, false) := by decide +kernel

theorem witness_DieTimeResults_stamps :
    ((⟨(timeHeader 7).beat, [], 32, 0⟩ : Packet).hd.opc = 7 ∧ (⟨(timeHeader 9).beat, [], 32, 0⟩ : Packet).hd.opc = 9 ∧
     (treeS 9 true).parentPort = 0 ∧ (⟨(timeHeader 7).beat, [], 32, 0⟩ : Packet).port = 32 ∧
     ((treeS 7 false).timeItem 7 0).map (fun x => x.2.stamp) = some 0 ∧ ((treeS 9 true).timeItem 9 0).map (fun x => x.2.stamp) = some 0) := by
  decide +kernel

theorem witness_DieTimeResults :
    (((slewS 0 0).die 0).disciplined = true ∧ ((slewS 0 1022).die 0).sinceSlew < 1023 ∧ 1023 ≤ ((slewS (-1) 1023).die 0).sinceSlew ∧
     ((slewS (-1) 1023).die 0).slew < 0 ∧ 0 < ((slewS 1 1023).die 0).slew ∧ Die.fresh.disciplined = false ∧ (coreS.die 8).time = 0 ∧
     (({ coreS with cr := [(64 * 4096 + 0x882, 0x30)] } : State).devReg 0x882).getLsbD 4 = true ∧
     (({ coreS with cr := [(64 * 4096 + 0x882, 0x30)] } : State).devReg 0x882).getLsbD 5 = true ∧
     (({ coreS with cr := [(64 * 4096 + 0x882, 0x10)] } : State).devReg 0x882).getLsbD 5 = false) ∧
    ((((slewS 0 0).die 0).time - ((slewS 0 0).die 0).lastEx).toNat < 4 * 4000 ∧
     4 * 4000 ≤ (((timedS 16000 coreS).die 0).time - ((timedS 16000 coreS).die 0).lastEx).toNat ∧ ((timedS 16000 coreS).die 0).disciplined = true) ∧
    ((treeS 7 false).timeRoute 0 = true ∧ coreS.timeRoute 0 = false ∧ (treeS 7 false).neighbour (treeS 7 false).parentPort = 0 ∧
     ((treeS 7 false).timeItem 7 0).map (fun x => x.1) = some 0 ∧ ((treeS 7 false).devReg 0x882).getLsbD 4 = false ∧
     (20 : DWord).toNat ≤ ((treeS 7 false).die 8).time.toNat ∧
     ((treeS 8 true).timeItem 8 0).map (fun x => (x.1, x.2.hd.arg % 2 ^ 64)) = some (0, (40 : DWord).toNat) ∧ (treeS 8 true).exchange.active = true ∧
     ((treeS 10 true).timeItem 10 0).map (fun x => (x.1, x.2.hd.arg % 2 ^ 64)) = some (0, (40 : DWord).toNat) ∧
     ((treeS 9 true).timeItem 9 ((treeS 9 true).neighbour 0)).map (fun x => x.1) = some 0 ∧ ((treeS 9 true).die 8).time.toNat < (51 : DWord).toNat) := by
  decide +kernel

/-- An image of one body of 64 zeros that is right but for its signature, which nobody can make here. -/
def testImage (stage : Byte) : List Byte :=
  [stage, 0, 0, 0] ++ leBytes 4 0 ++ leBytes 4 64 ++ [0, 0, 0, 0] ++ sha384 (List.replicate 64 0) ++ List.replicate 256 0

/-- Such an image is accepted where its signature verifies: everything else about it is right. -/
theorem witness_PowerAndReliabilityResults_image (stage : Byte) (h : stage = 1 ∨ stage = 2) : State.reset.imageOk stage.toNat (testImage stage) =
    Config.signatureVerifies (byteAt (testImage stage) 1) (imageHead (testImage stage)) (((testImage stage).drop 64).take 96) := by
  have drop : ∀ a b : Bool, a = true → (a && b) = b := fun a b h => by rw [h, Bool.true_and]
  unfold State.imageOk
  rcases h with rfl | rfl <;> refine drop _ _ ?_ <;> decide +kernel

/-- A cold power-on with an empty flash, one whose images wait on their signatures, and a power-off. -/
theorem witness_PowerAndReliabilityResults :
    (coreS.power = .up ∧ State.reset.power ≠ .up ∧ (State.reset.unpowered .on).imageOk 1 State.reset.flash1 = false ∧
     ({ State.reset with power := .off } : State).power = .off ∧ State.reset.power ≠ .off) ∧
    ((State.reset.unpowered .on).imageOk 1 (testImage 1) = State.reset.imageOk 1 (testImage 1)) := ⟨by decide +kernel, rfl⟩

/-- Die 0 with 16 corrected errors of frame 1. -/
def rowS (n : Nat) (retired : List Nat) : State := { coreS with dies := [(0, { Die.fresh with corrected := [(1, n)] })], retired := retired }

/-- R348, R370: a frame is retired at 16 corrected errors, not at 15; a throttle event is counted. -/
theorem test_retire :
    (match execRowRetire 0x10000 (rowS 16 []) with | .next t => some t.retired | _ => none) = some [0x10000] ∧
    (match execRowRetire 0x10000 (rowS 15 []) with | .refused _ => true | _ => false) = true ∧
    (match execThrottleEvent 0 coreS with | .next t => some (t.devReg 0x858) | _ => none) = some 1 := by decide +kernel

theorem witness_PowerAndReliabilityResults_reliability :
    (0x10000 / 2 ^ 37 = 0 ∧ inHbm 0x10000 1 = true ∧ ownStorage 0x10000 = true ∧ ownStorage (2 ^ 56) = false ∧
     (rowS 16 []).meetsRetired (0x10000 / 2 ^ 16 * 2 ^ 16) 1 = false ∧ (rowS 15 []).rowBad 0x10000 = false ∧ (rowS 16 []).rowBad 0x10000 = true ∧
     (rowS 16 []).retired.length < 4096 ∧ 4096 ≤ (rowS 16 (List.replicate 4096 0)).retired.length ∧
     (rowS 16 (List.replicate 4096 0)).meetsRetired (0x10000 / 2 ^ 16 * 2 ^ 16) 1 = false) ∧
    (coreS.agent coreAgent.who = some coreAgent ∧ coreAgent.run = .running ∧ coreAgent.wait = .none ∧
     topS.siteCommand (.dce 0 0) = some (0, 0) ∧ (topS.commandUnit 0 0).isSome = true) ∧
    ((coreS.die 0).throttled = false ∧ (({ coreS with dies := [(0, { Die.fresh with throttled := true })] } : State).die 0).throttled = true ∧
     ({ coreS with thermalAt := some 0 } : State).thermalAt = some 0 ∧ (((coreS.die 8).time - 0 : DWord)).toNat ≤ 4 * 10 ^ 9 ∧ coreS.thermalAt = none ∧
     causeOf 0xD2 = some .thermal ∧ coreS.commits = [] ∧ coreS.flash2 = []) := by decide +kernel

/-- A delivery of a run that has its turn. -/
theorem witness_PowerAndReliabilityResults_delivery :
    ((bareRunS.context 0).runs.find? (fun r => r.id == 9 && !r.ended)) = some bareRun ∧ bareRun.regs = bareRunS.regsOf 0 ∧
    bareRunS.runFailing 0 bareRun = false ∧ bareRunS.runFaulted 0 bareRun = false ∧
    (bareRunS.graph bareRun.bwd).map Graph.complete = some true := by decide +kernel

/-! Words, and the step. -/

/-- R57: words at the bounds of the reserved majors and sub-ops. -/
theorem witness_ReservedEncodings :
    (∀ op ∈ [0x08, 0x0F, 0x18, 0x1F, 0x26, 0x27, 0x2E, 0x2F, 0x3D, 0x3F, 0x57, 0x63, 0x67, 0x6C, 0x6F, 0x74, 0x7F],
      (BitVec.ofNat 32 (2 * op + 1)).getLsbD 0 = true ∧ (opField (BitVec.ofNat 32 (2 * op + 1))).toNat = op ∧
      (match decode (bytesOfWord (BitVec.ofNat 32 (2 * op + 1))) with | .error .reserved => true | _ => false) = true) ∧
    (∀ x ∈ [(0x17, 3), (0x2C, 3), (0x6B, 2), (0x6B, 3)],
      (opField (BitVec.ofNat 32 (2 * x.1 + 1 + x.2 * 2 ^ 30))).toNat = x.1 ∧ (sField (BitVec.ofNat 32 (2 * x.1 + 1 + x.2 * 2 ^ 30))).toNat = x.2) := by
  decide +kernel

theorem witness_WordAndUnitTraps :
    ((0x10000 : Word).extractLsb' 0 16 = 0 ∧ ((0x3E : Word).getLsbD 0 = false ∧ (0x3E : Word).extractLsb' 1 4 = 15 ∧ (0x3E : Word).extractLsb' 5 11 ≠ 0) ∧
     (opField 0x1E5 = 0x72 ∧ sField 0x1E5 = 0 ∧ (0x1E5 : Word).getLsbD 0 = true ∧ (0x1E5 : Word).extractLsb' 8 22 ≠ 0) ∧
     (encodeForm .eret = .word 0xE5)) ∧
    (coreS.me.gath = [] ∧ coreS.me.kind ≠ .sup ∧ csqS.me.kind ≠ .sup ∧ coreS.me.kind = .core ∧ csqS.me.kind ≠ .core ∧ supS.me.kind ≠ .csq ∧
     coreS.me.kind ≠ .csq ∧ supS.me.kind ≠ .core) := by decide +kernel

/-- Words that do not execute: FRCP with [22] set, RET with [8] and JMPG with [22], LD32 with a scope code; each on a unit that
executes the major and on one that does not, and the trap that the units give. A jump's target is odd in `oddS`. -/
def oddS : State := groupS [(1, 3), (62, 3)]
def fieldWords : List Word := [0x00400025, 0x0000019B, 0x4040809B]
theorem witness_WordAndUnitTraps_words :
    ((0x00400025 : Word).getLsbD 0 = true ∧ decode (bytesOfWord 0x00400025) = .error .field ∧ jumpSource 0x00400025 = none ∧
     unitCause (opField 0x00400025).toNat (subOp 0x00400025) .core = none ∧
     unitCause (opField 0x00400025).toNat (subOp 0x00400025) .csq = some .wrongUnit) ∧
    ((0x200000A1 : Word).getLsbD 0 = true ∧ decode (bytesOfWord 0x200000A1) = .error .scope ∧
     unitCause (opField 0x200000A1).toNat (subOp 0x200000A1) .core = none ∧
     unitCause (opField 0x200000A1).toNat (subOp 0x200000A1) .csq = some .wrongUnit) ∧
    (decode (bytesOfWord 0x0000019B) = .error .field ∧ jumpSource 0x0000019B = some 62 ∧
     unitCause (opField 0x0000019B).toNat (subOp 0x0000019B) .csq = none ∧ unitCause (opField 0x0000019B).toNat (subOp 0x0000019B) .core = none) ∧
    (decode (bytesOfWord 0x4040809B) = .error .field ∧ jumpSource 0x4040809B = some 1) ∧
    ((oddS.me.readG 62).getLsbD 0 = true ∧ (coreS.me.readG 1).getLsbD 0 = false) := by decide +kernel
theorem witness_WordAndUnitTraps_jump :
    Clear { Need.of .all with wide := gReg 62 } oddS ∧ Clear { Need.of .all with wide := gReg 1 } oddS ∧
    Clear { Need.of .all with wide := gReg 62 } coreS ∧ Clear { Need.of .all with wide := gReg 1 } csqS :=
  ⟨⟨rfl, rfl⟩, ⟨rfl, rfl⟩, ⟨rfl, rfl⟩, ⟨rfl, rfl⟩⟩

/-- A field that must be 0, the first of the list and its last; [29] set at each end of each run of majors. -/
theorem witness_WordAndUnitTraps_fields :
    ((7, 0x20000000) ∈ fixedZero ∧ (opField 0xE0000003).toNat * 4 + subOp 0xE0000003 = 7 ∧ (0xE0000003 : Word) &&& 0x20000000 ≠ 0) ∧
    ((462, 0x1FC00000) ∈ fixedZero ∧ (opField 0x904000E7).toNat * 4 + subOp 0x904000E7 = 462 ∧ (0x904000E7 : Word) &&& 0x1FC00000 ≠ 0) ∧
    (∀ op ∈ [0x40, 0x43, 0x47, 0x4D, 0x4E, 0x58, 0x62, 0x68, 0x6A, 0x6B, 0x70, 0x73],
      (opField (BitVec.ofNat 32 (0x20000001 + 2 * op))).toNat = op ∧ (BitVec.ofNat 32 (0x20000001 + 2 * op)).getLsbD 29 = true ∧
      (BitVec.ofNat 32 (0x20000001 + 2 * op)).getLsbD 0 = true) ∧
    subOp 0x600000D7 = 1 := by decide +kernel

/-- Instructions on a unit that does not execute them: a lane instruction on a thread, MSCALE on a group, ERET on a group; a
16-bit form on a thread. -/
theorem witness_WordAndUnitTraps_units :
    (encodeForm (.iadd 0 2 1 3) = .word 0x00808301 ∧ unitCause (opField 0x00808301).toNat (subOp 0x00808301) csqS.me.kind = some .wrongUnit) ∧
    (encodeForm .eret = .word 0xE5 ∧ unitCause (opField 0xE5).toNat (subOp 0xE5) coreS.me.kind = some .privileged) ∧
    (encodeForm (.iadd16 0 5 3) = .half 0x1460 ∧ Instr.iadd16 0 5 3 ≠ .nop ∧ csqS.me.kind ≠ .core ∧ csqS.me.gath = []) := by
  decide +kernel

/-- The needs: a trap of each kind, in the order of R59, and none; a destination of 120, a source beyond the quota, an unset latch;
what a need says of each register and field at the ends of its range. -/
theorem witness_WordAndUnitTraps_needs :
    (let all : Need := { Need.of .core with field := true, scope := true, reg := true, reads := [120], latches := [1] }
     all.units.trap .csq = some .wrongUnit ∧ all.units.trap .core = none ∧
     decodeCause csqS.me all = some .wrongUnit ∧ decodeCause coreS.me all = some .illegalField ∧
     decodeCause coreS.me { all with field := false } = some .illegalScope ∧
     decodeCause coreS.me { all with field := false, scope := false } = some .illegalRegister ∧
     decodeCause coreS.me { all with field := false, scope := false, reg := false } = some .quota ∧
     decodeCause coreS.me { all with field := false, scope := false, reg := false, reads := [119] } = some .latchChain ∧
     decodeCause coreS.me { all with field := false, scope := false, reg := false, reads := [119], latches := [] } = none) ∧
    (coreS.me.quota = 120 ∧ coreS.me.cur.latches.get 1 = none) ∧
    ((laneNeed 0 120 [] false).reg = true ∧ (laneNeed 1 3 [] false).field = true ∧ 119 ∈ (laneNeed 0 119 [] false).writes ∧
     119 ∈ (laneNeed 0 119 [119] true).reads ∧ 3 ∈ (laneNeed 0 0 [123] false).latches) ∧
    ((gNeed .all [63, 64]).reg = true ∧ (rngNeed 0 119 0 0 4).reg = true ∧ (rngNeed 0 0 0 117 4).reg = true ∧
     (movvNeed 119 0).reg = true ∧ (movvNeed 0 64).reg = true ∧ (loadNeed 16 0 117).reg = true ∧ (storeNeed 8 0 119).reg = true ∧
     (atomicNeed .cas 7 31 0 0).scope = true ∧ (atomicNeed .cas 0 31 0 0).reg = true ∧ (atomicNeed .add 0 31 0 0).reg = false ∧
     (atomicNeed .add 0 0 0 120).reg = true) := by decide +kernel

/-- An instruction that meets no trap but whose source is owed: it does not issue. -/
theorem witness_WordAndUnitTraps_owed :
    let s := withAgent { coreAgent with due := [⟨3, 5⟩] }
    decodeCause (gathHead s.me (laneNeed 0 4 [3] false)) (laneNeed 0 4 [3] false) = none ∧
    owes (s.cycleOf (gathHead s.me (laneNeed 0 4 [3] false))) (gathHead s.me (laneNeed 0 4 [3] false)) (laneNeed 0 4 [3] false) = true := by
  decide +kernel

theorem witness_EncodeThenDecode : Instr.wellFormed (.imad 6 5 4) = true ∧ Instr.isWord (.imad 6 5 4) = true ∧
    Instr.wellFormed .nop = true ∧ Instr.isWord .nop = true := by decide +kernel

theorem witness_DecodeThenEncode : decode [0x1E, 0x00, 0xAA] = .ok (.nop, [0xAA]) ∧ decode [0x03, 0x84, 0x82, 0xC1] = .ok (.imad 6 5 4, []) := by
  decide +kernel

/-- An agent with a code image at its PC, one outside it, one whose unit is asked to stop, one whose launch stops. -/
def fetchS (code : List Byte) (pc : Word) : State := withAgent { coreAgent with code := code, cur := { coreAgent.cur with pc := pc } }

theorem witness_StepRunsDecoded :
    ((coreS.withFetchWord 16 0x1E).me.canIssue = true ∧ (coreS.withFetchWord 16 0x1E).gate = .go ∧
     decode (coreS.withFetchWord 16 0x1E).me.fetch = .ok (.nop, [0, 0]) ∧ decodeTableWord 16 0x1E = some .nop) ∧
    ((fetchS [] 32).me.canIssue = true ∧ (fetchS [] 32).gate = .go ∧ decode (fetchS [] 32).me.fetch = .error .truncated ∧
     decode (fetchS [0, 0, 0, 0] 0).me.fetch = .error .zeroHalfword) ∧
    ((withAgent { coreAgent with run := .stopped }).me.canIssue = false ∧
     ({ coreS with units := [{ testUnit with preempt := some (.sup 0) }] } : State).gate = .hold ∧
     ({ coreS with launches := [{ testLaunch with stopping := true }] } : State).gate = .ends) ∧
    (coreS.power = .up ∧ coreS.agenda = [] ∧ (coreS.select coreAgent.who 0).isSome = true ∧ coreS.select (.sup 3) 0 = none ∧
     Instr.isWord .coldPowerOn = false ∧ Instr.isWord .nop = true) := by decide +kernel

/-- A deterministic block of one core, whose group `k` has a NOP at its PC. -/
def rotS (k : Nat) (rot : Option Rotation) : State :=
  { withAgent { coreAgent with who := .group ⟨0, 1, 0⟩ k, index := k, code := [0x1E, 0], env := { coreAgent.env with det := true } } with
    units := [{ testUnit with env := { coreAgent.env with det := true }, rot := rot }] }

/-- R199: group 0 issues in the first place of cycle 0, group 1 in the second; group 3 waits for the second
place of cycle 1, after which come the arrivals that end the cycle. -/
theorem test_rotation :
    (match step (rotS 0 none) with | .next t => some (t.me.cur.pc, (t.unit ⟨0, 1, 0⟩).bind fun x => x.rot) | _ => none) =
      some (2, some ⟨0, 1, false⟩) ∧
    (match step (rotS 1 (some ⟨0, 0, false⟩)) with | .next t => some (t.me.cur.pc, (t.unit ⟨0, 1, 0⟩).bind fun x => x.rot) | _ => none) =
      some (2, some ⟨0, 2, false⟩) ∧
    (match step (rotS 3 none) with | .next t => some (t.me.cur.pc, (t.unit ⟨0, 1, 0⟩).bind fun x => x.rot) | _ => none) =
      some (2, some ⟨1, 2, false⟩) := by decide +kernel

/-- Group 0, which may issue again in cycle `t`. -/
def lateS (t : Nat) : State := { rotS 0 (some ⟨0, 0, false⟩) with me := { (rotS 0 none).me with ready := t } }

/-- R199: a group whose next instruction may not issue yet gives its place up. -/
theorem test_rotation_wait :
    (match step (lateS 2) with | .next t => some (t.me.cur.pc, (t.unit ⟨0, 1, 0⟩).bind fun x => x.rot) | _ => none) =
      some (0, some ⟨0, 1, false⟩) := by decide +kernel

/-- What the rotation offers of `rotS k`, and whether it may issue there. -/
noncomputable def offers (s : State) (k : Nat) : Bool × Bool × Bool × Bool × List Nat :=
  let v := skipAbsent 26 ⟨0, 1, 0⟩ s
  match v.unit ⟨0, 1, 0⟩, v.select (.group ⟨0, 1, 0⟩ k) 0 with
  | some x, some b => (v.standsAtStop x, v.owesEvent x,
      (x.byCore[x.rotation.place / 2]?).any fun b => k == 16 * b + (2 * x.rotation.cycle + x.rotation.place % 2) % 16,
      b.readyAt x.rotation.cycle, (v.agent (.group ⟨0, 1, 0⟩ k)).elim [] Agent.subIds)
  | _, _ => (true, true, false, false, [])

theorem witness_StepRunsDecoded_rotation :
    ((rotS 0 none).power = .up ∧ (rotS 0 none).agenda = [] ∧ (rotS 0 none).timedDue = false ∧
     ((rotS 0 none).rotating (rotS 0 none).me.who).map (fun x => x.key) = some ⟨0, 1, 0⟩ ∧ coreS.rotating coreS.me.who = none ∧
     ((rotS 0 none).unit ⟨0, 1, 0⟩).elim 0 (fun x => x.cores.length) = 1) ∧
    (offers (rotS 0 none) 0 = (false, false, true, true, [0]) ∧ offers (rotS 3 none) 3 = (false, false, true, true, [0]) ∧
     offers (lateS 2) 0 = (false, false, true, false, [0]) ∧
     (match (rotS 0 none).select (.group ⟨0, 1, 0⟩ 0) 0 with
      | some b => (match issue b with | .next c => b.me.moved c.me | _ => false) | none => false) = true ∧
     ((rotS 0 (some ⟨0, 0, false⟩)).unit ⟨0, 1, 0⟩).map (fun x => x.rotation.place + 1) = some 1 ∧
     ((rotS 0 (some ⟨0, 1, false⟩)).unit ⟨0, 1, 0⟩).map (fun x => x.rotation.place + 1) = some 2) :=
  ⟨by decide +kernel, by decide +kernel, by decide +kernel, by decide +kernel, by decide +kernel, by decide +kernel, by decide +kernel⟩

/-- Turns of a package that stands in recovery, and the host's recovery window while it is up (R365, R366). -/
theorem witness_StepRunsDecoded_recovery :
    ({ coreS with power := .recovery 1, agenda := [.event .coldPowerOn] } : State).power = .recovery 1 ∧
    ({ coreS with power := .recovery 1, agenda := [.event .powerOff] } : State).agenda = [.event .powerOff] ∧
    ({ coreS with agenda := [.window (.raiseMinimum 1 3)] } : State).agenda = [.window (.raiseMinimum 1 3)] ∧
    ({ coreS with power := .recovery 2, agenda := [] } : State).agenda = [] := by decide +kernel

/-- The same block in the place that ends its cycle, and one beyond it; a block of two cores, the lower of them listed
second; a block that offers another group, before and after the places of absent groups have passed. -/
theorem witness_StepRunsDecoded_places :
    (let x : WorkUnit := { testUnit with rot := some ⟨0, 1, false⟩ }
     x.rotation.place + 1 = 2 * x.cores.length ∧ ({ coreS with units := [x] } : State).unit x.key = some x) ∧
    (let x : WorkUnit := { testUnit with rot := some ⟨0, 2, false⟩ }
     2 * x.cores.length ≤ x.rotation.place ∧ ({ coreS with units := [x] } : State).unit x.key = some x) ∧
    (let x : WorkUnit := { testUnit with cores := [5, 2] }
     x.byCore = [1, 0] ∧ x.byCore[0]? = some 1 ∧ x.byCore[1]? = some 0) ∧
    ((skipAbsent 26 ⟨0, 1, 0⟩ (rotS 0 (some ⟨0, 0, false⟩))).unit ⟨0, 1, 0⟩).map WorkUnit.rot =
      ((rotS 0 (some ⟨0, 0, false⟩)).unit ⟨0, 1, 0⟩).map WorkUnit.rot ∧
    ((skipAbsent 26 ⟨0, 1, 0⟩ (rotS 3 (some ⟨0, 0, false⟩))).unit ⟨0, 1, 0⟩).map WorkUnit.rot ≠
      ((rotS 3 (some ⟨0, 0, false⟩)).unit ⟨0, 1, 0⟩).map WorkUnit.rot := by decide +kernel

/-- A timed store of core 0 that is due. -/
def dueStoreS : State := timedS 10 { coreS with cores := [(0, ⟨some 0, [⟨coreAgent.who, ⟨0, 1, 0⟩, 0, 0, [], 10, 0⟩]⟩)] }

/-- The other turns: a loader's, the firmware's, an evicted entry's; and what a due timed store holds up. -/
theorem witness_StepRunsDecoded_turns :
    (({ coreS with agenda := [.load ⟨0, 0, 0, 0, [], [], []⟩] } : State).agenda = [.load ⟨0, 0, 0, 0, [], [], []⟩] ∧
     ({ coreS with agenda := [.firmware 0x800 3] } : State).agenda = [.firmware 0x800 3] ∧
     ({ coreS with agenda := [.evict 0 0] } : State).agenda = [.evict 0 0]) ∧
    (dueStoreS.timedDue = true ∧ coreS.timedDue = false ∧ dueStoreS.power = .up ∧ dueStoreS.agenda = []) ∧
    ((coreS.withFetchWord 16 0x1E).timedDue = false ∧ (coreS.withFetchWord 16 0x1E).agenda = [] ∧
     (coreS.withFetchWord 16 0x1E).rotating (coreS.withFetchWord 16 0x1E).me.who = none) := by decide +kernel

/-- R66: a loader's image stands at its ODA address. -/
theorem test_load_turn :
    (match step { coreS with cr := [(0, 1)], cores := [(0, ⟨some 0, []⟩)], agenda := [.load ⟨0, 0, 0, 0, [(0x100, [7, 8])], [], []⟩] } with
     | .next t => some (t.agenda.length, Memory.read t.mem (localKey 0 0 0 0x100), Memory.read t.mem (localKey 0 0 0 0x101)) | _ => none) =
      some (0, 7, 8) := by decide +kernel

/-- R127: a restore puts the windows of the save back into the unit's context. -/
theorem test_windows_restored :
    ((coreS.restoreWindows { testUnit with windows := [(2, 5)] }).context 0).windows = [(2, 5)] := by decide +kernel

/-- The first step after reset gives a state: the flash is empty, and the package stands in recovery. -/
theorem witness_MemoryStaysCanonical : State.reset.mem.wf = true ∧ ∃ t, step State.reset = .next t := by
  refine ⟨rfl, ?_⟩
  show ∃ t, execColdPowerOn State.reset = .next t
  unfold execColdPowerOn
  rw [if_neg (by decide)]
  dsimp only
  rw [if_pos (by rfl)]
  exact ⟨_, rfl⟩

end Sys2Proof.Tests
end

section
/-!
PROOF. The control registers (R3, R282, R283): which selectors trap, what a register reads after a write, and what the four
instructions CSRR, CSRW, CSRS and CSRC do.
-/
namespace Sys2Proof.Proofs
open Sys2Proof.Machine Sys2Proof.Laws

/-! Selectors (R282). -/

theorem selNumber_eq_mod (x : DWord) : selNumber x = x.toNat % 2 ^ 12 := by
  simp [selNumber, bitsOf]

/-- A selector that does not trap names an allocated register that is not of level M. -/
theorem allocated_of_selectorCause_none {x : DWord} (h : selectorCause x = none) :
    (csrScope (selNumber x)).isSome = true ∧ csrFirmware (selNumber x) = false := by
  unfold selectorCause at h
  cases hs : csrScope (selNumber x) with
  | none => simp [hs] at h
  | some scope =>
    simp only [hs] at h
    split at h
    · cases h
    · split at h
      · cases h
      · exact ⟨rfl, by simpa using ‹¬csrFirmware (selNumber x) = true›⟩

/-- The registers that software of level S can write: those of a context, of the thread, and of the device. -/
theorem writable_number {x : DWord} (h : selectorCause x = none) (hw : csrReadOnly (selNumber x) = false) :
    selNumber x ≤ 0x015 ∨ selNumber x = 0x400 ∨ selNumber x = 0x401 ∨ selNumber x = 0x402 ∨
      (0x850 ≤ selNumber x ∧ selNumber x ≤ 0x857) ∨ (0x880 ≤ selNumber x ∧ selNumber x ≤ 0x882) ∨
      (0x890 ≤ selNumber x ∧ selNumber x ≤ 0x897) := by
  obtain ⟨hs, hm⟩ := allocated_of_selectorCause_none h
  revert hs hm hw
  generalize selNumber x = n
  intro hw hs hm
  simp only [csrReadOnly, Bool.or_eq_false_iff, Bool.and_eq_false_iff, decide_eq_false_iff_not, beq_eq_false_iff_ne] at hw
  simp only [csrFirmware, Bool.or_eq_false_iff, Bool.and_eq_false_iff, decide_eq_false_iff_not, beq_eq_false_iff_ne] at hm
  unfold csrScope at hs
  split at hs
  · omega
  · split at hs
    · omega
    · split at hs
      · omega
      · cases hs

/-- Numbers 0x016 to 0x3FF name no register. -/
theorem selectorCause_unallocated {x : DWord} (h1 : 0x016 ≤ selNumber x) (h2 : selNumber x < 0x400) :
    selectorCause x = some .illegalField := by
  have hs : csrScope (selNumber x) = none := by
    unfold csrScope
    rw [if_neg (by omega), if_neg (by omega), if_neg (by omega)]
  simp only [selectorCause, hs]

/-- PARTDIES, QUAR and HSEMCTL are of level M. -/
theorem selectorCause_firmware {x : DWord} (hx : x.toNat < 2 ^ 12) (h1 : 0x800 ≤ x.toNat) (h2 : x.toNat ≤ 0x848) :
    selectorCause x = some .privileged := by
  have hn : selNumber x = x.toNat := by rw [selNumber_eq_mod, Nat.mod_eq_of_lt hx]
  have hs : csrScope (selNumber x) = some .device := by
    unfold csrScope
    rw [if_neg (by omega), if_neg (by omega), if_pos (by omega)]
  have hc : selContext x = 0 := by simp only [selContext, bitsOf]; omega
  have hz : bitsOf x 18 46 = 0 := by simp only [bitsOf]; omega
  have hm : csrFirmware (selNumber x) = true := by simp [csrFirmware, hn, h1, h2]
  simp [selectorCause, hs, hc, hz, hm]

/-! What a write of another part of the state leaves of the control registers. -/

/-- A field of the state that every step of a fold keeps. -/
theorem foldl_keeps {α β : Type} (field : State → β) {f : State → α → State} (h : ∀ s a, field (f s a) = field s)
    (l : List α) (s : State) : field (l.foldl f s) = field s :=
  List.foldlRecOn (motive := fun t => field t = field s) l f rfl fun t ht a _ => (h t a).trans ht

@[simp] theorem zeroTilesOn_cr (s : State) (mask : Byte) (p : Nat → Bool) : (s.zeroTilesOn mask p).cr = s.cr :=
  foldl_keeps State.cr (fun s _ => foldl_keeps State.cr (fun s _ => setCluster_cr s _ _ _) _ s) _ s

@[simp] theorem zeroTiles_cr (s : State) (c : Nat) (old new : DWord) : (s.zeroTiles c old new).cr = s.cr := by
  simp only [State.zeroTiles, zeroTilesOn_cr]

@[simp] theorem moveTiles_cr (s : State) (c : Nat) (old new : DWord) : (s.moveTiles c old new).cr = s.cr := by
  simp only [State.moveTiles, zeroTilesOn_cr]

@[simp] theorem followMaster_cr (s : State) : s.followMaster.cr = s.cr := by
  unfold State.followMaster
  split
  · rfl
  · exact foldl_keeps State.cr (fun s d => setDie_cr s d _) _ s

@[simp] theorem ctxReg_setCtxReg_same (s : State) (c n : Nat) (x : DWord) : (s.setCtxReg c n x).ctxReg c n = x &&& csrMask n :=
  get_set_same ..

@[simp] theorem devReg_setDevReg_same (s : State) (n : Nat) (x : DWord) : (s.setDevReg n x).devReg n = x &&& csrMask n :=
  get_set_same ..

@[simp] theorem devReg_followMaster (s : State) (n : Nat) : s.followMaster.devReg n = s.devReg n := by
  simp only [State.devReg, followMaster_cr]

/-! What a register reads (R282): where its value stands, by its number. -/

theorem csrValue_context (s : State) {x : DWord} (h : selNumber x ≤ 0x015) (hf : selNumber x ≠ 0x012) :
    s.csrValue x = s.ctxReg (selContext x) (selNumber x) := by
  unfold State.csrValue
  dsimp only
  split
  any_goals omega
  rw [if_neg (by omega), if_pos h]

theorem csrValue_device (s : State) {x : DWord} (h : 0x403 ≤ selNumber x)
    (hr : csrReadOnly (selNumber x) = false) : s.csrValue x = s.devReg (selNumber x) := by
  simp only [csrReadOnly, Bool.or_eq_false_iff, Bool.and_eq_false_iff, decide_eq_false_iff_not, beq_eq_false_iff_ne] at hr
  unfold State.csrValue
  dsimp only
  split
  any_goals omega
  rw [if_neg (by omega), if_neg (by omega)]

theorem csrValue_sepc (s : State) {x : DWord} (h : selNumber x = 0x400) : s.csrValue x = s.me.sepc := by
  simp only [State.csrValue, h]

theorem csrValue_scause (s : State) {x : DWord} (h : selNumber x = 0x401) : s.csrValue x = s.me.scause := by
  simp only [State.csrValue, h]

theorem csrValue_stvec (s : State) {x : DWord} (h : selNumber x = 0x402) : s.csrValue x = s.me.stvec := by
  simp only [State.csrValue, h]

/-! What a write leaves (R283), by the register's number. -/

theorem csrWrite_readOnly (s : State) {x : DWord} (old new : DWord) (h : csrReadOnly (selNumber x) = true) :
    s.csrWrite x old new = s := by
  simp only [State.csrWrite, if_pos h]

theorem csrWrite_sepc (s : State) {x : DWord} (old new : DWord) (h : selNumber x = 0x400) :
    (s.csrWrite x old new).me.sepc = new := by
  simp [State.csrWrite, h, csrReadOnly]

theorem csrWrite_scause (s : State) {x : DWord} (old new : DWord) (h : selNumber x = 0x401) :
    (s.csrWrite x old new).me.scause = new := by
  simp [State.csrWrite, h, csrReadOnly]

theorem csrWrite_stvec (s : State) {x : DWord} (old new : DWord) (h : selNumber x = 0x402) :
    (s.csrWrite x old new).me.stvec = new := by
  simp [State.csrWrite, h, csrReadOnly]

theorem csrWrite_context (s : State) {x : DWord} (old new : DWord) (h : selNumber x ≤ 0x015)
    (hr : csrReadOnly (selNumber x) = false) :
    (s.csrWrite x old new).ctxReg (selContext x) (selNumber x) = new &&& csrMask (selNumber x) := by
  simp only [State.csrWrite, hr, Bool.false_eq_true, if_false]
  rw [if_neg (by omega), if_neg (by omega), if_neg (by omega)]
  split
  · exact ctxReg_setCtxReg_same ..
  · split
    · exact ctxReg_setCtxReg_same ..
    · exact ctxReg_setCtxReg_same ..

theorem csrWrite_device (s : State) {x : DWord} (old new : DWord) (h : 0x403 ≤ selNumber x)
    (hr : csrReadOnly (selNumber x) = false) :
    (s.csrWrite x old new).devReg (selNumber x) = new &&& csrMask (selNumber x) := by
  simp only [State.csrWrite, hr, Bool.false_eq_true, if_false]
  rw [if_neg (by omega), if_neg (by omega), if_neg (by omega), if_neg (by omega), if_neg (by omega), if_neg (by omega),
    devReg_followMaster, devReg_setDevReg_same]

/-- A writable register other than FACT reads what was written, its reserved bits as 0 (R3). -/
theorem csrRead_csrWrite_same (s : State) {x : DWord} (old new : DWord) (hx : selectorCause x = none)
    (hr : csrReadOnly (selNumber x) = false) (hf : selNumber x ≠ 0x012) :
    (s.csrWrite x old new).csrRead x = new &&& csrMask (selNumber x) := by
  unfold State.csrRead
  by_cases hctx : selNumber x ≤ 0x015
  · rw [csrValue_context _ hctx hf, csrWrite_context s old new hctx hr, BitVec.and_assoc, BitVec.and_self]
  by_cases hdev : 0x403 ≤ selNumber x
  · rw [csrValue_device _ hdev hr, csrWrite_device s old new hdev hr, BitVec.and_assoc, BitVec.and_self]
  have hthread : selNumber x = 0x400 ∨ selNumber x = 0x401 ∨ selNumber x = 0x402 := by
    have := writable_number hx hr
    omega
  rcases hthread with h | h | h
  · rw [csrValue_sepc _ h, csrWrite_sepc s old new h]
  · rw [csrValue_scause _ h, csrWrite_scause s old new h]
  · rw [csrValue_stvec _ h, csrWrite_stvec s old new h]

/-! The instructions (R283). -/

theorem execCsrr_trap {a d : BitVec 7} {s : State} (hc : Clear (gNeed .sup [d, a]) s) {c : Cause}
    (h : selectorCause (s.me.readG a.toNat) = some c) : execCsrr a d s = .next (takeTrap s c) := by
  simp only [execCsrr, guard_clear hc, cleared_noreads s (n := gNeed .sup [d, a]) rfl, Agent.g7, h]

theorem execCsrr_read {a d : BitVec 7} {s : State} (hc : Clear (gNeed .sup [d, a]) s)
    (h : selectorCause (s.me.readG a.toNat) = none) :
    execCsrr a d s = .next (s.finishG d (s.csrRead (s.me.readG a.toNat)) true) := by
  simp only [execCsrr, guard_clear hc, cleared_noreads s (n := gNeed .sup [d, a]) rfl, Agent.g7, h]

/-- What `Obligations.ControlRegisterResults` asks of a form that writes a register: CSRW, CSRS and CSRC by `n` = 1 to 3, with
the value `f` that each makes of the old one and its operand. -/
def WritesRegister (i : BitVec 7 → BitVec 7 → BitVec 7 → Instr) (n : Nat) (f : DWord → DWord → DWord) : Prop :=
  ∀ b a d s, Clear (gNeed .sup [d, a, b]) s →
    let x := s.me.readG a.toNat
    let old := s.csrRead x
    let new := f old (s.me.readG b.toNat)
    (∀ c, selectorCause x = some c → Traps (i b a d) s c) ∧
    (selectorCause x = none → ∀ c, s.csrTrap x old new = some c → Traps (i b a d) s c) ∧
    (selectorCause x = none → s.csrTrap x old new = none →
      (csrWaits (selNumber x) old new = false →
        Answers (i b a d) s fun t => GroupEffect (s.csrWrite x old new) t d.toNat old true) ∧
      (csrWaits (selNumber x) old new = true → exec (i b a d) s =
        .next { s with me := s.me.setWait (.csr d.toNat x n (s.me.readG b.toNat)) }))

/-- A form whose meaning is `csrForm` writes its register with the value of `csrNew`. -/
theorem writesRegister_of {i : BitVec 7 → BitVec 7 → BitVec 7 → Instr} {n : Nat}
    (h : ∀ b a d s, exec (i b a d) s = csrForm n b a d s) : WritesRegister i n (csrNew n) := by
  intro b a d s hc
  have hexec := h b a d s
  simp only [csrForm, guard_clear hc, cleared_noreads s (n := gNeed .sup [d, a, b]) rfl, Agent.g7] at hexec
  dsimp only
  refine ⟨fun c hx => ?_, fun hx c ht => ?_, fun hx ht => ⟨fun hw => ?_, fun hw => ?_⟩⟩
  · simpa only [Traps, hx] using hexec
  · simpa only [Traps, hx, ht] using hexec
  · refine ⟨_, ?_, finishG_effect _ d _ true⟩
    simpa only [hx, ht, hw, Bool.false_eq_true, if_false] using hexec
  · simpa only [hx, ht, hw, if_true] using hexec

/-- Settles O41: the instructions by cases on the selector, the check of the written value and whether the change takes time; the
value read after a write by where the register stands. -/
theorem controlRegisterResults : Obligations.ControlRegisterResults := by
  unfold Obligations.ControlRegisterResults
  have reads : ∀ a d s, Clear (gNeed .sup [d, a]) s →
      (∀ c, selectorCause (s.me.readG a.toNat) = some c → Traps (.csrr a d) s c) ∧
      (selectorCause (s.me.readG a.toNat) = none → Answers (.csrr a d) s fun t =>
        GroupEffect s t d.toNat (s.csrRead (s.me.readG a.toNat)) true) := fun a d s hc =>
    ⟨fun _ h => (exec_csrr a d s).trans (execCsrr_trap hc h),
      fun h => ⟨_, (exec_csrr a d s).trans (execCsrr_read hc h), finishG_effect s d _ true⟩⟩
  have writes : WritesRegister .csrw 1 (csrNew 1) ∧ WritesRegister .csrs 2 (csrNew 2) ∧ WritesRegister .csrc 3 (csrNew 3) :=
    ⟨writesRegister_of exec_csrw, writesRegister_of exec_csrs, writesRegister_of exec_csrc⟩
  exact ⟨reads, writes,
    fun s _ old new hx => ⟨csrWrite_readOnly s old new, csrRead_csrWrite_same s old new hx⟩,
    fun _ => selectorCause_unallocated, fun _ => selectorCause_firmware⟩

end Sys2Proof.Proofs
end

section
/-!
PROOF. The special registers (R60, R94, R95) and XLT (R97): what a selector names, what GSWR and XLT write, and what each
outcome of XLT's translation gives.
-/
namespace Sys2Proof.Proofs
open Sys2Proof.Machine Sys2Proof.Laws

/-! Traps in decode (R59). -/

/-- An illegal field traps on every unit that executes an instruction of all units. -/
theorem decodeCause_field (a : Agent) {n : Need} (hu : n.units = .all) (hf : n.field = true) :
    decodeCause a n = some .illegalField := by
  have ht : n.units.trap a.kind = none := by rw [hu]; rfl
  simp only [decodeCause, ht, hf, if_true]

/-- Where no result of a GATH or SCAT is owed, a decode trap is taken in the state as it is. -/
theorem guard_trap_empty {n : Need} {s : State} {c : Cause} (hg : s.me.gath = []) (h : decodeCause s.me n = some c)
    (k : State → Out) : guard n s k = .next (takeTrap s c) := by
  have hh : gathHead s.me n = s.me := gathHead_empty n hg
  rw [guard_trap (hh.symm ▸ h) k, hh]

/-! What a selector names (R60, R95). -/

theorem getLsbD_bit64 (b : Bool) (i : Nat) : (bit64 b).getLsbD i = (decide (i = 0) && b) := by
  cases b <;> simp [bit64]

/-- The flags in the bits of selector 21. -/
theorem special_flags (s : State) (i : Nat) (hi : i < 64) : (s.special 21).getLsbD i =
    ((decide (i = 0) && s.me.env.det) || (decide (i = 1) && s.me.env.coop) || (decide (i = 2) && s.me.env.redeem)) := by
  have h1 : (!decide (i < 1) && decide (i - 1 = 0)) = decide (i = 1) := by
    rw [← decide_not, ← Bool.decide_and]; exact decide_eq_decide.2 (by omega)
  have h2 : (!decide (i < 2) && decide (i - 2 = 0)) = decide (i = 2) := by
    rw [← decide_not, ← Bool.decide_and]; exact decide_eq_decide.2 (by omega)
  simp only [State.special, BitVec.getLsbD_or, BitVec.getLsbD_shiftLeft, getLsbD_bit64, hi, decide_true, Bool.true_and,
    ← Bool.and_assoc, h1, h2]

/-- The scratch registers stand at selectors 32 to 35. -/
theorem special_scratch (s : State) {k : Nat} (hk : k < 4) : s.special (32 + k) = s.me.readScratch k := by
  interval_cases k <;> rfl

/-- GSRD gives what its selector names. -/
theorem exec_gsrd_clear {b d : BitVec 7} {s : State} (hc : Clear { gNeed .all [d] with field := !selectorOk b.toNat } s) :
    exec (.gsrd b d) s = .next (s.finishG d (s.special b.toNat) false) := by
  rw [exec_gsrd, execGsrd, guard_clear hc, cleared_noreads s rfl]

/-! What GSWR and XLT write. -/

@[simp] theorem finish_me (s : State) (ends : Bool) : (s.finish ends).me = s.me.retire none (s.me.nextPc 4) ends := rfl

/-- What the retirement of a write of one scratch register leaves. -/
theorem writeScratch_effect (s : State) (r : Nat) (x : DWord) :
    let t : State := { s with me := s.me.writeScratch r x }.finish false
    AgentOnly s t ∧ t.me.cur.em = s.me.cur.em ∧ t.me.cur.pc = s.me.cur.pc + 4 ∧ SameV s t ∧ SameG s t ∧ SameXt s t ∧
    (∀ k, t.me.readScratch k = if k = r then x else s.me.readScratch k) ∧ ChainGoes s t false none := by
  refine ⟨?_, by simp, by simp [Agent.nextPc], ?_, ?_, ?_, ?_, ?_⟩
  · exact agentOnly_retire s s.me.v s.me.g s.me.xt s.me.scratch _ s.me.retired s.me.cur none _ false rfl rfl rfl rfl rfl
  · intro k l hl; simp [hl]
  · intro k; simp
  · intro k; simp
  · intro k; simp [readScratch_writeScratch]
  · exact chainGoes_retire s _ _ _ _ rfl rfl rfl rfl

/-- What the retirement of a write of one translation register leaves. -/
theorem writeXt_effect (s : State) (r : Nat) (x : Xt) : XtEffect s ({ s with me := s.me.writeXt r x }.finish false) r x := by
  refine ⟨?_, by simp, by simp [Agent.nextPc], ?_, ?_, ?_, ?_, ?_⟩
  · exact agentOnly_retire s s.me.v s.me.g s.me.xt s.me.scratch _ s.me.retired s.me.cur none _ false rfl rfl rfl rfl rfl
  · intro k; simp [readXt_writeXt]
  · intro k l hl; simp [hl]
  · intro k; simp
  · intro k; simp
  · exact chainGoes_retire s _ _ _ _ rfl rfl rfl rfl

/-! XLT (R97). -/

/-- A page that is not translated gives a register that covers nothing. -/
theorem xltOf_untranslated (va : BitVec 56) (n : Nat) {o : WalkOutcome} (h : o.leaf = none) :
    xltOf va n o = ⟨va, 0, .device, 0, 0, 0⟩ := by
  simp only [xltOf, h]

/-- A translated page gives a register that covers the VA's page from the VA on, as far as was asked. -/
theorem xltOf_translated (va : BitVec 56) (n : Nat) {o : WalkOutcome} {leaf : DWord} {level : Nat}
    (h : o.leaf = some (leaf, level)) :
    let x := xltOf va n o
    x.vbase = va ∧ x.limit = BitVec.ofNat 32 (min (min n (pageSize level - va.toNat % pageSize level)) (2 ^ 31)) ∧
    x.perm = leaf.extractLsb' 3 2 ∧ x.level = level := by
  simp only [xltOf, h, and_self]

theorem xltOf_frame_device (va : BitVec 56) (n k : Nat) {leaf : DWord} (level : Nat) (h : bitsOf leaf 8 3 = 0) :
    (xltOf va n (.frame k leaf level)).frame = BitVec.ofNat 52 k ∧ (xltOf va n (.frame k leaf level)).space = .device := by
  simp only [xltOf, WalkOutcome.leaf, h, if_true, and_self]

theorem xltOf_peer_space (va : BitVec 56) (n node : Nat) (pasid : Half) (leaf : DWord) (level : Nat) :
    (xltOf va n (.peer node pasid leaf level)).space = .peer node pasid := rfl

/-- What XLT needs of its fields and registers. -/
abbrev xltNeed (b a d : BitVec 7) : Need :=
  { gNeed .all [a, b] with
    reg := badG a || badG b || decide (7 < d.toNat),
    wide := gReg a.toNat ++ gReg b.toNat ++ [xtReg d.toNat] }

/-- The address that XLT translates, and its translation. -/
abbrev xltVa (a : BitVec 7) (s : State) : BitVec 56 := (s.me.readG a.toNat).extractLsb' 0 56
abbrev xltWalk (a : BitVec 7) (s : State) : State × WalkOutcome := s.myByte (xltVa a s) false false

section
variable {b a d : BitVec 7} {s : State}

theorem exec_xlt_empty (hc : Clear (xltNeed b a d) s) (hn : (s.me.readG b.toNat).toNat = 0) :
    Answers (.xlt b a d) s fun t => XtEffect s t d.toNat ⟨xltVa a s, 0, .device, 0, 0, 0⟩ := by
  refine ⟨_, ?_, writeXt_effect s d.toNat _⟩
  simp only [exec_xlt, execXlt, guard_clear hc, cleared_noreads s (n := xltNeed b a d) rfl, Agent.g7, hn, if_true]

theorem exec_xlt_waits (hc : Clear (xltNeed b a d) s) (hn : (s.me.readG b.toNat).toNat ≠ 0)
    (hw : (xltWalk a s).2 = .waits) :
    exec (.xlt b a d) s = .next (xltWalk a s).1.holdGroup := by
  simp only [exec_xlt, execXlt, guard_clear hc, cleared_noreads s (n := xltNeed b a d) rfl, Agent.g7, hn, hw, if_true, if_false]

theorem exec_xlt_done (hc : Clear (xltNeed b a d) s) (hn : (s.me.readG b.toNat).toNat ≠ 0)
    (hw : (xltWalk a s).2 ≠ .waits) :
    Answers (.xlt b a d) s fun t =>
      XtEffect (xltWalk a s).1 t d.toNat (xltOf (xltVa a s) (s.me.readG b.toNat).toNat (xltWalk a s).2) := by
  refine ⟨_, ?_, writeXt_effect _ d.toNat _⟩
  simp only [exec_xlt, execXlt, guard_clear hc, cleared_noreads s (n := xltNeed b a d) rfl, Agent.g7, hn, hw, if_false]

/-- A translated address gives a register that covers its page. -/
theorem exec_xlt_translated (hc : Clear (xltNeed b a d) s) (hn : (s.me.readG b.toNat).toNat ≠ 0) {leaf : DWord} {level : Nat}
    (hl : (xltWalk a s).2.leaf = some (leaf, level)) {p : Xt → Prop}
    (hp : p (xltOf (xltVa a s) (s.me.readG b.toNat).toNat (xltWalk a s).2)) :
    Answers (.xlt b a d) s fun t => ∃ x, XtEffect (xltWalk a s).1 t d.toNat x ∧ x.vbase = xltVa a s ∧
      x.limit = BitVec.ofNat 32 (min (min (s.me.readG b.toNat).toNat (pageSize level - (xltVa a s).toNat % pageSize level)) (2 ^ 31)) ∧
      x.perm = leaf.extractLsb' 3 2 ∧ x.level = level ∧ p x := by
  have hw : (xltWalk a s).2 ≠ .waits := fun h => by rw [h] at hl; cases hl
  obtain ⟨t, ht, hx⟩ := exec_xlt_done hc hn hw
  obtain ⟨hbase, hlimit, hperm, hlevel⟩ := xltOf_translated (xltVa a s) (s.me.readG b.toNat).toNat hl
  exact ⟨t, ht, _, hx, hbase, hlimit, hperm, hlevel, hp⟩

/-- An address whose translation ends without a page gives a register that covers nothing. -/
theorem exec_xlt_untranslated (hc : Clear (xltNeed b a d) s) (hn : (s.me.readG b.toNat).toNat ≠ 0)
    (hw : (xltWalk a s).2 ≠ .waits) (hframe : ∀ k leaf level, (xltWalk a s).2 ≠ .frame k leaf level)
    (hpeer : ∀ node pasid leaf level, (xltWalk a s).2 ≠ .peer node pasid leaf level) :
    Answers (.xlt b a d) s fun t => XtEffect (xltWalk a s).1 t d.toNat ⟨xltVa a s, 0, .device, 0, 0, 0⟩ := by
  have hl : (xltWalk a s).2.leaf = none := by
    cases ho : (xltWalk a s).2 with
    | frame k leaf level => exact absurd ho (hframe k leaf level)
    | peer node pasid leaf level => exact absurd ho (hpeer node pasid leaf level)
    | _ => rfl
  obtain ⟨t, ht, hx⟩ := exec_xlt_done hc hn hw
  exact ⟨t, ht, xltOf_untranslated _ _ hl ▸ hx⟩

end

/-- A group with another sub-group that holds it back issues nothing (R97). -/
theorem canIssue_held {m : Agent} (h : ∃ c ∈ m.others, c.holds = true) : m.canIssue = false := by
  obtain ⟨c, hc, hh⟩ := h
  have hb : m.heldBack = true := List.any_eq_true.2 ⟨c, hc, by rw [hh, Bool.true_or]⟩
  rw [Agent.canIssue, hb, Bool.not_true, Bool.and_false]

/-- Settles O9: GSRD by the selector's row of `State.special`, and XLT by the outcome of its translation. -/
theorem specialRegisterResults : Obligations.SpecialRegisterResults := by
  unfold Obligations.SpecialRegisterResults
  refine ⟨⟨fun b d s hc => ⟨_, exec_gsrd_clear hc, s.special b.toNat, finishG_effect s d _ false, ?_⟩,
    fun b a s hc => ⟨_, ?_, writeScratch_effect s (b.toNat - 32) _⟩, fun b a s hg hb => ?_⟩, fun b a d s hc => ?_⟩
  · refine ⟨?_, ?_, ?_, ?_, ?_, ?_, ?_, ?_, ?_, ?_, ?_, ?_, ?_, ?_, ?_, ?_, ?splitFree, ?_, ?_, ?_, ?_, ?flags, ?scratch⟩
    case splitFree =>
      rintro rfl hdet
      exact congrArg (BitVec.ofNat 64) (if_pos hdet)
    case flags => rintro rfl; exact special_flags s
    case scratch => intro k hk hb; rw [hb, special_scratch s hk]
    all_goals rintro rfl; rfl
  · rw [exec_gswr, execGswr, guard_clear hc, cleared_noreads s rfl, Agent.g7]
  · have hf : (decide (b.toNat < 32) || decide (35 < b.toNat)) = true := by simpa using hb
    rw [Traps, exec_gswr, execGswr, guard_trap_empty hg (decodeCause_field _ rfl hf)]
  · exact ⟨exec_xlt_empty hc, exec_xlt_waits hc,
      fun hn k _ level hw => exec_xlt_translated hc hn (by rw [hw]; rfl) fun hm => hw ▸ xltOf_frame_device _ _ k level hm,
      fun hn node pasid leaf level hw =>
        exec_xlt_translated hc hn (by rw [hw]; rfl) (hw ▸ xltOf_peer_space _ _ node pasid leaf level),
      exec_xlt_untranslated hc, fun x => ⟨rfl, fun m => canIssue_held⟩⟩

end Sys2Proof.Proofs
end

section
/-!
PROOF. Die time (R177, R362 to R364): the ticks of a disciplined die, what a measurement makes of a die, and the exchange of
times over a link.
-/
namespace Sys2Proof.Proofs
open Sys2Proof.Machine Sys2Proof.Laws

/-! Ticks (R362). -/

/-- A tick moves a die's time by what it adds. -/
theorem tick_time {d e : Die} {add : Nat} (h : d.tick add = some e) : e.time = d.time + BitVec.ofNat 64 add := by
  unfold Die.tick at h
  dsimp only at h
  repeat' split at h
  all_goals cases h
  all_goals rfl

/-- A disciplined die that makes no correction now adds 1. -/
theorem tick_steady {d : Die} (hd : d.disciplined = true) (h : d.slew = 0 ∨ d.sinceSlew < 1023) (add : Nat) :
    d.tick add = if add = 1 then some { d with time := d.time + BitVec.ofNat 64 add, sinceSlew := min 1023 (d.sinceSlew + 1) }
      else none := by
  simp only [Die.tick, hd, h, if_true]

/-- A disciplined die whose correction is due adds 0 or 2, by its sign. -/
theorem tick_slew {d : Die} (hd : d.disciplined = true) (hs : d.slew ≠ 0) (h : 1023 ≤ d.sinceSlew) (add : Nat) :
    d.tick add =
      if add = 0 ∧ d.slew < 0 then some { d with time := d.time + BitVec.ofNat 64 add, sinceSlew := 0, slew := d.slew + 1 }
      else if add = 2 ∧ 0 < d.slew then some { d with time := d.time + BitVec.ofNat 64 add, sinceSlew := 0, slew := d.slew - 1 }
      else none := by
  simp only [Die.tick, hd, hs, Nat.not_lt.2 h, or_self, if_true, if_false]

/-- A die that is disciplined counts as such, the hub die as the package master. -/
theorem disciplined_of_die {s : State} {die : Nat} (h : (s.die die).disciplined = true) : s.disciplined die = true := by
  unfold State.disciplined State.masterOk
  split
  · subst die; rw [h, Bool.or_true]
  · exact h

/-- The bound of R177 on a disciplined die. -/
theorem withinBound_iff {s : State} {die : Nat} (h : s.disciplined die = true) (time : DWord) :
    s.withinBound die time = true ↔
      ∀ e, e < 9 → e ≠ die → s.disciplined e = true → time.toNat ≤ (s.die e).time.toNat + 8 := by
  simp only [State.withinBound, h, Bool.not_true, Bool.false_or, List.all_eq_true, List.mem_range, Bool.or_eq_true, beq_iff_eq,
    Bool.not_eq_true', decide_eq_true_eq]
  refine forall₂_congr fun e _ => ?_
  cases s.disciplined e <;> simp [or_iff_not_imp_left]

theorem exec_tick_some {die add : Nat} {s : State} {e : Die} (hdie : die ≤ 8) (h : (s.die die).tick add = some e) :
    exec (.dieTimeTick die add) s = if s.withinBound die e.time then .next (s.setDie die e) else .refused .notDue := by
  simp only [exec_dieTimeTick, execDieTimeTick, Nat.not_lt.2 hdie, if_false, h]

theorem exec_tick_none {die add : Nat} {s : State} (hdie : die ≤ 8) (h : (s.die die).tick add = none) :
    exec (.dieTimeTick die add) s = .refused .notDue := by
  simp only [exec_dieTimeTick, execDieTimeTick, Nat.not_lt.2 hdie, if_false, h]

/-- A tick that would take a die beyond its bound is not due, whatever else of the die it changes. -/
theorem exec_tick_beyond {die add : Nat} {s : State} (hdie : die ≤ 8)
    (h : s.withinBound die ((s.die die).time + BitVec.ofNat 64 add) = false) :
    exec (.dieTimeTick die add) s = .refused .notDue := by
  cases ht : (s.die die).tick add with
  | none => exact exec_tick_none hdie ht
  | some e => rw [exec_tick_some hdie ht, tick_time ht, h]; rfl

/-- A tick that keeps the bound changes the die alone. -/
theorem answers_tick {die add : Nat} {s : State} {e : Die} (hdie : die ≤ 8) (h : (s.die die).tick add = some e)
    (hw : s.withinBound die e.time = true) {p : State → Prop} (hp : p (s.setDie die e)) : Answers (.dieTimeTick die add) s p :=
  ⟨_, (exec_tick_some hdie h).trans (if_pos hw), hp⟩

section
variable {die : Nat} {s : State} (hdie : die ≤ 8) (hd : (s.die die).disciplined = true)
include hdie hd

theorem answers_tick_steady (h : (s.die die).slew = 0 ∨ (s.die die).sinceSlew < 1023)
    (hw : s.withinBound die ((s.die die).time + 1) = true) : Answers (.dieTimeTick die 1) s fun t =>
      (t.die die).time = (s.die die).time + 1 ∧ t.mem = s.mem ∧ ∀ k, k ≠ die → t.die k = s.die k :=
  answers_tick hdie (tick_steady hd h 1) hw
    ⟨by rw [die_setDie_same]; rfl, setDie_mem .., fun k hk => by rw [die_setDie, if_neg hk]⟩

/-- A die that is ahead makes its correction by a tick of 0. -/
theorem answers_tick_ahead (h : 1023 ≤ (s.die die).sinceSlew) (hs : (s.die die).slew < 0)
    (hw : s.withinBound die (s.die die).time = true) : Answers (.dieTimeTick die 0) s fun t =>
      (t.die die).time = (s.die die).time ∧ (t.die die).slew = (s.die die).slew + 1 ∧ (t.die die).sinceSlew = 0 := by
  have zero : (s.die die).time + BitVec.ofNat 64 0 = (s.die die).time := BitVec.add_zero _
  refine answers_tick hdie ((tick_slew hd hs.ne h 0).trans (if_pos ⟨rfl, hs⟩)) (zero.symm ▸ hw) ?_
  rw [die_setDie_same]
  exact ⟨zero, rfl, rfl⟩

/-- A die that is behind makes its correction by a tick of 2. -/
theorem answers_tick_behind (h : 1023 ≤ (s.die die).sinceSlew) (hs : 0 < (s.die die).slew)
    (hw : s.withinBound die ((s.die die).time + 2) = true) : Answers (.dieTimeTick die 2) s fun t =>
      (t.die die).time = (s.die die).time + 2 ∧ (t.die die).slew = (s.die die).slew - 1 ∧ (t.die die).sinceSlew = 0 := by
  have hnot : ¬(2 = 0 ∧ (s.die die).slew < 0) := fun h => absurd h.1 (by decide)
  refine answers_tick hdie ((tick_slew hd hs.ne' h 2).trans ((if_neg hnot).trans (if_pos ⟨rfl, hs⟩))) hw ?_
  rw [die_setDie_same]
  exact ⟨rfl, rfl, rfl⟩

end

/-! Measurements (R362, R364). -/

/-- The time to which a die that is behind steps forward at once. -/
def forwardTime (d : Die) (twice : Int) : DWord := if twice < 0 then d.time + BitVec.ofInt 64 (-(twice / 2)) else d.time

section
variable {d : Die} {twice : Int} {may : Bool}

/-- A disciplined die within 80 dtu slews. -/
theorem measured_slews (hd : d.disciplined = true) (h : twice.natAbs ≤ 160) : d.measured twice may =
    { d with slew := -(twice / 2), offset := BitVec.ofInt 32 (twice / 2), halfTick := false, lastEx := d.time } := by
  simp only [Die.measured, hd, h, decide_true, Bool.and_self, if_true]

/-- A die that is not disciplined, or beyond 80 dtu, steps forward where it is behind, and is disciplined within 64 dtu. -/
theorem measured_steps (h : (d.disciplined && decide (twice.natAbs ≤ 160)) = false) : d.measured twice may =
    { d with slew := if twice < 0 then 0 else -(twice / 2), offset := BitVec.ofInt 32 (twice / 2), halfTick := false,
             disciplined := decide (twice.natAbs ≤ 128 ∧ may = true), time := forwardTime d twice,
             sinceSlew := if twice.natAbs ≤ 128 ∧ may = true then 0 else d.sinceSlew, lastEx := forwardTime d twice } := by
  simp only [Die.measured, h, Bool.false_eq_true, if_false, forwardTime]
  by_cases ht : twice < 0 <;> by_cases hm : twice.natAbs ≤ 128 ∧ may = true
  all_goals simp [ht, hm]

/-- Which of the two a measurement is. -/
theorem measured_cases (d : Die) (twice : Int) :
    (d.disciplined = true ∧ twice.natAbs ≤ 160) ∨ (d.disciplined && decide (twice.natAbs ≤ 160)) = false := by
  cases d.disciplined <;> simp [le_or_gt]

theorem measured_offset : (d.measured twice may).offset = BitVec.ofInt 32 (twice / 2) := by
  obtain ⟨hd, h⟩ | h := measured_cases d twice
  · rw [measured_slews hd h]
  · rw [measured_steps h]

theorem measured_disciplined (hd : d.disciplined = true) :
    (d.measured twice may).disciplined = decide (twice.natAbs ≤ 160) := by
  by_cases h : twice.natAbs ≤ 160
  · rw [measured_slews hd h, hd, decide_eq_true h]
  · rw [measured_steps (by simp [h]), decide_eq_false h]
    exact decide_eq_false fun hm => by omega

end

/-! What the package master's state makes of the dies (R364), and of nothing else. -/

/-- Each compute die changed. -/
def mapDies (s : State) (f : Die → Die) : State := (List.range 8).foldl (fun (s : State) d => s.setDie d (f (s.die d))) s

theorem followMaster_eq (s : State) :
    s.followMaster = if s.masterOk then s else mapDies s fun d => { d with disciplined := false } := rfl

@[simp] theorem mapDies_exchange (s : State) (f : Die → Die) : (mapDies s f).exchange = s.exchange :=
  foldl_keeps State.exchange (fun s d => setDie_exchange s d _) _ s

@[simp] theorem mapDies_inbox (s : State) (f : Die → Die) : (mapDies s f).inbox = s.inbox :=
  foldl_keeps State.inbox (fun s d => setDie_inbox s d _) _ s

@[simp] theorem mapDies_die_hub (s : State) (f : Die → Die) : (mapDies s f).die 8 = s.die 8 := by
  refine List.foldlRecOn (motive := fun t : State => t.die 8 = s.die 8) _ _ rfl fun t ht d hd => ?_
  rw [die_setDie, if_neg (List.mem_range.1 hd).ne', ht]

/-- What holds of a die and is kept by the change holds of it afterwards. -/
theorem mapDies_die_keeps {s : State} {f : Die → Die} {p : Die → Prop} (hf : ∀ d, p d → p (f d)) {k : Nat}
    (h : p (s.die k)) : p ((mapDies s f).die k) := by
  refine List.foldlRecOn (motive := fun t : State => p (t.die k)) _ _ h fun t ht d _ => ?_
  rw [die_setDie]
  split
  · rename_i hk; exact hf _ (hk ▸ ht)
  · exact ht

@[simp] theorem followMaster_exchange (s : State) : s.followMaster.exchange = s.exchange := by
  rw [followMaster_eq]; split <;> simp

@[simp] theorem followMaster_inbox (s : State) : s.followMaster.inbox = s.inbox := by
  rw [followMaster_eq]; split <;> simp

@[simp] theorem followMaster_die_hub (s : State) : s.followMaster.die 8 = s.die 8 := by
  rw [followMaster_eq]; split <;> simp

/-- A die keeps its time as it follows the package master, and does not become disciplined. -/
theorem followMaster_undisciplined {s : State} {k : Nat} (h : (s.die k).disciplined = false) :
    (s.followMaster.die k).disciplined = false ∧ (s.followMaster.die k).time = (s.die k).time := by
  rw [followMaster_eq]
  split
  · exact ⟨h, rfl⟩
  · exact mapDies_die_keeps (f := fun d => { d with disciplined := false })
      (p := fun d => d.disciplined = false ∧ d.time = (s.die k).time) (fun _ hd => ⟨rfl, hd.2⟩) ⟨h, rfl⟩

@[simp] theorem measure_exchange (s : State) (d : Nat) (twice : Int) (may : Bool) :
    (s.measure d twice may).exchange = s.exchange := by simp [State.measure]

@[simp] theorem measure_inbox (s : State) (d : Nat) (twice : Int) (may : Bool) :
    (s.measure d twice may).inbox = s.inbox := by simp [State.measure]

@[simp] theorem measure_die_hub (s : State) (twice : Int) (may : Bool) :
    (s.measure 8 twice may).die 8 = (s.die 8).measured twice may := by simp [State.measure]

/-- The hub die's time, found in its store. -/
theorem hubTime_eq (s : State) : s.hubTime = (s.die 8).time := by
  unfold State.hubTime State.die
  induction s.dies with
  | nil => rfl
  | cons e r ih =>
    by_cases h : e.1 = 8
    · simp [Store.get, h]
    · simpa [Store.get, h, List.find?_cons] using ih

/-! Loss of the discipline (R364). -/

theorem bitsOf_eq_extractLsb' (x : DWord) (lo n : Nat) : bitsOf x lo n = (x.extractLsb' lo n).toNat := by
  rw [bitsOf, BitVec.extractLsb'_toNat, Nat.shiftRight_eq_div_pow]

theorem exchangePeriod_eq (s : State) (die : Nat) : s.exchangePeriod die =
    if die = 8 then ((s.devReg 0x882).extractLsb' 16 10).toNat * 4000 else 4000 := by
  rw [State.exchangePeriod, bitsOf_eq_extractLsb']
  rfl

/-- A disciplined die that has had no exchange for four periods is undisciplined. -/
theorem exec_disciplineLoss_disciplined {die : Nat} {s : State} (hdie : die ≤ 8) (hd : (s.die die).disciplined = true) :
    exec (.disciplineLoss die) s =
      if ((s.die die).time - (s.die die).lastEx).toNat < 4 * s.exchangePeriod die then .refused .notDue
      else .next (s.setDie die { s.die die with disciplined := false }).followMaster := by
  simp only [exec_disciplineLoss, execDisciplineLoss, Nat.not_lt.2 hdie, hd, Bool.not_true, Bool.false_eq_true, false_or]

theorem answers_disciplineLoss {die : Nat} {s : State} (hdie : die ≤ 8) (hd : (s.die die).disciplined = true)
    (h : 4 * s.exchangePeriod die ≤ ((s.die die).time - (s.die die).lastEx).toNat) :
    Answers (.disciplineLoss die) s fun t => (t.die die).disciplined = false ∧ (t.die die).time = (s.die die).time := by
  refine ⟨_, (exec_disciplineLoss_disciplined hdie hd).trans (if_neg (Nat.not_lt.2 h)), ?_⟩
  obtain ⟨hdis, htime⟩ : ((s.setDie die { s.die die with disciplined := false }).die die).disciplined = false ∧
      ((s.setDie die { s.die die with disciplined := false }).die die).time = (s.die die).time := by
    rw [die_setDie_same]; exact ⟨rfl, rfl⟩
  exact (followMaster_undisciplined hdis).imp_right (Eq.trans · htime)

/-! The exchanges inside the package and with the host (R362, R363). -/

theorem exec_packageTimeExchange_die {die : Nat} (hdie : die < 8) (m : DWord) (s : State) :
    exec (.packageTimeExchange die m) s = if m = (s.die 8).time then
        .next (s.measure die (2 * ((s.die die).time - m).toInt) s.masterOk)
      else .refused .notDue := by
  simp only [exec_packageTimeExchange, execPackageTimeExchange, Nat.not_le.2 hdie, false_or, ne_eq, ite_not]
  rfl

theorem exec_ptmSync_grandmaster {s : State} (hg : (s.devReg 0x882).getLsbD 4 = true) (ns : DWord) :
    exec (.ptmSync ns) s = if (s.devReg 0x882).getLsbD 5 = true then
        .next (s.measure 8 (2 * ((s.die 8).time - ns * 4).toInt) true)
      else .refused .notDue := by
  rw [exec_ptmSync, execPtmSync, State.tmcfg, hg, Bool.true_and]
  rfl

/-! The exchange over a link (R363). -/

/-- A time packet is injected behind those that stand here. -/
theorem timePacket_packets (s : State) (port opc arg : Nat) :
    (s.timePacket port opc arg).packets.length = s.packets.length + 1 ∧
    (s.timePacket port opc arg).packets.getLast?.map (fun q => q.port) = some 32 := by
  simp [State.timePacket, State.inject, atDevice]

theorem exec_timeExchangeStart_port {port : Nat} (hp : port < 12) (s : State) :
    exec (.timeExchangeStart port) s = .next (if s.timeRoute port = true then s.timePacket port 7 0 else s) := by
  simp only [exec_timeExchangeStart, execTimeExchangeStart, Nat.not_le.2 hp, if_false]
  split <;> rfl

/-- SYNC's egress is told in a FOLLOW; DREQ's, on the parent's port, is t3. -/
theorem stampEgress_sync {s : State} {p : Packet} (k : Nat) (hp : p.port = 32) (ho : p.hd.opc = 7) :
    s.stampEgress p k = s.inject { p.hd with opc := 8, arg := (s.die 8).time.toNat } [] := by
  have hs : ¬p.port ≠ atDevice := not_not.2 hp
  rw [State.stampEgress, if_neg hs, if_pos ho, hubTime_eq]

theorem stampEgress_dreq {s : State} {p : Packet} {k : Nat} (hp : p.port = 32) (ho : p.hd.opc = 9) (hk : k = s.parentPort) :
    s.stampEgress p k = { s with exchange := { s.exchange with t3 := (s.die 8).time } } := by
  have hs : ¬p.port ≠ atDevice := not_not.2 hp
  rw [State.stampEgress, if_neg hs, if_neg (by omega), if_pos ⟨ho, hk⟩, hubTime_eq]

section
variable {s : State} {i : Nat} {p : Packet}

theorem exec_sync_item (hi : s.timeItem 7 (s.neighbour s.parentPort) = some (i, p)) (hg : s.tmcfg.getLsbD 4 = false) :
    exec (.sync p.stamp) s = .next { s.dropInbox i with exchange := { s.exchange with active := true, t2 := p.stamp } } := by
  simp only [exec_sync, execSync, hi, hg, ne_eq, not_true, Bool.false_eq_true, or_self, if_false]

/-- The state in which the child has taken t1, before it sends DREQ. -/
def followed (s : State) (i : Nat) (t1 : DWord) : State :=
  { s.dropInbox i with exchange := { s.exchange with t1 := t1, active := s.timeRoute s.parentPort } }

theorem exec_follow_item {t1 : DWord} (hi : s.timeItem 8 (s.neighbour s.parentPort) = some (i, p))
    (ht : p.hd.arg % 2 ^ 64 = t1.toNat) (ha : s.exchange.active = true) :
    exec (.follow t1) s = .next (if s.timeRoute s.parentPort = true then (followed s i t1).timePacket s.parentPort 9 0
      else followed s i t1) := by
  simp only [exec_follow, execFollow, hi, ht, ha, ne_eq, not_true, Bool.not_true, Bool.false_eq_true, or_self, if_false]
  rfl

/-- FOLLOW is taken; where a packet may be sent to the parent, DREQ is injected. -/
theorem answers_follow {t1 : DWord} (hi : s.timeItem 8 (s.neighbour s.parentPort) = some (i, p))
    (ht : p.hd.arg % 2 ^ 64 = t1.toNat) (ha : s.exchange.active = true) :
    Answers (.follow t1) s fun t => t.exchange.t1 = t1 ∧ t.exchange.t2 = s.exchange.t2 ∧
      t.exchange.active = s.timeRoute s.parentPort ∧ t.inbox = s.inbox.eraseIdx i ∧ (s.timeRoute s.parentPort = true →
        t.packets.length = s.packets.length + 1 ∧ t.packets.getLast?.map (fun q => q.port) = some 32) := by
  refine ⟨_, exec_follow_item hi ht ha, ?_⟩
  beta_reduce
  by_cases hr : s.timeRoute s.parentPort = true
  · rw [if_pos hr]
    exact ⟨rfl, rfl, rfl, rfl, fun _ => timePacket_packets (followed s i t1) ..⟩
  · rw [if_neg hr]
    exact ⟨rfl, rfl, rfl, rfl, fun h => absurd h hr⟩

theorem exec_dreq_item {port : Nat} {t4 : DWord} (hp : port < 12) (hi : s.timeItem 9 (s.neighbour port) = some (i, p)) :
    exec (.dreq port t4) s = if p.stamp = t4 then
        .next (if s.timeRoute port = true then (s.dropInbox i).timePacket port 10 t4.toNat else s.dropInbox i)
      else .refused .notDue := by
  simp only [exec_dreq, execDreq, hi, Nat.not_le.2 hp, false_or, ne_eq, ite_not]
  rfl

/-! ε_fab (R363). -/

theorem epsilon_root {recent : List Nat} (h : s.neighbour s.parentPort = topoGm s.topo) :
    s.epsilon recent = (s, 20 + recent.foldl max 0) := by
  simp only [State.epsilon, h, if_true, Nat.zero_add]

/-- The hops beyond a parent that is not the grandmaster use a free value, and add 20 dtu at least. -/
theorem epsilon_hops {recent : List Nat} (h : s.neighbour s.parentPort ≠ topoGm s.topo) :
    (s.epsilon recent).1 = s.useFree ∧ 40 + recent.foldl max 0 ≤ (s.epsilon recent).2 := by
  simp only [State.epsilon, h, if_false, true_and]
  omega

/-- ε_fab changes at most the counter of free values. -/
theorem epsilon_state (s : State) (recent : List Nat) : (s.epsilon recent).1 = s ∨ (s.epsilon recent).1 = s.useFree := by
  by_cases h : s.neighbour s.parentPort = topoGm s.topo
  · exact .inl (congrArg Prod.fst (epsilon_root h))
  · exact .inr (epsilon_hops h).1

@[simp] theorem epsilon_dies (s : State) (recent : List Nat) : (s.epsilon recent).1.dies = s.dies := by
  obtain h | h := epsilon_state s recent <;> rw [h]
  rfl

@[simp] theorem epsilon_inbox (s : State) (recent : List Nat) : (s.epsilon recent).1.inbox = s.inbox := by
  obtain h | h := epsilon_state s recent <;> rw [h]
  rfl

/-- Twice the offset that the exchange has measured, and the link's delay (R363). -/
def twiceOffset (s : State) (t4 : DWord) : Int :=
  (s.exchange.t2 - s.exchange.t1).toInt - (t4 - s.exchange.t3).toInt
def twiceDelay (s : State) (t4 : DWord) : Int :=
  (s.exchange.t2 - s.exchange.t1).toInt + (t4 - s.exchange.t3).toInt

/-- The state that DRSP makes before it corrects the package master: the exchange has ended, and TSTAT shows the offset. -/
def exchanged (s : State) (i : Nat) (t4 : DWord) : State :=
  let twice := twiceOffset s t4
  let recent := ((twice.natAbs + 1) / 2 :: s.exchange.recent).take 16
  let e := (s.dropInbox i).epsilon recent
  let u : State := { e.1 with
    exchange := { s.exchange with active := false, recent := recent, hopSum := e.2, delay := twiceDelay s t4 } }
  mapDies (u.setDevReg 0x883 (BitVec.ofNat 64 (2 ^ 32 + e.2 % 2 ^ 32))) fun d => { d with offset := BitVec.ofInt 32 (twice / 2) }

@[simp] theorem exchanged_die_hub (t4 : DWord) : (exchanged s i t4).die 8 = s.die 8 := by
  rw [exchanged, mapDies_die_hub]
  simp only [State.die, State.setDevReg, epsilon_dies]
  rfl

@[simp] theorem exchanged_inbox (t4 : DWord) : (exchanged s i t4).inbox = s.inbox.eraseIdx i := by
  rw [exchanged, mapDies_inbox]
  simp only [State.setDevReg, epsilon_inbox]
  rfl

theorem exchanged_exchange (t4 : DWord) :
    (exchanged s i t4).exchange.active = false ∧ (exchanged s i t4).exchange.delay = twiceDelay s t4 := by
  unfold exchanged
  rw [mapDies_exchange]
  exact ⟨rfl, rfl⟩

theorem exec_drsp_item {t4 : DWord} (hi : s.timeItem 10 (s.neighbour s.parentPort) = some (i, p))
    (ht : p.hd.arg % 2 ^ 64 = t4.toNat) (ha : s.exchange.active = true) :
    exec (.drsp t4) s = .next ((exchanged s i t4).measure 8 (twiceOffset s t4) true) := by
  simp only [exec_drsp, execDrsp, hi, ht, ha, ne_eq, not_true, Bool.not_true, Bool.false_eq_true, or_self, if_false]
  rfl

/-- DRSP ends the exchange, and the package master measures its offset. -/
theorem answers_drsp {t4 : DWord} (hi : s.timeItem 10 (s.neighbour s.parentPort) = some (i, p))
    (ht : p.hd.arg % 2 ^ 64 = t4.toNat) (ha : s.exchange.active = true) :
    Answers (.drsp t4) s fun t => (t.die 8).offset = BitVec.ofInt 32 (twiceOffset s t4 / 2) ∧ t.exchange.active = false ∧
      t.inbox = s.inbox.eraseIdx i ∧ t.exchange.delay = twiceDelay s t4 ∧
      ((s.die 8).disciplined = true → (t.die 8).disciplined = decide ((twiceOffset s t4).natAbs ≤ 160)) := by
  refine ⟨_, exec_drsp_item hi ht ha, ?_⟩
  beta_reduce
  rw [measure_die_hub, measure_exchange, measure_inbox, exchanged_die_hub, exchanged_inbox]
  obtain ⟨hactive, hdelay⟩ := exchanged_exchange (s := s) (i := i) t4
  exact ⟨measured_offset, hactive, rfl, hdelay, measured_disciplined⟩

end

/-- Settles O51: a tick by whether a correction is due, a measurement by whether the die slews or steps, and the exchange
packet by packet. -/
theorem dieTimeResults : Obligations.DieTimeResults := by
  unfold Obligations.DieTimeResults
  refine ⟨fun die s hdie => ?ticks, fun d twice => ?measured, fun s recent => ⟨fun h => ?root, fun h => (epsilon_hops h).2⟩,
    fun die m s hdie => ?package, fun ns s hg => ?host, fun die s hdie hd => ?loss, fun port s hp => ?start,
    fun s p k hp => ⟨stampEgress_sync k hp, stampEgress_dreq hp⟩,
    fun s i p => ⟨fun t2 hi hg ht => ht ▸ exec_sync_item hi hg, fun t1 => answers_follow, fun t4 => answers_drsp⟩,
    fun port t4 s i p hi hp => ?dreq⟩
  case ticks =>
    intro d within
    have bound : d.disciplined = true → ∀ time, s.withinBound die time = true ↔ within time := fun hd =>
      withinBound_iff (disciplined_of_die hd)
    exact ⟨fun hd h hw => answers_tick_steady hdie hd h ((bound hd _).2 hw),
      fun hd hs h => exec_tick_none hdie (tick_slew hd hs h 1),
      fun hd hw => exec_tick_beyond hdie (Bool.eq_false_iff.2 (mt (bound hd _).1 hw)),
      fun hd h => ⟨exec_tick_none hdie (tick_steady hd (.inr h) 0), exec_tick_none hdie (tick_steady hd (.inr h) 2)⟩,
      fun hd h hs hw => answers_tick_ahead hdie hd h hs ((bound hd _).2 hw),
      fun hd h hs hw => answers_tick_behind hdie hd h hs ((bound hd _).2 hw)⟩
  case measured =>
    refine ⟨measured_disciplined, fun hd h => ?_, fun _ h => ?_, fun hd => ?_, measured_offset, rfl⟩
    · rw [measured_slews hd h]
    · rw [measured_steps (by simp [h])]; rfl
    · rw [measured_steps (by simp [hd])]; simp [forwardTime]
  case root => rw [epsilon_root h]
  case package =>
    rw [exec_packageTimeExchange_die hdie]
    exact ⟨fun h => if_neg h, fun h => if_pos h⟩
  case host =>
    rw [exec_ptmSync_grandmaster hg]
    exact ⟨fun h => if_pos h, fun h => if_neg (Bool.eq_false_iff.1 h)⟩
  case loss =>
    intro since period
    have hp : s.exchangePeriod die = period := exchangePeriod_eq s die
    exact ⟨fun h => (exec_disciplineLoss_disciplined hdie hd).trans (if_pos (hp ▸ h)),
      fun h => answers_disciplineLoss hdie hd (hp ▸ h)⟩
  case start =>
    rw [exec_timeExchangeStart_port hp]
    exact ⟨fun h => by rw [if_pos h], fun h => by rw [if_neg (Bool.eq_false_iff.1 h)]⟩
  case dreq =>
    rw [exec_dreq_item hp hi]
    exact ⟨fun h => if_pos h, fun h => if_neg h⟩

end Sys2Proof.Proofs
end

section
/-!
PROOF. The packed, dot and reduction instructions (R32, R77 to R79): each is a lane instruction whose operation is read element
by element.
-/
namespace Sys2Proof.Proofs
open Sys2Proof.Machine Sys2Proof.Laws

/-! Elements of packed words (R77). -/

/-- A rounded value of a 16-bit format is a 16-bit code. -/
theorem roundIeee_lt_two_pow_sixteen {f : Fmt} (h : f = .bf16 ∨ f = .fp16) (m : RoundMode) (x : FVal) :
    roundIeee f m x < 2 ^ 16 := by
  have signed_lt : ∀ (s : Bool) {c : Nat}, c < 2 ^ 15 → f.signed s c < 2 ^ 16 := by
    intro s c hc
    obtain rfl | rfl := h <;> cases s <;> simp [Fmt.signed, Fmt.width, Fmt.exp, Fmt.man] <;> omega
  have inf_lt : f.maxCode + 1 < 2 ^ 15 := by obtain rfl | rfl := h <;> decide
  cases x with
  | nan s => obtain rfl | rfl := h <;> simp [roundIeee, Fmt.canonNaN]
  | inf s => exact signed_lt s inf_lt
  | num s x => exact signed_lt s (lt_of_le_of_lt (Nat.min_le_right _ _) inf_lt)

/-- Each element of a packed result is the rounded result of its elements. -/
theorem packed_element {f : Fmt} (h : f = .bf16 ∨ f = .fp16) (op : FVal → FVal → FVal → FVal) (a b d : Word) {e : Nat}
    (he : e < 2) : ((packed f op a b d).extractLsb' (16 * e) 16).toNat =
      roundIeee f .ne (op (decodeNum f (a.extractLsb' (16 * e) 16).toNat) (decodeNum f (b.extractLsb' (16 * e) 16).toNat)
        (decodeNum f (d.extractLsb' (16 * e) 16).toNat)) := by
  have low : ∀ x y : BitVec 16, (x ++ y).extractLsb' 0 16 = y := fun x y => by
    ext i hi; rw [BitVec.getElem_extractLsb', BitVec.getLsbD_append]; simp [hi]
  have high : ∀ x y : BitVec 16, (x ++ y).extractLsb' 16 16 = x := fun x y => by
    ext i hi; rw [BitVec.getElem_extractLsb', BitVec.getLsbD_append]; simp [hi]
  have code : ∀ x, (BitVec.ofNat 16 (roundIeee f .ne x)).toNat = roundIeee f .ne x := fun x => by
    rw [BitVec.toNat_ofNat, Nat.mod_eq_of_lt (roundIeee_lt_two_pow_sixteen h .ne x)]
  interval_cases e
  · exact (congrArg BitVec.toNat (low _ _)).trans (code _)
  · exact (congrArg BitVec.toNat (high _ _)).trans (code _)

/-! Elements of a dot product (R78). -/

/-- Bits above an element are no part of its value. -/
theorem decodeNum_element {f : Fmt} {w : Nat} (hw : f.width = w) (x : Word) (i : Nat) :
    decodeNum f (element x w i) = decodeNum f (x.toNat / 2 ^ (w * i)) := by
  subst hw
  simp only [decodeNum, element, Nat.mod_mod]

theorem dotW_eq {f : Fmt} {w : Nat} (hw : f.width = w) (n : Nat) (a b d : Word) :
    dotW f w n b a d = toF32 (dotSum ((List.range n).map fun i =>
      (decodeNum f (a.toNat / 2 ^ (w * i)), decodeNum f (b.toNat / 2 ^ (w * i)))) (f32 d)) := by
  simp only [dotW, decodeNum_element hw]

/-! Reductions (R79). -/

theorem imaxW_eq (x y : Word) : imaxW x y = if x.toInt < y.toInt then y else x := by
  simp only [imaxW, BitVec.slt, decide_eq_true_eq]

/-- Settles O3: the packed forms element by element, the dot products over the elements of their words, and the reductions by
their operation and its identity. -/
theorem packedAndReductionResults : Obligations.PackedAndReductionResults := by
  unfold Obligations.PackedAndReductionResults
  have bf : (Fmt.bf16 = .bf16 ∨ Fmt.bf16 = .fp16) := .inl rfl
  have hf : (Fmt.fp16 = .bf16 ∨ Fmt.fp16 = .fp16) := .inr rfl
  refine ⟨⟨?_, ?_, ?_, ?_, ?_, ?_, ?_, ?_, ?_, ?_, ?_, ?_⟩, ?_, ?_, ?_, ?_⟩
  · exact laneTwo_of exec_faddBf2 fun x y e he => packed_element bf _ x y 0 he
  · exact laneTwo_of exec_fmulBf2 fun x y e he => packed_element bf _ x y 0 he
  · exact laneThree_of exec_fmaBf2 fun x y z e he => packed_element bf _ x y z he
  · exact laneTwo_of exec_fmaxBf2 fun x y e he => packed_element bf _ x y 0 he
  · exact laneTwo_of exec_faddHf2 fun x y e he => packed_element hf _ x y 0 he
  · exact laneTwo_of exec_fmulHf2 fun x y e he => packed_element hf _ x y 0 he
  · exact laneThree_of exec_fmaHf2 fun x y z e he => packed_element hf _ x y z he
  · exact laneTwo_of exec_fmaxHf2 fun x y e he => packed_element hf _ x y 0 he
  · exact laneThree_of exec_fdot2Bf fun x y z => dotW_eq rfl 2 x y z
  · exact laneThree_of exec_fdot4E4 fun x y z => dotW_eq rfl 4 x y z
  · exact laneThree_of exec_fdot4E5 fun x y z => dotW_eq rfl 4 x y z
  · exact laneThree_of exec_fdot8E2m1 fun x y z => dotW_eq rfl 8 x y z
  · exact laneReduce_of exec_raddF
  · exact laneReduce_of exec_rmaxF
  · exact laneReduce_of exec_raddI
  · have hmax : imaxW = fun x y => if x.toInt < y.toInt then y else x := funext₂ imaxW_eq
    exact hmax ▸ laneReduce_of exec_rmaxI

end Sys2Proof.Proofs
end

section
/-!
PROOF. The random numbers (R36, R87), the moves (R89), the immediate forms (R90, R91) and SRD (R60, R92).
-/
namespace Sys2Proof.Proofs
open Sys2Proof.Machine Sys2Proof.Laws

/-! Instructions that retire by `writeLane` (R70). -/

/-- An instruction whose meaning, once it has passed decode, is a write of a lane register. -/
theorem answers_writeLane {i : Instr} {need : Need} {s : State} {n : BitVec 1} {d size : Nat} {f g : Nat → Word}
    (h : exec i s = .next ((cleared need s).writeLane n d f size)) (hf : f = g) :
    Answers i s fun t => LaneEffect (cleared need s) t n d size g :=
  ⟨_, h, hf ▸ writeLane_effect _ n d f size⟩

/-! Random numbers (R36, R87). -/

/-- The word of an element's block that a random instruction takes is that of the element's index modulo 4. -/
theorem elementWord_eq (a : Agent) (x y : BitVec 7) (l : Nat) :
    a.elementWord x y l =
      let n := a.readV (x.toNat + 1) l ++ a.readV x.toNat l
      (philox a.env.seed ⟨(n >>> 2).extractLsb' 0 32, (n >>> 2).extractLsb' 32 32, a.readV y.toNat l,
        a.readV (y.toNat + 1) l⟩).word (n.toNat % 4) := by
  simp only [Agent.elementWord, philoxElement, BitVec.extractLsb'_toNat, Nat.shiftRight_zero]

/-- Word i of the Philox block of a lane's counter in two register pairs (R87). -/
def counterWord (m : Agent) (x y : BitVec 7) (i l : Nat) : Word :=
  (philox m.env.seed
    ⟨m.readV x.toNat l, m.readV (x.toNat + 1) l, m.readV y.toNat l, m.readV (y.toNat + 1) l⟩).word i

/-- RNG4 with N = 0 writes the four words of the block. -/
theorem exec_rng4_span {b a d : BitVec 7} {s : State} (hc : Clear (rngNeed 0 b a d 4) s) :
    let u := cleared (rngNeed 0 b a d 4) s
    let w := counterWord u.me a b
    exec (.rng4 0 b a d) s = .next { u with
      me := (u.me.writeSpan u.me.cur.em d.toNat ((List.range 4).map fun i => laneResult u.me.cur.em (w i))).retire
        (some (laneResult u.me.cur.em (w 0))) (u.me.nextPc 4) false } := by
  rw [exec_rng4, execRng4, guard_clear hc]
  rfl

/-- RNG4 with N = 1 sends the first word to the latch. -/
theorem exec_rng4_latch {b a d : BitVec 7} {s : State} (hc : Clear (rngNeed 1 b a d 4) s) :
    let u := cleared (rngNeed 1 b a d 4) s
    exec (.rng4 1 b a d) s = .next (u.writeLane 1 0 (counterWord u.me a b 0) 4) := by
  rw [exec_rng4, execRng4, guard_clear hc]
  simp only [State.writeLane, if_true]
  rfl

/-! Moves to g registers (R89). -/

/-- The lowest active lane is the first that a search finds. -/
theorem find?_lowest {em : Word} {l : Nat} (hl : l < 32) (hm : em.getLsbD l = true) (hlow : ∀ k, k < l → em.getLsbD k = false) :
    (List.range 32).find? (fun k => em.getLsbD k) = some l := by
  rw [List.find?_range_eq_some]
  exact ⟨hm, List.mem_range.2 hl, fun k hk => by simp [hlow k hk]⟩

theorem find?_no_lane {em : Word} (h : em = 0) : (List.range 32).find? (fun k => em.getLsbD k) = none := by
  simp [h]

/-- The pair that MOVVG moves: that of the lowest active lane, or 0. -/
def lowestPair (m : Agent) (a : BitVec 7) : DWord :=
  match (List.range 32).find? fun l => m.cur.em.getLsbD l with
  | some l => m.pair a l
  | none => 0

theorem lowestPair_none {m : Agent} {a : BitVec 7} (h : m.cur.em = 0) : lowestPair m a = 0 := by
  rw [lowestPair, find?_no_lane h]

theorem lowestPair_lane {m : Agent} {a : BitVec 7} {l : Nat} (hl : l < 32) (hm : m.cur.em.getLsbD l = true)
    (hlow : ∀ k, k < l → m.cur.em.getLsbD k = false) : lowestPair m a = m.readV (a.toNat + 1) l ++ m.readV a.toNat l := by
  rw [lowestPair, find?_lowest hl hm hlow]; rfl

theorem exec_movvg_clear {a d : BitVec 7} {s : State} (hc : Clear (movvNeed a d) s) :
    exec (.movvg a d) s =
      .next ((cleared (movvNeed a d) s).finishG d (lowestPair (cleared (movvNeed a d) s).me a) false) := by
  rw [exec_movvg, execMovvg, guard_clear hc]; rfl

/-! Immediates of 5 bits (R90). -/

theorem toNat_setWidth_five (i : BitVec 5) : (i.setWidth 32 : Word).toNat = i.toNat := by
  rw [BitVec.toNat_setWidth, Nat.mod_eq_of_lt (by omega)]

theorem shlW_five (x : Word) (i : BitVec 5) : shlW x (i.setWidth 32) = x <<< i.toNat := by
  rw [shlW, toNat_setWidth_five, if_pos i.isLt]

theorem shrW_five (x : Word) (i : BitVec 5) : shrW x (i.setWidth 32) = x >>> i.toNat := by
  rw [shrW, toNat_setWidth_five, if_pos i.isLt]

theorem sraW_five (x : Word) (i : BitVec 5) : (sraW x (i.setWidth 32)).toInt = x.toInt / 2 ^ i.toNat := by
  rw [sraW, toNat_setWidth_five, Nat.min_eq_left (by omega), BitVec.toInt_sshiftRight, Int.shiftRight_eq_div_pow]; rfl

/-! Compares with an immediate (R90). -/

theorem icmpltW_signExtend (x : Word) (i : BitVec 10) :
    icmpltW x (i.signExtend 32) = if x.toInt < i.toInt then 1 else 0 := by
  simp only [icmpltW, bit32, BitVec.slt, decide_eq_true_eq, BitVec.toInt_signExtend_of_le (by decide : 10 ≤ 32)]

theorem icmpeqW_eq (x y : Word) : icmpeqW x y = if x = y then 1 else 0 := by
  simp only [icmpeqW, bit32, beq_iff_eq]

/-- Settles O6: each form by what its result is in a lane; RNG4 by N, and MOVVG by whether a lane is active. -/
theorem randomAndMoveResults : Obligations.RandomAndMoveResults := by
  unfold Obligations.RandomAndMoveResults
  refine ⟨⟨fun n b a d s hc => ?rngb, fun n b a d s hc => ?rngu, fun n b a d s hc => ?rng4⟩, laneOne_of exec_mov fun x => rfl,
    fun n a d s hc => ?movg, fun a d s hc => ?movvg, fun l a d s hc => ?movvgl,
    laneImmediate_of exec_iaddi fun x i => rfl, laneImmediate_of exec_andi fun x i => rfl,
    laneImmediate_of exec_ori fun x i => rfl, laneImmediate_of exec_xori fun x i => rfl,
    laneImmediate_of exec_shli shlW_five, laneImmediate_of exec_shri shrW_five, laneImmediate_of exec_srai sraW_five,
    laneImmediate_of exec_icmplti icmpltW_signExtend, laneImmediate_of exec_icmpeqi fun x i => icmpeqW_eq x _,
    laneImmediate_of exec_imuli fun x i => rfl,
    fun i d s hc => ?movi, fun i d s hc => ?movh, fun i d s hc => ?srd⟩
  case rngb =>
    refine answers_writeLane (by rw [exec_rngb, execRngb, rngElement, guard_clear hc]) (funext fun l => ?_)
    exact elementWord_eq _ a b l
  case rngu =>
    refine answers_writeLane (by rw [exec_rngu, execRngu, rngElement, guard_clear hc]) (funext fun l => ?_)
    rw [elementWord_eq]; rfl
  case rng4 =>
    refine ⟨fun hn => ?_, fun hn => ?_⟩ <;> subst hn
    · exact ⟨_, exec_rng4_span hc, span_effect _ d.toNat 4 _ false⟩
    · exact answers_writeLane (exec_rng4_latch hc) rfl
  case movg =>
    refine answers_writeLane (by rw [exec_movg, execMovg, guard_clear hc]) (funext fun _ => ?_)
    rw [Agent.g7, cleared_readG]
  case movvg =>
    refine ⟨_, exec_movvg_clear hc, _, finishG_effect _ d _ false, fun hem => lowestPair_none (by simpa using hem),
      fun l hl hm hlow => lowestPair_lane hl (by simpa using hm) (by simpa using hlow)⟩
  case movvgl =>
    have hexec : exec (.movvgl l a d) s = .next ((cleared (movvNeed a d) s).finishG d
        (if s.me.cur.em.getLsbD l.toNat = true then (cleared (movvNeed a d) s).me.pair a l.toNat else 0) false) := by
      rw [exec_movvgl, execMovvgl, guard_clear hc, cleared_em]
    exact ⟨_, hexec, finishG_effect _ d _ false⟩
  case movi => exact answers_writeLane (by rw [exec_movi, execMovi, guard_clear hc]) rfl
  case movh => exact answers_writeLane (by rw [exec_movh, execMovh, guard_clear hc]) rfl
  case srd =>
    have hi : i.toNat = 0 ↔ i = 0 := by rw [← BitVec.toNat_inj]; rfl
    refine answers_writeLane (by rw [exec_srd, execSrd, guard_clear hc]) (funext fun l => ?_)
    simp only [hi]

end Sys2Proof.Proofs
end

section
/-!
PROOF. The references of engine commands (R118, R122, R147), and what a copied or combined element becomes (R26, R154).
-/
namespace Sys2Proof.Proofs
open Sys2Proof.Machine Sys2Proof.Laws

/-! References to tiles (R122). -/

/-- The fields of a reference are its bits. -/
theorem refId_eq (g : DWord) : refId g = (g.extractLsb' 0 12).toNat := bitsOf_eq_extractLsb' g 0 12
theorem refRow_eq (g : DWord) : refRow g = (g.extractLsb' 12 20).toNat := bitsOf_eq_extractLsb' g 12 20
theorem refCol_eq (g : DWord) : refCol g = (g.extractLsb' 32 20).toNat := bitsOf_eq_extractLsb' g 32 20
theorem refI2_eq (g : DWord) : refI2 g = (g.extractLsb' 56 8).toNat := bitsOf_eq_extractLsb' g 56 8

/-- A reference with a set reserved bit, or one that transposes a record without a transposed read. -/
def BadRef (g : DWord) (r : BitVec 512) : Prop := g.extractLsb' 53 3 ≠ 0 ∨ (g.getLsbD 52 = true ∧ trTread r = false)

theorem badRef_iff (g : DWord) (r : BitVec 512) :
    BadRef g r ↔ bitsOf g 53 3 ≠ 0 ∨ (refT g ∧ !trTread r) := by
  have h : bitsOf g 53 3 ≠ 0 ↔ g.extractLsb' 53 3 ≠ 0 := by
    rw [bitsOf_eq_extractLsb', ne_eq, ne_eq, ← BitVec.toNat_inj]; rfl
  simp [BadRef, h, refT]

section
variable {c : Context} {g : DWord} {r : BitVec 512}

theorem tile_empty (h : c.tensor (g.extractLsb' 0 12).toNat = none) : c.tile g = .error .tensorId := by
  simp only [Context.tile, refId_eq, h]

theorem tile_badRef (h : c.tensor (g.extractLsb' 0 12).toNat = some r) (hb : BadRef g r) : c.tile g = .error .tensorId := by
  simp only [Context.tile, refId_eq, h]
  rw [if_pos ((badRef_iff g r).1 hb)]

theorem tile_beyond (h : c.tensor (g.extractLsb' 0 12).toNat = some r) (hb : ¬BadRef g r)
    (hx : trExt r 1 ≤ refRow g * trRows r ∨ trExt r 0 ≤ refCol g * trCols r ∨ trExt r 2 ≤ refI2 g) :
    c.tile g = .error .tensorExtent := by
  simp only [Context.tile, refId_eq, h]
  rw [if_neg (mt (badRef_iff g r).2 hb), if_pos hx]

theorem tile_within (h : c.tensor (g.extractLsb' 0 12).toNat = some r) (hb : ¬BadRef g r)
    (hx : ¬(trExt r 1 ≤ refRow g * trRows r ∨ trExt r 0 ≤ refCol g * trCols r ∨ trExt r 2 ≤ refI2 g)) :
    c.tile g = .ok ⟨r, refRow g, refCol g, refI2 g, refT g⟩ := by
  simp only [Context.tile, refId_eq, h]
  rw [if_neg (mt (badRef_iff g r).2 hb), if_neg hx]

end

/-! The bytes of an engine's operand in ODA space (R118). -/

section
variable {s : State} {e : Issuer} {addr : Nat}

theorem engineByte_error {cause : Cause} (h : s.odaByte e.agent addr = .error cause) (w : Bool) :
    s.engineByte e 0 addr w = (s, .miss (errStatus cause)) := by
  rw [State.engineByte, if_neg (by decide)]
  simp only [h]

theorem engineByte_loc {k : Nat} (h : s.odaByte e.agent addr = .ok (.loc k))
    (hd : e.agent.kind = .core → s.detClusterFault e.agent addr = false) (w : Bool) :
    s.engineByte e 0 addr w = (s, .loc k) := by
  have hok : (e.agent.kind == .core && s.detClusterFault e.agent addr) = false := by
    by_cases hk : e.agent.kind = .core
    · rw [hd hk, Bool.and_false]
    · rw [beq_eq_false_iff_ne.2 hk, Bool.false_and]
  rw [State.engineByte, if_neg (by decide)]
  simp only [h, hok, Bool.false_eq_true, if_false]

theorem engineByte_window {w off : Nat} (h : s.odaByte e.agent addr = .ok (.window w off)) (write : Bool) :
    s.engineByte e 0 addr write = (s, .win w off) := by
  rw [State.engineByte, if_neg (by decide)]
  simp only [h]

theorem engineRead_error {cause : Cause} (h : s.odaByte e.agent addr = .error cause) :
    s.engineRead e 0 addr = (s, 0, errStatus cause) := by
  simp only [State.engineRead, engineByte_error h]

theorem engineDest_error {cause : Cause} (h : s.odaByte e.agent addr = .error cause) :
    s.engineDest e 0 addr = (s, none, errStatus cause) := by
  simp only [State.engineDest, engineByte_error h]

theorem engineDest_loc {k : Nat} (h : s.odaByte e.agent addr = .ok (.loc k))
    (hd : e.agent.kind = .core → s.detClusterFault e.agent addr = false) : s.engineDest e 0 addr = (s, some k, 0) := by
  simp only [State.engineDest, engineByte_loc h hd]

theorem engineRead_loc {k : Nat} (h : s.odaByte e.agent addr = .ok (.loc k))
    (hd : e.agent.kind = .core → s.detClusterFault e.agent addr = false) (hl : s.replicaLocked e.die k = false)
    (hp : s.poison.contains (k / 16) = false) : s.engineRead e 0 addr = (s, s.readByte e.agent.unit k, 0) := by
  simp only [State.engineRead, engineByte_loc h hd, hl, hp, Bool.false_eq_true, if_false]

theorem engineDest_discard {w off : Nat} (h : s.odaByte e.agent addr = .ok (.window w off))
    (hw : genDiscard (Store.get 0 e.windows w) = true) : s.engineDest e 0 addr = (s, none, 0) := by
  simp only [State.engineDest, engineByte_window h, hw, if_true]

end

/-! What a copied element becomes (R26, R154). -/

theorem copyCode_same (f : Fmt) (c : Nat) : copyCode f f c = c := if_pos rfl

/-- Settles O25: handles and tile references by the checks of R122 and R147, bytes by what ODA space has at their address, and
elements by the formats of source and destination. -/
theorem engineReferences : Obligations.EngineReferences := by
  unfold Obligations.EngineReferences
  refine ⟨⟨fun s => if_pos rfl, fun s h b h0 hb => ?live, fun s h h0 hb => ?dead, fun c g => tile_empty, fun c g r h => ?tile,
      fun s e addr cause h => ⟨engineRead_error h, engineDest_error h⟩,
      fun s e addr k h hd => ⟨engineDest_loc h hd, engineRead_loc h hd⟩, fun s e addr w off => engineDest_discard⟩,
    copyCode_same, fun f c h => if_neg h, fun f c h => if_neg h, fun f c h => if_neg h, fun f c h => if_neg h,
    fun x y => ⟨rfl, rfl, rfl⟩, fun n => ⟨rfl, ?packed, rfl⟩⟩
  case live => rw [State.cmdHandle, if_neg h0, hb]
  case dead => rw [State.cmdHandle, if_neg h0, hb]
  case tile =>
    rw [← refRow_eq, ← refCol_eq, ← refI2_eq]
    exact ⟨tile_badRef h, fun hb => ⟨tile_beyond h hb, fun h1 h0 h2 => tile_within h hb (by omega)⟩⟩
  case packed =>
    show (4 * n + 3) / 4 * 3 = 3 * n
    omega

end Sys2Proof.Proofs
end

section
/-!
PROOF. What writes to memory, releases and acquires leave of the agents: all of them. Only the memory, the monitors, the launches
and units and what is sent to peers change.
-/
namespace Sys2Proof.Proofs
open Sys2Proof.Machine Sys2Proof.Laws

/-! Monitored lines (R169, R289). -/

@[simp] theorem mapMonitors_allAgents (s : State) (f : Nat → List Holder → List Holder) :
    (s.mapMonitors f).allAgents = s.allAgents := by
  unfold State.mapMonitors; split <;> rfl

@[simp] theorem mapMonitors_mem (s : State) (f : Nat → List Holder → List Holder) : (s.mapMonitors f).mem = s.mem := by
  unfold State.mapMonitors; split <;> rfl

@[simp] theorem holdLines_allAgents (s : State) (h : Holder) (ks : List Nat) : (s.holdLines h ks).allAgents = s.allAgents :=
  mapMonitors_allAgents s _

@[simp] theorem holdLines_mem (s : State) (h : Holder) (ks : List Nat) : (s.holdLines h ks).mem = s.mem := mapMonitors_mem s _

@[simp] theorem passHold_allAgents (s : State) (p : Holder → Bool) (h : Holder) : (s.passHold p h).allAgents = s.allAgents :=
  mapMonitors_allAgents s _

@[simp] theorem noteWrites_allAgents (s : State) (w : Writer) (cells : List (Nat × Byte)) :
    (s.noteWrites w cells).allAgents = s.allAgents := by
  unfold State.noteWrites; dsimp only; split <;> simp

@[simp] theorem noteWrites_mem (s : State) (w : Writer) (cells : List (Nat × Byte)) : (s.noteWrites w cells).mem = s.mem := by
  unfold State.noteWrites; dsimp only; split <;> simp

/-! Writes (R181, R340 to R342). -/

@[simp] theorem writeMemAs_allAgents (s : State) (w : Writer) (cells : List (Nat × Byte)) :
    (s.writeMemAs w cells).allAgents = s.allAgents := noteWrites_allAgents _ w cells

@[simp] theorem writeMemAs_mem (s : State) (w : Writer) (cells : List (Nat × Byte)) :
    (s.writeMemAs w cells).mem = Memory.writeAll s.mem cells := noteWrites_mem _ w cells

@[simp] theorem writeMem_allAgents (s : State) (cells : List (Nat × Byte)) : (s.writeMem cells).allAgents = s.allAgents :=
  writeMemAs_allAgents s deviceWriter cells

@[simp] theorem sendUnit_allAgents (s : State) (opc unit arg : Nat) (data : List Byte) (r : PeerRequest) :
    (s.sendUnit opc unit arg data r).allAgents = s.allAgents := by
  unfold State.sendUnit; split <;> rfl

@[simp] theorem sendWrites_allAgents (s : State) (ks : List Nat) (r : PeerRequest) :
    (s.sendWrites ks r).allAgents = s.allAgents :=
  foldl_keeps State.allAgents (fun s _ => sendUnit_allAgents s ..) _ s

theorem logExposures_allAgents (s : State) (l : Launch) (ws : List (Nat × Nat)) :
    (s.logExposures l ws).allAgents = s.allAgents := by
  induction ws generalizing s with
  | nil => rfl
  | cons w ws ih =>
    simp only [State.logExposures, ih]
    split
    · rfl
    · exact writeMem_allAgents s _

@[simp] theorem setLaunch_allAgents (s : State) (l : Launch) : (s.setLaunch l).allAgents = s.allAgents := rfl

@[simp] theorem setUnit_allAgents (s : State) (x : WorkUnit) : (s.setUnit x).allAgents = s.allAgents := rfl

theorem expose_allAgents (s : State) (l : Launch) : (s.expose l).allAgents = s.allAgents := by
  unfold State.expose
  split
  · rfl
  · rw [logExposures_allAgents]
    unfold State.sendOut
    dsimp only
    split
    · exact (sendWrites_allAgents _ _ _).trans (writeMemAs_allAgents _ _ _)
    · exact (sendWrites_allAgents _ _ _).trans (writeMemAs_allAgents _ _ _)

theorem plainWrite_allAgents (s : State) (l : Launch) (va : Option Nat) (cells : List (Nat × Byte)) :
    (s.plainWrite l va cells).allAgents = s.allAgents := by
  unfold State.plainWrite
  dsimp only
  split
  · rw [logExposures_allAgents, writeMemAs_allAgents]
  · exact writeMemAs_allAgents ..

theorem launchWrite_allAgents (s : State) (ctx : Nat) (id : Word) (va : Option Nat) (cells : List (Nat × Byte)) :
    (s.launchWrite ctx id va cells).allAgents = s.allAgents := by
  unfold State.launchWrite
  split
  · exact writeMemAs_allAgents ..
  · dsimp only
    split
    · rw [plainWrite_allAgents, setLaunch_allAgents]
    · split
      · rw [plainWrite_allAgents, expose_allAgents, setLaunch_allAgents]
      · rw [writeMemAs_allAgents, setLaunch_allAgents, setLaunch_allAgents]

@[simp] theorem writeCells_allAgents (s : State) (u : UnitKey) (cells : List (Nat × Byte)) :
    (s.writeCells u cells).allAgents = s.allAgents := by
  unfold State.writeCells State.writeVia
  split
  · split
    · rw [writeMem_allAgents, setUnit_allAgents]
    · exact launchWrite_allAgents ..
  · exact writeMem_allAgents ..

/-- A unit without a snapshot, whose launch is not replayable, writes memory itself. -/
theorem writeCells_mem {s : State} {u : UnitKey} (hs : s.snapOf u = none)
    (hl : ∀ l, s.launch u.ctx u.launch = some l → l.replay = none ∧ l.replayable = false) (cells : List (Nat × Byte)) :
    (s.writeCells u cells).mem = Memory.writeAll s.mem cells := by
  have launchWrite_mem : (s.launchWrite u.ctx u.launch none cells).mem = Memory.writeAll s.mem cells := by
    unfold State.launchWrite
    split
    · exact writeMemAs_mem ..
    · rename_i l h
      obtain ⟨hreplay, hplain⟩ := hl l h
      simp only [hreplay, State.plainWrite, hplain, Bool.false_and, Bool.false_eq_true, if_false]
      exact writeMemAs_mem ..
  unfold State.writeCells State.writeVia
  split
  · rename_i x hx
    have hsnap : x.snap = none := by simpa [State.snapOf, hx] using hs
    simp only [hsnap]
    exact launchWrite_mem
  · exact writeMemAs_mem ..

/-! Releases and acquires (R169, R202). -/

@[simp] theorem acquire_allAgents (s : State) (a : Agent) (c : BitVec 3) (ks : List Nat) :
    (s.acquire a c ks).allAgents = s.allAgents := passHold_allAgents s _ _

@[simp] theorem releaseAt_allAgents (s : State) (a : Agent) (c : BitVec 3) (ks : List Nat) :
    (s.releaseAt a c ks).allAgents = s.allAgents :=
  foldl_keeps State.allAgents (fun s _ => passHold_allAgents s _ _) _ s

@[simp] theorem releaseSys_allAgents (s : State) (h : Holder) : (s.releaseSys h).allAgents = s.allAgents := rfl

@[simp] theorem notePublish_allAgents (s : State) (a : Agent) (e : StoreEntry) : (s.notePublish a e).allAgents = s.allAgents := by
  unfold State.notePublish
  repeat' split
  all_goals rfl

/-- The order of an atomic changes no agent where its write changes none. -/
theorem atomicOrder_allAgents (s : State) (a : Agent) (c : BitVec 3) (ks : List Nat) {write : State → State}
    (h : ∀ t, (write t).allAgents = t.allAgents) : (s.atomicOrder a c ks write).allAgents = s.allAgents := by
  have hkeep : ∀ t : State, (t.keepPlaces ks write).allAgents = t.allAgents := fun t =>
    (mapMonitors_allAgents _ _).trans (h t)
  unfold State.atomicOrder
  dsimp only
  split <;> simp [hkeep]

/-! Agents by name. -/

theorem me_of_allAgents {s t : State} (h : t.allAgents = s.allAgents) : t.me = s.me := (List.cons.inj h).1

theorem agents_of_allAgents {s t : State} (h : t.allAgents = s.allAgents) : t.agents = s.agents := (List.cons.inj h).2

@[simp] theorem setAgent_mem (s : State) (a : Agent) : (s.setAgent a).mem = s.mem := by
  unfold State.setAgent; split <;> rfl

/-- An agent put in the place of the one of its name is the agent of that name. -/
theorem agent_setAgent_same {s : State} {a m : Agent} (h : s.agent a.who = some m) : (s.setAgent a).agent a.who = some a := by
  by_cases hme : s.me.who = a.who
  · simp [State.setAgent, State.agent, hme]
  · simp only [State.agent, if_neg hme] at h
    have hfirst : ∀ l : List Agent, l.find? (fun b => b.who == a.who) = some m →
        (l.map fun b => if b.who = a.who then a else b).find? (fun b => b.who == a.who) = some a := by
      intro l hl
      induction l with
      | nil => cases hl
      | cons b l ih =>
        by_cases hb : b.who = a.who
        · simp [hb]
        · rw [List.find?_cons_of_neg (by simpa using hb)] at hl
          rw [List.map_cons, if_neg hb, List.find?_cons_of_neg (by simpa using hb), ih hl]
    simp only [State.setAgent, State.agent, if_neg hme]
    exact hfirst _ h

end Sys2Proof.Proofs
end

section
/-!
PROOF. Atomics (R33, R136, R141, R142, R171): the new word of Table 4, one lane's access to its word, the lane form by whether
lanes are active and pass, and the atomic of a deterministic block that reaches its words at its latency.
-/
namespace Sys2Proof.Proofs
open Sys2Proof.Machine Sys2Proof.Laws

/-! Stores that perform (R135, R142). -/

/-- A store that performs changes its agent's queue and held arrivals alone. -/
theorem performOne_allAgents (s : State) {a : Agent} {e : StoreEntry} {r : List StoreEntry} (h : a.storeQ = e :: r) :
    (s.performOne a).allAgents = (s.setAgent { a with storeQ := r, arrivals := stepArrivals a.arrivals }).allAgents := by
  simp only [State.performOne, h]
  split <;> split <;> simp

theorem performOne_me_cur (s : State) : (s.performOne s.me).me.cur = s.me.cur := by
  cases h : s.me.storeQ with
  | nil => simp only [State.performOne, h]
  | cons e r => rw [me_of_allAgents (performOne_allAgents s h), State.setAgent, if_pos rfl]

theorem drainFrom_me_cur (n : Nat) (s : State) : (drainFrom n s).me.cur = s.me.cur := by
  induction n generalizing s with
  | zero => rfl
  | succ n ih =>
    rw [drainFrom]
    split
    · rw [ih, performOne_me_cur]
    · rfl

theorem drain_me_cur (s : State) : s.drain.me.cur = s.me.cur := drainFrom_me_cur _ s

/-! The new word (Table 4). -/

theorem imaxW_toInt (x y : Word) : (imaxW x y).toInt = max x.toInt y.toInt := by
  simp only [imaxW, BitVec.slt, decide_eq_true_eq]
  split <;> omega

theorem iminW_toInt (x y : Word) : (iminW x y).toInt = min x.toInt y.toInt := by
  simp only [iminW, BitVec.slt, decide_eq_true_eq]
  split <;> omega

/-! Little-endian words in memory (R1). -/

theorem mem_cellsAt {bs : List Byte} {k : Nat} {c : Nat × Byte} (h : c ∈ cellsAt k bs) : k ≤ c.1 ∧ c.1 < k + bs.length := by
  induction bs generalizing k with
  | nil => cases h
  | cons b bs ih =>
    rcases List.mem_cons.1 h with rfl | h
    · simp
    · obtain ⟨hlo, hhi⟩ := ih h
      rw [List.length_cons]
      omega

theorem read_cellsAt (m : Memory) (bs : List Byte) (k : Nat) {i : Nat} (hi : i < bs.length) :
    (m.writeAll (cellsAt k bs)).read (k + i) = bs[i] := by
  induction bs generalizing m k i with
  | nil => cases hi
  | cons b bs ih =>
    cases i with
    | zero => exact read_writeAll_last m [] _ k b fun c hc => by have := mem_cellsAt hc; omega
    | succ i =>
      rw [show k + (i + 1) = k + 1 + i by omega]
      exact ih (m.write k b) (k + 1) (by simpa using hi)

theorem read_cellsAt_other (m : Memory) {bs : List Byte} {k j : Nat} (h : j < k ∨ k + bs.length ≤ j) :
    (m.writeAll (cellsAt k bs)).read j = m.read j :=
  read_writeAll_other m fun c hc => by have := mem_cellsAt hc; omega

@[simp] theorem length_leBytes (n x : Nat) : (leBytes n x).length = n := by
  induction n generalizing x with
  | zero => rfl
  | succ n ih => rw [leBytes, List.length_cons, ih]

theorem getElem_leBytes (n x : Nat) {i : Nat} (hi : i < (leBytes n x).length) :
    (leBytes n x)[i] = BitVec.ofNat 8 (x / 256 ^ i) := by
  induction n generalizing x i with
  | zero => cases hi
  | succ n ih =>
    cases i with
    | zero => simp [leBytes, ← BitVec.toNat_inj]
    | succ i => simp [leBytes, ih, Nat.div_div_eq_div_mul, Nat.pow_succ, Nat.mul_comm]

/-- Byte i of a word in memory. -/
theorem getElem_leBytes_word (x : Word) {i : Nat} (hi : i < (leBytes 4 x.toNat).length) :
    (leBytes 4 x.toNat)[i] = x.extractLsb' (8 * i) 8 := by
  rw [getElem_leBytes, ← BitVec.toNat_inj, BitVec.toNat_ofNat, BitVec.extractLsb'_toNat, Nat.shiftRight_eq_div_pow, Nat.pow_mul]

/-! One lane (R33, R142). -/

/-- A unit that stages nothing and has no snapshot reads memory itself. -/
theorem readByte_mem {s : State} {u : UnitKey} (hs : s.snapOf u = none)
    (hl : ∀ l, s.launch u.ctx u.launch = some l → l.replay = none) (k : Nat) : s.readByte u k = Memory.read s.mem k := by
  have hstaged : ((s.launch u.ctx u.launch).bind fun l => stagedByte l k) = none := by
    cases h : s.launch u.ctx u.launch with
    | none => rfl
    | some l => simp [stagedByte, hl l h]
  simp only [State.readByte, hs, ite_self, hstaged, Option.getD_none]

/-- Where no bulk queue is in service, every write of a program takes effect. -/
theorem programCells_all {s : State} (h : ∀ x ∈ s.units, s.inService x = false) (a : Agent) (cells : List (Nat × Byte)) :
    s.programCells a cells = cells := by
  rw [State.programCells, if_neg]
  simpa using h

section
variable {s : State} {m : Agent} (op : AtomicOp) (k : Nat) (b c : Word)

/-- The old word that an atomic of a unit outside deterministic mode reads. -/
theorem atomicWord_old (hs : s.snapOf m.unit = none) (hl : ∀ l, s.launch m.unit.ctx m.unit.launch = some l → l.replay = none) :
    (s.atomicWord m op k b c).2 = BitVec.ofNat 32 (leNat ((List.range 4).map fun i => Memory.read s.mem (k + i))) := by
  have hread : s.readLE m.unit k 4 = leNat ((List.range 4).map fun i => Memory.read s.mem (k + i)) := by
    simp only [State.readLE, State.readKeys, List.map_map, Function.comp_def, readByte_mem hs hl]
  rw [← hread]
  unfold State.atomicWord
  dsimp only
  split <;> rfl

/-- The memory after it: the new word stands at its four bytes. -/
theorem atomicWord_mem (hd : m.env.det = false) (hs : s.snapOf m.unit = none)
    (hl : ∀ l, s.launch m.unit.ctx m.unit.launch = some l → l.replay = none ∧ l.replayable = false)
    (hq : ∀ x ∈ s.units, s.inService x = false) :
    (s.atomicWord m op k b c).1.mem =
      Memory.writeAll s.mem (cellsAt k (leBytes 4 (op.new (s.atomicWord m op k b c).2 b c).toNat)) := by
  have hregion : contribOf op (s.regionKind m.unit m.env.det m.place.die k) = none := by
    rw [State.regionKind, hd]; cases op <;> rfl
  simp only [State.atomicWord, hregion]
  rw [writeCells_mem hs hl, programCells_all hq]

end

/-- One lane's atomic of a unit outside deterministic mode: the old word, the four bytes of the new one, and every other byte. -/
theorem atomicWord_results {s : State} {m : Agent} (op : AtomicOp) (k : Nat) (b c : Word) (hd : m.env.det = false)
    (hs : s.snapOf m.unit = none)
    (hl : ∀ l, s.launch m.unit.ctx m.unit.launch = some l → l.replay = none ∧ l.replayable = false)
    (hq : ∀ x ∈ s.units, s.inService x = false) :
    let o := BitVec.ofNat 32 (leNat ((List.range 4).map fun i => Memory.read s.mem (k + i)))
    (s.atomicWord m op k b c).2 = o ∧
    (∀ i, i < 4 → Memory.read (s.atomicWord m op k b c).1.mem (k + i) = (op.new o b c).extractLsb' (8 * i) 8) ∧
    ∀ j, j < k ∨ k + 4 ≤ j → Memory.read (s.atomicWord m op k b c).1.mem j = Memory.read s.mem j := by
  intro o
  have hold : (s.atomicWord m op k b c).2 = o := atomicWord_old op k b c hs fun l h => (hl l h).1
  have hmem := atomicWord_mem op k b c hd hs hl hq
  rw [hold] at hmem
  refine ⟨hold, fun i hi => ?_, fun j hj => ?_⟩
  · rw [hmem, read_cellsAt _ _ _ (by simpa using hi), getElem_leBytes_word]
  · rw [hmem, read_cellsAt_other _ (by simpa using hj)]

/-! What an atomic leaves of the agents. -/

theorem contribute_allAgents (s : State) (u : UnitKey) (x : Contrib) (cells : List (Nat × Byte)) :
    (s.contribute u x cells).allAgents = s.allAgents := by
  unfold State.contribute
  split
  · split
    · exact writeCells_allAgents ..
    · split <;> rfl
  · rfl

theorem atomicWord_allAgents (s : State) (m : Agent) (op : AtomicOp) (k : Nat) (b c : Word) :
    (s.atomicWord m op k b c).1.allAgents = s.allAgents := by
  unfold State.atomicWord
  dsimp only
  split
  · exact contribute_allAgents ..
  · exact writeCells_allAgents ..

theorem atomicLanes_allAgents (s : State) (m : Agent) (op : AtomicOp) (work : List (Nat × Nat × Word × Word)) :
    (s.atomicLanes m op work).1.allAgents = s.allAgents := by
  induction work generalizing s with
  | nil => rfl
  | cons w work ih => exact (ih _).trans (atomicWord_allAgents ..)

theorem performAtomic_allAgents (s : State) (m : Agent) (op : AtomicOp) (c : BitVec 3) (work : List (Nat × Nat × Word × Word)) :
    (s.performAtomic m op c work).1.allAgents = s.allAgents :=
  atomicOrder_allAgents s m c _ fun t => (notePublish_allAgents _ _ _).trans (atomicLanes_allAgents t m op work)

/-! The lane form (R142). -/

/-- The old word that a lane has read, as it goes to v[D]. -/
def oldWord (xs : List (Nat × Nat)) (l : Nat) : Word := BitVec.ofNat 32 (((xs.find? fun x => x.1 == l).map (·.2)).getD 0)

theorem loadedLanes_zero (em : Word) (xs : List (Nat × Nat)) : loadedLanes em xs 0 = laneResult em (oldWord xs) := by
  simp only [loadedLanes, laneVal, Nat.mul_zero, Nat.pow_zero, Nat.div_one]
  rfl

theorem activeLanes_eq_nil {s : State} (h : s.me.cur.em = 0) : activeLanes s = [] := by
  simp [activeLanes, h]

theorem activeLanes_ne_nil {s : State} (h : s.me.cur.em ≠ 0) : activeLanes s ≠ [] := by
  intro hnil
  refine h (BitVec.eq_of_getLsbD_eq fun l hl => ?_)
  have : ¬s.me.cur.em.getLsbD l = true := by
    simpa using List.filter_eq_nil_iff.1 hnil l (List.mem_range.2 hl)
  simpa using this

section
variable {u : State} {op : AtomicOp} {c : BitVec 3} {f : BitVec 5} {a d : BitVec 7} {acc : Nat → Access}

theorem atomicCore_fails {e : LaneFault} (h : LaneFails u 4 0 a (fun ea bs => u.atomicFault u.me op ea bs) e) :
    u.atomicCore op c f a d = .next (laneTrap u e) := by
  simp only [State.atomicCore, lanes_fail h]

/-- With no active lane nothing is read, written or drained (R136). -/
theorem atomicCore_idle (hem : u.me.cur.em = 0) : u.atomicCore op c f a d =
    .next { u with me := (u.me.writeV d.toNat u.me.cur.em Lanes.zero).retire (some Lanes.zero) (u.me.nextPc 4) true } := by
  have hpass : LanesPass u 4 0 a (fun ea bs => u.atomicFault u.me op ea bs) fun _ => ⟨0, []⟩ := fun l _ hl => by
    simp [hem] at hl
  simp only [State.atomicCore, lanes_pass hpass, activeLanes_eq_nil hem, List.map_nil]

theorem drained_empty {s : State} (h : s.drain.me.storeQ = []) (k : State → Out) : s.drained k = k s.drain := by
  rw [State.drained, if_pos (by simp [h])]

theorem drained_waits {s : State} (h : s.drain.me.storeQ ≠ []) (k : State → Out) : s.drained k = .next s.drain := by
  rw [State.drained, if_neg (by simpa using h)]

/-- With active lanes that all pass their checks, the store queue drains before the words are read. -/
theorem atomicCore_active (hem : u.me.cur.em ≠ 0) (hpass : LanesPass u 4 0 a (fun ea bs => u.atomicFault u.me op ea bs) acc) :
    let work := u.me.atomicWork f.toNat ((activeLanes u).map fun l => (l, acc l))
    let v := u.drain
    let p := v.performAtomic v.me op c work
    let r := laneResult u.me.cur.em (oldWord p.2)
    (v.me.storeQ ≠ [] → u.atomicCore op c f a d = .next v) ∧
    (v.me.storeQ = [] → ∀ r, v.rotationOf v.me = some r →
      u.atomicCore op c f a d = .next (v.queueAtomic r op c d.toNat ((activeLanes u).map fun l => (acc l).ea) work)) ∧
    (v.me.storeQ = [] → v.rotationOf v.me = none →
      u.atomicCore op c f a d = .next { p.1 with
        me := (p.1.me.writeV d.toNat u.me.cur.em r).retire (some r) (p.1.me.nextPc 4) true }) := by
  have hne : (activeLanes u).map (fun l => (l, acc l)) ≠ [] := by simpa using activeLanes_ne_nil hem
  have hea : (activeLanes u).map (fun l => (acc l).ea) = ((activeLanes u).map fun l => (l, acc l)).map fun x => x.2.ea := by
    simp [Function.comp_def]
  rw [hea]
  simp only [State.atomicCore, lanes_pass hpass, ← loadedLanes_zero]
  generalize (activeLanes u).map (fun l => (l, acc l)) = xs at hne
  cases xs with
  | nil => exact absurd rfl hne
  | cons x xs =>
    refine ⟨fun hq => drained_waits hq _, fun hq r hrot => ?_, fun hq hrot => ?_⟩
    · simp only [drained_empty hq, hrot]
    · simp only [drained_empty hq, hrot]

end

/-- One lane register written in the active lanes, and a chain that ends. -/
theorem span_one_effect (s : State) (d : Nat) (r : Nat → Word) :
    SpanEffect s { s with
      me := (s.me.writeV d s.me.cur.em (laneResult s.me.cur.em r)).retire (some (laneResult s.me.cur.em r)) (s.me.nextPc 4) true }
      d 1 (fun _ => r) true :=
  span_effect s d 1 (fun _ => r) true

/-- What `Obligations.AtomicResults` asks of the lane form of an atomic. -/
def AtomicForm (i : BitVec 3 → BitVec 5 → BitVec 7 → BitVec 7 → Instr) (op : AtomicOp) : Prop :=
  ∀ c f a d s, s.me.kind = .core → Clear (atomicNeed op c f a d) s →
    let u := cleared (atomicNeed op c f a d) s
    let fault := fun ea bs => u.atomicFault u.me op ea bs
    (u.me.cur.em = 0 → Answers (i c f a d) s fun t => SpanEffect u t d.toNat 1 (fun _ _ => 0) true) ∧
    (u.me.cur.em ≠ 0 → ∀ acc, LanesPass u 4 0 a fault acc →
      let work := u.me.atomicWork f.toNat ((activeLanes u).map fun l => (l, acc l))
      let v := u.drain
      let p := v.performAtomic v.me op c work
      (v.me.storeQ = [] → v.rotationOf v.me = none → Answers (i c f a d) s fun t => SpanEffect p.1 t d.toNat 1
        (fun _ l => oldWord p.2 l) true) ∧
      (∀ r, v.me.storeQ = [] → v.rotationOf v.me = some r →
        exec (i c f a d) s = .next (v.queueAtomic r op c d.toNat ((activeLanes u).map fun l => (acc l).ea) work)) ∧
      (v.me.storeQ ≠ [] → exec (i c f a d) s = .next v)) ∧
    (∀ e, LaneFails u 4 0 a fault e → exec (i c f a d) s = .next (laneTrap u e))

/-- An instruction whose meaning is `atomic` has the lane form on a core. -/
theorem atomicForm_of {i : BitVec 3 → BitVec 5 → BitVec 7 → BitVec 7 → Instr} {op : AtomicOp}
    (h : ∀ c f a d s, exec (i c f a d) s = atomic op c f a d s) : AtomicForm i op := by
  intro c f a d s hk hc u fault
  have hexec : exec (i c f a d) s = u.atomicCore op c f a d := by
    rw [h, atomic, if_neg (fun hs => by rw [hk] at hs; exact absurd hs.1 (by decide)), guard_clear hc]
  refine ⟨fun hem => ?_, fun hem acc hpass => ?_, fun e hfail => hexec.trans (atomicCore_fails hfail)⟩
  · have hzero : Lanes.zero = laneResult u.me.cur.em fun _ => 0 := by
      simp only [Lanes.zero, laneResult, ite_self]
    refine ⟨_, hexec.trans (atomicCore_idle hem), ?_⟩
    rw [hzero]
    exact span_one_effect u d.toNat fun _ => 0
  · intro work v p
    obtain ⟨hwaits, hqueues, hperforms⟩ := atomicCore_active (c := c) (f := f) (d := d) hem hpass
    refine ⟨fun hq hrot => ⟨_, hexec.trans (hperforms hq hrot), ?_⟩, fun r hq hrot => hexec.trans (hqueues hq r hrot),
      fun hq => hexec.trans (hwaits hq)⟩
    have hcur : p.1.me.cur = u.me.cur :=
      (congrArg Agent.cur (me_of_allAgents (performAtomic_allAgents v v.me op c work))).trans (drain_me_cur u)
    rw [← hcur]
    exact span_one_effect p.1 d.toNat (oldWord p.2)

/-! An atomic of a deterministic block reaches its words (R136, R336, R337). -/

theorem performPending_agent {s : State} {m : Agent} {p : PendingAtomic} {r : List PendingAtomic}
    (hm : s.agent m.who = some m) (hp : m.atomics = p :: r) :
    let w := s.performAtomic m p.op p.scope p.lanes
    ∃ b, (s.performPending m).agent m.who = some b ∧ b.atomics = r ∧ (s.performPending m).mem = w.1.mem ∧
      ∀ l, l < 32 → (Store.get Lanes.zero b.v p.reg).at l =
        if p.mask.getLsbD l = true then oldWord w.2 l else (Store.get Lanes.zero m.v p.reg).at l := by
  intro w
  have hagents := performAtomic_allAgents s m p.op p.scope p.lanes
  have hw : w.1.agent m.who = some m := by
    rw [← hm]
    simp only [State.agent, me_of_allAgents hagents, agents_of_allAgents hagents, w]
  simp only [State.performPending, hp]
  refine ⟨_, agent_setAgent_same (a := { m with atomics := r, v := _, arrivals := _ }) hw, rfl, setAgent_mem _ _, fun l hl => ?_⟩
  rw [get_set_same, Lanes.merge, at_make, if_pos hl, loadedLanes_zero, laneResult, at_make, if_pos hl]
  split <;> rfl

/-- Settles O18: the lane form by whether lanes are active, pass and find the store queue drained; the word by Table 4 and what a
write of four bytes leaves; and the queued atomic by the agent it is put back in. -/
theorem atomicResults : Obligations.AtomicResults := by
  unfold Obligations.AtomicResults
  have forms : AtomicForm .atadd .add ∧ AtomicForm .atmax .max ∧ AtomicForm .atxch .xch ∧ AtomicForm .atcas .cas ∧
      AtomicForm .ator .or ∧ AtomicForm .atand .and ∧ AtomicForm .atfadd .fadd ∧ AtomicForm .atmin .min :=
    ⟨atomicForm_of exec_atadd, atomicForm_of exec_atmax, atomicForm_of exec_atxch, atomicForm_of exec_atcas,
      atomicForm_of exec_ator, atomicForm_of exec_atand, atomicForm_of exec_atfadd, atomicForm_of exec_atmin⟩
  exact ⟨forms, ⟨fun o b c => ⟨rfl, imaxW_toInt o b, rfl, rfl, rfl, rfl, rfl, iminW_toInt o b⟩,
    fun s m op k b c => atomicWord_results op k b c⟩, fun s m p r => performPending_agent⟩

end Sys2Proof.Proofs
end

section
/-!
PROOF. Rounding to nearest (R24): the order of the magnitude codes of a format is that of their values, a rounded magnitude lies
between the midpoints beside its code, and so rounding keeps the order.
-/
namespace Sys2Proof.Proofs
open Sys2Proof.Machine Sys2Proof.Laws

/-! Powers of two. -/

theorem pow2_eq_zpow (e : Int) : pow2 e = (2 : ℚ) ^ e := by
  unfold pow2
  split
  · obtain ⟨n, rfl⟩ : ∃ n : Nat, e = -n := ⟨e.natAbs, by omega⟩
    rw [Rat.mkRat_eq_div, zpow_neg, zpow_natCast]
    simp
  · obtain ⟨n, rfl⟩ : ∃ n : Nat, e = n := ⟨e.natAbs, by omega⟩
    simp

theorem pow2_pos (e : Int) : 0 < pow2 e := by rw [pow2_eq_zpow]; positivity

theorem pow2_add (a b : Int) : pow2 (a + b) = pow2 a * pow2 b := by
  simp only [pow2_eq_zpow, zpow_add₀ (two_ne_zero' ℚ)]

theorem pow2_succ (a : Int) : pow2 (a + 1) = 2 * pow2 a := by
  rw [pow2_add, mul_comm]; rfl

theorem pow2_natCast (n : Nat) : pow2 n = 2 ^ n := by rw [pow2_eq_zpow, zpow_natCast]

theorem pow2_le {a b : Int} (h : a ≤ b) : pow2 a ≤ pow2 b := by
  simp only [pow2_eq_zpow]
  exact zpow_le_zpow_right₀ one_le_two h

theorem pow2_lt {a b : Int} : pow2 a < pow2 b ↔ a < b := by
  simp only [pow2_eq_zpow]
  exact zpow_lt_zpow_iff_right₀ one_lt_two

/-- The floor of the binary logarithm. -/
theorem floorLog2_spec {x : ℚ} (hx : 0 < x) : pow2 (floorLog2 x) ≤ x ∧ x < pow2 (floorLog2 x + 1) := by
  have hn : x.num.natAbs ≠ 0 := by simpa using hx.ne'
  have hxd : x = (x.num.natAbs : ℚ) / (x.den : ℚ) := by
    rw [Nat.cast_natAbs, abs_of_pos (Rat.num_pos.2 hx)]
    exact (Rat.num_div_den x).symm
  have hden : (0 : ℚ) < x.den := by exact_mod_cast x.den_pos
  have num_lo : (2 : ℚ) ^ (Nat.log2 x.num.natAbs) ≤ x.num.natAbs := by exact_mod_cast Nat.log2_self_le hn
  have num_hi : (x.num.natAbs : ℚ) < 2 ^ (Nat.log2 x.num.natAbs + 1) := by exact_mod_cast Nat.lt_log2_self
  have den_lo : (2 : ℚ) ^ (Nat.log2 x.den) ≤ x.den := by exact_mod_cast Nat.log2_self_le x.den_ne_zero
  have den_hi : (x.den : ℚ) < 2 ^ (Nat.log2 x.den + 1) := by exact_mod_cast Nat.lt_log2_self
  have below : pow2 ((Nat.log2 x.num.natAbs : Int) - Nat.log2 x.den - 1) ≤ x := by
    refine le_of_le_of_eq ((le_div_iff₀ hden).2 ?_) hxd.symm
    calc pow2 ((Nat.log2 x.num.natAbs : Int) - Nat.log2 x.den - 1) * x.den
        ≤ pow2 ((Nat.log2 x.num.natAbs : Int) - Nat.log2 x.den - 1) * 2 ^ (Nat.log2 x.den + 1) :=
          mul_le_mul_of_nonneg_left den_hi.le (pow2_pos _).le
      _ = 2 ^ (Nat.log2 x.num.natAbs) := by
          rw [← pow2_natCast, ← pow2_natCast, ← pow2_add]; congr 1; push_cast; ring
      _ ≤ x.num.natAbs := num_lo
  have above : x < pow2 ((Nat.log2 x.num.natAbs : Int) - Nat.log2 x.den + 1) := by
    refine lt_of_eq_of_lt hxd ((div_lt_iff₀ hden).2 ?_)
    calc (x.num.natAbs : ℚ) < 2 ^ (Nat.log2 x.num.natAbs + 1) := num_hi
      _ = pow2 ((Nat.log2 x.num.natAbs : Int) - Nat.log2 x.den + 1) * 2 ^ (Nat.log2 x.den) := by
          rw [← pow2_natCast, ← pow2_natCast, ← pow2_add]; congr 1; push_cast; ring
      _ ≤ pow2 ((Nat.log2 x.num.natAbs : Int) - Nat.log2 x.den + 1) * x.den :=
          mul_le_mul_of_nonneg_left den_lo (pow2_pos _).le
  unfold floorLog2
  dsimp only
  split
  · exact ⟨‹_›, above⟩
  · exact ⟨below, by simpa using lt_of_not_ge ‹_›⟩

theorem floorLog2_eq {x : ℚ} {e : Int} (h1 : pow2 e ≤ x) (h2 : x < pow2 (e + 1)) : floorLog2 x = e := by
  obtain ⟨h3, h4⟩ := floorLog2_spec ((pow2_pos e).trans_le h1)
  have := pow2_lt.1 (h1.trans_lt h4)
  have := pow2_lt.1 (h3.trans_lt h2)
  omega

/-! The values of magnitude codes (R20). -/

section
variable {f : Fmt}

/-- Every code is an exponent `k` above the least and a significand `m`. -/
theorem exists_code (f : Fmt) (c : Nat) :
    ∃ k m, c = k * 2 ^ f.man + m ∧ m < 2 ^ (f.man + 1) ∧ (0 < k → 2 ^ f.man ≤ m) := by
  rcases Nat.lt_or_ge c (2 ^ f.man) with h | h
  · exact ⟨0, c, by omega, by rw [pow_succ]; omega, by omega⟩
  · have hdiv : 1 ≤ c / 2 ^ f.man := (Nat.one_le_div_iff (by positivity)).2 h
    have hmod := Nat.mod_lt c (show 0 < 2 ^ f.man by positivity)
    refine ⟨c / 2 ^ f.man - 1, 2 ^ f.man + c % 2 ^ f.man, ?_, by rw [pow_succ]; omega, by omega⟩
    have := Nat.div_add_mod c (2 ^ f.man)
    calc c = 2 ^ f.man * (c / 2 ^ f.man - 1 + 1) + c % 2 ^ f.man := by rw [Nat.sub_add_cancel hdiv]; exact this.symm
      _ = _ := by ring

theorem magOf_code (hf : f.isInt = false) {k m : Nat} (hm : m ≤ 2 ^ (f.man + 1)) (hk : 0 < k → 2 ^ f.man ≤ m) :
    f.magOf (k * 2 ^ f.man + m) = m * pow2 (f.qmin + k) := by
  have hpos : 0 < 2 ^ f.man := by positivity
  simp only [Fmt.magOf, hf, Bool.false_eq_true, if_false]
  rcases Nat.lt_or_ge m (2 ^ f.man) with h | h
  · obtain rfl : k = 0 := by by_contra hne; exact absurd (hk (Nat.pos_of_ne_zero hne)) (by omega)
    simp [h]
  · rw [if_neg (by nlinarith)]
    rcases Nat.lt_or_ge m (2 ^ (f.man + 1)) with h2 | h2
    · have hdiv : (k * 2 ^ f.man + m) / 2 ^ f.man = k + 1 := by
        rw [Nat.add_comm, Nat.add_mul_div_right _ _ hpos, Nat.div_eq_of_lt_le (k := 1) (by omega) (by rw [pow_succ] at h2; omega)]
        omega
      have hmod : (k * 2 ^ f.man + m) % 2 ^ f.man = m - 2 ^ f.man := by
        have := Nat.div_add_mod (k * 2 ^ f.man + m) (2 ^ f.man)
        rw [hdiv, Nat.mul_add, Nat.mul_comm (2 ^ f.man) k] at this
        omega
      rw [hdiv, hmod, Nat.add_sub_cancel' h]
      congr 2; push_cast; ring
    · obtain rfl : m = 2 ^ (f.man + 1) := by omega
      have hsum : k * 2 ^ f.man + 2 ^ (f.man + 1) = 2 ^ f.man * (k + 2) := by ring
      rw [hsum, Nat.mul_mod_right, Nat.mul_div_cancel_left _ hpos,
        show f.qmin + ((k + 2 : Nat) : Int) - 1 = f.qmin + k + 1 by push_cast; ring, pow2_succ]
      push_cast; ring

/-- Codes one apart: their values differ by a quantum. -/
theorem magOf_succ_code (hf : f.isInt = false) {k m : Nat} (hm : m < 2 ^ (f.man + 1)) (hk : 0 < k → 2 ^ f.man ≤ m) :
    f.magOf (k * 2 ^ f.man + m + 1) = (m + 1) * pow2 (f.qmin + k) := by
  have := magOf_code hf (k := k) (m := m + 1) hm fun h => (hk h).trans (Nat.le_succ m)
  rw [Nat.add_assoc, this]; push_cast; rfl

theorem magOf_strictMono (hf : f.isInt = false) : StrictMono f.magOf := by
  refine strictMono_nat_of_lt_succ fun c => ?_
  obtain ⟨k, m, rfl, hm, hk⟩ := exists_code f c
  rw [magOf_code hf hm.le hk, magOf_succ_code hf hm hk]
  exact mul_lt_mul_of_pos_right (lt_add_one _) (pow2_pos _)

theorem magOf_zero (hf : f.isInt = false) : f.magOf 0 = 0 := by
  have := magOf_code hf (k := 0) (m := 0) (Nat.zero_le _) (by simp)
  simpa using this

theorem magOf_nonneg (hf : f.isInt = false) (c : Nat) : 0 ≤ f.magOf c :=
  magOf_zero hf ▸ (magOf_strictMono hf).monotone (Nat.zero_le c)

/-- The midpoint between the values of a code and the next. -/
def codeMid (f : Fmt) (c : Nat) : ℚ := (f.magOf c + f.magOf (c + 1)) / 2

/-- A midpoint is an odd number of half quanta, 1 below the least value alone. -/
theorem codeMid_odd (hf : f.isInt = false) (c : Nat) :
    ∃ (M : Nat) (e : Int), codeMid f c = M * pow2 (e - 1) ∧ M % 2 = 1 ∧ M < 2 ^ (f.man + 2) ∧ f.qmin ≤ e ∧ (M = 1 → e = f.qmin) := by
  obtain ⟨k, m, rfl, hm, hk⟩ := exists_code f c
  have hmid : codeMid f (k * 2 ^ f.man + m) = ((2 * m + 1 : Nat) : ℚ) * pow2 (f.qmin + k - 1) := by
    have := pow2_succ (f.qmin + k - 1)
    rw [sub_add_cancel] at this
    rw [codeMid, magOf_code hf hm.le hk, magOf_succ_code hf hm hk, this]
    push_cast; ring
  refine ⟨2 * m + 1, f.qmin + k, hmid, by omega, by rw [pow_succ] at hm ⊢; rw [pow_succ]; omega, by omega, fun h => ?_⟩
  have : 0 < 2 ^ f.man := by positivity
  omega

theorem codeMid_lt (hf : f.isInt = false) (c : Nat) : codeMid f c < f.magOf (c + 1) := by
  have := magOf_strictMono hf (Nat.lt_succ_self c)
  rw [codeMid]; linarith

theorem lt_codeMid (hf : f.isInt = false) (c : Nat) : f.magOf c < codeMid f c := by
  have := magOf_strictMono hf (Nat.lt_succ_self c)
  rw [codeMid]; linarith

theorem codeMid_mono (hf : f.isInt = false) {c d : Nat} (h : c ≤ d) : codeMid f c ≤ codeMid f d := by
  have h1 := (magOf_strictMono hf).monotone h
  have h2 := (magOf_strictMono hf).monotone (Nat.succ_le_succ h)
  rw [codeMid, codeMid]; linarith

/-! Rounding to nearest (R24). -/

/-- A quotient is rounded by at most a half. -/
theorem roundQuotient_ne_bounds {q : ℚ} (hq : 0 ≤ q) :
    (roundQuotient .ne q : ℚ) - 1 / 2 ≤ q ∧ q ≤ roundQuotient .ne q + 1 / 2 := by
  have hfloor : ((q.floor.natAbs : Nat) : ℚ) = ((⌊q⌋ : Int) : ℚ) := by
    rw [Nat.cast_natAbs, abs_of_nonneg (show 0 ≤ q.floor from Int.floor_nonneg.2 hq)]; rfl
  have hlo := Int.floor_le q
  have hhi := Int.lt_floor_add_one q
  rw [← hfloor] at hlo hhi
  have half : mkRat 1 2 = 1 / 2 := Rat.mkRat_eq_div 1 2
  simp only [roundQuotient, half]
  split
  · rename_i h
    have : 1 / 2 ≤ q - (q.floor.natAbs : ℚ) := by
      simp only [Bool.or_eq_true, decide_eq_true_eq, Bool.and_eq_true, beq_iff_eq] at h
      rcases h with h | h
      · exact h.le
      · exact h.1.ge
    push_cast
    constructor <;> linarith
  · rename_i h
    have : q - (q.floor.natAbs : ℚ) ≤ 1 / 2 := by
      simp only [Bool.or_eq_true, decide_eq_true_eq, not_or, not_lt] at h
      exact h.1
    constructor <;> linarith

/-- The significand that a magnitude has at its quantum, the exponent of which is `k` above the least. -/
theorem quantum_spec (hf : f.isInt = false) {x : ℚ} (hx : 0 < x) :
    ∃ k : Nat, f.quantum x = f.qmin + k ∧ x / pow2 (f.quantum x) < 2 ^ (f.man + 1) ∧
      (0 < k → 2 ^ f.man ≤ x / pow2 (f.quantum x)) := by
  obtain ⟨hlo, hhi⟩ := floorLog2_spec hx
  have hq : f.quantum x = max (floorLog2 x - f.man) f.qmin := by rw [Fmt.quantum, hf]; rfl
  refine ⟨(f.quantum x - f.qmin).toNat, by omega, ?_, fun hk => ?_⟩
  · rw [div_lt_iff₀ (pow2_pos _), ← pow2_natCast, ← pow2_add]
    exact hhi.trans_le (pow2_le (by push_cast; omega))
  · rw [le_div_iff₀ (pow2_pos _), ← pow2_natCast, ← pow2_add]
    exact (pow2_le (by omega)).trans hlo

theorem roundCode_of_pos {x : ℚ} (hx : 0 < x) (mode : RoundMode) :
    f.roundCode mode x = (f.quantum x - f.qmin).natAbs * 2 ^ f.man + roundQuotient mode (x / pow2 (f.quantum x)) := by
  rw [Fmt.roundCode, if_neg hx.not_ge]

/-- A rounded code: an exponent `k` above the least, and a significand within a half of the exact one. -/
theorem roundCode_spec (hf : f.isInt = false) {x : ℚ} (hx : 0 < x) :
    ∃ k r, f.roundCode .ne x = k * 2 ^ f.man + r ∧ r ≤ 2 ^ (f.man + 1) ∧ (0 < k → 2 ^ f.man ≤ r) ∧
      (r - 1 / 2) * pow2 (f.qmin + k) ≤ x ∧ x ≤ (r + 1 / 2) * pow2 (f.qmin + k) ∧
      (0 < k → 2 ^ f.man * pow2 (f.qmin + k) ≤ x) := by
  obtain ⟨k, hq, hy, hk⟩ := quantum_spec hf hx
  have hcode := roundCode_of_pos (f := f) hx .ne
  rw [hq] at hcode hy hk
  rw [add_sub_cancel_left, Int.natAbs_natCast] at hcode
  have hpow := pow2_pos (f.qmin + k)
  obtain ⟨hlo, hhi⟩ := roundQuotient_ne_bounds (div_nonneg hx.le hpow.le)
  refine ⟨k, _, hcode, ?_, fun h0 => ?_, (le_div_iff₀ hpow).1 hlo, (div_le_iff₀ hpow).1 hhi, fun h0 => (le_div_iff₀ hpow).1 (hk h0)⟩
  · by_contra h
    have : ((2 ^ (f.man + 1) + 1 : Nat) : ℚ) ≤ roundQuotient .ne (x / pow2 (f.qmin + k)) := by exact_mod_cast Nat.lt_of_not_le h
    push_cast at this
    linarith
  · by_contra h
    have : (roundQuotient .ne (x / pow2 (f.qmin + k)) : ℚ) + 1 ≤ 2 ^ f.man := by exact_mod_cast Nat.lt_of_not_le h
    linarith [hk h0]

/-- The value above a code is a quantum or more beyond it. -/
theorem add_quantum_le_magOf_succ (hf : f.isInt = false) {k r : Nat} (hr : r ≤ 2 ^ (f.man + 1)) (hk : 0 < k → 2 ^ f.man ≤ r) :
    (r + 1) * pow2 (f.qmin + k) ≤ f.magOf (k * 2 ^ f.man + r + 1) := by
  rcases hr.lt_or_eq with h | rfl
  · rw [magOf_succ_code hf h hk]
  · have hsum : k * 2 ^ f.man + 2 ^ (f.man + 1) + 1 = (k + 1) * 2 ^ f.man + (2 ^ f.man + 1) := by ring
    have hm : 2 ^ f.man + 1 ≤ 2 ^ (f.man + 1) := by rw [pow_succ]; have := Nat.one_le_two_pow (n := f.man); omega
    have hq : pow2 (f.qmin + ((k + 1 : Nat) : Int)) = 2 * pow2 (f.qmin + k) := by rw [← pow2_succ]; congr 1; push_cast; ring
    rw [hsum, magOf_code hf hm (fun _ => by omega), hq]
    have := pow2_pos (f.qmin + k)
    push_cast
    rw [pow_succ]
    nlinarith

/-- A magnitude is at most the midpoint above its rounded code. -/
theorem le_codeMid_roundCode (hf : f.isInt = false) {x : ℚ} (hx : 0 < x) : x ≤ codeMid f (f.roundCode .ne x) := by
  obtain ⟨k, r, hcode, hr, hk, -, hhi, -⟩ := roundCode_spec hf hx
  have hnext := add_quantum_le_magOf_succ hf hr hk
  rw [hcode, codeMid, magOf_code hf hr hk]
  linarith

/-- A magnitude is at least the midpoint below its rounded code. -/
theorem codeMid_le_of_lt_roundCode (hf : f.isInt = false) {x : ℚ} (hx : 0 < x) {c : Nat} (hc : c < f.roundCode .ne x) :
    codeMid f c ≤ x := by
  obtain ⟨k, r, hcode, hr, hk, hlo, -, hbinade⟩ := roundCode_spec hf hx
  rw [hcode] at hc
  obtain ⟨p, hp⟩ : ∃ p, k * 2 ^ f.man + r = p + 1 := ⟨k * 2 ^ f.man + r - 1, by omega⟩
  refine (codeMid_mono hf (show c ≤ p by omega)).trans ?_
  by_cases hbottom : 0 < k ∧ r = 2 ^ f.man
  · obtain ⟨h0, hrk⟩ := hbottom
    refine (codeMid_lt hf p).le.trans ?_
    rw [← hp, magOf_code hf hr hk, hrk]
    push_cast
    exact hbinade h0
  · have hr0 : r ≠ 0 := by
      rintro rfl
      rcases Nat.eq_zero_or_pos k with rfl | h0
      · omega
      · exact absurd (hk h0) (by have := Nat.one_le_two_pow (n := f.man); omega)
    obtain ⟨m, rfl⟩ := Nat.exists_eq_succ_of_ne_zero hr0
    have hm : 0 < k → 2 ^ f.man ≤ m := fun h0 => by have := hk h0; omega
    obtain rfl : p = k * 2 ^ f.man + m := by omega
    rw [codeMid, magOf_code hf (by omega) hm, magOf_succ_code hf (by omega) hm]
    push_cast at hlo
    linarith

/-- Where two magnitudes round to codes in the other order, a midpoint lies between them. -/
theorem exists_midpoint (hf : f.isInt = false) {x y : ℚ} (hx : 0 < x) (hy : 0 < y)
    (h : f.roundCode .ne y < f.roundCode .ne x) :
    ∃ (M : Nat) (e : Int), M % 2 = 1 ∧ M < 2 ^ (f.man + 2) ∧ f.qmin ≤ e ∧ (M = 1 → e = f.qmin) ∧
      y ≤ M * pow2 (e - 1) ∧ M * pow2 (e - 1) ≤ x := by
  obtain ⟨M, e, hmid, hodd, hlt, he, hone⟩ := codeMid_odd hf (f.roundCode .ne y)
  exact ⟨M, e, hodd, hlt, he, hone, hmid ▸ le_codeMid_roundCode hf hy, hmid ▸ codeMid_le_of_lt_roundCode hf hx h⟩

/-- Rounding keeps the order. -/
theorem roundCode_mono (hf : f.isInt = false) {x y : ℚ} (h : x ≤ y) : f.roundCode .ne x ≤ f.roundCode .ne y := by
  rcases le_or_gt x 0 with hx | hx
  · rw [Fmt.roundCode, if_pos hx]; exact Nat.zero_le _
  by_contra hlt
  obtain ⟨M, e, -, -, -, -, hy, hx'⟩ := exists_midpoint hf hx (hx.trans_le h) (Nat.lt_of_not_le hlt)
  obtain rfl : x = y := le_antisymm h (hy.trans hx')
  exact hlt le_rfl

/-- A value of the format is rounded to itself. -/
theorem roundCode_magOf (hf : f.isInt = false) (c : Nat) : f.roundCode .ne (f.magOf c) = c := by
  rcases Nat.eq_zero_or_pos c with rfl | hc
  · rw [magOf_zero hf, Fmt.roundCode, if_pos le_rfl]
  have hx : 0 < f.magOf c := magOf_zero hf ▸ magOf_strictMono hf hc
  refine le_antisymm ?_ ?_
  · by_contra h
    exact absurd (codeMid_le_of_lt_roundCode hf hx (Nat.lt_of_not_le h)) (not_le.2 (lt_codeMid hf c))
  · exact Nat.lt_succ_iff.1 ((magOf_strictMono hf).lt_iff_lt.1 ((le_codeMid_roundCode hf hx).trans_lt (codeMid_lt hf _)))

end

end Sys2Proof.Proofs
end

section
/-!
PROOF. FP32 words (R19, R20): what a word decodes to, and what RoundNE gives: the order of magnitudes, overflow, underflow, and
the value that a rounded magnitude decodes to.
-/
namespace Sys2Proof.Proofs
open Sys2Proof.Machine Sys2Proof.Laws

theorem fp32_isInt : Fmt.isInt .fp32 = false := rfl
theorem fp32_qmin : Fmt.qmin .fp32 = -149 := rfl

/-! Special values. -/

@[simp] theorem toF32_nan (s : Bool) : toF32 (.nan s) = 0x7FC0_0000 := rfl

@[simp] theorem toF32_inf (s : Bool) : toF32 (.inf s) = if s then 0xFF80_0000 else 0x7F80_0000 := by
  cases s <;> rfl

@[simp] theorem toF32_zero (s : Bool) : toF32 (.num s 0) = if s then 0x8000_0000 else 0 := by
  cases s <;> rfl

/-! The value of a word. -/

/-- A code by its sign, its exponent and its mantissa. -/
theorem decodeNum_fp32 {c : Nat} (hc : c < 0x1_0000_0000) : decodeNum .fp32 c =
    if c % 0x8000_0000 / 0x80_0000 = 255 then
      if c % 0x80_0000 = 0 then .inf (c / 0x8000_0000 == 1) else .nan (c / 0x8000_0000 == 1)
    else .num (c / 0x8000_0000 == 1) (Fmt.magOf .fp32 (c % 0x8000_0000)) := by
  simp [decodeNum, Fmt.width, Fmt.exp, Fmt.man, Fmt.isInt, Fmt.hasInf, Nat.mod_eq_of_lt hc]

/-- Codes below that of infinity are magnitudes. -/
theorem decodeNum_signed {c : Nat} (hc : c < 0x7F80_0000) (s : Bool) :
    decodeNum .fp32 (Fmt.signed .fp32 s c) = .num s (Fmt.magOf .fp32 c) := by
  have hsign : Fmt.signed .fp32 s c = c + if s then 0x8000_0000 else 0 := by cases s <;> rfl
  have hneg : ((c + if s then 0x8000_0000 else 0) / 0x8000_0000 == 1) = s := by
    cases s <;> simp <;> omega
  have hmag : (c + if s then 0x8000_0000 else 0) % 0x8000_0000 = c := by split <;> omega
  rw [hsign, decodeNum_fp32 (by split <;> omega), hmag, hneg, if_neg (by omega)]

/-- A finite word is a magnitude code below that of infinity. -/
theorem f32_num {a : Word} {s : Bool} {x : ℚ} (h : f32 a = .num s x) : ∃ c < 0x7F80_0000, x = Fmt.magOf .fp32 c := by
  rw [f32, decodeNum_fp32 a.isLt] at h
  split at h
  · split at h <;> exact FVal.noConfusion h
  · exact ⟨_, by omega, (FVal.num.inj h).2.symm⟩

/-- A finite magnitude is a significand below 2^24 at an exponent from −149 to 104. -/
theorem f32_significand {a : Word} {s : Bool} {x : ℚ} (h : f32 a = .num s x) :
    ∃ (m : Nat) (g : Int), x = m * pow2 g ∧ m < 2 ^ 24 ∧ -149 ≤ g ∧ g ≤ 104 := by
  obtain ⟨c, hc, rfl⟩ := f32_num h
  obtain ⟨k, m, rfl, hm, hk⟩ := exists_code .fp32 c
  refine ⟨m, -149 + k, fp32_qmin ▸ magOf_code fp32_isInt hm.le hk, hm, by omega, ?_⟩
  by_contra hlt
  have := hk (by omega)
  simp only [Fmt.man] at hc this
  omega

theorem f32_nonneg {a : Word} {s : Bool} {x : ℚ} (h : f32 a = .num s x) : 0 ≤ x := by
  obtain ⟨c, -, rfl⟩ := f32_num h
  exact magOf_nonneg fp32_isInt c

theorem f32_bounds {a : Word} {s : Bool} {x : ℚ} (h : f32 a = .num s x) (h0 : x ≠ 0) : pow2 (-149) ≤ x ∧ x < pow2 128 := by
  obtain ⟨m, g, rfl, hm, hlo, hhi⟩ := f32_significand h
  have h1 : (1 : ℚ) ≤ m := by
    rcases Nat.eq_zero_or_pos m with rfl | h
    · simp at h0
    · exact_mod_cast h
  have h2 : (m : ℚ) < 2 ^ 24 := by exact_mod_cast hm
  refine ⟨(pow2_le hlo).trans ?_, ?_⟩
  · exact le_mul_of_one_le_left (pow2_pos g).le h1
  · calc (m : ℚ) * pow2 g < 2 ^ 24 * pow2 g := mul_lt_mul_of_pos_right h2 (pow2_pos g)
      _ = pow2 (24 + g) := by rw [pow2_add]; rfl
      _ ≤ pow2 128 := pow2_le (by omega)

/-! Rounding to a word. -/

theorem toNat_toF32 (x : ℚ) : (toF32 (.num false x)).toNat = min (Fmt.roundCode .fp32 .ne x) 0x7F80_0000 := by
  have h : roundIeee .fp32 .ne (.num false x) = min (Fmt.roundCode .fp32 .ne x) 0x7F80_0000 := rfl
  rw [toF32, h, BitVec.toNat_ofNat, Nat.mod_eq_of_lt]
  omega

theorem toF32_mono {x y : ℚ} (h : x ≤ y) : (toF32 (.num false x)).toNat ≤ (toF32 (.num false y)).toNat := by
  have := roundCode_mono fp32_isInt h
  rw [toNat_toF32, toNat_toF32]
  omega

/-- Where two positive magnitudes round in the other order, half an odd multiple of a power of two lies between them. -/
theorem toF32_le_or_midpoint {x y : ℚ} (hx : 0 < x) (hy : 0 < y) :
    (toF32 (.num false x)).toNat ≤ (toF32 (.num false y)).toNat ∨
    ∃ (M : Nat) (e : Int), M % 2 = 1 ∧ M < 2 ^ 25 ∧ -149 ≤ e ∧ (M = 1 → e = -149) ∧
      y ≤ M * pow2 (e - 1) ∧ M * pow2 (e - 1) ≤ x := by
  rcases Nat.lt_or_ge (Fmt.roundCode .fp32 .ne y) (Fmt.roundCode .fp32 .ne x) with h | h
  · exact .inr (exists_midpoint fp32_isInt hx hy h)
  · refine .inl ?_
    rw [toNat_toF32, toNat_toF32]
    omega

theorem magOf_infinity : Fmt.magOf .fp32 0x7F80_0000 = pow2 128 := by decide +kernel

/-- A magnitude of 2^128 or more is rounded to infinity. -/
theorem toF32_overflow {x : ℚ} (h : pow2 128 ≤ x) (s : Bool) : toF32 (.num s x) = if s then 0xFF80_0000 else 0x7F80_0000 := by
  have hcode : 0x7F80_0000 ≤ Fmt.roundCode .fp32 .ne x := by
    have := roundCode_mono fp32_isInt h
    rwa [← magOf_infinity, roundCode_magOf fp32_isInt] at this
  have hmin : min (Fmt.roundCode .fp32 .ne x) (Fmt.maxCode .fp32 + 1) = 0x7F80_0000 := Nat.min_eq_right hcode
  rw [toF32, roundIeee, hmin]
  cases s <;> rfl

theorem codeMid_zero : codeMid .fp32 0 = pow2 (-150) := by decide +kernel

/-- A magnitude below 2^−150 is rounded to zero. -/
theorem toF32_underflow {x : ℚ} (hx : 0 < x) (h : x < pow2 (-150)) (s : Bool) :
    toF32 (.num s x) = if s then 0x8000_0000 else 0 := by
  have hcode : Fmt.roundCode .fp32 .ne x = 0 := by
    by_contra hne
    have := codeMid_le_of_lt_roundCode fp32_isInt hx (Nat.pos_of_ne_zero hne)
    rw [codeMid_zero] at this
    linarith
  rw [toF32, roundIeee, hcode]
  cases s <;> rfl

/-- What a rounded magnitude decodes to. -/
theorem f32_toF32 {x : ℚ} (h : x < pow2 127) (s : Bool) :
    f32 (toF32 (.num s x)) = .num s (Fmt.magOf .fp32 (Fmt.roundCode .fp32 .ne x)) := by
  have hcode : Fmt.roundCode .fp32 .ne x < 0x7F80_0000 := by
    have hval : Fmt.magOf .fp32 0x7F00_0000 = pow2 127 := by decide +kernel
    have := roundCode_mono fp32_isInt h.le
    rw [← hval, roundCode_magOf fp32_isInt] at this
    omega
  have hsigned : roundIeee .fp32 .ne (.num s x) = Fmt.signed .fp32 s (Fmt.roundCode .fp32 .ne x) := by
    rw [roundIeee, Nat.min_eq_left (by simp only [Fmt.maxCode]; omega)]
  have hlt : Fmt.signed .fp32 s (Fmt.roundCode .fp32 .ne x) < 2 ^ 32 := by
    cases s <;> simp only [Fmt.signed, Fmt.width, Fmt.exp, Fmt.man] <;> norm_num <;> omega
  rw [f32, toF32, hsigned, BitVec.toNat_ofNat, Nat.mod_eq_of_lt hlt, decodeNum_signed hcode]

/-! A rational rounded to a word and read again. -/

/-- The value of the word that a rational is rounded to. -/
def roundedValue (y : ℚ) : ℚ := (f32 (toF32 (FVal.ofRat y false))).toRat

section
variable {y z : ℚ}

theorem roundedValue_nonneg (h0 : 0 ≤ y) (h : y < pow2 127) :
    roundedValue y = Fmt.magOf .fp32 (Fmt.roundCode .fp32 .ne y) := by
  have hof : FVal.ofRat y false = .num false y := by
    rcases h0.eq_or_lt with rfl | h0
    · rfl
    · simp [FVal.ofRat, h0.ne', not_lt.2 h0.le]
  rw [roundedValue, hof, f32_toF32 h]; rfl

theorem roundedValue_neg (h0 : y < 0) (h : -y < pow2 127) :
    roundedValue y = -Fmt.magOf .fp32 (Fmt.roundCode .fp32 .ne (-y)) := by
  have hof : FVal.ofRat y false = .num true (-y) := by simp [FVal.ofRat, h0.ne, h0]
  rw [roundedValue, hof, f32_toF32 h]; rfl

/-- Rounding does not pass a value of the format: from above … -/
theorem le_roundedValue (hy : |y| < pow2 127) {c : Nat} (hz : |z| = Fmt.magOf .fp32 c) (h : z ≤ y) : z ≤ roundedValue y := by
  obtain ⟨hlo, hhi⟩ := abs_lt.1 hy
  rcases le_or_gt 0 y with h0 | h0
  · rw [roundedValue_nonneg h0 hhi]
    rcases le_or_gt z 0 with hz0 | hz0
    · exact hz0.trans (magOf_nonneg fp32_isInt _)
    · rw [abs_of_pos hz0] at hz
      have := roundCode_mono fp32_isInt h
      rw [hz, roundCode_magOf fp32_isInt] at this
      exact hz ▸ (magOf_strictMono fp32_isInt).monotone this
  · rw [roundedValue_neg h0 (by linarith)]
    rw [abs_of_neg (h.trans_lt h0)] at hz
    have := roundCode_mono fp32_isInt (neg_le_neg h)
    rw [hz, roundCode_magOf fp32_isInt] at this
    have := (magOf_strictMono fp32_isInt).monotone this
    linarith

/-- … and from below. -/
theorem roundedValue_le (hy : |y| < pow2 127) {c : Nat} (hz : |z| = Fmt.magOf .fp32 c) (h : y ≤ z) : roundedValue y ≤ z := by
  rcases eq_or_ne y 0 with rfl | h0
  · have hzero : roundedValue 0 = 0 := by decide +kernel
    rwa [hzero]
  have hneg : roundedValue (-y) = -roundedValue y := by
    obtain ⟨hlo, hhi⟩ := abs_lt.1 hy
    rcases lt_or_gt_of_ne h0 with h0 | h0
    · rw [roundedValue_neg h0 (by linarith), roundedValue_nonneg (by linarith) (by linarith), neg_neg]
    · rw [roundedValue_nonneg h0.le hhi, roundedValue_neg (by linarith) (by linarith), neg_neg]
  have := le_roundedValue (y := -y) (z := -z) (by rwa [abs_neg]) (by rwa [abs_neg]) (neg_le_neg h)
  linarith

end

end Sys2Proof.Proofs
end

section
/-!
PROOF. The series of the transcendentals (R76): how far the model's sums in units of 2^−256, each term of which is rounded down,
stand below the exponential and the logarithm.
-/
namespace Sys2Proof.Proofs
open Sys2Proof.Machine Sys2Proof.Laws

/-! Quotients rounded down. -/

theorem cast_div_bounds (a : Nat) {b : Nat} (hb : 0 < b) : ((a / b : Nat) : ℝ) ≤ a / b ∧ (a : ℝ) / b ≤ (a / b : Nat) + 1 := by
  refine ⟨Nat.cast_div_le, ?_⟩
  rw [div_le_iff₀ (by exact_mod_cast hb)]
  have := (Nat.lt_mul_div_succ a hb).le
  rw [Nat.mul_comm] at this
  exact_mod_cast this

/-! The exponential. -/

section
variable {t : Nat} {θ : ℝ}

/-- A sum of `expSeries` and the exact sum, where the term before it is at most 4 units too small. -/
theorem expSeries_bounds (hθ : θ = t / 2 ^ 256) (hle : θ ≤ 3 / 4) (n k term : Nat)
    (hlo : (term : ℝ) ≤ 2 ^ 256 * (θ ^ k / k.factorial)) (hhi : 2 ^ 256 * (θ ^ k / k.factorial) ≤ term + 4) :
    (expSeries t n (k + 1) term : ℝ) ≤ 2 ^ 256 * ∑ i ∈ Finset.range n, θ ^ (k + 1 + i) / (k + 1 + i).factorial ∧
    2 ^ 256 * ∑ i ∈ Finset.range n, θ ^ (k + 1 + i) / (k + 1 + i).factorial ≤ expSeries t n (k + 1) term + 4 * n := by
  induction n generalizing k term with
  | zero => simp [expSeries]
  | succ n ih =>
    have h0 : 0 ≤ θ := by rw [hθ]; positivity
    have hk : (1 : ℝ) ≤ k + 1 := by linarith [(Nat.cast_nonneg k : (0 : ℝ) ≤ k)]
    obtain ⟨next, hnext⟩ : ∃ next, next = term * t / 2 ^ 256 / (k + 1) := ⟨_, rfl⟩
    have hfloor := cast_div_bounds (term * t) (b := 2 ^ 256 * (k + 1)) (by positivity)
    have hexact : 2 ^ 256 * (θ ^ (k + 1) / (k + 1).factorial) = 2 ^ 256 * (θ ^ k / k.factorial) * (θ / (k + 1)) := by
      rw [Nat.factorial_succ]; push_cast; field_simp; ring
    have hquot : ((term * t : Nat) : ℝ) / (2 ^ 256 * (k + 1) : Nat) = term * (θ / (k + 1)) := by
      rw [hθ]; push_cast; field_simp; norm_num
    rw [← Nat.div_div_eq_div_mul, ← hnext, hquot] at hfloor
    have hratio0 : 0 ≤ θ / (k + 1) := by positivity
    have hratio : θ / (k + 1) ≤ 3 / 4 := (div_le_self h0 hk).trans hle
    obtain ⟨hsum_lo, hsum_hi⟩ := ih (k + 1) next
      (by rw [hexact]; exact hfloor.1.trans (mul_le_mul_of_nonneg_right hlo hratio0)) (by rw [hexact]; nlinarith)
    have hsplit : ∑ i ∈ Finset.range (n + 1), θ ^ (k + 1 + i) / (k + 1 + i).factorial =
        θ ^ (k + 1) / (k + 1).factorial + ∑ i ∈ Finset.range n, θ ^ (k + 1 + 1 + i) / (k + 1 + 1 + i).factorial := by
      rw [Finset.sum_range_succ', add_comm]
      simp only [Nat.add_zero, Nat.add_assoc, Nat.add_comm 1]
    have hseries : (expSeries t (n + 1) (k + 1) term : ℝ) = next + expSeries t n (k + 1 + 1) next := by
      rw [hnext]; exact_mod_cast rfl
    rw [hsplit, hseries, mul_add, hexact]
    push_cast
    constructor
    · have := mul_le_mul_of_nonneg_right hlo hratio0
      linarith [hfloor.1]
    · nlinarith [hfloor.2]

/-- The model's exponential of θ, in units of 2^−256. -/
theorem expSeries_exp (hθ : θ = t / 2 ^ 256) (hle : θ ≤ 3 / 4) :
    ((2 ^ 256 + expSeries t 64 1 (2 ^ 256) : Nat) : ℝ) ≤ 2 ^ 256 * Real.exp θ ∧
    2 ^ 256 * Real.exp θ ≤ ((2 ^ 256 + expSeries t 64 1 (2 ^ 256) : Nat) : ℝ) + 257 := by
  have h0 : 0 ≤ θ := by rw [hθ]; positivity
  obtain ⟨hlo, hhi⟩ := expSeries_bounds hθ hle 64 0 (2 ^ 256) (by norm_num) (by norm_num)
  have hsplit : ∑ i ∈ Finset.range 65, θ ^ i / i.factorial =
      1 + ∑ i ∈ Finset.range 64, θ ^ (0 + 1 + i) / (0 + 1 + i).factorial := by
    rw [Finset.sum_range_succ', add_comm]
    simp only [Nat.zero_add, Nat.add_comm 1, pow_zero, Nat.factorial_zero, Nat.cast_one, div_one]
  have hbelow := Real.sum_le_exp_of_nonneg h0 65
  have habove := Real.exp_bound' h0 (by linarith) (n := 65) (by norm_num)
  have htail : θ ^ 65 * ((65 : Nat) + 1) / ((Nat.factorial 65 : ℝ) * (65 : Nat)) ≤ 1 / 2 ^ 256 := by
    have hpow : θ ^ 65 ≤ 1 := pow_le_one₀ h0 (by linarith)
    have hconst : (((65 : Nat) : ℝ) + 1) / ((Nat.factorial 65 : ℝ) * (65 : Nat)) ≤ 1 / 2 ^ 256 := by
      norm_num [Nat.factorial]
    rw [mul_div_assoc]
    exact (mul_le_of_le_one_left (by positivity) hpow).trans hconst
  rw [hsplit] at hbelow habove
  push_cast at hlo hhi ⊢
  constructor <;> nlinarith

end

/-! The logarithm. -/

section
variable {ζ : ℝ} {z2 : Nat}

/-- A sum of `atanhSeries` and the exact sum, where the power before it is at most 4 units too small. -/
theorem atanhSeries_bounds (h0 : 0 ≤ ζ) (h3 : ζ ≤ 1 / 3) (hzlo : (z2 : ℝ) ≤ 2 ^ 256 * ζ ^ 2)
    (hzhi : 2 ^ 256 * ζ ^ 2 ≤ z2 + 2) (n k pw : Nat) (hlo : (pw : ℝ) ≤ 2 ^ 256 * ζ ^ (2 * k + 1))
    (hhi : 2 ^ 256 * ζ ^ (2 * k + 1) ≤ pw + 4) :
    (atanhSeries z2 n k pw : ℝ) ≤ 2 ^ 256 * ∑ i ∈ Finset.range n, ζ ^ (2 * (k + i) + 1) / (2 * ((k + i : Nat) : ℝ) + 1) ∧
    2 ^ 256 * ∑ i ∈ Finset.range n, ζ ^ (2 * (k + i) + 1) / (2 * ((k + i : Nat) : ℝ) + 1) ≤ atanhSeries z2 n k pw + 5 * n := by
  induction n generalizing k pw with
  | zero => simp [atanhSeries]
  | succ n ih =>
    have hterm := cast_div_bounds pw (b := 2 * k + 1) (by omega)
    have hnext := cast_div_bounds (pw * z2) (b := 2 ^ 256) (by positivity)
    push_cast at hterm hnext
    have hpow : 2 ^ 256 * ζ ^ (2 * (k + 1) + 1) = 2 ^ 256 * ζ ^ (2 * k + 1) * ζ ^ 2 := by ring
    have hpw : (pw : ℝ) ≤ 2 ^ 256 :=
      hlo.trans (mul_le_of_le_one_right (by positivity) (pow_le_one₀ h0 (by linarith)))
    have hsq : ζ ^ 2 ≤ 1 / 9 := by nlinarith
    have hpw0 : (0 : ℝ) ≤ pw := Nat.cast_nonneg pw
    have hnext_lo : ((pw * z2 / 2 ^ 256 : Nat) : ℝ) ≤ 2 ^ 256 * ζ ^ (2 * (k + 1) + 1) := by
      rw [hpow]
      refine hnext.1.trans ?_
      rw [div_le_iff₀ (by positivity)]
      have hprod := mul_le_mul hlo hzlo (Nat.cast_nonneg z2) (mul_nonneg (by norm_num) (pow_nonneg h0 _))
      linarith
    have hnext_hi : 2 ^ 256 * ζ ^ (2 * (k + 1) + 1) ≤ ((pw * z2 / 2 ^ 256 : Nat) : ℝ) + 4 := by
      have hprod : (pw : ℝ) * ζ ^ 2 ≤ pw * z2 / 2 ^ 256 + 2 := by
        rw [← sub_le_iff_le_add, le_div_iff₀ (by positivity)]
        nlinarith [mul_le_mul_of_nonneg_left hzhi hpw0]
      rw [hpow]
      nlinarith [hnext.2, mul_le_mul_of_nonneg_right hhi (sq_nonneg ζ)]
    obtain ⟨hsum_lo, hsum_hi⟩ := ih (k + 1) (pw * z2 / 2 ^ 256) hnext_lo hnext_hi
    have hsplit : ∑ i ∈ Finset.range (n + 1), ζ ^ (2 * (k + i) + 1) / (2 * ((k + i : Nat) : ℝ) + 1) =
        ζ ^ (2 * k + 1) / (2 * (k : ℝ) + 1) +
          ∑ i ∈ Finset.range n, ζ ^ (2 * (k + 1 + i) + 1) / (2 * ((k + 1 + i : Nat) : ℝ) + 1) := by
      rw [Finset.sum_range_succ', add_comm]
      simp only [Nat.add_zero, Nat.add_assoc, Nat.add_comm 1]
    have hseries : (atanhSeries z2 (n + 1) k pw : ℝ) =
        (pw / (2 * k + 1) : Nat) + atanhSeries z2 n (k + 1) (pw * z2 / 2 ^ 256) := by
      exact_mod_cast rfl
    have hk : (1 : ℝ) ≤ 2 * k + 1 := by linarith [(Nat.cast_nonneg k : (0 : ℝ) ≤ k)]
    rw [hsplit, hseries, mul_add, ← mul_div_assoc]
    push_cast at hsum_lo hsum_hi ⊢
    constructor
    · have := div_le_div_of_nonneg_right hlo (by linarith : (0 : ℝ) ≤ 2 * k + 1)
      linarith [hterm.1]
    · have h1 := div_le_div_of_nonneg_right hhi (by linarith : (0 : ℝ) ≤ 2 * k + 1)
      have h2 : (4 : ℝ) / (2 * k + 1) ≤ 4 := div_le_self (by norm_num) hk
      rw [add_div] at h1
      linarith [hterm.2]

end

/-- The model's half logarithm of (1 + ζ)/(1 − ζ), in units of 2^−256, for ζ rounded down to `z`. -/
theorem atanhSeries_log {ζ : ℝ} {z : Nat} (h0 : 0 ≤ ζ) (h3 : ζ ≤ 1 / 3) (hlo : (z : ℝ) ≤ 2 ^ 256 * ζ)
    (hhi : 2 ^ 256 * ζ ≤ z + 1) :
    (atanhSeries (z * z / 2 ^ 256) 90 0 z : ℝ) ≤ 2 ^ 256 * (1 / 2 * Real.log ((1 + ζ) / (1 - ζ))) ∧
    2 ^ 256 * (1 / 2 * Real.log ((1 + ζ) / (1 - ζ))) ≤ atanhSeries (z * z / 2 ^ 256) 90 0 z + 451 := by
  have hz0 : (0 : ℝ) ≤ z := Nat.cast_nonneg z
  obtain ⟨hsq_lo, hsq_hi⟩ := cast_div_bounds (z * z) (b := 2 ^ 256) (by positivity)
  push_cast at hsq_lo hsq_hi
  have hsq1 : ((z * z / 2 ^ 256 : Nat) : ℝ) ≤ 2 ^ 256 * ζ ^ 2 := by
    refine hsq_lo.trans ?_
    rw [div_le_iff₀ (by positivity)]
    nlinarith [mul_le_mul hlo hlo hz0 (by positivity)]
  have hsq2 : 2 ^ 256 * ζ ^ 2 ≤ ((z * z / 2 ^ 256 : Nat) : ℝ) + 2 := by
    have : 2 ^ 256 * ζ ^ 2 ≤ (z : ℝ) * z / 2 ^ 256 + 1 := by
      rw [← sub_le_iff_le_add, le_div_iff₀ (by positivity)]
      nlinarith [mul_le_mul hhi hhi (by positivity) (by positivity)]
    linarith
  obtain ⟨hs1, hs2⟩ := atanhSeries_bounds h0 h3 hsq1 hsq2 90 0 z (by simpa using hlo) (by simpa using hhi.trans (by linarith))
  simp only [Nat.zero_add] at hs1 hs2
  have hbelow := Real.sum_range_le_log_div h0 (by linarith) 90
  have habove := Real.log_div_le_sum_range_add h0 (by linarith) 90
  have htail : ζ ^ (2 * 90 + 1) / (1 - ζ ^ 2) ≤ 1 / 2 ^ 256 := by
    have hnum : ζ ^ (2 * 90 + 1) ≤ (1 / 3) ^ 181 := pow_le_pow_left₀ h0 h3 181
    have hden : (8 / 9 : ℝ) ≤ 1 - ζ ^ 2 := by nlinarith
    calc ζ ^ (2 * 90 + 1) / (1 - ζ ^ 2) ≤ (1 / 3) ^ 181 / (8 / 9) := div_le_div₀ (by positivity) hnum (by norm_num) hden
      _ ≤ 1 / 2 ^ 256 := by norm_num
  push_cast at hs2
  constructor <;> nlinarith

/-! The constant ln 2. -/

theorem ln2Scaled_series :
    2 * atanhSeries (2 ^ 256 / 3 * (2 ^ 256 / 3) / 2 ^ 256) 90 0 (2 ^ 256 / 3) ≤ ln2Scaled ∧
    ln2Scaled ≤ 2 * atanhSeries (2 ^ 256 / 3 * (2 ^ 256 / 3) / 2 ^ 256) 90 0 (2 ^ 256 / 3) + 98 := by
  decide +kernel

/-- The model's ln 2 is right to 1000 units of 2^−256. -/
theorem ln2Scaled_log : (ln2Scaled : ℝ) ≤ 2 ^ 256 * Real.log 2 + 98 ∧ 2 ^ 256 * Real.log 2 ≤ ln2Scaled + 902 := by
  have hz := cast_div_bounds (2 ^ 256) (b := 3) (by norm_num)
  obtain ⟨h1, h2⟩ := atanhSeries_log (ζ := 1 / 3) (z := 2 ^ 256 / 3) (by norm_num) le_rfl
    (by have := hz.1; push_cast at this; linarith) (by have := hz.2; push_cast at this; linarith)
  have hlog : ((1 : ℝ) + 1 / 3) / (1 - 1 / 3) = 2 := by norm_num
  rw [hlog] at h1 h2
  obtain ⟨h3, h4⟩ := ln2Scaled_series
  have h3' : (2 : ℝ) * (atanhSeries (2 ^ 256 / 3 * (2 ^ 256 / 3) / 2 ^ 256) 90 0 (2 ^ 256 / 3) : Nat) ≤ ln2Scaled := by
    exact_mod_cast h3
  have h4' : (ln2Scaled : ℝ) ≤ 2 * (atanhSeries (2 ^ 256 / 3 * (2 ^ 256 / 3) / 2 ^ 256) 90 0 (2 ^ 256 / 3) : Nat) + 98 := by
    exact_mod_cast h4
  constructor <;> linarith

end Sys2Proof.Proofs
end

section
/-!
PROOF. The approximations of FEX2, FLG2 and FRSQ (R76) against exact powers: the model's 2^v and log2 x are never too small and
too large by less than 2^−200, while a midpoint of FP32, or a quarter of an octave, is never that near without being met.
-/
namespace Sys2Proof.Proofs
open Sys2Proof.Machine Sys2Proof.Laws

/-! Casts. -/

theorem cast_pow2 (e : Int) : ((pow2 e : ℚ) : ℝ) = (2 : ℝ) ^ e := by
  rw [pow2_eq_zpow]; push_cast; rfl

theorem cast_floor_natAbs {q : ℚ} (hq : 0 ≤ q) :
    ((q.floor.natAbs : Nat) : ℝ) ≤ q ∧ (q : ℝ) ≤ (q.floor.natAbs : Nat) + 1 := by
  have hfloor : ((q.floor.natAbs : Nat) : ℚ) = ((⌊q⌋ : Int) : ℚ) := by
    rw [Nat.cast_natAbs, abs_of_nonneg (show 0 ≤ q.floor from Int.floor_nonneg.2 hq)]; rfl
  have hlo := Int.floor_le q
  have hhi := (Int.lt_floor_add_one q).le
  rw [← hfloor] at hlo hhi
  exact ⟨by exact_mod_cast hlo, by exact_mod_cast hhi⟩

/-! The exponential of R76. -/

theorem exp_le_one_add_two_mul {x : ℝ} (h0 : 0 ≤ x) (h1 : x ≤ 1 / 2) : Real.exp x ≤ 1 + 2 * x := by
  refine (Real.exp_bound_div_one_sub_of_interval h0 (by linarith)).trans ?_
  rw [div_le_iff₀ (by linarith)]
  nlinarith

theorem exp2Frac_bounds {q : ℚ} (h0 : 0 ≤ q) (h1 : q < 1) :
    (2 : ℝ) ^ (q : ℝ) ≤ ((exp2Frac q + 2 ^ 16 : Nat) : ℝ) / 2 ^ 256 ∧
    ((exp2Frac q + 2 ^ 16 : Nat) : ℝ) / 2 ^ 256 ≤ (2 : ℝ) ^ (q : ℝ) * (1 + 1 / 2 ^ 200) := by
  obtain ⟨t, ht⟩ : ∃ t, t = (q * (ln2Scaled : ℚ)).floor.natAbs := ⟨_, rfl⟩
  obtain ⟨htlo, hthi⟩ := cast_floor_natAbs (q := q * ln2Scaled) (by positivity)
  rw [← ht] at htlo hthi
  push_cast at htlo hthi
  obtain ⟨hllo, hlhi⟩ := ln2Scaled_log
  have hq0 : (0 : ℝ) ≤ q := by exact_mod_cast h0
  have hq1 : (q : ℝ) ≤ 1 := by exact_mod_cast h1.le
  have hl : (ln2Scaled : ℝ) ≤ 3 / 4 * 2 ^ 256 := by norm_num [ln2Scaled]
  have hl0 : (0 : ℝ) ≤ ln2Scaled := Nat.cast_nonneg _
  have hθ1 : (t : ℝ) / 2 ^ 256 ≤ 3 / 4 := by
    rw [div_le_iff₀ (by positivity)]
    nlinarith
  obtain ⟨hs1, hs2⟩ := expSeries_exp (t := t) rfl hθ1
  have hfrac : (exp2Frac q : ℝ) = ((2 ^ 256 + expSeries t 64 1 (2 ^ 256) : Nat) : ℝ) := by rw [ht]; rfl
  rw [← hfrac] at hs1 hs2
  have hτ : (2 : ℝ) ^ (q : ℝ) = Real.exp (Real.log 2 * q) := Real.rpow_def_of_pos (by norm_num) _
  have hτ1 : 1 ≤ Real.exp (Real.log 2 * q) := Real.one_le_exp (mul_nonneg (Real.log_nonneg (by norm_num)) hq0)
  have hθ3 : Real.exp ((t : ℝ) / 2 ^ 256) ≤ 3 :=
    (Real.exp_le_exp.2 (by linarith)).trans (Real.exp_one_lt_d9.le.trans (by norm_num))
  have hθ0 := Real.exp_pos ((t : ℝ) / 2 ^ 256)
  have hup : Real.log 2 * q ≤ (t : ℝ) / 2 ^ 256 + 903 / 2 ^ 256 := by
    rw [← add_div, le_div_iff₀ (by positivity)]
    nlinarith
  have hdown : (t : ℝ) / 2 ^ 256 ≤ Real.log 2 * q + 98 / 2 ^ 256 := by
    rw [← sub_le_iff_le_add, ← sub_div, div_le_iff₀ (by positivity)]
    nlinarith
  have hexp_up : Real.exp (Real.log 2 * q) ≤ Real.exp ((t : ℝ) / 2 ^ 256) * (1 + 2 * (903 / 2 ^ 256)) := by
    refine (Real.exp_le_exp.2 hup).trans ?_
    rw [Real.exp_add]
    exact mul_le_mul_of_nonneg_left (exp_le_one_add_two_mul (by positivity) (by norm_num)) hθ0.le
  have hexp_down : Real.exp ((t : ℝ) / 2 ^ 256) ≤ Real.exp (Real.log 2 * q) * (1 + 2 * (98 / 2 ^ 256)) := by
    refine (Real.exp_le_exp.2 hdown).trans ?_
    rw [Real.exp_add]
    exact mul_le_mul_of_nonneg_left (exp_le_one_add_two_mul (by positivity) (by norm_num)) (Real.exp_pos _).le
  rw [hτ]
  push_cast
  constructor
  · rw [le_div_iff₀ (by positivity)]
    linarith
  · rw [div_le_iff₀ (by positivity)]
    linarith

/-- The model's 2^v before it is rounded, for v in the octave from n on. -/
def ex2Approx (v : ℚ) (n : Int) : ℚ := ((exp2Frac (v - n) + 2 ^ 16 : Nat) : ℚ) * pow2 (n - 256)

section
variable {v : ℚ} {n k : Int}

theorem ex2Approx_pos : 0 < ex2Approx v n := mul_pos (by exact_mod_cast Nat.succ_pos _) (pow2_pos _)

theorem ex2Approx_bounds (h0 : n ≤ v) (h1 : v < n + 1) :
    (2 : ℝ) ^ (v : ℝ) ≤ ex2Approx v n ∧ (ex2Approx v n : ℝ) ≤ (2 : ℝ) ^ (v : ℝ) * (1 + 1 / 2 ^ 200) := by
  obtain ⟨hlo, hhi⟩ := exp2Frac_bounds (q := v - n) (by linarith) (by linarith)
  have hv : (2 : ℝ) ^ (v : ℝ) = 2 ^ ((v - n : ℚ) : ℝ) * (2 : ℝ) ^ n := by
    rw [← Real.rpow_intCast, ← Real.rpow_add (by norm_num)]; push_cast; ring_nf
  have happrox : (ex2Approx v n : ℝ) = ((exp2Frac (v - n) + 2 ^ 16 : Nat) : ℝ) / 2 ^ 256 * (2 : ℝ) ^ n := by
    rw [ex2Approx, Rat.cast_mul, cast_pow2, Rat.cast_natCast, zpow_sub₀ (by norm_num)]
    have : (2 : ℝ) ^ (256 : ℤ) = 2 ^ 256 := by norm_cast
    rw [this, div_mul_eq_mul_div, mul_div_assoc]
  have hpow : (0 : ℝ) < (2 : ℝ) ^ n := by positivity
  rw [hv, happrox]
  refine ⟨mul_le_mul_of_nonneg_right hlo hpow.le, ?_⟩
  rw [mul_right_comm]
  exact mul_le_mul_of_nonneg_right hhi hpow.le

theorem rpow_four (v : ℝ) : ((2 : ℝ) ^ v) ^ 4 = 2 ^ (4 * v) := by
  rw [← Real.rpow_natCast, ← Real.rpow_mul (by norm_num), mul_comm]; norm_num

/-- The model's 2^v is not below a power that v is not below … -/
theorem pow2_le_ex2Approx (h0 : n ≤ v) (h1 : v < n + 1) (hk : k ≤ 4 * v) : pow2 k ≤ ex2Approx v n ^ 4 := by
  have hlo := (ex2Approx_bounds h0 h1).1
  have hk' : (k : ℝ) ≤ 4 * v := by exact_mod_cast hk
  have : (2 : ℝ) ^ k ≤ (ex2Approx v n : ℝ) ^ 4 := by
    calc (2 : ℝ) ^ k = (2 : ℝ) ^ (k : ℝ) := (Real.rpow_intCast _ _).symm
      _ ≤ (2 : ℝ) ^ (4 * (v : ℝ)) := Real.rpow_le_rpow_of_exponent_le (by norm_num) hk'
      _ = ((2 : ℝ) ^ (v : ℝ)) ^ 4 := (rpow_four _).symm
      _ ≤ (ex2Approx v n : ℝ) ^ 4 := pow_le_pow_left₀ (by positivity) hlo 4
  rw [← cast_pow2] at this
  exact_mod_cast this

/-- … and hardly above one that v is not above. -/
theorem ex2Approx_le_pow2 (h0 : n ≤ v) (h1 : v < n + 1) (hk : 4 * v ≤ k) :
    ex2Approx v n ^ 4 ≤ pow2 k * (1 + 1 / 2 ^ 190) := by
  have hhi := (ex2Approx_bounds h0 h1).2
  have hpos : (0 : ℝ) ≤ ex2Approx v n := by exact_mod_cast ex2Approx_pos.le
  have hk' : 4 * (v : ℝ) ≤ k := by exact_mod_cast hk
  have hreal : (ex2Approx v n : ℝ) ^ 4 ≤ (2 : ℝ) ^ k * (1 + 1 / 2 ^ 190) := by
    calc (ex2Approx v n : ℝ) ^ 4 ≤ ((2 : ℝ) ^ (v : ℝ) * (1 + 1 / 2 ^ 200)) ^ 4 := pow_le_pow_left₀ hpos hhi 4
      _ = (2 : ℝ) ^ (4 * (v : ℝ)) * (1 + 1 / 2 ^ 200) ^ 4 := by rw [mul_pow, rpow_four]
      _ ≤ (2 : ℝ) ^ (k : ℝ) * (1 + 1 / 2 ^ 190) :=
          mul_le_mul (Real.rpow_le_rpow_of_exponent_le (by norm_num) hk') (by norm_num) (by positivity) (by positivity)
      _ = (2 : ℝ) ^ k * (1 + 1 / 2 ^ 190) := by rw [Real.rpow_intCast]
  have hcast : ((ex2Approx v n ^ 4 : ℚ) : ℝ) ≤ ((pow2 k * (1 + 1 / 2 ^ 190) : ℚ) : ℝ) := by
    push_cast [cast_pow2]
    exact hreal
  exact Rat.cast_le.1 hcast

end

/-- Half an odd multiple of a power of two, the odd number below 2^25, is a quarter power where it is nearly one. -/
theorem midpoint_eq_of_near {M : Nat} {e k : Int} (hodd : M % 2 = 1) (hlt : M < 2 ^ 25) (hlo : pow2 k ≤ (M * pow2 (e - 1)) ^ 4)
    (hhi : (M * pow2 (e - 1)) ^ 4 ≤ pow2 k * (1 + 1 / 2 ^ 190)) : M = 1 ∧ k = 4 * (e - 1) := by
  obtain ⟨j, rfl⟩ : ∃ j, k = 4 * (e - 1) + j := ⟨k - 4 * (e - 1), by ring⟩
  have hfour : (pow2 (e - 1)) ^ 4 = pow2 (4 * (e - 1)) := by
    rw [pow2_eq_zpow, pow2_eq_zpow, ← zpow_natCast, ← zpow_mul]; congr 1; push_cast; ring
  have hpos := pow2_pos (4 * (e - 1))
  rw [mul_pow, hfour, pow2_add, mul_comm] at hlo hhi
  have hlo : pow2 j ≤ (M : ℚ) ^ 4 := le_of_mul_le_mul_right (by linarith) hpos
  have hhi : (M : ℚ) ^ 4 ≤ pow2 j * (1 + 1 / 2 ^ 190) := le_of_mul_le_mul_left (by linarith) hpos
  have hM1 : (1 : ℚ) ≤ (M : ℚ) ^ 4 := one_le_pow₀ (by exact_mod_cast (show 1 ≤ M by omega))
  have hM2 : (M : ℚ) ^ 4 < 2 ^ 100 := by
    have := Nat.pow_lt_pow_left hlt (n := 4) (by norm_num)
    rw [← pow_mul] at this
    exact_mod_cast this
  have hj0 : 0 ≤ j := by
    by_contra h
    have : pow2 j ≤ pow2 (-1) := pow2_le (by omega)
    have h2 : pow2 (-1) = 1 / 2 := by rw [pow2_eq_zpow]; norm_num
    rw [h2] at this
    norm_num at hhi
    linarith
  obtain ⟨i, rfl⟩ := Int.eq_ofNat_of_zero_le hj0
  rw [pow2_natCast] at hlo hhi
  have hsmall : (2 : ℚ) ^ i * (1 / 2 ^ 190) < 1 := by
    have := hlo.trans_lt hM2
    norm_num at this ⊢
    linarith
  have heq : M ^ 4 = 2 ^ i := by
    have h1 : (2 ^ i : Nat) ≤ M ^ 4 := by exact_mod_cast hlo
    have h2 : M ^ 4 < 2 ^ i + 1 := by
      have : (M : ℚ) ^ 4 < 2 ^ i + 1 := by linarith
      exact_mod_cast this
    omega
  have hi : i = 0 := by
    by_contra h
    have hpar := congrArg (· % 2) heq
    simp only [Nat.pow_mod, hodd, Nat.one_pow, Nat.mod_self, Nat.zero_pow (Nat.pos_of_ne_zero h)] at hpar
    omega
  subst hi
  exact ⟨by simpa using heq, by simp⟩

/-! The logarithm of R76. -/

/-- A quotient `q` of a logarithm by ln 2 in units of 1/W, where both are right to some units. -/
theorem log_quotient_bounds {W m l A L q : ℝ} (hW : 2 ^ 20 ≤ W) (hq0 : 0 ≤ q) (hl : 0.69 ≤ l) (hl1 : l ≤ 1)
    (hm : m ≤ l) (hA1 : A ≤ W * (1 / 2 * m)) (hA2 : W * (1 / 2 * m) ≤ A + 451) (hL1 : L ≤ W * l + 98) (hL2 : W * l ≤ L + 902)
    (hq1 : q * (L + 1) ≤ 2 * A * W) (hq2 : 2 * A * W ≤ (q + 1) * (L + 1)) :
    W * m ≤ (q + 2 ^ 16) * l ∧ (q + 2 ^ 16) * l ≤ W * m + 2 ^ 17 := by
  have hWpos : 0 < W := lt_of_lt_of_le (by norm_num) hW
  have hL : W / 2 ≤ L + 1 := by nlinarith
  have hAm : 2 * A * W ≤ W * m * W := mul_le_mul_of_nonneg_right (by linarith) hWpos.le
  have hqW : q ≤ 2 * W := by
    have hmW : W * m * W ≤ W * W := by nlinarith [mul_le_mul_of_nonneg_left (hm.trans hl1) hWpos.le]
    have : q * (W / 2) ≤ 2 * W * (W / 2) := by linarith [mul_le_mul_of_nonneg_left hL hq0]
    exact le_of_mul_le_mul_right this (by linarith)
  constructor
  · have h1 : (q + 1) * (L + 1) ≤ (q + 1) * (W * l + 99) := mul_le_mul_of_nonneg_left (by linarith) (by linarith)
    have h2 : 2 * A ≤ (q + 1) * l + 297 := le_of_mul_le_mul_right (by nlinarith : 2 * A * W ≤ ((q + 1) * l + 297) * W) hWpos
    nlinarith
  · have h1 : q * (W * l - 901) ≤ q * (L + 1) := mul_le_mul_of_nonneg_left (by linarith) hq0
    have h2 : q * l ≤ W * m + 1802 := le_of_mul_le_mul_right (by nlinarith : q * l * W ≤ (W * m + 1802) * W) hWpos
    nlinarith

/-- The model's series for the logarithm of m. -/
theorem log2Frac_series {m : ℚ} (h1 : 1 ≤ m) (h2 : m ≤ 2) :
    ∃ A : Nat, log2Frac m = 2 * A * 2 ^ 256 / (ln2Scaled + 1) ∧ (A : ℝ) ≤ 2 ^ 256 * (1 / 2 * Real.log m) ∧
      2 ^ 256 * (1 / 2 * Real.log m) ≤ A + 451 := by
  have hm1 : (1 : ℝ) ≤ m := by exact_mod_cast h1
  have hm2 : (m : ℝ) ≤ 2 := by exact_mod_cast h2
  obtain ⟨z, hz⟩ : ∃ z, z = ((m - 1) / (m + 1) * pow2 256).floor.natAbs := ⟨_, rfl⟩
  obtain ⟨hzlo, hzhi⟩ := cast_floor_natAbs (q := (m - 1) / (m + 1) * pow2 256)
    (mul_nonneg (div_nonneg (by linarith) (by linarith)) (pow2_pos _).le)
  have hcast : (((m - 1) / (m + 1) * pow2 256 : ℚ) : ℝ) = 2 ^ 256 * (((m : ℝ) - 1) / (m + 1)) := by
    have h256 : ((pow2 256 : ℚ) : ℝ) = 2 ^ 256 := by rw [cast_pow2]; norm_cast
    rw [Rat.cast_mul, h256, mul_comm]; push_cast; ring
  rw [hcast, ← hz] at hzlo hzhi
  have hζ : ((m : ℝ) - 1) / (m + 1) ≤ 1 / 3 := by rw [div_le_iff₀ (by linarith)]; linarith
  obtain ⟨hs1, hs2⟩ := atanhSeries_log (div_nonneg (by linarith) (by linarith)) hζ hzlo hzhi
  have hratio : (1 + ((m : ℝ) - 1) / (m + 1)) / (1 - (m - 1) / (m + 1)) = m := by
    have : (m : ℝ) + 1 ≠ 0 := by linarith
    field_simp; ring
  rw [hratio] at hs1 hs2
  exact ⟨_, by rw [hz]; rfl, hs1, hs2⟩

theorem log2Frac_bounds {m : ℚ} (h1 : 1 ≤ m) (h2 : m ≤ 2) :
    Real.logb 2 m ≤ ((log2Frac m + 2 ^ 16 : Nat) : ℝ) / 2 ^ 256 ∧
    ((log2Frac m + 2 ^ 16 : Nat) : ℝ) / 2 ^ 256 ≤ Real.logb 2 m + 1 / 2 ^ 200 := by
  obtain ⟨A, hfrac, hs1, hs2⟩ := log2Frac_series h1 h2
  obtain ⟨hq1, hq2⟩ := cast_div_bounds (2 * A * 2 ^ 256) (b := ln2Scaled + 1) (Nat.succ_pos _)
  obtain ⟨hllo, hlhi⟩ := ln2Scaled_log
  have hL0 : ((ln2Scaled + 1 : Nat) : ℝ) = ln2Scaled + 1 := Nat.cast_succ _
  have hA0 : ((2 * A * 2 ^ 256 : Nat) : ℝ) = 2 * A * 2 ^ 256 := by push_cast; norm_num
  have hLpos : (0 : ℝ) < ln2Scaled + 1 := by positivity
  rw [← hfrac, hL0, hA0, le_div_iff₀ hLpos] at hq1
  rw [← hfrac, hL0, hA0, div_le_iff₀ hLpos] at hq2
  have hln2 : 0.69 ≤ Real.log 2 := by linarith [Real.log_two_gt_d9]
  have hln2pos : 0 < Real.log 2 := by linarith
  have hln2' : Real.log 2 ≤ 1 := by linarith [Real.log_two_lt_d9]
  have hlnm : Real.log m ≤ Real.log 2 := Real.log_le_log (by exact_mod_cast zero_lt_one.trans_le h1) (by exact_mod_cast h2)
  obtain ⟨hlo, hhi⟩ := log_quotient_bounds (by norm_num) (Nat.cast_nonneg _) hln2 hln2' hlnm hs1 hs2 hllo hlhi hq1 hq2
  have hsum : ((log2Frac m + 2 ^ 16 : Nat) : ℝ) = log2Frac m + 2 ^ 16 := by push_cast; norm_num
  have hlogb : Real.logb 2 m = Real.log m / Real.log 2 := rfl
  have hslack : (2 : ℝ) ^ 17 ≤ 1 / 2 ^ 200 * Real.log 2 * 2 ^ 256 := by norm_num; linarith
  rw [hsum, hlogb]
  constructor
  · rw [div_le_div_iff₀ hln2pos (by positivity), mul_comm]
    exact hlo
  · rw [div_add' _ _ _ hln2pos.ne', div_le_div_iff₀ (by positivity) hln2pos]
    linarith

/-- The model's log2 x before it is rounded, for x in the octave of 2^e. -/
def lg2Approx (x : ℚ) (e : Int) : ℚ := e + ((log2Frac (x / pow2 e) + 2 ^ 16 : Nat) : ℚ) * pow2 (-256)

section
variable {x : ℚ} {e k : Int}

theorem lg2Approx_bounds (h1 : pow2 e ≤ x) (h2 : x ≤ pow2 (e + 1)) :
    Real.logb 2 x ≤ lg2Approx x e ∧ (lg2Approx x e : ℝ) ≤ Real.logb 2 x + 1 / 2 ^ 200 := by
  have hpos := pow2_pos e
  obtain ⟨hlo, hhi⟩ := log2Frac_bounds (m := x / pow2 e) ((one_le_div hpos).2 h1)
    ((div_le_iff₀ hpos).2 (by rwa [← pow2_succ]))
  have hx : (x : ℝ) ≠ 0 := by exact_mod_cast (hpos.trans_le h1).ne'
  have hlog : Real.logb 2 ((x / pow2 e : ℚ) : ℝ) = Real.logb 2 x - e := by
    rw [Rat.cast_div, cast_pow2, Real.logb_div hx (by positivity), ← Real.rpow_intCast,
      Real.logb_rpow (by norm_num) (by norm_num)]
  have happrox : (lg2Approx x e : ℝ) = e + ((log2Frac (x / pow2 e) + 2 ^ 16 : Nat) : ℝ) / 2 ^ 256 := by
    have h256 : ((pow2 (-256) : ℚ) : ℝ) = 1 / 2 ^ 256 := by rw [cast_pow2, zpow_neg]; norm_num
    rw [lg2Approx, Rat.cast_add, Rat.cast_mul, h256, Rat.cast_natCast, Rat.cast_intCast, mul_one_div]
  rw [hlog] at hlo hhi
  rw [happrox]
  constructor <;> linarith

theorem logb_pow2 (k : Int) : Real.logb 2 ((pow2 k : ℚ) : ℝ) = k := by
  rw [cast_pow2, ← Real.rpow_intCast, Real.logb_rpow (by norm_num) (by norm_num)]

theorem logb_pow_four (x : ℝ) : Real.logb 2 (x ^ 4) = 4 * Real.logb 2 x := by
  rw [Real.logb_pow]; norm_num

/-- The model's log2 x is not below a quarter that it is not below exactly … -/
theorem le_lg2Approx (h1 : pow2 e ≤ x) (h2 : x ≤ pow2 (e + 1)) (hk : pow2 k ≤ x ^ 4) : (k : ℚ) / 4 ≤ lg2Approx x e := by
  have hlog : (k : ℝ) ≤ 4 * Real.logb 2 x := by
    rw [← logb_pow_four, ← logb_pow2]
    refine Real.logb_le_logb_of_le (by norm_num) (by exact_mod_cast pow2_pos k) ?_
    exact_mod_cast hk
  have hlo := (lg2Approx_bounds h1 h2).1
  have : (k : ℝ) / 4 ≤ lg2Approx x e := by linarith
  exact_mod_cast this

/-- … and not above one that it is below by enough. -/
theorem lg2Approx_le (h1 : pow2 e ≤ x) (h2 : x ≤ pow2 (e + 1)) (hk : x ^ 4 * (1 + 1 / 2 ^ 100) ≤ pow2 k) :
    lg2Approx x e ≤ (k : ℚ) / 4 := by
  have hx : (0 : ℝ) < x := by exact_mod_cast (pow2_pos e).trans_le h1
  have hk' : (x : ℝ) ^ 4 * (1 + 1 / 2 ^ 100) ≤ ((pow2 k : ℚ) : ℝ) := by
    have := Rat.cast_le (K := ℝ).2 hk
    push_cast at this
    exact this
  have hlog := Real.logb_le_logb_of_le (b := 2) (by norm_num) (by positivity) hk'
  rw [Real.logb_mul (by positivity) (by positivity), logb_pow_four, logb_pow2] at hlog
  have hgap : 4 / 2 ^ 200 ≤ Real.logb 2 (1 + 1 / 2 ^ 100) := by
    have h := Real.one_sub_inv_le_log_of_pos (show (0 : ℝ) < 1 + 1 / 2 ^ 100 by positivity)
    have hln2 : Real.log 2 ≤ 1 := by linarith [Real.log_two_lt_d9]
    rw [Real.logb, le_div_iff₀ (Real.log_pos (by norm_num))]
    refine le_trans ?_ h
    norm_num
    linarith
  have hhi := (lg2Approx_bounds h1 h2).2
  have : (lg2Approx x e : ℝ) ≤ (k : ℝ) / 4 := by linarith
  exact_mod_cast this

end

/-- A significand below 2^24 strictly between powers of two is below a quarter power by enough where it is not above it. -/
theorem gap_below_pow2 {x : ℚ} {m : Nat} {g e k : Int} (hx : x = m * pow2 g) (hm : m < 2 ^ 24) (h1 : pow2 e < x)
    (h2 : x < pow2 (e + 1)) (hk : x ^ 4 ≤ pow2 k) : x ^ 4 * (1 + 1 / 2 ^ 100) ≤ pow2 k := by
  obtain ⟨j, rfl⟩ : ∃ j, k = 4 * g + j := ⟨k - 4 * g, by ring⟩
  have hfour : (pow2 g) ^ 4 = pow2 (4 * g) := by
    rw [pow2_eq_zpow, pow2_eq_zpow, ← zpow_natCast, ← zpow_mul]; congr 1; push_cast; ring
  have hpos := pow2_pos (4 * g)
  have hm0 : 1 ≤ m := by
    rcases Nat.eq_zero_or_pos m with rfl | h
    · have := (pow2_pos e).trans h1
      simp [hx] at this
    · exact h
  have hx4 : x ^ 4 = (m : ℚ) ^ 4 * pow2 (4 * g) := by rw [hx, mul_pow, hfour]
  rw [hx4, pow2_add] at hk
  rw [hx4, pow2_add]
  have hk : (m : ℚ) ^ 4 ≤ pow2 j := le_of_mul_le_mul_right (by linarith) hpos
  have hm1 : (1 : ℚ) ≤ (m : ℚ) ^ 4 := one_le_pow₀ (by exact_mod_cast hm0)
  have hj0 : 0 ≤ j := by
    by_contra h
    have := pow2_lt.2 (show j < 0 by omega)
    have h0 : pow2 0 = 1 := rfl
    linarith
  obtain ⟨i, rfl⟩ := Int.eq_ofNat_of_zero_le hj0
  rw [pow2_natCast] at hk ⊢
  have hne : m ^ 4 ≠ 2 ^ i := by
    intro heq
    obtain ⟨l, -, rfl⟩ := (Nat.dvd_prime_pow Nat.prime_two).1 (heq ▸ dvd_pow_self m (by norm_num) : m ∣ 2 ^ i)
    have hpow : x = pow2 (l + g) := by rw [hx, pow2_add, pow2_natCast]; push_cast; rfl
    rw [hpow] at h1 h2
    have := pow2_lt.1 h1
    have := pow2_lt.1 h2
    omega
  have hle : m ^ 4 ≤ 2 ^ i := by exact_mod_cast hk
  have hgap : (m : ℚ) ^ 4 + 1 ≤ 2 ^ i := by exact_mod_cast (show m ^ 4 + 1 ≤ 2 ^ i by omega)
  have hm96 : (m : ℚ) ^ 4 ≤ 2 ^ 96 := by
    have := (Nat.pow_lt_pow_left hm (n := 4) (by norm_num)).le
    rw [← pow_mul] at this
    exact_mod_cast this
  have hsum : (m : ℚ) ^ 4 * (1 + 1 / 2 ^ 100) ≤ 2 ^ i := by
    have : (m : ℚ) ^ 4 * (1 / 2 ^ 100) ≤ 1 := by
      norm_num at hm96 ⊢
      linarith
    linarith
  calc (m : ℚ) ^ 4 * pow2 (4 * g) * (1 + 1 / 2 ^ 100) = (m : ℚ) ^ 4 * (1 + 1 / 2 ^ 100) * pow2 (4 * g) := by ring
    _ ≤ 2 ^ i * pow2 (4 * g) := mul_le_mul_of_nonneg_right hsum hpos.le
    _ = pow2 (4 * g) * 2 ^ i := mul_comm _ _

/-! The square root of R76. -/

/-- What the bits from `i` down make of a root that is right but for them. -/
theorem isqrtFrom_spec (n i r : Nat) (hlo : r * r ≤ n) (hhi : n < (r + 2 ^ (i + 1)) * (r + 2 ^ (i + 1))) :
    isqrtFrom n i r * isqrtFrom n i r ≤ n ∧ n < (isqrtFrom n i r + 1) * (isqrtFrom n i r + 1) := by
  induction i generalizing r with
  | zero =>
    rw [isqrtFrom]
    split
    · exact ⟨‹_›, hhi⟩
    · exact ⟨hlo, Nat.lt_of_not_le ‹_›⟩
  | succ i ih =>
    rw [isqrtFrom]
    split
    · refine ih _ ‹_› ?_
      rwa [Nat.add_assoc, ← Nat.mul_two, ← Nat.pow_succ]
    · exact ih r hlo (Nat.lt_of_not_le ‹_›)

theorem isqrt_eq_sqrt (n : Nat) : isqrt (Nat.log2 n / 2 + 1) n = Nat.sqrt n := by
  have hn : n < (0 + 2 ^ (Nat.log2 n / 2 + 1 + 1)) * (0 + 2 ^ (Nat.log2 n / 2 + 1 + 1)) := by
    rw [Nat.zero_add, ← Nat.pow_add]
    exact Nat.lt_log2_self.trans_le (Nat.pow_le_pow_right (by norm_num) (by omega))
  exact Nat.eq_sqrt.2 (isqrtFrom_spec n _ 0 (Nat.zero_le _) hn)

theorem mkRat_two_pow (r : Int) (n : Nat) : mkRat r (2 ^ n) = r * pow2 (-n) := by
  rw [Rat.mkRat_eq_div, pow2_eq_zpow, zpow_neg, zpow_natCast, Nat.cast_pow, Nat.cast_ofNat, div_eq_mul_inv]

/-- The model's root of y is the root itself, or stands with it strictly between two neighbours of the scale 2^−320. -/
theorem sqrtApprox_cases {y : ℚ} (hy : 0 < y) : 0 < sqrtApprox y ∧ (sqrtApprox y ^ 2 = y ∨
    ∃ r : Nat, sqrtApprox y = (r + 1 / 2) * pow2 (-320) ∧ (r * pow2 (-320)) ^ 2 < y ∧ y < ((r + 1) * pow2 (-320)) ^ 2) := by
  have hY : 0 < y * pow2 640 := mul_pos hy (pow2_pos _)
  obtain ⟨Y, hYdef⟩ : ∃ Y, Y = y * pow2 640 := ⟨_, rfl⟩
  obtain ⟨N, hN⟩ : ∃ N, N = Y.floor.natAbs := ⟨_, rfl⟩
  obtain ⟨r, hr⟩ : ∃ r, r = Nat.sqrt N := ⟨_, rfl⟩
  have hp := pow2_pos (-320)
  have hyY : y = Y * pow2 (-320) ^ 2 := by
    have hone : pow2 640 * (pow2 (-320) * pow2 (-320)) = 1 := by rw [← pow2_add, ← pow2_add]; rfl
    rw [hYdef, mul_assoc, sq, hone, mul_one]
  rw [← hYdef] at hY
  have hfloor : (N : ℚ) = ((⌊Y⌋ : Int) : ℚ) := by
    rw [hN, Nat.cast_natAbs, abs_of_nonneg (show 0 ≤ Y.floor from Int.floor_nonneg.2 hY.le)]; rfl
  have hlo := Int.floor_le Y
  have hhi := Int.lt_floor_add_one Y
  rw [← hfloor] at hlo hhi
  have hsq1 : (r : ℚ) * r ≤ N := by rw [hr]; exact_mod_cast Nat.sqrt_le N
  have hsq2 : (N : ℚ) + 1 ≤ (r + 1) * (r + 1) := by rw [hr]; exact_mod_cast Nat.lt_succ_sqrt N
  have hdef : sqrtApprox y = if (r : ℚ) * r = Y then r * pow2 (-320) else (r + 1 / 2) * pow2 (-320) := by
    have hhalf : pow2 (-321) = 1 / 2 * pow2 (-320) := by
      rw [show (-320 : Int) = -321 + 1 by rfl, pow2_succ]; ring
    have hone : ∀ i : Int, mkRat i 1 = i := fun i => by rw [Rat.mkRat_eq_div]; simp
    unfold sqrtApprox
    dsimp only
    rw [← hYdef, ← hN, isqrt_eq_sqrt, ← hr, mkRat_two_pow, mkRat_two_pow, hone]
    simp only [beq_iff_eq, Int.cast_natCast, Int.cast_add, Int.cast_mul, Int.cast_ofNat, Int.cast_one, Nat.cast_ofNat, hhalf]
    congr 1
    ring
  rw [hdef]
  split
  · rename_i h
    have hr0 : (0 : ℚ) < r := by
      rcases Nat.eq_zero_or_pos r with rfl | h0
      · simp at h; linarith
      · exact_mod_cast h0
    exact ⟨mul_pos hr0 hp, .inl (by rw [mul_pow, sq (r : ℚ), h, hyY])⟩
  · rename_i h
    refine ⟨by positivity, .inr ⟨r, rfl, ?_, ?_⟩⟩
    · rw [hyY, mul_pow, sq (r : ℚ)]
      exact mul_lt_mul_of_pos_right (lt_of_le_of_ne (hsq1.trans hlo) h) (by positivity)
    · rw [hyY, mul_pow, sq ((r : ℚ) + 1)]
      exact mul_lt_mul_of_pos_right (hhi.trans_le hsq2) (by positivity)

end Sys2Proof.Proofs
end

section
/-!
PROOF. The FP32 lane instructions (R19, R75) and the transcendentals (R76).
-/
namespace Sys2Proof.Proofs
open Sys2Proof.Machine Sys2Proof.Laws

/-! Signs (R75). -/

theorem fabs_bit (a : Word) {i : Nat} (hi : i < 32) :
    (a &&& 0x7FFF_FFFF).getLsbD i = (a.getLsbD i && decide (i ≠ 31)) := by
  rw [BitVec.getLsbD_and]
  congr 1
  interval_cases i <;> rfl

theorem fneg_bit (a : Word) {i : Nat} (hi : i < 32) :
    (a ^^^ 0x8000_0000).getLsbD i = (a.getLsbD i != decide (i = 31)) := by
  rw [BitVec.getLsbD_xor]
  congr 1
  interval_cases i <;> rfl

/-! Special values. -/

section
variable {a : Word}

theorem eq_nan_of_isNaN (h : (f32 a).isNaN = true) : ∃ s, f32 a = .nan s := by
  cases hf : f32 a with
  | nan s => exact ⟨s, rfl⟩
  | inf s => simp [hf, FVal.isNaN] at h
  | num s x => simp [hf, FVal.isNaN] at h

theorem eq_inf_or_zero (h : (f32 a).isInf = true ∨ (f32 a).isZero = true) : ∃ s, f32 a = .inf s ∨ f32 a = .num s 0 := by
  cases hf : f32 a with
  | nan s => simp [hf, FVal.isInf, FVal.isZero] at h
  | inf s => exact ⟨s, .inl rfl⟩
  | num s x =>
    have hx : x = 0 := by simpa [hf, FVal.isInf, FVal.isZero] using h
    exact ⟨s, .inr (hx ▸ rfl)⟩

end

/-! Scaling and rounding to whole numbers (R75). -/

theorem scaleF32_num {a : Word} {s : Bool} {x : ℚ} (h : f32 a = .num s x) (n : Int) :
    scaleF32 a n = toF32 (.num s (x * pow2 (max (-600) (min 600 n)))) := by
  simp only [scaleF32, h]

/-- Beyond 600 every finite value but zero is scaled to infinity … -/
theorem scaleF32_above {a : Word} {s : Bool} {x : ℚ} (h : f32 a = .num s x) (hx : x ≠ 0) {n : Int} (hn : 600 < n) :
    scaleF32 a n = if s then 0xFF80_0000 else 0x7F80_0000 := by
  rw [scaleF32_num h, show max (-600) (min 600 n) = 600 by omega]
  refine toF32_overflow ?_ s
  calc pow2 128 ≤ pow2 (-149 + 600) := pow2_le (by norm_num)
    _ = pow2 (-149) * pow2 600 := pow2_add _ _
    _ ≤ x * pow2 600 := mul_le_mul_of_nonneg_right (f32_bounds h hx).1 (pow2_pos 600).le

/-- … and below −600 to zero. -/
theorem scaleF32_below {a : Word} {s : Bool} {x : ℚ} (h : f32 a = .num s x) (hx : x ≠ 0) {n : Int} (hn : n < -600) :
    scaleF32 a n = if s then 0x8000_0000 else 0 := by
  obtain ⟨hlo, hhi⟩ := f32_bounds h hx
  rw [scaleF32_num h, show max (-600) (min 600 n) = -600 by omega]
  refine toF32_underflow (mul_pos ((pow2_pos _).trans_le hlo) (pow2_pos _)) ?_ s
  calc x * pow2 (-600) < pow2 128 * pow2 (-600) := mul_lt_mul_of_pos_right hhi (pow2_pos _)
    _ = pow2 (128 + -600) := (pow2_add _ _).symm
    _ ≤ pow2 (-150) := pow2_le (by norm_num)

theorem scaleF32_special {a : Word} (h : (f32 a).isInf = true ∨ (f32 a).isZero = true) (n : Int) :
    scaleF32 a n = toF32 (f32 a) := by
  obtain ⟨s, hf | hf⟩ := eq_inf_or_zero h
  · simp only [scaleF32, hf]
  · rw [scaleF32_num hf, hf, zero_mul]

theorem floorF32_num {a : Word} {s : Bool} {x : ℚ} (h : f32 a = .num s x) :
    floorF32 a = toF32 (FVal.ofRat (((f32 a).toRat.floor : Int) : ℚ) s) := by
  simp only [floorF32, h]

theorem floorF32_special {a : Word} (h : (f32 a).isInf = true ∨ (f32 a).isZero = true) : floorF32 a = toF32 (f32 a) := by
  obtain ⟨s, hf | hf⟩ := eq_inf_or_zero h
  · simp only [floorF32, hf]
  · have hzero : (FVal.num s 0).toRat = 0 := by cases s <;> rfl
    rw [floorF32_num hf, hf, hzero]; rfl

theorem rintF32_num {a : Word} {s : Bool} {x : ℚ} (h : f32 a = .num s x) :
    rintF32 a = toF32 (.num s ((roundQuotient .ne x : Nat) : ℚ)) := by
  simp only [rintF32, h]

theorem rintF32_special {a : Word} (h : (f32 a).isInf = true ∨ (f32 a).isZero = true) : rintF32 a = toF32 (f32 a) := by
  obtain ⟨s, hf | hf⟩ := eq_inf_or_zero h
  · simp only [rintF32, hf]
  · have hzero : roundQuotient .ne 0 = 0 := by decide +kernel
    rw [rintF32_num hf, hf, hzero]; rfl

/-! FRSQ (R76). -/

/-- A midpoint of FP32 is a whole number at the scale 2^−320. -/
theorem exists_scaled_midpoint (M : Nat) {e : Int} (he : -149 ≤ e) : ∃ J : Nat, M * pow2 (e - 1) = J * pow2 (-320) := by
  refine ⟨M * 2 ^ (e + 319).toNat, ?_⟩
  rw [Nat.cast_mul, Nat.cast_pow, Nat.cast_ofNat, ← pow2_natCast, mul_assoc, ← pow2_add]
  congr 2
  omega

/-- The rounded root lies between the roundings of all that is below the root and of all that is above it. -/
theorem toF32_sqrtApprox {y q : ℚ} (hy : 0 < y) (hq : 0 < q) :
    (q ^ 2 ≤ y → (toF32 (.num false q)).toNat ≤ (toF32 (.num false (sqrtApprox y))).toNat) ∧
    (y ≤ q ^ 2 → (toF32 (.num false (sqrtApprox y))).toNat ≤ (toF32 (.num false q)).toNat) := by
  obtain ⟨hpos, hexact | ⟨r, happrox, hlo, hhi⟩⟩ := sqrtApprox_cases hy
  · exact ⟨fun h => toF32_mono ((pow_le_pow_iff_left₀ hq.le hpos.le two_ne_zero).1 (h.trans_eq hexact.symm)),
      fun h => toF32_mono ((pow_le_pow_iff_left₀ hpos.le hq.le two_ne_zero).1 (hexact.trans_le h))⟩
  have hp := pow2_pos (-320)
  refine ⟨fun h => (toF32_le_or_midpoint hq hpos).resolve_right ?_, fun h => (toF32_le_or_midpoint hpos hq).resolve_right ?_⟩
  · rintro ⟨M, e, -, -, he, -, habove, hbelow⟩
    obtain ⟨J, hJ⟩ := exists_scaled_midpoint M he
    rw [hJ] at habove hbelow
    have hq' : q < (r + 1) * pow2 (-320) := (pow_lt_pow_iff_left₀ hq.le (by positivity) two_ne_zero).1 (h.trans_lt hhi)
    have h1 : (r : ℚ) + 1 / 2 ≤ J := le_of_mul_le_mul_right (happrox ▸ habove) hp
    have h2 : (J : ℚ) < r + 1 := lt_of_mul_lt_mul_right (hbelow.trans_lt hq') hp.le
    have h3 : J < r + 1 := by exact_mod_cast h2
    have h4 : (J : ℚ) ≤ r := by exact_mod_cast Nat.lt_succ_iff.1 h3
    linarith
  · rintro ⟨M, e, -, -, he, -, habove, hbelow⟩
    obtain ⟨J, hJ⟩ := exists_scaled_midpoint M he
    rw [hJ] at habove hbelow
    have hq' : r * pow2 (-320) < q := (pow_lt_pow_iff_left₀ (by positivity) hq.le two_ne_zero).1 (hlo.trans_le h)
    have h1 : (J : ℚ) ≤ r + 1 / 2 := le_of_mul_le_mul_right (happrox ▸ hbelow) hp
    have h2 : (r : ℚ) < J := lt_of_mul_lt_mul_right (hq'.trans_le habove) hp.le
    have h3 : r < J := by exact_mod_cast h2
    have h4 : (r : ℚ) + 1 ≤ J := by exact_mod_cast h3
    linarith

/-- FRSQ of a positive value. -/
theorem rsqF32_bracket {a : Word} {x q : ℚ} (h : f32 a = .num false x) (hx : x ≠ 0) (hq : 0 < q) :
    (q * q * x ≤ 1 → (toF32 (.num false q)).toNat ≤ (rsqF32 a).toNat) ∧
    (1 ≤ q * q * x → (rsqF32 a).toNat ≤ (toF32 (.num false q)).toNat) := by
  have hpos : 0 < x := lt_of_le_of_ne (f32_nonneg h) hx.symm
  have hr : rsqF32 a = toF32 (.num false (sqrtApprox (1 / x))) := by simp [rsqF32, h, hx]
  obtain ⟨hlo, hhi⟩ := toF32_sqrtApprox (one_div_pos.2 hpos) hq
  rw [hr]
  refine ⟨fun h => hlo ?_, fun h => hhi ?_⟩
  · rw [le_div_iff₀ hpos, sq]; exact h
  · rw [div_le_iff₀ hpos, sq]; exact h

/-! FEX2 (R76). -/

/-- What FEX2 gives in the octave from n on: the rounded power of a whole number, and the rounded approximation of others. -/
def Ex2Word (v : ℚ) (n : Int) (r : Word) : Prop :=
  (v = n ∧ r = toF32 (.num false (pow2 n))) ∨ ((n : ℚ) < v ∧ r = toF32 (.num false (ex2Approx v n)))

section
variable {a : Word} {s : Bool} {x : ℚ}

theorem ex2F32_above (h : f32 a = .num s x) (hv : 128 ≤ (FVal.num s x).toRat) : ex2F32 a = 0x7F80_0000 := by
  simp only [ex2F32, h]
  rw [if_pos hv]; rfl

theorem ex2F32_below (h : f32 a = .num s x) (hv : (FVal.num s x).toRat ≤ -150) : ex2F32 a = 0 := by
  simp only [ex2F32, h]
  rw [if_neg (by simp only [ge_iff_le, not_le]; linarith), if_pos hv]; rfl

theorem ex2F32_word (h : f32 a = .num s x) {n : Int} (hn : -150 ≤ n) (hn' : n < 128) (h0 : n ≤ (FVal.num s x).toRat)
    (h1 : (FVal.num s x).toRat < n + 1) : Ex2Word (FVal.num s x).toRat n (ex2F32 a) := by
  have hv : ¬(FVal.num s x).toRat ≥ 128 := by
    have : (n : ℚ) + 1 ≤ 128 := by exact_mod_cast hn'
    simp only [ge_iff_le, not_le]; linarith
  have hfloor : (FVal.num s x).toRat.floor = n := Int.floor_eq_iff.2 ⟨h0, h1⟩
  have hlow : (-150 : ℚ) ≤ n := by exact_mod_cast hn
  by_cases hbot : (FVal.num s x).toRat ≤ -150
  · have hvn : (n : ℚ) = -150 := le_antisymm (h0.trans hbot) hlow
    obtain rfl : n = -150 := by exact_mod_cast hvn
    have hzero : toF32 (.num false (pow2 (-150))) = 0 := by decide +kernel
    exact .inl ⟨le_antisymm (by push_cast; exact hbot) h0, (ex2F32_below h hbot).trans hzero.symm⟩
  · have hr : ex2F32 a = if (FVal.num s x).toRat - n = 0 then toF32 (.num false (pow2 n))
        else toF32 (.num false (ex2Approx (FVal.num s x).toRat n)) := by
      simp only [ex2F32, h]
      rw [if_neg hv, if_neg hbot, hfloor]
      simp only [beq_iff_eq, ex2Approx]
    split at hr
    · exact .inl ⟨sub_eq_zero.1 ‹_›, hr⟩
    · exact .inr ⟨lt_of_le_of_ne h0 fun he => ‹¬_› (sub_eq_zero.2 he.symm), hr⟩

end

section
variable {v q : ℚ} {n k : Int} {r : Word}

theorem pow2_four_mul (n : Int) : pow2 n ^ 4 = pow2 (4 * n) := by
  rw [pow2_eq_zpow, pow2_eq_zpow, ← zpow_natCast, ← zpow_mul]; congr 1; push_cast; ring

/-- At or above k/4, FEX2 is no less than the rounding of what is at most 2^(k/4). -/
theorem Ex2Word.lower (h : Ex2Word v n r) (h1 : v < n + 1) (hq : 0 < q) (hk : k ≤ 4 * v) (hqk : q ^ 4 ≤ pow2 k) :
    (toF32 (.num false q)).toNat ≤ r.toNat := by
  rcases h with ⟨rfl, rfl⟩ | ⟨h0, rfl⟩
  · have hkn : k ≤ 4 * n := by exact_mod_cast hk
    refine toF32_mono ((pow_le_pow_iff_left₀ hq.le (pow2_pos n).le four_ne_zero).1 (hqk.trans ?_))
    rw [pow2_four_mul]
    exact pow2_le hkn
  · refine toF32_mono ((pow_le_pow_iff_left₀ hq.le ex2Approx_pos.le four_ne_zero).1 (hqk.trans ?_))
    exact pow2_le_ex2Approx h0.le h1 hk

/-- At or below k/4, FEX2 is no more than the rounding of what is at least 2^(k/4): between them no midpoint lies. -/
theorem Ex2Word.upper (h : Ex2Word v n r) (hn : -150 ≤ n) (h1 : v < n + 1) (hq : 0 < q) (hk : 4 * v ≤ k)
    (hqk : pow2 k ≤ q ^ 4) : r.toNat ≤ (toF32 (.num false q)).toNat := by
  rcases h with ⟨rfl, rfl⟩ | ⟨h0, rfl⟩
  · have hkn : 4 * n ≤ k := by exact_mod_cast hk
    refine toF32_mono ((pow_le_pow_iff_left₀ (pow2_pos n).le hq.le four_ne_zero).1 (le_trans ?_ hqk))
    rw [pow2_four_mul]
    exact pow2_le hkn
  · refine (toF32_le_or_midpoint ex2Approx_pos hq).resolve_right ?_
    rintro ⟨M, e, hodd, hlt, -, hone, habove, hbelow⟩
    have hM : (0 : ℚ) ≤ M * pow2 (e - 1) := mul_nonneg (Nat.cast_nonneg M) (pow2_pos _).le
    obtain ⟨hM1, hke⟩ := midpoint_eq_of_near hodd hlt (hqk.trans (pow_le_pow_left₀ hq.le habove 4))
      ((pow_le_pow_left₀ hM hbelow 4).trans (ex2Approx_le_pow2 h0.le h1 hk))
    have hk600 : (k : ℚ) = -600 := by
      rw [hke, hone hM1]; norm_num
    have hlow : (-150 : ℚ) ≤ n := by exact_mod_cast hn
    linarith

/-- FEX2 in an octave: exact at its foot, between its ends, and against every quarter. -/
theorem Ex2Word.octave (hword : (n : ℚ) ≤ v → v < n + 1 → Ex2Word v n r) (hn : -150 ≤ n) :
    (v = n → r = toF32 (.num false (pow2 n))) ∧
    ((n : ℚ) < v → v < n + 1 → (toF32 (.num false (pow2 n))).toNat ≤ r.toNat ∧
      r.toNat ≤ (toF32 (.num false (pow2 (n + 1)))).toNat) ∧
    ∀ (k : Int) (q : ℚ), 4 * n ≤ k → k ≤ 4 * n + 4 → (n : ℚ) ≤ v → v < n + 1 → 0 < q →
      ((k : ℚ) ≤ 4 * v → q ^ 4 ≤ pow2 k → (toF32 (.num false q)).toNat ≤ r.toNat) ∧
      (4 * v ≤ k → pow2 k ≤ q ^ 4 → r.toNat ≤ (toF32 (.num false q)).toNat) := by
  refine ⟨fun hv => ?_, fun h0 h1 => ⟨?_, ?_⟩, fun k q _ _ h0 h1 hq =>
    ⟨fun hk hqk => (hword h0 h1).lower h1 hq hk hqk, fun hk hqk => (hword h0 h1).upper hn h1 hq hk hqk⟩⟩
  · rcases hword hv.ge (by linarith) with ⟨-, hr⟩ | ⟨hlt, -⟩
    · exact hr
    · exact absurd hv hlt.ne'
  · exact (hword h0.le h1).lower h1 (pow2_pos n) (k := 4 * n) (by push_cast; linarith) (pow2_four_mul n).le
  · refine (hword h0.le h1).upper hn h1 (pow2_pos (n + 1)) (k := 4 * (n + 1)) ?_ (pow2_four_mul (n + 1)).ge
    push_cast; linarith

end

/-! FLG2 (R76). -/

/-- A significand within the format's width at an exponent of the format is a value of it. -/
theorem exists_magOf {f : Fmt} (hf : f.isInt = false) (k : Nat) {m : Nat} (hm : m < 2 ^ (f.man + 1)) :
    ∃ c, m * pow2 (f.qmin + k) = f.magOf c := by
  induction k generalizing m with
  | zero => exact ⟨_, (magOf_code hf (k := 0) hm.le (by simp)).symm⟩
  | succ k ih =>
    rcases Nat.lt_or_ge m (2 ^ f.man) with h | h
    · obtain ⟨c, hc⟩ := ih (m := 2 * m) (by rw [pow_succ]; omega)
      refine ⟨c, hc ▸ ?_⟩
      rw [show f.qmin + ((k + 1 : Nat) : Int) = f.qmin + k + 1 by push_cast; ring, pow2_succ]
      push_cast; ring
    · exact ⟨_, (magOf_code hf (k := k + 1) hm.le fun _ => h).symm⟩

/-- Quarters up to 2^22 are values of FP32. -/
theorem exists_magOf_quarter {k : Int} (hk : k.natAbs < 2 ^ 24) : ∃ c, |(k : ℚ) / 4| = Fmt.magOf .fp32 c := by
  obtain ⟨c, hc⟩ := exists_magOf fp32_isInt 147 hk
  refine ⟨c, hc ▸ ?_⟩
  have hq : pow2 (Fmt.qmin .fp32 + (147 : Nat)) = 1 / 4 := by decide +kernel
  rw [hq, abs_div, Nat.cast_natAbs, Int.cast_abs]
  norm_num
  ring

section
variable {a : Word} {x : ℚ} {e : Int}

theorem lg2F32_pow2 (h : f32 a = .num false x) (hx : x = pow2 e) : lg2F32 a = toF32 (FVal.ofRat (e : ℚ) false) := by
  have hpos := pow2_pos e
  have hfl : floorLog2 x = e := floorLog2_eq hx.ge (by rw [hx]; exact pow2_lt.2 (lt_add_one e))
  have hm : x / pow2 e = 1 := by rw [hx, div_self hpos.ne']
  have h0 : x ≠ 0 := by rw [hx]; exact hpos.ne'
  simp [lg2F32, h, hfl, hm, h0]

theorem lg2F32_between (h : f32 a = .num false x) (h1 : pow2 e < x) (h2 : x < pow2 (e + 1)) :
    lg2F32 a = toF32 (FVal.ofRat (lg2Approx x e) false) := by
  have hpos := pow2_pos e
  have hm : x / pow2 e ≠ 1 := fun hm => h1.ne' ((div_eq_one_iff_eq hpos.ne').1 hm)
  have h0 : x ≠ 0 := (hpos.trans h1).ne'
  simp [lg2F32, h, floorLog2_eq h1.le h2, hm, h0, lg2Approx]

/-- FLG2 against the quarters of an octave. -/
theorem lg2F32_quarter (h : f32 a = .num false x) (h1 : pow2 e < x) (h2 : x < pow2 (e + 1)) {k : Int} (hk : 4 * e ≤ k)
    (hk' : k ≤ 4 * e + 4) :
    (pow2 k ≤ x ^ 4 → (k : ℚ) / 4 ≤ (f32 (lg2F32 a)).toRat) ∧ (x ^ 4 ≤ pow2 k → (f32 (lg2F32 a)).toRat ≤ (k : ℚ) / 4) := by
  obtain ⟨m, g, hx, hm, -, -⟩ := f32_significand h
  obtain ⟨hxlo, hxhi⟩ := f32_bounds h ((pow2_pos e).trans h1).ne'
  have helo : -149 < e + 1 := pow2_lt.1 (hxlo.trans_lt h2)
  have hehi : e < 128 := pow2_lt.1 (h1.trans hxhi)
  have hfoot : (e : ℚ) ≤ lg2Approx x e := by
    have := le_lg2Approx (k := 4 * e) h1.le h2.le (by rw [← pow2_four_mul]; exact pow_le_pow_left₀ (pow2_pos e).le h1.le 4)
    push_cast at this
    linarith
  have htop : lg2Approx x e ≤ e + 1 := by
    have := lg2Approx_le (k := 4 * (e + 1)) h1.le h2.le (gap_below_pow2 hx hm h1 h2
      (by rw [← pow2_four_mul]; exact pow_le_pow_left₀ ((pow2_pos e).trans h1).le h2.le 4))
    push_cast at this
    linarith
  have helo' : (-150 : ℚ) ≤ e := by exact_mod_cast (by omega : (-150 : Int) ≤ e)
  have hehi' : (e : ℚ) ≤ 128 := by exact_mod_cast hehi.le
  have hbound : |lg2Approx x e| < pow2 127 := by
    have h127 : (200 : ℚ) < pow2 127 := by decide +kernel
    rw [abs_lt]
    constructor <;> linarith
  obtain ⟨c, hc⟩ := exists_magOf_quarter (k := k) (by omega)
  rw [lg2F32_between h h1 h2]
  exact ⟨fun hkx => le_roundedValue hbound hc (le_lg2Approx h1.le h2.le hkx),
    fun hkx => roundedValue_le hbound hc (lg2Approx_le h1.le h2.le (gap_below_pow2 hx hm h1 h2 hkx))⟩

/-- FLG2 between powers of two. -/
theorem lg2F32_octave (h : f32 a = .num false x) (h1 : pow2 e < x) (h2 : x < pow2 (e + 1)) :
    (e : ℚ) ≤ (f32 (lg2F32 a)).toRat ∧ (f32 (lg2F32 a)).toRat ≤ e + 1 := by
  have hx0 := ((pow2_pos e).trans h1).le
  have hfoot := (lg2F32_quarter h h1 h2 le_rfl (by omega : 4 * e ≤ 4 * e + 4)).1
    (by rw [← pow2_four_mul]; exact pow_le_pow_left₀ (pow2_pos e).le h1.le 4)
  have htop := (lg2F32_quarter h h1 h2 (by omega : 4 * e ≤ 4 * (e + 1)) (by omega)).2
    (by rw [← pow2_four_mul]; exact pow_le_pow_left₀ hx0 h2.le 4)
  push_cast at hfoot htop
  constructor <;> linarith

end

/-- Settles O2: the arithmetic by its definition on values; FRSQ, FEX2 and FLG2 by how far their approximations stand from the
exact values, and that no midpoint of FP32 lies between. -/
theorem floatLaneResults : Obligations.FloatLaneResults := by
  unfold Obligations.FloatLaneResults
  refine ⟨⟨laneTwo_of exec_fadd fun a b => rfl, laneTwo_of exec_fsub fun a b => rfl, laneTwo_of exec_fmul fun a b => rfl,
    laneThree_of exec_fma fun a b d => rfl, laneTwo_of exec_fmin fun a b => rfl, laneTwo_of exec_fmax fun a b => rfl,
    laneOne_of exec_fabs fun a i => fabs_bit a, laneOne_of exec_fneg fun a i => fneg_bit a,
    laneTwo_of exec_fscale fun a b => ?scale, laneOne_of exec_ffloor fun a => ?floor, laneOne_of exec_frint fun a => ?rint⟩,
    laneOne_of exec_frcp fun a => ?rcp, laneOne_of exec_frsq fun a => ?rsq, laneOne_of exec_fex2 fun a => ?ex2,
    laneOne_of exec_flg2 fun a => ?lg2⟩
  case scale =>
    refine ⟨fun h => ?_, fun h => scaleF32_special h _, fun s x h hx => ⟨fun h1 h2 => ?_, scaleF32_above h hx,
      scaleF32_below h hx⟩⟩
    · obtain ⟨s, hf⟩ := eq_nan_of_isNaN h
      simp only [scaleF32, hf, toF32_nan]
    · rw [scaleF32_num h, min_eq_right h2, max_eq_right h1]
  case floor =>
    refine ⟨fun h => ?_, floorF32_special, fun s x => floorF32_num⟩
    obtain ⟨s, hf⟩ := eq_nan_of_isNaN h
    simp only [floorF32, hf, toF32_nan]
  case rint =>
    refine ⟨fun h => ?_, rintF32_special, fun s x => rintF32_num⟩
    obtain ⟨s, hf⟩ := eq_nan_of_isNaN h
    simp only [rintF32, hf, toF32_nan]
  case rcp =>
    cases hf : f32 a with
    | nan s => simp only [rcpF32, hf, toF32_nan]
    | inf s => simp only [rcpF32, hf, toF32_zero]
    | num s x =>
      simp only [rcpF32, hf, beq_iff_eq]
      split
      · exact toF32_inf s
      · rfl
  case rsq =>
    cases hf : f32 a with
    | nan s => simp only [rsqF32, hf, toF32_nan]
    | inf s => cases s <;> simp only [rsqF32, hf, toF32_nan, toF32_zero] <;> rfl
    | num s x =>
      dsimp only
      split
      · simp [rsqF32, *]
      · split
        · simp [rsqF32, *]
        · exact fun q hq => rsqF32_bracket (by simp_all) ‹_› hq
  case ex2 =>
    cases hf : f32 a with
    | nan s => simp only [ex2F32, hf, toF32_nan]
    | inf s => cases s <;> simp only [ex2F32, hf, toF32_inf, toF32_zero] <;> rfl
    | num s x =>
      refine ⟨fun hx => ?_, ex2F32_above hf, ex2F32_below hf, fun n hn hn' => Ex2Word.octave (ex2F32_word hf hn hn') hn⟩
      have hv : (FVal.num s x).toRat = ((0 : Int) : ℚ) := by subst hx; cases s <;> rfl
      have hone : toF32 (.num false (pow2 0)) = 0x3F80_0000 := by decide +kernel
      exact ((Ex2Word.octave (ex2F32_word hf (n := 0) (by norm_num) (by norm_num)) (by norm_num)).1 hv).trans hone
  case lg2 =>
    cases hf : f32 a with
    | nan s => simp only [lg2F32, hf, toF32_nan]
    | inf s => cases s <;> simp only [lg2F32, hf, toF32_nan, toF32_inf] <;> rfl
    | num s x =>
      refine ⟨fun hx => by simp [lg2F32, hf, hx], fun hx hs => by simp [lg2F32, hf, hx, hs], fun hx hs e => ?_⟩
      subst hs
      refine ⟨lg2F32_pow2 hf, fun h1 h2 => ?_⟩
      obtain ⟨hfoot, htop⟩ := lg2F32_octave hf h1 h2
      exact ⟨hfoot, htop, fun k hk hk' => lg2F32_quarter hf h1 h2 hk hk'⟩

end Sys2Proof.Proofs
end

section
/-!
PROOF. Encoding and decoding (R39 to R45, R54 to R57): the round trip in both directions, and that the check of R59 of a word names
the same error as the decoder.
-/
namespace Sys2Proof.Proofs
open Sys2Proof.Machine Sys2Proof.Laws Sys2Proof.Laws.RoundTrip

/-! From the encoding back to the instruction. -/

/-- Every instruction is read back from its encoding: its own law of the round trip. -/
theorem roundTrip : ∀ i : Instr, Statement i
  | .iadd _ _ _ _ => iadd _ _ _ _ | .isub _ _ _ _ => isub _ _ _ _ | .iadds _ _ _ _ => iadds _ _ _ _
  | .isubs _ _ _ _ => isubs _ _ _ _ | .imul _ _ _ _ => imul _ _ _ _ | .imulhi _ _ _ _ => imulhi _ _ _ _
  | .imulhiu _ _ _ _ => imulhiu _ _ _ _ | .imad _ _ _ => imad _ _ _ | .imin _ _ _ _ => imin _ _ _ _
  | .imax _ _ _ _ => imax _ _ _ _ | .umin _ _ _ _ => umin _ _ _ _ | .umax _ _ _ _ => umax _ _ _ _
  | .and _ _ _ _ => RoundTrip.and _ _ _ _ | .or _ _ _ _ => RoundTrip.or _ _ _ _ | .xor _ _ _ _ => RoundTrip.xor _ _ _ _
  | .andn _ _ _ _ => andn _ _ _ _ | .shl _ _ _ _ => shl _ _ _ _ | .shr _ _ _ _ => shr _ _ _ _ | .sra _ _ _ _ => sra _ _ _ _
  | .rotl _ _ _ _ => rotl _ _ _ _ | .popc _ _ _ => popc _ _ _ | .clz _ _ _ => clz _ _ _ | .brev _ _ _ => brev _ _ _
  | .bfx _ _ _ _ => bfx _ _ _ _ | .bfi _ _ _ _ => bfi _ _ _ _ | .iabs _ _ _ => iabs _ _ _ | .udiv _ _ _ _ => udiv _ _ _ _
  | .urem _ _ _ _ => urem _ _ _ _ | .lea _ _ _ _ => lea _ _ _ _ | .lea2 _ _ _ _ => lea2 _ _ _ _ | .lea4 _ _ _ _ => lea4 _ _ _ _
  | .lea8 _ _ _ _ => lea8 _ _ _ _ | .fadd _ _ _ _ => fadd _ _ _ _ | .fsub _ _ _ _ => fsub _ _ _ _
  | .fmul _ _ _ _ => fmul _ _ _ _ | .fma _ _ _ => fma _ _ _ | .fmin _ _ _ _ => fmin _ _ _ _ | .fmax _ _ _ _ => fmax _ _ _ _
  | .fabs _ _ _ => fabs _ _ _ | .fneg _ _ _ => fneg _ _ _ | .frcp _ _ _ => frcp _ _ _ | .frsq _ _ _ => frsq _ _ _
  | .fex2 _ _ _ => fex2 _ _ _ | .flg2 _ _ _ => flg2 _ _ _ | .faddBf2 _ _ _ _ => faddBf2 _ _ _ _
  | .fmulBf2 _ _ _ _ => fmulBf2 _ _ _ _ | .fmaBf2 _ _ _ => fmaBf2 _ _ _ | .fmaxBf2 _ _ _ _ => fmaxBf2 _ _ _ _
  | .faddHf2 _ _ _ _ => faddHf2 _ _ _ _ | .fmulHf2 _ _ _ _ => fmulHf2 _ _ _ _ | .fmaHf2 _ _ _ => fmaHf2 _ _ _
  | .fmaxHf2 _ _ _ _ => fmaxHf2 _ _ _ _ | .fdot2Bf _ _ _ => fdot2Bf _ _ _ | .fdot4E4 _ _ _ => fdot4E4 _ _ _
  | .fdot4E5 _ _ _ => fdot4E5 _ _ _ | .fdot8E2m1 _ _ _ => fdot8E2m1 _ _ _ | .raddF _ _ _ => raddF _ _ _
  | .rmaxF _ _ _ => rmaxF _ _ _ | .raddI _ _ _ => raddI _ _ _ | .rmaxI _ _ _ => rmaxI _ _ _ | .fscale _ _ _ _ => fscale _ _ _ _
  | .ffloor _ _ _ => ffloor _ _ _ | .frint _ _ _ => frint _ _ _ | .i2f _ _ _ => i2f _ _ _ | .u2f _ _ _ => u2f _ _ _
  | .f2i _ _ _ => f2i _ _ _ | .f2u _ _ _ => f2u _ _ _ | .cvtBf2 _ _ _ _ => cvtBf2 _ _ _ _ | .cvtHf2 _ _ _ _ => cvtHf2 _ _ _ _
  | .cvtE4 _ _ _ => cvtE4 _ _ _ | .cvtE5 _ _ _ => cvtE5 _ _ _ | .cvtsrE4 _ _ _ => cvtsrE4 _ _ _
  | .cvtsrE5 _ _ _ => cvtsrE5 _ _ _ | .cvtsrE3m2 _ _ _ => cvtsrE3m2 _ _ _ | .cvtsrE2m1 _ _ _ => cvtsrE2m1 _ _ _
  | .cvtE3m2 _ _ => cvtE3m2 _ _ | .cvtE2m3 _ _ => cvtE2m3 _ _ | .cvtE2m1 _ _ => cvtE2m1 _ _ | .cvtsrBf _ _ _ => cvtsrBf _ _ _
  | .unpBf _ _ _ _ => unpBf _ _ _ _ | .unpHf _ _ _ _ => unpHf _ _ _ _ | .unpE4 _ _ _ _ => unpE4 _ _ _ _
  | .unpE5 _ _ _ _ => unpE5 _ _ _ _ | .unpE3m2 _ _ _ _ => unpE3m2 _ _ _ _ | .unpE2m3 _ _ _ _ => unpE2m3 _ _ _ _
  | .unpE2m1 _ _ _ _ => unpE2m1 _ _ _ _ | .cvtsrE2m3 _ _ _ => cvtsrE2m3 _ _ _ | .icmpeq _ _ _ _ => icmpeq _ _ _ _
  | .icmplt _ _ _ _ => icmplt _ _ _ _ | .icmpltu _ _ _ _ => icmpltu _ _ _ _ | .icmple _ _ _ _ => icmple _ _ _ _
  | .fcmpeq _ _ _ _ => fcmpeq _ _ _ _ | .fcmplt _ _ _ _ => fcmplt _ _ _ _ | .fcmple _ _ _ _ => fcmple _ _ _ _
  | .fcmpun _ _ _ _ => fcmpun _ _ _ _ | .sel _ _ _ => sel _ _ _ | .ballot _ _ _ => ballot _ _ _
  | .matchLanes _ _ _ => matchLanes _ _ _ | .laneid _ _ => laneid _ _ | .shfl _ _ _ _ => shfl _ _ _ _
  | .shflup _ _ _ _ => shflup _ _ _ _ | .shfldn _ _ _ _ => shfldn _ _ _ _ | .shflx _ _ _ _ => shflx _ _ _ _
  | .rng4 _ _ _ _ => rng4 _ _ _ _ | .rngu _ _ _ _ => rngu _ _ _ _ | .rngb _ _ _ _ => rngb _ _ _ _ | .mov _ _ _ => mov _ _ _
  | .movg _ _ _ => movg _ _ _ | .movvg _ _ => movvg _ _ | .movvgl _ _ _ => movvgl _ _ _ | .iaddi _ _ _ => iaddi _ _ _
  | .andi _ _ _ => andi _ _ _ | .ori _ _ _ => ori _ _ _ | .xori _ _ _ => xori _ _ _ | .shli _ _ _ => shli _ _ _
  | .shri _ _ _ => shri _ _ _ | .srai _ _ _ => srai _ _ _ | .icmplti _ _ _ => icmplti _ _ _ | .icmpeqi _ _ _ => icmpeqi _ _ _
  | .imuli _ _ _ => imuli _ _ _ | .movi _ _ => movi _ _ | .movh _ _ => movh _ _ | .srd _ _ => srd _ _
  | .iadd16 _ _ _ => iadd16 _ _ _ | .isub16 _ _ _ => isub16 _ _ _ | .imul16 _ _ _ => imul16 _ _ _ | .and16 _ _ _ => and16 _ _ _
  | .or16 _ _ _ => or16 _ _ _ | .xor16 _ _ _ => xor16 _ _ _ | .shli16 _ _ _ => shli16 _ _ _ | .shri16 _ _ _ => shri16 _ _ _
  | .mov16 _ _ _ => mov16 _ _ _ | .movi5 _ _ _ => movi5 _ _ _ | .fadd16 _ _ _ => fadd16 _ _ _ | .fsub16 _ _ _ => fsub16 _ _ _
  | .fmul16 _ _ _ => fmul16 _ _ _ | .fmax16 _ _ _ => fmax16 _ _ _ | .icmplt16 _ _ _ => icmplt16 _ _ _ | .nop => nop
  | .gadd _ _ _ => gadd _ _ _ | .gsub _ _ _ => gsub _ _ _ | .gmul _ _ _ => gmul _ _ _ | .gmad _ _ _ => gmad _ _ _
  | .gand _ _ _ => gand _ _ _ | .gor _ _ _ => gor _ _ _ | .gxor _ _ _ => gxor _ _ _ | .gandn _ _ _ => gandn _ _ _
  | .gshl _ _ _ => gshl _ _ _ | .gshr _ _ _ => gshr _ _ _ | .gsra _ _ _ => gsra _ _ _ | .gmin _ _ _ => gmin _ _ _
  | .gcmpeq _ _ _ => gcmpeq _ _ _ | .gcmplt _ _ _ => gcmplt _ _ _ | .gcmpltu _ _ _ => gcmpltu _ _ _ | .gmax _ _ _ => gmax _ _ _
  | .gaddi _ _ _ => gaddi _ _ _ | .gmovi _ _ => gmovi _ _ | .gshi16 _ _ => gshi16 _ _ | .gsrd _ _ => gsrd _ _
  | .gswr _ _ => gswr _ _ | .xlt _ _ _ => xlt _ _ _ | .gmov _ _ => gmov _ _ | .bra _ => bra _ | .brg _ _ => brg _ _
  | .brzg _ _ => brzg _ _ | .brv _ _ => brv _ _ | .call _ => call _ | .ret => ret | .jmpg _ => jmpg _ | .fuse => fuse
  | .exit => exit | .emrd _ => emrd _ | .emwr _ => emwr _ | .yield => yield | .bkpt => bkpt | .mskip _ _ => mskip _ _
  | .ld32 _ _ _ => ld32 _ _ _ | .ld64 _ _ _ => ld64 _ _ _ | .ld128 _ _ _ => ld128 _ _ _ | .ld16 _ _ _ => ld16 _ _ _
  | .st32 _ _ _ => st32 _ _ _ | .st64 _ _ _ => st64 _ _ _ | .st128 _ _ _ => st128 _ _ _ | .st16 _ _ _ => st16 _ _ _
  | .ld8 _ _ _ => ld8 _ _ _ | .st8 _ _ _ => st8 _ _ _ | .ldnb _ _ _ => ldnb _ _ _ | .stva _ _ _ => stva _ _ _
  | .atadd _ _ _ _ => atadd _ _ _ _ | .atmax _ _ _ _ => atmax _ _ _ _ | .atxch _ _ _ _ => atxch _ _ _ _
  | .atcas _ _ _ _ => atcas _ _ _ _ | .ator _ _ _ _ => ator _ _ _ _ | .atand _ _ _ _ => atand _ _ _ _
  | .atfadd _ _ _ _ => atfadd _ _ _ _ | .atmin _ _ _ _ => atmin _ _ _ _ | .fence _ _ => fence _ _ | .fenceE _ _ => fenceE _ _
  | .ldaq _ _ _ _ => ldaq _ _ _ _ | .strl _ _ _ _ => strl _ _ _ _ | .gld _ _ _ => gld _ _ _ | .gst _ _ _ => gst _ _ _
  | .gldaq _ _ _ _ => gldaq _ _ _ _ | .gstrl _ _ _ _ => gstrl _ _ _ _ | .tdef _ _ => tdef _ _ | .tqry _ _ _ => tqry _ _ _
  | .tfree _ => tfree _ | .tscl _ _ => tscl _ _ | .cpy _ _ _ => cpy _ _ _ | .cpyt _ _ _ => cpyt _ _ _
  | .gath _ _ _ => gath _ _ _ | .scat _ _ _ => scat _ _ _ | .balloc _ _ _ => balloc _ _ _ | .bfree _ => bfree _
  | .bexp _ _ => bexp _ _ | .barv _ _ _ => barv _ _ _ | .bwait _ _ _ => bwait _ _ _ | .bwaitt _ _ _ => bwaitt _ _ _
  | .btest _ _ => btest _ _ | .bref _ _ _ => bref _ _ _ | .mfeed _ => mfeed _ | .mdrain _ => mdrain _
  | .msig _ _ _ => msig _ _ _ | .mrecv _ => mrecv _ | .datt _ _ => datt _ _ | .ddist _ _ => ddist _ _ | .dtopk _ _ => dtopk _ _
  | .dkvap _ _ => dkvap _ _ | .kvres _ _ => kvres _ _ | .kvreq _ _ _ => kvreq _ _ _ | .kvpin _ _ _ => kvpin _ _ _
  | .kvrel _ _ _ => kvrel _ _ _ | .lnch _ _ _ => lnch _ _ _ | .lnchc _ _ _ => lnchc _ _ _ | .cancel _ _ => cancel _ _
  | .ccnt _ _ => ccnt _ _ | .ticket _ _ => ticket _ _ | .redeem _ _ _ => redeem _ _ _ | .tkqry _ _ _ => tkqry _ _ _
  | .tkdrop _ _ => tkdrop _ _ | .upd _ _ => upd _ _ | .wvpub _ _ => wvpub _ _ | .wvret _ _ _ => wvret _ _ _
  | .norm _ _ => norm _ _ | .regq _ _ _ => regq _ _ _ | .snapm _ => snapm _ | .pgreq _ _ _ => pgreq _ _ _
  | .trap _ _ => trap _ _ | .mma _ _ _ => mma _ _ _ | .mmaSp _ _ _ => mmaSp _ _ _ | .mmaz _ _ _ => mmaz _ _ _
  | .mmazSp _ _ _ => mmazSp _ _ _ | .epq _ _ _ => epq _ _ _ | .epst _ _ _ => epst _ _ _ | .epov _ _ _ => epov _ _ _
  | .accz _ _ _ => accz _ _ _ | .mbatch _ => mbatch _ | .mwait _ _ => mwait _ _ | .mclass _ => mclass _ | .myld => myld
  | .mquad _ _ _ => mquad _ _ _ | .mscale _ _ => mscale _ _ | .csrr _ _ => csrr _ _ | .csrw _ _ _ => csrw _ _ _
  | .csrs _ _ _ => csrs _ _ _ | .csrc _ _ _ => csrc _ _ _ | .tlbi _ _ => tlbi _ _ | .tlbia _ => tlbia _
  | .prefw _ _ => prefw _ _ | .zeroRange _ _ _ => zeroRange _ _ _ | .eret => eret | .halt => halt | .hirq _ => hirq _
  | .rtchk _ _ => rtchk _ _ | .ctxsv _ _ _ => ctxsv _ _ _ | .ctxld _ _ _ => ctxld _ _ _ | .snapb _ _ => snapb _ _
  | .snapc _ _ _ => snapc _ _ _
  | .storePerform _ | .timedStorePerform _ _ | .ldnbPerform _ | .gathStatusArrive _ _ | .barvArrival _ | .bwaitReturn _
  | .bwaittTimeout _ | .copyCommandComplete _ _ | .cpytWriteRelease _ _ | .bulkQueuePublish _ | .bulkEntryStart _
  | .bulkEntryComplete _ _ | .completionRecordWrite _ | .pageRequestComplete _ _ | .launchAnswer _ | .unitAdmit _ _ _ _
  | .launchBecomesBlocking _ _ | .launchComplete _ _ | .launchCommit _ _ | .snapmRelease _ _ | .slotRelease _
  | .preemptionStop _ | .mxeStep _ _ | .mquadInstall _ | .mwaitReturn _ | .mdrainRead _ | .mrecvWake _ | .dcePage _
  | .kvRequestComplete _ _ _ | .kvVictimAction _ | .updStart _ _ | .updTileCommit _ _ | .normApply _ _ | .stagingBufferTake _ _
  | .delivery _ _ | .replicaCommit _ | .replicaLockTimeout _ _ | .pageWalk _ _ _ _ | .walkSlotGrant _ | .hsemClaim _ _
  | .hsemRelease _ _ | .hostLinkDown _ | .bar0ControlWrite _ _ _ | .hostHdmAccess _ _ _ _ | .submissionRingTake _
  | .attestationRequest _ _ | .faultRecordDeliver | .faultRingDrain _ | .rollback _ _ | .contextCreate _ _ | .contextEnd _
  | .asidChange _ _ _ | .factNone _ _ | .factKill _ _ | .factReplay _ _ | .factResume _ _ | .topoReload _ | .routesReload _
  | .haltResume _ | .eccCorrected _ _ | .eccUncorrectable _ | .rowRetire _ | .checkerMismatch _ _ | .warmReset _ _
  | .throttleEvent _ | .thermalLimit _ _ | .coldPowerOn | .digest _ _ _ _ _ | .digestTimeout _ _ | .read _ | .write _
  | .atomic _ | .rddata _ | .wrack _ | .atrsp _ | .sync _ | .follow _ | .dreq _ _ | .drsp _ | .packetForward _ _ _
  | .flowStop _ _ _ | .flowGo _ _ _ | .linkDown _ | .linkStateChange _ _ | .peerRequestTimeout _ | .timeExchangeStart _
  | .packageTimeExchange _ _ | .ptmSync _ | .disciplineLoss _ | .dieTimeTick _ _ | .wordThatDoesNotExecute _
  | .linkLevelReplay _ | .hostLinkUp _ | .powerOff | .throttleEnd _ | .zeroComplete _ => of_none rfl

/-- IADD.16 of N = 0, A = 0 and D = 0, the halfword 0x0000, is not well formed (R40). -/
theorem ne_zeroHalfword {i : Instr} (h : i.wellFormed = true) : i ≠ .iadd16 0 0 0 := by
  rintro rfl
  exact absurd h (by decide)

theorem length_encode (i : Instr) : (encode i).length = i.size := by
  unfold encode Instr.size
  cases encodeForm i <;> rfl

/-- Settles O56: each instruction by its own law, the zero halfword being no well-formed instruction's encoding. -/
theorem encodeThenDecode : Obligations.EncodeThenDecode := by
  unfold Obligations.EncodeThenDecode
  exact fun i hwf hw rest => ⟨roundTrip i hw (ne_zeroHalfword hwf) rest, length_encode i⟩

/-! The fields of a word. -/

theorem extract_join {k : Nat} (w : BitVec k) (lo h l : Nat) :
    w.extractLsb' (lo + l) h ++ w.extractLsb' lo l = w.extractLsb' lo (h + l) :=
  BitVec.extractLsb'_append_extractLsb'_eq_extractLsb' rfl

theorem extract_extract {k : Nat} (w : BitVec k) {lo len i n : Nat} (h : i + n ≤ len) :
    (w.extractLsb' lo len).extractLsb' i n = w.extractLsb' (lo + i) n := by
  apply BitVec.eq_of_getLsbD_eq
  intro j hj
  simp [hj, show i + j < len by omega, Nat.add_assoc]

/-- A value whose high part is 0 is its low part, extended. -/
theorem setWidth_of_high {k j : Nat} {x : BitVec (k + j)} (h : x.extractLsb' k j = 0#j) :
    (x.extractLsb' 0 k).setWidth (k + j) = x := by
  apply BitVec.eq_of_getLsbD_eq
  intro i hi
  by_cases hk : i < k
  · simp [hi, hk]
  · have := congrArg (·.getLsbD (i - k)) h
    simp only [BitVec.getLsbD_extractLsb', show k + (i - k) = i by omega, show i - k < j by omega] at this
    simpa [hi, hk] using this.symm

theorem bit0_eq {w : Word} (h : w.getLsbD 0 = true) : w.extractLsb' 0 1 = 1#1 := by
  apply BitVec.eq_of_getLsbD_eq
  intro i hi
  obtain rfl : i = 0 := by omega
  simpa using h

/-- A word is laid out from its fields (R42). -/
theorem wordR_fields {w : Word} (h : w.getLsbD 0 = true) :
    wordR (sField w) (nField w) (bField w) (aField w) (dField w) (opField w) = w := by
  simp only [wordR, sField, nField, bField, aField, dField, opField, ← bit0_eq h]
  rw [extract_join w 29 2 1, extract_join w 22 3 7, extract_join w 15 10 7, extract_join w 8 17 7, extract_join w 1 24 7,
    extract_join w 0 31 1]
  exact extract_all w

theorem imm10Field_eq (w : Word) : imm10Field w = sField w ++ nField w ++ bField w := by
  simp only [imm10Field, sField, nField, bField]
  rw [extract_join w 29 2 1, extract_join w 22 3 7]

theorem imm17Field_eq (w : Word) : imm17Field w = imm10Field w ++ aField w := by
  simp only [imm17Field, imm10Field, aField]
  rw [extract_join w 15 10 7]

theorem wordI_fields {w : Word} (h : w.getLsbD 0 = true) : wordI (imm10Field w) (aField w) (dField w) (opField w) = w := by
  rw [imm10Field_eq]
  exact wordR_fields h

theorem wordM_fields {w : Word} (h : w.getLsbD 0 = true) :
    wordM (scField w) (subField w) (b5Field w) (aField w) (dField w) (opField w) = w := by
  have e : imm10Field w = scField w ++ subField w ++ b5Field w := by
    simp only [imm10Field, scField, subField, b5Field]
    rw [extract_join w 27 3 2, extract_join w 22 5 5]
  refine Eq.trans ?_ (wordI_fields h)
  rw [e]
  rfl

theorem wordH_fields {h : Half} (h0 : h.getLsbD 0 = false) :
    wordH (h.extractLsb' 15 1) (h.extractLsb' 10 5) (h.extractLsb' 5 5) (h.extractLsb' 1 4) = h := by
  have e : h.extractLsb' 0 1 = 0#1 := by
    apply BitVec.eq_of_getLsbD_eq
    intro i hi
    obtain rfl : i = 0 := by omega
    simpa using h0
  simp only [wordH, ← e]
  rw [extract_join h 10 1 5, extract_join h 5 6 5, extract_join h 1 11 4, extract_join h 0 15 1]
  exact extract_all h

/-- The sub-op of a word of format R, G or E is [31:30] (R42). -/
theorem subOp_wordR {op : BitVec 7} (h : (!isImmMajor op && !isMemMajor op) = true) (s : BitVec 2) (n : BitVec 1)
    (b a d : BitVec 7) : subOp (wordR s n b a d op) = s.toNat := by
  have key : ∀ op : BitVec 7, (!isImmMajor op && !isMemMajor op) = true → ¬(0x50 ≤ op.toNat ∧ op.toNat ≤ 0x56) ∧
      ¬((0x30 ≤ op.toNat ∧ op.toNat ≤ 0x3C) ∨ (0x44 ≤ op.toNat ∧ op.toNat ≤ 0x46) ∨ (0x48 ≤ op.toNat ∧ op.toNat ≤ 0x4C) ∨
        op.toNat = 0x4F) := by decide +kernel
  obtain ⟨h1, h2⟩ := key op h
  simp only [subOp, opField_wordR, sField_wordR, if_neg h1, if_neg h2]

/-- A word of format I, L or B has no sub-op. -/
theorem subOp_wordI {op : BitVec 7} (h : isImmMajor op = true) (i : BitVec 10) (a d : BitVec 7) : subOp (wordI i a d op) = 0 := by
  have key : ∀ op : BitVec 7, isImmMajor op = true → ¬(0x50 ≤ op.toNat ∧ op.toNat ≤ 0x56) ∧
      ((0x30 ≤ op.toNat ∧ op.toNat ≤ 0x3C) ∨ (0x44 ≤ op.toNat ∧ op.toNat ≤ 0x46) ∨ (0x48 ≤ op.toNat ∧ op.toNat ≤ 0x4C) ∨
        op.toNat = 0x4F) := by decide +kernel
  obtain ⟨h1, h2⟩ := key op h
  simp only [subOp, opField_wordI, if_neg h1, if_pos h2]

/-- The sub-op of a word of format M is [28:27] (R44). -/
theorem subOp_wordM {op : BitVec 7} (h : isMemMajor op = true) (c : BitVec 3) (s : BitVec 2) (f : BitVec 5) (a d : BitVec 7) :
    subOp (wordM c s f a d op) = s.toNat := by
  have key : ∀ op : BitVec 7, isMemMajor op = true → 0x50 ≤ op.toNat ∧ op.toNat ≤ 0x56 := by decide +kernel
  simp only [subOp, opField_wordM, subField_wordM, if_pos (key op h)]

/-! Bits that must be 0 (R42). -/

/-- The bits of a field. -/
def fieldMask (lo len : Nat) : Word := (BitVec.allOnes len).setWidth 32 <<< lo

theorem and_fieldMask (w : Word) {lo len : Nat} (h : lo + len ≤ 32) : w &&& fieldMask lo len = 0#32 ↔ w.extractLsb' lo len = 0#len := by
  constructor
  · intro e
    apply BitVec.eq_of_getLsbD_eq
    intro i hi
    have := congrArg (·.getLsbD (lo + i)) e
    simpa [fieldMask, hi, show lo + i < 32 by omega, show i < 32 by omega] using this
  · intro e
    apply BitVec.eq_of_getLsbD_eq
    intro i hi
    have := congrArg (·.getLsbD (i - lo)) e
    simp only [fieldMask, BitVec.getLsbD_and, BitVec.getLsbD_shiftLeft, BitVec.getLsbD_setWidth, BitVec.getLsbD_allOnes,
      BitVec.getLsbD_extractLsb'] at this ⊢
    by_cases h1 : i < lo
    · simp [h1]
    · by_cases h2 : i - lo < len
      · rw [show lo + (i - lo) = i by omega] at this
        simp_all
      · simp [h2]

/-- The condition `c` on the fields of a word says that its bits `m` are 0. -/
def Fixed (m w : Word) (c : Bool) : Prop := w &&& m = 0#32 ↔ c = true

theorem fixed_none (w : Word) : Fixed 0 w true := by simp [Fixed]

theorem fixed_and {m m' w : Word} {c c' : Bool} (h : Fixed m w c) (h' : Fixed m' w c') : Fixed (m ||| m') w (c && c') := by
  unfold Fixed at *
  rw [Bool.and_eq_true, ← h, ← h', BitVec.and_or_distrib_left, BitVec.or_eq_zero_iff]

theorem fixed_field (w : Word) {lo len : Nat} {x : BitVec len} (h : lo + len ≤ 32) (hx : w.extractLsb' lo len = x) :
    Fixed (fieldMask lo len) w (x == 0#len) := by
  rw [Fixed, and_fieldMask w h, hx, beq_iff_eq]

section
variable (s : BitVec 2) (n : BitVec 1) (b a d op : BitVec 7)

theorem fixed_n : Fixed (fieldMask 29 1) (wordR s n b a d op) (n == 0) := fixed_field _ (by decide) (nField_wordR ..)
theorem fixed_b : Fixed (fieldMask 22 7) (wordR s n b a d op) (b == 0) := fixed_field _ (by decide) (bField_wordR ..)
theorem fixed_a : Fixed (fieldMask 15 7) (wordR s n b a d op) (a == 0) := fixed_field _ (by decide) (aField_wordR ..)
theorem fixed_d : Fixed (fieldMask 8 7) (wordR s n b a d op) (d == 0) := fixed_field _ (by decide) (dField_wordR ..)

theorem fixed_bHigh {i k : Nat} (h : i + k ≤ 7) : Fixed (fieldMask (22 + i) k) (wordR s n b a d op) (b.extractLsb' i k == 0#k) :=
  fixed_field _ (by omega) (by rw [← extract_extract _ h]; exact congrArg (·.extractLsb' i k) (bField_wordR ..))

end

section
variable (i : BitVec 10) (a d op : BitVec 7)

theorem fixed_immHigh : Fixed (fieldMask 27 5) (wordI i a d op) (i.extractLsb' 5 5 == 0) :=
  fixed_field _ (by decide) (by
    rw [← extract_extract (i := 5) (lo := 22) (len := 10) _ (by decide)]
    exact congrArg (·.extractLsb' 5 5) (imm10Field_wordI ..))

theorem fixed_imm17High : Fixed (fieldMask 31 1) (wordI i a d op) ((i ++ a).extractLsb' 16 1 == 0) :=
  fixed_field _ (by decide) (by
    rw [← extract_extract (i := 16) (lo := 15) (len := 17) _ (by decide)]
    exact congrArg (·.extractLsb' 16 1) (imm17Field_wordL (i ++ a) d op))

theorem fixed_immA : Fixed (fieldMask 15 7) (wordI i a d op) (a == 0) := fixed_field _ (by decide) (aField_wordI ..)
theorem fixed_immD : Fixed (fieldMask 8 7) (wordI i a d op) (d == 0) := fixed_field _ (by decide) (dField_wordI ..)

end

theorem fixed_memAD (c : BitVec 3) (s : BitVec 2) (f : BitVec 5) (a d op : BitVec 7) :
    Fixed (fieldMask 15 7 ||| fieldMask 8 7) (wordM c s f a d op) (a == 0 && d == 0) :=
  fixed_and (fixed_field _ (by decide) (aField_wordM ..)) (fixed_field _ (by decide) (dField_wordM ..))

/-! The check of a word (R59), by its major and sub-op. -/

/-- The MBZ bits of a major and sub-op. -/
def fixedBits (op s : Nat) : Word :=
  ((fixedZero.find? fun x => x.1 == op * 4 + s).map (·.2)).getD 0 ||| (if fixedN op then 0x20000000 else 0)

/-- A major or sub-op that R57 reserves. -/
def reservedCode (op s : Nat) : Bool :=
  reservedMajor op || decide ((op = 0x17 ∧ s = 3) ∨ (op = 0x2C ∧ s = 3) ∨ (op = 0x6B ∧ 2 ≤ s))

/-- A load or store that carries SC = 0 (R55). -/
def unscoped (op s : Nat) : Bool := decide ((0x50 ≤ op ∧ op ≤ 0x52) ∨ (op = 0x56 ∧ s < 2))

theorem wordCheck_eq (w : Word) : wordCheck w =
    if reservedCode (opField w).toNat (subOp w) then some .reserved
    else if w &&& fixedBits (opField w).toNat (subOp w) ≠ 0 then some .field
    else if scField w ≠ 0 ∧ unscoped (opField w).toNat (subOp w) = true then some .scope else none := by
  simp only [wordCheck, fixedBits, reservedCode, unscoped]
  by_cases h : reservedMajor (opField w).toNat = true <;> simp [h]

/-- A major and sub-op whose words have the MBZ bits `m` and no other condition. -/
def maskedCode (op s : Nat) (m : Word) : Bool := !reservedCode op s && !unscoped op s && fixedBits op s == m

theorem wordCheck_masked {w m : Word} {op s : Nat} {c : Bool} (ho : (opField w).toNat = op) (hs : subOp w = s)
    (h : maskedCode op s m = true) (hf : Fixed m w c) : wordCheck w = if c then none else some .field := by
  simp only [maskedCode, Bool.and_eq_true, Bool.not_eq_true', beq_iff_eq] at h
  obtain ⟨⟨hr, hu⟩, hm⟩ := h
  simp only [wordCheck_eq, ho, hs, hr, hu, hm]
  by_cases hc : c = true
  · simp [hf.2 hc, hc]
  · have hw : w &&& m ≠ 0#32 := mt hf.1 hc
    simp [hw, hc]

/-- A major and sub-op whose words must carry SC = 0 and have no MBZ bit. -/
def unscopedCode (op s : Nat) : Bool := !reservedCode op s && unscoped op s && fixedBits op s == 0

theorem wordCheck_unscoped {w : Word} {op s : Nat} (ho : (opField w).toNat = op) (hs : subOp w = s) (h : unscopedCode op s = true) :
    wordCheck w = if scField w == 0 then none else some .scope := by
  simp only [unscopedCode, Bool.and_eq_true, Bool.not_eq_true', beq_iff_eq] at h
  obtain ⟨⟨hr, hu⟩, hm⟩ := h
  simp only [wordCheck_eq, ho, hs, hr, hu, hm]
  by_cases hc : scField w = 0 <;> simp [hc]

theorem wordCheck_reserved {w : Word} (h : reservedCode (opField w).toNat (subOp w) = true) : wordCheck w = some .reserved := by
  rw [wordCheck_eq, if_pos h]

/-! What the decoder reads, branch by branch. -/

/-- Of a decoder's answer: `P` of the instruction, or `Q` of the error. -/
def Decoded (P : Instr → Prop) (Q : DecodeError → Prop) : Except DecodeError Instr → Prop
  | .ok i => P i
  | .error e => Q e

section
variable {P : Instr → Prop} {Q : DecodeError → Prop} {x y z u r : Except DecodeError Instr}

theorem decoded_ite {c : Prop} {_ : Decidable c} (h : c → Decoded P Q x) (h' : ¬c → Decoded P Q y) :
    Decoded P Q (if c then x else y) := by
  split
  · exact h ‹_›
  · exact h' ‹_›

theorem decoded_sub {s : BitVec 2} (h0 : s = 0#2 → Decoded P Q x) (h1 : s = 1#2 → Decoded P Q y)
    (h2 : s = 2#2 → Decoded P Q z) (h3 : s = 3#2 → Decoded P Q u) :
    Decoded P Q (if s = 0#2 then x else if s = 1#2 then y else if s = 2#2 then z else u) := by
  have key : ∀ s : BitVec 2, s ≠ 0#2 → s ≠ 1#2 → s ≠ 2#2 → s = 3#2 := by decide
  exact decoded_ite h0 fun n0 => decoded_ite h1 fun n1 => decoded_ite h2 fun n2 => h3 (key s n0 n1 n2)

/-- One major of a format with sub-ops. -/
theorem decoded_major {op k : BitVec 7} {s : BitVec 2} (h0 : op = k → s = 0#2 → Decoded P Q x) (h1 : op = k → s = 1#2 → Decoded P Q y)
    (h2 : op = k → s = 2#2 → Decoded P Q z) (h3 : op = k → s = 3#2 → Decoded P Q u) (h' : op ≠ k → Decoded P Q r) :
    Decoded P Q (if op = k then if s = 0#2 then x else if s = 1#2 then y else if s = 2#2 then z else u else r) :=
  decoded_ite (fun e => decoded_sub (h0 e) (h1 e) (h2 e) (h3 e)) h'

end

/-- The decoder's answer is right for a word: the instruction whose encoding the word is, and which passes the check, or the error
that the check names. -/
abbrev Reads (w : Word) (r : Except DecodeError Instr) : Prop :=
  Decoded (fun i => encodeForm i = .word w ∧ wordCheck w = none) (fun e => wordCheck w = some e) r

theorem reads_mbz {w : Word} {c : Bool} {i : Instr} (hc : wordCheck w = if c then none else some .field)
    (he : c = true → encodeForm i = .word w) : Reads w (mbz c i) := by
  cases c with
  | false => exact hc
  | true => exact ⟨he rfl, hc⟩

theorem reads_noScope {w : Word} {c : BitVec 3} {i : Instr} (hc : wordCheck w = if c == 0 then none else some .scope)
    (he : c = 0 → encodeForm i = .word w) : Reads w (noScope c i) := by
  unfold noScope
  by_cases h : (c == 0) = true
  · rw [if_pos h] at hc ⊢
    exact ⟨he (by simpa using h), hc⟩
  · rw [if_neg h] at hc ⊢
    exact hc

/-! Formats R, G and E. -/

section
variable {s : BitVec 2} {n : BitVec 1} {b a d op : BitVec 7} {i : Instr}

/-- The code of a word of format R, G or E, with its MBZ bits. -/
def codeR (op : BitVec 7) (s : BitVec 2) (m : Word) : Bool := !isImmMajor op && !isMemMajor op && maskedCode op.toNat s.toNat m

theorem readsR_mbz {m : Word} {c : Bool} (hf : Fixed m (wordR s n b a d op) c) (h : codeR op s m = true)
    (he : c = true → encodeForm i = .word (wordR s n b a d op)) : Reads (wordR s n b a d op) (mbz c i) := by
  obtain ⟨hop, hm⟩ := (Bool.and_eq_true _ _).mp h
  exact reads_mbz (wordCheck_masked (by rw [opField_wordR]) (subOp_wordR hop s n b a d) hm hf) he

theorem readsR_ok (he : encodeForm i = .word (wordR s n b a d op)) (h : codeR op s 0 = true) : Reads (wordR s n b a d op) (.ok i) :=
  readsR_mbz (fixed_none _) h fun _ => he

theorem readsR_reserved (h : (!isImmMajor op && !isMemMajor op && reservedCode op.toNat s.toNat) = true) :
    Reads (wordR s n b a d op) (.error .reserved) := by
  obtain ⟨hop, hr⟩ := (Bool.and_eq_true _ _).mp h
  exact wordCheck_reserved (by rw [opField_wordR, subOp_wordR hop]; exact hr)

theorem reads_movvgl : Reads (wordR 3#2 n b a d 0x2D#7) (mbz (n == 0 && b.extractLsb' 5 2 == 0) (.movvgl (b.extractLsb' 0 5) a d)) := by
  refine readsR_mbz (fixed_and (fixed_n ..) (fixed_bHigh (i := 5) (k := 2) _ _ _ _ _ _ (by decide))) rfl fun h => ?_
  simp only [Bool.and_eq_true, beq_iff_eq] at h
  obtain ⟨rfl, hb⟩ := h
  exact congrArg (fun x => Encoding.word (wordR 3#2 0#1 x a d 0x2D#7)) (setWidth_of_high (k := 5) (j := 2) hb)

theorem reads_trap :
    Reads (wordR 3#2 n b a d 0x62#7) (mbz (n == 0 && b.extractLsb' 4 3 == 0 && d == 0) (.trap (b.extractLsb' 0 4) a)) := by
  refine readsR_mbz (fixed_and (fixed_and (fixed_n ..) (fixed_bHigh (i := 4) (k := 3) _ _ _ _ _ _ (by decide))) (fixed_d ..)) rfl
    fun h => ?_
  simp only [Bool.and_eq_true, beq_iff_eq] at h
  obtain ⟨⟨rfl, hb⟩, rfl⟩ := h
  exact congrArg (fun x => Encoding.word (wordR 3#2 0#1 x a 0#7 0x62#7)) (setWidth_of_high (k := 4) (j := 3) hb)

end

/-- The majors of 0x00 to 0x2F that are not reserved (R57). -/
def laneMajors : List (BitVec 7) := [0x00#7, 0x01#7, 0x02#7, 0x03#7, 0x04#7, 0x05#7, 0x06#7, 0x07#7, 0x10#7, 0x11#7, 0x12#7, 0x13#7,
  0x14#7, 0x15#7, 0x16#7, 0x17#7, 0x20#7, 0x21#7, 0x22#7, 0x23#7, 0x24#7, 0x25#7, 0x28#7, 0x29#7, 0x2A#7, 0x2B#7, 0x2C#7, 0x2D#7]

theorem reserved_of_not_laneMajor : ∀ op : BitVec 7, op < 0x30#7 → op ∉ laneMajors → ∀ s : BitVec 2,
    (!isImmMajor op && !isMemMajor op && reservedCode op.toNat s.toNat) = true := by decide +kernel

/-- The formats with sub-ops at [31:30]: one branch for each major and sub-op, and every other major is reserved. -/
theorem reads_decodeFieldsR {op : BitVec 7} (hop : (!isImmMajor op && !isMemMajor op) = true) (s : BitVec 2) (n : BitVec 1)
    (b a d : BitVec 7) : Reads (wordR s n b a d op)
      (if op < 0x30#7 then decodeLane op s n b a d else if op < 0x50#7 then decodeGroupWide op s n b a d
        else if op < 0x68#7 then decodeEngine op s n b a d else decodeSystem op s n b a d) := by
  unfold decodeLane decodeGroupWide decodeEngine decodeSystem
  refine decoded_ite (fun hlane => ?_) fun _ => decoded_ite (fun _ => ?_) fun _ => decoded_ite (fun _ => ?_) fun _ => ?_
  all_goals repeat' refine decoded_major ?_ ?_ ?_ ?_ ?_ <;> intro h
  all_goals try (intro hs; subst h hs)
  any_goals (with_reducible refine readsR_ok ?_ ?_) <;> rfl
  any_goals (with_reducible refine readsR_reserved ?_) <;> rfl
  any_goals with_reducible exact reads_movvgl
  any_goals with_reducible exact reads_trap
  any_goals
    with_reducible apply readsR_mbz
    · with_reducible apply_rules [fixed_and, fixed_n, fixed_b, fixed_a, fixed_d]
    · rfl
    · simp +contextual only [Bool.and_eq_true, beq_iff_eq, and_imp]
      intros
      rfl
  · refine readsR_reserved (reserved_of_not_laneMajor _ hlane ?_ _)
    simp_all only [laneMajors, List.mem_cons, List.not_mem_nil, or_self, not_false_eq_true]
  all_goals
    refine readsR_reserved ?_
    clear n b a d
    revert op s
    decide +kernel

/-! Formats I, L and B. -/

section
variable {imm : BitVec 10} {a d op : BitVec 7} {i : Instr}

/-- The code of a word of format I, L or B, with its MBZ bits. -/
def codeI (op : BitVec 7) (m : Word) : Bool := isImmMajor op && maskedCode op.toNat 0 m

theorem readsI_mbz {m : Word} {c : Bool} (hf : Fixed m (wordI imm a d op) c) (h : codeI op m = true)
    (he : c = true → encodeForm i = .word (wordI imm a d op)) : Reads (wordI imm a d op) (mbz c i) := by
  obtain ⟨hop, hm⟩ := (Bool.and_eq_true _ _).mp h
  exact reads_mbz (wordCheck_masked (by rw [opField_wordI]) (subOp_wordI hop imm a d) hm hf) he

theorem readsI_ok (he : encodeForm i = .word (wordI imm a d op)) (h : codeI op 0 = true) : Reads (wordI imm a d op) (.ok i) :=
  readsI_mbz (fixed_none _) h fun _ => he

/-- A shift by an immediate: five of its ten bits are MBZ. -/
theorem readsI_shift (h : codeI op (fieldMask 27 5) = true)
    (he : encodeForm i = .word (wordI ((imm.extractLsb' 0 5).setWidth 10) a d op)) :
    Reads (wordI imm a d op) (mbz (imm.extractLsb' 5 5 == 0) i) :=
  readsI_mbz (fixed_immHigh ..) h fun hi => by rw [he, setWidth_of_high (k := 5) (j := 5) (by simpa using hi)]

/-- A 16-bit immediate in format L: the bit above it is MBZ. -/
theorem readsI_imm16 (h : codeI op (fieldMask 31 1) = true)
    (he : encodeForm i = .word (wordL (((imm ++ a).extractLsb' 0 16).setWidth 17) d op)) :
    Reads (wordI imm a d op) (mbz ((imm ++ a).extractLsb' 16 1 == 0) i) :=
  readsI_mbz (fixed_imm17High ..) h fun hi => by
    rw [he, setWidth_of_high (k := 16) (j := 1) (x := imm ++ a) (by simpa using hi)]; rfl

theorem readsI_freeD (h : codeI op (fieldMask 8 7) = true) (he : encodeForm i = .word (wordI imm a 0#7 op)) :
    Reads (wordI imm a d op) (mbz (d == 0) i) :=
  readsI_mbz (fixed_immD ..) h fun hd => by rw [he, show d = 0#7 by simpa using hd]

theorem readsI_freeA (h : codeI op (fieldMask 15 7) = true) (he : encodeForm i = .word (wordI imm 0#7 d op)) :
    Reads (wordI imm a d op) (mbz (a == 0) i) :=
  readsI_mbz (fixed_immA ..) h fun ha => by rw [he, show a = 0#7 by simpa using ha]

/-- The majors of formats I, L and B. -/
def immMajors : List (BitVec 7) := [0x30#7, 0x31#7, 0x32#7, 0x33#7, 0x34#7, 0x35#7, 0x36#7, 0x37#7, 0x38#7, 0x39#7, 0x3A#7, 0x3B#7,
  0x3C#7, 0x44#7, 0x45#7, 0x46#7, 0x48#7, 0x49#7, 0x4A#7, 0x4B#7, 0x4C#7, 0x4F#7]

theorem mem_immMajors : ∀ op : BitVec 7, isImmMajor op = true → op ∈ immMajors := by decide +kernel

/-- Every major of formats I, L and B. -/
theorem reads_decodeImm (h : isImmMajor op = true) (imm : BitVec 10) (a d : BitVec 7) :
    Reads (wordI imm a d op) (decodeImm op imm a d (imm ++ a)) := by
  unfold decodeImm
  repeat' with_reducible refine decoded_ite (fun e => ?_) (fun e => ?_)
  all_goals try subst e
  any_goals (with_reducible refine readsI_ok ?_ ?_) <;> rfl
  any_goals (with_reducible refine readsI_shift ?_ ?_) <;> rfl
  any_goals (with_reducible refine readsI_imm16 ?_ ?_) <;> rfl
  any_goals (with_reducible refine readsI_freeD ?_ ?_) <;> rfl
  any_goals (with_reducible refine readsI_freeA ?_ ?_) <;> rfl
  refine absurd (mem_immMajors _ h) ?_
  simp_all only [immMajors, List.mem_cons, List.not_mem_nil, or_self, not_false_eq_true]

end

/-! Format M. -/

section
variable {c : BitVec 3} {s : BitVec 2} {f : BitVec 5} {a d op : BitVec 7} {i : Instr}

theorem readsM_mbz {m : Word} {x : Bool} (hf : Fixed m (wordM c s f a d op) x)
    (h : (isMemMajor op && maskedCode op.toNat s.toNat m) = true) (he : x = true → encodeForm i = .word (wordM c s f a d op)) :
    Reads (wordM c s f a d op) (mbz x i) := by
  obtain ⟨hop, hm⟩ := (Bool.and_eq_true _ _).mp h
  exact reads_mbz (wordCheck_masked (by rw [opField_wordM]) (subOp_wordM hop c s f a d) hm hf) he

theorem readsM_ok (he : encodeForm i = .word (wordM c s f a d op)) (h : (isMemMajor op && maskedCode op.toNat s.toNat 0) = true) :
    Reads (wordM c s f a d op) (.ok i) :=
  readsM_mbz (fixed_none _) h fun _ => he

theorem readsM_noScope (he : encodeForm i = .word (wordM 0#3 s f a d op))
    (h : (isMemMajor op && unscopedCode op.toNat s.toNat) = true) : Reads (wordM c s f a d op) (noScope c i) := by
  obtain ⟨hop, hu⟩ := (Bool.and_eq_true _ _).mp h
  refine reads_noScope ?_ fun hc => by rw [he, hc]; rfl
  rw [wordCheck_unscoped (by rw [opField_wordM]) (subOp_wordM hop c s f a d) hu, scField_wordM]

theorem readsM_fence (he : encodeForm i = .word (wordM c s f 0#7 0#7 op))
    (h : (isMemMajor op && maskedCode op.toNat s.toNat (fieldMask 15 7 ||| fieldMask 8 7)) = true) :
    Reads (wordM c s f a d op) (mbz (a == 0 && d == 0) i) :=
  readsM_mbz (fixed_memAD ..) h fun hx => by
    simp only [Bool.and_eq_true, beq_iff_eq] at hx
    rw [he, hx.1, hx.2]; rfl

/-- Every major and sub-op of format M. -/
theorem reads_decodeMem (h : isMemMajor op = true) (c : BitVec 3) (s : BitVec 2) (f : BitVec 5) (a d : BitVec 7) :
    Reads (wordM c s f a d op) (decodeMem op c s f a d) := by
  unfold decodeMem
  repeat' refine decoded_major ?_ ?_ ?_ ?_ ?_ <;> intro e
  all_goals try (intro hs; subst e hs)
  any_goals (with_reducible refine readsM_ok ?_ ?_) <;> rfl
  any_goals (with_reducible refine readsM_noScope ?_ ?_) <;> rfl
  any_goals (with_reducible refine readsM_fence ?_ ?_) <;> rfl
  refine absurd h ?_
  clear h c s f a d
  revert op
  decide +kernel

end

/-- What the decoder reads of a word with bit 0 set is right. -/
theorem reads_decodeWord {w : Word} (h0 : w.getLsbD 0 = true) : Reads w (decodeWord w) := by
  have hI := @reads_decodeImm (opField w)
  have hM := @reads_decodeMem (opField w)
  unfold decodeWord
  refine decoded_ite (fun hi => ?_) fun hi => decoded_ite (fun hm => ?_) fun hm => ?_
  · have := hI hi (imm10Field w) (aField w) (dField w)
    rwa [wordI_fields h0, ← imm17Field_eq] at this
  · have := hM hm (scField w) (subField w) (b5Field w) (aField w) (dField w)
    rwa [wordM_fields h0] at this
  · have := @reads_decodeFieldsR (opField w) (by simp [hi, hm]) (sField w) (nField w) (bField w) (aField w) (dField w)
    rwa [wordR_fields h0] at this

/-- The decoder refuses a word with the error that the check names, and no other. -/
theorem decodeWord_error {w : Word} (h0 : w.getLsbD 0 = true) (e : DecodeError) :
    decodeWord w = .error e ↔ wordCheck w = some e := by
  have h := reads_decodeWord h0
  cases hd : decodeWord w with
  | ok i =>
    rw [hd] at h
    exact ⟨nofun, fun hc => absurd (h.2.symm.trans hc) nofun⟩
  | error e' =>
    rw [hd] at h
    have hc : wordCheck w = some e' := h
    simp [hc]

/-- What the decoder reads of a word as an instruction has that word as its encoding. -/
theorem encodeForm_of_decodeWord {w : Word} {i : Instr} (h0 : w.getLsbD 0 = true) (h : decodeWord w = .ok i) :
    encodeForm i = .word w := by
  have hr := reads_decodeWord h0
  rw [h] at hr
  exact hr.1

/-! 16-bit forms (R41). -/

theorem encodeForm_of_decodeHalf {n : BitVec 1} {a d : BitVec 5} {op : BitVec 4} :
    Decoded (fun i => encodeForm i = .half (wordH n a d op)) (fun _ => True) (decodeHalf n a d op) := by
  unfold decodeHalf
  repeat' with_reducible refine decoded_ite (fun e => ?_) (fun e => ?_)
  all_goals try (subst e; rfl)
  obtain rfl : op = 15#4 := by bv_omega
  refine decoded_ite (fun h => ?_) fun _ => trivial
  simp only [Bool.and_eq_true, beq_iff_eq] at h
  obtain ⟨⟨rfl, rfl⟩, rfl⟩ := h
  rfl

theorem encodeForm_of_decodeHalfWord {h : Half} {i : Instr} (h0 : h.getLsbD 0 = false) (hd : decodeHalfWord h = .ok i) :
    encodeForm i = .half h := by
  unfold decodeHalfWord at hd
  split at hd
  · cases hd
  · have := @encodeForm_of_decodeHalf (h.extractLsb' 15 1) (h.extractLsb' 10 5) (h.extractLsb' 5 5) (h.extractLsb' 1 4)
    rw [hd, wordH_fields h0] at this
    exact this

/-! The bytes of a word (R1). -/

theorem bytesOfHalf_halfOf (b0 b1 : Byte) : bytesOfHalf (halfOf b0 b1) = [b0, b1] := by
  unfold bytesOfHalf halfOf
  rw [extract_low _ _ _ _ (by decide), extract_high _ _ _ _ (by decide), extract_all, extract_all]

theorem bytesOfWord_halves (b0 b1 b2 b3 : Byte) : bytesOfWord (halfOf b2 b3 ++ halfOf b0 b1) = [b0, b1, b2, b3] := by
  unfold bytesOfWord
  rw [extract_low _ _ _ _ (by decide), extract_high _ _ _ _ (by decide), extract_all, extract_all, bytesOfHalf_halfOf,
    bytesOfHalf_halfOf]
  rfl

/-- Settles O57: the bytes are those of a word with bit 0 set, or of a halfword with bit 0 clear, and the branch of the decoder that
reads them reads the instruction of that encoding alone. -/
theorem decodeThenEncode : Obligations.DecodeThenEncode := by
  unfold Obligations.DecodeThenEncode
  intro bs rest i h
  match bs with
  | [] | [_] => cases h
  | b0 :: b1 :: tl =>
    cases h0 : (halfOf b0 b1).getLsbD 0 with
    | false =>
      have hb : b0 :: b1 :: tl = bytesOfHalf (halfOf b0 b1) ++ tl := by rw [bytesOfHalf_halfOf]; rfl
      rw [hb, decode_half _ _ h0] at h
      cases hd : decodeHalfWord (halfOf b0 b1) with
      | error e => rw [hd] at h; cases h
      | ok j =>
        rw [hd] at h
        cases h
        simp only [hb, encode, encodeForm_of_decodeHalfWord h0 hd]
    | true =>
      match tl with
      | [] | [_] =>
        simp only [decode, h0, if_true] at h
        split at h <;> cases h
      | b2 :: b3 :: tl =>
        have hb : b0 :: b1 :: b2 :: b3 :: tl = bytesOfWord (halfOf b2 b3 ++ halfOf b0 b1) ++ tl := by rw [bytesOfWord_halves]; rfl
        have hw : (halfOf b2 b3 ++ halfOf b0 b1 : Word).getLsbD 0 = true := by
          rw [BitVec.getLsbD_append, if_pos (by decide)]; exact h0
        rw [hb, decode_word _ _ hw] at h
        cases hd : decodeWord (halfOf b2 b3 ++ halfOf b0 b1) with
        | error e => rw [hd] at h; cases h
        | ok j =>
          rw [hd] at h
          cases h
          simp only [hb, encode, encodeForm_of_decodeWord hw hd]

/-- Settles O55: each word is the encoding of its instruction. -/
theorem wordsDecode : Obligations.WordsDecode := by
  unfold Obligations.WordsDecode
  exact ⟨rfl, rfl, rfl, rfl, rfl, rfl⟩

end Sys2Proof.Proofs
end

section
/-!
PROOF. The 16-bit forms (R41), group-wide arithmetic (R43, R93, R94), and branches, calls and returns (R40, R45, R98): each by what
its operation is on the values that its sources read as, and by what retiring it leaves.
-/
namespace Sys2Proof.Proofs
open Sys2Proof.Machine Sys2Proof.Laws

/-! 16-bit forms (R41). -/

theorem icmpltW_eq (x y : Word) : icmpltW x y = if x.toInt < y.toInt then 1 else 0 := by
  simp only [icmpltW, bit32, BitVec.slt, decide_eq_true_eq]

/-- An instruction that needs nothing of the state is executed by every agent at once. -/
theorem clear_of_all (s : State) : Clear (Need.of .all) s := (clear_noreads rfl rfl rfl rfl).2 rfl

theorem exec_nop_next (s : State) : exec .nop s = .next (s.retire none 2 false) := by
  rw [exec_nop, execNop, guard_clear (clear_of_all s), cleared_noreads s rfl]

/-- Settles O7: each form by its operation on a lane, written by `writeLane`; NOP retires and no more. -/
theorem halfFormResults : Obligations.HalfFormResults := by
  unfold Obligations.HalfFormResults
  refine ⟨halfTwo_of exec_iadd16 fun _ _ => rfl, halfTwo_of exec_isub16 fun _ _ => rfl, halfTwo_of exec_imul16 fun _ _ => rfl,
    halfTwo_of exec_and16 fun _ _ => rfl, halfTwo_of exec_or16 fun _ _ => rfl, halfTwo_of exec_xor16 fun _ _ => rfl,
    halfImmediate_of exec_shli16 shlW_five, halfImmediate_of exec_shri16 shrW_five,
    halfTwo_of exec_fadd16 fun _ _ => rfl, halfTwo_of exec_fsub16 fun _ _ => rfl, halfTwo_of exec_fmul16 fun _ _ => rfl,
    halfTwo_of exec_fmax16 fun _ _ => rfl, halfTwo_of exec_icmplt16 icmpltW_eq,
    fun n a d s hc => ?mov16, fun n i d s hc => ?movi5, fun s => ?nop⟩
  case mov16 => exact answers_writeLane (by rw [exec_mov16, execMov16, guard_clear hc]) rfl
  case movi5 => exact answers_writeLane (by rw [exec_movi5, execMovi5, guard_clear hc]) rfl
  case nop => exact ⟨_, exec_nop_next s, flow_effect s _ _⟩

/-! Group-wide arithmetic (R93). -/

theorem gshlW_toNat (a b : DWord) : (gshlW a b).toNat = if 64 ≤ b.toNat then 0 else a.toNat * 2 ^ b.toNat % 2 ^ 64 := by
  unfold gshlW
  by_cases h : b.toNat < 64
  · rw [if_pos h, if_neg (Nat.not_le.2 h), BitVec.toNat_shiftLeft, Nat.shiftLeft_eq]
  · rw [if_neg h, if_pos (Nat.not_lt.1 h)]; rfl

theorem gshrW_toNat (a b : DWord) : (gshrW a b).toNat = if 64 ≤ b.toNat then 0 else a.toNat / 2 ^ b.toNat := by
  unfold gshrW
  by_cases h : b.toNat < 64
  · rw [if_pos h, if_neg (Nat.not_le.2 h), BitVec.toNat_ushiftRight, Nat.shiftRight_eq_div_pow]
  · rw [if_neg h, if_pos (Nat.not_lt.1 h)]; rfl

theorem gsraW_toInt (a b : DWord) : (gsraW a b).toInt = a.toInt / 2 ^ min b.toNat 63 := by
  rw [gsraW, BitVec.toInt_sshiftRight, Int.shiftRight_eq_div_pow]; rfl

theorem gminW_toInt (a b : DWord) : (gminW a b).toInt = min a.toInt b.toInt := by
  rw [gminW, BitVec.slt_eq_decide, apply_ite BitVec.toInt]
  simp only [decide_eq_true_eq]
  omega

theorem gmaxW_toInt (a b : DWord) : (gmaxW a b).toInt = max a.toInt b.toInt := by
  rw [gmaxW, BitVec.slt_eq_decide, apply_ite BitVec.toInt]
  simp only [decide_eq_true_eq]
  omega

theorem bit64_eq {c : Bool} {p : Prop} [Decidable p] (h : c = true ↔ p) : bit64 c = if p then 1 else 0 := by
  simp only [bit64, h]

/-- An instruction that reads no lane register and whose meaning, once it has passed decode, is a write of a g register. -/
theorem answers_finishG {i : Instr} {need : Need} {s : State} {d : BitVec 7} {x : State → DWord} (hc : Clear need s)
    (hr : need.reads = []) (h : exec i s = guard need s fun s => .next (s.finishG d (x s) false)) :
    Answers i s fun t => GroupEffect s t d.toNat (x s) false :=
  ⟨_, by rw [h, guard_clear hc, cleared_noreads s hr], finishG_effect s d _ false⟩

/-- Settles O8: each operation by what it does to the numbers, the result written by `finishG`. -/
theorem groupArithmeticResults : Obligations.GroupArithmeticResults := by
  unfold Obligations.GroupArithmeticResults
  refine ⟨groupTwo_of exec_gadd fun _ _ => rfl, groupTwo_of exec_gsub fun _ _ => rfl, groupTwo_of exec_gmul BitVec.toNat_mul,
    fun b a d s hc => answers_finishG hc rfl (exec_gmad ..), groupTwo_of exec_gand fun _ _ => rfl,
    groupTwo_of exec_gor fun _ _ => rfl, groupTwo_of exec_gxor fun _ _ => rfl, groupTwo_of exec_gandn fun _ _ => rfl,
    groupTwo_of exec_gshl gshlW_toNat, groupTwo_of exec_gshr gshrW_toNat, groupTwo_of exec_gsra gsraW_toInt,
    groupTwo_of exec_gmin gminW_toInt, groupTwo_of exec_gmax gmaxW_toInt, groupTwo_of exec_gcmpeq fun x y => bit64_eq beq_iff_eq,
    groupTwo_of exec_gcmplt fun x y => bit64_eq BitVec.slt_iff_toInt_lt,
    groupTwo_of exec_gcmpltu fun x y => bit64_eq BitVec.ult_iff_toNat_lt,
    fun i a d s hc => answers_finishG hc rfl (exec_gaddi ..), fun i d s hc => answers_finishG hc rfl (exec_gmovi ..),
    fun i d s hc => answers_finishG hc rfl (exec_gshi16 ..), fun a d s hc => answers_finishG hc rfl (exec_gmov ..)⟩

/-! Branches (R98). -/

/-- A target is the branch's own address plus twice the displacement (R45). -/
theorem target_eq (m : Agent) (x : BitVec 17) : m.target x = m.cur.pc + x.signExtend 32 * 2 := by
  rw [Agent.target, BitVec.shiftLeft_eq_mul_twoPow]; rfl

theorem branchIf_effect (s : State) {c : Bool} {p : Prop} [Decidable p] (x : BitVec 17) (h : c = true ↔ p) :
    if p then FlowEffect s (s.branchIf c (s.me.target x)) (s.me.cur.pc + x.signExtend 32 * 2) true
    else FlowEffect s (s.branchIf c (s.me.target x)) (s.me.cur.pc + 4) false := by
  rw [← target_eq]
  by_cases hp : p
  · rw [if_pos hp, State.branchIf, if_pos (h.2 hp)]
    exact jump_effect s _
  · rw [if_neg hp, State.branchIf, if_neg (mt h.1 hp)]
    exact finish_effect s false

/-- A call: the address of the next instruction goes to g62, and the chain ends (R98). -/
theorem call_effect (s : State) (p : Word) (x : DWord) :
    let t := { s with me := s.me.writeG 62 x }.jump p
    AgentOnly s t ∧ t.me.cur.em = s.me.cur.em ∧ t.me.cur.pc = p ∧ (∀ k, t.me.readG k = if k = 62 then x else s.me.readG k) ∧
    SameV s t ∧ SameXt s t ∧ SameScratch s t ∧ ChainGoes s t true none := by
  refine ⟨agentOnly_writeG .., by simp [State.jump], by simp [State.jump], fun k => by simp [State.jump, readG_writeG],
    fun k l hl => by simp [State.jump, hl], fun k => by simp [State.jump], fun k => by simp [State.jump],
    chainGoes_retire s _ _ _ _ (by simp) (by simp) (by simp) (by simp)⟩

/-- A jump to a register traps where its bit 0 is set (R40). -/
theorem jumpReg_results {i : Instr} {need : Need} {s : State} {x : State → DWord} (hc : Clear need s) (hr : need.reads = [])
    (h : exec i s = guard need s fun s => .next (s.jumpReg (x s))) :
    if (x s).getLsbD 0 = true then Traps i s .pcAlign
    else Answers i s fun t => FlowEffect s t ((x s).extractLsb' 0 32) true := by
  rw [guard_clear hc, cleared_noreads s hr, State.jumpReg] at h
  split at h
  · rw [if_pos ‹_›]; exact h
  · rw [if_neg ‹_›]; exact ⟨_, h, jump_effect s _⟩

/-- Settles O10: a branch by its condition, CALL by the write of g62 and the jump, RET and JMPG by bit 0 of their target. -/
theorem branchResults : Obligations.BranchResults := by
  unfold Obligations.BranchResults
  refine ⟨fun x s => ?bra, fun x p s hc => ?brg, fun x p s hc => ?brzg, fun x s hc => ?call,
    fun s hc => jumpReg_results hc rfl (exec_ret s), fun a s hc => jumpReg_results hc rfl (exec_jmpg a s)⟩
  case bra =>
    exact ⟨_, by rw [exec_bra, execBra, guard_clear (clear_of_all s), cleared_noreads s rfl], by rw [← target_eq]; exact jump_effect s _⟩
  case brg =>
    exact ⟨_, by rw [exec_brg, execBrg, guard_clear hc, cleared_noreads s rfl],
      branchIf_effect s (c := s.me.g7 p != 0) x bne_iff_ne⟩
  case brzg =>
    exact ⟨_, by rw [exec_brzg, execBrzg, guard_clear hc, cleared_noreads s rfl],
      branchIf_effect s (c := s.me.g7 p == 0) x beq_iff_eq⟩
  case call =>
    exact ⟨_, by rw [exec_call, execCall, guard_clear hc, cleared_noreads s rfl], by rw [← target_eq]; exact call_effect s _ _⟩

end Sys2Proof.Proofs
end

section
/-!
PROOF. Traps on a supervisor thread (R279) and what a precise trap discards on any agent (R53), and ERET (R284).
-/
namespace Sys2Proof.Proofs
open Sys2Proof.Machine Sys2Proof.Laws

/-! What a precise trap discards (R53). -/

theorem takeTrapWith_sup {s : State} (hk : s.me.kind = .sup) (c : Cause) (i : FaultInfo) :
    takeTrapWith s c i = { s with me := s.me.rollback.enterHandler c i s.me.cur.headPc } := if_pos hk

theorem takeTrapWith_unit {s : State} (hk : s.me.kind ≠ .sup) (c : Cause) (i : FaultInfo) :
    takeTrapWith s c i = { s with
      me := { s.me.rollback with run := .faulted }
      pending := s.pending ++ [pendingOf s.me (s.die s.me.place.die).time c .precise i s.me.cur.headPc] } := if_neg hk

/-- `b` has the registers of `a`, and of `a`'s chain nothing: no lane write, no write of its sub-group, no latch. -/
def ChainDiscarded (a b : Agent) : Prop :=
  b.v = a.v ∧ b.g = a.g ∧ b.xt = a.xt ∧ b.scratch = a.scratch ∧ b.retired = a.retired ∧
  b.heldG = a.heldG.filter (fun h => h.sub != a.cur.id) ∧ b.cur.id = a.cur.id ∧
  b.cur.held = [] ∧ b.cur.latches = .void ∧ b.cur.pos = 0 ∧ b.cur.em = a.cur.headEm

theorem chainDiscarded_takeTrapWith (s : State) (c : Cause) (i : FaultInfo) : ChainDiscarded s.me (takeTrapWith s c i).me := by
  by_cases hk : s.me.kind = .sup
  · rw [takeTrapWith_sup hk]
    exact ⟨rfl, rfl, rfl, rfl, rfl, rfl, rfl, rfl, rfl, rfl, rfl⟩
  · rw [takeTrapWith_unit hk]
    exact ⟨rfl, rfl, rfl, rfl, rfl, rfl, rfl, rfl, rfl, rfl, rfl⟩

/-- Where no held write is of a sub-group, it reads the register files. -/
theorem heldVal_none {sub : Nat} {hs : List HeldG} (h : ∀ x ∈ hs, x.sub ≠ sub) (n : Nat) :
    heldGVal hs sub n = none ∧ heldXtVal hs sub n = none ∧ heldScratchVal hs sub n = none := by
  induction hs with
  | nil => exact ⟨rfl, rfl, rfl⟩
  | cons x hs ih =>
    have hx : x.sub ≠ sub := h x (by simp)
    obtain ⟨i, w⟩ := x
    obtain ⟨hg, hxt, hsc⟩ := ih fun y hy => h y (by simp [hy])
    cases w <;> simp_all [heldGVal, heldXtVal, heldScratchVal]

/-- After such a trap, the agent reads its register files as they were before the chain. -/
theorem reads_of_chainDiscarded {a b : Agent} (h : ChainDiscarded a b) :
    (∀ n l, b.readV n l = (Store.get Lanes.zero a.v n).at l) ∧ (∀ n, b.readG n = if n = 0 then 0 else Store.get 0 a.g n) ∧
    (∀ n, b.readXt n = Store.get Xt.zero a.xt n) ∧ (∀ n, b.readScratch n = Store.get 0 a.scratch n) ∧
    (∀ x ∈ b.heldG, x ∈ a.heldG ∧ x.sub ≠ a.cur.id) := by
  obtain ⟨hv, hg, hxt, hsc, -, hheld, hid, hcur, -⟩ := h
  have hsub : ∀ x ∈ b.heldG, x ∈ a.heldG ∧ x.sub ≠ a.cur.id := by simp [hheld]
  have hnone := heldVal_none (sub := b.cur.id) fun x hx => hid ▸ (hsub x hx).2
  exact ⟨fun n l => by simp [Agent.readV, hcur, heldLane, hv], fun n => by simp [Agent.readG, (hnone n).1, hg],
    fun n => by simp [Agent.readXt, (hnone n).2.1, hxt], fun n => by simp [Agent.readScratch, (hnone n).2.2, hsc], hsub⟩

/-- A supervisor thread that waits for nothing traps alike at an access of its own and at one that has waited. -/
theorem trapThread_me {s : State} {c : Cause} {i : FaultInfo} (hk : s.me.kind = .sup) (hw : s.me.cur.wait = .none) :
    s.trapThread s.me c i = takeTrapWith s c i := by
  have hwait : s.me.rollback.setWait .none = s.me.rollback := by
    simp only [Agent.setWait, Agent.rollback, ← hw]
  rw [takeTrapWith, if_pos hk, State.trapThread, hwait, State.setAgent]
  exact if_pos rfl

/-! SCAUSE (R279, R323). -/

theorem code_lt (c : Cause) : c.code < 256 := by
  cases c with
  | software n => simp only [Cause.code]; omega
  | _ => decide

/-- The cause stands in [7:0] of SCAUSE. -/
theorem scauseOf_low (c : Cause) (i : FaultInfo) : (scauseOf c i).extractLsb' 0 8 = BitVec.ofNat 8 c.code := by
  apply BitVec.eq_of_getLsbD_eq
  intro k hk
  simp only [scauseOf, BitVec.getLsbD_extractLsb', BitVec.getLsbD_or, BitVec.getLsbD_shiftLeft, BitVec.getLsbD_ofNat]
  simp [hk, show k < 64 by omega]

/-- The address of a translation fault, and the detail of any other, stands in [63:8] of SCAUSE. -/
theorem scauseOf_high (c : Cause) (i : FaultInfo) :
    (scauseOf c i).extractLsb' 8 56 = (if 0x60 ≤ c.code ∧ c.code ≤ 0x65 then i.addr else i.detail).extractLsb' 0 56 := by
  have hcode : ∀ k, c.code.testBit (8 + k) = false := fun k =>
    Nat.testBit_lt_two_pow ((code_lt c).trans_le (Nat.pow_le_pow_right (by decide : 0 < 2) (by omega : 8 ≤ 8 + k)))
  have htr : c.isTranslation = true ↔ 0x60 ≤ c.code ∧ c.code ≤ 0x65 := by simp [Cause.isTranslation]
  apply BitVec.eq_of_getLsbD_eq
  intro k hk
  simp only [scauseOf, htr, BitVec.getLsbD_extractLsb', BitVec.getLsbD_or, BitVec.getLsbD_shiftLeft, BitVec.getLsbD_ofNat]
  simp [hk, hcode, show 8 + k < 64 by omega]

/-! The handler's entry (R279). -/

theorem takeTrapAfter_sup {s : State} (hk : s.me.kind = .sup) (c : Cause) (i : FaultInfo) (size : Nat) :
    takeTrapAfter s c i size =
      { s with me := (s.me.retire none (s.me.nextPc size) true).enterHandler c i (s.me.nextPc size) } := if_pos hk

/-- Settles O43: a trap by the agent's kind; nothing of the chain stands on either; ERET is a jump to CR.SEPC. -/
theorem supervisorTrapEntry : Obligations.SupervisorTrapEntry := by
  unfold Obligations.SupervisorTrapEntry
  refine ⟨fun s c i => ?discards, fun s c i hk => ?precise, fun s c i size hk => ?after, fun s c i hk => ?unit, fun s hc => ?eret⟩
  case discards =>
    have h := chainDiscarded_takeTrapWith s c i
    obtain ⟨hv, hg, hxt, hsc, hheld⟩ := reads_of_chainDiscarded h
    obtain ⟨-, -, -, -, hret, -, -, hcur, hlat, hpos, hem⟩ := h
    exact ⟨hv, hg, hxt, hsc, hlat, hcur, hpos, hem, hret, hheld, trapThread_me⟩
  case precise =>
    rw [takeTrapWith_sup hk]
    exact ⟨rfl, scauseOf_low c i, scauseOf_high c i, rfl, rfl, rfl, rfl, rfl, rfl, rfl⟩
  case after =>
    rw [takeTrapAfter_sup hk]
    exact ⟨rfl, scauseOf_low c i, congrArg evenPc (retire_stvec ..), rfl⟩
  case unit =>
    rw [takeTrapWith_unit hk]
    exact ⟨rfl, rfl, rfl, rfl, by simp, by simp [pendingOf]⟩
  case eret =>
    exact ⟨_, by rw [exec_eret, execEret, guard_clear hc, cleared_noreads s rfl, returnFromTrap],
      flow_effect s (evenPc s.me.sepc) true⟩

end Sys2Proof.Proofs
end

section
/-!
PROOF. What each instruction needs (R47 to R59), and that decode tests it: the first need that is not met is the trap.
-/
namespace Sys2Proof.Proofs
open Sys2Proof.Machine Sys2Proof.Laws

/-! Needs. -/

/-- What an atomic needs: its lane form, or its group-wide form on a supervisor thread (R280). -/
def atomicNeedOf (s : State) (op : AtomicOp) (c : BitVec 3) (f : BitVec 5) (a d : BitVec 7) : Need :=
  if s.me.kind = .sup ∧ op ≠ .fadd then
    { gNeed .coreSup [a, d] with scope := c == 7, reg := badG a || badG d || (op == .cas && f == 31) }
  else atomicNeed op c f a d

/-- What an instruction that has an encoding needs. -/
def needOf (s : State) : Instr → Need
  | .iadd n b a d | .isub n b a d | .iadds n b a d | .isubs n b a d | .imul n b a d | .imulhi n b a d | .imulhiu n b a d | .imin n b a d
  | .imax n b a d | .umin n b a d | .umax n b a d | .and n b a d | .or n b a d | .xor n b a d | .andn n b a d | .shl n b a d | .shr n b a d
  | .sra n b a d | .rotl n b a d | .bfx n b a d | .bfi n b a d | .udiv n b a d | .urem n b a d | .lea n b a d | .lea2 n b a d
  | .lea4 n b a d | .lea8 n b a d | .fadd n b a d | .fsub n b a d | .fmul n b a d | .fmin n b a d | .fmax n b a d | .faddBf2 n b a d
  | .fmulBf2 n b a d | .fmaxBf2 n b a d | .faddHf2 n b a d | .fmulHf2 n b a d | .fmaxHf2 n b a d | .fscale n b a d | .cvtBf2 n b a d
  | .cvtHf2 n b a d | .unpBf n b a d | .unpHf n b a d | .unpE4 n b a d | .unpE5 n b a d | .unpE3m2 n b a d | .unpE2m3 n b a d
  | .unpE2m1 n b a d | .icmpeq n b a d | .icmplt n b a d | .icmpltu n b a d | .icmple n b a d | .fcmpeq n b a d | .fcmplt n b a d
  | .fcmple n b a d | .fcmpun n b a d | .shfl n b a d | .shflup n b a d | .shfldn n b a d | .shflx n b a d => laneNeed n d [a, b] false
  | .imad b a d | .fma b a d | .fmaBf2 b a d | .fmaHf2 b a d | .fdot2Bf b a d | .fdot4E4 b a d | .fdot4E5 b a d | .fdot8E2m1 b a d
  | .cvtE4 b a d | .cvtE5 b a d | .cvtsrE4 b a d | .cvtsrE5 b a d | .cvtsrE3m2 b a d | .cvtsrE2m1 b a d | .cvtsrBf b a d | .cvtsrE2m3 b a d
  | .sel b a d => laneNeed 0 d [a, b] true
  | .popc n a d | .clz n a d | .brev n a d | .iabs n a d | .fabs n a d | .fneg n a d | .frcp n a d | .frsq n a d | .fex2 n a d | .flg2 n a d
  | .raddF n a d | .rmaxF n a d | .raddI n a d | .rmaxI n a d | .ffloor n a d | .frint n a d | .i2f n a d | .u2f n a d | .f2i n a d
  | .f2u n a d | .ballot n a d | .matchLanes n a d | .mov n a d => laneNeed n d [a] false
  | .cvtE3m2 a d | .cvtE2m3 a d | .cvtE2m1 a d => laneNeed 0 d [a] true
  | .laneid n d => laneNeed n d [] false
  | .rng4 n b a d => rngNeed n b a d 4
  | .rngu n b a d | .rngb n b a d => rngNeed n b a d 1
  | .movg n a d => { laneNeed n d [] false with reg := badDest d || badG a, wide := gReg a.toNat }
  | .movvg a d | .movvgl _ a d => movvNeed a d
  | .iaddi _ a d | .andi _ a d | .ori _ a d | .xori _ a d | .icmplti _ a d | .icmpeqi _ a d | .imuli _ a d | .shli _ a d | .shri _ a d
  | .srai _ a d => laneNeed 0 d [a] false
  | .movi _ d => laneNeed 0 d [] false
  | .movh _ d => laneNeed 0 d [] true
  | .srd m d => { laneNeed 0 d [] false with field := !selectorOk m.toNat }
  | .iadd16 n a d | .isub16 n a d | .imul16 n a d | .and16 n a d | .or16 n a d | .xor16 n a d | .fadd16 n a d | .fsub16 n a d
  | .fmul16 n a d | .fmax16 n a d | .icmplt16 n a d => halfNeed n d true [a]
  | .shli16 n _ d | .shri16 n _ d => halfNeed n d true []
  | .mov16 n a d => { halfNeed n d false [a] with field := n == 1 && d != 0 }
  | .movi5 n _ d => { halfNeed n d false [] with field := n == 1 && d != 0 }
  | .nop | .exit | .bra _ => Need.of .all
  | .gadd b a d | .gsub b a d | .gmul b a d | .gmad b a d | .gand b a d | .gor b a d | .gxor b a d | .gandn b a d | .gshl b a d
  | .gshr b a d | .gsra b a d | .gmin b a d | .gcmpeq b a d | .gcmplt b a d | .gcmpltu b a d | .gmax b a d | .balloc b a d | .barv b a d
  | .bwait b a d | .bwaitt b a d | .bref b a d => gNeed .all [d, a, b]
  | .gaddi _ a d | .gmov a d | .btest a d => gNeed .all [d, a]
  | .gmovi _ d | .gshi16 _ d => gNeed .all [d]
  | .gsrd b d => { gNeed .all [d] with field := !selectorOk b.toNat }
  | .gswr b a => { gNeed .all [a] with field := decide (b.toNat < 32) || decide (35 < b.toNat) }
  | .xlt b a d => { gNeed .all [a, b] with
      reg := badG a || badG b || decide (7 < d.toNat), wide := gReg a.toNat ++ gReg b.toNat ++ [xtReg d.toNat] }
  | .brg _ p | .brzg _ p => gNeed .all [p]
  | .brv _ p => { Need.of .core with reads := srcReg p, latches := srcLatch p, wide := srcWide p }
  | .call _ | .ret => { Need.of .all with wide := gReg 62 }
  | .jmpg a | .bfree a | .trap _ a => gNeed .all [a]
  | .fuse | .yield | .bkpt => Need.of .core
  | .emrd d | .mrecv d | .snapm d => gNeed .core [d]
  | .emwr a | .tfree a => gNeed .core [a]
  | .mskip _ p => gNeed .core [p]
  | .ld32 _ a d => loadNeed 4 a d
  | .ld64 _ a d => loadNeed 8 a d
  | .ld128 _ a d => loadNeed 16 a d
  | .ld16 _ a d => loadNeed 2 a d
  | .st32 _ a d => storeNeed 4 a d
  | .st64 _ a d => storeNeed 8 a d
  | .st128 _ a d => storeNeed 16 a d
  | .st16 _ a d => storeNeed 2 a d
  | .ld8 _ a d => loadNeed 1 a d
  | .st8 _ a d => storeNeed 1 a d
  | .ldnb f a d => { loadNeed 4 a d with wide := srcWide a ++ gReg f.toNat }
  | .stva f a d => { storeNeed 4 a d with wide := srcWide a ++ srcWide d ++ gReg f.toNat }
  | .fence c f => { Need.of .coreSup with field := !(f == 1 || f == 2 || f == 3), scope := c == 7 }
  | .fenceE c f => { Need.of .coreSup with field := !(f == 2 || f == 3), scope := c == 7 }
  | .ldaq c _ a d => { loadNeed 4 a d with scope := c == 7 }
  | .strl c _ a d => { storeNeed 4 a d with scope := c == 7 }
  | .gld _ a d | .gst _ a d => gNeed .all [a, d]
  | .gldaq c _ a d | .gstrl c _ a d => { gNeed .all [a, d] with scope := c == 7 }
  | .tdef b a | .tscl b a | .datt b a | .ddist b a | .dtopk b a | .dkvap b a | .upd b a | .norm b a => gNeed .core [a, b]
  | .tqry b a d | .cpy b a d | .msig b a d | .kvreq b a d | .kvpin b a d | .kvrel b a d | .lnch b a d | .lnchc b a d | .redeem b a d
  | .tkqry b a d | .wvret b a d | .regq b a d | .pgreq b a d => gNeed .core [d, a, b]
  | .cpyt b a d => { gNeed .core [d, a, b] with
      reg := badG d || badG a || decide (62 < b.toNat), wide := [d.toNat, a.toNat, b.toNat, b.toNat + 1].flatMap gReg }
  | .bexp b a => gNeed .all [a, b]
  | .mfeed a => { gNeed .core [a] with reads := regSpan 88 32 }
  | .mdrain a => { gNeed .core [a] with writes := regSpan 88 32 }
  | .kvres a d | .cancel a d | .ccnt a d | .ticket a d | .tkdrop a d | .wvpub a d => gNeed .core [d, a]
  | .mma b a d | .mmaSp b a d | .mmaz b a d | .mmazSp b a d | .epq b a d | .epst b a d | .epov b a d | .accz b a d | .mquad b a d
    => gNeed .csq [d, a, b]
  | .mbatch d => gNeed .csq [d]
  | .mwait a d => gNeed .csq [d, a]
  | .mclass a => gNeed .csq [a]
  | .myld => Need.of .csq
  | .mscale b a => gNeed .csq [a, b]
  | .csrr a d | .rtchk a d | .snapb a d => gNeed .sup [d, a]
  | .csrw b a d | .csrs b a d | .csrc b a d | .zeroRange b a d | .ctxsv b a d | .ctxld b a d | .snapc b a d => gNeed .sup [d, a, b]
  | .tlbi b a | .prefw b a => gNeed .sup [a, b]
  | .tlbia a | .hirq a => gNeed .sup [a]
  | .eret | .halt => Need.of .sup
  | .atadd c f a d => atomicNeedOf s .add c f a d
  | .atmax c f a d => atomicNeedOf s .max c f a d
  | .atxch c f a d => atomicNeedOf s .xch c f a d
  | .atcas c f a d => atomicNeedOf s .cas c f a d
  | .ator c f a d => atomicNeedOf s .or c f a d
  | .atand c f a d => atomicNeedOf s .and c f a d
  | .atfadd c f a d => atomicNeedOf s .fadd c f a d
  | .atmin c f a d => atomicNeedOf s .min c f a d
  | .gath b a d | .scat b a d => { gNeed .core [b] with
      reg := badDest d || decide (120 ≤ a.toNat) || badG b, reads := srcReg a, writes := srcReg d
      wide := gReg b.toNat ++ [xtReg ((s.me.readG b.toNat).toNat % 8)] }
  | _ => Need.of .all

/-- The shared check of decode under a name that unfolds to it. -/
def checked (n : Need) (s : State) (k : State → Out) : Out := guard n s k

/-- An instruction's answer is what the shared check of decode makes of these needs. -/
inductive Guarded (n : Need) (s : State) : Out → Prop
  | intro (k : State → Out) : Guarded n s (checked n s k)

/-- The same through the equation of the instruction. -/
theorem of_exec {i : Instr} {n : Need} {s : State} {o : Out} (h : exec i s = o) (hg : Guarded n s o) : Guarded n s (exec i s) := h ▸ hg

/-! The shared forms. -/

section
variable (n : BitVec 1) (b a d : BitVec 7) (s : State)

theorem guarded_lane1 (f : Word → Word) : Guarded (laneNeed n d [a] false) s (lane1 f n a d s) := .intro _
theorem guarded_lane2 (f : Word → Word → Word) : Guarded (laneNeed n d [a, b] false) s (lane2 f n b a d s) := .intro _
theorem guarded_lane3 (f : Word → Word → Word → Word) : Guarded (laneNeed 0 d [a, b] true) s (lane3 f b a d s) := .intro _
theorem guarded_lane3One (f : Word → Word → Word) : Guarded (laneNeed 0 d [a] true) s (lane3One f a d s) := .intro _
theorem guarded_laneImm (f : Word → Word → Word) (m : Word) : Guarded (laneNeed 0 d [a] false) s (laneImm f m a d s) := .intro _
theorem guarded_reduce (f : Word → Word → Word) (x : Word) : Guarded (laneNeed n d [a] false) s (reduce f x n a d s) := .intro _
theorem guarded_shuffle (j : Nat → Nat → Option Nat) : Guarded (laneNeed n d [a, b] false) s (shuffle j n b a d s) := .intro _
theorem guarded_rngElement (f : Word → Word) : Guarded (rngNeed n b a d 1) s (rngElement f n b a d s) := .intro _
theorem guarded_half2 (f : Word → Word → Word) (a d : BitVec 5) : Guarded (halfNeed n d true [a]) s (half2 f n a d s) := .intro _
theorem guarded_halfImm (f : Word → Word → Word) (m : Word) (d : BitVec 5) : Guarded (halfNeed n d true []) s (halfImm f n m d s) :=
  .intro _
theorem guarded_group2 (f : DWord → DWord → DWord) : Guarded (gNeed .all [d, a, b]) s (group2 f b a d s) := .intro _
theorem guarded_laneLoad (w : Nat) (f : BitVec 5) : Guarded (loadNeed w a d) s (laneLoad w f a d s) := .intro _
theorem guarded_laneStore (w : Nat) (f : BitVec 5) : Guarded (storeNeed w a d) s (laneStore w f a d s) := .intro _
theorem guarded_rowCopy (gather : Bool) : Guarded (needOf s (.gath b a d)) s (rowCopy gather b a d s) := by
  have hw : bitsOf (s.me.g7 b) 0 3 = (s.me.readG b.toNat).toNat % 8 := by simp [bitsOf, Agent.g7]
  rw [rowCopy, hw]
  exact .intro _
theorem guarded_dceForm (op : Nat) : Guarded (gNeed .core [a, b]) s (dceForm op b a s) := .intro _
theorem guarded_pinForm (x : Context → List KvPage → Nat) (f : Nat → Nat) :
    Guarded (gNeed .core [d, a, b]) s (pinForm x f b a d s) := .intro _
theorem guarded_launchForm (coop : Bool) : Guarded (gNeed .core [d, a, b]) s (launchForm coop b a d s) := .intro _
theorem guarded_updForm (n : Nat) (k : State → Nat → BitVec 512 → Option Nat → Half → State) :
    Guarded (gNeed .core [a, b]) s (updForm n b a s k) := .intro _
theorem guarded_mmaForm (z p : Bool) : Guarded (gNeed .csq [d, a, b]) s (mmaForm z p b a d s) := .intro _
theorem guarded_epiForm (op : Nat) : Guarded (gNeed .csq [d, a, b]) s (epiForm op b a d s) := .intro _
theorem guarded_csrForm (op : Nat) : Guarded (gNeed .sup [d, a, b]) s (csrForm op b a d s) := .intro _

theorem guarded_atomic (op : AtomicOp) (c : BitVec 3) (f : BitVec 5) : Guarded (atomicNeedOf s op c f a d) s (atomic op c f a d s) := by
  unfold atomicNeedOf atomic
  split <;> exact .intro _

end

/-- Every instruction that has an encoding is checked by decode. -/
theorem guarded_exec (s : State) : ∀ i : Instr, i.isWord = true → Guarded (needOf s i) s (exec i s)
  | .iadd .. | .isub .. | .iadds .. | .isubs .. | .imul .. | .imulhi .. | .imulhiu .. | .imin .. | .imax .. | .umin .. | .umax .. | .and ..
  | .or .. | .xor .. | .shl .. | .shr .. | .sra .. | .rotl .. | .bfx .. | .bfi .. | .udiv .. | .urem .. | .fadd .. | .fsub .. | .fmul ..
  | .fmin .. | .fmax .. | .cvtBf2 .. | .cvtHf2 .. | .unpBf .. | .unpHf .. | .unpE4 .. | .unpE5 .. | .unpE3m2 .. | .unpE2m3 .. | .unpE2m1 ..
  | .icmpeq .. | .icmplt .. => fun _ => guarded_lane2 ..
  | .fma .. | .fmaBf2 .. | .fmaHf2 .. => fun _ => guarded_lane3 ..
  | .popc .. | .clz .. | .brev .. | .iabs .. | .frcp .. | .frsq .. | .fex2 .. | .flg2 .. | .ffloor .. | .frint .. | .f2i .. | .f2u ..
  | .mov .. => fun _ => guarded_lane1 ..
  | .raddF .. | .rmaxF .. | .raddI .. | .rmaxI .. => fun _ => guarded_reduce ..
  | .cvtE3m2 .. | .cvtE2m3 .. | .cvtE2m1 .. => fun _ => guarded_lane3One ..
  | .ballot .. | .matchLanes .. | .laneid .. | .rng4 .. | .movg .. | .movvg .. | .movvgl .. | .movi .. | .movh .. | .srd .. | .mov16 ..
  | .movi5 .. | .nop .. | .gmad .. | .gaddi .. | .gmovi .. | .gshi16 .. | .gsrd .. | .gswr .. | .xlt .. | .gmov .. | .bra .. | .brg ..
  | .brzg .. | .brv .. | .call .. | .ret .. | .jmpg .. | .fuse .. | .exit .. | .emrd .. | .emwr .. | .yield .. | .bkpt .. | .mskip ..
  | .ldnb .. | .stva .. | .fence .. | .fenceE .. | .ldaq .. | .strl .. | .gld .. | .gst .. | .gldaq .. | .gstrl .. | .tdef .. | .tqry ..
  | .tfree .. | .tscl .. | .cpy .. | .cpyt .. | .balloc .. | .bfree .. | .bexp .. | .barv .. | .bwait .. | .bwaitt .. | .btest .. | .bref ..
  | .mfeed .. | .mdrain .. | .msig .. | .mrecv .. | .kvres .. | .kvreq .. | .cancel .. | .ccnt .. | .ticket .. | .redeem .. | .tkqry ..
  | .tkdrop .. | .wvpub .. | .wvret .. | .regq .. | .snapm .. | .pgreq .. | .trap .. | .mbatch .. | .mwait .. | .mclass .. | .myld ..
  | .mquad .. | .mscale .. | .csrr .. | .tlbi .. | .tlbia .. | .prefw .. | .zeroRange .. | .eret .. | .halt .. | .hirq .. | .rtchk ..
  | .ctxsv .. | .ctxld .. | .snapb .. | .snapc .. => fun _ => .intro _
  | .rngu .. | .rngb .. => fun _ => guarded_rngElement ..
  | .iaddi .. | .andi .. | .ori .. | .xori .. | .shli .. | .shri .. | .srai .. | .icmplti .. | .icmpeqi .. | .imuli .. => fun _ => guarded_laneImm ..
  | .iadd16 .. | .isub16 .. | .imul16 .. | .and16 .. | .or16 .. | .xor16 .. | .fadd16 .. | .fsub16 .. | .fmul16 .. | .fmax16 ..
  | .icmplt16 .. => fun _ => guarded_half2 ..
  | .shli16 .. | .shri16 .. => fun _ => guarded_halfImm ..
  | .gadd .. | .gsub .. | .gmul .. | .gand .. | .gor .. | .gxor .. | .gshl .. | .gshr .. | .gsra .. | .gmin .. | .gmax ..
    => fun _ => guarded_group2 ..
  | .ld32 .. | .ld64 .. | .ld128 .. | .ld16 .. | .ld8 .. => fun _ => guarded_laneLoad ..
  | .st32 .. | .st64 .. | .st128 .. | .st16 .. | .st8 .. => fun _ => guarded_laneStore ..
  | .atadd .. | .atmax .. | .atxch .. | .atcas .. | .ator .. | .atand .. | .atfadd .. | .atmin .. => fun _ => guarded_atomic ..
  | .gath .. | .scat .. => fun _ => guarded_rowCopy ..
  | .datt .. | .ddist .. | .dtopk .. | .dkvap .. => fun _ => guarded_dceForm ..
  | .kvpin .. | .kvrel .. => fun _ => guarded_pinForm ..
  | .lnch .. | .lnchc .. => fun _ => guarded_launchForm ..
  | .mma .. | .mmaSp .. | .mmaz .. | .mmazSp .. => fun _ => guarded_mmaForm ..
  | .epq .. | .epst .. | .epov .. | .accz .. => fun _ => guarded_epiForm ..
  | .csrw .. | .csrs .. | .csrc .. => fun _ => guarded_csrForm ..
  | .andn .. => fun _ => of_exec (exec_andn ..) (guarded_lane2 ..)
  | .lea .. => fun _ => of_exec (exec_lea ..) (guarded_lane2 ..)
  | .lea2 .. => fun _ => of_exec (exec_lea2 ..) (guarded_lane2 ..)
  | .lea4 .. => fun _ => of_exec (exec_lea4 ..) (guarded_lane2 ..)
  | .lea8 .. => fun _ => of_exec (exec_lea8 ..) (guarded_lane2 ..)
  | .faddBf2 .. => fun _ => of_exec (exec_faddBf2 ..) (guarded_lane2 ..)
  | .fmulBf2 .. => fun _ => of_exec (exec_fmulBf2 ..) (guarded_lane2 ..)
  | .fmaxBf2 .. => fun _ => of_exec (exec_fmaxBf2 ..) (guarded_lane2 ..)
  | .faddHf2 .. => fun _ => of_exec (exec_faddHf2 ..) (guarded_lane2 ..)
  | .fmulHf2 .. => fun _ => of_exec (exec_fmulHf2 ..) (guarded_lane2 ..)
  | .fmaxHf2 .. => fun _ => of_exec (exec_fmaxHf2 ..) (guarded_lane2 ..)
  | .fscale .. => fun _ => of_exec (exec_fscale ..) (guarded_lane2 ..)
  | .icmpltu .. => fun _ => of_exec (exec_icmpltu ..) (guarded_lane2 ..)
  | .icmple .. => fun _ => of_exec (exec_icmple ..) (guarded_lane2 ..)
  | .fcmpeq .. => fun _ => of_exec (exec_fcmpeq ..) (guarded_lane2 ..)
  | .fcmplt .. => fun _ => of_exec (exec_fcmplt ..) (guarded_lane2 ..)
  | .fcmple .. => fun _ => of_exec (exec_fcmple ..) (guarded_lane2 ..)
  | .fcmpun .. => fun _ => of_exec (exec_fcmpun ..) (guarded_lane2 ..)
  | .imad .. => fun _ => of_exec (exec_imad ..) (guarded_lane3 ..)
  | .fdot2Bf .. => fun _ => of_exec (exec_fdot2Bf ..) (guarded_lane3 ..)
  | .fdot4E4 .. => fun _ => of_exec (exec_fdot4E4 ..) (guarded_lane3 ..)
  | .fdot4E5 .. => fun _ => of_exec (exec_fdot4E5 ..) (guarded_lane3 ..)
  | .fdot8E2m1 .. => fun _ => of_exec (exec_fdot8E2m1 ..) (guarded_lane3 ..)
  | .cvtE4 .. => fun _ => of_exec (exec_cvtE4 ..) (guarded_lane3 ..)
  | .cvtE5 .. => fun _ => of_exec (exec_cvtE5 ..) (guarded_lane3 ..)
  | .cvtsrE4 .. => fun _ => of_exec (exec_cvtsrE4 ..) (guarded_lane3 ..)
  | .cvtsrE5 .. => fun _ => of_exec (exec_cvtsrE5 ..) (guarded_lane3 ..)
  | .cvtsrE3m2 .. => fun _ => of_exec (exec_cvtsrE3m2 ..) (guarded_lane3 ..)
  | .cvtsrE2m1 .. => fun _ => of_exec (exec_cvtsrE2m1 ..) (guarded_lane3 ..)
  | .cvtsrBf .. => fun _ => of_exec (exec_cvtsrBf ..) (guarded_lane3 ..)
  | .cvtsrE2m3 .. => fun _ => of_exec (exec_cvtsrE2m3 ..) (guarded_lane3 ..)
  | .sel .. => fun _ => of_exec (exec_sel ..) (guarded_lane3 ..)
  | .fabs .. => fun _ => of_exec (exec_fabs ..) (guarded_lane1 ..)
  | .fneg .. => fun _ => of_exec (exec_fneg ..) (guarded_lane1 ..)
  | .i2f .. => fun _ => of_exec (exec_i2f ..) (guarded_lane1 ..)
  | .u2f .. => fun _ => of_exec (exec_u2f ..) (guarded_lane1 ..)
  | .shfl .. => fun _ => of_exec (exec_shfl ..) (guarded_shuffle ..)
  | .shflup .. => fun _ => of_exec (exec_shflup ..) (guarded_shuffle ..)
  | .shfldn .. => fun _ => of_exec (exec_shfldn ..) (guarded_shuffle ..)
  | .shflx .. => fun _ => of_exec (exec_shflx ..) (guarded_shuffle ..)
  | .gandn .. => fun _ => of_exec (exec_gandn ..) (guarded_group2 ..)
  | .gcmpeq .. => fun _ => of_exec (exec_gcmpeq ..) (guarded_group2 ..)
  | .gcmplt .. => fun _ => of_exec (exec_gcmplt ..) (guarded_group2 ..)
  | .gcmpltu .. => fun _ => of_exec (exec_gcmpltu ..) (guarded_group2 ..)
  | .upd .. => fun _ => of_exec (exec_upd ..) (guarded_updForm ..)
  | .norm .. => fun _ => of_exec (exec_norm ..) (guarded_updForm ..)
  | .storePerform _ | .timedStorePerform _ _ | .ldnbPerform _ | .gathStatusArrive _ _ | .barvArrival _ | .bwaitReturn _
  | .bwaittTimeout _ | .copyCommandComplete _ _ | .cpytWriteRelease _ _ | .bulkQueuePublish _ | .bulkEntryStart _
  | .bulkEntryComplete _ _ | .completionRecordWrite _ | .pageRequestComplete _ _ | .launchAnswer _ | .unitAdmit _ _ _ _
  | .launchBecomesBlocking _ _ | .launchComplete _ _ | .launchCommit _ _ | .snapmRelease _ _ | .slotRelease _
  | .preemptionStop _ | .mxeStep _ _ | .mquadInstall _ | .mwaitReturn _ | .mdrainRead _ | .mrecvWake _ | .dcePage _
  | .kvRequestComplete _ _ _ | .kvVictimAction _ | .updStart _ _ | .updTileCommit _ _ | .normApply _ _ | .stagingBufferTake _ _
  | .delivery _ _ | .replicaCommit _ | .replicaLockTimeout _ _ | .pageWalk _ _ _ _ | .walkSlotGrant _ | .hsemClaim _ _
  | .hsemRelease _ _ | .hostLinkDown _ | .bar0ControlWrite _ _ _ | .hostHdmAccess _ _ _ _ | .submissionRingTake _
  | .attestationRequest _ _ | .faultRecordDeliver | .faultRingDrain _ | .rollback _ _ | .contextCreate _ _ | .contextEnd _
  | .asidChange _ _ _ | .factNone _ _ | .factKill _ _ | .factReplay _ _ | .factResume _ _ | .topoReload _ | .routesReload _
  | .haltResume _ | .eccCorrected _ _ | .eccUncorrectable _ | .rowRetire _ | .checkerMismatch _ _ | .warmReset _ _
  | .throttleEvent _ | .thermalLimit _ _ | .coldPowerOn | .digest _ _ _ _ _ | .digestTimeout _ _ | .read _ | .write _
  | .atomic _ | .rddata _ | .wrack _ | .atrsp _ | .sync _ | .follow _ | .dreq _ _ | .drsp _ | .packetForward _ _ _
  | .flowStop _ _ _ | .flowGo _ _ _ | .linkDown _ | .linkStateChange _ _ | .peerRequestTimeout _ | .timeExchangeStart _
  | .packageTimeExchange _ _ | .ptmSync _ | .disciplineLoss _ | .dieTimeTick _ _ | .wordThatDoesNotExecute _
  | .linkLevelReplay _ | .hostLinkUp _ | .powerOff | .throttleEnd _ | .zeroComplete _ => nofun

end Sys2Proof.Proofs
end

section
/-!
PROOF. Words that do not execute (R40, R41, R54 to R57, R59), instructions on units that do not execute them (R58, R278, R280),
and the needs of every instruction (R47 to R52).
-/
namespace Sys2Proof.Proofs
open Sys2Proof.Machine Sys2Proof.Laws

/-! An instruction's encoding is decoded as it, by the branch that its bit 0 names (R39). -/

theorem isWord_of_word {i : Instr} {w : Word} (he : encodeForm i = .word w) : i.isWord = true := by
  simp [Instr.isWord, he]

theorem isWord_of_half {i : Instr} {h : Half} (he : encodeForm i = .half h) : i.isWord = true := by
  simp [Instr.isWord, he]

theorem map_pair_eq_ok {x : Except DecodeError Instr} {rest rest' : List Byte} {i : Instr}
    (h : (x.map fun j => (j, rest)) = .ok (i, rest')) : x = .ok i ∧ rest = rest' := by
  cases x with
  | error e => cases h
  | ok j => cases h; exact ⟨rfl, rfl⟩

/-- A word that is an instruction's encoding has bit 0 set, and decodes as that instruction. -/
theorem decodeWord_of_encodeForm {i : Instr} {w : Word} (he : encodeForm i = .word w) :
    w.getLsbD 0 = true ∧ decodeWord w = .ok i := by
  have hi : i ≠ .iadd16 0 0 0 := by rintro rfl; cases he
  have h := roundTrip i (isWord_of_word he) hi []
  simp only [encode, he] at h
  cases h0 : w.getLsbD 0 with
  | true => exact ⟨rfl, (map_pair_eq_ok ((decode_word w [] h0).symm.trans h)).1⟩
  | false =>
    have hlow : (w.extractLsb' 0 16).getLsbD 0 = false := by simpa using h0
    have hsplit : bytesOfWord w ++ [] = bytesOfHalf (w.extractLsb' 0 16) ++ bytesOfHalf (w.extractLsb' 16 16) := rfl
    rw [hsplit, decode_half _ _ hlow] at h
    exact nomatch (map_pair_eq_ok h).2

/-- A halfword other than 0x0000 that is an instruction's encoding decodes as that instruction. -/
theorem decodeHalfWord_of_encodeForm {i : Instr} {h : Half} (he : encodeForm i = .half h) (hi : i ≠ .iadd16 0 0 0) :
    decodeHalfWord h = .ok i := by
  have hd := roundTrip i (isWord_of_half he) hi []
  simp only [encode, he] at hd
  cases h0 : h.getLsbD 0 with
  | false => exact (map_pair_eq_ok ((decode_half h [] h0).symm.trans hd)).1
  | true =>
    have hne : decode (bytesOfHalf h ++ []) ≠ .ok (i, []) := by
      simp only [bytesOfHalf, List.append_nil, decode, halfOf_bytes, h0, if_true]
      split <;> nofun
    exact absurd hd hne

/-- An instruction's encoding meets no condition of R59 that makes a word none. -/
theorem wordCheck_of_encodeForm {i : Instr} {w : Word} (he : encodeForm i = .word w) : wordCheck w = none := by
  obtain ⟨h0, hd⟩ := decodeWord_of_encodeForm he
  have hr := reads_decodeWord h0
  rw [hd] at hr
  exact hr.2

/-! The check of a word, and its decoding. -/

theorem decode_error_iff {w : Word} (h0 : w.getLsbD 0 = true) (rest : List Byte) (e : DecodeError) :
    decode (bytesOfWord w ++ rest) = .error e ↔ wordCheck w = some e := by
  rw [decode_word w rest h0, ← decodeWord_error h0]
  cases decodeWord w <;> simp [Except.map]

/-- The sub-op of a word is one of four. -/
theorem exists_subOp (w : Word) : ∃ s : BitVec 2, s.toNat = subOp w := by
  simp only [subOp]
  split
  · exact ⟨_, rfl⟩
  · split
    · exact ⟨0, rfl⟩
    · exact ⟨_, rfl⟩

/-- The units that execute a major and sub-op, which is no reserved one, are those of R58. -/
theorem unitCause_eq (w : Word) (h : reservedCode (opField w).toNat (subOp w) = false) (k : Kind) :
    unitCause (opField w).toNat (subOp w) k = (wordUnits (opField w).toNat (subOp w)).trap k := by
  have key : ∀ (op : BitVec 7) (s : BitVec 2), reservedCode op.toNat s.toNat = false →
      ∀ k ∈ [Kind.core, .csq, .sup], unitCause op.toNat s.toNat k = (wordUnits op.toNat s.toNat).trap k := by decide +kernel
  obtain ⟨s, hs⟩ := exists_subOp w
  rw [← hs] at h ⊢
  exact key _ s h k (by cases k <;> decide)

theorem not_reserved_of_wordCheck {w : Word} (h : wordCheck w ≠ some .reserved) : reservedCode (opField w).toNat (subOp w) = false := by
  by_contra hr
  exact h (wordCheck_reserved (by simpa using hr))

/-- The errors that the check of a word names. -/
theorem wordCheck_some {w : Word} {e : DecodeError} (h : wordCheck w = some e) : e = .reserved ∨ e = .field ∨ e = .scope := by
  rw [wordCheck_eq] at h
  split at h
  · cases h; simp
  · split at h
    · cases h; simp
    · split at h <;> cases h; simp

/-- A word with a set MBZ bit, which is not of a reserved major or sub-op. -/
theorem wordCheck_field {w m : Word} (hr : reservedCode (opField w).toNat (subOp w) = false)
    (hm : fixedBits (opField w).toNat (subOp w) &&& m = m) (h : w &&& m ≠ 0) : wordCheck w = some .field := by
  have hw : w &&& fixedBits (opField w).toNat (subOp w) ≠ 0 := by
    intro h0
    apply h
    rw [← hm, ← BitVec.and_assoc, h0]
    exact BitVec.zero_and
  rw [wordCheck_eq, hr, if_neg (by decide), if_pos hw]

/-! What such a word traps (R59). -/

theorem traps_word {w : Word} {s : State} {c : Cause} (h : wordCause w s.me.kind = some c)
    (hj : w.getLsbD 0 = true → c = .illegalField → jumpSource w = none) : Traps (.wordThatDoesNotExecute w) s c := by
  have hnone : (if (w.getLsbD 0 && c == .illegalField) = true then jumpSource w else none) = none := by
    split
    · simp_all
    · rfl
  rw [Traps, exec_wordThatDoesNotExecute, execWordThatDoesNotExecute, h]
  simp only [hnone]

/-- The word of a jump with a set MBZ bit: an odd target goes before it. -/
theorem traps_jump {w : Word} {s : State} {r : Nat} (h0 : w.getLsbD 0 = true) (h : wordCause w s.me.kind = some .illegalField)
    (hj : jumpSource w = some r) (hc : Clear { Need.of .all with wide := gReg r } s) :
    Traps (.wordThatDoesNotExecute w) s (if (s.me.readG r).getLsbD 0 = true then .pcAlign else .illegalField) := by
  rw [Traps, exec_wordThatDoesNotExecute, execWordThatDoesNotExecute, h]
  simp only [h0, hj, Bool.true_and, beq_self_eq_true, if_true, guard_clear hc, cleared_noreads s (n := { Need.of .all with wide := gReg r }) rfl]

theorem wordCause_reserved {w : Word} (h0 : w.getLsbD 0 = true) (h : wordCheck w = some .reserved) (k : Kind) :
    wordCause w k = some .illegalOpcode := by
  simp only [wordCause, h0, h, if_true]

theorem wordCause_field {w : Word} (h0 : w.getLsbD 0 = true) (h : wordCheck w = some .field) (k : Kind) :
    wordCause w k = some ((unitCause (opField w).toNat (subOp w) k).getD .illegalField) := by
  simp only [wordCause, h0, h, if_true, unitCause_eq w (not_reserved_of_wordCheck (by simp [h]))]

theorem wordCause_scope {w : Word} (h0 : w.getLsbD 0 = true) (h : wordCheck w = some .scope) (k : Kind) :
    wordCause w k = some ((unitCause (opField w).toNat (subOp w) k).getD .illegalScope) := by
  simp only [wordCause, h0, h, if_true, unitCause_eq w (not_reserved_of_wordCheck (by simp [h]))]

/-- No unit's trap is that of a set MBZ bit. -/
theorem unitCause_ne_field {op s : Nat} {k : Kind} {c : Cause} (h : unitCause op s k = some c) : c ≠ .illegalField := by
  rintro rfl
  unfold unitCause at h
  cases k <;> simp only at h <;> split at h <;> simp_all

/-- Settles O53: the check of the word names the reserved major or sub-op, the decoder refuses the word with it, and it is the first
trap of R59's order. -/
theorem reservedEncodings : Obligations.ReservedEncodings := by
  unfold Obligations.ReservedEncodings
  intro w s rest h0 op sub hcode
  have key : ∀ (op : BitVec 7) (s : BitVec 2),
      (0x08 ≤ op.toNat ∧ op.toNat ≤ 0x0F) ∨ (0x18 ≤ op.toNat ∧ op.toNat ≤ 0x1F) ∨ (0x26 ≤ op.toNat ∧ op.toNat ≤ 0x27) ∨
        (0x2E ≤ op.toNat ∧ op.toNat ≤ 0x2F) ∨ (0x3D ≤ op.toNat ∧ op.toNat ≤ 0x3F) ∨ op.toNat = 0x57 ∨
        (0x63 ≤ op.toNat ∧ op.toNat ≤ 0x67) ∨ (0x6C ≤ op.toNat ∧ op.toNat ≤ 0x6F) ∨ (0x74 ≤ op.toNat ∧ op.toNat ≤ 0x7F) ∨
        (op.toNat = 0x17 ∧ s.toNat = 3) ∨ (op.toNat = 0x2C ∧ s.toNat = 3) ∨ (op.toNat = 0x6B ∧ 2 ≤ s.toNat) →
      (!isImmMajor op && !isMemMajor op) = true ∧ reservedCode op.toNat s.toNat = true := by decide +kernel
  obtain ⟨hformat, hreserved⟩ := key (opField w) (sField w) hcode
  have hsub : subOp w = (sField w).toNat := by
    have := subOp_wordR hformat (sField w) (nField w) (bField w) (aField w) (dField w)
    rwa [wordR_fields h0] at this
  have hcheck : wordCheck w = some .reserved := wordCheck_reserved (by rw [hsub]; exact hreserved)
  exact ⟨(decode_error_iff h0 rest _).2 hcheck, traps_word (wordCause_reserved h0 hcheck _) nofun⟩

end Sys2Proof.Proofs
end

section
/-!
PROOF. Which units execute an instruction (R58, R278, R280), the traps of decode in the order of R59, and the needs of the forms.
-/
namespace Sys2Proof.Proofs
open Sys2Proof.Machine Sys2Proof.Laws

/-! The units of an instruction are those of its major and sub-op. -/

section
variable {P : Instr → Prop} {c : Bool} {i : Instr}

theorem decoded_ok (h : P i) : Decoded P (fun _ => True) (.ok i) := h

theorem decoded_error {e : DecodeError} : Decoded P (fun _ => True) (.error e) := trivial

theorem decoded_mbz (h : P i) : Decoded P (fun _ => True) (mbz c i) := by
  cases c
  · exact trivial
  · exact h

theorem decoded_noScope {c : BitVec 3} (h : P i) : Decoded P (fun _ => True) (noScope c i) := by
  unfold noScope
  split
  · exact h
  · exact trivial

end

/-- On the unit of `st`'s agent, an instruction traps as its major and sub-op do. -/
def UnitsOf (st : State) (op s : Nat) (i : Instr) : Prop :=
  (needOf st i).units.trap st.me.kind = (wordUnits op s).trap st.me.kind

theorem unitsOf_atomic (st : State) (op : AtomicOp) (c : BitVec 3) (f : BitVec 5) (a d : BitVec 7) :
    (atomicNeedOf st op c f a d).units.trap st.me.kind = (if op = .fadd then Units.core else .coreSup).trap st.me.kind := by
  unfold atomicNeedOf
  cases hk : st.me.kind <;> by_cases ho : op = .fadd <;> simp [ho, atomicNeed, gNeed, Need.of, Units.trap]

section
variable (st : State) (s : BitVec 2) (n : BitVec 1) (b a d op : BitVec 7)

/-- The formats with sub-ops at [31:30]. -/
theorem units_decodeFieldsR : Decoded (UnitsOf st op.toNat s.toNat) (fun _ => True)
    (if op < 0x30#7 then decodeLane op s n b a d else if op < 0x50#7 then decodeGroupWide op s n b a d
      else if op < 0x68#7 then decodeEngine op s n b a d else decodeSystem op s n b a d) := by
  unfold decodeLane decodeGroupWide decodeEngine decodeSystem
  refine decoded_ite (fun _ => ?_) fun _ => decoded_ite (fun _ => ?_) fun _ => decoded_ite (fun _ => ?_) fun _ => ?_
  all_goals repeat' refine decoded_major ?_ ?_ ?_ ?_ ?_ <;> intro h
  all_goals try (intro hs; subst h hs)
  any_goals with_reducible exact decoded_error
  any_goals (with_reducible refine decoded_mbz ?_) <;> rfl
  all_goals rfl

theorem units_decodeImm (imm : BitVec 10) (imm17 : BitVec 17) :
    Decoded (UnitsOf st op.toNat 0) (fun _ => True) (decodeImm op imm a d imm17) := by
  unfold decodeImm
  repeat' with_reducible refine decoded_ite (fun e => ?_) (fun e => ?_)
  all_goals try subst e
  any_goals with_reducible exact decoded_error
  any_goals (with_reducible refine decoded_mbz ?_) <;> rfl
  all_goals rfl

theorem units_decodeMem (c : BitVec 3) (f : BitVec 5) :
    Decoded (UnitsOf st op.toNat s.toNat) (fun _ => True) (decodeMem op c s f a d) := by
  unfold decodeMem
  repeat' refine decoded_major ?_ ?_ ?_ ?_ ?_ <;> intro h
  all_goals try (intro hs; subst h hs)
  any_goals with_reducible exact decoded_error
  any_goals (with_reducible refine decoded_mbz ?_) <;> rfl
  any_goals (with_reducible refine decoded_noScope ?_) <;> rfl
  any_goals exact unitsOf_atomic ..
  all_goals rfl

end

/-- What is decoded is of the units of the word's major and sub-op. -/
theorem units_decodeWord (st : State) {w : Word} (h0 : w.getLsbD 0 = true) :
    Decoded (UnitsOf st (opField w).toNat (subOp w)) (fun _ => True) (decodeWord w) := by
  unfold decodeWord
  by_cases hi : isImmMajor (opField w) = true
  · have hsub : subOp w = 0 := by
      rw [← wordI_fields h0]
      exact subOp_wordI hi ..
    simp only [hi, if_true, hsub]
    exact units_decodeImm ..
  · by_cases hm : isMemMajor (opField w) = true
    · have hsub : subOp w = (subField w).toNat := by
        conv_lhs => rw [← wordM_fields h0]
        exact subOp_wordM hm ..
      simp only [hi, hm, if_true, hsub]
      exact units_decodeMem ..
    · have hsub : subOp w = (sField w).toNat := by
        conv_lhs => rw [← wordR_fields h0]
        exact subOp_wordR (by simp [hi, hm]) ..
      simp only [hi, hm, hsub]
      exact units_decodeFieldsR ..

/-- On every unit, an instruction's trap is that of its major and sub-op. -/
theorem units_of_word {i : Instr} {w : Word} (he : encodeForm i = .word w) (st : State) :
    (needOf st i).units.trap st.me.kind = unitCause (opField w).toNat (subOp w) st.me.kind := by
  obtain ⟨h0, hd⟩ := decodeWord_of_encodeForm he
  have h := units_decodeWord st h0
  rw [hd] at h
  rw [unitCause_eq w (not_reserved_of_wordCheck (by simp [wordCheck_of_encodeForm he]))]
  exact h

/-- A 16-bit form other than NOP is a lane instruction (R58). -/
theorem units_of_half {i : Instr} {h : Half} (he : encodeForm i = .half h) (hi : i ≠ .nop) (st : State) :
    (needOf st i).units = .core := by
  have key (n : BitVec 1) (a d : BitVec 5) (op : BitVec 4) :
      Decoded (fun i => i = .nop ∨ (needOf st i).units = .core) (fun _ => True) (decodeHalf n a d op) := by
    unfold decodeHalf
    repeat' with_reducible refine decoded_ite (fun _ => ?_) (fun _ => ?_)
    any_goals (with_reducible refine decoded_ok ?_) <;> exact .inr rfl
    exact decoded_mbz (.inl rfl)
  by_cases hz : i = .iadd16 0 0 0
  · subst hz; rfl
  · have hd := decodeHalfWord_of_encodeForm he hz
    unfold decodeHalfWord at hd
    split at hd
    · cases hd
    · have := key (h.extractLsb' 15 1) (h.extractLsb' 10 5) (h.extractLsb' 5 5) (h.extractLsb' 1 4)
      rw [hd] at this
      exact this.resolve_left hi

/-! What decode does (R8, R59). -/

theorem decodesAs_of_guarded {n : Need} {s : State} {i : Instr} (h : Guarded n s (exec i s)) : DecodesAs n s i := by
  generalize hx : exec i s = x at h
  obtain ⟨k⟩ := h
  rw [checked] at hx
  refine ⟨fun c hc => hx.trans (guard_trap hc k), fun hc ho => hx.trans ?_⟩
  simp only [Machine.guard, hc, ho, if_true]

theorem decodesAs {n : Need} {s : State} {i : Instr} (hn : needOf s i = n) (hi : i.isWord = true) : DecodesAs n s i :=
  hn ▸ decodesAs_of_guarded (guarded_exec s i hi)

/-- Instructions of one need. -/
theorem decodesAs_list {n : Need} {s : State} {l : List Instr} (hn : l.map (needOf s) = List.replicate l.length n)
    (hi : l.all Instr.isWord = true) : ∀ i ∈ l, DecodesAs n s i := by
  intro i h
  exact decodesAs (List.eq_of_mem_replicate (hn ▸ List.mem_map_of_mem h)) (List.all_eq_true.1 hi i h)

/-- An atomic has the needs of its lane form, or on a supervisor thread those of its group-wide form (R280). -/
theorem decodesAs_atomic {s : State} {op : AtomicOp} {c : BitVec 3} {f : BitVec 5} {a d : BitVec 7} {i : Instr}
    (hn : needOf s i = atomicNeedOf s op c f a d) (hi : i.isWord = true) :
    (s.me.kind ≠ .sup ∨ op = .fadd → DecodesAs (atomicNeed op c f a d) s i) ∧
    (s.me.kind = .sup → op ≠ .fadd →
      DecodesAs { gNeed .coreSup [a, d] with scope := c == 7, reg := badG a || badG d || (op == .cas && f == 31) } s i) := by
  refine ⟨fun h => decodesAs (hn.trans (if_neg ?_)) hi, fun hk ho => decodesAs (hn.trans (if_pos ⟨hk, ho⟩)) hi⟩
  rintro ⟨hk, ho⟩
  exact h.elim (· hk) ho

/-- Where nothing is owed by a GATH or SCAT, an unmet need is a trap in the state as it is. -/
theorem traps_of_decodesAs {n : Need} {s : State} {i : Instr} {c : Cause} (h : DecodesAs n s i) (hg : s.me.gath = [])
    (hc : decodeCause s.me n = some c) : Traps i s c := by
  have := h.1 c
  rw [gathHead_empty n hg] at this
  exact this hc

theorem decodeCause_unit {a : Agent} {n : Need} {c : Cause} (h : n.units.trap a.kind = some c) : decodeCause a n = some c := by
  simp only [decodeCause, h]

/-- The needs that decode tests, in the order of R59. -/
theorem decodeCause_order (a : Agent) (n : Need) :
    let unit := n.units.trap a.kind
    let above := ∃ r, (r ∈ n.reads ∨ r ∈ n.writes) ∧ a.quota ≤ r
    let void := ∃ k ∈ n.latches, a.cur.latches.get k = none
    (∀ c, unit = some c → decodeCause a n = some c) ∧
    (unit = none → n.field = true → decodeCause a n = some .illegalField) ∧
    (unit = none → n.field = false → n.scope = true → decodeCause a n = some .illegalScope) ∧
    (unit = none → n.field = false → n.scope = false → n.reg = true → decodeCause a n = some .illegalRegister) ∧
    (unit = none → n.field = false → n.scope = false → n.reg = false →
      (above → decodeCause a n = some .quota) ∧ (¬above → void → decodeCause a n = some .latchChain) ∧
      (¬above → ¬void → decodeCause a n = none)) := by
  intro unit above void
  have habove : ((n.reads ++ n.writes).any fun r => decide (a.quota ≤ r)) = true ↔ above := by
    simp [above, or_and_right, exists_or]
  have hvoid : (n.latches.any fun k => (a.cur.latches.get k).isNone) = true ↔ void := by
    simp [void]
  refine ⟨fun c hu => decodeCause_unit hu, fun hu hf => ?_, fun hu hf hs => ?_, fun hu hf hs hr => ?_,
    fun hu hf hs hr => ⟨fun ha => ?_, fun ha hv => ?_, fun ha hv => ?_⟩⟩
  all_goals simp only [unit] at hu
  all_goals simp only [decodeCause, hu, hf, Bool.false_eq_true, if_false, if_true]
  · rw [if_pos hs]
  · rw [hs, if_neg (by decide), if_pos hr]
  all_goals rw [hs, hr, if_neg (by decide), if_neg (by decide)]
  · rw [if_pos (habove.2 ha)]
  · rw [if_neg (mt habove.1 ha), if_pos (hvoid.2 hv)]
  · rw [if_neg (mt habove.1 ha), if_neg (mt hvoid.1 hv)]

/-! The needs of the forms (R41, R44, R47, R48, R54, R87, R89). -/

theorem mem_srcReg {c : BitVec 7} {r : Nat} : r ∈ srcReg c ↔ c.toNat < 120 ∧ r = c.toNat := by
  unfold srcReg; split <;> simp [*]

theorem mem_srcLatch {c : BitVec 7} {k : Nat} : k ∈ srcLatch c ↔ (120 ≤ c.toNat ∧ c.toNat < 124) ∧ k = c.toNat - 120 := by
  unfold srcLatch; split <;> simp [*]

theorem mem_regSpan {d w r : Nat} : r ∈ regSpan d w ↔ d ≤ r ∧ r < d + w := by
  simp only [regSpan, List.mem_map, List.mem_range]
  constructor
  · rintro ⟨i, hi, rfl⟩; omega
  · intro h; exact ⟨r - d, by omega, by omega⟩

theorem mem_regSpan_two {d r : Nat} : r ∈ regSpan d 2 ↔ r = d ∨ r = d + 1 := by
  rw [mem_regSpan]; omega

theorem laneNeed_facts (n : BitVec 1) (d : BitVec 7) (cs : List (BitVec 7)) (rd : Bool) :
    let x := laneNeed n d cs rd
    (x.reg = true ↔ 120 ≤ d.toNat) ∧ (x.field = true ↔ n = 1 ∧ d ≠ 0) ∧ (n = 0 → d.toNat < 120 → d.toNat ∈ x.writes) ∧
    (rd = true → d.toNat < 120 → d.toNat ∈ x.reads) ∧
    ∀ c ∈ cs, (c.toNat < 120 → c.toNat ∈ x.reads) ∧ (120 ≤ c.toNat → c.toNat < 124 → c.toNat - 120 ∈ x.latches) := by
  refine ⟨by simp [laneNeed, badDest], by simp [laneNeed], fun hn hd => ?_, fun hr hd => ?_, fun c hc => ⟨fun h => ?_, fun h h' => ?_⟩⟩
  · subst hn
    simp [laneNeed, mem_srcReg, hd]
  · simp [laneNeed, hr, mem_srcReg, hd]
  · simp only [laneNeed, List.mem_append, List.mem_flatMap]
    exact .inl ⟨c, hc, mem_srcReg.2 ⟨h, rfl⟩⟩
  · simp only [laneNeed, List.mem_flatMap]
    exact ⟨c, hc, mem_srcLatch.2 ⟨⟨h, h'⟩, rfl⟩⟩

theorem gNeed_reg (u : Units) (cs : List (BitVec 7)) : (gNeed u cs).reg = true ↔ ∃ c ∈ cs, 64 ≤ c.toNat := by
  simp [gNeed, badG]

theorem rngNeed_facts (n : BitVec 1) (b a d : BitVec 7) (w : Nat) :
    let x := rngNeed n b a d w
    (x.reg = true ↔ 119 ≤ a.toNat ∨ 119 ≤ b.toNat ∨ 120 < d.toNat + w) ∧ (x.field = true ↔ n = 1 ∧ d ≠ 0) ∧
    (∀ r, r ∈ x.reads ↔ r = a.toNat ∨ r = a.toNat + 1 ∨ r = b.toNat ∨ r = b.toNat + 1) ∧
    (∀ r, r ∈ x.writes ↔ n = 0 ∧ d.toNat ≤ r ∧ r < d.toNat + w) := by
  refine ⟨by simp [rngNeed, badPair, or_assoc], by simp [rngNeed], fun r => ?_, fun r => ?_⟩
  · simp only [rngNeed, List.mem_append, mem_regSpan_two, or_assoc]
  · have hn : n = 0 ∨ n = 1 := by bv_omega
    rcases hn with rfl | rfl
    · simp [rngNeed, mem_regSpan]
    · simp [rngNeed]

theorem movvNeed_facts (a d : BitVec 7) : ((movvNeed a d).reg = true ↔ 64 ≤ d.toNat ∨ 119 ≤ a.toNat) ∧
    ∀ r, r ∈ (movvNeed a d).reads ↔ r = a.toNat ∨ r = a.toNat + 1 :=
  ⟨by simp [movvNeed, badG, badPair], fun r => mem_regSpan_two⟩

theorem accessNeed_facts (w : Nat) (a d : BitVec 7) : ((loadNeed w a d).reg = true ↔ 120 < d.toNat + accessRegs w) ∧
    (∀ r, r ∈ (loadNeed w a d).writes ↔ d.toNat ≤ r ∧ r < d.toNat + accessRegs w) ∧
    ((storeNeed w a d).reg = true ↔ 4 < w ∧ 120 < d.toNat + accessRegs w) ∧
    (4 < w → ∀ r, d.toNat ≤ r → r < d.toNat + accessRegs w → r ∈ (storeNeed w a d).reads) := by
  refine ⟨by simp [loadNeed], fun r => mem_regSpan, by simp [storeNeed], fun hw r h h' => ?_⟩
  simp only [storeNeed, if_neg (Nat.not_le.2 hw), List.mem_append]
  exact .inr (mem_regSpan.2 ⟨h, h'⟩)

theorem atomicNeed_facts (op : AtomicOp) (c : BitVec 3) (f : BitVec 5) (a d : BitVec 7) :
    ((atomicNeed op c f a d).scope = true ↔ c = 7) ∧
    ((atomicNeed op c f a d).reg = true ↔ 120 ≤ d.toNat ∨ (op = .cas ∧ f = 31)) := by
  constructor <;> simp [atomicNeed, badDest]

/-! 16-bit words and MBZ bits (R40, R41, R54). -/

theorem wordCause_half {w : Word} (h0 : w.getLsbD 0 = false) (k : Kind) : wordCause w k =
    match halfCheck (w.extractLsb' 0 16) with
    | some .zeroHalfword => some .zeroHalfword
    | some _ => some .illegalField
    | none => none := by
  simp only [wordCause, h0]; rfl

theorem traps_half {w : Word} {s : State} {c : Cause} (h0 : w.getLsbD 0 = false) (h : wordCause w s.me.kind = some c) :
    Traps (.wordThatDoesNotExecute w) s c :=
  traps_word h fun h1 => absurd (h0.symm.trans h1) (by decide)

theorem extract_low_half (w : Word) {i n : Nat} (h : i + n ≤ 16) : (w.extractLsb' 0 16).extractLsb' i n = w.extractLsb' i n := by
  rw [extract_extract w h, Nat.zero_add]

theorem bit0_of_low {w : Word} (h : w.extractLsb' 0 16 = 0) : w.getLsbD 0 = false := by
  have := congrArg (·.getLsbD 0) h
  simpa using this

/-- The MBZ bits that the rows of the encoding tables have are those of their major and sub-op, and no row is of a reserved one. -/
theorem fixedBits_of_mem : ∀ x ∈ fixedZero, fixedBits (x.1 / 4) (x.1 % 4) &&& x.2 = x.2 ∧ reservedCode (x.1 / 4) (x.1 % 4) = false := by
  decide +kernel

/-- Bit 29 is MBZ in formats G and E. -/
theorem fixedBits_n : ∀ (op : BitVec 7) (s : BitVec 2),
    (0x40 ≤ op.toNat ∧ op.toNat ≤ 0x43) ∨ op.toNat = 0x47 ∨ op.toNat = 0x4D ∨ op.toNat = 0x4E ∨ (0x58 ≤ op.toNat ∧ op.toNat ≤ 0x62) ∨
      (0x68 ≤ op.toNat ∧ op.toNat ≤ 0x6A) ∨ (op.toNat = 0x6B ∧ s.toNat < 2) ∨ (0x70 ≤ op.toNat ∧ op.toNat ≤ 0x73) →
    reservedCode op.toNat s.toNat = false ∧ fixedBits op.toNat s.toNat &&& fieldMask 29 1 = fieldMask 29 1 := by decide +kernel

theorem field_of_bit29 {w : Word} (h : w.getLsbD 29 = true) : w &&& fieldMask 29 1 ≠ 0 := by
  intro e
  have hbit : (w &&& fieldMask 29 1).getLsbD 29 = false := by rw [e]; rfl
  rw [BitVec.getLsbD_and, h] at hbit
  exact absurd hbit (by decide)

/-- Settles O54: the words by the check that names their error, instructions on other units by the units of their major and sub-op,
and the needs form by form, each instruction's being those that its guard tests. -/
theorem wordAndUnitTraps : Obligations.WordAndUnitTraps := by
  unfold Obligations.WordAndUnitTraps
  refine ⟨⟨fun w s h => ?zero, fun w s h0 hop hf => ?half, fun i s w he => ?word, fun w rest e h0 hd => ?errors,
      fun k m w rest hk h0 hcode hm => ?fixed, fun w rest h0 hn hop => ?bit29⟩,
    ⟨fun i w s c he hg hu => ?unit, fun i h s he hi hg hk => ?halfUnit⟩,
    ⟨decodeCause_order, laneNeed_facts, gNeed_reg, rngNeed_facts, movvNeed_facts, accessNeed_facts, atomicNeed_facts⟩,
    fun s => ?forms⟩
  case zero =>
    have h0 := bit0_of_low h
    refine traps_half h0 ?_
    rw [wordCause_half h0, halfCheck, if_pos h]
  case half =>
    refine traps_half h0 ?_
    have hcode := (extract_low_half w (i := 1) (n := 4) (by decide)).trans hop
    have hz : w.extractLsb' 0 16 ≠ 0 := by
      intro hz
      rw [hz] at hcode
      exact absurd hcode (by decide)
    have hrest : (w.extractLsb' 0 16).extractLsb' 5 11 ≠ 0 := by rwa [extract_low_half w (by decide)]
    rw [wordCause_half h0, halfCheck, if_neg hz, if_pos ⟨hcode, hrest⟩]
  case word =>
    obtain ⟨h0, -⟩ := decodeWord_of_encodeForm he
    have hc : wordCause w s.me.kind = none := by simp only [wordCause, h0, wordCheck_of_encodeForm he, if_true]
    rw [exec_wordThatDoesNotExecute, execWordThatDoesNotExecute, hc]
  case errors =>
    have hc := (decode_error_iff h0 rest e).1 hd
    refine ⟨wordCheck_some hc, fun s => ⟨fun he c hu => ?_, fun he hu => ?_, fun he hu hj => ?_, fun he hu r hj hclear => ?_⟩⟩
    · refine traps_word ?_ fun _ hfield => absurd hfield (unitCause_ne_field hu)
      rcases wordCheck_some hc with rfl | rfl | rfl
      · exact absurd rfl he
      · rw [wordCause_field h0 hc, hu]; rfl
      · rw [wordCause_scope h0 hc, hu]; rfl
    · subst he
      exact traps_word (by rw [wordCause_scope h0 hc, hu]; rfl) nofun
    · subst he
      exact traps_word (by rw [wordCause_field h0 hc, hu]; rfl) fun _ _ => hj
    · subst he
      exact traps_jump h0 (by rw [wordCause_field h0 hc, hu]; rfl) hj hclear
  case fixed =>
    obtain ⟨sub, hsub⟩ := exists_subOp w
    obtain ⟨hbits, hr⟩ := fixedBits_of_mem _ hk
    have hop : k / 4 = (opField w).toNat ∧ k % 4 = subOp w := by omega
    simp only [hop.1, hop.2] at hbits hr
    exact (decode_error_iff h0 rest _).2 (wordCheck_field hr hbits hm)
  case bit29 =>
    obtain ⟨sub, hsub⟩ := exists_subOp w
    rw [← hsub] at hop
    obtain ⟨hr, hbits⟩ := fixedBits_n (opField w) sub hop
    rw [hsub] at hr hbits
    exact (decode_error_iff h0 rest _).2 (wordCheck_field hr hbits (field_of_bit29 hn))
  case unit =>
    exact traps_of_decodesAs (decodesAs rfl (isWord_of_word he)) hg (decodeCause_unit ((units_of_word he s).trans hu))
  case halfUnit =>
    refine traps_of_decodesAs (decodesAs rfl (isWord_of_half he)) hg (decodeCause_unit ?_)
    rw [units_of_half he hi s]
    cases hkind : s.me.kind
    · exact absurd hkind hk
    · rfl
    · rfl
  case forms =>
    intro Atomic
    repeat' with_reducible refine And.intro ?_ ?_
    all_goals intros
    any_goals exact decodesAs rfl rfl
    any_goals exact decodesAs_atomic rfl rfl
    all_goals exact decodesAs_list rfl rfl _ ‹_›

end Sys2Proof.Proofs
end

section
/-!
PROOF. The integer lane instructions (R73, R74): the operation of each on integers, or bit by bit.
-/
namespace Sys2Proof.Proofs
open Sys2Proof.Machine Sys2Proof.Laws

/-! Saturation and products (R73). -/

theorem sat32_toInt (x : Int) : (sat32 x).toInt = max (-2 ^ 31) (min (2 ^ 31 - 1) x) := by
  unfold sat32
  split
  · rw [show (0x8000_0000 : Word).toInt = -2 ^ 31 from rfl]; omega
  split
  · rw [show (0x7FFF_FFFF : Word).toInt = 2 ^ 31 - 1 from rfl]; omega
  · rw [BitVec.toInt_ofInt_eq_self (by decide) (by omega) (by omega)]; omega

/-- The high half of a 64-bit number is the quotient by 2^32, rounded down. -/
theorem extractHigh_toInt (p : DWord) : (p.extractLsb' 32 32).toInt = p.toInt / 2 ^ 32 := by
  rw [BitVec.toInt_eq_toNat_cond, BitVec.toInt_eq_toNat_cond, BitVec.extractLsb'_toNat, Nat.shiftRight_eq_div_pow]
  omega

/-- The product of two words does not overflow 64 bits. -/
theorem signExtend_mul_toInt (a b : Word) : (a.signExtend 64 * b.signExtend 64).toInt = a.toInt * b.toInt := by
  have ha := abs_le.2 ⟨BitVec.le_toInt a, (BitVec.toInt_lt (x := a)).le⟩
  have hb := abs_le.2 ⟨BitVec.le_toInt b, (BitVec.toInt_lt (x := b)).le⟩
  have hab : |a.toInt * b.toInt| ≤ 2 ^ 31 * 2 ^ 31 := by
    rw [abs_mul]; exact mul_le_mul ha hb (abs_nonneg _) (by norm_num)
  obtain ⟨hlo, hhi⟩ := abs_le.1 hab
  rw [BitVec.toInt_mul, BitVec.toInt_signExtend_of_le (by decide), BitVec.toInt_signExtend_of_le (by decide)]
  exact Int.bmod_eq_of_le (by omega) (by omega)

theorem imulhiW_toInt (a b : Word) : (imulhiW a b).toInt = a.toInt * b.toInt / 2 ^ 32 := by
  rw [imulhiW, extractHigh_toInt, signExtend_mul_toInt]

theorem imulhiuW_toNat (a b : Word) : (imulhiuW a b).toNat = a.toNat * b.toNat / 2 ^ 32 := by
  have hab : a.toNat * b.toNat < 2 ^ 32 * 2 ^ 32 := Nat.mul_lt_mul'' a.isLt b.isLt
  rw [imulhiuW, BitVec.extractLsb'_toNat, BitVec.toNat_mul, BitVec.toNat_setWidth_of_le (by decide),
    BitVec.toNat_setWidth_of_le (by decide), Nat.shiftRight_eq_div_pow]
  omega

theorem imad_toNat (a b d : Word) : (a * b + d).toNat = (a.toNat * b.toNat + d.toNat) % 2 ^ 32 := by
  rw [BitVec.toNat_add, BitVec.toNat_mul, Nat.mod_add_mod]

/-! Minima, maxima and shifts (R73). -/

theorem uminW_toNat (a b : Word) : (uminW a b).toNat = min a.toNat b.toNat := by
  rw [uminW, BitVec.ult_eq_decide, apply_ite BitVec.toNat]
  simp only [decide_eq_true_eq]
  split <;> omega

theorem umaxW_toNat (a b : Word) : (umaxW a b).toNat = max a.toNat b.toNat := by
  rw [umaxW, BitVec.ult_eq_decide, apply_ite BitVec.toNat]
  simp only [decide_eq_true_eq]
  split <;> omega

theorem shlW_toNat (a b : Word) : (shlW a b).toNat = if 32 ≤ b.toNat then 0 else a.toNat * 2 ^ b.toNat % 2 ^ 32 := by
  unfold shlW
  by_cases h : b.toNat < 32
  · rw [if_pos h, if_neg (Nat.not_le.2 h), BitVec.toNat_shiftLeft, Nat.shiftLeft_eq]
  · rw [if_neg h, if_pos (Nat.not_lt.1 h)]; rfl

theorem shrW_toNat (a b : Word) : (shrW a b).toNat = if 32 ≤ b.toNat then 0 else a.toNat / 2 ^ b.toNat := by
  unfold shrW
  by_cases h : b.toNat < 32
  · rw [if_pos h, if_neg (Nat.not_le.2 h), BitVec.toNat_ushiftRight, Nat.shiftRight_eq_div_pow]
  · rw [if_neg h, if_pos (Nat.not_lt.1 h)]; rfl

theorem sraW_toInt (a b : Word) : (sraW a b).toInt = a.toInt / 2 ^ min b.toNat 31 := by
  rw [sraW, BitVec.toInt_sshiftRight, Int.shiftRight_eq_div_pow]; rfl

/-! Bits (R73). -/

/-- The amount that ROTL and the shuffles take is b modulo 32. -/
theorem toNat_lowFive (b : Word) : (b.extractLsb' 0 5).toNat = b.toNat % 32 := by
  rw [BitVec.extractLsb'_toNat, Nat.shiftRight_zero]

/-- Bit i moves to i + b, modulo 32. -/
theorem rotlW_bit (a b : Word) {i : Nat} (hi : i < 32) : (rotlW a b).getLsbD ((i + b.toNat) % 32) = a.getLsbD i := by
  rw [rotlW, toNat_lowFive, BitVec.getLsbD_rotateLeft, Nat.mod_mod]
  by_cases h : i + b.toNat % 32 < 32
  · rw [show (i + b.toNat) % 32 = i + b.toNat % 32 by omega]
    simp [h]
  · rw [show (i + b.toNat) % 32 = i + b.toNat % 32 - 32 by omega]
    have hlt : i + b.toNat % 32 - 32 < b.toNat % 32 := by omega
    simp only [hlt, decide_true, cond_true]
    congr 1
    omega

theorem popcW_toNat (a : Word) : (popcW a).toNat = (List.range 32).countP fun i => a.getLsbD i := by
  have hle : (List.range 32).countP (fun i => a.getLsbD i) ≤ 32 := List.countP_le_length.trans_eq List.length_range
  rw [popcW, BitVec.toNat_ofNat, Nat.mod_eq_of_lt (by omega)]

theorem clzW_zero : (clzW 0).toNat = 32 := rfl

/-- The highest 1 bit of a word that is not 0 stands at its binary logarithm. -/
theorem clzW_toNat {a : Word} (h : a ≠ 0) : (clzW a).toNat = 31 - Nat.log2 a.toNat := by
  rw [clzW, if_neg h, BitVec.toNat_ofNat, Nat.mod_eq_of_lt (by omega)]

/-- The bits above the first 1 bit from the top are 0. -/
theorem clzW_spec (a : Word) : (clzW a).toNat ≤ 32 ∧ (∀ i, i < (clzW a).toNat → a.getLsbD (31 - i) = false) ∧
    ((clzW a).toNat < 32 → a.getLsbD (31 - (clzW a).toNat) = true) := by
  by_cases h : a = 0
  · subst h
    rw [clzW_zero]
    exact ⟨le_rfl, fun i _ => BitVec.getLsbD_zero, fun h => absurd h (lt_irrefl 32)⟩
  · have hne : a.toNat ≠ 0 := fun h0 => h (BitVec.eq_of_toNat_eq h0)
    have hlog : Nat.log2 a.toNat < 32 := (Nat.log2_lt hne).2 a.isLt
    rw [clzW_toNat h]
    refine ⟨by omega, fun i hi => ?_, fun _ => ?_⟩
    · refine Nat.testBit_lt_two_pow (Nat.lt_log2_self.trans_le ?_)
      exact Nat.pow_le_pow_right two_pos (by omega)
    · rw [show 31 - (31 - Nat.log2 a.toNat) = Nat.log2 a.toNat by omega]
      exact Nat.testBit_log2 hne

theorem brevW_bit (a : Word) {i : Nat} (hi : i < 32) : (brevW a).getLsbD (31 - i) = a.getLsbD i := by
  rw [brevW, BitVec.getLsbD_reverse, BitVec.getMsbD, decide_eq_true (by omega), Bool.true_and]
  congr 1
  omega

/-! Absolute values and division (R73). -/

theorem iabsW_eq (a : Word) : iabsW a = if a.toInt < 0 then 0 - a else a := by
  simp only [iabsW, BitVec.msb_eq_toInt, decide_eq_true_eq, zero_sub]

theorem udivW_toNat (a b : Word) : (udivW a b).toNat = if b = 0 then 0xFFFF_FFFF else a.toNat / b.toNat := by
  rw [udivW, apply_ite BitVec.toNat, BitVec.toNat_udiv]; rfl

theorem uremW_toNat (a b : Word) : (uremW a b).toNat = if b = 0 then a.toNat else a.toNat % b.toNat := by
  rw [uremW, apply_ite BitVec.toNat, BitVec.toNat_umod]

/-! Bit fields (R74). -/

/-- The field of `len` bits of a word from `pos` on. -/
def bitField (a : Word) (pos len : Nat) : BitVec len := BitVec.ofNat len (a.toNat / 2 ^ pos)

theorem bitField_bit (a : Word) (pos len i : Nat) :
    (bitField a pos len).getLsbD i = (decide (i < len) && a.getLsbD (i + pos)) := by
  rw [bitField, BitVec.getLsbD_ofNat, Nat.testBit_div_two_pow]; rfl

theorem bitField_msb (a : Word) (pos len : Nat) :
    (bitField a pos len).msb = (decide (0 < len) && a.getLsbD (len - 1 + pos)) := by
  rw [BitVec.msb_eq_getLsbD_last, bitField_bit]
  congr 1
  exact decide_eq_decide.2 (by omega)

/-- BFX extends the field with its sign where b[16] is 1, and with zeros otherwise. -/
theorem bfxW_eq (a b : Word) :
    bfxW a b =
      let x := bitField a (b.extractLsb' 0 5).toNat (min (b.extractLsb' 8 6).toNat 32)
      if b.getLsbD 16 = true then x.signExtend 32 else x.setWidth 32 := by
  unfold bfxW
  dsimp only
  generalize (b.extractLsb' 0 5).toNat = pos
  generalize min (b.extractLsb' 8 6).toNat 32 = len
  have hval : (bitField a pos len).toNat = a.toNat / 2 ^ pos % 2 ^ len := BitVec.toNat_ofNat ..
  rw [← hval]
  rcases Nat.eq_zero_or_pos len with rfl | hlen
  · simp [BitVec.of_length_zero]
  have hmsb : decide (2 ^ (len - 1) ≤ (bitField a pos len).toNat) = (bitField a pos len).msb :=
    (BitVec.msb_eq_decide _).symm
  rw [hmsb, decide_eq_true hlen, Bool.and_true]
  cases hb : b.getLsbD 16
  · exact BitVec.ofNat_toNat 32 _
  cases hm : (bitField a pos len).msb
  · exact (BitVec.ofNat_toNat 32 _).trans (BitVec.signExtend_eq_setWidth_of_msb_false hm).symm
  · simp [BitVec.signExtend, BitVec.toInt_eq_msb_cond, hm]

/-- The mask of the bits that BFI writes. -/
theorem fieldMask_bit (pos len : Nat) {i : Nat} (hi : i < 32) :
    (BitVec.ofNat 32 ((2 ^ len - 1) * 2 ^ pos)).getLsbD i = (decide (pos ≤ i) && decide (i < pos + len)) := by
  rw [BitVec.getLsbD_ofNat, Nat.testBit_mul_two_pow, Nat.testBit_two_pow_sub_one, decide_eq_true hi, Bool.true_and]
  by_cases h : pos ≤ i
  · simp only [h, decide_true, Bool.true_and]
    exact decide_eq_decide.2 (by omega)
  · simp [h]

theorem bfxW_bit (a b : Word) :
    let pos := (b.extractLsb' 0 5).toNat
    let len := min (b.extractLsb' 8 6).toNat 32
    ∀ i, i < 32 → (bfxW a b).getLsbD i =
      if i < len then a.getLsbD (i + pos)
      else (b.getLsbD 16 && decide (0 < len) && a.getLsbD (len - 1 + pos)) := by
  intro pos len i hi
  rw [bfxW_eq]
  change (if b.getLsbD 16 = true then (bitField a pos len).signExtend 32 else (bitField a pos len).setWidth 32).getLsbD i = _
  cases hb : b.getLsbD 16
  · rw [if_neg Bool.false_ne_true, BitVec.getLsbD_setWidth, bitField_bit, decide_eq_true hi]
    by_cases h : i < len <;> simp [h]
  · rw [if_pos rfl, BitVec.getLsbD_signExtend, bitField_msb, bitField_bit, decide_eq_true hi]
    by_cases h : i < len <;> simp [h]

theorem bfiW_bit (a b : Word) :
    let pos := (b.extractLsb' 0 5).toNat
    let len := min (b.extractLsb' 8 5).toNat 16
    ∀ i, i < 32 → (bfiW a b).getLsbD i =
      if pos ≤ i ∧ i < pos + len then b.getLsbD (16 + (i - pos)) else a.getLsbD i := by
  intro pos len i hi
  have hlen : len ≤ 16 := Nat.min_le_right _ _
  have hmask := fieldMask_bit pos len hi
  rw [← Bool.decide_and] at hmask
  change ((a &&& ~~~BitVec.ofNat 32 ((2 ^ len - 1) * 2 ^ pos)) |||
    ((b.extractLsb' 16 16).setWidth 32 <<< pos &&& BitVec.ofNat 32 ((2 ^ len - 1) * 2 ^ pos))).getLsbD i = _
  rw [BitVec.getLsbD_or, BitVec.getLsbD_and, BitVec.getLsbD_and, BitVec.getLsbD_not, hmask, decide_eq_true hi]
  by_cases h : pos ≤ i ∧ i < pos + len
  · have hbit : i - pos < 16 := by omega
    simp [h, hi, hbit]
  · simp [h]

/-- Settles O1: each instruction by its operation on a lane's words. -/
theorem integerLaneResults : Obligations.IntegerLaneResults := by
  unfold Obligations.IntegerLaneResults
  exact ⟨⟨laneTwo_of exec_iadd fun _ _ => rfl, laneTwo_of exec_isub fun _ _ => rfl,
    laneTwo_of exec_iadds fun _ _ => sat32_toInt _, laneTwo_of exec_isubs fun _ _ => sat32_toInt _,
    laneTwo_of exec_imul BitVec.toNat_mul, laneTwo_of exec_imulhi imulhiW_toInt, laneTwo_of exec_imulhiu imulhiuW_toNat,
    laneThree_of exec_imad imad_toNat, laneTwo_of exec_imin iminW_toInt, laneTwo_of exec_imax imaxW_toInt,
    laneTwo_of exec_umin uminW_toNat, laneTwo_of exec_umax umaxW_toNat, laneTwo_of exec_and fun _ _ => rfl,
    laneTwo_of exec_or fun _ _ => rfl, laneTwo_of exec_xor fun _ _ => rfl, laneTwo_of exec_andn fun _ _ => rfl,
    laneTwo_of exec_shl shlW_toNat, laneTwo_of exec_shr shrW_toNat, laneTwo_of exec_sra sraW_toInt,
    laneTwo_of exec_rotl fun a b _ => rotlW_bit a b, laneOne_of exec_popc popcW_toNat, laneOne_of exec_clz clzW_spec,
    laneOne_of exec_brev fun a _ => brevW_bit a, laneOne_of exec_iabs iabsW_eq, laneTwo_of exec_udiv udivW_toNat,
    laneTwo_of exec_urem uremW_toNat, laneTwo_of exec_lea fun a b => congrArg (a + ·) (BitVec.mul_one b),
    laneTwo_of exec_lea2 fun _ _ => rfl, laneTwo_of exec_lea4 fun _ _ => rfl, laneTwo_of exec_lea8 fun _ _ => rfl⟩,
    laneTwo_of exec_bfx bfxW_bit, laneTwo_of exec_bfi bfiW_bit⟩

end Sys2Proof.Proofs
end

section
/-!
PROOF. The conversions between FP32 and integers (R27, R80), into narrow formats (R81, R82) and from them (R83).
-/
namespace Sys2Proof.Proofs
open Sys2Proof.Machine Sys2Proof.Laws

/-! FP32 to integers (R27, R80). -/

section
variable {a : Word} {s : Bool}

theorem toIntZ_nan (h : f32 a = .nan s) : toIntZ a = 0 := by simp only [toIntZ, h]

theorem toIntZ_inf (h : f32 a = .inf s) : (toIntZ a).toInt = if s then -2 ^ 31 else 2 ^ 31 - 1 := by
  cases s <;> simp only [toIntZ, h] <;> rfl

/-- A finite value is truncated and saturated. -/
theorem toIntZ_num {x : ℚ} (h : f32 a = .num s x) :
    (toIntZ a).toInt = max (-2 ^ 31) (min (2 ^ 31 - 1) (truncSigned s x)) := by
  have hsat : toIntZ a = sat32 (truncSigned s x) := by simp only [toIntZ, h, sat32]
  rw [hsat, sat32_toInt]

theorem toUIntZ_nan (h : f32 a = .nan s) : toUIntZ a = 0 := by simp only [toUIntZ, h]

theorem toUIntZ_inf (h : f32 a = .inf s) : (toUIntZ a).toNat = if s then 0 else 2 ^ 32 - 1 := by
  cases s <;> simp only [toUIntZ, h] <;> rfl

theorem toUIntZ_neg {x : ℚ} (h : f32 a = .num true x) : toUIntZ a = 0 := by simp only [toUIntZ, h, if_true]

theorem toUIntZ_pos {x : ℚ} (h : f32 a = .num false x) :
    ((toUIntZ a).toNat : Int) = max 0 (min (2 ^ 32 - 1) x.floor) := by
  have h0 : 0 ≤ x.floor := Int.floor_nonneg.2 (f32_nonneg h)
  simp only [toUIntZ, h, Bool.false_eq_true, if_false]
  split
  · rw [show (0xFFFF_FFFF : Word).toNat = 2 ^ 32 - 1 from rfl]; omega
  · rw [BitVec.toNat_ofInt]; omega

end

/-! Into narrow formats (R81, R82). -/

theorem cvt2W_toNat {f : Fmt} (h : f = .bf16 ∨ f = .fp16) (a b : Word) :
    (cvt2W f a b).toNat = roundIeee f .ne (f32 b) * 2 ^ 16 + roundIeee f .ne (f32 a) := by
  have ha := roundIeee_lt_two_pow_sixteen h .ne (f32 a)
  have hb := roundIeee_lt_two_pow_sixteen h .ne (f32 b)
  rw [cvt2W, BitVec.toNat_ofNat, Nat.mod_eq_of_lt (by omega)]; rfl

/-- A stochastic conversion takes its random bits from b[15:0]. -/
theorem srOf_eq (b : Word) : srOf b = .sr (b.extractLsb' 0 16).toNat := by
  rw [srOf, BitVec.extractLsb'_toNat, Nat.shiftRight_zero]

theorem pack_srOf (f : Fmt) (sh : Nat) (a b d : Word) :
    pack f (srOf b) sh a d =
      (d <<< sh) ||| BitVec.ofNat 32 (convertNarrow f (.sr (b.extractLsb' 0 16).toNat) (f32 a)).1 := by
  rw [srOf_eq]; rfl

/-- Settles O4: the conversions to integers by the class of the value, those into narrow formats by their rounding mode, and the
unpacks by their definition. -/
theorem conversionResults : Obligations.ConversionResults := by
  unfold Obligations.ConversionResults
  refine ⟨⟨laneOne_of exec_i2f fun _ => rfl, laneOne_of exec_u2f fun _ => rfl, laneOne_of exec_f2i fun a => ?f2i,
    laneOne_of exec_f2u fun a => ?f2u⟩,
    ⟨laneTwo_of exec_cvtBf2 (cvt2W_toNat (.inl rfl)), laneTwo_of exec_cvtHf2 (cvt2W_toNat (.inr rfl))⟩,
    laneThree_of exec_cvtE4 fun _ _ _ => rfl, laneThree_of exec_cvtE5 fun _ _ _ => rfl,
    laneThree_of exec_cvtsrE4 (pack_srOf .e4m3 8), laneThree_of exec_cvtsrE5 (pack_srOf .e5m2 8),
    laneThree_of exec_cvtsrE3m2 (pack_srOf .e3m2 8), laneThree_of exec_cvtsrE2m1 (pack_srOf .e2m1 4),
    laneThreeOne_of exec_cvtE3m2 fun _ _ => rfl, laneThreeOne_of exec_cvtE2m3 fun _ _ => rfl,
    laneThreeOne_of exec_cvtE2m1 fun _ _ => rfl, laneThree_of exec_cvtsrBf fun a b d => ?bf,
    laneThree_of exec_cvtsrE2m3 (pack_srOf .e2m3 8), laneTwo_of exec_unpBf fun _ _ => rfl,
    laneTwo_of exec_unpHf fun _ _ => rfl, laneTwo_of exec_unpE4 fun _ _ => rfl, laneTwo_of exec_unpE5 fun _ _ => rfl,
    laneTwo_of exec_unpE3m2 fun _ _ => rfl, laneTwo_of exec_unpE2m3 fun _ _ => rfl, laneTwo_of exec_unpE2m1 fun _ _ => rfl⟩
  case f2i =>
    cases h : f32 a with
    | nan s => exact toIntZ_nan h
    | inf s => exact toIntZ_inf h
    | num s x => exact toIntZ_num h
  case f2u =>
    cases h : f32 a with
    | nan s => exact toUIntZ_nan h
    | inf s => exact toUIntZ_inf h
    | num s x =>
      cases s
      · exact toUIntZ_pos h
      · exact toUIntZ_neg h
  case bf => rw [srOf_eq]

end Sys2Proof.Proofs
end

section
/-!
PROOF. The compares (R84), the selection and the group queries (R85), and the shuffles (R86).
-/
namespace Sys2Proof.Proofs
open Sys2Proof.Machine Sys2Proof.Laws

/-! Compares (R84). -/

theorem bit32_eq {c : Bool} {p : Prop} [Decidable p] (h : c = true ↔ p) : bit32 c = if p then 1 else 0 := by
  simp only [bit32, h]

theorem bit32_ult (a b : Word) : bit32 (a.ult b) = if a.toNat < b.toNat then 1 else 0 :=
  bit32_eq BitVec.ult_iff_lt

theorem bit32_sle (a b : Word) : bit32 (a.sle b) = if a.toInt ≤ b.toInt then 1 else 0 :=
  bit32_eq BitVec.sle_iff_toInt_le

/-! Selection (R85). -/

theorem sel_eq (a b d : Word) : (if d = 0 then b else a) = if d ≠ 0 then a else b := (ite_not ..).symm

/-! Shuffles (R86). -/

/-- The lane that a shuffle of source function `j` reads, where the integer `j l b` is 0 or more. -/
def sourceLane (j : Nat → Word → Int) (l : Nat) (b : Word) : Option Nat :=
  if 0 ≤ j l b then some (j l b).toNat else none

/-- A shuffle whose source lane is `sourceLane j`. -/
theorem laneShuffle_of {i : BitVec 1 → BitVec 7 → BitVec 7 → BitVec 7 → Instr} {src : Nat → Nat → Option Nat}
    {j : Nat → Word → Int} (h : ∀ n b a d s, exec (i n b a d) s = shuffle src n b a d s)
    (hj : ∀ l b, l < 32 → src l b.toNat = sourceLane j l b) : LaneShuffle i j := by
  intro n b a d s hc
  refine ⟨_, by rw [h, shuffle, guard_clear hc], _, writeLane_effect _ n d.toNat _ 4, fun l hl _ => ?_⟩
  rw [hj l _ hl, sourceLane, cleared_em]
  generalize j l ((cleared (laneNeed n d [a, b] false) s).me.src b l) = k
  by_cases h0 : 0 ≤ k
  · have hlt : k.toNat < 32 ↔ k ≤ 31 := by omega
    simp only [h0, hlt, if_true, true_and]
  · simp only [h0, if_false, false_and]

/-- Settles O5: the compares by their relation, BALLOT and MATCH bit by bit of the mask of lanes, and the shuffles by their source
lane. -/
theorem compareAndSelectionResults : Obligations.CompareAndSelectionResults := by
  unfold Obligations.CompareAndSelectionResults
  refine ⟨⟨laneTwo_of exec_icmpeq icmpeqW_eq, laneTwo_of exec_icmplt icmpltW_eq, laneTwo_of exec_icmpltu bit32_ult,
    laneTwo_of exec_icmple bit32_sle, laneTwo_of exec_fcmpeq fun _ _ => rfl, laneTwo_of exec_fcmplt fun _ _ => rfl,
    laneTwo_of exec_fcmple fun a b => bit32_eq (by rw [fcmpleB, Bool.or_eq_true]),
    laneTwo_of exec_fcmpun fun a b => bit32_eq (by rw [Bool.or_eq_true])⟩,
    ⟨laneThree_of exec_sel sel_eq, fun n a d s hc => ?ballot, fun n a d s hc => ?matchLanes, fun n d s hc => ?laneid⟩,
    laneShuffle_of exec_shfl ?shfl, laneShuffle_of exec_shflup ?shflup, laneShuffle_of exec_shfldn ?shfldn,
    laneShuffle_of exec_shflx ?shflx⟩
  case ballot =>
    refine ⟨_, by rw [exec_ballot, execBallot, guard_clear hc], _, writeLane_effect _ n d.toNat _ 4, fun l k _ hk => ?_⟩
    rw [laneMask_bit _ _ hk, cleared_em]
  case matchLanes =>
    refine ⟨_, by rw [exec_matchLanes, execMatchLanes, guard_clear hc], _, writeLane_effect _ n d.toNat _ 4, fun l k _ hk => ?_⟩
    rw [laneMask_bit _ _ hk, cleared_em]
  case laneid => exact answers_writeLane (by rw [exec_laneid, execLaneid, guard_clear hc]) rfl
  all_goals intro l b hl; simp only [sourceLane, toNat_lowFive]
  case shfl => rw [if_pos (by omega), Int.toNat_natCast]
  case shflup =>
    by_cases h : l < b.toNat % 32
    · rw [if_pos h, if_neg (by omega)]
    · rw [if_neg h, if_pos (by omega), Int.toNat_sub]
  case shfldn => rw [if_pos (by omega)]; rfl
  case shflx => rw [if_pos (by omega), Int.toNat_natCast]

end Sys2Proof.Proofs
end

section
/-!
PROOF. The masks of a sub-group (R103, R104), YIELD (R106), and the traps that let their chain take effect (R106, R107, R279).
-/
namespace Sys2Proof.Proofs
open Sys2Proof.Machine Sys2Proof.Laws

/-- An instruction of the cores that needs nothing else is executed by every group at once. -/
theorem clear_of_core {s : State} (hk : s.me.kind = .core) : Clear (Need.of .core) s := by
  refine (clear_noreads rfl rfl rfl rfl).2 ?_
  rw [decodeCause, hk]
  rfl

/-! The masks (R103, R104). -/

/-- Settles O11: MSKIP by whether the mask that it makes is empty. -/
theorem maskSkipResults : Obligations.MaskSkipResults := by
  unfold Obligations.MaskSkipResults
  intro x p s hc m
  have hexec : exec (.mskip x p) s =
      if m = 0 then .next (s.jump (s.me.target x)) else .next ((withEm s m).finish true) := by
    rw [exec_mskip, execMskip, guard_clear hc, cleared_noreads s rfl]
    rfl
  by_cases hm : m = 0
  · refine ⟨_, hexec.trans (if_pos hm), ?_⟩
    dsimp only
    rw [if_pos hm, ← target_eq]
    exact jump_effect s _
  · refine ⟨_, hexec.trans (if_neg hm), ?_⟩
    dsimp only
    rw [if_neg hm]
    exact finish_effect (withEm s m) true

/-! Traps that let their chain take effect (R106, R107). -/

theorem takeTrapAfter_unit {s : State} (hk : s.me.kind ≠ .sup) (c : Cause) (i : FaultInfo) (size : Nat) :
    takeTrapAfter s c i size = { s with
      me := { s.me.retire none (s.me.nextPc size) true with run := .faulted }
      pending := s.pending ++
        [pendingOf s.me (s.die s.me.place.die).time c .postEffect i (s.me.nextPc size)] } := if_neg hk

/-- SCAUSE of a cause that is no translation fault. -/
theorem scauseOf_detail {c : Cause} (h : c.isTranslation = false) (i : FaultInfo) :
    scauseOf c i = BitVec.ofNat 64 c.code ||| (i.detail <<< 8) := by
  rw [scauseOf, h]; rfl

theorem software_not_translation (n : BitVec 4) : (Cause.software n).isTranslation = false := by
  have hcode : (Cause.software n).code = 0xF0 + n.toNat := rfl
  simp only [Cause.isTranslation, hcode, Bool.and_eq_false_iff, decide_eq_false_iff_not]
  omega

/-- What a trap after its chain leaves: the chain has taken effect as that of an instruction that goes on at the next one; then the
agent of a unit stands with its record, and a supervisor thread is at its handler (R279). -/
theorem takeTrapAfter_effect (s : State) {c : Cause} (h : c.isTranslation = false) (i : FaultInfo) :
    let t := takeTrapAfter s c i 4
    ∃ u, FlowEffect s u (s.me.cur.pc + 4) true ∧
      (s.me.kind ≠ .sup → ∃ p : Pending, t = { u with me := { u.me with run := .faulted }, pending := s.pending ++ [p] } ∧
        p.cause = c ∧ p.kind = .postEffect ∧ p.detail = i.detail ∧ p.headPc = s.me.cur.pc + 4 ∧ p.pc = s.me.cur.pc ∧
        p.who = some s.me.who ∧ p.ctx = s.me.ctx ∧ p.time = (s.die s.me.place.die).time) ∧
      (s.me.kind = .sup → t = { u with me := { u.me with
        sepc := (s.me.cur.pc + 4).setWidth 64, scause := BitVec.ofNat 64 c.code ||| (i.detail <<< 8),
        cur := { u.me.cur with pc := evenPc s.me.stvec, headPc := evenPc s.me.stvec } } }) := by
  refine ⟨_, finish_effect s true, fun hk => ⟨_, takeTrapAfter_unit hk c i 4, rfl, rfl, rfl, rfl, rfl, rfl, rfl, rfl⟩, fun hk => ?_⟩
  dsimp only
  rw [takeTrapAfter_sup hk, Agent.enterHandler, scauseOf_detail h, congrArg evenPc (retire_stvec ..)]
  rfl

/-- Settles O12: each instruction by what it retires with, BKPT and TRAP by the trap after their chain. -/
theorem maskAndTrapResults : Obligations.MaskAndTrapResults := by
  unfold Obligations.MaskAndTrapResults
  refine ⟨⟨fun d s hc => answers_finishG hc rfl (exec_emrd d s), fun a s hc => ?emwr, fun s hk => ?yield, fun s hk hd => ?bkptOff⟩,
    fun s hk hd => ?bkpt, fun n a s hc => ?trap⟩
  case emwr =>
    refine ⟨_, ?_, finish_effect (withEm s _) false⟩
    rw [exec_emwr, execEmwr, guard_clear hc, cleared_noreads s rfl]
    rfl
  case yield =>
    exact ⟨_, by rw [exec_yield, execYield, guard_clear (clear_of_core hk), cleared_noreads s rfl], finish_effect s true⟩
  case bkptOff =>
    refine ⟨_, ?_, finish_effect s true⟩
    rw [exec_bkpt, execBkpt, guard_clear (clear_of_core hk), cleared_noreads s rfl, hd]
    rfl
  case bkpt =>
    refine ⟨_, ?_, takeTrapAfter_effect s rfl .none⟩
    rw [exec_bkpt, execBkpt, guard_clear (clear_of_core hk), cleared_noreads s rfl, hd]
    rfl
  case trap =>
    refine ⟨_, ?_, takeTrapAfter_effect s (software_not_translation n) { FaultInfo.none with detail := s.me.g7 a }⟩
    rw [exec_trap, execTrap, guard_clear hc, cleared_noreads s rfl]

end Sys2Proof.Proofs
end

section
/-!
PROOF. Divergence and joins (R101, R102): how parked sub-groups fuse until none moves, and every outcome of BRV and of FUSE.
-/
namespace Sys2Proof.Proofs
open Sys2Proof.Machine Sys2Proof.Laws

/-! One parked sub-group meets case 4 of R102. -/

/-- The sub-group that `g` becomes with its sibling `h`, or, with none, over one that has ended: parked at the same FUSE, a child of
the parent of the split entry `x`. -/
def fusedBy (g : Sub) (ls em : Word) (x : Split) : Sub :=
  { Sub.head g.id (g.ls ||| ls ||| x.dormant) (g.em ||| em) g.pc x.parent [] with parked := true }
def fusedOver (g : Sub) (x : Split) : Sub :=
  { Sub.head g.id (g.ls ||| x.dormant) g.em g.pc x.parent [] with parked := true }

theorem fuseOne_root {g : Sub} (h : g.parent = none) (rest : List Sub) (splits : List Split) :
    fuseOne g rest splits = some (g.goOn :: rest, splits) := by
  simp only [fuseOne, h]

section
variable {g : Sub} {rest : List Sub} {splits : List Split} {x : Split}

theorem fuseOne_meet {h : Sub} (hg : g.parent = some x.id) (hx : splits.find? (fun y => y.id == x.id) = some x)
    (hh : rest.find? (fun y => y.parent == some x.id) = some h) (hp : h.parked = true) (hpc : h.pc = g.pc) :
    fuseOne g rest splits =
      some (fusedBy g h.ls h.em x :: rest.filter (fun y => y.id != h.id), splits.filter fun y => y.id != x.id) := by
  simp only [fuseOne, hg, hx, hh, hp, hpc, if_true]
  rfl

theorem fuseOne_miss {h : Sub} (hg : g.parent = some x.id) (hx : splits.find? (fun y => y.id == x.id) = some x)
    (hh : rest.find? (fun y => y.parent == some x.id) = some h) (hp : h.parked = true) (hpc : h.pc ≠ g.pc) :
    fuseOne g rest splits = some (g.goOn :: rest.map (fun y => if y.id = h.id then y.goOn else y), splits) := by
  simp only [fuseOne, hg, hx, hh, hp, hpc, if_true, if_false]

theorem fuseOne_wait {h : Sub} (hg : g.parent = some x.id) (hx : splits.find? (fun y => y.id == x.id) = some x)
    (hh : rest.find? (fun y => y.parent == some x.id) = some h) (hp : h.parked = false) :
    fuseOne g rest splits = none := by
  simp only [fuseOne, hg, hx, hh, hp, Bool.false_eq_true, if_false]

theorem fuseOne_over (hg : g.parent = some x.id) (hx : splits.find? (fun y => y.id == x.id) = some x)
    (hh : rest.find? (fun y => y.parent == some x.id) = none) (he : 0 < x.ended) :
    fuseOne g rest splits = some (fusedOver g x :: rest, splits.filter fun y => y.id != x.id) := by
  simp only [fuseOne, hg, hx, hh, he, if_true]
  rfl

theorem fuseOne_alone (hg : g.parent = some x.id) (hx : splits.find? (fun y => y.id == x.id) = some x)
    (hh : rest.find? (fun y => y.parent == some x.id) = none) (he : x.ended = 0) :
    fuseOne g rest splits = none := by
  simp only [fuseOne, hg, hx, hh, he, Nat.lt_irrefl, if_false]

end

/-! Case 4 of R102 until no parked sub-group moves. -/

theorem fuseFirst_head {g : Sub} {rest : List Sub} {splits : List Split} {r : List Sub × List Split} (hp : g.parked = true)
    (h : fuseOne g rest splits = some r) : fuseFirst [] (g :: rest) splits = some r := by
  simp only [fuseFirst, hp, List.nil_append, h, if_true]

theorem fuseFirst_none (before : List Sub) {after : List Sub} (splits : List Split) (h : ∀ y ∈ after, y.parked = false) :
    fuseFirst before after splits = none := by
  induction after generalizing before with
  | nil => rfl
  | cons g rest ih =>
    have hg : g.parked = false := h g (by simp)
    simp only [fuseFirst, hg, Bool.false_eq_true, if_false]
    exact ih _ fun y hy => h y (by simp [hy])

theorem fuseFirst_stays {g : Sub} {rest : List Sub} {splits : List Split} (hp : g.parked = true)
    (h : fuseOne g rest splits = none) (hr : ∀ y ∈ rest, y.parked = false) : fuseFirst [] (g :: rest) splits = none := by
  simp only [fuseFirst, hp, List.nil_append, h, if_true]
  exact fuseFirst_none _ _ hr

/-- After at most `k` moves the sub-groups and split entries are `r`, where none moves any more. -/
def Settles (k : Nat) (subs : List Sub) (splits : List Split) (r : List Sub × List Split) : Prop :=
  ∀ n, k ≤ n → fuseAll n subs splits = r

theorem Settles.stop {subs : List Sub} {splits : List Split} (h : fuseFirst [] subs splits = none) :
    Settles 0 subs splits (subs, splits) := by
  intro n _
  cases n with
  | zero => rfl
  | succ n => simp only [fuseAll, h]

theorem Settles.step {k : Nat} {subs subs' : List Sub} {splits splits' : List Split} {r : List Sub × List Split}
    (h : fuseFirst [] subs splits = some (subs', splits')) (hr : Settles k subs' splits' r) : Settles (k + 1) subs splits r := by
  intro n hn
  obtain ⟨m, rfl⟩ : ∃ m, n = m + 1 := ⟨n - 1, by omega⟩
  simp only [fuseAll, h]
  exact hr m (by omega)

theorem Settles.mono {k j : Nat} {subs : List Sub} {splits : List Split} {r : List Sub × List Split}
    (h : Settles k subs splits r) (hk : k ≤ j) : Settles j subs splits r := fun n hn => h n (hk.trans hn)

/-- A sub-group with no parent goes on, and the others stay as they are. -/
theorem settles_root {g : Sub} {rest : List Sub} (splits : List Split) (hp : g.parked = true) (hg : g.parent = none)
    (hr : ∀ y ∈ rest, y.parked = false) : Settles 1 (g :: rest) splits (g.goOn :: rest, splits) :=
  .step (fuseFirst_head hp (fuseOne_root hg _ _)) (.stop (fuseFirst_none [] _ (by
    intro y hy
    rcases List.mem_cons.1 hy with rfl | hy
    · rfl
    · exact hr y hy)))

/-- Two siblings with one split entry, of which `g` is parked: they meet, miss each other, or `g` waits; the sub-groups `rest` are
no siblings. -/
theorem settles_pair {g h : Sub} {x : Split} (hp : g.parked = true) (hg : g.parent = some x.id) (hh : h.parent = some x.id)
    (hx : x.parent = none) :
    (h.parked = true → h.pc = g.pc → Settles 2 [g, h] [x] ([(fusedBy g h.ls h.em x).goOn], [])) ∧
    (h.parked = true → h.pc ≠ g.pc → Settles 1 [g, h] [x] ([g.goOn, h.goOn], [x])) ∧
    (h.parked = false → Settles 0 [g, h] [x] ([g, h], [x])) := by
  have hfx : [x].find? (fun y => y.id == x.id) = some x := by simp
  have hfh : [h].find? (fun y => y.parent == some x.id) = some h := by simp [hh]
  refine ⟨fun hhp hpc => ?_, fun hhp hpc => ?_, fun hhp => ?_⟩
  · refine .step (fuseFirst_head hp (fuseOne_meet hg hfx hfh hhp hpc)) ?_
    simpa using settles_root [] rfl hx (rest := []) (by simp)
  · refine .step (fuseFirst_head hp (fuseOne_miss hg hfx hfh hhp hpc)) ?_
    simpa using Settles.stop (fuseFirst_none [] [x] (after := [g.goOn, h.goOn]) (by simp [Sub.goOn, Sub.head]))
  · exact .stop (fuseFirst_stays hp (fuseOne_wait hg hfx hfh hhp) (by simpa using hhp))

/-- A parked sub-group whose sibling has ended fuses over it, and goes on where its split entry has no parent. -/
theorem settles_over {g : Sub} {x : Split} (hp : g.parked = true) (hg : g.parent = some x.id) (hx : x.parent = none)
    (he : 0 < x.ended) : Settles 2 [g] [x] ([(fusedOver g x).goOn], []) := by
  refine .step (fuseFirst_head hp (fuseOne_over hg (by simp) rfl he)) ?_
  simpa using settles_root [] rfl hx (rest := []) (by simp)

/-! The agent, once its parked sub-groups have met. -/

theorem regroup_head {c : Sub} {r : List Sub} {id : Nat} (a : Agent) (splits : List Split) (hc : c.id = id)
    (hr : ∀ y ∈ r, y.id ≠ id) :
    a.regroup id (c :: r) splits = { a with cur := c, others := r, splits := splits } := by
  have hfilter : (c :: r).filter (fun y => y.id != id) = r := by
    rw [List.filter_cons_of_neg (by simp [hc])]
    exact List.filter_eq_self.2 fun y hy => by simpa using hr y hy
  have hfind : (c :: r).find? (fun y => y.id == id) = some c := List.find?_cons_of_pos (by simp [hc])
  simp only [Agent.regroup, hfind, hfilter]

theorem settleFuse_of {a : Agent} {c : Sub} {r : List Sub} {splits : List Split}
    (h : Settles 4 (a.cur :: a.others) a.splits (c :: r, splits)) (hc : c.id = a.cur.id) (hr : ∀ y ∈ r, y.id ≠ a.cur.id) :
    a.settleFuse = { a with cur := c, others := r, splits := splits } := by
  rw [Agent.settleFuse, h _ (Nat.le_add_left _ _)]
  exact regroup_head a splits hc hr

/-! FUSE by the serial stack and the parent of the sub-group (R102). -/

section
variable {a : Agent}

theorem fuse_firstPhase {e : SerialEntry} {r : List SerialEntry} (hs : a.cur.stack = e :: r) (hp : e.phase = false) :
    a.fuse = { a with
      cur := Sub.head a.cur.id e.f e.f e.pc a.cur.parent
        ({ e with ls := a.cur.ls, em := a.cur.em, fusePc := a.cur.pc, phase := true } :: r) } := by
  simp only [Agent.fuse, hs, hp, Bool.false_eq_true, if_false]

theorem fuse_secondPhase {e : SerialEntry} {r : List SerialEntry} (hs : a.cur.stack = e :: r) (hp : e.phase = true) :
    a.fuse = { a with
      cur := Sub.head a.cur.id (e.ls ||| a.cur.ls ||| e.dormant) (e.em ||| a.cur.em) (a.cur.pc + 4) a.cur.parent r } := by
  simp only [Agent.fuse, hs, hp, if_true]

theorem fuse_root (hs : a.cur.stack = []) (hg : a.cur.parent = none) : a.fuse = { a with cur := a.cur.goOn } := by
  simp only [Agent.fuse, hs, hg]

/-- A child's FUSE parks it, and then the parked sub-groups meet. -/
theorem fuse_child {e : Nat} {c : Sub} {r : List Sub} {splits : List Split} (hs : a.cur.stack = []) (hg : a.cur.parent = some e)
    (h : Settles 4 ({ a.cur with parked := true } :: a.others) a.splits (c :: r, splits)) (hc : c.id = a.cur.id)
    (hr : ∀ y ∈ r, y.id ≠ a.cur.id) : a.fuse = { a with cur := c, others := r, splits := splits } := by
  have hfuse : a.fuse = ({ a with cur := { a.cur with parked := true } } : Agent).settleFuse := by
    unfold Agent.fuse
    dsimp only
    split
    next hs' => simp [hs] at hs'
    next =>
      split
      next hg' => simp [hg] at hg'
      next => rfl
  rw [hfuse]
  exact settleFuse_of (a := { a with cur := { a.cur with parked := true } }) h hc hr

end

/-- Two siblings that have met, and then meet, miss or wait for the sibling of their parent. -/
theorem settles_nested {g h k : Sub} {x y : Split} {j : Nat} {r : List Sub × List Split} (hp : g.parked = true)
    (hg : g.parent = some x.id) (hh : h.parent = some x.id) (hhp : h.parked = true) (hpc : h.pc = g.pc)
    (hkh : k.id ≠ h.id) (hxy : x.id ≠ y.id) (hr : Settles j [fusedBy g h.ls h.em x, k] [y] r) :
    Settles (j + 1) [g, h, k] [x, y] r := by
  refine .step (fuseFirst_head hp (fuseOne_meet hg (by simp) (by simp [hh]) hhp hpc)) ?_
  simpa [hkh, hxy.symm] using hr

/-- A sub-group that has fused over its ended sibling, and then meets the sibling of its parent. -/
theorem settles_overNested {g k : Sub} {x y : Split} {j : Nat} {r : List Sub × List Split} (hp : g.parked = true)
    (hg : g.parent = some x.id) (hk : k.parent ≠ some x.id) (he : 0 < x.ended) (hxy : x.id ≠ y.id)
    (hr : Settles j [fusedOver g x, k] [y] r) : Settles (j + 1) [g, k] [x, y] r := by
  refine .step (fuseFirst_head hp (fuseOne_over hg (by simp) (by simp [hk]) he)) ?_
  simpa [hxy.symm] using hr

/-! FUSE as an instruction. -/

theorem exec_fuse_next {s : State} (hk : s.me.kind = .core) :
    exec .fuse s = .next { s with me := (s.me.retire none s.me.cur.pc true).fuse } := by
  rw [exec_fuse, execFuse, guard_clear (clear_of_core hk), cleared_noreads s rfl]

/-! BRV (R101). -/

section
variable (s : State) (t f target next : Word)

theorem diverge_split (hs : s.me.cur.stack = []) (hf : 0 < s.splitFree) :
    s.diverge t f target next =
      let a := s.me.retire none next true
      { s with me := { a with
        cur := Sub.head (a.nextId + 1) t t target (some a.nextId) [],
        others := Sub.head (a.nextId + 2) f f next (some a.nextId) [] :: a.others,
        splits := ⟨a.nextId, s.me.cur.parent, s.me.cur.ls &&& ~~~s.me.cur.em, 0⟩ :: a.splits, nextId := a.nextId + 3 } } := by
  have hc : (s.me.retire none next true).cur.stack.isEmpty ∧ 0 < s.splitFree := by simp [hs, hf]
  unfold State.diverge
  dsimp only
  rw [if_pos hc]
  simp only [retire_cur_parent, retire_cur_ls, retire_cur_em]

theorem diverge_serial (hf : ¬(s.me.cur.stack = [] ∧ 0 < s.splitFree)) (hl : s.me.cur.stack.length < 16) :
    s.diverge t f target next = { s with me := { s.me.retire none next true with
      cur := Sub.head s.me.cur.id t t target s.me.cur.parent
        (⟨f, next, s.me.cur.ls &&& ~~~s.me.cur.em, false, 0, 0, 0⟩ :: s.me.cur.stack) } } := by
  have hc : ¬((s.me.retire none next true).cur.stack.isEmpty ∧ 0 < s.splitFree) := by simpa using hf
  have hl' : (s.me.retire none next true).cur.stack.length < 16 := by simpa using hl
  unfold State.diverge
  dsimp only
  rw [if_neg hc, if_pos hl']
  simp only [retire_cur_id, retire_cur_parent, retire_cur_ls, retire_cur_em, retire_cur_stack]

theorem diverge_trap (hl : 16 ≤ s.me.cur.stack.length) : s.diverge t f target next = takeTrap s .splitDepth := by
  have hc : ¬((s.me.retire none next true).cur.stack.isEmpty ∧ 0 < s.splitFree) := by
    intro h
    rw [retire_cur_stack, List.isEmpty_iff] at h
    simp [h.1] at hl
  have hl' : ¬(s.me.retire none next true).cur.stack.length < 16 := by simpa using hl
  unfold State.diverge
  dsimp only
  rw [if_neg hc, if_neg hl']

end

/-- The lanes of `em` that are not among those of it for which `p` holds. -/
theorem laneMask_rest_bit (em : Word) (p : Nat → Bool) {l : Nat} (hl : l < 32) :
    (em &&& ~~~laneMask em p).getLsbD l = (em.getLsbD l && !p l) := by
  rw [BitVec.getLsbD_and, BitVec.getLsbD_not, laneMask_bit em p hl]
  cases em.getLsbD l <;> simp [hl]

/-- Settles O13: BRV by the lanes that take the branch and where the others are recorded; FUSE by the serial stack, the parent, and
what its sibling does. -/
theorem divergenceResults : Obligations.DivergenceResults := by
  unfold Obligations.DivergenceResults
  refine ⟨fun x p s hc => ?brv, fun s hk => ?fuse⟩
  case brv =>
    set u := cleared { Need.of .core with reads := srcReg p, latches := srcLatch p, wide := srcWide p } s with hu
    dsimp only
    have hexec : exec (.brv x p) s = (let em := u.me.cur.em
        let t := laneMask em fun l => u.me.src p l != 0
        let f := em &&& ~~~t
        if f = 0 then .next (u.jump (u.me.target x))
        else if t = 0 then .next (u.jump (u.me.nextPc 4))
        else .next (u.diverge t f (u.me.target x) (u.me.nextPc 4))) := by
      rw [exec_brv, execBrv, guard_clear hc, ← hu]
    rw [target_eq] at hexec
    refine ⟨laneMask u.me.cur.em fun l => u.me.src p l != 0, u.me.cur.em &&& ~~~laneMask u.me.cur.em fun l => u.me.src p l != 0,
      fun l hl => laneMask_bit _ _ hl, fun l hl => ?rest, fun hF => ?all, fun hF hT => ?noLane, fun hF hT hs hf => ?split,
      fun hF hT hs hl => ?serial, fun hF hT hl => ?trap⟩
    case rest =>
      rw [laneMask_rest_bit _ _ hl, bne, Bool.not_not]
    case all => exact ⟨_, hexec.trans (if_pos hF), jump_effect u _⟩
    case noLane => exact ⟨_, hexec.trans ((if_neg hF).trans (if_pos hT)), jump_effect u _⟩
    case split =>
      exact hexec.trans ((if_neg hF).trans ((if_neg hT).trans (congrArg _ (diverge_split u _ _ _ _ hs hf))))
    case serial =>
      exact hexec.trans ((if_neg hF).trans ((if_neg hT).trans (congrArg _ (diverge_serial u _ _ _ _ hs hl))))
    case trap =>
      exact hexec.trans ((if_neg hF).trans ((if_neg hT).trans (congrArg _ (diverge_trap u _ _ _ _ hl))))
  case fuse =>
    have hexec := exec_fuse_next hk
    have hid := retire_cur_id s.me none s.me.cur.pc true
    have hls := retire_cur_ls s.me none s.me.cur.pc true
    have hem := retire_cur_em s.me none s.me.cur.pc true
    have hpc := retire_cur_pc s.me none s.me.cur.pc true
    have hparent := retire_cur_parent s.me none s.me.cur.pc true
    have hstack := retire_cur_stack s.me none s.me.cur.pc true
    have hothers := retire_others s.me none s.me.cur.pc true
    have hsplits := retire_splits s.me none s.me.cur.pc true
    dsimp only
    generalize s.me.retire none s.me.cur.pc true = a at *
    simp only [← hid, ← hls, ← hem, ← hpc, ← hparent, ← hstack, ← hothers, ← hsplits, hexec]
    have next : ∀ {b : Agent}, a.fuse = b → (.next { s with me := a.fuse } : Out) = .next { s with me := b } := fun h => by rw [h]
    refine ⟨fun e r hs hp => next (fuse_firstPhase hs hp), fun e r hs hp => next (fuse_secondPhase hs hp),
      fun hs hg => next ?root, fun x h hs hg hx hsp ho hh hst hne => ?pair, fun x hs hg hx hsp ho he => next ?ended,
      fun x hs hg hx he ho => next ?alone,
      fun x y h k hs hg hx hy hxy hsp ho hh hkp hst hkst hhg hkg hkh hhp hpc => ?nested,
      fun x y k hs hg hx hy hxy hsp ho hkp hkst hkg he hp hpc => next ?overNested⟩
    case root => rw [fuse_root hs hg, Sub.goOn, hg, hs]
    case pair =>
      obtain ⟨meet, miss, wait⟩ := settles_pair (g := { a.cur with parked := true }) rfl hg hh hx
      rw [← ho, ← hsp] at meet miss wait
      refine ⟨fun hp hpc => next ?_, fun hp hpc => next ?_, fun hp => next ?_⟩
      · rw [fuse_child hs hg ((meet hp hpc).mono (by decide)) rfl (by simp), Sub.goOn, fusedBy, hx]; rfl
      · rw [fuse_child hs hg ((miss hp hpc).mono (by decide)) rfl (by simpa [Sub.goOn, Sub.head] using hne),
          Sub.goOn, Sub.goOn, hh, hst, hg, hs]
      · rw [fuse_child hs hg ((wait hp).mono (by decide)) rfl (by simpa [ho] using hne)]
    case ended =>
      have hset := (settles_over (g := { a.cur with parked := true }) rfl hg hx he).mono (by decide : 2 ≤ 4)
      rw [← hsp, ← ho] at hset
      rw [fuse_child hs hg hset rfl (by simp [ho]), Sub.goOn, fusedOver, hx]; rfl
    case alone =>
      have hfind : a.others.find? (fun y => y.parent == some x.id) = none :=
        List.find?_eq_none.2 fun h hh => by simpa using (ho h hh).1
      have hset := Settles.stop (fuseFirst_stays (g := { a.cur with parked := true }) rfl (fuseOne_alone hg hx hfind he)
        fun h hh => (ho h hh).2.1)
      rw [fuse_child hs hg (hset.mono (by decide)) rfl fun h hh => (ho h hh).2.2]
    case nested =>
      obtain ⟨meet, miss, wait⟩ := settles_pair (g := fusedBy { a.cur with parked := true } h.ls h.em x) rfl hx hkp hy
      have outer : ∀ {j : Nat} {r : List Sub × List Split}, Settles j _ _ r → Settles (j + 1) _ _ r := fun hr =>
        settles_nested (g := { a.cur with parked := true }) rfl hg hh hhp hpc hkh hxy hr
      rw [← ho, ← hsp] at outer
      refine ⟨fun hp hpc => next ?_, fun hp hpc => next ?_, fun hp => next ?_⟩
      · rw [fuse_child hs hg ((outer (meet hp hpc)).mono (by decide)) rfl (by simp), Sub.goOn, fusedBy, hy]; rfl
      · rw [fuse_child hs hg ((outer (miss hp hpc)).mono (by decide)) rfl (by simpa [Sub.goOn, Sub.head] using hkg),
          Sub.goOn, Sub.goOn, hkp, hkst, fusedBy, hx]; rfl
      · rw [fuse_child hs hg ((outer (wait hp)).mono (by decide)) rfl (by simpa using hkg), fusedBy, hx]
    case overNested =>
      obtain ⟨meet, -, -⟩ := settles_pair (g := fusedOver { a.cur with parked := true } x) rfl hx hkp hy
      have hset := settles_overNested (g := { a.cur with parked := true }) rfl hg (by simpa [hkp] using hxy.symm) he hxy (meet hp hpc)
      rw [← ho, ← hsp] at hset
      rw [fuse_child hs hg (hset.mono (by decide)) rfl (by simp), Sub.goOn, fusedBy, fusedOver, hy]; rfl

end Sys2Proof.Proofs
end

section
/-!
PROOF. EXIT (R102, R105), by the serial stack, the other sub-groups and the split entries, and REGQ (R108).
-/
namespace Sys2Proof.Proofs
open Sys2Proof.Machine Sys2Proof.Laws

/-! EXIT (R105). -/

theorem exec_exit_next (s : State) : exec .exit s = .next { s with me := (s.me.retire none (s.me.cur.pc + 4) true).exit } := by
  rw [exec_exit, execExit, guard_clear (clear_of_all s), cleared_noreads s rfl]
  rfl

/-- The split entries once the issuing sub-group has ended. -/
def splitsAfterExit (a : Agent) : List Split :=
  match a.cur.parent with
  | some e => childEnded (a.splits.length + 1) e a.splits
  | none => a.splits

section
variable {a : Agent}

theorem exit_serial {c : Sub} (h : exitSerial a.cur a.cur.stack = some c) : a.exit = { a with cur := c } := by
  simp only [Agent.exit, h]

theorem exit_last (h : exitSerial a.cur a.cur.stack = none) (ho : a.others = []) :
    a.exit = { a with splits := splitsAfterExit a, run := .ended } := by
  simp only [Agent.exit, h, ho]
  rfl

theorem exit_next {c : Sub} {r : List Sub} (h : exitSerial a.cur a.cur.stack = none) (ho : a.others = c :: r) :
    a.exit = ({ a with cur := c, others := r, splits := splitsAfterExit a } : Agent).settleFuse := by
  simp only [Agent.exit, h, ho]
  rfl

/-- The one other sub-group goes on, and fuses where it is parked and its sibling has ended. -/
theorem exit_one {h c : Sub} {sp splits : List Split} (hs : a.cur.stack = []) (ho : a.others = [h])
    (hsp : splitsAfterExit a = sp) (hset : Settles 4 [h] sp ([c], splits)) (hc : c.id = h.id) :
    a.exit = { a with cur := c, others := [], splits := splits } := by
  rw [exit_next (by rw [hs]; rfl) ho, hsp]
  exact settleFuse_of hset hc (by simp)

end

theorem childEnded_first {n e : Nat} {x : Split} {splits : List Split} (hx : splits.find? (fun y => y.id == e) = some x)
    (he : x.ended = 0) :
    childEnded (n + 1) e splits = splits.map fun y => if y.id = e then { y with ended := 1 } else y := by
  simp only [childEnded, hx, he, if_true]

theorem childEnded_both {n e p : Nat} {x : Split} {splits : List Split} (hx : splits.find? (fun y => y.id == e) = some x)
    (he : x.ended ≠ 0) (hp : x.parent = some p) :
    childEnded (n + 1) e splits = childEnded n p (splits.filter fun y => y.id != e) := by
  simp only [childEnded, hx, he, hp, if_false]

/-- A sub-group that is not parked stays as it is; one that is fuses over its ended sibling. -/
theorem settles_afterExit {h : Sub} {x : Split} (hh : h.parent = some x.id) (hx : x.parent = none) :
    (h.parked = false → Settles 4 [h] [{ x with ended := 1 }] ([h], [{ x with ended := 1 }])) ∧
    (h.parked = true → Settles 4 [h] [{ x with ended := 1 }]
      ([Sub.head h.id (h.ls ||| x.dormant) h.em (h.pc + 4) none []], [])) := by
  obtain ⟨id, parent, dormant, ended⟩ := x
  obtain rfl : parent = none := hx
  exact ⟨fun hp => (Settles.stop (fuseFirst_none [] _ (by simpa using hp))).mono (by decide),
    fun hp => (settles_over (x := ⟨id, none, dormant, 1⟩) hp hh rfl (Nat.lt_succ_self 0)).mono (by decide : 2 ≤ 4)⟩

/-- An entry of the serial stack whose lanes have all ended is passed over. -/
theorem exitSerial_skip {g : Sub} {e : SerialEntry} {r : List SerialEntry} (hp : e.phase = true) (he : e.em = 0) :
    exitSerial g (e :: r) = exitSerial g r := by
  simp only [exitSerial, hp, he, if_true]

/-- What is left of the stack matters only by the number and the parent of its sub-group. -/
theorem exitSerial_congr {g h : Sub} (hid : g.id = h.id) (hp : g.parent = h.parent) (l : List SerialEntry) :
    exitSerial g l = exitSerial h l := by
  induction l with
  | nil => rfl
  | cons e r ih => simp only [exitSerial, hid, hp, ih]

/-- The agent with another serial stack of the issuing sub-group. -/
def withStack (a : Agent) (r : List SerialEntry) : Agent := { a with cur := { a.cur with stack := r } }

theorem applyHeldG_withStack (a : Agent) (r : List SerialEntry) (i : Nat) (hs : List HeldG) :
    applyHeldG (withStack a r) i hs = withStack (applyHeldG a i hs) r := by
  induction hs with
  | nil => rfl
  | cons h hs ih =>
    simp only [applyHeldG, ih]
    split
    · split <;> rfl
    · rfl

theorem endChain_withStack (a : Agent) (r : List SerialEntry) : (withStack a r).endChain = withStack a.endChain r := by
  unfold Agent.endChain
  dsimp only
  rw [show (withStack a r).heldG = a.heldG from rfl, show (withStack a r).cur.id = a.cur.id from rfl, applyHeldG_withStack]
  rfl

/-- The agent once its instruction has executed, before its chain may end. -/
def issued (a : Agent) (o : Option Lanes) (p : Word) : Agent :=
  { a with
    cur := { a.cur with latches := ⟨o, a.cur.latches.b0, a.cur.latches.b1, a.cur.latches.b2⟩, pc := p, pos := a.cur.pos + 1 } }

theorem retire_eq (a : Agent) (o : Option Lanes) (p : Word) (e : Bool) :
    a.retire o p e = if chainEnds a e then (issued a o p).endChain else issued a o p := rfl

theorem retire_withStack (a : Agent) (r : List SerialEntry) (o : Option Lanes) (p : Word) (e : Bool) :
    (withStack a r).retire o p e = withStack (a.retire o p e) r := by
  have hends : chainEnds (withStack a r) e = chainEnds a e := rfl
  have hissued : issued (withStack a r) o p = withStack (issued a o p) r := rfl
  rw [retire_eq, retire_eq, hends, hissued, endChain_withStack, apply_ite (withStack · r)]

/-- EXIT passes over an entry whose lanes have all ended; where the group ends, only its ended sub-group still shows the entry. -/
theorem exit_skip {a : Agent} {e : SerialEntry} {r : List SerialEntry} (hs : a.cur.stack = e :: r) (hp : e.phase = true)
    (he : e.em = 0) :
    a.exit = (withStack a r).exit ∨
      (a.exit.run = .ended ∧ (withStack a r).exit.run = .ended ∧ a.exit.others = (withStack a r).exit.others) := by
  have hexit : exitSerial a.cur a.cur.stack = exitSerial a.cur r := by rw [hs, exitSerial_skip hp he]
  have hexit' : exitSerial (withStack a r).cur (withStack a r).cur.stack = exitSerial a.cur r :=
    exitSerial_congr (g := (withStack a r).cur) (h := a.cur) rfl rfl r
  cases hc : exitSerial a.cur r with
  | some c =>
    left
    rw [exit_serial (hexit.trans hc), exit_serial (hexit'.trans hc)]
    rfl
  | none =>
    cases ho : a.others with
    | nil =>
      right
      rw [exit_last (hexit.trans hc) ho, exit_last (hexit'.trans hc) ho]
      exact ⟨rfl, rfl, rfl⟩
    | cons c l =>
      left
      rw [exit_next (hexit.trans hc) ho, exit_next (hexit'.trans hc) ho]
      rfl

/-! REGQ (R108). -/

section
variable {s : State} {t n : Nat}

theorem regqStatus_bad (h : n = 0 ∨ n % 8 ≠ 0) : s.regqStatus t n = 1 := if_pos h

theorem regqStatus_noDonee (h : ¬(n = 0 ∨ n % 8 ≠ 0)) (ht : t = s.me.index ∨ s.agents.find? (s.donee t) = none) :
    s.regqStatus t n = 2 := by
  rw [State.regqStatus, if_neg h]
  split
  · rfl
  next b hb => rw [if_pos (ht.resolve_right (by simp [hb]))]

theorem regqStatus_donee {x : Agent} (h : ¬(n = 0 ∨ n % 8 ≠ 0)) (ht : t ≠ s.me.index)
    (hx : s.agents.find? (s.donee t) = some x) :
    s.regqStatus t n = if s.me.quota < n + 8 ∨ 120 < x.quota + n then 3 else 0 := by
  simp only [State.regqStatus, if_neg h, hx, if_neg ht]

end

theorem finishG_quota (s : State) (d : BitVec 7) (x : DWord) (e : Bool) : (s.finishG d x e).me.quota = s.me.quota := by
  rw [State.finishG, retire_quota, writeG_shape]

/-- The state once registers have been given (R108). -/
def regqGiven (s u : State) (t n : Nat) : State :=
  { u with me := { u.me with quota := u.me.quota - n },
           agents := u.agents.map fun x =>
             if s.donee t x then { x with v := zeroRegs x.v x.quota n, quota := x.quota + n } else x }

theorem exec_regq_next {b a d : BitVec 7} {s : State} (hc : Clear (gNeed .core [d, a, b]) s) :
    let t := (s.me.readG a.toNat).toNat
    let n := (s.me.readG b.toNat).toNat
    let u := s.finishG d (BitVec.ofNat 64 (s.regqStatus t n)) true
    exec (.regq b a d) s = .next (if s.regqStatus t n = 0 then regqGiven s u t n else u) := by
  dsimp only
  rw [exec_regq, execRegq, guard_clear hc, cleared_noreads s rfl]
  exact (apply_ite (fun t => (.next t : Out)) _ _ _).symm

/-- A REGQ whose status is not 0 writes it and moves nothing. -/
theorem regq_refuses {b a d : BitVec 7} {s : State} (hc : Clear (gNeed .core [d, a, b]) s) {k : Nat} (hk : k ≠ 0)
    (h : s.regqStatus (s.me.readG a.toNat).toNat (s.me.readG b.toNat).toNat = k) :
    Answers (.regq b a d) s fun u => GroupEffect s u d.toNat (BitVec.ofNat 64 k) true := by
  refine ⟨_, (exec_regq_next hc).trans ?_, finishG_effect s d _ true⟩
  rw [h, if_neg hk]

/-- Settles O14: EXIT by the serial stack and, where the sub-group ends, by the other sub-groups and the split entries; REGQ by its
status. -/
theorem exitAndQuotaResults : Obligations.ExitAndQuotaResults := by
  unfold Obligations.ExitAndQuotaResults
  refine ⟨fun s => ?exit, fun b a d s hc => ?regq⟩
  case exit =>
    have hexec := exec_exit_next s
    have hid := retire_cur_id s.me none (s.me.cur.pc + 4) true
    have hparent := retire_cur_parent s.me none (s.me.cur.pc + 4) true
    have hstack := retire_cur_stack s.me none (s.me.cur.pc + 4) true
    have hothers := retire_others s.me none (s.me.cur.pc + 4) true
    have hsplits := retire_splits s.me none (s.me.cur.pc + 4) true
    have hskip : ∀ r, exec .exit { s with me := { s.me with cur := { s.me.cur with stack := r } } } =
        .next { s with me := (withStack (s.me.retire none (s.me.cur.pc + 4) true) r).exit } := fun r => by
      rw [← retire_withStack]; exact exec_exit_next _
    dsimp only
    simp only [hskip]
    generalize s.me.retire none (s.me.cur.pc + 4) true = a at *
    simp only [← hid, ← hparent, ← hstack, ← hothers, ← hsplits, Answers, hexec]
    have next : ∀ {b : Agent}, a.exit = b → (.next { s with me := a.exit } : Out) = .next { s with me := b } := fun h => by rw [h]
    refine ⟨fun e r hs hp => next ?opens, fun e r hs hp he => next ?closes, fun e r hs hp he t ht => ?skips,
      fun hs hg ho => next ?last, fun x h hs hg he hx hsp ho hh hst => ?first,
      fun x y k hs hg he hx hye hy hxy hsp ho hk hst => ?both⟩
    case opens => exact exit_serial (by simp [hs, exitSerial, hp])
    case closes => exact exit_serial (by simp only [hs, exitSerial, hp, if_neg he, if_true])
    case skips =>
      cases ht
      rcases exit_skip hs hp he with h | ⟨hrun, hrun', ho⟩
      · exact ⟨fun _ => next h, fun hrun => ⟨_, rfl, by rw [h]; exact hrun, by rw [h]⟩⟩
      · exact ⟨fun hne => absurd hrun' hne, fun _ => ⟨_, rfl, hrun, ho⟩⟩
    case last =>
      have hafter : splitsAfterExit a = a.splits := by rw [splitsAfterExit, hg]
      rw [exit_last (by rw [hs]; rfl) ho, hafter]
    case first =>
      have hafter : splitsAfterExit a = [{ x with ended := 1 }] := by
        rw [splitsAfterExit, hg, hsp]
        exact (childEnded_first (by simp) he).trans (by simp)
      obtain ⟨stays, fuses⟩ := settles_afterExit hh hx
      exact ⟨fun hp => next (exit_one hs ho hafter (stays hp) rfl), fun hp => next (exit_one hs ho hafter (fuses hp) rfl)⟩
    case both =>
      have hafter : splitsAfterExit a = [{ y with ended := 1 }] := by
        rw [splitsAfterExit, hg, hsp]
        refine (childEnded_both (by simp) (by simp [he]) hx).trans ?_
        exact (childEnded_first (x := y) (by simp [hxy.symm]) hye).trans (by simp [hxy.symm])
      obtain ⟨stays, fuses⟩ := settles_afterExit hk hy
      exact ⟨fun hp => next (exit_one hs ho hafter (stays hp) rfl), fun hp => next (exit_one hs ho hafter (fuses hp) rfl)⟩
  case regq =>
    dsimp only
    refine ⟨fun hn => regq_refuses hc (by decide) (regqStatus_bad hn),
      fun hn ht => regq_refuses hc (by decide) (regqStatus_noDonee hn ht),
      fun x hn ht hx => ⟨fun hq => regq_refuses hc (by decide : 3 ≠ 0) ?short, fun hq hx' => ?given⟩⟩
    case short => rw [regqStatus_donee hn ht hx, if_pos hq]
    case given =>
      have hst := regqStatus_donee hn ht hx
      rw [if_neg (by omega)] at hst
      refine ⟨_, exec_regq_next hc, _, finishG_effect s d _ true, ?_⟩
      rw [hst, if_pos rfl, regqGiven, finishG_quota]
      rfl

end Sys2Proof.Proofs
end

section
/-!
PROOF. What the operations of a launch's end change of the state, as one shape for each: notes of monitored lines, writes to
memory, arrivals at barriers, and the lists of units and launches.
-/
namespace Sys2Proof.Proofs
open Sys2Proof.Machine Sys2Proof.Laws

/-! Notes of monitored lines, and writes (R169, R289). -/

/-- Of the whole state only the monitored lines and the snoops sent differ. -/
def OnlyNotes (s t : State) : Prop := ∃ m n, t = { s with monitors := m, snoops := n }

theorem OnlyNotes.refl (s : State) : OnlyNotes s s := ⟨_, _, rfl⟩

theorem OnlyNotes.trans {s t u : State} (h : OnlyNotes s t) (k : OnlyNotes t u) : OnlyNotes s u := by
  obtain ⟨m, n, rfl⟩ := h
  obtain ⟨m', n', rfl⟩ := k
  exact ⟨m', n', rfl⟩

theorem mapMonitors_notes (s : State) (f : Nat → List Holder → List Holder) : OnlyNotes s (s.mapMonitors f) := by
  unfold State.mapMonitors
  split
  · exact .refl s
  · exact ⟨_, _, rfl⟩

theorem passHold_notes (s : State) (p : Holder → Bool) (h : Holder) : OnlyNotes s (s.passHold p h) := mapMonitors_notes s _

theorem holdLines_notes (s : State) (h : Holder) (ks : List Nat) : OnlyNotes s (s.holdLines h ks) := mapMonitors_notes s _

theorem releaseSys_notes (s : State) (h : Holder) : OnlyNotes s (s.releaseSys h) := ⟨_, _, rfl⟩

theorem noteWrites_notes (s : State) (w : Writer) (cells : List (Nat × Byte)) : OnlyNotes s (s.noteWrites w cells) := by
  unfold State.noteWrites
  dsimp only
  split
  · exact (mapMonitors_notes s _).trans (holdLines_notes _ _ _)
  · exact mapMonitors_notes s _

theorem passLaunch_notes (s : State) (l : Launch) : OnlyNotes s (s.passLaunch l) := by
  unfold State.passLaunch
  split
  · exact passHold_notes s _ _
  · exact .refl s

/-- Of the whole state only the memory differs, with its poison, its owners and the notes of its lines. -/
def OnlyMemory (s t : State) : Prop :=
  ∃ x p o m n, t = { s with mem := x, poison := p, padOwner := o, monitors := m, snoops := n }

theorem OnlyNotes.memory {s t : State} (h : OnlyNotes s t) : OnlyMemory s t := by
  obtain ⟨m, n, rfl⟩ := h
  exact ⟨_, _, _, m, n, rfl⟩

theorem OnlyMemory.trans {s t u : State} (h : OnlyMemory s t) (k : OnlyMemory t u) : OnlyMemory s u := by
  obtain ⟨x, p, o, m, n, rfl⟩ := h
  obtain ⟨x', p', o', m', n', rfl⟩ := k
  exact ⟨x', p', o', m', n', rfl⟩

theorem writeMemAs_memory (s : State) (w : Writer) (cells : List (Nat × Byte)) : OnlyMemory s (s.writeMemAs w cells) :=
  OnlyMemory.trans ⟨_, _, _, _, _, rfl⟩ (noteWrites_notes _ w cells).memory

theorem ctxWrite_memory (s : State) (ctx va : Nat) (bs : List Byte) : OnlyMemory s (s.ctxWrite ctx va bs) :=
  writeMemAs_memory s deviceWriter _

theorem reportRes_memory (s : State) (l : Launch) : OnlyMemory s (s.reportRes l) := by
  unfold State.reportRes
  split
  · exact (OnlyNotes.refl s).memory
  · dsimp only
    split
    · exact (OnlyNotes.refl s).memory
    · exact (ctxWrite_memory s _ _ _).trans ((passHold_notes _ _ _).trans (releaseSys_notes _ _)).memory

theorem ctxWrite_mem (s : State) (ctx va : Nat) (bs : List Byte) :
    (s.ctxWrite ctx va bs).mem = Memory.writeAll s.mem (s.ctxCells ctx va bs) := writeMemAs_mem s deviceWriter _

theorem OnlyNotes.mem_eq {s t : State} (h : OnlyNotes s t) : t.mem = s.mem := by
  obtain ⟨m, n, rfl⟩ := h
  rfl

/-- The result word of a launch (R290). -/
def resultWord (l : Launch) : Nat :=
  l.id.toNat + 2 ^ 62 + (if l.cancelled then 2 ^ 61 else 0) + (if l.faulted then 2 ^ 60 else 0)

theorem reportRes_none {s : State} {l : Launch} (h : l.res = none) : s.reportRes l = s := by
  simp only [State.reportRes, h]

theorem reportRes_mem {s : State} {l : Launch} {i : Nat} (h : l.res = some i) :
    let n := 2 ^ ((s.ctxReg l.ctx 0x00F).extractLsb' 0 7).toNat
    (i + n < (s.context l.ctx).taken → (s.reportRes l).mem = s.mem) ∧
    ((s.context l.ctx).taken ≤ i + n → (s.reportRes l).mem =
      (s.ctxWrite l.ctx ((s.ctxReg l.ctx 0x010).toNat % 2 ^ 56 + 0x40 + 8 * (i % n)) (leBytes 8 (resultWord l))).mem) := by
  dsimp only
  simp only [State.reportRes, h, ← bitsOf_eq_extractLsb']
  refine ⟨fun hi => by rw [if_pos hi], fun hi => ?_⟩
  rw [if_neg (Nat.not_lt.2 hi)]
  exact ((passHold_notes _ _ _).trans (releaseSys_notes _ _)).mem_eq

/-! Arrivals (R149, R150). -/

/-- Of the whole state only the barriers and the records to be delivered differ. -/
def OnlyArrivals (s t : State) : Prop := ∃ b p, t = { s with barriers := b, pending := p }

theorem arriveOpt_arrivals (s : State) (b : Option Nat) (status : DWord) (r : Reporter) :
    OnlyArrivals s (s.arriveOpt b status r) := by
  cases b with
  | none => exact ⟨_, _, rfl⟩
  | some b =>
    simp only [State.arriveOpt, State.countInto]
    split
    · exact ⟨_, _, rfl⟩
    · exact ⟨_, _, rfl⟩

/-- An arrival that is still expected is made. -/
theorem arriveOpt_barrier {s : State} {k : Nat} (status : DWord) (r : Reporter) (hp : 1 ≤ (s.barrier k).pending)
    (hc : (s.barrier k).counted ≤ (s.barrier k).expected) :
    (s.arriveOpt (some k) status r).barrier k =
      ({ s.barrier k with pending := (s.barrier k).pending - 1, cur := statusMerge (s.barrier k).cur status } :
        Barrier).settle.release := by
  simp only [State.arriveOpt, State.countInto]
  rw [if_pos ⟨hc, hp⟩, barrier_setBarrier_same]
  rfl

/-! Launches and units by name. -/

theorem launch_ctx {s : State} {ctx : Nat} {id : Word} {l : Launch} (h : s.launch ctx id = some l) : l.ctx = ctx ∧ l.id = id := by
  simpa using List.find?_some h

theorem unit_key {s : State} {u : UnitKey} {x : WorkUnit} (h : s.unit u = some x) : x.key = u := by
  simpa using List.find?_some h

/-- The first element for which `p` holds, where those that `q` names, it among them, are replaced by one for which `p` holds. -/
theorem find?_map_replace {α : Type} {p q : α → Bool} {x y : α} {l : List α} (h : l.find? p = some x) (hq : q x = true)
    (hy : p y = true) : (l.map fun z => if q z then y else z).find? p = some y := by
  induction l with
  | nil => cases h
  | cons z l ih =>
    rw [List.map_cons]
    by_cases hz : q z = true
    · rw [if_pos hz, List.find?_cons_of_pos hy]
    · rw [if_neg hz]
      by_cases hp : p z = true
      · rw [List.find?_cons_of_pos hp] at h
        exact absurd (Option.some.inj h ▸ hq) hz
      · rw [List.find?_cons_of_neg hp] at h ⊢
        exact ih h

theorem launch_setLaunch {s : State} {ctx : Nat} {id : Word} {l x : Launch} (h : s.launch ctx id = some l) (hage : x.age = l.age)
    (hc : x.ctx = l.ctx) (hi : x.id = l.id) : (s.setLaunch x).launch ctx id = some x := by
  obtain ⟨hctx, hid⟩ := launch_ctx h
  have hx : (x.ctx == ctx && x.id == id) = true := by simp [hc, hi, hctx, hid]
  have hq : decide (l.age = x.age) = true := by simp [hage]
  simpa [State.launch, State.setLaunch] using find?_map_replace (q := fun k : Launch => decide (k.age = x.age)) h hq hx

theorem unit_setUnit {s : State} {u : UnitKey} {x y : WorkUnit} (h : s.unit u = some x) (hk : y.key = u) :
    (s.setUnit y).unit u = some y := by
  have hq : decide (x.key = y.key) = true := by simp [unit_key h, hk]
  simpa [State.unit, State.setUnit] using find?_map_replace (q := fun z : WorkUnit => decide (z.key = y.key)) h hq (by simp [hk])

end Sys2Proof.Proofs
end

section
/-!
PROOF. How units and launches end (R105, R191, R201, R290, R295, R341): slots, completion and commit, the co-operative milestone, and
where a unit's pre-emption stops it.
-/
namespace Sys2Proof.Proofs
open Sys2Proof.Machine Sys2Proof.Laws

/-! Slots (R105). -/

theorem unbind_units (s : State) (w : Who) (i : Nat) : (s.unbind w i).units = s.units := by
  unfold State.unbind
  split
  · rfl
  · rfl

theorem releaseTable_units (s : State) (w : Who) : (s.releaseTable w).units = s.units := by
  have hfold : ∀ l : List Nat, (l.foldl (fun (s : State) i => s.unbind w i) s).units = s.units := fun l =>
    foldl_keeps State.units (fun s i => unbind_units s w i) l s
  unfold State.releaseTable
  dsimp only
  rw [hfold]

theorem endUnit_unit {s : State} {u : UnitKey} {x : WorkUnit} (h : s.unit u = some x) :
    ((s.endUnit u).unit u).map (fun y => y.ended) = some true := by
  have hx : ((((s.releaseTable (.group u 0)).releaseTable (.thread u)).setCluster x.die x.cluster
      ((((s.releaseTable (.group u 0)).releaseTable (.thread u)).cluster x.die x.cluster).dropUnit u)).unit u) = some x := by
    rw [← h]
    unfold State.unit
    rw [setCluster_units, releaseTable_units, releaseTable_units]
  simp only [State.endUnit, h]
  rw [unit_setUnit (y := { x with ended := true, preempt := none }) hx (show x.key = u from unit_key h)]
  rfl

theorem removeAgent_units (s : State) (w : Who) : (s.removeAgent w).units = s.units := by
  unfold State.removeAgent
  split
  · split <;> rfl
  · rfl

/-- What a group's end still waits for (R105). -/
theorem drained_iff (a : Agent) : a.drained = true ↔
    a.storeQ = [] ∧ a.atomics = [] ∧ a.arrivals = [] ∧ (∀ g ∈ a.gath, g.arrived = true) := by
  simp [Agent.drained, and_assoc]

theorem exec_slotRelease_some {s : State} {w : Who} {a : Agent} (h : s.agent w = some a) :
    exec (.slotRelease w) s =
      if a.run = .ended ∧ a.kind ≠ .sup ∧ a.drained = true then
        .next (if (s.removeAgent w).allAgents.any fun b => b.unit == a.unit && b.kind != .sup then s.removeAgent w
          else (s.removeAgent w).endUnit a.unit)
      else .refused .notDue := by
  rw [exec_slotRelease, execSlotRelease]
  simp only [h]
  by_cases hc : a.run = .ended ∧ a.kind ≠ .sup ∧ a.drained = true
  · rw [if_pos hc, if_neg (by simpa [and_assoc] using hc)]
  · rw [if_neg hc, if_pos]
    simpa [imp_iff_not_or, or_assoc] using hc

/-! SNAPM (R201). -/

theorem exec_snapm_coop {d : BitVec 7} {s : State} (hc : Clear (gNeed .core [d]) s) (h : s.me.env.coop = true) :
    exec (.snapm d) s = .next { s with me := s.me.setWait (.snapm d.toNat) } := by
  rw [exec_snapm, execSnapm, guard_clear hc, cleared_noreads s rfl, if_pos h]

theorem exec_snapm_refused {d : BitVec 7} {s : State} (hc : Clear (gNeed .core [d]) s) (h : s.me.env.coop = false) :
    exec (.snapm d) s = .next (s.finishG d 0x8000_0000_0000_0001 true) := by
  rw [exec_snapm, execSnapm, guard_clear hc, cleared_noreads s rfl, if_neg (by simp [h])]
  rfl

/-! PREEMPTION_STOP (R295, R296). -/

/-- Whether an agent waits for a CTXSV of a unit. -/
def waitsSave (u : UnitKey) (a : Agent) : Bool := match a.wait with | .ctxsv _ v _ => v == u | _ => false

theorem exec_preemptionStop_some {u : UnitKey} {s : State} {x : WorkUnit} {w : Agent} {d : Nat} {im : BitVec 56}
    (hx : s.unit u = some x) (hw : s.allAgents.find? (waitsSave u) = some w) (hd : w.wait = .ctxsv d u im) :
    exec (.preemptionStop u) s =
      if x.ended = true then .next (s.setAgent (w.wake d 1))
      else if (s.liveAgents u).isEmpty || !s.atStop x then .refused .notDue
      else if !s.supMapped im.toNat (s.imageLen x (s.liveAgents u)) true then
        .next (((s.setUnit { x with preempt := none }).clearAsked u.ctx u.launch).setAgent (w.wake d 2))
      else .next (((s.standDown u).saveUnit x im w).setAgent (w.wake d 0)) := by
  rw [exec_preemptionStop, execPreemptionStop, hx]
  dsimp only
  split
  next h => exact absurd (hw.symm.trans h) (by simp)
  next v h =>
    obtain rfl : w = v := Option.some.inj (hw.symm.trans h)
    rw [hd]

/-! Publication at a launch's end (R273, R340). -/

/-- The launches and graphs are as before, and as many launches of each context have completed. -/
def SameLaunches (s t : State) : Prop :=
  t.launches = s.launches ∧ t.graphs = s.graphs ∧ ∀ c, (t.context c).launchDone = (s.context c).launchDone

theorem OnlyMemory.sameLaunches {s t : State} (h : OnlyMemory s t) : SameLaunches s t := by
  obtain ⟨x, p, o, m, n, rfl⟩ := h
  exact ⟨rfl, rfl, fun _ => rfl⟩

theorem SameLaunches.trans {s t u : State} (h : SameLaunches s t) (k : SameLaunches t u) : SameLaunches s u :=
  ⟨k.1.trans h.1, k.2.1.trans h.2.1, fun c => (k.2.2 c).trans (h.2.2 c)⟩

theorem setContext_sameLaunches (s : State) (ctx : Nat) {x : Context} (h : x.launchDone = (s.context ctx).launchDone) :
    SameLaunches s (s.setContext ctx x) := by
  refine ⟨rfl, rfl, fun c => ?_⟩
  rw [context_setContext]
  split
  next hc => rw [h, hc]
  next => rfl

theorem logExposures_sameLaunches (s : State) (l : Launch) (ws : List (Nat × Nat)) : SameLaunches s (s.logExposures l ws) := by
  induction ws generalizing s with
  | nil => exact ⟨rfl, rfl, fun _ => rfl⟩
  | cons w ws ih =>
    simp only [State.logExposures]
    split
    · exact (setContext_sameLaunches s _ (by rfl)).trans (ih _)
    · have hw : ∀ va bs, SameLaunches s (s.ctxWrite l.ctx va bs) := fun va bs => (ctxWrite_memory s l.ctx va bs).sameLaunches
      refine ((hw _ _).trans (setContext_sameLaunches _ _ ?_)).trans (ih _)
      exact ((hw _ _).2.2 l.ctx).symm

theorem plainWrite_sameLaunches (s : State) (l : Launch) (va : Option Nat) (cells : List (Nat × Byte)) :
    SameLaunches s (s.plainWrite l va cells) := by
  unfold State.plainWrite
  dsimp only
  have hw := (writeMemAs_memory s (l.ctx, l.id) cells).sameLaunches
  split
  · exact hw.trans (logExposures_sameLaunches _ _ _)
  · exact hw

/-- A launch of no run and no graph, with no snapshot, of a context in which `n` launches have completed. -/
def Completing (ctx : Nat) (id : Word) (n : Nat) (s : State) : Prop :=
  (∃ l, s.launch ctx id = some l ∧ l.replay = none ∧ l.run = none ∧ s.graph l.graphInst = none) ∧
  (s.context ctx).launchDone = n

section
variable {ctx : Nat} {id : Word} {n : Nat} {s t : State}

theorem Completing.same (h : Completing ctx id n s) (k : SameLaunches s t) : Completing ctx id n t := by
  obtain ⟨hl, hg, hc⟩ := k
  obtain ⟨⟨l, hlaunch, hrest⟩, hn⟩ := h
  refine ⟨⟨l, ?_, ?_⟩, (hc ctx).trans hn⟩
  · rw [← hlaunch, State.launch, hl, State.launch]
  · rw [State.graph, hg]
    exact hrest

theorem Completing.launchWrite (h : Completing ctx id n s) (va : Option Nat) (cells : List (Nat × Byte)) :
    Completing ctx id n (s.launchWrite ctx id va cells) := by
  obtain ⟨⟨l, hl, hreplay, hrun, hg⟩, hn⟩ := h
  simp only [State.launchWrite, hl, hreplay]
  refine Completing.same ?_ (plainWrite_sameLaunches _ _ va cells)
  exact ⟨⟨_, launch_setLaunch hl rfl rfl rfl, rfl, hrun, hg⟩, hn⟩

theorem Completing.setModel (h : Completing ctx id n s) (g : Nat) (x : Holder) (m off k v : Nat) :
    Completing ctx id n (s.setModel ⟨ctx, id, g⟩ x m off k v) :=
  (h.launchWrite none _).same (holdLines_notes _ _ _).memory.sameLaunches

theorem Completing.publish (h : Completing ctx id n s) (x : Holder) (m : Nat) :
    Completing ctx id n (s.publish ctx id x m) := by
  unfold State.publish
  dsimp only
  refine Completing.same ?_ (setContext_sameLaunches _ ctx rfl)
  exact ((((h.setModel ..).setModel ..).setModel ..).launchWrite ..).same (holdLines_notes _ _ _).memory.sameLaunches

theorem Completing.publishHeld {l : Launch} (h : Completing ctx id n s) (hc : l.ctx = ctx) (hi : l.id = id) :
    Completing ctx id n (s.publishHeld l) := by
  subst hc hi
  unfold State.publishHeld
  dsimp only
  refine Completing.same ?_ (setContext_sameLaunches _ _ rfl)
  refine List.foldlRecOn (motive := Completing l.ctx l.id n) _ _ h fun t ht m _ => ?_
  split
  · exact ht
  · exact ht.publish _ m

end

/-- With nothing that its launch has published and held, only the list of contexts is written again, as it was. -/
theorem publishHeld_none {s : State} {l : Launch} (h : ∀ p ∈ (s.context l.ctx).heldPub, p.2 ≠ l.id) :
    s.publishHeld l = s.setContext l.ctx (s.context l.ctx) := by
  have hmine : (s.context l.ctx).heldPub.filter (fun p => p.2 == l.id) = [] :=
    List.filter_eq_nil_iff.2 fun p hp => by simpa using h p hp
  have hothers : (s.context l.ctx).heldPub.filter (fun p => p.2 != l.id) = (s.context l.ctx).heldPub :=
    List.filter_eq_self.2 fun p hp => by simpa using h p hp
  simp only [State.publishHeld, hmine, List.map_nil, List.foldl_nil, hothers]

/-! Completion (R191, R290). -/

/-- The state in which a launch counts as complete. -/
def completed (s : State) (l : Launch) : State :=
  let d := (s.context l.ctx).launchDone + 1
  (s.setContext l.ctx { s.context l.ctx with launchDone := d }).setLaunch { l with complete := true, doneSeq := d, replay := none }

theorem settleGraph_none {s : State} {g : Nat} (h : s.graph g = none) : s.settleGraph g = s := by
  simp only [State.settleGraph, h]

/-- As what a launch's completion counts into its handle's barrier. -/
def completionReporter (s : State) (l : Launch) : Reporter :=
  ⟨l.ctx, l.id, none, l.det, l.handle.setWidth 64, (s.die (l.dies.headD 0)).time⟩

/-- A launch of no run and no graph completes by its counter, its handle's arrival and its result word. -/
theorem finishLaunch_alone {s : State} {l : Launch} (hr : l.run = none) (hg : s.graph l.graphInst = none) :
    ∃ v w r, OnlyNotes (completed s l) v ∧ OnlyArrivals v w ∧ w = v.arriveOpt l.bar 0 r ∧ s.finishLaunch l = w.reportRes l := by
  have hnotes := passLaunch_notes (completed s l) l
  have harrive := arriveOpt_arrivals ((completed s l).passLaunch l) l.bar 0 (completionReporter (completed s l) l)
  refine ⟨_, _, _, hnotes, harrive, rfl, ?_⟩
  have hnone : ∀ w : State, w.graphs = s.graphs → (w.reportRes l).graph l.graphInst = none := fun w hw => by
    rw [State.graph, (reportRes_memory w l).sameLaunches.2.1, hw]
    exact hg
  have hgraphs : (((completed s l).passLaunch l).arriveOpt l.bar 0 (completionReporter (completed s l) l)).graphs = s.graphs := by
    obtain ⟨m, n, hm⟩ := hnotes
    obtain ⟨b, p, hb⟩ := harrive
    rw [hb, hm]
    rfl
  have hfinish : s.finishLaunch l =
      ((((completed s l).passLaunch l).arriveOpt l.bar 0 (completionReporter (completed s l) l)).reportRes l).settleGraph
        l.graphInst := by
    unfold State.finishLaunch
    dsimp only
    split
    next h => exact absurd (hr.symm.trans h) (by simp)
    next => rfl
  exact hfinish.trans (settleGraph_none (hnone _ hgraphs))

/-- Where a write to a context's table goes rests on memory, its poison and the control registers. -/
theorem ctxCells_congr {s t : State} (hm : t.mem = s.mem) (hp : t.poison = s.poison) (hc : t.cr = s.cr) (ctx va : Nat)
    (bs : List Byte) : t.ctxCells ctx va bs = s.ctxCells ctx va bs := by
  have hkey : ∀ va write, t.ctxKey ctx va write = s.ctxKey ctx va write := fun va write => by
    simp only [State.ctxKey, State.peek, State.firstDie, State.partDies, State.partOf, State.rootOf, State.devReg, State.ctxReg,
      hm, hp, hc]
  simp only [State.ctxCells, hkey]

/-- What the completion of such a launch leaves (R191, R290). -/
theorem finishLaunch_results {s : State} {ctx : Nat} {id : Word} {l : Launch} (h : s.launch ctx id = some l) (hr : l.run = none)
    (hg : s.graph l.graphInst = none) :
    let t := s.finishLaunch l
    ((t.context ctx).launchDone = (s.context ctx).launchDone + 1 ∧ (t.launch ctx id).map (fun k => k.complete) = some true) ∧
    (∀ k, l.bar = some k → 1 ≤ (s.barrier k).pending → (s.barrier k).counted ≤ (s.barrier k).expected →
      t.barrier k = ({ s.barrier k with pending := (s.barrier k).pending - 1,
                                        cur := statusMerge (s.barrier k).cur 0 } : Barrier).settle.release) ∧
    (l.res = none → t.mem = s.mem) ∧
    ∀ i, l.res = some i →
      let n := 2 ^ ((s.ctxReg ctx 0x00F).extractLsb' 0 7).toNat
      (i + n < (s.context ctx).taken → t.mem = s.mem) ∧
      ((s.context ctx).taken ≤ i + n →
        t.mem = (s.ctxWrite ctx ((s.ctxReg ctx 0x010).toNat % 2 ^ 56 + 0x40 + 8 * (i % n)) (leBytes 8 (resultWord l))).mem) := by
  obtain ⟨rfl, rfl⟩ := launch_ctx h
  obtain ⟨v, w, r, ⟨m, n, hv⟩, ⟨b, p, hw⟩, harrive, ht⟩ := finishLaunch_alone hr hg
  have hlaunch : (completed s l).launch l.ctx l.id = some _ := launch_setLaunch h rfl rfl rfl
  have hcontext : (completed s l).context l.ctx = _ := context_setContext_same s l.ctx _
  dsimp only
  rw [ht]
  refine ⟨?counts, ?barrier, ?noResult, ?result⟩
  case counts =>
    obtain ⟨x, q, o, m', n', hres⟩ := reportRes_memory w l
    rw [hres, hw, hv]
    refine ⟨congrArg Context.launchDone hcontext, ?_⟩
    refine (congrArg (Option.map _) hlaunch).trans rfl
  case barrier =>
    intro k hk hp hc
    obtain ⟨x, q, o, m', n', hres⟩ := reportRes_memory w l
    have hvb : v.barrier k = s.barrier k := by rw [hv]; rfl
    rw [hres]
    refine (show State.barrier _ k = w.barrier k from rfl).trans ?_
    rw [harrive, hk, arriveOpt_barrier 0 r (by rw [hvb]; exact hp) (by rw [hvb]; exact hc), hvb]
  case noResult =>
    intro hn
    rw [reportRes_none hn, hw, hv]
    rfl
  case result =>
    intro i hi
    obtain ⟨gone, stands⟩ := reportRes_mem (s := w) hi
    have hmem : w.mem = s.mem := by rw [hw, hv]; rfl
    have hpoison : w.poison = s.poison := by rw [hw, hv]; rfl
    have hcr : w.cr = s.cr := by rw [hw, hv]; rfl
    have htaken : (w.context l.ctx).taken = (s.context l.ctx).taken := by
      rw [hw, hv]
      exact (congrArg Context.taken hcontext).trans rfl
    have hreg : ∀ k, w.ctxReg l.ctx k = s.ctxReg l.ctx k := fun k => by rw [State.ctxReg, hcr, State.ctxReg]
    rw [ctxWrite_mem, hmem, ctxCells_congr hmem hpoison hcr, htaken, hreg, hreg, ← ctxWrite_mem] at stands
    rw [hmem, htaken, hreg] at gone
    exact ⟨gone, stands⟩

section
variable {s : State} {ctx : Nat} {id : Word} {l : Launch}

theorem exec_launchComplete_refused (h : s.launch ctx id = some l) (hn : s.settled l = false ∨ l.replay.isSome = true) :
    exec (.launchComplete ctx id) s = .refused .notDue := by
  rw [exec_launchComplete, execLaunchComplete, h]
  dsimp only
  rw [if_pos (by simpa using hn)]

theorem exec_launchComplete_next (h : s.launch ctx id = some l) (hs : s.settled l = true) (hr : l.replay = none)
    (hd : l.det = false) : exec (.launchComplete ctx id) s = .next (s.finishExposed l) := by
  rw [exec_launchComplete, execLaunchComplete, h]
  dsimp only
  rw [if_neg (by simp [hs, hr]), if_neg (by simp [hd])]

theorem exec_launchCommit_refused (h : s.launch ctx id = some l) (hn : s.settled l = false) :
    exec (.launchCommit ctx id) s = .refused .notDue := by
  rw [exec_launchCommit, execLaunchCommit, h]
  dsimp only
  rw [if_pos (by simp [hn])]

theorem exec_launchCommit_next {r : Replay} (h : s.launch ctx id = some l) (hs : s.settled l = true) (hr : l.replay = some r)
    (hd : l.det = false) : exec (.launchCommit ctx id) s = .next (s.commitLaunch l) := by
  rw [exec_launchCommit, execLaunchCommit, h]
  dsimp only
  rw [if_neg (by simp [hs, hr]), if_neg (by simp [hd]), h]
  dsimp only
  rw [if_pos hs]

/-- A launch of no run and no graph completes, whatever it has published and held. -/
theorem finishExposed_counts (h : s.launch ctx id = some l) (hr : l.replay = none) (hrun : l.run = none)
    (hg : s.graph l.graphInst = none) :
    let t := s.finishExposed l
    (t.context ctx).launchDone = (s.context ctx).launchDone + 1 ∧ (t.launch ctx id).map (fun k => k.complete) = some true := by
  obtain ⟨hc, hi⟩ := launch_ctx h
  have hstart : Completing ctx id (s.context ctx).launchDone s := ⟨⟨l, h, hr, hrun, hg⟩, rfl⟩
  obtain ⟨⟨k, hk, -, hkrun, hkg⟩, hn⟩ := hstart.publishHeld hc hi
  have hfinish : s.finishExposed l = (s.publishHeld l).finishLaunch k := by
    subst hc hi
    simp only [State.finishExposed, hk]
  dsimp only
  rw [hfinish, ← hn]
  exact (finishLaunch_results hk hkrun hkg).1

/-- With nothing published and held, completion is that of the launch as it stands. -/
theorem finishExposed_nothingHeld (h : s.launch ctx id = some l) (hp : ∀ p ∈ (s.context ctx).heldPub, p.2 ≠ id) :
    s.finishExposed l = (s.setContext ctx (s.context ctx)).finishLaunch l := by
  obtain ⟨rfl, rfl⟩ := launch_ctx h
  have hk : (s.setContext l.ctx (s.context l.ctx)).launch l.ctx l.id = some l := h
  simp only [State.finishExposed, publishHeld_none hp, hk]

/-! Commit (R341). -/

theorem sendWrites_mem (s : State) (ks : List Nat) (r : PeerRequest) : (s.sendWrites ks r).mem = s.mem :=
  foldl_keeps State.mem (fun s _ => by unfold State.sendUnit; split <;> rfl) _ s

theorem sendWrites_launches (s : State) (ks : List Nat) (r : PeerRequest) : (s.sendWrites ks r).launches = s.launches :=
  foldl_keeps State.launches (fun s _ => by unfold State.sendUnit; split <;> rfl) _ s

theorem sendWrites_contexts (s : State) (ks : List Nat) (r : PeerRequest) : (s.sendWrites ks r).contexts = s.contexts :=
  foldl_keeps State.contexts (fun s _ => by unfold State.sendUnit; split <;> rfl) _ s

/-- Where every location's route passes its check, the writes are made and sent. -/
theorem sendOut_all {s : State} {cells : List (Nat × Byte)} (l : Launch) (write : State → List (Nat × Byte) → State)
    (h : ∀ c ∈ cells, s.keyFault c.1 = none) :
    s.sendOut l cells write = (write s cells).sendWrites (cells.map fun c => c.1) (s.launchRequest l) := by
  have hok : cells.filter (fun c => (s.keyFault c.1).isNone) = cells := List.filter_eq_self.2 fun c hc => by simp [h c hc]
  have hbad : cells.findSome? (fun c => s.keyFault c.1) = none := List.findSome?_eq_none_iff.2 h
  simp only [State.sendOut, hok, hbad]

/-- The launch as it stands once it has committed. -/
def asCommitted (l : Launch) : Launch := { l with replay := none, replayable := false, committed := true }

/-- The state in which a launch's staged writes have been made and sent, before what it holds is published. -/
def stagedOut (s : State) (l : Launch) (cells : List (Nat × Byte)) : State :=
  ((s.setLaunch (asCommitted l)).sendOut l cells fun s => s.writeMemAs (l.ctx, l.id)).holdLines (launchHolder l.ctx l.id)
    (cells.map fun c => c.1)

theorem stagedOut_fields (l : Launch) {cells : List (Nat × Byte)} (h : ∀ c ∈ cells, s.keyFault c.1 = none) :
    (stagedOut s l cells).launches = (s.setLaunch (asCommitted l)).launches ∧ (stagedOut s l cells).contexts = s.contexts ∧
    (stagedOut s l cells).mem = Memory.writeAll s.mem cells := by
  have hout := sendOut_all (s := s.setLaunch (asCommitted l)) l (fun s => s.writeMemAs (l.ctx, l.id)) h
  obtain ⟨m, n, hnotes⟩ := holdLines_notes ((s.setLaunch (asCommitted l)).sendOut l cells fun s => s.writeMemAs (l.ctx, l.id))
    (launchHolder l.ctx l.id) (cells.map fun c => c.1)
  obtain ⟨x, p, o, m', n', hwrite⟩ := writeMemAs_memory (s.setLaunch (asCommitted l)) (l.ctx, l.id) cells
  rw [stagedOut, hnotes, hout]
  refine ⟨?_, ?_, ?_⟩
  · exact (sendWrites_launches _ _ _).trans (by rw [hwrite])
  · exact (sendWrites_contexts _ _ _).trans (by rw [hwrite]; rfl)
  · exact (sendWrites_mem _ _ _).trans (writeMemAs_mem _ _ _)

theorem commitLaunch_results {r : Replay} (h : s.launch ctx id = some l) (hr : l.replay = some r)
    (hp : ∀ p ∈ (s.context ctx).heldPub, p.2 ≠ id) (hf : ∀ w ∈ r.staged, ∀ c ∈ w.cells, s.keyFault c.1 = none) :
    let t := s.commitLaunch l
    (t.launch ctx id).map (fun k => (k.committed, k.replay)) = some (true, none) ∧
    t.mem = Memory.writeAll s.mem (r.staged.flatMap fun w => w.cells) := by
  obtain ⟨rfl, rfl⟩ := launch_ctx h
  obtain ⟨hlaunches, hcontexts, hmem⟩ := stagedOut_fields (s := s) l (cells := r.staged.flatMap fun w => w.cells) fun c hc => by
    obtain ⟨w, hw, hcw⟩ := List.mem_flatMap.1 hc
    exact hf w hw c hcw
  have hcommit : s.commitLaunch l = (stagedOut s l (r.staged.flatMap fun w => w.cells)).publishHeld l := by
    unfold State.commitLaunch
    rw [hr]
    rfl
  have hlaunch : (s.setLaunch (asCommitted l)).launch l.ctx l.id = some (asCommitted l) := launch_setLaunch h rfl rfl rfl
  dsimp only
  rw [hcommit, publishHeld_none (by rw [State.context, hcontexts]; exact hp)]
  refine ⟨?_, hmem⟩
  have hfind : (stagedOut s l (r.staged.flatMap fun w => w.cells)).launch l.ctx l.id = some (asCommitted l) :=
    (congrArg (List.find? fun k : Launch => k.ctx == l.ctx && k.id == l.id) hlaunches).trans hlaunch
  exact (congrArg (Option.map _) hfind).trans rfl

end

end Sys2Proof.Proofs
end

section
/-!
PROOF. The co-operative milestone (R201): what its release leaves of the agents of a launch; and the statement of how units and
launches end.
-/
namespace Sys2Proof.Proofs
open Sys2Proof.Machine Sys2Proof.Laws

/-! A sub-group that has waited goes on. -/

@[simp] theorem retire_cur_wait (a : Agent) (r : Option Lanes) (p : Word) (e : Bool) :
    (a.retire r p e).cur.wait = a.cur.wait := by
  simp only [Agent.retire]; split <;> simp

section
variable (a : Agent) (d : Nat) (x : DWord)

theorem wake_who : (a.wake d x).who = a.who := by simp [Agent.wake, Agent.setWait]

theorem wake_kind : (a.wake d x).kind = a.kind := by simp [Agent.wake, Agent.setWait]

theorem wake_unit : (a.wake d x).unit = a.unit := by simp [Agent.wake, Agent.setWait]

theorem wake_others : (a.wake d x).others = a.others := by simp [Agent.wake, Agent.setWait]

theorem wake_wait : (a.wake d x).cur.wait = .none := by simp [Agent.wake, Agent.setWait]

theorem wake_pc : (a.wake d x).cur.pc = a.cur.pc + 4 := by simp [Agent.wake, Agent.nextPc]

theorem wake_readG (k : Nat) : (a.wake d x).readG k = if k = d ∧ d ≠ 0 then x else a.readG k := by
  rw [Agent.wake, readG_retire, readG_writeG]
  rfl

end

/-! Sub-groups at the milestone. -/

/-- Whether a sub-group waits at the milestone, and how many of a list do. -/
def subWaits (c : Sub) : Bool := c.wait.isSnapm
def waitingAt (l : List Sub) : Nat := l.countP subWaits

theorem anyWait_iff (a : Agent) : a.anyWait Wait.isSnapm = true ↔ 0 < waitingAt a.subs := by
  rw [Agent.anyWait, List.any_eq_true, waitingAt, List.countP_pos_iff]
  rfl

theorem isSnapm_iff (w : Wait) : w.isSnapm = true ↔ ∃ d, w = .snapm d := by
  cases w <;> simp [Wait.isSnapm]

/-- Without one that waits, fewer of a list wait. -/
theorem waitingAt_filter_lt {l : List Sub} {c : Sub} (hc : c ∈ l) (hp : subWaits c = true) {q : Sub → Bool} (hq : q c = false) :
    waitingAt (l.filter q) < waitingAt l := by
  have hpos : 0 < (l.filter fun y => !q y).countP subWaits :=
    List.countP_pos_iff.2 ⟨c, List.mem_filter.2 ⟨hc, by simp [hq]⟩, hp⟩
  have hsum := List.countP_eq_countP_filter_add l subWaits q
  simp only [waitingAt]
  omega

/-- Of an agent of which some sub-group waits, one that does is put in front; fewer of the others then wait. -/
theorem front_waiting {a : Agent} (h : a.anyWait Wait.isSnapm = true) :
    subWaits (a.front Wait.isSnapm).cur = true ∧ waitingAt (a.front Wait.isSnapm).others < waitingAt a.subs := by
  unfold Agent.front
  by_cases hcur : a.cur.wait.isSnapm = true
  · have hc : subWaits a.cur = true := hcur
    rw [if_pos hcur]
    refine ⟨hc, ?_⟩
    rw [Agent.subs, waitingAt, waitingAt, List.countP_cons_of_pos hc]
    exact Nat.lt_succ_self _
  · have hc : ¬subWaits a.cur = true := hcur
    rw [if_neg hcur]
    split
    next c hfind =>
      have hp : subWaits c = true := List.find?_some hfind
      refine ⟨hp, ?_⟩
      rw [Agent.subs, waitingAt, waitingAt, List.countP_cons_of_neg hc, List.countP_cons_of_neg hc]
      exact waitingAt_filter_lt (List.mem_of_find?_eq_some hfind) hp (by simp)
    next hfind =>
      obtain ⟨c, hmem, hp⟩ := List.any_eq_true.1 h
      rcases List.mem_cons.1 hmem with rfl | hmem
      · exact absurd hp hc
      · exact absurd hp (List.find?_eq_none.1 hfind c hmem)

theorem front_noneWaits {a : Agent} (h : a.anyWait Wait.isSnapm = false) : a.front Wait.isSnapm = a := by
  have hnone : ∀ c ∈ a.subs, ¬c.wait.isSnapm = true := by simpa [Agent.anyWait] using h
  have hfind : a.others.find? (fun c => c.wait.isSnapm) = none :=
    List.find?_eq_none.2 fun c hc => hnone c (List.mem_cons_of_mem _ hc)
  unfold Agent.front
  rw [if_neg (hnone a.cur List.mem_cons_self), hfind]

/-- One turn: a sub-group that waits goes on with the milestone's ordinal; with none the agent stays. -/
theorem passMilestone_step (o : DWord) (n : Nat) {a : Agent} {d : Nat} (h : (a.front Wait.isSnapm).wait = .snapm d) :
    a.passMilestone o (n + 1) = ((a.front Wait.isSnapm).wake d o).passMilestone o n := by
  simp only [Agent.passMilestone, h]

theorem passMilestone_stays (o : DWord) (n : Nat) {a : Agent} (h : a.anyWait Wait.isSnapm = false) : a.passMilestone o n = a := by
  have hcur : ¬a.cur.wait.isSnapm = true := by
    have hnone : ∀ c ∈ a.subs, ¬c.wait.isSnapm = true := by simpa [Agent.anyWait] using h
    exact hnone a.cur List.mem_cons_self
  cases n with
  | zero => rfl
  | succ n =>
    unfold Agent.passMilestone
    dsimp only
    rw [front_noneWaits h]
    split
    next d hd => exact absurd ((isSnapm_iff _).2 ⟨d, hd⟩) hcur
    next => rfl

/-- An agent with no more waiting sub-groups than turns has none that waits after them. -/
theorem passMilestone_anyWait (o : DWord) (n : Nat) (a : Agent) (h : waitingAt a.subs ≤ n) :
    (a.passMilestone o n).anyWait Wait.isSnapm = false := by
  induction n generalizing a with
  | zero =>
    rw [← Bool.not_eq_true, anyWait_iff]
    exact Nat.not_lt.2 h
  | succ n ih =>
    by_cases hany : a.anyWait Wait.isSnapm = true
    · obtain ⟨hfront, hless⟩ := front_waiting hany
      obtain ⟨d, hd⟩ := (isSnapm_iff _).1 hfront
      rw [passMilestone_step o n hd]
      refine ih _ ?_
      rw [Agent.subs, waitingAt, List.countP_cons_of_neg (by simp [subWaits, wake_wait, Wait.isSnapm]), wake_others]
      exact Nat.le_of_lt_succ (hless.trans_le h)
    · rw [Bool.not_eq_true] at hany
      rw [passMilestone_stays o _ hany]
      exact hany

/-- An agent whose one sub-group waits goes on with the ordinal. -/
theorem passMilestone_single (o : DWord) {a : Agent} {d : Nat} (h : a.wait = .snapm d) (ho : a.others = []) :
    a.passMilestone o a.subs.length = a.wake d o := by
  have hfront : a.front Wait.isSnapm = a := if_pos ((isSnapm_iff _).2 ⟨d, h⟩)
  rw [Agent.subs, ho]
  refine (passMilestone_step o 0 (by rw [hfront]; exact h)).trans ?_
  rw [hfront]
  rfl

/-! The milestone (R201). -/

theorem raiseAsync_allAgents (s : State) (c : Cause) (ctx : Nat) (id : Word) (u : Option Nat) (det : Bool) (i : FaultInfo)
    (time : DWord) (pc : Word) : (raiseAsync s c ctx id u det i time pc).allAgents = s.allAgents := rfl

theorem sendOut_allAgents (s : State) (l : Launch) (cells : List (Nat × Byte)) {write : State → List (Nat × Byte) → State}
    (h : ∀ t xs, (write t xs).allAgents = t.allAgents) : (s.sendOut l cells write).allAgents = s.allAgents := by
  unfold State.sendOut
  dsimp only
  split
  · exact (sendWrites_allAgents _ _ _).trans (h _ _)
  · exact (sendWrites_allAgents _ _ _).trans (h _ _)

theorem milestoneWrite_allAgents (s : State) (l : Launch) (va : Option Nat) (cells : List (Nat × Byte)) :
    (s.milestoneWrite l va cells).allAgents = s.allAgents := by
  unfold State.milestoneWrite
  dsimp only
  rw [holdLines_allAgents]
  split
  · exact launchWrite_allAgents ..
  · exact sendOut_allAgents s l cells fun t xs => launchWrite_allAgents ..

theorem foldl_allAgents {α : Type} {f : State → α → State} (h : ∀ s a, (f s a).allAgents = s.allAgents) (l : List α) (s : State) :
    (l.foldl f s).allAgents = s.allAgents := foldl_keeps State.allAgents h l s

/-- A contribution of a milestone, made as a write of its launch. -/
def mergeContrib (l : Launch) (s : State) (c : Contrib) : State := s.milestoneWrite l none (c.cells s.mem)

theorem mergeContrib_allAgents (l : Launch) (s : State) (c : Contrib) : (mergeContrib l s c).allAgents = s.allAgents :=
  milestoneWrite_allAgents s l none _

/-- A write beyond the package of a milestone. -/
def writeOutward (l : Launch) (s : State) (w : OutWrite) : State := s.milestoneWrite l (some w.va) w.cells

theorem writeOutward_allAgents (l : Launch) (s : State) (w : OutWrite) : (writeOutward l s w).allAgents = s.allAgents :=
  milestoneWrite_allAgents s l _ _

theorem applyParts_allAgents (s : State) (l : Launch) (ps : List Part) : (s.applyParts l ps).allAgents = s.allAgents :=
  (foldl_allAgents (mergeContrib_allAgents l) _ _).trans (milestoneWrite_allAgents s l none _)

theorem applyOutward_allAgents (s : State) (l : Launch) (ps : List Part) : (s.applyOutward l ps).allAgents = s.allAgents :=
  foldl_allAgents (writeOutward_allAgents l) _ _

theorem noteMerged_allAgents (s : State) (ctx : Nat) (id : Word) (ps : List Part) :
    (s.noteMerged ctx id ps).allAgents = s.allAgents := by
  unfold State.noteMerged
  split <;> rfl

theorem mergeUnits_allAgents (s : State) (l : Launch) : (s.mergeUnits l).allAgents = s.allAgents := by
  unfold State.mergeUnits
  dsimp only
  split
  · rfl
  · rw [noteMerged_allAgents, applyOutward_allAgents, applyParts_allAgents]

/-! The ordinal of a milestone: one more than the milestones before it. -/

theorem mem_unitsOf {s : State} {ctx : Nat} {id : Word} {y : WorkUnit} :
    y ∈ s.unitsOf ctx id ↔ y ∈ s.units ∧ y.key.ctx = ctx ∧ y.key.launch = id := by
  simp [State.unitsOf]

/-- A unit that goes on with its snapshot refreshed. -/
def refreshedUnit (s : State) (l : Launch) (u : WorkUnit) : WorkUnit :=
  { u with
    snap := u.snap.map fun _ =>
      ⟨Memory.writeAll (s.startSnapshot l).mem (l.merges.map fun k => (k, Memory.read s.mem k)), [], [], []⟩
    snaps := u.snaps + 1 }

theorem refreshSnapshot_eq (s : State) (l : Launch) (u : WorkUnit) : s.refreshSnapshot l u = s.setUnit (refreshedUnit s l u) := rfl

/-- Of a launch's units, those with a key of the list have made `n` milestones, and the others one more. -/
def Refreshing (ctx : Nat) (id : Word) (n : Nat) (left : List WorkUnit) (s : State) : Prop :=
  s.unitsOf ctx id ≠ [] ∧ ∀ y ∈ s.unitsOf ctx id, y.snaps = n + 1 ∨ ∃ u ∈ left, u.key = y.key

theorem Refreshing.refresh {ctx : Nat} {id : Word} {n : Nat} {u : WorkUnit} {left : List WorkUnit} {s : State}
    (h : Refreshing ctx id n (u :: left) s) (hu : u.snaps = n) (l : Launch) : Refreshing ctx id n left (s.refreshSnapshot l u) := by
  obtain ⟨hne, hall⟩ := h
  obtain ⟨v, hkey, hsnaps, hv⟩ : ∃ v : WorkUnit, v.key = u.key ∧ v.snaps = n + 1 ∧ s.refreshSnapshot l u = s.setUnit v :=
    ⟨refreshedUnit s l u, rfl, congrArg (· + 1) hu, refreshSnapshot_eq s l u⟩
  have hunits : ∀ y, y ∈ (s.setUnit v).units ↔ ∃ x ∈ s.units, (if x.key = v.key then v else x) = y := fun y => List.mem_map
  rw [hv]
  constructor
  · obtain ⟨x, hx⟩ := List.exists_mem_of_ne_nil _ hne
    obtain ⟨hmem, hctx, hid⟩ := mem_unitsOf.1 hx
    refine List.ne_nil_of_mem (a := if x.key = v.key then v else x) (mem_unitsOf.2 ⟨(hunits _).2 ⟨x, hmem, rfl⟩, ?_⟩)
    split
    next hk => rw [← hk]; exact ⟨hctx, hid⟩
    next => exact ⟨hctx, hid⟩
  · intro y hy
    obtain ⟨hmem, hk⟩ := mem_unitsOf.1 hy
    obtain ⟨x, hx, rfl⟩ := (hunits y).1 hmem
    by_cases hxv : x.key = v.key
    · rw [if_pos hxv]
      exact .inl hsnaps
    · rw [if_neg hxv] at hk ⊢
      refine (hall x (mem_unitsOf.2 ⟨hx, hk⟩)).imp_right ?_
      rintro ⟨w, hw, hwx⟩
      rcases List.mem_cons.1 hw with rfl | hw
      · exact absurd (hwx.symm.trans hkey.symm) hxv
      · exact ⟨w, hw, hwx⟩

theorem refreshing_foldl {ctx : Nat} {id : Word} {n : Nat} (l : Launch) (us : List WorkUnit) {s : State}
    (h : Refreshing ctx id n us s) (hus : ∀ u ∈ us, u.snaps = n) :
    Refreshing ctx id n [] (us.foldl (fun s u => s.refreshSnapshot l u) s) := by
  induction us generalizing s with
  | nil => exact h
  | cons u us ih =>
    exact ih (h.refresh (hus u (by simp)) l) fun v hv => hus v (by simp [hv])

theorem foldl_max_const {m : Nat} (l : List Nat) (hne : l ≠ []) (h : ∀ x ∈ l, x = m) : l.foldl max 0 = m := by
  have hrest : ∀ l : List Nat, (∀ x ∈ l, x = m) → l.foldl max m = m := by
    intro l hl
    induction l with
    | nil => rfl
    | cons x l ih =>
      obtain rfl : x = m := hl x (by simp)
      rw [List.foldl_cons, Nat.max_self]
      exact ih fun y hy => hl y (by simp [hy])
  cases l with
  | nil => exact absurd rfl hne
  | cons x l =>
    obtain rfl : x = m := h x (by simp)
    rw [List.foldl_cons, Nat.zero_max]
    exact hrest l fun y hy => h y (by simp [hy])

/-- The ordinal of a milestone, by the units that have been refreshed. -/
def ordinalOf (s : State) (ctx : Nat) (id : Word) : Nat := ((s.unitsOf ctx id).map WorkUnit.snaps).foldl max 0

theorem ordinalOf_refreshed {s : State} {ctx : Nat} {id : Word} {n : Nat} (l : Launch) (hne : s.unitsOf ctx id ≠ [])
    (h : ∀ u ∈ s.unitsOf ctx id, u.snaps = n) :
    ordinalOf ((s.unitsOf ctx id).foldl (fun s u => s.refreshSnapshot l u) s) ctx id = n + 1 := by
  have hstart : Refreshing ctx id n (s.unitsOf ctx id) s := ⟨hne, fun y hy => .inr ⟨y, hy, rfl⟩⟩
  obtain ⟨hne', hall⟩ := refreshing_foldl l _ hstart h
  refine foldl_max_const _ (by simpa using hne') fun x hx => ?_
  obtain ⟨y, hy, rfl⟩ := List.mem_map.1 hx
  exact (hall y hy).resolve_right (by simp)

/-! SNAPM_RELEASE (R201). -/

/-- What the release of a launch's milestone makes of an agent. -/
def releasedAgent (l : Launch) (ctx : Nat) (id : Word) (o : DWord) (a : Agent) : Agent :=
  if a.kind != .sup && ofLaunch ctx id a.unit && a.run == .running then
    let b := a.passMilestone o a.subs.length
    if l.det then b else { b with relNext := widerScope b.relNext (some 5) }
  else a

section
variable {s : State} {ctx : Nat} {id : Word} {l : Launch}

theorem exec_snapmRelease_refused (h : s.launch ctx id = some l) (hn : l.coop = false ∨ l.stopping = true) :
    exec (.snapmRelease ctx id) s = .refused .notDue := by
  rw [exec_snapmRelease, execSnapmRelease, h]
  dsimp only
  rw [if_pos]
  rcases hn with hn | hn <;> simp [hn]

theorem exec_snapmRelease_next (h : s.launch ctx id = some l) (hcoop : l.coop = true) (hstop : l.stopping = false)
    (hroll : l.rollback = none) (hunits : lnUnits l.raw ≤ l.next)
    (hwait : ∃ a ∈ s.launchAgents ctx id, a.run = .running ∧ a.anyWait Wait.isSnapm = true)
    (hall : ∀ a ∈ s.launchAgents ctx id, a.atMilestone = true ∧ a.storeQ = [] ∧ a.atomics = [])
    (hsaved : ∀ u ∈ s.unitsOf ctx id, u.saved = false ∧ u.preempt = none) :
    ∃ (v : State) (o : DWord),
      exec (.snapmRelease ctx id) s = .next (v.mapAgents (releasedAgent l ctx id o)) ∧ v.allAgents = s.allAgents ∧
      (l.det = false → ∀ n, s.unitsOf ctx id ≠ [] → (∀ u ∈ s.unitsOf ctx id, u.snaps = n) → o = BitVec.ofNat 64 (n + 1)) := by
  have hdue : (!l.coop || l.stopping || l.rollback.isSome || l.next < lnUnits l.raw
      || !((s.launchAgents ctx id).any fun a => a.anyWait Wait.isSnapm && a.run == .running)
      || !((s.launchAgents ctx id).all fun a => a.atMilestone && a.storeQ.isEmpty && a.atomics.isEmpty)
      || (s.unitsOf ctx id).any fun u => u.saved || u.preempt.isSome) = false := by
    have hw : ((s.launchAgents ctx id).any fun a => a.anyWait Wait.isSnapm && a.run == .running) = true := by
      obtain ⟨a, ha, hrun, hany⟩ := hwait
      exact List.any_eq_true.2 ⟨a, ha, by simp [hany, hrun]⟩
    have ha : ((s.launchAgents ctx id).all fun a => a.atMilestone && a.storeQ.isEmpty && a.atomics.isEmpty) = true :=
      List.all_eq_true.2 fun a ha => by
        obtain ⟨hm, hq, hat⟩ := hall a ha
        simp [hm, hq, hat]
    have hs : ((s.unitsOf ctx id).any fun u => u.saved || u.preempt.isSome) = false :=
      List.any_eq_false.2 fun u hu => by simp [hsaved u hu]
    rw [hw, ha, hs, hcoop, hstop, hroll]
    simpa using hunits
  let u := if l.det then s.mergeUnits l else s
  let r := (u.unitsOf ctx id).foldl (fun s x => s.refreshSnapshot ((u.launch ctx id).getD l) x) u
  have hu : u.allAgents = s.allAgents := by
    dsimp only [u]
    split
    · exact mergeUnits_allAgents s l
    · rfl
  have hr : r.allAgents = s.allAgents := (foldl_allAgents (fun s x => setUnit_allAgents s _) _ u).trans hu
  refine ⟨(s.launchAgents ctx id).foldl (fun s a => s.passHold (Holder.ofLaunch ctx id) a.holder) r,
    BitVec.ofNat 64 (ordinalOf r ctx id), ?_, (foldl_allAgents (fun s a => passHold_allAgents s _ _) _ r).trans hr,
    fun hd n hne hn => ?_⟩
  · rw [exec_snapmRelease, execSnapmRelease, h]
    dsimp only
    rw [if_neg (by rw [hdue]; exact Bool.false_ne_true)]
    rfl
  · have hus : u = s := by simp [u, hd]
    dsimp only [r]
    rw [hus, ordinalOf_refreshed _ hne hn]

/-- No agent of the launch that issues waits at the milestone once it has been released. -/
theorem releasedAgent_anyWait {a : Agent} {o : DWord} (hk : (releasedAgent l ctx id o a).kind ≠ .sup)
    (hu : ofLaunch ctx id (releasedAgent l ctx id o a).unit = true) (hr : (releasedAgent l ctx id o a).run = .running) :
    (releasedAgent l ctx id o a).anyWait Wait.isSnapm = false := by
  have hpass := passMilestone_anyWait o a.subs.length a List.countP_le_length
  by_cases hc : (a.kind != .sup && ofLaunch ctx id a.unit && a.run == .running) = true
  · unfold releasedAgent
    rw [if_pos hc]
    dsimp only
    split
    · exact hpass
    · exact hpass
  · rw [releasedAgent, if_neg hc] at hk hu hr
    exact absurd (by simp [hk, hu, hr]) hc

/-- An agent of a launch that is not deterministic, whose one sub-group waits. -/
theorem releasedAgent_single {a : Agent} {o : DWord} {d : Nat} (ha : a ∈ s.launchAgents ctx id) (hr : a.run = .running)
    (hd : l.det = false) (hw : a.wait = .snapm d) (ho : a.others = []) :
    releasedAgent l ctx id o a = { a.wake d o with relNext := widerScope (a.wake d o).relNext (some 5) } := by
  obtain ⟨-, hk⟩ := List.mem_filter.1 ha
  rw [releasedAgent, if_pos (by simp [hk, hr])]
  simp only [hd, Bool.false_eq_true, if_false, passMilestone_single o hw ho]

/-- What the milestone's release leaves of the agents of its launch. -/
theorem released_agents {v : State} {o : DWord} (hv : v.allAgents = s.allAgents) :
    let t := v.mapAgents (releasedAgent l ctx id o)
    (∀ a ∈ t.launchAgents ctx id, a.run = .running → a.anyWait Wait.isSnapm = false) ∧
    (l.det = false → ∀ a ∈ s.launchAgents ctx id, ∀ d, a.run = .running → a.wait = .snapm d → a.others = [] →
      ∃ b ∈ t.launchAgents ctx id, b.who = a.who ∧ b.wait = .none ∧ b.cur.pc = a.cur.pc + 4 ∧
        b.readG d = if d = 0 then 0 else o) := by
  have hmap : (v.mapAgents (releasedAgent l ctx id o)).allAgents = s.allAgents.map (releasedAgent l ctx id o) := by
    rw [← hv]; rfl
  refine ⟨fun b hb hrun => ?_, fun hd a ha d hrun hw ho => ?_⟩
  · obtain ⟨hmem, hb⟩ := List.mem_filter.1 hb
    rw [hmap] at hmem
    obtain ⟨a, -, rfl⟩ := List.mem_map.1 hmem
    obtain ⟨hk, hu⟩ : _ ∧ _ := by simpa using hb
    exact releasedAgent_anyWait hk hu hrun
  · have hreleased := releasedAgent_single (o := o) ha hrun hd hw ho
    obtain ⟨hmem, ha⟩ := List.mem_filter.1 ha
    refine ⟨releasedAgent l ctx id o a, List.mem_filter.2 ⟨?_, ?_⟩, ?_⟩
    · rw [hmap]
      exact List.mem_map_of_mem hmem
    · rw [hreleased]
      simpa [wake_kind, wake_unit] using ha
    · rw [hreleased]
      refine ⟨wake_who a d o, wake_wait a d o, wake_pc a d o, (wake_readG a d o d).trans ?_⟩
      by_cases h0 : d = 0
      · subst h0
        simp [Agent.readG]
      · simp [h0]

end

/-- Settles O37: a slot by what its agent still waits for; a launch by whether it is settled and has a snapshot; the milestone by what
its release makes of each agent; a CTXSV by whether its unit stands at its stop points. -/
theorem launchEndResults : Obligations.LaunchEndResults := by
  unfold Obligations.LaunchEndResults
  refine ⟨fun w s a ha => ?slot, fun ctx id s l hl => ?launch, fun d s hc => ⟨fun h => ?snapmRefused, fun h => exec_snapm_coop hc h⟩,
    fun ctx id s l hl => ⟨fun h => exec_snapmRelease_refused hl h, fun hcoop hstop hroll hunits hwait hall hsaved => ?milestone⟩,
    fun u s x w d im hx hw hd => ?save⟩
  case slot =>
    have hexec := exec_slotRelease_some ha
    dsimp only
    simp only [← drained_iff]
    refine ⟨fun hn => hexec.trans (if_neg hn), fun hdone hothers => ?_, fun hdone hlast => ?_⟩
    · rw [hexec, if_pos hdone, if_pos hothers]
    · refine ⟨_, hexec.trans (if_pos hdone), fun x hx => ?_⟩
      rw [if_neg (by simp [hlast])]
      refine endUnit_unit (x := x) ?_
      rw [← hx, State.unit, removeAgent_units, State.unit]
  case launch =>
    refine ⟨fun hn => ⟨exec_launchComplete_refused hl (.inl hn), exec_launchCommit_refused hl hn⟩,
      fun hs hr hd hrun hg => ⟨_, exec_launchComplete_next hl hs hr hd, finishExposed_counts hl hr hrun hg⟩,
      fun hs hr hd hrun hg hp => ?complete, fun _ hr => exec_launchComplete_refused hl (.inr hr),
      fun r hs hr hd hp hf => ⟨_, exec_launchCommit_next hl hs hr hd, commitLaunch_results hl hr hp hf⟩⟩
    case complete =>
      refine ⟨_, exec_launchComplete_next hl hs hr hd, ?_⟩
      rw [finishExposed_nothingHeld hl hp]
      obtain ⟨rfl, rfl⟩ := launch_ctx hl
      obtain ⟨-, hbar, hnoRes, hres⟩ := finishLaunch_results (s := s.setContext l.ctx (s.context l.ctx)) hl hrun hg
      refine ⟨hbar, hnoRes, fun i hi => ?_⟩
      obtain ⟨gone, stands⟩ := hres i hi
      rw [context_setContext_same] at gone stands
      have hcells : ∀ va bs, (s.setContext l.ctx (s.context l.ctx)).ctxCells l.ctx va bs = s.ctxCells l.ctx va bs :=
        ctxCells_congr (setContext_mem ..) (setContext_poison ..) (setContext_cr ..) l.ctx
      rw [ctxWrite_mem, hcells] at stands
      dsimp only
      rw [ctxWrite_mem]
      exact ⟨gone, stands⟩
  case snapmRefused => exact ⟨_, exec_snapm_refused hc h, finishG_effect s d _ true⟩
  case milestone =>
    obtain ⟨v, o, hexec, hv, ho⟩ := exec_snapmRelease_next hl hcoop hstop hroll hunits hwait hall hsaved
    obtain ⟨hnone, hone⟩ := released_agents (l := l) (ctx := ctx) (id := id) (o := o) hv
    refine ⟨_, hexec, hnone, fun hd n hne hn => ?_⟩
    rw [← ho hd n hne hn]
    exact hone hd
  case save =>
    have hexec := exec_preemptionStop_some hx hw hd
    refine ⟨fun he => hexec.trans (if_pos he), fun he hn => ?_, fun he hlive hat => ⟨fun hm => ?_, fun hm => ?_⟩⟩
    · rw [hexec, if_neg (by simp [he]), if_pos (by simpa using hn)]
    · rw [hexec, if_neg (by simp [he]), if_neg (by simp [hlive, hat]), if_pos (by simp [hm])]
    · rw [hexec, if_neg (by simp [he]), if_neg (by simp [hlive, hat]), if_neg (by simp [hm])]

end Sys2Proof.Proofs
end

section
/-!
PROOF. What goes on at a place of a deterministic block's rotation leaves the rotations as they are (R199, R336): stores that
perform, atomics that reach their words and arrivals that take effect.
-/
namespace Sys2Proof.Proofs
open Sys2Proof.Machine Sys2Proof.Laws

/-- Every unit's rotation stands where it stood, and no record has joined those that await the end of a rotation's cycle. -/
def SameRotation (s t : State) : Prop :=
  (∀ u, (t.unit u).map WorkUnit.rot = (s.unit u).map WorkUnit.rot) ∧ ∀ p ∈ t.pending, p.cycle.isSome = true → p ∈ s.pending

theorem SameRotation.refl (s : State) : SameRotation s s := ⟨fun _ => rfl, fun _ hp _ => hp⟩

theorem SameRotation.trans {s t u : State} (h : SameRotation s t) (k : SameRotation t u) : SameRotation s u := by
  obtain ⟨hrot, hrec⟩ := h
  obtain ⟨krot, krec⟩ := k
  exact ⟨fun x => (krot x).trans (hrot x), fun p hp hc => hrec p (krec p hp hc) hc⟩

theorem sameRotation_foldl {α : Type} {f : State → α → State} (h : ∀ s a, SameRotation s (f s a)) (l : List α) (s : State) :
    SameRotation s (l.foldl f s) :=
  List.foldlRecOn (motive := fun t => SameRotation s t) l f (.refl s) fun t ht a _ => ht.trans (h t a)

/-- Where the units and the records are the same, so are the rotations. -/
theorem sameRotation_of_eq {s t : State} (hu : t.units = s.units) (hp : t.pending = s.pending) : SameRotation s t :=
  ⟨fun u => by simp only [State.unit, hu], fun p h _ => hp ▸ h⟩

theorem OnlyMemory.sameRotation {s t : State} (h : OnlyMemory s t) : SameRotation s t := by
  obtain ⟨x, p, o, m, n, rfl⟩ := h
  exact sameRotation_of_eq rfl rfl

theorem OnlyNotes.sameRotation {s t : State} (h : OnlyNotes s t) : SameRotation s t := h.memory.sameRotation

/-- A unit put in the place of the one of its name, with the same rotation, changes no rotation. -/
theorem setUnit_sameRotation {s : State} {x y : WorkUnit} (h : s.unit y.key = some x) (hr : y.rot = x.rot) :
    SameRotation s (s.setUnit y) := by
  refine ⟨fun u => ?_, fun p hp _ => hp⟩
  by_cases hu : u = y.key
  · rw [hu, unit_setUnit h rfl, h, Option.map_some, Option.map_some, hr]
  · have hother : ∀ z : WorkUnit, ((if z.key = y.key then y else z).key == u) = (z.key == u) := fun z => by
      by_cases hz : z.key = y.key
      · rw [if_pos hz, hz]
      · rw [if_neg hz]
    have hfind : (s.setUnit y).unit u = s.unit u := by
      simp only [State.setUnit, State.unit, List.find?_map, Function.comp_def, hother]
      cases hf : s.units.find? fun z => z.key == u with
      | none => rfl
      | some z =>
        have hz : z.key = u := by simpa using List.find?_some hf
        rw [Option.map_some, if_neg (hz ▸ hu)]
    rw [hfind]

theorem setAgent_sameRotation (s : State) (a : Agent) : SameRotation s (s.setAgent a) := by
  unfold State.setAgent
  split <;> exact sameRotation_of_eq rfl rfl

theorem raiseAsync_sameRotation (s : State) (c : Cause) (ctx : Nat) (launch : Word) (unit : Option Nat) (det : Bool)
    (i : FaultInfo) (time : DWord) (pc : Word) : SameRotation s (raiseAsync s c ctx launch unit det i time pc) := by
  refine ⟨fun _ => rfl, fun p hp hc => ?_⟩
  rcases List.mem_append.1 hp with h | h
  · exact h
  · rw [List.mem_singleton.1 h] at hc
    cases hc

/-! Writes (R340 to R343, R355). -/

theorem sendUnit_sameRotation (s : State) (opc unit arg : Nat) (data : List Byte) (r : PeerRequest) :
    SameRotation s (s.sendUnit opc unit arg data r) := by
  unfold State.sendUnit
  split <;> exact sameRotation_of_eq rfl rfl

theorem sendWrites_sameRotation (s : State) (ks : List Nat) (r : PeerRequest) : SameRotation s (s.sendWrites ks r) :=
  sameRotation_foldl (fun s _ => sendUnit_sameRotation s ..) _ s

theorem logExposures_sameRotation (s : State) (l : Launch) (ws : List (Nat × Nat)) : SameRotation s (s.logExposures l ws) := by
  induction ws generalizing s with
  | nil => exact .refl s
  | cons w ws ih =>
    refine .trans ?_ (ih _)
    refine .trans ?_ (sameRotation_of_eq rfl rfl)
    split
    · exact .refl s
    · exact (ctxWrite_memory s _ _ _).sameRotation

theorem setLaunch_sameRotation (s : State) (l : Launch) : SameRotation s (s.setLaunch l) := sameRotation_of_eq rfl rfl

theorem sendOut_sameRotation (s : State) (l : Launch) (cells : List (Nat × Byte)) :
    SameRotation s (s.sendOut l cells fun s => s.writeMemAs (l.ctx, l.id)) := by
  have hsent : ∀ ks : List (Nat × Byte), SameRotation s
      ((s.writeMemAs (l.ctx, l.id) ks).sendWrites (ks.map fun c => c.1) (s.launchRequest l)) := fun ks =>
    (writeMemAs_memory s _ ks).sameRotation.trans (sendWrites_sameRotation _ _ _)
  unfold State.sendOut
  dsimp only
  split
  · exact (hsent _).trans (raiseAsync_sameRotation _ _ _ _ _ _ _ _ _)
  · exact hsent _

theorem expose_sameRotation (s : State) (l : Launch) : SameRotation s (s.expose l) := by
  unfold State.expose
  split
  · exact .refl s
  · exact ((setLaunch_sameRotation s _).trans (sendOut_sameRotation _ l _)).trans (logExposures_sameRotation _ l _)

theorem plainWrite_sameRotation (s : State) (l : Launch) (va : Option Nat) (cells : List (Nat × Byte)) :
    SameRotation s (s.plainWrite l va cells) := by
  have hwrite := (writeMemAs_memory s (l.ctx, l.id) cells).sameRotation
  unfold State.plainWrite
  dsimp only
  split
  · exact hwrite.trans (logExposures_sameRotation _ l _)
  · exact hwrite

theorem launchWrite_sameRotation (s : State) (ctx : Nat) (id : Word) (va : Option Nat) (cells : List (Nat × Byte)) :
    SameRotation s (s.launchWrite ctx id va cells) := by
  unfold State.launchWrite
  split
  · exact (writeMemAs_memory s _ cells).sameRotation
  · dsimp only
    split
    · exact (setLaunch_sameRotation s _).trans (plainWrite_sameRotation _ _ va cells)
    · split
      · exact ((setLaunch_sameRotation s _).trans (expose_sameRotation _ _)).trans (plainWrite_sameRotation _ _ va cells)
      · exact ((setLaunch_sameRotation s _).trans (setLaunch_sameRotation _ _)).trans (writeMemAs_memory _ _ _).sameRotation

theorem writeCells_sameRotation (s : State) (u : UnitKey) (cells : List (Nat × Byte)) :
    SameRotation s (s.writeCells u cells) := by
  unfold State.writeCells State.writeVia
  split
  case h_1 x hx =>
    split
    · refine .trans ?_ (writeMemAs_memory _ _ _).sameRotation
      exact setUnit_sameRotation (x := x) ((unit_key hx).symm ▸ hx) rfl
    · exact launchWrite_sameRotation s _ _ none cells
  case h_2 => exact (writeMemAs_memory s _ cells).sameRotation

/-! Releases (R169, R202). -/

theorem notePublish_sameRotation (s : State) (a : Agent) (e : StoreEntry) : SameRotation s (s.notePublish a e) := by
  unfold State.notePublish
  split
  · split
    case h_1 x hx =>
      repeat' split
      case isTrue => exact setUnit_sameRotation (x := x) ((unit_key hx).symm ▸ hx) rfl
      all_goals exact .refl s
    case h_2 => exact .refl s
  · exact .refl s

theorem releaseAt_sameRotation (s : State) (a : Agent) (c : BitVec 3) (ks : List Nat) : SameRotation s (s.releaseAt a c ks) :=
  sameRotation_foldl (fun s _ => (passHold_notes s _ _).sameRotation) _ s

theorem atomicOrder_sameRotation (s : State) (a : Agent) (c : BitVec 3) (ks : List Nat) {write : State → State}
    (h : ∀ t, SameRotation t (write t)) : SameRotation s (s.atomicOrder a c ks write) := by
  have horder : SameRotation s ((((s.acquire a c ks).keepPlaces ks write).holdLines a.holder ks).releaseAt a c ks) :=
    ((((passHold_notes s _ _).sameRotation.trans (h _)).trans (mapMonitors_notes _ _).sameRotation).trans
      (holdLines_notes _ _ _).sameRotation).trans (releaseAt_sameRotation _ a c ks)
  unfold State.atomicOrder
  dsimp only
  split
  · exact horder.trans (releaseSys_notes _ _).sameRotation
  · exact horder

/-! Stores that perform (R135). -/

theorem performOne_sameRotation (s : State) (a : Agent) : SameRotation s (s.performOne a) := by
  cases hq : a.storeQ with
  | nil =>
    simp only [State.performOne, hq]
    exact .refl s
  | cons e r =>
    have hwrite : ∀ b cells, SameRotation s (((s.setAgent b).writeCells a.unit cells).notePublish a e) := fun b cells =>
      ((setAgent_sameRotation s b).trans (writeCells_sameRotation _ _ cells)).trans (notePublish_sameRotation _ a e)
    have hheld : ∀ b cells ks q, SameRotation s
        (((((s.setAgent b).writeCells a.unit cells).notePublish a e).sendWrites ks q).holdLines a.holder ks) := fun b cells ks q =>
      ((hwrite b cells).trans (sendWrites_sameRotation _ ks q)).trans (holdLines_notes _ _ ks).sameRotation
    simp only [State.performOne, hq]
    split <;> split
    · exact ((hheld _ _ _ _).trans (releaseAt_sameRotation _ a _ _)).trans (releaseSys_notes _ _).sameRotation
    · exact (hheld _ _ _ _).trans (releaseSys_notes _ _).sameRotation
    · exact (hheld _ _ _ _).trans (releaseAt_sameRotation _ a _ _)
    · exact hheld _ _ _ _

theorem performDue_sameRotation (s : State) (w : Who) (n : Nat) : SameRotation s (s.performDue w n) := by
  refine sameRotation_foldl (fun s _ => ?_) _ s
  split
  · split
    · exact performOne_sameRotation s _
    · exact .refl s
  · exact .refl s

/-! Atomics that reach their words (R142, R336). -/

theorem contribute_sameRotation (s : State) (u : UnitKey) (c : Contrib) (cells : List (Nat × Byte)) :
    SameRotation s (s.contribute u c cells) := by
  unfold State.contribute
  split
  case h_1 x hx =>
    split
    · exact writeCells_sameRotation s u cells
    · split
      · exact setUnit_sameRotation (x := x) ((unit_key hx).symm ▸ hx) rfl
      · exact .refl s
  case h_2 => exact .refl s

theorem atomicWord_sameRotation (s : State) (a : Agent) (op : AtomicOp) (k : Nat) (b c : Word) :
    SameRotation s (s.atomicWord a op k b c).1 := by
  unfold State.atomicWord
  dsimp only
  split
  · exact (sameRotation_of_eq rfl rfl).trans (contribute_sameRotation _ _ _ _)
  · exact writeCells_sameRotation s _ _

theorem atomicLanes_sameRotation (s : State) (a : Agent) (op : AtomicOp) (work : List (Nat × Nat × Word × Word)) :
    SameRotation s (s.atomicLanes a op work).1 := by
  induction work generalizing s with
  | nil => exact .refl s
  | cons w work ih => exact (atomicWord_sameRotation s a op _ _ _).trans (ih _)

theorem performAtomic_sameRotation (s : State) (a : Agent) (op : AtomicOp) (c : BitVec 3)
    (work : List (Nat × Nat × Word × Word)) : SameRotation s (s.performAtomic a op c work).1 :=
  atomicOrder_sameRotation s a c _ fun t => (atomicLanes_sameRotation t a op work).trans (notePublish_sameRotation _ _ _)

theorem performPending_sameRotation (s : State) (a : Agent) : SameRotation s (s.performPending a) := by
  unfold State.performPending
  split
  · exact .refl s
  · exact (performAtomic_sameRotation s a _ _ _).trans (setAgent_sameRotation _ _)

theorem atomicsDue_sameRotation (s : State) (w : Who) (t n : Nat) : SameRotation s (s.atomicsDue w t n) := by
  refine sameRotation_foldl (fun s _ => ?_) _ s
  split
  · split
    · exact performPending_sameRotation s _
    · exact .refl s
  · exact .refl s

/-! Arrivals that take effect (R150). -/

/-- The units, the records to be delivered and the memory are as they were. -/
def OnlyArrived (s t : State) : Prop := t.units = s.units ∧ t.pending = s.pending ∧ t.mem = s.mem

theorem makeArrival_arrived (s : State) (a : Agent) (h : HeldArrival) : OnlyArrived s (s.makeArrival a h) := by
  have hset : ∀ b, OnlyArrived s (s.setAgent b) := fun b => by
    unfold State.setAgent
    split <;> exact ⟨rfl, rfl, rfl⟩
  have hhand : ∀ (t : State) b, OnlyArrived t (t.handTo a b) := fun t b => by
    obtain ⟨m, n, ht⟩ : OnlyNotes t (t.handTo a b) := passHold_notes t _ _
    rw [ht]
    exact ⟨rfl, rfl, rfl⟩
  unfold State.makeArrival
  dsimp only
  split
  · obtain ⟨hu, hp, hm⟩ := hset { a with arrivals := a.arrivals.erase h }
    obtain ⟨ku, kp, km⟩ := hhand (s.setAgent { a with arrivals := a.arrivals.erase h }) h.bar
    exact ⟨ku.trans hu, kp.trans hp, km.trans hm⟩
  · exact hset _

/-- The end of a block's cycle changes no unit, no record and no byte of memory. -/
theorem endCycle_arrived (s : State) (x : WorkUnit) : OnlyArrived s (s.endCycle x) := by
  have hone : ∀ {β : Type} (field : State → β), (∀ s a h, field (s.makeArrival a h) = field s) →
      field (s.endCycle x) = field s := fun field hfield =>
    foldl_keeps field (fun s _ => foldl_keeps field (fun s _ => foldl_keeps field (fun s _ => by
      split
      · rename_i a _
        cases a.arrivals.find? fun h => h.ahead == 0 with
        | none => rfl
        | some h => exact hfield s a h
      · rfl) _ s) _ s) _ s
  refine ⟨hone State.units fun s a h => ?_, hone State.pending fun s a h => ?_, hone State.mem fun s a h => ?_⟩ <;>
    obtain ⟨hunits, hpending, hmem⟩ := makeArrival_arrived s a h
  · exact hunits
  · exact hpending
  · exact hmem

end Sys2Proof.Proofs
end

section
/-!
PROOF. The rotation of a deterministic block (R199, R325, R336): the order of records, of a block's cores and of the places of a
cycle, and the group that a place offers.
-/
namespace Sys2Proof.Proofs
open Sys2Proof.Machine Sys2Proof.Laws

/-! Records in order (R325). -/

theorem insertRecord_perm (p : Pending) (l : List Pending) : (insertRecord p l).Perm (p :: l) := by
  induction l with
  | nil => exact .refl _
  | cons q l ih =>
    rw [insertRecord]
    split
    · exact (ih.cons q).trans (.swap p q l)
    · exact .refl _

/-- Records put in order one by one are the same records. -/
theorem foldl_insertRecord_perm (f : Pending → Pending) (l acc : List Pending) :
    (l.foldl (fun l p => insertRecord (f p) l) acc).Perm (l.map f ++ acc) := by
  induction l generalizing acc with
  | nil => exact .refl _
  | cons p l ih =>
    exact ((ih _).trans ((insertRecord_perm (f p) acc).append_left _)).trans List.perm_middle

theorem firstDecides_length (seen l : List Pending) : (firstDecides seen l).length = l.length := by
  induction l generalizing seen with
  | nil => rfl
  | cons p l ih => rw [firstDecides, List.length_cons, List.length_cons, ih]

/-- The records that a step has raised are put in order and none is lost; one alone stands as it stood. -/
theorem settleRecords_results (s : State) (old : List Pending) :
    ∃ ps, s.settleRecords old = { s with pending := ps } ∧ ps.length = s.pending.length ∧
      ((s.pending.filter fun p => !old.contains p).length ≤ 1 → ps = s.pending) := by
  unfold State.settleRecords
  dsimp only
  split
  · exact ⟨s.pending, rfl, rfl, fun _ => rfl⟩
  · rename_i hmany
    refine ⟨_, rfl, ?_, fun h => absurd h hmany⟩
    have horder := (foldl_insertRecord_perm id (s.pending.filter fun p => !old.contains p) []).length_eq
    rw [List.map_id, List.append_nil] at horder
    rw [List.length_append, firstDecides_length]
    refine Eq.trans (congrArg _ horder) ?_
    rw [← List.length_append, (List.filter_append_perm _ s.pending).length_eq]

/-- When a block's cycle has ended, no record awaits its end. -/
theorem settleCycle_ofCycle (s : State) (u : UnitKey) : ∀ p ∈ (s.settleCycle u).pending, p.ofCycle u = false := by
  unfold State.settleCycle
  dsimp only
  split
  · rename_i hnone
    intro p hp
    rw [List.isEmpty_iff, List.filter_eq_nil_iff] at hnone
    exact Bool.eq_false_iff.2 (hnone p hp)
  · intro p hp
    rcases List.mem_append.1 hp with h | h
    · simpa using (List.mem_filter.1 h).2
    · have hmem := (foldl_insertRecord_perm (fun p => { p with cycle := none }) _ []).mem_iff.1 h
      rw [List.append_nil] at hmem
      obtain ⟨q, _, rfl⟩ := List.mem_map.1 hmem
      rfl

theorem settleCycle_units (s : State) (u : UnitKey) : (s.settleCycle u).units = s.units := by
  unfold State.settleCycle
  dsimp only
  split <;> rfl

/-! The places of a cycle (R199, R336). -/

theorem nextCycle_sameRotation (s : State) (x : WorkUnit) :
    SameRotation ((s.settleCycle x.key).setUnit { x with rot := some ⟨x.rotation.cycle + 1, 0, s.preempting x⟩ })
      (s.nextCycle x) := by
  unfold State.nextCycle
  dsimp only
  refine .trans (sameRotation_foldl ?_ _ _) (sameRotation_foldl ?_ _ _)
  · exact fun s a => performDue_sameRotation s a.who _
  · exact fun s a => atomicsDue_sameRotation s a.who _ _

/-- A cycle begins at its first place, and the records of the one before stand in order. -/
theorem nextCycle_results {s : State} {x : WorkUnit} (h : s.unit x.key = some x) :
    ((s.nextCycle x).unit x.key).map (fun y => y.rot.map fun r => (r.cycle, r.place)) = some (some (x.rotation.cycle + 1, 0)) ∧
    ∀ p ∈ (s.nextCycle x).pending, p.ofCycle x.key = false := by
  have hunit : (s.settleCycle x.key).unit x.key = some x := by rw [← h]; simp only [State.unit, settleCycle_units]
  have hset := unit_setUnit hunit (y := { x with rot := some ⟨x.rotation.cycle + 1, 0, s.preempting x⟩ }) rfl
  obtain ⟨hrot, hrec⟩ := nextCycle_sameRotation s x
  refine ⟨?_, fun p hp => ?_⟩
  · have hx := hrot x.key
    rw [hset] at hx
    obtain ⟨y, hy, hyrot⟩ := Option.map_eq_some_iff.1 hx
    rw [hy, Option.map_some, hyrot]
    rfl
  · rw [Bool.eq_false_iff]
    intro hof
    have hsome : p.cycle.isSome = true := by
      simp only [Pending.ofCycle, Bool.and_eq_true] at hof
      exact hof.1.1.1
    exact Bool.eq_false_iff.1 (settleCycle_ofCycle s x.key p (hrec p hp hsome)) hof

theorem nextPlace_within {s : State} {x : WorkUnit} (h : s.unit x.key = some x) (hp : x.rotation.place + 1 < 2 * x.cores.length) :
    s.nextPlace x.key = s.setUnit { x with rot := some { x.rotation with place := x.rotation.place + 1 } } := by
  simp only [State.nextPlace, h]
  rw [if_neg (by omega), if_neg (by omega), h]

theorem nextPlace_last {s : State} {x : WorkUnit} (h : s.unit x.key = some x) (hp : x.rotation.place + 1 = 2 * x.cores.length) :
    s.nextPlace x.key = (s.endCycle x).setUnit { x with rot := some { x.rotation with place := x.rotation.place + 1 } } := by
  have hunit : (s.endCycle x).unit x.key = some x := by
    rw [← h]
    simp only [State.unit, (endCycle_arrived s x).1]
  simp only [State.nextPlace, h]
  rw [if_neg (by omega), if_pos hp, hunit]

theorem nextPlace_past {s : State} {x : WorkUnit} (h : s.unit x.key = some x) (hp : 2 * x.cores.length ≤ x.rotation.place) :
    s.nextPlace x.key = s.nextCycle x := by
  simp only [State.nextPlace, h]
  rw [if_pos hp]

/-- The rotation goes on place by place, and from the end of a cycle to the next. -/
theorem nextPlace_results {s : State} {x : WorkUnit} (h : s.unit x.key = some x) :
    let o := x.rotation
    let n := 2 * x.cores.length
    let t := s.nextPlace x.key
    (o.place + 1 < n → t.unit x.key = some { x with rot := some { o with place := o.place + 1 } } ∧ t.mem = s.mem ∧
      t.pending = s.pending) ∧
    (o.place + 1 = n → (t.unit x.key).map (fun y => y.rot) = some (some { o with place := n }) ∧ t.mem = s.mem) ∧
    (n ≤ o.place → (t.unit x.key).map (fun y => y.rot.map fun r => (r.cycle, r.place)) = some (some (o.cycle + 1, 0)) ∧
      ∀ p ∈ t.pending, p.ofCycle x.key = false) := by
  intro o n t
  refine ⟨fun hp => ?_, fun hp => ?_, fun hp => ?_⟩
  · rw [show t = _ from nextPlace_within h hp]
    exact ⟨unit_setUnit h rfl, rfl, rfl⟩
  · obtain ⟨hunits, _, hmem⟩ := endCycle_arrived s x
    have hunit : (s.endCycle x).unit x.key = some x := by
      rw [← h]
      simp only [State.unit, hunits]
    have hset := unit_setUnit hunit (y := { x with rot := some { x.rotation with place := x.rotation.place + 1 } }) rfl
    rw [show t = _ from nextPlace_last h hp, hset, Option.map_some, ← hp]
    exact ⟨rfl, hmem⟩
  · rw [show t = _ from nextPlace_past h hp]
    exact nextCycle_results h

/-! The cores of a block in order (R150, R267). -/

theorem insertNat_eq (x : Nat) (l : List Nat) : insertNat x l = l.orderedInsert (· ≤ ·) x := by
  induction l with
  | nil => rfl
  | cons y l ih => rw [insertNat, List.orderedInsert_cons, ih]

theorem foldr_insertNat_eq (l : List Nat) : l.foldr insertNat [] = l.insertionSort (· ≤ ·) := by
  rw [show insertNat = List.orderedInsert (· ≤ ·) from funext fun x => funext (insertNat_eq x)]
  rfl

/-- The member cores of a block stand in ascending order of the cores that they are. -/
theorem byCore_results (x : WorkUnit) : x.byCore.length = x.cores.length ∧
    ∀ i j a b : Nat, i < j → x.byCore[i]? = some a → x.byCore[j]? = some b → x.cores.getD a 0 ≤ x.cores.getD b 0 := by
  have hby : x.byCore = (x.cores.insertionSort (· ≤ ·)).map fun c => x.cores.idxOf c := by
    rw [WorkUnit.byCore, foldr_insertNat_eq]
  have hcore : ∀ i a : Nat, x.byCore[i]? = some a → (x.cores.insertionSort (· ≤ ·))[i]? = some (x.cores.getD a 0) := by
    intro i a ha
    rw [hby, List.getElem?_map] at ha
    obtain ⟨c, hc, rfl⟩ := Option.map_eq_some_iff.1 ha
    have hmem : c ∈ x.cores := (List.mem_insertionSort (· ≤ ·)).1 (List.mem_of_getElem? hc)
    rw [hc, List.getD_eq_getElem _ _ (List.idxOf_lt_length_iff.2 hmem), List.getElem_idxOf]
  refine ⟨by rw [hby, List.length_map, List.length_insertionSort], fun i j a b hij ha hb => ?_⟩
  obtain ⟨hi, hai⟩ := List.getElem?_eq_some_iff.1 (hcore i a ha)
  obtain ⟨hj, hbj⟩ := List.getElem?_eq_some_iff.1 (hcore j b hb)
  rw [← hai, ← hbj]
  exact List.pairwise_iff_getElem.1 (List.pairwise_insertionSort (· ≤ ·) x.cores) i j hi hj hij

end Sys2Proof.Proofs
end

section
/-!
PROOF. A step by what the agenda names (R98, R138, R175), the outcomes of an issue and of an offer of the rotation (R199), and the
instruction that is placed where a step fetches next.
-/
namespace Sys2Proof.Proofs
open Sys2Proof.Machine Sys2Proof.Laws

/-! An issue: what the decoder reads, or what is met in its place (R59, R98). -/

theorem issue_go {s : State} (hc : s.me.canIssue = true) (hg : s.gate = .go) : issue s = fetchWith exec s := by
  simp only [issue, issueWith, hc, hg, if_true]

/-- What stands at the PC runs, and cycles pass over it. -/
theorem issue_decoded {s : State} {i : Instr} {rest : List Byte} (hc : s.me.canIssue = true) (hg : s.gate = .go)
    (hd : decode s.me.fetch = .ok (i, rest)) : issue s = afterIssue (exec i s.begins) := by
  rw [issue_go hc hg, fetchWith, hd]

/-- Outside the code image the fetch traps; a word that is no instruction is met as such. -/
theorem issue_undecoded {s : State} {e : DecodeError} (hc : s.me.canIssue = true) (hg : s.gate = .go)
    (hd : decode s.me.fetch = .error e) :
    (e = .truncated → issue s = .next (fetchTrap s.begins)) ∧
    (e ≠ .truncated → issue s = afterIssue (exec (.wordThatDoesNotExecute (wordAt s.me.fetch)) s.begins)) := by
  rw [issue_go hc hg, fetchWith, hd]
  cases e with
  | truncated => exact ⟨fun _ => rfl, fun h => absurd rfl h⟩
  | zeroHalfword | reserved | field | scope => exact ⟨nofun, fun _ => rfl⟩

/-- An agent that may not issue, or is held back, does not; one that ends stops where it stands. -/
theorem issue_held (s : State) : (s.me.canIssue = false → issue s = .refused .notDue) ∧
    (s.me.canIssue = true → s.gate = .hold → issue s = .refused .notDue) ∧
    (s.me.canIssue = true → s.gate = .ends → issue s = .next { s with me := s.me.stopNow }) := by
  refine ⟨fun hc => ?_, fun hc hg => ?_, fun hc hg => ?_⟩
  · simp only [issue, issueWith, hc, Bool.false_eq_true, if_false]
  · simp only [issue, issueWith, hc, hg, if_true]
  · simp only [issue, issueWith, hc, hg, if_true]

/-! A step by its turn (R138, R175). -/

theorem step_idle {s : State} (hp : s.power = .up) (ha : s.agenda = []) : step s = ownTurn exec s := by
  simp only [step, hp, ha]

theorem step_issue {s : State} {w : Who} {sub : Nat} {r : List Turn} (hp : s.power = .up) (ha : s.agenda = .issue w sub :: r) :
    step s = turnWith exec w sub { s with agenda := r } := by
  simp only [step, hp, ha]

theorem step_event {s : State} {i : Instr} {r : List Turn} (hp : s.power = .up) (ha : s.agenda = .event i :: r) :
    step s = eventWith exec i { s with agenda := r } := by
  simp only [step, hp, ha]

theorem ownTurn_results (s : State) :
    (s.timedDue = true → ownTurn exec s = .refused .notDue) ∧
    (s.timedDue = false → s.rotating s.me.who = none → ownTurn exec s = issue s) ∧
    (s.timedDue = false → ∀ x, s.rotating s.me.who = some x → ownTurn exec s = rotateWith exec x.key s.me.who s) := by
  refine ⟨fun h => ?_, fun h hr => ?_, fun h x hr => ?_⟩
  · simp only [ownTurn, h, if_true]
  · simp only [ownTurn, h, hr, Bool.false_eq_true, if_false, issue]
  · simp only [ownTurn, h, hr, Bool.false_eq_true, if_false]

theorem turnWith_results (s : State) (w : Who) (sub : Nat) :
    (s.timedDue = true → turnWith exec w sub s = .refused .notDue) ∧
    (s.timedDue = false → s.rotating w = none →
      (∀ t, s.select w sub = some t → turnWith exec w sub s = issue t) ∧
      (s.select w sub = none → turnWith exec w sub s = .refused .notDue)) ∧
    (s.timedDue = false → ∀ x, s.rotating w = some x → turnWith exec w sub s = rotateWith exec x.key w s) := by
  refine ⟨fun h => ?_, fun h hr => ⟨fun t ht => ?_, fun ht => ?_⟩, fun h x hr => ?_⟩
  · simp only [turnWith, h, if_true]
  · simp only [turnWith, h, hr, ht, Bool.false_eq_true, if_false, issue]
  · simp only [turnWith, h, hr, ht, Bool.false_eq_true, if_false]
  · simp only [turnWith, h, hr, Bool.false_eq_true, if_false]

/-- Of the steps of the device only a timed store that performs and a tick of die time may come about while a timed store is
due. -/
theorem mayGoAhead_iff (i : Instr) : mayGoAhead i = true ↔ (∃ c k, i = .timedStorePerform c k) ∨ ∃ d n, i = .dieTimeTick d n := by
  constructor
  · intro h
    unfold mayGoAhead at h
    split at h
    · exact .inl ⟨_, _, rfl⟩
    · exact .inr ⟨_, _, rfl⟩
    · cases h
  · rintro (⟨c, k, rfl⟩ | ⟨d, n, rfl⟩)
    · rfl
    · rfl

theorem eventWith_results (s : State) (i : Instr) :
    let ahead := (∃ c k, i = .timedStorePerform c k) ∨ ∃ d n, i = .dieTimeTick d n
    (i.isWord = true → eventWith exec i s = .refused .notDue) ∧
    (s.timedDue = true → ¬ahead → eventWith exec i s = .refused .notDue) ∧
    (i.isWord = false → s.timedDue = false ∨ ahead →
      (∀ t, exec i s = .next t → eventWith exec i s = .next (t.settleRecords s.pending)) ∧
      (∀ f, exec i s = .fault f → eventWith exec i s = .fault f) ∧
      (∀ x, exec i s = .refused x → eventWith exec i s = .refused x)) := by
  intro ahead
  refine ⟨fun hw => ?_, fun ht ha => ?_, fun hw ht => ?_⟩
  · rw [eventWith, if_pos (.inl hw)]
  · have hgo : mayGoAhead i = false := Bool.eq_false_iff.2 fun h => ha ((mayGoAhead_iff i).1 h)
    rw [eventWith, if_pos (.inr ⟨ht, by rw [hgo]; rfl⟩)]
  · have hrun : eventWith exec i s = settleOut s.pending (exec i s) := by
      refine if_neg ?_
      rintro (h | ⟨hdue, hgo⟩)
      · rw [hw] at h
        cases h
      · rcases ht with hno | ha
        · rw [hno] at hdue
          cases hdue
        · rw [(mayGoAhead_iff i).2 ha] at hgo
          cases hgo
    refine ⟨fun t h => ?_, fun f h => ?_, fun x h => ?_⟩
    · rw [hrun, h, settleOut]
    · rw [hrun, h, settleOut]
    · rw [hrun, h, settleOut]

/-! An offer of the rotation (R199). -/

theorem select_pending {s t : State} {w : Who} {id : Nat} (h : s.select w id = some t) : t.pending = s.pending := by
  unfold State.select at h
  split at h
  · cases h
  · split at h
    · cases h
    · split at h <;> cases Option.some.inj h <;> rfl

/-- Where no record has been raised, none is marked. -/
theorem markRecords_same {s : State} {old : List Pending} (h : s.pending = old) (t : Nat) : s.markRecords old t = s := by
  have hall : s.pending.map (fun p => if old.contains p || p.kind == .asynchronous then p else { p with cycle := some t }) =
      s.pending := by
    refine (List.map_congr_left fun p hp => ?_).trans (List.map_id s.pending)
    rw [if_pos, id]
    rw [Bool.or_eq_true]
    exact .inl (List.contains_iff_mem.2 (h ▸ hp))
  exact congrArg (fun ps => ({ s with pending := ps } : State)) hall

/-- The first sub-group that is ready and issues ends the offer. -/
theorem offerWith_issues {s b c : State} {w : Who} {t id : Nat} {ids : List Nat} (hs : s.select w id = some b)
    (hr : b.readyAt t = true) (hi : issue b = .next c) (hm : b.me.moved c.me = true) :
    offerWith exec w t (id :: ids) s = .next (b.bookIssue c t, true) := by
  rw [issue] at hi
  rw [offerWith, hs]
  dsimp only
  rw [if_pos hr, hi]
  dsimp only
  rw [if_pos hm]

/-- A pipe whose one sub-group is not ready stays idle. -/
theorem offerWith_idle {s b : State} {w : Who} {t id : Nat} (hs : s.select w id = some b) (hr : b.readyAt t = false) :
    offerWith exec w t [id] s = .next (b, false) := by
  rw [offerWith, hs]
  dsimp only
  rw [hr, if_neg Bool.false_ne_true, offerWith]

/-- The state in which a turn of a block's group finds its rotation. -/
def atOffer (s : State) (u : UnitKey) : State := skipAbsent (24 * ((s.unit u).elim 0 fun x => x.cores.length) + 2) u s

theorem offered_iff (x : WorkUnit) (u : UnitKey) (w : Who) :
    x.offered.map (Who.group u) = some w ↔
      ∃ b, x.byCore[x.rotation.place / 2]? = some b ∧
        w = .group u (16 * b + (2 * x.rotation.cycle + x.rotation.place % 2) % 16) := by
  simp only [WorkUnit.offered, Option.map_map, Option.map_eq_some_iff, Function.comp_apply, eq_comm (a := w)]

/-- A place that offers another group, or at which the block stands or a return is due, is not passed: only what stands before it
is. -/
theorem rotateWith_stands {s : State} {u : UnitKey} {w : Who} {x : WorkUnit} (hx : (atOffer s u).unit u = some x)
    (h : (atOffer s u).standsAtStop x = true ∨ (atOffer s u).owesEvent x = true ∨ x.offered.map (Who.group u) ≠ some w) :
    ((s.unit u).map WorkUnit.rot = some x.rot → rotateWith exec u w s = .refused .notDue) ∧
    ((s.unit u).map WorkUnit.rot ≠ some x.rot → rotateWith exec u w s = .next (atOffer s u)) := by
  have hrot : rotateWith exec u w s =
      if (s.unit u).map WorkUnit.rot = some x.rot then .refused .notDue else .next (atOffer s u) := by
    unfold rotateWith
    dsimp only
    rw [← atOffer, hx]
    exact if_pos h
  exact ⟨fun he => hrot.trans (if_pos he), fun he => hrot.trans (if_neg he)⟩

/-- The group that is offered issues, or its pipe stays idle, and the rotation goes on. -/
theorem rotateWith_offers {s t : State} {u : UnitKey} {w : Who} {x : WorkUnit} {moved : Bool}
    (hx : (atOffer s u).unit u = some x)
    (h : ¬((atOffer s u).standsAtStop x = true ∨ (atOffer s u).owesEvent x = true ∨ x.offered.map (Who.group u) ≠ some w))
    (ho : offerWith exec w x.rotation.cycle (((atOffer s u).agent w).elim [] Agent.subIds) (atOffer s u) = .next (t, moved)) :
    rotateWith exec u w s = .next ((t.markRecords (atOffer s u).pending x.rotation.cycle).nextPlace u) := by
  unfold rotateWith
  dsimp only
  rw [← atOffer, hx]
  dsimp only
  rw [if_neg h, ho]

theorem rotateWith_results (s : State) (u : UnitKey) (w : Who) (x : WorkUnit) :
    let v := atOffer s u
    let o := x.rotation
    let ids := (v.agent w).elim [] Agent.subIds
    let mine := ∃ b, x.byCore[o.place / 2]? = some b ∧ w = .group u (16 * b + (2 * o.cycle + o.place % 2) % 16)
    let stands := v.standsAtStop x = true ∨ v.owesEvent x = true ∨ ¬mine
    v.unit u = some x →
    (stands → (s.unit u).map WorkUnit.rot = some x.rot → rotateWith exec u w s = .refused .notDue) ∧
    (stands → (s.unit u).map WorkUnit.rot ≠ some x.rot → rotateWith exec u w s = .next v) ∧
    (¬stands →
      (∀ id rest b c, ids = id :: rest → v.select w id = some b → b.readyAt o.cycle = true → issue b = .next c →
        b.me.moved c.me = true →
          rotateWith exec u w s = .next (((b.bookIssue c o.cycle).markRecords v.pending o.cycle).nextPlace u)) ∧
      (∀ id b, ids = [id] → v.select w id = some b → b.readyAt o.cycle = false →
        rotateWith exec u w s = .next (b.nextPlace u))) := by
  intro v o ids mine stands hx
  have hmine : x.offered.map (Who.group u) = some w ↔ mine := offered_iff x u w
  have hstands : stands ↔ v.standsAtStop x = true ∨ v.owesEvent x = true ∨ x.offered.map (Who.group u) ≠ some w := by
    simp only [stands, ne_eq, hmine]
  refine ⟨fun h => (rotateWith_stands hx (hstands.1 h)).1, fun h => (rotateWith_stands hx (hstands.1 h)).2, fun h => ⟨?_, ?_⟩⟩
  · intro id rest b c hids hs hr hi hm
    refine rotateWith_offers (moved := true) hx (fun k => h (hstands.2 k)) ?_
    rw [show (v.agent w).elim [] Agent.subIds = id :: rest from hids]
    exact offerWith_issues hs hr hi hm
  · intro id b hids hs hr
    have hgo := rotateWith_offers (t := b) (moved := false) hx (fun k => h (hstands.2 k)) (by
      rw [show (v.agent w).elim [] Agent.subIds = [id] from hids]
      exact offerWith_idle hs hr)
    rw [hgo, markRecords_same (select_pending hs)]

/-! The instruction placed where a step fetches next (log entry 2). -/

/-- At the base of the code image the whole image is fetched. -/
theorem fetch_at_base {a : Agent} (h : a.cur.pc = a.codeBase) : a.fetch = a.code := by
  rw [Agent.fetch, h, BitVec.sub_self]
  rfl

theorem placedAgent_results (w : Nat) (code : List Byte) :
    (placedAgent w code).canIssue = true ∧ (placedAgent w code).fetch = code ∧ (placedAgent w code).unit = ⟨0, 0, 0⟩ ∧
      ∀ u n, (placedAgent w code).who = .group u n → u = ⟨0, 0, 0⟩ := by
  unfold placedAgent
  dsimp only
  split
  · exact ⟨rfl, fetch_at_base rfl, rfl, nofun⟩
  · split
    · exact ⟨rfl, fetch_at_base rfl, rfl, nofun⟩
    · refine ⟨rfl, fetch_at_base rfl, rfl, fun u n h => ?_⟩
      cases h
      rfl

theorem decode_of_decodeTableWord {nbits w : Nat} {i : Instr} (h : decodeTableWord nbits w = some i) :
    ∃ rest, decode (bytesOfWord (BitVec.ofNat 32 (w % 2 ^ nbits))) = .ok (i, rest) := by
  unfold decodeTableWord at h
  dsimp only at h
  split at h
  · rename_i j rest hd
    exact ⟨rest, Option.some.inj h ▸ hd⟩
  · cases h

theorem withFetchWord_timedDue (s : State) (nbits w : Nat) : (s.withFetchWord nbits w).timedDue = false := by
  simp [State.timedDue, State.withFetchWord, List.any_map]

theorem withFetchWord_unit (s : State) (nbits w : Nat) : (s.withFetchWord nbits w).unit ⟨0, 0, 0⟩ = none := by
  simp [State.unit, State.withFetchWord]

theorem withFetchWord_launch (s : State) (nbits w : Nat) : (s.withFetchWord nbits w).launch 0 0 = none := by
  simp only [State.launch, State.withFetchWord, List.find?_eq_none, List.mem_filter]
  rintro l ⟨_, hl⟩ hz
  simp only [Bool.and_eq_true, beq_iff_eq] at hz
  simp [hz] at hl

/-- The instruction placed is what the agent fetches, and nothing goes before its issue. -/
theorem withFetchWord_results (s : State) {nbits w : Nat} {i : Instr} (h : decodeTableWord nbits w = some i) :
    let t := s.withFetchWord nbits w
    t.agenda = [] ∧ t.power = .up ∧ t.timedDue = false ∧ t.rotating t.me.who = none ∧ t.me.canIssue = true ∧ t.gate = .go ∧
    ∃ rest, decode t.me.fetch = .ok (i, rest) := by
  intro t
  obtain ⟨hissue, hfetch, hunit, hwho⟩ := placedAgent_results (w % 2 ^ nbits) (bytesOfWord (BitVec.ofNat 32 (w % 2 ^ nbits)))
  have hnone : t.unit t.me.unit = none := by
    rw [show t.me.unit = _ from hunit]
    exact withFetchWord_unit s nbits w
  have hrotating : t.rotating t.me.who = none := by
    unfold State.rotating
    split
    · rename_i u n hu
      rw [hwho u n hu, withFetchWord_unit s nbits w, Option.filter_none]
    · rfl
  have hstops : t.launchStops t.me = false := by
    rw [State.launchStops, show t.me.unit = _ from hunit, show t.launch 0 0 = none from withFetchWord_launch s nbits w]
    exact Bool.and_false _
  have hsave : t.heldForSave t.me = false := by rw [State.heldForSave, hnone]
  have hgate : t.gate = .go := by
    rw [State.gate, hstops, hsave]
    rfl
  refine ⟨rfl, rfl, withFetchWord_timedDue s nbits w, hrotating, hissue, hgate, ?_⟩
  rw [show t.me.fetch = _ from hfetch]
  exact decode_of_decodeTableWord h

/-- Settles O58: a step by its turn, an issue by what stands at the PC, the rotation by its place and by what it offers, and the
records in order. -/
theorem stepRunsDecoded : Obligations.StepRunsDecoded := by
  unfold Obligations.StepRunsDecoded
  refine ⟨fun s hp ha => ?idle, fun s i rest hc hg hd => ?decoded, fun s e hc hg hd => issue_undecoded hc hg hd, issue_held,
    fun s w sub r hp ha => ?turn, fun s i r hp ha => ?event, settleRecords_results, fun s r hp => ?world, fun s n r hp => ?recovery,
    rotateWith_results, byCore_results, fun s x hx => nextPlace_results hx, fun s nbits w i _ h => withFetchWord_results s h⟩
  case idle =>
    rw [step_idle hp ha]
    exact ownTurn_results s
  case decoded =>
    intro u
    have hi : issue s = afterIssue (exec i u) := issue_decoded hc hg hd
    refine ⟨fun t h => ?_, fun f h => ?_, fun r h => ?_⟩
    · rw [hi, h, afterIssue, State.passCycles]
    · rw [hi, h, afterIssue]
    · rw [hi, h, afterIssue]
  case turn =>
    rw [step_issue hp ha]
    exact turnWith_results _ w sub
  case event =>
    rw [step_event hp ha]
    exact eventWith_results _ i
  case world =>
    refine ⟨fun o ha => ?_, fun n v ha => ?_, fun d i ha => ?_, fun a ha => ?_⟩ <;> simp only [step, hp, ha]
  case recovery =>
    refine ⟨fun ha => ?_, fun ha => ?_, fun a ha => ?_, fun ha => ?_⟩ <;> simp only [step, hp, ha]

end Sys2Proof.Proofs
end

section
/-!
PROOF. Memory in canonical form (O60): what it says of a state and of an outcome, and how branches, folds and record updates keep
it. Below, each function of the model that may change memory has one lemma: from a canonical state it gives a canonical state. A
function that only sets other fields needs none: what it leaves is canonical by `record_canonical`, or as it stands.
-/
namespace Sys2Proof.Proofs

open Sys2Proof.Machine Sys2Proof.Laws

/-- The memory of a state is in its canonical form. -/
def Canonical (s : State) : Prop := s.mem.wf = true

/-- A step that comes about leaves memory in its canonical form. -/
def CanonicalOut : Out → Prop
  | .next t => Canonical t
  | _ => True

theorem ite_canonical {c : Prop} [Decidable c] {s t : State} (hs : Canonical s) (ht : Canonical t) :
    Canonical (if c then s else t) := by
  split
  · exact hs
  · exact ht

theorem ite_canonicalOut {c : Prop} [Decidable c] {o p : Out} (ho : CanonicalOut o) (hp : CanonicalOut p) :
    CanonicalOut (if c then o else p) := by
  split
  · exact ho
  · exact hp

theorem ite_canonicalFst {α : Type} {c : Prop} [Decidable c] {o p : State × α} (ho : Canonical o.1) (hp : Canonical p.1) :
    Canonical (if c then o else p).1 := by
  split
  · exact ho
  · exact hp

theorem foldl_canonical {α : Type} {f : State → α → State} {s : State} {l : List α}
    (hf : ∀ t a, Canonical t → Canonical (f t a))
    (h : Canonical s) : Canonical (l.foldl f s) :=
  List.foldlRecOn (motive := Canonical) l f h fun t ht a _ => hf t a ht

theorem canonical_of_fst {α : Type} {p : State × α} {t : State} {x : α} (e : p = (t, x)) (h : Canonical p.1) : Canonical
    t := by
  rw [e] at h; exact h

theorem canonicalOut_next {o : Out} {t : State} (e : o = .next t) (h : CanonicalOut o) : Canonical t := by
  rw [e] at h; exact h


theorem writeAll_canonical {s t : State} {cells : List (Nat × Byte)} (e : t.mem = Memory.writeAll s.mem cells)
    (h : Canonical s) : Canonical t := by
  unfold Canonical; rw [e]; exact writeAll_wf h cells

/-- What leaves memory alone leaves it canonical. -/
theorem record_canonical {s : State} {power} {me} {agents} {agenda} {free} {poison} {units} {launches} {graphs} {phases}
    {nextAge} {nextInst} {nextSeq} {tables} {barriers} {clusters} {dies} {cores} {contexts} {cr} {padOwner} {parts}
    {pending} {commits} {supAsid} {supRoot} {hsem} {msix} {bar0} {monitors} {snoops} {hdmRead} {barRead} {ports} {packets}
    {inbox} {requests} {nextTag} {topo} {routes} {exchange} {retired} {overflow} {badRows} {thermalAt} {flash1} {flash2}
    {revoked} {minSvn1} {minSvn2} {secret} {identity} {certificate} {m0} {m1} {m2} {m3} {reports} (hs : Canonical s) :
    Canonical ⟨power, me, agents, agenda, free, s.mem, poison, units, launches, graphs, phases, nextAge, nextInst, nextSeq,
    tables, barriers, clusters, dies, cores, contexts, cr, padOwner, parts, pending, commits, supAsid, supRoot, hsem, msix,
    bar0, monitors, snoops, hdmRead, barRead, ports, packets, inbox, requests, nextTag, topo, routes, exchange, retired,
    overflow, badRows, thermalAt, flash1, flash2, revoked, minSvn1, minSvn2, secret, identity, certificate, m0, m1, m2, m3,
    reports⟩ := hs

end Sys2Proof.Proofs
end

section
/-!
PROOF. Memory stays in canonical form (O60), function by function: accesses to memory, traps, lanes and barriers.
-/
namespace Sys2Proof.Proofs

open Sys2Proof.Machine Sys2Proof.Laws

section

variable {s : State}

/-! Machine/Route. -/

theorem sendUnit_canonical {opc unit arg data r} (hs : Canonical s) : Canonical (s.sendUnit opc unit arg data r) :=
  record_canonical (record_canonical (ite_canonical hs hs))

theorem sendWrites_canonical {ks r} (hs : Canonical s) : Canonical (s.sendWrites ks r) :=
  foldl_canonical (fun _ _ ht => sendUnit_canonical ht) hs

theorem sendReads_canonical {ks r} (hs : Canonical s) : Canonical (s.sendReads ks r) :=
  foldl_canonical (fun _ _ ht => sendUnit_canonical ht) hs

/-! Machine/Ops. -/

theorem underRegs_canonical {ctx : Nat} {regs : Store DWord} {f : State → Out} {s : State}
    (hf : ∀ t, Canonical t → CanonicalOut (f t)) (hs : Canonical s) :
    CanonicalOut (underRegs ctx regs f s) := by
  unfold underRegs
  split
  · rename_i e
    exact record_canonical (canonicalOut_next e (hf _ hs))
  · exact hf _ hs

theorem withRegs_canonical {ctx regs f} (hs : Canonical s) (hf : ∀ t, Canonical t → Canonical (f t)) :
    Canonical (s.withRegs ctx regs f) :=
  record_canonical (hf _ hs)

theorem setAgent_canonical {a} (hs : Canonical s) : Canonical (s.setAgent a) := ite_canonical hs hs

theorem zeroBytes_canonical {base len} (hs : Canonical s) : Canonical (s.zeroBytes base len) := filter_memory_wf hs _

theorem mapMonitors_canonical {f} (hs : Canonical s) : Canonical (s.mapMonitors f) := ite_canonical hs hs

theorem holdLines_canonical {h keys} (hs : Canonical s) : Canonical (s.holdLines h keys) := mapMonitors_canonical hs

theorem passHold_canonical {p h} (hs : Canonical s) : Canonical (s.passHold p h) := mapMonitors_canonical hs

theorem noteWrites_canonical {w cells} (hs : Canonical s) : Canonical (s.noteWrites w cells) :=
  ite_canonical (holdLines_canonical (mapMonitors_canonical hs)) (mapMonitors_canonical hs)

theorem writeMemAs_canonical {w cells} (hs : Canonical s) : Canonical (s.writeMemAs w cells) :=
  noteWrites_canonical (writeAll_canonical rfl hs)

theorem writeMem_canonical {cells} (hs : Canonical s) : Canonical (s.writeMem cells) := writeMemAs_canonical hs

theorem ctxWrite_canonical {ctx va bs} (hs : Canonical s) : Canonical (s.ctxWrite ctx va bs) := writeMem_canonical hs

theorem logExposures_canonical {l r} (hs : Canonical s) : Canonical (s.logExposures l r) := by
  induction r generalizing s with
  | nil =>
    unfold State.logExposures
    exact hs
  | cons x l ih =>
    unfold State.logExposures
    exact ih (record_canonical (ite_canonical hs (ctxWrite_canonical hs)))

theorem sendOut_canonical {l cells write} (hs : Canonical s) (hwrite : ∀ t cells, Canonical t → Canonical (write t cells)) :
    Canonical (s.sendOut l cells write) := by
  unfold State.sendOut
  dsimp only
  split
  · exact record_canonical (sendWrites_canonical (hwrite _ _ hs))
  · exact sendWrites_canonical (hwrite _ _ hs)

theorem expose_canonical {l} (hs : Canonical s) : Canonical (s.expose l) := by
  unfold State.expose
  split
  · exact hs
  · exact logExposures_canonical (sendOut_canonical hs (fun _ _ ht => writeMemAs_canonical ht))

theorem exposeUnit_canonical {u} (hs : Canonical s) : Canonical (s.exposeUnit u) := by
  unfold State.exposeUnit
  split
  · exact expose_canonical hs
  · exact hs

theorem plainWrite_canonical {l va cells} (hs : Canonical s) : Canonical (s.plainWrite l va cells) :=
  ite_canonical (logExposures_canonical (writeMemAs_canonical hs)) (writeMemAs_canonical hs)

theorem launchWrite_canonical {ctx id va cells} (hs : Canonical s) : Canonical (s.launchWrite ctx id va cells) := by
  unfold State.launchWrite
  dsimp only
  split
  · exact writeMemAs_canonical hs
  · rename_i e
    split
    · exact plainWrite_canonical hs
    · exact ite_canonical (plainWrite_canonical (expose_canonical hs)) (writeMemAs_canonical hs)

theorem sysWrite_canonical {u cells} (hs : Canonical s) : Canonical (s.sysWrite u cells) := by
  refine record_canonical ?_
  split
  · exact launchWrite_canonical hs
  · exact writeMem_canonical hs

theorem writeVia_canonical {u va cells} (hs : Canonical s) : Canonical (s.writeVia u va cells) := by
  unfold State.writeVia
  dsimp only
  split
  · rename_i e
    split
    · exact writeMem_canonical hs
    · exact launchWrite_canonical hs
  · exact writeMem_canonical hs

theorem writeCells_canonical {u cells} (hs : Canonical s) : Canonical (s.writeCells u cells) := writeVia_canonical hs

theorem takeTrapWith_canonical {c i} (hs : Canonical s) : Canonical (takeTrapWith s c i) := ite_canonical hs hs

theorem takeTrap_canonical {c} (hs : Canonical s) : Canonical (takeTrap s c) := takeTrapWith_canonical hs

theorem takeTrapAfter_canonical {c i size} (hs : Canonical s) : Canonical (takeTrapAfter s c i size) := ite_canonical hs hs

theorem countInto_canonical {b bytes arrivals status r} (hs : Canonical s) : Canonical
    (s.countInto b bytes arrivals status r) :=
  ite_canonical hs hs

theorem retainOpt_canonical {b} (hs : Canonical s) : Canonical (s.retainOpt b) := by
  unfold State.retainOpt
  split
  · exact hs
  · exact hs

theorem countOpt_canonical {b bytes status r} (hs : Canonical s) : Canonical (s.countOpt b bytes status r) := by
  unfold State.countOpt
  split
  · exact countInto_canonical hs
  · exact hs

theorem arriveOpt_canonical {b status r} (hs : Canonical s) : Canonical (s.arriveOpt b status r) := by
  unfold State.arriveOpt
  split
  · exact countInto_canonical hs
  · exact hs

theorem acquire_canonical {a c keys} (hs : Canonical s) : Canonical (s.acquire a c keys) := passHold_canonical hs

theorem releaseAt_canonical {a c keys} (hs : Canonical s) : Canonical (s.releaseAt a c keys) :=
  foldl_canonical (fun _ _ ht => passHold_canonical ht) hs

theorem keepPlaces_canonical {keys write} (hs : Canonical s) (hwrite : ∀ t, Canonical t → Canonical (write t)) :
    Canonical (s.keepPlaces keys write) :=
  mapMonitors_canonical (hwrite _ hs)

theorem atomicOrder_canonical {a c keys write} (hs : Canonical s) (hwrite : ∀ t, Canonical t → Canonical (write t)) :
    Canonical (s.atomicOrder a c keys write) :=
  ite_canonical (record_canonical (releaseAt_canonical (holdLines_canonical (keepPlaces_canonical (acquire_canonical hs)
    (fun _ hu => hwrite _ hu))))) (releaseAt_canonical (holdLines_canonical (keepPlaces_canonical (acquire_canonical hs)
      (fun _ ht => hwrite _ ht))))

theorem fenceAcquire_canonical {a c} (hs : Canonical s) : Canonical (s.fenceAcquire a c) := passHold_canonical hs

theorem handTo_canonical {a b} (hs : Canonical s) : Canonical (s.handTo a b) := passHold_canonical hs

theorem takeFrom_canonical {a b} (hs : Canonical s) : Canonical (s.takeFrom a b) := passHold_canonical hs

/-! Machine/Operands. -/

theorem guard_canonical {n k} (hs : Canonical s) (hk : ∀ t, Canonical t → CanonicalOut (k t)) :
    CanonicalOut (Machine.guard n s k) := by
  unfold Machine.guard
  dsimp only
  split
  · exact takeTrap_canonical hs
  · exact ite_canonicalOut hs (hk _ hs)

theorem lane1_canonical {f n x d} (hs : Canonical s) : CanonicalOut (lane1 f n x d s) :=
  guard_canonical hs (fun _ ht => record_canonical ht)

theorem lane2_canonical {f n y x d} (hs : Canonical s) : CanonicalOut (lane2 f n y x d s) :=
  guard_canonical hs (fun _ ht => record_canonical ht)

theorem lane3_canonical {f y x d} (hs : Canonical s) : CanonicalOut (lane3 f y x d s) :=
  guard_canonical hs (fun _ ht => record_canonical ht)

theorem lane3One_canonical {f x d} (hs : Canonical s) : CanonicalOut (lane3One f x d s) :=
  guard_canonical hs (fun _ ht => record_canonical ht)

theorem laneImm_canonical {f imm x d} (hs : Canonical s) : CanonicalOut (laneImm f imm x d s) :=
  guard_canonical hs (fun _ ht => record_canonical ht)

theorem half2_canonical {f n x d} (hs : Canonical s) : CanonicalOut (half2 f n x d s) :=
  guard_canonical hs (fun _ ht => record_canonical ht)

theorem halfImm_canonical {f n imm d} (hs : Canonical s) : CanonicalOut (halfImm f n imm d s) :=
  guard_canonical hs (fun _ ht => record_canonical ht)

theorem group2_canonical {f y x d} (hs : Canonical s) : CanonicalOut (group2 f y x d s) :=
  guard_canonical hs (fun _ ht => record_canonical ht)

/-! Machine/Translate. -/

theorem queueMiss_canonical {u k die asid va write reads} (hs : Canonical s) :
    Canonical (s.queueMiss u k die asid va write reads) :=
  ite_canonical hs hs

theorem answerContention_canonical {die k asid va} (hs : Canonical s) : Canonical (s.answerContention die k asid va) := by
  unfold State.answerContention
  split
  · exact hs
  · exact hs

theorem translate_canonical {u k die asid root va write reads} (hs : Canonical s) :
    Canonical (s.translate u k die asid root va write reads).1 := by
  unfold State.translate
  dsimp only
  split
  · exact hs
  · rename_i e
    refine ite_canonicalFst (answerContention_canonical hs) (ite_canonicalFst (queueMiss_canonical hs) ?_)
    split
    · exact hs
    · exact ite_canonicalFst hs (record_canonical (ite_canonical hs (sysWrite_canonical hs)))

theorem vaByte_canonical {u k die ctx va write reads} (hs : Canonical s) : Canonical
    (s.vaByte u k die ctx va write reads).1 :=
  translate_canonical hs

theorem myByte_canonical {va write reads} (hs : Canonical s) : Canonical (s.myByte va write reads).1 := translate_canonical hs

/-! Machine/Address. -/

theorem laneTrap_canonical {e} (hs : Canonical s) : Canonical (laneTrap s e) := takeTrapWith_canonical hs

/-! Machine/Lane. -/

theorem reduce_canonical {op ident n x d} (hs : Canonical s) : CanonicalOut (reduce op ident n x d s) :=
  guard_canonical hs (fun _ ht => record_canonical ht)

theorem shuffle_canonical {j n y x d} (hs : Canonical s) : CanonicalOut (shuffle j n y x d s) :=
  guard_canonical hs (fun _ ht => record_canonical ht)

theorem rngElement_canonical {f n y x d} (hs : Canonical s) : CanonicalOut (rngElement f n y x d s) :=
  guard_canonical hs (fun _ ht => record_canonical ht)

/-! Machine/LoadStore. -/

theorem acquired_canonical {acq xs} (hs : Canonical s) : Canonical (s.acquired acq xs) := by
  unfold State.acquired
  split
  · exact acquire_canonical hs
  · exact hs

theorem loadLanes_canonical {w off a d acq} (hs : Canonical s) : Canonical (s.loadLanes w off a d acq) := by
  unfold State.loadLanes
  dsimp only
  split
  · exact laneTrap_canonical hs
  · exact record_canonical (acquired_canonical hs)

theorem laneLoad_canonical {w f a d} (hs : Canonical s) : CanonicalOut (laneLoad w f a d s) :=
  guard_canonical hs (fun _ ht => loadLanes_canonical ht)

theorem storeLanes_canonical {w off a d rel} (hs : Canonical s) : Canonical (s.storeLanes w off a d rel) := by
  refine ite_canonical hs ?_
  dsimp only
  split
  · exact laneTrap_canonical hs
  · exact hs

theorem laneStore_canonical {w f a d} (hs : Canonical s) : CanonicalOut (laneStore w f a d s) :=
  guard_canonical hs (fun _ ht => storeLanes_canonical ht)

theorem notePublish_canonical {a e} (hs : Canonical s) : Canonical (s.notePublish a e) := by
  refine ite_canonical ?_ hs
  split
  · rename_i e1
    split
    · rename_i e2
      split
      · exact ite_canonical hs hs
      · exact hs
    · exact hs
  · exact hs

theorem performOne_canonical {a} (hs : Canonical s) : Canonical (s.performOne a) := by
  unfold State.performOne
  dsimp only
  split
  · exact hs
  · exact ite_canonical (record_canonical (ite_canonical (releaseAt_canonical (holdLines_canonical (sendWrites_canonical
    (notePublish_canonical (writeCells_canonical (setAgent_canonical hs)))))) (holdLines_canonical (sendWrites_canonical
      (notePublish_canonical (writeCells_canonical (setAgent_canonical hs))))))) (ite_canonical (releaseAt_canonical
        (holdLines_canonical (sendWrites_canonical (notePublish_canonical (writeCells_canonical (setAgent_canonical hs))))))
          (holdLines_canonical (sendWrites_canonical (notePublish_canonical (writeCells_canonical (setAgent_canonical hs))))))

theorem drainFrom_canonical {n} (hs : Canonical s) : Canonical (drainFrom n s) := by
  induction n generalizing s with
  | zero =>
    unfold drainFrom
    exact hs
  | succ n ih =>
    unfold drainFrom
    exact ite_canonical (ih (performOne_canonical hs)) hs

theorem drain_canonical (hs : Canonical s) : Canonical s.drain := drainFrom_canonical hs

theorem drained_canonical {k} (hs : Canonical s) (hk : ∀ t, Canonical t → CanonicalOut (k t)) : CanonicalOut (s.drained k) :=
  ite_canonicalOut (hk _ (drain_canonical hs)) (drain_canonical hs)

theorem fenced_canonical {k} (hs : Canonical s) (hk : ∀ t, Canonical t → CanonicalOut (k t)) : CanonicalOut (s.fenced k) :=
  ite_canonicalOut (hk _ (drain_canonical hs)) (record_canonical (drain_canonical hs))

theorem execStorePerform_canonical {w} (hs : Canonical s) : CanonicalOut (execStorePerform w s) := by
  unfold execStorePerform
  split
  · exact trivial
  · exact ite_canonicalOut (performOne_canonical hs) trivial

theorem execLdnb_canonical {f a d} (hs : Canonical s) : CanonicalOut (execLdnb f a d s) := by
  refine guard_canonical hs (fun _ ht => ?_)
  dsimp only
  split
  · exact takeTrap_canonical ht
  · rename_i e
    split
    · exact laneTrap_canonical ht
    · exact record_canonical ht

theorem execStva_canonical {f a d} (hs : Canonical s) : CanonicalOut (execStva f a d s) := by
  refine guard_canonical hs (fun _ ht => ?_)
  dsimp only
  split
  · exact takeTrap_canonical ht
  · rename_i e
    refine ite_canonicalOut ht ?_
    split
    · exact laneTrap_canonical ht
    · exact record_canonical (record_canonical ht)

theorem reportLate_canonical {u die t thr pc} (hs : Canonical s) : Canonical (s.reportLate u die t thr pc) :=
  ite_canonical (ite_canonical hs hs) hs

theorem execTimedStorePerform_canonical {core i} (hs : Canonical s) : CanonicalOut (execTimedStorePerform core i s) := by
  unfold execTimedStorePerform
  dsimp only
  split
  · exact trivial
  · exact ite_canonicalOut trivial (reportLate_canonical (holdLines_canonical (writeCells_canonical hs)))

theorem execLdnbPerform_canonical {w} (hs : Canonical s) : CanonicalOut (execLdnbPerform w s) := by
  unfold execLdnbPerform
  dsimp only
  split
  · exact trivial
  · rename_i e
    split
    · refine ite_canonicalOut trivial ?_
      split
      · exact record_canonical (setAgent_canonical hs)
      · exact ite_canonicalOut (ite_canonicalOut (record_canonical (setAgent_canonical hs)) (record_canonical
        (setAgent_canonical hs))) (setAgent_canonical hs)
    · exact trivial

theorem contribute_canonical {u c cells} (hs : Canonical s) : Canonical (s.contribute u c cells) := by
  unfold State.contribute
  split
  · rename_i e
    refine ite_canonical (writeCells_canonical hs) ?_
    split
    · exact hs
    · exact hs
  · exact hs

theorem atomicWord_canonical {a op key b c} (hs : Canonical s) : Canonical (s.atomicWord a op key b c).1 := by
  unfold State.atomicWord
  dsimp only
  split
  · exact contribute_canonical hs
  · exact writeCells_canonical hs

theorem atomicLanes_canonical {a op l} (hs : Canonical s) : Canonical (s.atomicLanes a op l).1 := by
  induction l generalizing s with
  | nil =>
    unfold State.atomicLanes
    exact hs
  | cons x l ih =>
    unfold State.atomicLanes
    exact ih (atomicWord_canonical hs)

theorem performAtomic_canonical {a op c work} (hs : Canonical s) : Canonical (s.performAtomic a op c work).1 :=
  atomicOrder_canonical hs (fun _ ht => notePublish_canonical (atomicLanes_canonical ht))

theorem performPending_canonical {a} (hs : Canonical s) : Canonical (s.performPending a) := by
  unfold State.performPending
  dsimp only
  split
  · exact hs
  · exact setAgent_canonical (performAtomic_canonical hs)

theorem atomicCore_canonical {op c f a d} (hs : Canonical s) : CanonicalOut (s.atomicCore op c f a d) := by
  unfold State.atomicCore
  dsimp only
  split
  · exact laneTrap_canonical hs
  · exact hs
  · refine drained_canonical hs (fun _ ht => ?_)
    split
    · exact record_canonical ht
    · exact record_canonical (performAtomic_canonical ht)

theorem supAccess_canonical {va w write reads} (hs : Canonical s) : Canonical (s.supAccess va w write reads).1 := by
  refine ite_canonicalFst hs ?_
  dsimp only
  split
  · exact myByte_canonical hs
  · exact myByte_canonical hs

theorem askPeer_canonical {opc key arg d off ends} (hs : Canonical s) : Canonical (s.askPeer opc key arg d off ends) :=
  record_canonical (sendUnit_canonical hs)

theorem supTrap_canonical {c va} (hs : Canonical s) : Canonical (supTrap s c va) := takeTrapWith_canonical hs

theorem atomicSup_canonical {op c f a d} (hs : Canonical s) : CanonicalOut (s.atomicSup op c f a d) := by
  unfold State.atomicSup
  dsimp only
  split
  · rename_i e
    exact supTrap_canonical (canonical_of_fst e (supAccess_canonical hs))
  · rename_i e
    exact canonical_of_fst e (supAccess_canonical hs)
  · rename_i e
    exact drained_canonical (canonical_of_fst e (supAccess_canonical hs)) (fun _ ht => ite_canonicalOut ht (ite_canonicalOut
      (askPeer_canonical ht) (record_canonical (atomicOrder_canonical ht (fun _ hu => writeCells_canonical hu)))))

theorem atomic_canonical {op c f a d} (hs : Canonical s) : CanonicalOut (atomic op c f a d s) :=
  ite_canonicalOut (guard_canonical hs (fun _ ht => atomicSup_canonical ht)) (guard_canonical hs
    (fun _ ht => atomicCore_canonical ht))

theorem addrTrap_canonical {c ea} (hs : Canonical s) : Canonical (addrTrap s c ea) := takeTrapWith_canonical hs

theorem groupLoad_canonical {f a d acq} (hs : Canonical s) : Canonical (s.groupLoad f a d acq) := by
  refine ite_canonical ?_ ?_
  · dsimp only
    split
    · rename_i e
      exact supTrap_canonical (canonical_of_fst e (supAccess_canonical hs))
    · rename_i e
      exact canonical_of_fst e (supAccess_canonical hs)
    · rename_i e
      exact ite_canonical (askPeer_canonical (canonical_of_fst e (supAccess_canonical hs))) (record_canonical
        (acquired_canonical (canonical_of_fst e (supAccess_canonical hs))))
  · dsimp only
    split
    · exact addrTrap_canonical hs
    · exact record_canonical (acquired_canonical hs)

theorem groupStore_canonical {f a d rel} (hs : Canonical s) : Canonical (s.groupStore f a d rel) := by
  refine ite_canonical hs (ite_canonical ?_ ?_)
  · dsimp only
    split
    · rename_i e
      exact supTrap_canonical (canonical_of_fst e (supAccess_canonical hs))
    · rename_i e
      exact canonical_of_fst e (supAccess_canonical hs)
    · rename_i e
      exact record_canonical (canonical_of_fst e (supAccess_canonical hs))
  · dsimp only
    split
    · exact addrTrap_canonical hs
    · exact hs

/-! Machine/Barriers. -/

theorem unbind_canonical {w slot} (hs : Canonical s) : Canonical (s.unbind w slot) := by
  unfold State.unbind
  split
  · exact hs
  · exact hs

theorem releaseTable_canonical {w} (hs : Canonical s) : Canonical (s.releaseTable w) :=
  record_canonical (foldl_canonical (fun _ _ ht => unbind_canonical ht) hs)

theorem execBalloc_canonical {b a d} (hs : Canonical s) : CanonicalOut (execBalloc b a d s) := by
  refine guard_canonical hs (fun _ ht => ite_canonicalOut (record_canonical ht) ?_)
  dsimp only
  split
  · exact record_canonical ht
  · rename_i e
    split
    · exact record_canonical ht
    · exact record_canonical (record_canonical (record_canonical ht))

theorem overcount_canonical {h} (hs : Canonical s) : Canonical (overcount s h) := takeTrapWith_canonical hs

theorem withHandle_canonical {h k} (hs : Canonical s) (hk : ∀ (a : Nat), CanonicalOut (k a)) :
    CanonicalOut (withHandle s h k) := by
  unfold withHandle
  split
  · exact takeTrap_canonical hs
  · exact hk _

theorem makeArrival_canonical {a h} (hs : Canonical s) : Canonical (s.makeArrival a h) :=
  ite_canonical (record_canonical (handTo_canonical (setAgent_canonical hs))) (setAgent_canonical hs)

theorem execBarvArrival_canonical {w} (hs : Canonical s) : CanonicalOut (execBarvArrival w s) := by
  unfold execBarvArrival
  split
  · exact trivial
  · rename_i e
    split
    · exact trivial
    · exact ite_canonicalOut trivial (makeArrival_canonical hs)

theorem execBwaitt_canonical {b a d} (hs : Canonical s) : CanonicalOut (execBwaitt b a d s) := by
  refine guard_canonical hs (fun _ ht => ?_)
  dsimp only
  split
  · exact takeTrap_canonical ht
  · exact withHandle_canonical ht (fun _ => ite_canonicalOut (record_canonical (takeFrom_canonical ht)) (ite_canonicalOut
    (record_canonical ht) (record_canonical ht)))

theorem execBwaitReturn_canonical {w} (hs : Canonical s) : CanonicalOut (execBwaitReturn w s) := by
  unfold execBwaitReturn
  split
  · exact trivial
  · rename_i e
    split
    · exact ite_canonicalOut (setAgent_canonical (takeFrom_canonical hs)) trivial
    · exact trivial

theorem execBwaittTimeout_canonical {w} (hs : Canonical s) : CanonicalOut (execBwaittTimeout w s) := by
  unfold execBwaittTimeout
  split
  · exact trivial
  · rename_i e
    split
    · exact ite_canonicalOut (setAgent_canonical hs) trivial
    · exact trivial

/-! Machine/Control. -/

theorem branchIf_canonical {c target} (hs : Canonical s) : Canonical (s.branchIf c target) := ite_canonical hs hs

theorem jumpReg_canonical {x} (hs : Canonical s) : Canonical (s.jumpReg x) := ite_canonical (takeTrap_canonical hs) hs

theorem diverge_canonical {t f target next} (hs : Canonical s) : Canonical (s.diverge t f target next) :=
  ite_canonical hs (ite_canonical hs (takeTrap_canonical hs))

end

end Sys2Proof.Proofs
end

section
/-!
PROOF. Memory stays in canonical form (O60), function by function: tensors, copies and the engines.
-/
namespace Sys2Proof.Proofs

open Sys2Proof.Machine Sys2Proof.Laws

section

variable {s : State}

/-! Machine/Tensor. -/

theorem engineByte_canonical {e space addr write} (hs : Canonical s) : Canonical (s.engineByte e space addr write).1 := by
  refine ite_canonicalFst ?_ ?_
  · dsimp only
    split
    · exact vaByte_canonical hs
    · exact vaByte_canonical hs
    · exact vaByte_canonical hs
  · split
    · exact hs
    · exact ite_canonicalFst hs hs
    · exact hs

theorem engineRead_canonical {e space addr} (hs : Canonical s) : Canonical (s.engineRead e space addr).1 := by
  unfold State.engineRead
  dsimp only
  split
  · rename_i e
    exact ite_canonicalFst (canonical_of_fst e (engineByte_canonical hs)) (ite_canonicalFst (canonical_of_fst e
      (engineByte_canonical hs)) (canonical_of_fst e (engineByte_canonical hs)))
  · rename_i e
    exact ite_canonicalFst (canonical_of_fst e (engineByte_canonical hs)) (canonical_of_fst e (engineByte_canonical hs))
  · rename_i e
    exact canonical_of_fst e (engineByte_canonical hs)

theorem engineDest_canonical {e space addr} (hs : Canonical s) : Canonical (s.engineDest e space addr).1 := by
  unfold State.engineDest
  split
  · rename_i e
    exact canonical_of_fst e (engineByte_canonical hs)
  · rename_i e
    exact canonical_of_fst e (engineByte_canonical hs)
  · rename_i e
    exact canonical_of_fst e (engineByte_canonical hs)

theorem engineBytes_canonical {e space l} (hs : Canonical s) : Canonical (s.engineBytes e space l).1 := by
  induction l generalizing s with
  | nil =>
    unfold State.engineBytes
    exact hs
  | cons x l ih =>
    unfold State.engineBytes
    exact ih (engineRead_canonical hs)

theorem engineDests_canonical {e space l} (hs : Canonical s) : Canonical (s.engineDests e space l).1 := by
  induction l generalizing s with
  | nil =>
    unfold State.engineDests
    exact hs
  | cons x l ih =>
    unfold State.engineDests
    exact ih (engineDest_canonical hs)

theorem putBytes_canonical {e space cs} (hs : Canonical s) : Canonical (s.putBytes e space cs) :=
  holdLines_canonical (foldl_canonical (fun _ _ ht => writeVia_canonical ht) hs)

theorem engineWrite_canonical {e space xs} (hs : Canonical s) : Canonical (s.engineWrite e space xs).1 :=
  putBytes_canonical (engineDests_canonical hs)

theorem elemRead_canonical {e r i0 i1 i2 i3} (hs : Canonical s) : Canonical (s.elemRead e r i0 i1 i2 i3).1 :=
  engineBytes_canonical hs

theorem slotWrite_canonical {e r i0 i1 i2 i3 code} (hs : Canonical s) : Canonical (s.slotWrite e r i0 i1 i2 i3 code).1 :=
  ite_canonicalFst (engineWrite_canonical hs) (engineWrite_canonical (engineBytes_canonical hs))

theorem zeroSlots_canonical {e r i1 i2 i3 l} (hs : Canonical s) : Canonical (s.zeroSlots e r i1 i2 i3 l).1 := by
  induction l generalizing s with
  | nil =>
    unfold State.zeroSlots
    exact hs
  | cons x l ih =>
    unfold State.zeroSlots
    exact ih (slotWrite_canonical hs)

theorem elemWrite_canonical {e r i0 i1 i2 i3 code} (hs : Canonical s) : Canonical (s.elemWrite e r i0 i1 i2 i3 code).1 :=
  zeroSlots_canonical (slotWrite_canonical hs)

theorem tileRead_canonical {e t i3 i j} (hs : Canonical s) : Canonical (s.tileRead e t i3 i j).1 :=
  ite_canonicalFst (elemRead_canonical hs) hs

theorem tileWrite_canonical {e t i3 i j code} (hs : Canonical s) : Canonical (s.tileWrite e t i3 i j code).1 :=
  ite_canonicalFst (elemWrite_canonical hs) hs

theorem tileWriteAll_canonical {e t i3 l} (hs : Canonical s) : Canonical (s.tileWriteAll e t i3 l).1 := by
  induction l generalizing s with
  | nil =>
    unfold State.tileWriteAll
    exact hs
  | cons x l ih =>
    unfold State.tileWriteAll
    exact ih (tileWrite_canonical hs)

theorem subTrap_canonical {c sub} (hs : Canonical s) : Canonical (subTrap s c sub) := takeTrapWith_canonical hs

theorem execTdef_canonical {b a} (hs : Canonical s) : CanonicalOut (execTdef b a s) := by
  refine guard_canonical hs (fun _ ht => ?_)
  dsimp only
  split
  · exact takeTrap_canonical ht
  · rename_i e
    split
    · exact addrTrap_canonical ht
    · split
      · exact subTrap_canonical ht
      · exact record_canonical (record_canonical ht)
  · rename_i e
    split
    · exact addrTrap_canonical ht
    · exact ite_canonicalOut (record_canonical (record_canonical ht)) (subTrap_canonical ht)

theorem execTqry_canonical {b a d} (hs : Canonical s) : CanonicalOut (execTqry b a d s) := by
  refine guard_canonical hs (fun _ ht => ?_)
  dsimp only
  split
  · exact takeTrap_canonical ht
  · exact record_canonical ht
  · exact record_canonical ht

theorem execTfree_canonical {a} (hs : Canonical s) : CanonicalOut (execTfree a s) := by
  refine guard_canonical hs (fun _ ht => ?_)
  split
  · exact takeTrap_canonical ht
  · exact record_canonical (record_canonical ht)
  · exact record_canonical (record_canonical ht)

theorem execTscl_canonical {b a} (hs : Canonical s) : CanonicalOut (execTscl b a s) := by
  refine guard_canonical hs (fun _ ht => ?_)
  dsimp only
  split
  · rename_i e
    split
    · exact takeTrap_canonical ht
    · exact ite_canonicalOut (subTrap_canonical ht) (ite_canonicalOut (subTrap_canonical ht) (record_canonical
      (record_canonical ht)))
  · exact takeTrap_canonical ht

/-! Machine/Engine. -/

theorem forget_canonical {seq} (hs : Canonical s) : Canonical (s.forget seq) := ite_canonical hs hs

theorem complete_canonical {c time} (hs : Canonical s) : Canonical (s.complete c time) := by
  unfold State.complete
  dsimp only
  split
  · exact ite_canonical (record_canonical (forget_canonical hs)) (forget_canonical hs)
  · exact countInto_canonical (passHold_canonical (ite_canonical (record_canonical (forget_canonical hs))
      (forget_canonical hs)))

theorem destKeys_canonical {e space l} (hs : Canonical s) : Canonical (s.destKeys e space l).1 := by
  induction l generalizing s with
  | nil =>
    unfold State.destKeys
    exact hs
  | cons x l ih =>
    unfold State.destKeys
    exact ih (engineDest_canonical hs)

theorem combineAt_canonical {e op f space addrs ks x} (hs : Canonical s) : Canonical (s.combineAt e op f space addrs ks x) :=
  ite_canonical (contribute_canonical hs) (putBytes_canonical hs)

theorem updateElem_canonical {e op f space addrs x} (hs : Canonical s) : Canonical (s.updateElem e op f space addrs x).1 := by
  unfold State.updateElem
  dsimp only
  split
  · rename_i e
    exact canonical_of_fst e (destKeys_canonical hs)
  · rename_i e
    exact ite_canonicalFst (engineBytes_canonical (canonical_of_fst e (destKeys_canonical hs))) (combineAt_canonical
      (engineBytes_canonical (canonical_of_fst e (destKeys_canonical hs))))

theorem combineBytes_canonical {e op f space w n l} (hs : Canonical s) : Canonical (s.combineBytes e op f space w n l).1 := by
  induction l generalizing s n with
  | nil =>
    unfold State.combineBytes
    exact hs
  | cons x l ih =>
    unfold State.combineBytes
    exact ih (updateElem_canonical hs)

theorem cleanUnits_canonical {u ks} (hs : Canonical s) : Canonical (s.cleanUnits u ks) := ite_canonical hs hs

theorem spreadWrites_canonical {e ks} (hs : Canonical s) : Canonical (s.spreadWrites e ks) :=
  foldl_canonical (fun _ _ ht => foldl_canonical (fun _ _ hu => contribute_canonical hu) (writeCells_canonical ht)) hs

theorem copyReplicas_canonical {u die cells} (hs : Canonical s) : Canonical (s.copyReplicas u die cells) :=
  launchWrite_canonical hs

theorem commitWrites_canonical {before after : State} {e : Issuer} {ks : List Nat} {timed : Option (DWord × DWord × Nat)}
    {done : Completion} (hafter : Canonical after) :
    Canonical (before.commitWrites after e ks timed done) :=
  ite_canonical (spreadWrites_canonical hafter) (writeAll_canonical rfl (copyReplicas_canonical hafter))

theorem commitApply_canonical {c : Commit} (hs : Canonical s) : Canonical (c.apply s) := holdLines_canonical
    (launchWrite_canonical hs)

theorem endCommit_canonical {c now} (hs : Canonical s) : Canonical (s.endCommit c now) := by
  unfold State.endCommit
  dsimp only
  split
  · exact reportLate_canonical (complete_canonical hs)
  · exact complete_canonical hs

theorem commitStep_canonical {i} (hs : Canonical s) : CanonicalOut (s.commitStep i) := by
  unfold State.commitStep
  dsimp only
  split
  · exact trivial
  · exact ite_canonicalOut (endCommit_canonical (record_canonical (commitApply_canonical hs))) (ite_canonicalOut trivial hs)

/-! Machine/Copy. -/

theorem missOnAccept_canonical {die} (hs : Canonical s) : Canonical (s.missOnAccept die) := ite_canonical hs hs

theorem acceptCopy_canonical {work bar handle time dest} (hs : Canonical s) :
    Canonical (s.acceptCopy work bar handle time dest) :=
  record_canonical (retainOpt_canonical (record_canonical (missOnAccept_canonical hs)))

theorem copyTile_canonical {time b a d} (hs : Canonical s) : Canonical (s.copyTile time b a d) := by
  unfold State.copyTile
  dsimp only
  split
  · exact subTrap_canonical hs
  · exact ite_canonical hs (record_canonical (acceptCopy_canonical hs))

theorem execCpyt_canonical {b a d} (hs : Canonical s) : CanonicalOut (execCpyt b a d s) := by
  refine guard_canonical hs (fun _ ht => ?_)
  split
  · exact takeTrap_canonical ht
  · exact copyTile_canonical ht

theorem rowCopy_canonical {gather b a d} (hs : Canonical s) : CanonicalOut (rowCopy gather b a d s) :=
  guard_canonical hs (fun _ ht => ite_canonicalOut (takeTrap_canonical ht) (ite_canonicalOut (addrTrap_canonical ht)
    (ite_canonicalOut ht (record_canonical (record_canonical (acceptCopy_canonical ht))))))

theorem readCodes_canonical {e t l} (hs : Canonical s) : Canonical (s.readCodes e t l).1 := by
  induction l generalizing s with
  | nil =>
    unfold State.readCodes
    exact hs
  | cons x l ih =>
    unfold State.readCodes
    exact ih (tileRead_canonical hs)

theorem combineTile_canonical {e op dst l} (hs : Canonical s) : Canonical (s.combineTile e op dst l).1 := by
  induction l generalizing s with
  | nil =>
    unfold State.combineTile
    exact hs
  | cons x l ih =>
    unfold State.combineTile
    exact ih (updateElem_canonical hs)

theorem writeTile_canonical {e op src dst cs} (hs : Canonical s) : Canonical (s.writeTile e op src dst cs).1 :=
  ite_canonicalFst (tileWriteAll_canonical hs) (combineTile_canonical hs)

theorem endCopy_canonical {before s : State} {die : Nat} {held : Bool} {i : Nat} {c : CopyCmd} {repl : Bool} {ks : List Nat}
    (hs : Canonical s) :
    Canonical (before.endCopy s die held i c repl ks) :=
  ite_canonical (record_canonical (commitWrites_canonical hs)) (ite_canonical (record_canonical (sendWrites_canonical
    (cleanUnits_canonical hs))) (complete_canonical (record_canonical (cleanUnits_canonical hs))))

theorem stallCopy_canonical {t die held i c st} (hs : Canonical s) :
    CanonicalOut (s.stallCopy t die held i c st) :=
  ite_canonicalOut hs (ite_canonicalOut trivial hs)

theorem performTile_canonical {die held i c op src dst cs st} (hs : Canonical s) :
    CanonicalOut (s.performTile die held i c op src dst cs st) :=
  ite_canonicalOut (stallCopy_canonical hs) (ite_canonicalOut trivial (endCopy_canonical
    (ite_canonical (spreadWrites_canonical (writeTile_canonical hs)) (writeTile_canonical hs))))

theorem countCopy_canonical {die held i c} (hs : Canonical s) : Canonical (s.countCopy die held i c) := complete_canonical hs

theorem bulkSource_canonical {e r} (hs : Canonical s) : Canonical (s.bulkSource e r).1 :=
  ite_canonicalFst hs (engineBytes_canonical hs)

theorem bulkMove_canonical {e r bs} (hs : Canonical s) : Canonical (s.bulkMove e r bs).1 := by
  unfold State.bulkMove
  dsimp only
  split
  · exact hs
  · exact combineBytes_canonical hs
  · exact combineBytes_canonical hs
  · exact combineBytes_canonical hs
  · exact engineWrite_canonical hs

theorem endNode_canonical {u} (hs : Canonical s) : Canonical (s.endNode u) := by
  unfold State.endNode
  split
  · exact ite_canonical hs hs
  · exact hs

theorem execCopyCommandComplete_canonical {die i} (hs : Canonical s) : CanonicalOut (execCopyCommandComplete die i s) := by
  unfold execCopyCommandComplete
  dsimp only
  split
  · exact trivial
  · rename_i e
    refine ite_canonicalOut trivial ?_
    split
    · exact trivial
    · exact ite_canonicalOut (countCopy_canonical hs) (ite_canonicalOut (record_canonical (sendReads_canonical hs))
      (ite_canonicalOut (stallCopy_canonical hs) (ite_canonicalOut (record_canonical
        (record_canonical (readCodes_canonical hs))) (performTile_canonical (readCodes_canonical hs)))))
    · exact ite_canonicalOut (endNode_canonical (countCopy_canonical hs)) (ite_canonicalOut (endNode_canonical hs)
      (ite_canonicalOut (record_canonical (sendReads_canonical hs)) (ite_canonicalOut (stallCopy_canonical hs)
        (ite_canonicalOut (stallCopy_canonical hs)
          (ite_canonical (endCopy_canonical (bulkMove_canonical (bulkSource_canonical hs)))
            (endNode_canonical (endCopy_canonical (bulkMove_canonical (bulkSource_canonical hs)))))))))

theorem execCpytWriteRelease_canonical {die i} (hs : Canonical s) : CanonicalOut (execCpytWriteRelease die i s) := by
  unfold execCpytWriteRelease
  dsimp only
  split
  · exact trivial
  · rename_i e0
    split
    · rename_i e1
      refine ite_canonicalOut trivial (ite_canonicalOut (reportLate_canonical (countCopy_canonical hs))
        (ite_canonicalOut trivial ?_))
      split
      · rename_i e3
        exact ite_canonical (reportLate_canonical (canonicalOut_next e3 (performTile_canonical hs))) (canonicalOut_next e3
          (performTile_canonical hs))
      · exact performTile_canonical hs
    · exact trivial

theorem rowByte_canonical {e xt covered write va} (hs : Canonical s) : Canonical (s.rowByte e xt covered write va).1 := by
  refine ite_canonicalFst (ite_canonicalFst hs hs) ?_
  dsimp only
  split
  · exact vaByte_canonical hs
  · exact vaByte_canonical hs
  · exact vaByte_canonical hs

theorem rowBytes_canonical {e xt covered gather va lkey n m} (hs : Canonical s) :
    Canonical (s.rowBytes e xt covered gather va lkey n m).1 := by
  induction n generalizing s m with
  | zero =>
    unfold State.rowBytes
    exact hs
  | succ n ih =>
    unfold State.rowBytes
    exact ih (rowByte_canonical hs)

theorem moveRows_canonical {e gather offs lbase rowb xt l} (hs : Canonical s) :
    Canonical (s.moveRows e gather offs lbase rowb xt l).1 := by
  induction l generalizing s with
  | nil =>
    unfold State.moveRows
    exact hs
  | cons x l ih =>
    unfold State.moveRows
    exact ih (ite_canonicalFst hs (ite_canonical (writeCells_canonical (rowBytes_canonical hs)) (putBytes_canonical
      (rowBytes_canonical hs))))

theorem arriveRows_canonical {who d em sts} (hs : Canonical s) : Canonical (s.arriveRows who d em sts) := by
  unfold State.arriveRows
  dsimp only
  split
  · exact hs
  · exact setAgent_canonical hs

theorem endRows_canonical {die i c d em sts} (hs : Canonical s) : Canonical (s.endRows die i c d em sts) :=
  ite_canonical (record_canonical (arriveRows_canonical (forget_canonical hs))) (arriveRows_canonical (forget_canonical hs))

theorem execGathStatusArrive_canonical {die i} (hs : Canonical s) : CanonicalOut (execGathStatusArrive die i s) := by
  unfold execGathStatusArrive
  dsimp only
  split
  · exact trivial
  · rename_i e
    split
    · exact ite_canonicalOut trivial (ite_canonicalOut (endRows_canonical hs) (ite_canonicalOut (record_canonical
      (sendReads_canonical hs)) (ite_canonicalOut (stallCopy_canonical hs) (ite_canonicalOut
        (record_canonical (sendWrites_canonical (cleanUnits_canonical (moveRows_canonical hs)))) (endRows_canonical
          (cleanUnits_canonical (moveRows_canonical hs)))))))
    · exact trivial

theorem pageOutcomes_canonical {u k die ctx n m} (hs : Canonical s) : Canonical (s.pageOutcomes u k die ctx n m).1 := by
  induction n generalizing s m with
  | zero =>
    unfold State.pageOutcomes
    exact hs
  | succ n ih =>
    unfold State.pageOutcomes
    exact ih (vaByte_canonical hs)

theorem supWrite_canonical {va bs} (hs : Canonical s) : Canonical (s.supWrite va bs) := writeMem_canonical hs

theorem queuePage_canonical {va len bar} (hs : Canonical s) : Canonical (s.queuePage va len bar) :=
  record_canonical (record_canonical (retainOpt_canonical (record_canonical (supWrite_canonical (supWrite_canonical hs)))))

theorem execPageRequestComplete_canonical {part i} (hs : Canonical s) : CanonicalOut (execPageRequestComplete part i s) := by
  unfold execPageRequestComplete
  dsimp only
  split
  · exact trivial
  · exact ite_canonicalOut (arriveOpt_canonical hs) trivial

/-! Machine/Bulk. -/

theorem queuePoison_canonical {x e spans} (hs : Canonical s) : Canonical (s.queuePoison x e spans) := ite_canonical hs hs

theorem bulkSet_canonical {e base n x} (hs : Canonical s) : Canonical (s.bulkSet e base n x) := by
  unfold State.bulkSet
  split
  · exact writeCells_canonical hs
  · exact hs

theorem takeEntry_canonical {x raw index} (hs : Canonical s) : Canonical (s.takeEntry x raw index) :=
  missOnAccept_canonical (record_canonical (retainOpt_canonical hs))

theorem takeEntries_canonical {x e q n x'} (hs : Canonical s) : Canonical (s.takeEntries x e q n x') := by
  induction n generalizing s x x' with
  | zero =>
    unfold State.takeEntries
    exact hs
  | succ n ih =>
    unfold State.takeEntries
    exact ih (takeEntry_canonical hs)

theorem setBulk_canonical {u q} (hs : Canonical s) : Canonical (s.setBulk u q) := by
  unfold State.setBulk
  split
  · exact hs
  · exact hs

theorem execBulkQueuePublish_canonical {u} (hs : Canonical s) : CanonicalOut (execBulkQueuePublish u s) := by
  unfold execBulkQueuePublish
  dsimp only
  split
  · exact trivial
  · rename_i e
    split
    · exact trivial
    · exact ite_canonicalOut trivial (ite_canonicalOut (record_canonical (setBulk_canonical (queuePoison_canonical hs)))
      (ite_canonicalOut (record_canonical (setBulk_canonical (queuePoison_canonical hs))) (setBulk_canonical
        (bulkSet_canonical (takeEntries_canonical (queuePoison_canonical (queuePoison_canonical hs)))))))

theorem execBulkEntryStart_canonical {die} (hs : Canonical s) : CanonicalOut (execBulkEntryStart die s) := by
  unfold execBulkEntryStart
  dsimp only
  split
  · exact trivial
  · exact hs

theorem writeRecords_canonical {x e n x'} (hs : Canonical s) : Canonical (s.writeRecords x e n x') := by
  induction n generalizing s x x' with
  | zero =>
    unfold State.writeRecords
    exact setBulk_canonical hs
  | succ n ih =>
    unfold State.writeRecords
    dsimp only
    split
    · exact setBulk_canonical hs
    · exact ite_canonical (setBulk_canonical hs) (ih (bulkSet_canonical (bulkSet_canonical hs)))

theorem addRecord_canonical {u r} (hs : Canonical s) : Canonical (s.addRecord u r) := by
  unfold State.addRecord
  split
  · rename_i e
    split
    · exact writeRecords_canonical (queuePoison_canonical hs)
    · exact hs
  · exact hs

theorem endBulk_canonical {die i b st} (hs : Canonical s) : Canonical (s.endBulk die i b st) :=
  ite_canonical (addRecord_canonical (complete_canonical hs)) (complete_canonical hs)

theorem execBulkEntryComplete_canonical {die i} (hs : Canonical s) : CanonicalOut (execBulkEntryComplete die i s) := by
  unfold execBulkEntryComplete
  dsimp only
  split
  · exact trivial
  · rename_i e0
    split
    · exact trivial
    · rename_i e1
      refine ite_canonicalOut trivial ?_
      split
      · exact endBulk_canonical hs
      · exact ite_canonicalOut (endBulk_canonical hs) (ite_canonicalOut (record_canonical (sendReads_canonical hs))
        (ite_canonicalOut hs (ite_canonicalOut (ite_canonicalOut trivial hs) (ite_canonicalOut (record_canonical
          (sendWrites_canonical (cleanUnits_canonical (bulkMove_canonical (bulkSource_canonical hs))))) (endBulk_canonical
            (cleanUnits_canonical (bulkMove_canonical (bulkSource_canonical hs))))))))

theorem execCompletionRecordWrite_canonical {u} (hs : Canonical s) : CanonicalOut (execCompletionRecordWrite u s) := by
  unfold execCompletionRecordWrite
  dsimp only
  split
  · exact trivial
  · rename_i e
    split
    · exact trivial
    · exact ite_canonicalOut trivial (writeRecords_canonical (queuePoison_canonical hs))

/-! Machine/KvCache. -/

theorem touchSeq_canonical {ctx seq time} (hs : Canonical s) : Canonical (s.touchSeq ctx seq time) := by
  refine ite_canonical hs ?_
  split
  · exact ctxWrite_canonical hs
  · exact hs

theorem refreshSeqs_canonical {ctx} (hs : Canonical s) : Canonical (s.refreshSeqs ctx) :=
  ite_canonical hs (foldl_canonical (fun _ _ ht => ctxWrite_canonical ht) hs)

theorem setSeqState_canonical {ctx seq st} (hs : Canonical s) : Canonical (s.setSeqState ctx seq st) := by
  refine ite_canonical hs ?_
  split
  · exact ctxWrite_canonical hs
  · exact hs

theorem setTokens_canonical {ctx seq f} (hs : Canonical s) : Canonical (s.setTokens ctx seq f) := by
  refine ite_canonical hs ?_
  split
  · exact ctxWrite_canonical hs
  · exact hs

theorem pinForm_canonical {status f b a d} (hs : Canonical s) : CanonicalOut (pinForm status f b a d s) := by
  refine guard_canonical hs (fun _ ht => ite_canonicalOut (takeTrap_canonical ht) ?_)
  dsimp only
  split
  · exact record_canonical ht
  · exact record_canonical (ite_canonical (record_canonical ht) ht)

theorem moveFrame_canonical {src dst n} (hs : Canonical s) : Canonical (s.moveFrame src dst n) :=
  record_canonical (writeMem_canonical hs)

theorem kvEvent_canonical {ctx seq action prio moved} (hs : Canonical s) : Canonical (s.kvEvent ctx seq action prio moved) :=
  ite_canonical hs (ctxWrite_canonical hs)

theorem givePage_canonical {ctx p} (hs : Canonical s) : Canonical (s.givePage ctx p) := by
  unfold State.givePage
  dsimp only
  split
  · exact hs
  · exact record_canonical (ite_canonical (moveFrame_canonical hs) (writeMem_canonical hs))

theorem forkTokens_canonical {ctx r} (hs : Canonical s) : Canonical (s.forkTokens ctx r) := by
  unfold State.forkTokens
  exact setTokens_canonical hs

theorem runRequest_canonical {ctx r} (hs : Canonical s) : Canonical (s.runRequest ctx r) :=
  ite_canonical (forkTokens_canonical (refreshSeqs_canonical hs)) (ite_canonical (kvEvent_canonical (setSeqState_canonical
    (refreshSeqs_canonical (foldl_canonical (fun _ _ hu => givePage_canonical hu) hs)))) (setSeqState_canonical
      (refreshSeqs_canonical (foldl_canonical (fun _ _ ht => givePage_canonical ht) hs))))

theorem completeRequest_canonical {ctx i r frames} (hs : Canonical s) : CanonicalOut (s.completeRequest ctx i r frames) :=
  ite_canonicalOut trivial (arriveOpt_canonical (runRequest_canonical hs))

theorem execKvRequestComplete_canonical {ctx i frames} (hs : Canonical s) :
    CanonicalOut (execKvRequestComplete ctx i frames s) := by
  unfold execKvRequestComplete
  split
  · exact trivial
  · exact underRegs_canonical (fun _ ht => completeRequest_canonical ht) hs

theorem evictPage_canonical {ctx swap p} (hs : Canonical s) : Canonical (s.evictPage ctx swap p) := by
  refine ite_canonical (ite_canonical ?_ hs) (ite_canonical hs hs)
  dsimp only
  split
  · exact hs
  · exact record_canonical (moveFrame_canonical hs)

theorem execKvVictimAction_canonical {ctx} (hs : Canonical s) : CanonicalOut (execKvVictimAction ctx s) := by
  unfold execKvVictimAction
  dsimp only
  split
  · exact trivial
  · rename_i e
    split
    · exact trivial
    · exact kvEvent_canonical (record_canonical (ite_canonical (setSeqState_canonical (refreshSeqs_canonical (foldl_canonical
      (fun _ _ ht => evictPage_canonical ht) hs))) (setTokens_canonical (setSeqState_canonical (refreshSeqs_canonical
        (foldl_canonical (fun _ _ hu => evictPage_canonical hu) hs))))))

/-! Machine/Matrix. -/

theorem acceptMx_canonical {work bar handle} (hs : Canonical s) : CanonicalOut (s.acceptMx work bar handle) :=
  ite_canonicalOut hs (drained_canonical hs (fun _ ht => record_canonical (record_canonical (record_canonical
    (retainOpt_canonical (record_canonical (missOnAccept_canonical ht)))))))

theorem mmaForm_canonical {zero sparse b a d} (hs : Canonical s) : CanonicalOut (mmaForm zero sparse b a d s) := by
  refine guard_canonical hs (fun _ ht => ?_)
  split
  · exact subTrap_canonical ht
  · exact acceptMx_canonical ht

theorem epiForm_canonical {op b a d} (hs : Canonical s) : CanonicalOut (epiForm op b a d s) := by
  refine guard_canonical hs (fun _ ht => ?_)
  split
  · exact subTrap_canonical ht
  · exact acceptMx_canonical ht

theorem execMscale_canonical {b a} (hs : Canonical s) : CanonicalOut (execMscale b a s) := by
  refine guard_canonical hs (fun _ ht => ?_)
  dsimp only
  split
  · exact takeTrap_canonical ht
  · rename_i e
    refine ite_canonicalOut (takeTrap_canonical ht) ?_
    split
    · exact subTrap_canonical ht
    · exact ite_canonicalOut ht (acceptMx_canonical (record_canonical ht))

theorem execMwait_canonical {a d} (hs : Canonical s) : CanonicalOut (execMwait a d s) := by
  refine guard_canonical hs (fun _ ht => ?_)
  dsimp only
  split
  · exact subTrap_canonical ht
  · exact ite_canonicalOut (record_canonical (record_canonical ht)) (record_canonical ht)

theorem execMwaitReturn_canonical {w} (hs : Canonical s) : CanonicalOut (execMwaitReturn w s) := by
  unfold execMwaitReturn
  dsimp only
  split
  · exact trivial
  · rename_i e
    split
    · exact ite_canonicalOut (setAgent_canonical hs) trivial
    · exact trivial

theorem execMclass_canonical {a} (hs : Canonical s) : CanonicalOut (execMclass a s) := by
  refine guard_canonical hs (fun _ ht => ?_)
  dsimp only
  split
  · exact subTrap_canonical ht
  · exact record_canonical (record_canonical ht)

theorem execMquadInstall_canonical {w} (hs : Canonical s) : CanonicalOut (execMquadInstall w s) := by
  unfold execMquadInstall
  dsimp only
  split
  · exact trivial
  · rename_i e
    split
    · exact ite_canonicalOut (setAgent_canonical hs) trivial
    · exact trivial

theorem execMfeed_canonical {a} (hs : Canonical s) : CanonicalOut (execMfeed a s) := by
  refine guard_canonical hs (fun _ ht => ?_)
  dsimp only
  split
  · exact subTrap_canonical ht
  · exact ite_canonicalOut (record_canonical ht) (record_canonical (record_canonical ht))

theorem elemsAt_canonical {e r l} (hs : Canonical s) : Canonical (s.elemsAt e r l).1 := by
  induction l generalizing s with
  | nil =>
    unfold State.elemsAt
    exact hs
  | cons x l ih =>
    unfold State.elemsAt
    exact ih (elemRead_canonical hs)

theorem blockReads_canonical {op sparse t scale bitmap w kb} (hs : Canonical s) :
    Canonical (s.blockReads op sparse t scale bitmap w kb).1 :=
  ite_canonicalFst (ite_canonicalFst (ite_canonicalFst (elemsAt_canonical (readCodes_canonical hs)) (readCodes_canonical hs))
    (elemsAt_canonical (ite_canonicalFst (elemsAt_canonical (readCodes_canonical hs)) (readCodes_canonical hs))))
      (elemsAt_canonical (ite_canonicalFst (ite_canonicalFst (elemsAt_canonical (readCodes_canonical hs))
        (readCodes_canonical hs)) (elemsAt_canonical (ite_canonicalFst (elemsAt_canonical (readCodes_canonical hs))
          (readCodes_canonical hs)))))

theorem blocksReads_canonical {op sparse t scale bitmap w l} (hs : Canonical s) :
    Canonical (s.blocksReads op sparse t scale bitmap w l).1 := by
  induction l generalizing s with
  | nil =>
    unfold State.blocksReads
    exact hs
  | cons x l ih =>
    unfold State.blocksReads
    exact ih (blockReads_canonical hs)

theorem epiRows_canonical {e k a out divisor} (hs : Canonical s) : Canonical (s.epiRows e k a out divisor).1 := by
  unfold State.epiRows
  dsimp only
  split
  · exact elemsAt_canonical hs
  · exact hs

theorem writeScales_canonical {e r l} (hs : Canonical s) : Canonical (s.writeScales e r l).1 := by
  induction l generalizing s with
  | nil =>
    unfold State.writeScales
    exact hs
  | cons x l ih =>
    unfold State.writeScales
    exact ih (elemWrite_canonical hs)

theorem writeFlagWords_canonical {e r out ws} (hs : Canonical s) : Canonical (s.writeFlagWords e r out ws).1 :=
  writeScales_canonical hs

theorem updateFlags_canonical {e r out f} (hs : Canonical s) : Canonical (s.updateFlags e r out f).1 := by
  unfold State.updateFlags
  extract_lets old
  split
  rename_i e
  exact canonical_of_fst e (writeFlagWords_canonical (elemsAt_canonical hs))

theorem epiRun_canonical {op kind a out ctl scale flags divisor} (hs : Canonical s) :
    Canonical (s.epiRun op kind a out ctl scale flags divisor).after := by
  have hscales {rows : State × List (List EpElem) × DWord} (hrows : Canonical rows.1) {tiles scales : Prop} [Decidable tiles]
      [Decidable scales] {cs xs} :
      Canonical (if scales then (if tiles then (rows.1, [], 0) else rows.1.tileWriteAll op.issuer out 0 cs).1.writeScales
        op.issuer scale xs
        else ((if tiles then (rows.1, [], 0) else rows.1.tileWriteAll op.issuer out 0 cs).1, [], 0)).1 :=
    ite_canonicalFst (writeScales_canonical (ite_canonicalFst hrows (tileWriteAll_canonical hrows)))
      (ite_canonicalFst hrows (tileWriteAll_canonical hrows))
  unfold State.epiRun
  dsimp only
  split
  · split
    · exact hs
    · exact writeFlagWords_canonical hs
  · split
    · exact hscales (epiRows_canonical hs)
    · exact updateFlags_canonical (hscales (epiRows_canonical hs))

theorem popHead_canonical {op} (hs : Canonical s) : Canonical (s.popHead op) := by
  unfold State.popHead
  dsimp only
  split
  · exact hs
  · exact setAgent_canonical hs

theorem endOp_canonical {op} (hs : Canonical s) : Canonical (s.endOp op) := popHead_canonical (complete_canonical hs)

theorem stallHead_canonical {t op st} (hs : Canonical s) : CanonicalOut (s.stallHead t op st) :=
  ite_canonicalOut hs (ite_canonicalOut trivial hs)

theorem mmaStep_canonical {op zero sparse acc t nk bfmt scale bitmap w} (hs : Canonical s) :
    CanonicalOut (s.mmaStep op zero sparse acc t nk bfmt scale bitmap w) :=
  ite_canonicalOut (record_canonical (sendReads_canonical hs)) (ite_canonicalOut (stallHead_canonical hs)
    (ite_canonical (popHead_canonical (ite_canonical (record_canonical (record_canonical
      (blocksReads_canonical hs))) (record_canonical (blocksReads_canonical hs)))) (record_canonical (ite_canonical
        (record_canonical (record_canonical (blocksReads_canonical hs))) (record_canonical (blocksReads_canonical hs))))))

theorem execMdrain_canonical {a} (hs : Canonical s) : CanonicalOut (execMdrain a s) := by
  refine guard_canonical hs (fun _ ht => ?_)
  dsimp only
  split
  · exact subTrap_canonical ht
  · exact record_canonical ht

theorem execMdrainRead_canonical {w} (hs : Canonical s) : CanonicalOut (execMdrainRead w s) := by
  unfold execMdrainRead
  dsimp only
  split
  · exact trivial
  · rename_i e
    split
    · exact ite_canonicalOut trivial (setAgent_canonical hs)
    · exact trivial

theorem execMsig_canonical {b a d} (hs : Canonical s) : CanonicalOut (execMsig b a d s) := by
  refine guard_canonical hs (fun _ ht => ite_canonicalOut (subTrap_canonical ht)
    (ite_canonicalOut (takeTrap_canonical ht) ?_))
  dsimp only
  split
  · exact record_canonical ht
  · exact ite_canonicalOut (record_canonical ht) (ite_canonicalOut (record_canonical ht) (drained_canonical ht
    (fun _ hu => record_canonical (setAgent_canonical hu))))

theorem execMrecv_canonical {d} (hs : Canonical s) : CanonicalOut (execMrecv d s) := by
  refine guard_canonical hs (fun _ ht => ite_canonicalOut (takeTrap_canonical ht) ?_)
  dsimp only
  split
  · exact record_canonical (record_canonical ht)
  · exact record_canonical ht

theorem execMrecvWake_canonical {w} (hs : Canonical s) : CanonicalOut (execMrecvWake w s) := by
  unfold execMrecvWake
  split
  · exact trivial
  · rename_i e
    split
    · exact setAgent_canonical hs
    · exact trivial

/-! Machine/DecodeEngine. -/

theorem acceptDce_canonical {op b ids bar handle} (hs : Canonical s) : Canonical (s.acceptDce op b ids bar handle) :=
  ite_canonical (touchSeq_canonical (record_canonical (retainOpt_canonical (record_canonical (missOnAccept_canonical hs)))))
    (record_canonical (retainOpt_canonical (record_canonical (missOnAccept_canonical hs))))

theorem dceForm_canonical {op b a} (hs : Canonical s) : CanonicalOut (dceForm op b a s) := by
  refine guard_canonical hs (fun _ ht => ite_canonicalOut (takeTrap_canonical ht) ?_)
  dsimp only
  split
  · exact addrTrap_canonical ht
  · split
    · exact takeTrap_canonical ht
    · split
      · exact subTrap_canonical ht
      · exact ite_canonicalOut (takeTrap_canonical ht) (ite_canonicalOut (subTrap_canonical ht) (ite_canonicalOut ht
        (record_canonical (acceptDce_canonical ht))))

theorem areaSet_canonical {e base bs} (hs : Canonical s) : Canonical (s.areaSet e base bs).1 :=
  cleanUnits_canonical (engineWrite_canonical hs)

theorem areaAll_canonical {f : State → Nat → State × DWord} {l : List Nat} {s : State}
    (hf : ∀ t i, Canonical t → Canonical (f t i).1) (hs : Canonical s) :
    Canonical (areaAll f l s).1 := by
  induction l generalizing s with
  | nil =>
    unfold areaAll
    exact hs
  | cons x l ih =>
    unfold areaAll
    exact ih (hf _ _ hs)

theorem tensorRow_canonical {e r n i1 i2} (hs : Canonical s) : Canonical (s.tensorRow e r n i1 i2).1 :=
    engineBytes_canonical hs

theorem kvRow_canonical {e tens r sh frame isV p h} (hs : Canonical s) : Canonical (s.kvRow e tens r sh frame isV p h).1 :=
  ite_canonicalFst (tensorRow_canonical hs) hs

theorem kvRows_canonical {row l} (hs : Canonical s) (hrow : ∀ t i, Canonical t → Canonical (row t i).1) :
    Canonical (s.kvRows row l).1 := by
  induction l generalizing s with
  | nil =>
    unfold State.kvRows
    exact hs
  | cons x l ih =>
    unfold State.kvRows
    exact ih (hrow _ _ hs)

theorem writeRow_canonical {e r pos h n l} (hs : Canonical s) : Canonical (s.writeRow e r pos h n l).1 := by
  induction l generalizing s n with
  | nil =>
    unfold State.writeRow
    exact hs
  | cons x l ih =>
    unfold State.writeRow
    exact ih (elemWrite_canonical hs)

theorem putRow_canonical {c e r pos h xs} (hs : Canonical s) : Canonical (s.putRow c e r pos h xs).1 :=
  ite_canonical (commitWrites_canonical (cleanUnits_canonical (writeRow_canonical hs))) (cleanUnits_canonical
    (writeRow_canonical hs))

theorem frameWrite_canonical {e cells} (hs : Canonical s) : Canonical (s.frameWrite e cells).1 :=
  holdLines_canonical (cleanUnits_canonical (writeCells_canonical hs))

theorem frameRows_canonical {e f hd frame pos ks vs} (hs : Canonical s) : Canonical (s.frameRows e f hd frame pos ks vs).1 :=
  frameWrite_canonical hs

theorem copyOnWrite_canonical {e ctx p g free} (hs : Canonical s) : Canonical (s.copyOnWrite e ctx p g free).1 :=
  refreshSeqs_canonical (record_canonical (frameWrite_canonical hs))

theorem endPage_canonical {die c st} (hs : Canonical s) : Canonical (s.endPage die c st) :=
  ite_canonical hs (endNode_canonical (complete_canonical hs))

end

end Sys2Proof.Proofs
end

section
/-!
PROOF. Memory stays in canonical form (O60), function by function: work, launches, tickets and saved contexts.
-/
namespace Sys2Proof.Proofs

open Sys2Proof.Machine Sys2Proof.Laws

section

variable {s : State}

/-! Machine/Merge. -/

theorem milestoneWrite_canonical {l va cells} (hs : Canonical s) : Canonical (s.milestoneWrite l va cells) :=
  holdLines_canonical (ite_canonical (launchWrite_canonical hs) (sendOut_canonical hs
    (fun _ _ ht => launchWrite_canonical ht)))

theorem applyParts_canonical {l ps} (hs : Canonical s) : Canonical (s.applyParts l ps) :=
  foldl_canonical (fun _ _ ht => milestoneWrite_canonical ht) (milestoneWrite_canonical hs)

theorem applyOutward_canonical {l ps} (hs : Canonical s) : Canonical (s.applyOutward l ps) :=
  foldl_canonical (fun _ _ ht => milestoneWrite_canonical ht) hs

theorem noteMerged_canonical {ctx id ps} (hs : Canonical s) : Canonical (s.noteMerged ctx id ps) := by
  unfold State.noteMerged
  split
  · exact hs
  · exact hs

theorem mergeUnits_canonical {l} (hs : Canonical s) : Canonical (s.mergeUnits l) := by
  unfold State.mergeUnits
  dsimp only
  split
  · exact hs
  · exact noteMerged_canonical (applyOutward_canonical (applyParts_canonical hs))

theorem setMerged_canonical {ctx id r cs} (hs : Canonical s) : Canonical (s.setMerged ctx id r cs) := by
  unfold State.setMerged
  split
  · exact hs
  · exact hs

theorem mergeLaunch_canonical {l} (hs : Canonical s) : Canonical (s.mergeLaunch l) := by
  refine ite_canonical (setMerged_canonical (mergeUnits_canonical hs)) ?_
  split
  · exact setMerged_canonical (mergeUnits_canonical hs)
  · exact setMerged_canonical (applyOutward_canonical hs)

theorem mergeGraph_canonical {g} (hs : Canonical s) : Canonical (s.mergeGraph g) := by
  unfold State.mergeGraph
  dsimp only
  split
  · exact hs
  · exact foldl_canonical (fun _ _ ht => ite_canonical (milestoneWrite_canonical ht) (writeMem_canonical ht))
      (writeMem_canonical hs)

/-! Machine/Admit. -/

theorem takeCore_canonical {ctx d c k} (hs : Canonical s) : Canonical (s.takeCore ctx d c k) :=
  ite_canonical hs (record_canonical (ite_canonical (zeroBytes_canonical hs) hs))

theorem startGroups_canonical {l u d c cores} (hs : Canonical s) : Canonical (s.startGroups l u d c cores) :=
  record_canonical (writeMem_canonical hs)

theorem writeStart_canonical {u cells} (hs : Canonical s) : Canonical (s.writeStart u cells) := by
  unfold State.writeStart
  dsimp only
  split
  · exact record_canonical (writeMem_canonical hs)
  · exact writeMem_canonical hs

theorem startThread_canonical {l u d c} (hs : Canonical s) : Canonical (s.startThread l u d c) :=
  record_canonical (record_canonical (writeStart_canonical hs))

theorem startCopyNode_canonical {l u d} (hs : Canonical s) : Canonical (s.startCopyNode l u d) :=
  record_canonical (acceptCopy_canonical hs)

theorem startDecodeNode_canonical {l u d} (hs : Canonical s) : Canonical (s.startDecodeNode l u d) :=
  record_canonical (ite_canonical (endNode_canonical hs) (acceptDce_canonical hs))

/-! Machine/Update. -/

theorem acceptUpd_canonical {isNorm b outAt normAt bar handle normBar} (hs : Canonical s) :
    Canonical (s.acceptUpd isNorm b outAt normAt bar handle normBar) :=
  record_canonical (retainOpt_canonical (retainOpt_canonical (record_canonical (missOnAccept_canonical hs))))

theorem updForm_canonical {size b a k} (hs : Canonical s) (hk : ∀ t a b c h, Canonical t → Canonical (k t a b c h)) :
    CanonicalOut (updForm size b a s k) := by
  refine guard_canonical hs (fun _ ht => ite_canonicalOut (takeTrap_canonical ht) ?_)
  split
  · exact addrTrap_canonical ht
  · split
    · exact takeTrap_canonical ht
    · exact hk _ _ _ _ _ ht

theorem execUpd_canonical {b a} (hs : Canonical s) : CanonicalOut (execUpd b a s) := by
  refine updForm_canonical hs (fun _ _ _ _ _ ht => ?_)
  dsimp only
  split
  · exact takeTrap_canonical ht
  · exact ite_canonical (takeTrap_canonical ht) (ite_canonical ht (record_canonical (acceptUpd_canonical ht)))

theorem startUpdateNode_canonical {l u d} (hs : Canonical s) : Canonical (s.startUpdateNode l u d) :=
  record_canonical (ite_canonical (endNode_canonical hs) (acceptUpd_canonical hs))

theorem updWords_canonical {e va n} (hs : Canonical s) : Canonical (s.updWords e va n).1 := engineBytes_canonical hs

theorem updDest_canonical {e va} (hs : Canonical s) : Canonical (s.updDest e va).1 := by
  unfold State.updDest
  dsimp only
  split
  · exact vaByte_canonical hs
  · exact ite_canonicalFst (vaByte_canonical hs) (vaByte_canonical hs)
  · exact vaByte_canonical hs
  · exact vaByte_canonical hs

theorem updCells_canonical {e l} (hs : Canonical s) : Canonical (s.updCells e l).1 := by
  induction l generalizing s with
  | nil =>
    unfold State.updCells
    exact hs
  | cons x l ih =>
    unfold State.updCells
    exact ih (updDest_canonical hs)

theorem updWrite_canonical {e xs} (hs : Canonical s) : Canonical (s.updWrite e xs).1 :=
  holdLines_canonical (foldl_canonical (fun _ _ ht => launchWrite_canonical ht)
    (launchWrite_canonical (updCells_canonical hs)))

theorem updPut_canonical {e k x} (hs : Canonical s) : Canonical (s.updPut e k x).1 :=
  ite_canonicalFst hs (holdLines_canonical (launchWrite_canonical hs))

theorem setModel_canonical {u h m off n x} (hs : Canonical s) : Canonical (s.setModel u h m off n x) :=
  holdLines_canonical (launchWrite_canonical hs)

theorem commitTile_canonical {e c i} (hs : Canonical s) : Canonical (s.commitTile e c i).1 :=
  record_canonical (setModel_canonical (updWrite_canonical (updWords_canonical (updWords_canonical (updWords_canonical
    (updWords_canonical hs))))))

theorem leadStep_canonical {c} (hs : Canonical s) : Canonical (s.leadStep c) :=
  ite_canonical (setModel_canonical (setModel_canonical hs)) (ite_canonical (setModel_canonical (setModel_canonical hs))
    (setModel_canonical hs))

theorem endUpd_canonical {die i c} (hs : Canonical s) : Canonical (s.endUpd die i c) := endNode_canonical
    (complete_canonical hs)

theorem finishUpd_canonical {die i c} (hs : Canonical s) : Canonical (s.finishUpd die i c) := by
  refine endUpd_canonical ?_
  unfold Option.elim
  split
  · exact updPut_canonical (ite_canonical (leadStep_canonical hs) hs)
  · exact ite_canonical (leadStep_canonical hs) hs

theorem dropShard_canonical {e c} (hs : Canonical s) : Canonical (s.dropShard e c).1 := updWrite_canonical hs

theorem stallUpd_canonical {t die i c st} (hs : Canonical s) : CanonicalOut (s.stallUpd t die i c st) :=
  ite_canonicalOut hs (ite_canonicalOut trivial hs)

theorem updDone_canonical {die i c r k} (hs : Canonical s) (hr : Canonical r.1)
    (hk : ∀ t c, Canonical t → Canonical (k t c)) :
    CanonicalOut (s.updDone die i c r k) :=
  ite_canonicalOut (stallUpd_canonical hs) (ite_canonicalOut trivial (ite_canonicalOut (record_canonical
    (sendWrites_canonical hr)) (hk _ _ hr)))

theorem startUpd_canonical {die i c} (hs : Canonical s) : CanonicalOut (s.startUpd die i c) := by
  refine ite_canonicalOut trivial (record_canonical ?_)
  split
  · exact hs
  · exact hs

theorem updStep_canonical {die i : Nat} {f : State → UpdCmd → Out} {s : State}
    (hf : ∀ t c, Canonical t → CanonicalOut (f t c)) (hs : Canonical s) :
    CanonicalOut (updStep die i f s) := by
  unfold updStep
  split
  · exact trivial
  · exact ite_canonicalOut (underRegs_canonical (fun _ ht => hf _ _ ht) hs) trivial

theorem stepUpd_canonical {die i c} (hs : Canonical s) : CanonicalOut (s.stepUpd die i c) :=
  ite_canonicalOut trivial (ite_canonicalOut (ite_canonicalOut (finishUpd_canonical hs) (updDone_canonical hs
    (dropShard_canonical hs) (fun _ _ ht => finishUpd_canonical ht))) (ite_canonicalOut (ite_canonical
      (finishUpd_canonical hs) hs) (ite_canonicalOut (ite_canonical (finishUpd_canonical hs) hs) (ite_canonicalOut trivial
        (ite_canonicalOut (record_canonical (sendReads_canonical hs)) (updDone_canonical hs (commitTile_canonical hs)
          (fun _ _ hu => ite_canonical (finishUpd_canonical hu) (record_canonical hu))))))))

/-- `State.shardNorm` with a reader of words of its own. The equations of `shardNorm` itself are costly: unfolding it, Lean
evaluates the read of a tile's 16384 words. -/
def shardNormBy (read : State → Issuer → Nat → Nat → State × List Word × DWord) (s : State) (e : Issuer) (r : BitVec 1024) :
    Nat → Nat → Word → State × Word × Bool × DWord
  | 0, _, p => (s, p, false, 0)
  | n + 1, i, p =>
    let (s, ga, st) := read s e (mdGacc r + 65536 * i) 16384
    let (s, fl, st2) := read s e (mdGflags r + 16 * i + 4) 1
    let (s, q, bad, st3) := shardNormBy read s e r n (i + 1) (faddW p (tileNorm ga))
    (s, q, bad || (fl.getD 0 0) &&& 7 != 0, statusMerge st (statusMerge st2 st3))

theorem shardNorm_eq : State.shardNorm = shardNormBy State.updWords := by
  delta State.shardNorm shardNormBy
  rfl

theorem shardNormBy_canonical {read : State → Issuer → Nat → Nat → State × List Word × DWord} {e r n m x}
    (hread : ∀ t va n, Canonical t → Canonical (read t e va n).1) (hs : Canonical s) :
    Canonical (shardNormBy read s e r n m x).1 := by
  induction n generalizing s m x with
  | zero => exact hs
  | succ n ih => exact ih (hread _ _ _ (hread _ _ _ hs))

theorem shardNorm_canonical {e r n m x} (hs : Canonical s) : Canonical (s.shardNorm e r n m x).1 := by
  rw [shardNorm_eq]
  exact shardNormBy_canonical (fun _ _ _ ht => updWords_canonical ht) hs

theorem applyNorm_canonical {e c} (hs : Canonical s) : Canonical (s.applyNorm e c).1 := by
  unfold State.applyNorm
  dsimp only
  split
  · exact shardNorm_canonical hs
  · exact ite_canonicalFst (shardNorm_canonical hs) (updPut_canonical (shardNorm_canonical hs))

theorem stepNorm_canonical {die i c} (hs : Canonical s) : CanonicalOut (s.stepNorm die i c) :=
  ite_canonicalOut trivial (ite_canonicalOut (record_canonical (sendReads_canonical hs)) (updDone_canonical hs
    (applyNorm_canonical hs) (fun _ _ ht => endUpd_canonical ht)))

/-! Machine/Launch. -/

theorem joinPhase_canonical {ctx r} (hs : Canonical s) : Canonical (s.joinPhase ctx r).1 := by
  refine ite_canonicalFst hs ?_
  dsimp only
  split
  · exact hs
  · exact hs

theorem joinGraph_canonical {ctx r} (hs : Canonical s) : Canonical (s.joinGraph ctx r).1 := by
  refine ite_canonicalFst hs (ite_canonical ?_ (record_canonical ?_))
  · dsimp only
    split
    · rename_i e
      refine record_canonical (record_canonical ?_)
      split
      · exact hs
      · exact record_canonical (joinPhase_canonical hs)
    · rename_i e
      refine record_canonical ?_
      split
      · exact hs
      · exact record_canonical (joinPhase_canonical hs)
  · dsimp only
    split
    · exact hs
    · exact record_canonical (joinPhase_canonical hs)

theorem acceptRecord_canonical {l} (hs : Canonical s) : Canonical (s.acceptRecord l) :=
  record_canonical (record_canonical (record_canonical (joinGraph_canonical hs)))

theorem admitAt_canonical {l d c cores} (hs : Canonical s) : Canonical (s.admitAt l d c cores) := by
  unfold State.admitAt
  dsimp only
  split
  · exact startGroups_canonical (record_canonical (record_canonical (foldl_canonical (fun _ _ ht => takeCore_canonical ht)
      hs)))
  · exact startThread_canonical (record_canonical (record_canonical (foldl_canonical (fun _ _ ht => takeCore_canonical ht)
      hs)))
  · split
    · exact startCopyNode_canonical (record_canonical (record_canonical (foldl_canonical
      (fun _ _ ht => takeCore_canonical ht) hs)))
    · exact startDecodeNode_canonical (record_canonical (record_canonical (foldl_canonical
      (fun _ _ ht => takeCore_canonical ht) hs)))
    · exact startUpdateNode_canonical (record_canonical (record_canonical (foldl_canonical
      (fun _ _ ht => takeCore_canonical ht) hs)))

theorem admitAll_canonical {n ctx : Nat} {id : Word} {s t : State} (hs : Canonical s)
    (e : State.admitAll n s ctx id = some t) :
    Canonical t := by
  induction n generalizing s with
  | zero => exact Option.some.inj e ▸ hs
  | succ n ih =>
    unfold State.admitAll at e
    split at e
    · cases e
    · split at e
      · exact Option.some.inj e ▸ hs
      · split at e
        · cases e
        · exact ih (admitAt_canonical hs) e

theorem admitUnit_canonical {l d c cores} (hs : Canonical s) : Canonical (s.admitUnit l d c cores) := admitAt_canonical hs

theorem execUnitAdmit_canonical {u die cluster cores} (hs : Canonical s) :
    CanonicalOut (execUnitAdmit u die cluster cores s) := by
  unfold execUnitAdmit
  split
  · exact trivial
  · refine ite_canonicalOut trivial (ite_canonicalOut ?_ (ite_canonicalOut (ite_canonicalOut (admitUnit_canonical hs) trivial)
      (ite_canonicalOut (admitUnit_canonical hs) trivial)))
    split
    · rename_i e
      exact admitAll_canonical (s := s.notePassed _) hs e
    · exact trivial

theorem execLaunchBecomesBlocking_canonical {ctx id} (hs : Canonical s) : CanonicalOut
    (execLaunchBecomesBlocking ctx id s) := by
  unfold execLaunchBecomesBlocking
  split
  · exact trivial
  · exact ite_canonicalOut hs trivial

theorem answer_canonical {t ctx l} (hs : Canonical s) (e : s.answer ctx l = .ok t) : Canonical t := by
  have hrecord : Canonical (s.acceptRecord l) := acceptRecord_canonical hs
  unfold State.answer at e
  dsimp only at e
  repeat' split at e
  all_goals cases e
  rename_i h
  split at h
  · exact admitAll_canonical (s := (s.acceptRecord l).notePassed _) hrecord h
  · exact Option.some.inj h ▸ hrecord

theorem launchForm_canonical {coop b a d} (hs : Canonical s) : CanonicalOut (launchForm coop b a d s) := by
  refine guard_canonical hs (fun _ ht => ite_canonicalOut (takeTrap_canonical ht) ?_)
  dsimp only
  split
  · exact addrTrap_canonical ht
  · split
    · exact takeTrap_canonical ht
    · exact record_canonical (retainOpt_canonical (exposeUnit_canonical ht))

theorem releaseOpt_canonical {b} (hs : Canonical s) : Canonical (s.releaseOpt b) := by
  unfold State.releaseOpt
  split
  · exact hs
  · exact hs

theorem execLaunchAnswer_canonical {w} (hs : Canonical s) : CanonicalOut (execLaunchAnswer w s) := by
  unfold execLaunchAnswer
  split
  · exact trivial
  · split
    · dsimp only
      split
      · exact releaseOpt_canonical (setAgent_canonical hs)
      · rename_i e
        exact setAgent_canonical (answer_canonical hs e)
    · exact trivial

/-! Machine/Shelf. -/

theorem setTicket_canonical {ctx launch h i off bs} (hs : Canonical s) : Canonical (s.setTicket ctx launch h i off bs) :=
  holdLines_canonical (launchWrite_canonical hs)

theorem setTicketState_canonical {ctx launch h i st} (hs : Canonical s) : Canonical (s.setTicketState ctx launch h i st) :=
  setTicket_canonical hs

theorem endRun_canonical {ctx r delivered} (hs : Canonical s) : Canonical (s.endRun ctx r delivered) := by
  refine arriveOpt_canonical (ite_canonical hs (withRegs_canonical hs (fun _ ht => ?_)))
  split
  · exact setTicketState_canonical ht
  · exact ht

/-! Machine/Ending. -/

theorem removeAgent_canonical {w} (hs : Canonical s) : Canonical (s.removeAgent w) := by
  refine ite_canonical ?_ hs
  dsimp only
  split
  · exact hs
  · exact hs

theorem endUnit_canonical {u} (hs : Canonical s) : Canonical (s.endUnit u) := by
  unfold State.endUnit
  dsimp only
  split
  · exact hs
  · exact record_canonical (record_canonical (releaseTable_canonical (releaseTable_canonical hs)))

theorem execSlotRelease_canonical {w} (hs : Canonical s) : CanonicalOut (execSlotRelease w s) := by
  unfold execSlotRelease
  dsimp only
  split
  · exact trivial
  · exact ite_canonicalOut trivial (ite_canonical (removeAgent_canonical hs) (endUnit_canonical (removeAgent_canonical hs)))

theorem endSaved_canonical {ctx id} (hs : Canonical s) : Canonical (s.endSaved ctx id) :=
  foldl_canonical (fun _ _ ht => endUnit_canonical (foldl_canonical (fun _ _ hu => removeAgent_canonical hu) ht)) hs

theorem stopLaunch_canonical {l} (hs : Canonical s) : Canonical (s.stopLaunch l) :=
  record_canonical (record_canonical (endSaved_canonical hs))

theorem cancelLaunch_canonical {l} (hs : Canonical s) : Canonical (s.cancelLaunch l) := ite_canonical hs
    (stopLaunch_canonical hs)

theorem cancelId_canonical {ctx id} (hs : Canonical s) : Canonical (s.cancelId ctx id) := by
  unfold State.cancelId
  split
  · exact cancelLaunch_canonical hs
  · exact hs

theorem cancelAll_canonical {ls} (hs : Canonical s) : Canonical (s.cancelAll ls) :=
  foldl_canonical (fun _ _ ht => cancelId_canonical ht) hs

theorem faultGraph_canonical {l} (hs : Canonical s) : Canonical (s.faultGraph l) := by
  unfold State.faultGraph
  dsimp only
  split
  · rename_i e
    split
    · exact hs
    · exact hs
  · exact hs

theorem killLaunch_canonical {l} (hs : Canonical s) : Canonical (s.killLaunch l) :=
  ite_canonical hs (cancelAll_canonical (faultGraph_canonical (stopLaunch_canonical hs)))

theorem settlePhase_canonical {inst} (hs : Canonical s) : Canonical (s.settlePhase inst) := by
  unfold State.settlePhase
  dsimp only
  split
  · exact hs
  · exact ite_canonical hs hs

theorem settleGraph_canonical {inst} (hs : Canonical s) : Canonical (s.settleGraph inst) := by
  unfold State.settleGraph
  dsimp only
  split
  · exact hs
  · exact ite_canonical (settlePhase_canonical (record_canonical (record_canonical (mergeGraph_canonical hs)))) hs

theorem cancelGraph_canonical {g} (hs : Canonical s) : Canonical (s.cancelGraph g) :=
  settleGraph_canonical (cancelAll_canonical hs)

theorem cancelPhase_canonical {p} (hs : Canonical s) : Canonical (s.cancelPhase p) :=
  settlePhase_canonical (foldl_canonical (fun _ _ ht => settleGraph_canonical (cancelAll_canonical (record_canonical ht))) hs)

theorem settleRun_canonical {ctx id} (hs : Canonical s) : Canonical (s.settleRun ctx id) := by
  unfold State.settleRun
  dsimp only
  split
  · exact hs
  · exact ite_canonical hs (ite_canonical (endRun_canonical (cancelAll_canonical hs)) (cancelAll_canonical hs))

theorem cancelRun_canonical {ctx r} (hs : Canonical s) : Canonical (s.cancelRun ctx r) :=
  settleRun_canonical (cancelAll_canonical hs)

theorem cancel_canonical {ctx level id} (hs : Canonical s) : Canonical (s.cancel ctx level id).1 := by
  unfold State.cancel
  dsimp only
  split
  · split
    · exact ite_canonicalFst hs (cancelRun_canonical hs)
    · rename_i e
      split
      · exact hs
      · exact ite_canonicalFst hs (cancelLaunch_canonical hs)
  · split
    · exact hs
    · exact ite_canonicalFst hs (cancelGraph_canonical hs)
  · split
    · exact hs
    · exact ite_canonicalFst hs (cancelPhase_canonical hs)
  · exact ite_canonicalFst hs (cancelAll_canonical hs)

theorem reportRes_canonical {l} (hs : Canonical s) : Canonical (s.reportRes l) := by
  unfold State.reportRes
  dsimp only
  split
  · exact hs
  · exact ite_canonical hs (record_canonical (passHold_canonical (ctxWrite_canonical hs)))

theorem passLaunch_canonical {l} (hs : Canonical s) : Canonical (s.passLaunch l) := by
  unfold State.passLaunch
  split
  · exact passHold_canonical hs
  · exact hs

theorem finishLaunch_canonical {l} (hs : Canonical s) : Canonical (s.finishLaunch l) := by
  unfold State.finishLaunch
  dsimp only
  split
  · exact settleRun_canonical (settleGraph_canonical (reportRes_canonical (arriveOpt_canonical (passLaunch_canonical hs))))
  · exact settleGraph_canonical (reportRes_canonical (arriveOpt_canonical (passLaunch_canonical hs)))

theorem publish_canonical {ctx launch h m} (hs : Canonical s) : Canonical (s.publish ctx launch h m) :=
  record_canonical (holdLines_canonical (launchWrite_canonical (setModel_canonical
    (setModel_canonical (setModel_canonical hs)))))

theorem publishHeld_canonical {l} (hs : Canonical s) : Canonical (s.publishHeld l) :=
  record_canonical (foldl_canonical (fun _ _ ht => ite_canonical ht (publish_canonical ht)) hs)

theorem commitLaunch_canonical {l} (hs : Canonical s) : Canonical (s.commitLaunch l) :=
  publishHeld_canonical (holdLines_canonical (sendOut_canonical hs (fun _ _ ht => writeMemAs_canonical ht)))

theorem execLaunchCommit_canonical {ctx id} (hs : Canonical s) : CanonicalOut (execLaunchCommit ctx id s) := by
  unfold execLaunchCommit
  dsimp only
  split
  · exact trivial
  · rename_i e
    refine ite_canonicalOut trivial ?_
    split
    · exact ite_canonical (mergeLaunch_canonical hs) hs
    · exact ite_canonical (commitLaunch_canonical (ite_canonical (mergeLaunch_canonical hs) hs)) (ite_canonical
      (mergeLaunch_canonical hs) hs)

theorem finishExposed_canonical {l} (hs : Canonical s) : Canonical (s.finishExposed l) := by
  unfold State.finishExposed
  dsimp only
  split
  · exact finishLaunch_canonical (publishHeld_canonical hs)
  · exact publishHeld_canonical hs

theorem execLaunchComplete_canonical {ctx id} (hs : Canonical s) : CanonicalOut (execLaunchComplete ctx id s) := by
  unfold execLaunchComplete
  dsimp only
  split
  · exact trivial
  · rename_i e
    refine ite_canonicalOut trivial (ite_canonicalOut ?_ (finishExposed_canonical hs))
    split
    · exact ite_canonical (finishExposed_canonical (mergeLaunch_canonical hs)) (mergeLaunch_canonical hs)
    · exact mergeLaunch_canonical hs

theorem execSnapmRelease_canonical {ctx id} (hs : Canonical s) : CanonicalOut (execSnapmRelease ctx id s) := by
  unfold execSnapmRelease
  dsimp only
  split
  · exact trivial
  · exact ite_canonicalOut trivial (record_canonical (foldl_canonical (fun _ _ ht => passHold_canonical ht) (foldl_canonical
    (fun _ _ hu => record_canonical hu) (ite_canonical (mergeUnits_canonical hs) hs))))

/-! Machine/Tickets. -/

theorem issueTicket_canonical {l i img} (hs : Canonical s) : Canonical (s.issueTicket l i img).1 :=
  record_canonical (setTicket_canonical hs)

theorem execTicket_canonical {a d} (hs : Canonical s) : CanonicalOut (execTicket a d s) := by
  refine guard_canonical hs (fun _ ht => ite_canonicalOut (takeTrap_canonical ht) ?_)
  dsimp only
  split
  · exact addrTrap_canonical ht
  · exact record_canonical ht
  · rename_i e1
    split
    · exact record_canonical (exposeUnit_canonical ht)
    · rename_i e2
      split
      · exact takeTrap_canonical (exposeUnit_canonical ht)
      · exact record_canonical (issueTicket_canonical (exposeUnit_canonical ht))

theorem execTkdrop_canonical {a d} (hs : Canonical s) : CanonicalOut (execTkdrop a d s) := by
  refine guard_canonical hs (fun _ ht => ite_canonicalOut (takeTrap_canonical ht) ?_)
  dsimp only
  split
  · exact record_canonical (exposeUnit_canonical ht)
  · exact ite_canonicalOut (record_canonical (exposeUnit_canonical ht)) (record_canonical (record_canonical
    (exposeUnit_canonical ht)))

theorem execTkqry_canonical {b a d} (hs : Canonical s) : CanonicalOut (execTkqry b a d s) := by
  refine guard_canonical hs (fun _ ht => ite_canonicalOut (takeTrap_canonical ht) (ite_canonicalOut (record_canonical ht) ?_))
  split
  · exact record_canonical ht
  · exact record_canonical ht

theorem acceptRun_canonical {p inst graph phase rs} (hs : Canonical s) : Canonical (s.acceptRun p inst graph phase rs) :=
  foldl_canonical (fun _ _ ht => record_canonical (record_canonical (record_canonical ht))) hs

theorem startRun_canonical {p r fwd bwd} (hs : Canonical s) : Canonical (s.startRun p r fwd bwd) :=
  record_canonical (acceptRun_canonical (acceptRun_canonical hs))

theorem redeem_canonical {d id blk bar h} (hs : Canonical s) : Canonical (s.redeem d id blk bar h) := by
  unfold State.redeem
  dsimp only
  split
  · exact subTrap_canonical (exposeUnit_canonical hs)
  · exact ite_canonical (subTrap_canonical (exposeUnit_canonical hs)) (ite_canonical (takeTrap_canonical
    (exposeUnit_canonical hs)) (ite_canonical (record_canonical (exposeUnit_canonical hs)) (ite_canonical (record_canonical
      (setTicketState_canonical (exposeUnit_canonical hs))) (ite_canonical (takeTrap_canonical (exposeUnit_canonical hs))
        (record_canonical (startRun_canonical (retainOpt_canonical (setTicketState_canonical (record_canonical
          (exposeUnit_canonical hs))))))))))

theorem execRedeem_canonical {b a d} (hs : Canonical s) : CanonicalOut (execRedeem b a d s) := by
  refine guard_canonical hs (fun _ ht => ite_canonicalOut (takeTrap_canonical ht)
    (ite_canonicalOut (takeTrap_canonical ht) ?_))
  dsimp only
  split
  · exact addrTrap_canonical ht
  · split
    · exact takeTrap_canonical ht
    · exact redeem_canonical ht

theorem takeBuffer_canonical {ctx r} (hs : Canonical s) : CanonicalOut (s.takeBuffer ctx r) := by
  refine ite_canonicalOut trivial ?_
  split
  · exact trivial
  · exact hs

theorem runStep_canonical {ctx : Nat} {id : Word} {f : State → RedeemRun → Out} {s : State}
    (hf : ∀ t r, Canonical t → CanonicalOut (f t r)) (hs : Canonical s) :
    CanonicalOut (runStep ctx id f s) := by
  unfold runStep
  split
  · exact trivial
  · exact underRegs_canonical (fun _ ht => hf _ _ ht) hs

theorem tileDelivered_canonical {ctx r} (hs : Canonical s) : Canonical (s.tileDelivered ctx r) :=
  ite_canonical (endRun_canonical hs) hs

theorem reportDelivery_canonical {ctx r st} (hs : Canonical s) : Canonical (s.reportDelivery ctx r st) := ite_canonical hs hs

theorem sendDigest_canonical {ctx m version d} (hs : Canonical s) : Canonical (s.sendDigest ctx m version d) :=
  ite_canonical hs hs

theorem exchangeDigest_canonical {ctx m launch version d time} (hs : Canonical s) :
    Canonical (s.exchangeDigest ctx m launch version d time) :=
  ite_canonical (record_canonical (sendDigest_canonical hs)) hs

theorem wvpub_canonical {d m} (hs : Canonical s) : Canonical (s.wvpub d m) :=
  ite_canonical (takeTrap_canonical hs) (ite_canonical hs (record_canonical (ite_canonical (record_canonical
    (exchangeDigest_canonical hs)) (publish_canonical (exchangeDigest_canonical hs)))))

theorem execDigest_canonical {m ctx version digest chk} (hs : Canonical s) :
    CanonicalOut (execDigest m ctx version digest chk s) := by
  unfold execDigest
  dsimp only
  split
  · exact ite_canonicalOut trivial (ite_canonicalOut (ctxWrite_canonical (ctxWrite_canonical hs)) (record_canonical
    (ite_canonical (ctxWrite_canonical hs) (ctxWrite_canonical (ctxWrite_canonical hs)))))
  · exact trivial

theorem execDigestTimeout_canonical {ctx m} (hs : Canonical s) : CanonicalOut (execDigestTimeout ctx m s) := by
  unfold execDigestTimeout
  dsimp only
  split
  · exact trivial
  · exact ite_canonicalOut trivial hs

/-! Machine/Save. -/

theorem trapThread_canonical {a c i} (hs : Canonical s) : Canonical (s.trapThread a c i) := setAgent_canonical hs

theorem imageWrite_canonical {va bs r} (hs : Canonical s) : Canonical (s.imageWrite va bs r) :=
  sendWrites_canonical (writeMem_canonical hs)

theorem captureSlots_canonical {w} (hs : Canonical s) : Canonical (s.captureSlots w) := by
  refine foldl_canonical (fun _ _ ht => record_canonical ht) (foldl_canonical (fun _ _ hu => ?_) hs)
  dsimp only
  split
  · exact ite_canonical (record_canonical hu) hu
  · exact hu

theorem clearAsked_canonical {ctx id} (hs : Canonical s) : Canonical (s.clearAsked ctx id) :=
  foldl_canonical (fun _ _ ht => ite_canonical ht (record_canonical ht)) hs

theorem saveUnit_canonical {x image w} (hs : Canonical s) : Canonical (s.saveUnit x image w) :=
  record_canonical (record_canonical (record_canonical (passHold_canonical (captureSlots_canonical (record_canonical
    (imageWrite_canonical hs))))))

theorem execPreemptionStop_canonical {u} (hs : Canonical s) : CanonicalOut (execPreemptionStop u s) := by
  unfold execPreemptionStop
  dsimp only
  split
  · exact trivial
  · rename_i e0
    split
    · exact trivial
    · rename_i e1
      split
      · exact ite_canonicalOut (setAgent_canonical hs) (ite_canonicalOut trivial (ite_canonicalOut (setAgent_canonical
        (clearAsked_canonical hs)) (setAgent_canonical (saveUnit_canonical hs))))
      · exact trivial

theorem execCtxsv_canonical {b a d} (hs : Canonical s) : CanonicalOut (execCtxsv b a d s) := by
  refine guard_canonical hs (fun _ ht => ite_canonicalOut (takeTrap_canonical ht)
    (ite_canonicalOut (supTrap_canonical ht) ?_))
  dsimp only
  split
  · exact record_canonical ht
  · exact ite_canonicalOut (record_canonical ht) (ite_canonicalOut (record_canonical ht)
      (record_canonical (record_canonical ht)))

theorem dropSlots_canonical {w} (hs : Canonical s) : Canonical (s.dropSlots w) := by
  refine foldl_canonical (fun _ _ ht => ?_) hs
  split
  · exact record_canonical ht
  · exact ht

theorem restoreSlots_canonical {w im d c} (hs : Canonical s) : Canonical (s.restoreSlots w im d c) := by
  refine foldl_canonical (fun _ _ ht => record_canonical ht) (dropSlots_canonical (foldl_canonical
    (fun _ _ hu => record_canonical hu) (foldl_canonical (fun _ _ hv => ?_) hs)))
  dsimp only
  split
  · exact record_canonical hv
  · exact hv

theorem restoreAgents_canonical {x im d c cores} (hs : Canonical s) : Canonical (s.restoreAgents x im d c cores) :=
  writeMem_canonical (foldl_canonical (fun _ _ ht => setAgent_canonical ht) hs)

theorem rebindQuad_canonical {x im d c} (hs : Canonical s) : Canonical (s.rebindQuad x im d c) := ite_canonical hs hs

theorem restoreUnit_canonical {x im d c cores} (hs : Canonical s) : Canonical (s.restoreUnit x im d c cores) :=
  writeMem_canonical (record_canonical (clearAsked_canonical (record_canonical (rebindQuad_canonical (restoreAgents_canonical
    (restoreSlots_canonical (foldl_canonical (fun _ _ ht => takeCore_canonical ht) hs)))))))

theorem loadImage_canonical {a d va w upto fin} (hs : Canonical s) (hfin : ∀ t x, Canonical t → Canonical (fin t x)) :
    Canonical (s.loadImage a d va w upto fin) := by
  refine ite_canonical (hfin _ _ hs) (ite_canonical (sendReads_canonical (setAgent_canonical hs)) ?_)
  dsimp only
  split
  · exact trapThread_canonical hs
  · refine ite_canonical (hfin _ _ hs) (ite_canonical (sendReads_canonical (setAgent_canonical hs)) ?_)
    split
    · exact trapThread_canonical hs
    · split
      · exact hfin _ _ hs
      · exact ite_canonical (restoreUnit_canonical (hfin _ _ hs)) (hfin _ _ hs)

theorem imageArrived_canonical {w} (hs : Canonical s) : Canonical (s.imageArrived w) := by
  unfold State.imageArrived
  split
  · exact hs
  · rename_i e
    split
    · exact ite_canonical hs (loadImage_canonical hs (fun _ _ ht => setAgent_canonical ht))
    · exact hs

end

end Sys2Proof.Proofs
end

section
/-!
PROOF. Memory stays in canonical form (O60), function by function: recovery, the supervisor, the ports and the rotation.
-/
namespace Sys2Proof.Proofs

open Sys2Proof.Machine Sys2Proof.Laws

section

variable {s : State}

/-! Machine/Recover. -/

theorem writeRecord_canonical {p r} (hs : Canonical s) : Canonical (s.writeRecord p r) :=
  record_canonical (record_canonical (record_canonical (supWrite_canonical (supWrite_canonical hs))))

theorem emitRecord_canonical {p r} (hs : Canonical s) : Canonical (s.emitRecord p r) :=
  ite_canonical (writeRecord_canonical hs) (ite_canonical hs (supWrite_canonical hs))

theorem execFaultRingDrain_canonical {p} (hs : Canonical s) : CanonicalOut (execFaultRingDrain p s) := by
  unfold execFaultRingDrain
  dsimp only
  split
  · exact trivial
  · exact ite_canonicalOut trivial (writeRecord_canonical hs)

theorem landAgent_canonical {w f} (hs : Canonical s) : Canonical (s.landAgent w f) := by
  unfold State.landAgent
  split
  · exact ite_canonical (setAgent_canonical hs) hs
  · exact hs

theorem startRollback_canonical {l again} (hs : Canonical s) : Canonical (s.startRollback l again) :=
  record_canonical (endSaved_canonical hs)

theorem faultComplete_canonical {l} (hs : Canonical s) : Canonical (s.faultComplete l) := reportRes_canonical hs

theorem killComplete_canonical {l} (hs : Canonical s) : Canonical (s.killComplete l) := by
  unfold State.killComplete
  dsimp only
  split
  · exact settleRun_canonical (faultGraph_canonical (faultComplete_canonical hs))
  · exact faultGraph_canonical (faultComplete_canonical hs)

theorem applyPolicy_canonical {p l policy} (hs : Canonical s) : Canonical (s.applyPolicy p l policy) := by
  unfold State.applyPolicy
  split
  · exact ite_canonical (faultComplete_canonical hs) (landAgent_canonical hs)
  · exact ite_canonical (killComplete_canonical hs) (landAgent_canonical (killLaunch_canonical hs))
  · exact landAgent_canonical (startRollback_canonical hs)
  · exact landAgent_canonical hs

theorem execFaultRecordDeliver_canonical (hs : Canonical s) : CanonicalOut (execFaultRecordDeliver s) := by
  unfold execFaultRecordDeliver
  dsimp only
  split
  · exact trivial
  · refine ite_canonicalOut trivial ?_
    split
    · exact emitRecord_canonical (landAgent_canonical hs)
    · exact emitRecord_canonical (ite_canonical (landAgent_canonical hs) (applyPolicy_canonical hs))

theorem killWith_canonical {l c} (hs : Canonical s) : Canonical (s.killWith l c) := record_canonical (killLaunch_canonical hs)

theorem restorePages_canonical {r} (hs : Canonical s) : Canonical (s.restorePages r) := writeAll_wf (filter_memory_wf hs _) _

theorem killWriters_canonical {l pages} (hs : Canonical s) : Canonical (s.killWriters l pages) := by
  refine foldl_canonical (fun _ _ ht => ?_) hs
  split
  · exact killWith_canonical ht
  · exact ht

theorem execFactNone_canonical {ctx id} (hs : Canonical s) : CanonicalOut (execFactNone ctx id s) := by
  unfold execFactNone
  split
  · exact trivial
  · exact setAgent_canonical hs

theorem factKill_canonical {a d l} (hs : Canonical s) : CanonicalOut (s.factKill a d l) := by
  unfold State.factKill
  split
  · exact setAgent_canonical hs
  · exact ite_canonicalOut trivial (killLaunch_canonical hs)

theorem execFactKill_canonical {ctx id} (hs : Canonical s) : CanonicalOut (execFactKill ctx id s) := by
  unfold execFactKill
  split
  · exact trivial
  · exact factKill_canonical hs

theorem execFactReplay_canonical {ctx id} (hs : Canonical s) : CanonicalOut (execFactReplay ctx id s) := by
  unfold execFactReplay
  split
  · exact trivial
  · rename_i e
    split
    · exact setAgent_canonical hs
    · exact ite_canonicalOut trivial (ite_canonicalOut (setAgent_canonical hs) (ite_canonicalOut (startRollback_canonical hs)
      (factKill_canonical hs)))

theorem execFactResume_canonical {ctx id} (hs : Canonical s) : CanonicalOut (execFactResume ctx id s) := by
  unfold execFactResume
  dsimp only
  split
  · exact trivial
  · rename_i e
    split
    · exact setAgent_canonical hs
    · exact record_canonical (setAgent_canonical hs)

/-! Machine/System. -/

theorem zeroTilesOn_canonical {mask p} (hs : Canonical s) : Canonical (s.zeroTilesOn mask p) :=
  foldl_canonical (fun _ _ ht => foldl_canonical (fun _ _ hu => record_canonical hu) ht) hs

theorem zeroTiles_canonical {c old new} (hs : Canonical s) : Canonical (s.zeroTiles c old new) := zeroTilesOn_canonical hs

theorem moveTiles_canonical {c old new} (hs : Canonical s) : Canonical (s.moveTiles c old new) := by
  unfold State.moveTiles
  exact zeroTilesOn_canonical hs

theorem followMaster_canonical (hs : Canonical s) : Canonical s.followMaster :=
  ite_canonical hs (foldl_canonical (fun _ _ ht => record_canonical ht) hs)

theorem csrWrite_canonical {x old new} (hs : Canonical s) : Canonical (s.csrWrite x old new) :=
  ite_canonical hs (ite_canonical hs (ite_canonical hs (ite_canonical hs (ite_canonical (record_canonical
    (moveTiles_canonical hs)) (ite_canonical (record_canonical (zeroTiles_canonical hs)) (ite_canonical hs
      (followMaster_canonical hs)))))))

theorem execCsrr_canonical {a d} (hs : Canonical s) : CanonicalOut (execCsrr a d s) := by
  refine guard_canonical hs (fun _ ht => ?_)
  dsimp only
  split
  · exact takeTrap_canonical ht
  · exact record_canonical ht

theorem csrForm_canonical {op b a d} (hs : Canonical s) : CanonicalOut (csrForm op b a d s) := by
  refine guard_canonical hs (fun _ ht => ?_)
  dsimp only
  split
  · exact takeTrap_canonical ht
  · rename_i e
    split
    · exact takeTrap_canonical ht
    · exact ite_canonicalOut (record_canonical ht) (record_canonical (csrWrite_canonical ht))

theorem trapWaiter_canonical {a c} (hs : Canonical s) : Canonical (s.trapWaiter a c) := trapThread_canonical hs

theorem dropTlb_canonical {asid p} (hs : Canonical s) : Canonical (s.dropTlb asid p) :=
  foldl_canonical (fun _ _ ht => record_canonical ht) hs

theorem dropTranslations_canonical {asid p q} (hs : Canonical s) : Canonical (s.dropTranslations asid p q) :=
  record_canonical (record_canonical (dropTlb_canonical hs))

theorem execContextCreate_canonical {ctx cfg} (hs : Canonical s) : CanonicalOut (execContextCreate ctx cfg s) := by
  unfold execContextCreate
  dsimp only
  split
  · exact trivial
  · exact ite_canonicalOut trivial (ite_canonicalOut (trapWaiter_canonical hs) (setAgent_canonical (record_canonical
    (record_canonical (record_canonical (record_canonical (record_canonical (record_canonical (zeroTilesOn_canonical
      (ite_canonical hs (ctxWrite_canonical hs)))))))))))

theorem execContextEnd_canonical {ctx} (hs : Canonical s) : CanonicalOut (execContextEnd ctx s) := by
  unfold execContextEnd
  dsimp only
  split
  · exact trivial
  · rename_i e
    refine ite_canonicalOut ?_ (ite_canonicalOut trivial (ite_canonicalOut (setAgent_canonical hs) (ite_canonicalOut trivial
      (cancelAll_canonical hs))))
    split
    · exact trapWaiter_canonical hs
    · exact setAgent_canonical (record_canonical (moveTiles_canonical hs))

theorem execAsidChange_canonical {ctx asid value} (hs : Canonical s) : CanonicalOut (execAsidChange ctx asid value s) := by
  unfold execAsidChange
  dsimp only
  split
  · exact trivial
  · exact ite_canonicalOut trivial (ite_canonicalOut (trapWaiter_canonical hs) (ite_canonicalOut (trapWaiter_canonical hs)
    (setAgent_canonical (record_canonical (record_canonical (record_canonical (dropTlb_canonical hs)))))))

theorem mapReload_canonical {n value} (hs : Canonical s) : CanonicalOut (s.mapReload n value) := by
  unfold State.mapReload
  split
  · exact trivial
  · exact ite_canonicalOut trivial (setAgent_canonical hs)

theorem invalidates_canonical {p k} (hs : Canonical s) (hk : ∀ t, Canonical t → CanonicalOut (k t)) :
    CanonicalOut (s.invalidates p k) :=
  drained_canonical hs (fun _ ht => ite_canonicalOut ht (hk _ (record_canonical ht)))

theorem execPrefw_canonical {b a} (hs : Canonical s) : CanonicalOut (execPrefw b a s) := by
  refine guard_canonical hs (fun _ ht => record_canonical ?_)
  dsimp only
  split
  · exact ht
  · exact ite_canonical (record_canonical ht) ht

theorem execZeroComplete_canonical {w} (hs : Canonical s) : CanonicalOut (execZeroComplete w s) := by
  unfold execZeroComplete
  dsimp only
  split
  · exact trivial
  · rename_i e
    split
    · exact setAgent_canonical (noteWrites_canonical (zeroBytes_canonical hs))
    · exact trivial

theorem execHaltResume_canonical {w} (hs : Canonical s) : CanonicalOut (execHaltResume w s) := by
  unfold execHaltResume
  split
  · exact trivial
  · exact ite_canonicalOut (setAgent_canonical hs) trivial

theorem routeArrived_canonical {w} (hs : Canonical s) : Canonical (s.routeArrived w) := by
  unfold State.routeArrived
  split
  · exact hs
  · rename_i e
    split
    · exact ite_canonical hs (setAgent_canonical hs)
    · exact hs

theorem execSnapb_canonical {a d} (hs : Canonical s) : CanonicalOut (execSnapb a d s) := by
  refine guard_canonical hs (fun _ ht => ?_)
  dsimp only
  split
  · exact record_canonical ht
  · exact ite_canonicalOut (record_canonical (record_canonical ht)) (record_canonical
      (record_canonical (record_canonical ht)))

theorem execSnapc_canonical {b a d} (hs : Canonical s) : CanonicalOut (execSnapc b a d s) := by
  refine guard_canonical hs (fun _ ht => ?_)
  dsimp only
  split
  · exact record_canonical ht
  · exact ite_canonicalOut (record_canonical (record_canonical ht)) (ite_canonicalOut ht (ite_canonicalOut (record_canonical
    (commitLaunch_canonical (record_canonical ht))) (record_canonical (startRollback_canonical (record_canonical ht)))))

/-! Machine/HostPorts. -/

theorem ringTaken_canonical {ctx i res} (hs : Canonical s) : Canonical (s.ringTaken ctx i res) :=
  record_canonical (record_canonical (ctxWrite_canonical (record_canonical (ctxWrite_canonical hs))))

theorem goodProd_canonical {ctx} (hs : Canonical s) : CanonicalOut (s.goodProd ctx) := ite_canonicalOut hs trivial

theorem claim_canonical {port token} (hs : Canonical s) : Canonical (s.claim port token) := ite_canonical hs hs

theorem execHsemClaim_canonical {port token} (hs : Canonical s) : CanonicalOut (execHsemClaim port token s) := by
  refine ite_canonicalOut trivial ?_
  dsimp only
  split
  · exact ite_canonicalOut (claim_canonical hs) hs
  · exact claim_canonical hs

theorem releaseHsem_canonical {port token} (hs : Canonical s) : Canonical (s.releaseHsem port token) := ite_canonical hs hs

/-! Machine/Fabric. -/

theorem stampEgress_canonical {p k} (hs : Canonical s) : Canonical (s.stampEgress p k) :=
  ite_canonical hs (ite_canonical hs (ite_canonical hs hs))

theorem forwardAt_canonical {t i p} (hs : Canonical s) (e : s.forwardAt i p = some t) : Canonical t := by
  have hgone {x} : Canonical { s with packets := x } := hs
  unfold State.forwardAt at e
  dsimp only at e
  repeat' split at e
  all_goals cases e
  · exact hs
  · exact hs
  · exact hs
  · exact hs
  · exact stampEgress_canonical (record_canonical hgone)

theorem setLink_canonical {port ls} (hs : Canonical s) : Canonical (s.setLink port ls) :=
  record_canonical (record_canonical (ite_canonical hs (record_canonical (supWrite_canonical hs))))

theorem homeByte_canonical {ctx va write reads} (hs : Canonical s) : Canonical (s.homeByte ctx va write reads).1 := by
  refine ite_canonicalFst hs ?_
  split
  · rename_i e
    exact ite_canonicalFst (canonical_of_fst e (translate_canonical hs)) (ite_canonicalFst (canonical_of_fst e
      (translate_canonical hs)) (canonical_of_fst e (translate_canonical hs)))
  · rename_i e
    exact canonical_of_fst e (translate_canonical hs)

theorem homeBytes_canonical {ctx write reads n x} (hs : Canonical s) : Canonical (s.homeBytes ctx write reads n x).1 := by
  induction n generalizing s x with
  | zero =>
    unfold State.homeBytes
    exact hs
  | succ n ih =>
    unfold State.homeBytes
    dsimp only
    split
    · rename_i e
      exact canonical_of_fst e (homeByte_canonical hs)
    · rename_i e
      exact ih (canonical_of_fst e (homeByte_canonical hs))

theorem homeKeys_canonical {h write reads va n} (hs : Canonical s) : Canonical (s.homeKeys h write reads va n).1 := by
  unfold State.homeKeys
  dsimp only
  split
  · exact hs
  · rename_i e0
    split
    · rename_i e1
      exact ite_canonical (record_canonical (canonical_of_fst e1 (homeBytes_canonical hs))) (canonical_of_fst e1
        (homeBytes_canonical hs))
    · exact homeBytes_canonical hs

theorem homeWrite_canonical {ks bs} (hs : Canonical s) : Canonical (s.homeWrite ks bs) := sysWrite_canonical hs

theorem execRead_canonical {i} (hs : Canonical s) : CanonicalOut (execRead i s) := by
  unfold execRead
  split
  · exact trivial
  · rename_i e0
    split
    · exact hs
    · rename_i e1
      exact record_canonical (canonical_of_fst e1 (homeKeys_canonical hs))
    · rename_i e1
      exact ite_canonicalOut (record_canonical (canonical_of_fst e1 (homeKeys_canonical hs))) (record_canonical
        (canonical_of_fst e1 (homeKeys_canonical hs)))

theorem execWrite_canonical {i} (hs : Canonical s) : CanonicalOut (execWrite i s) := by
  unfold execWrite
  split
  · exact trivial
  · rename_i e0
    split
    · exact hs
    · rename_i e1
      exact record_canonical (canonical_of_fst e1 (homeKeys_canonical hs))
    · rename_i e1
      exact record_canonical (homeWrite_canonical (canonical_of_fst e1 (homeKeys_canonical hs)))

theorem execAtomic_canonical {i} (hs : Canonical s) : CanonicalOut (execAtomic i s) := by
  unfold execAtomic
  dsimp only
  split
  · exact trivial
  · rename_i e0
    split
    · exact hs
    · rename_i e1
      exact record_canonical (canonical_of_fst e1 (homeKeys_canonical hs))
    · rename_i e1
      exact ite_canonicalOut (record_canonical (canonical_of_fst e1 (homeKeys_canonical hs))) (record_canonical
        (homeWrite_canonical (canonical_of_fst e1 (homeKeys_canonical hs))))

theorem trapPeer_canonical {w c va} (hs : Canonical s) : Canonical (s.trapPeer w c va) := by
  unfold State.trapPeer
  dsimp only
  split
  · exact hs
  · exact trapThread_canonical hs

theorem wakePeer_canonical {w tag data} (hs : Canonical s) : Canonical (s.wakePeer w tag data) := by
  unfold State.wakePeer
  split
  · exact hs
  · rename_i e
    split
    · exact ite_canonical (setAgent_canonical hs) hs
    · exact hs

theorem noteCause_canonical {r cause} (hs : Canonical s) : Canonical (s.noteCause r cause) :=
  foldl_canonical (fun _ _ ht => record_canonical ht) hs

theorem tellMma_canonical {r cause} (hs : Canonical s) : Canonical (s.tellMma r cause) := ite_canonical hs hs

/-! Machine/Time. -/

theorem measure_canonical {d twice may} (hs : Canonical s) : Canonical (s.measure d twice may) := followMaster_canonical hs

theorem execDieTimeTick_canonical {die add} (hs : Canonical s) : CanonicalOut (execDieTimeTick die add s) := by
  refine ite_canonicalOut trivial ?_
  split
  · exact ite_canonicalOut hs trivial
  · exact trivial

theorem execSync_canonical {t2} (hs : Canonical s) : CanonicalOut (execSync t2 s) := by
  unfold execSync
  dsimp only
  split
  · exact trivial
  · exact ite_canonicalOut trivial hs

theorem execFollow_canonical {t1} (hs : Canonical s) : CanonicalOut (execFollow t1 s) := by
  unfold execFollow
  dsimp only
  split
  · exact trivial
  · exact ite_canonicalOut trivial (ite_canonical hs hs)

theorem execDreq_canonical {port t4} (hs : Canonical s) : CanonicalOut (execDreq port t4 s) := by
  unfold execDreq
  dsimp only
  split
  · exact trivial
  · exact ite_canonicalOut trivial (ite_canonical hs hs)

theorem epsilon_canonical {recent} (hs : Canonical s) : Canonical (s.epsilon recent).1 := ite_canonical hs hs

theorem execDrsp_canonical {t4} (hs : Canonical s) : CanonicalOut (execDrsp t4 s) := by
  unfold execDrsp
  dsimp only
  split
  · exact trivial
  · exact ite_canonicalOut trivial (measure_canonical (foldl_canonical (fun _ _ ht => record_canonical ht) (record_canonical
    (record_canonical (epsilon_canonical hs)))))

/-! Machine/Boot. -/

theorem unpowered_canonical {p} (hs : Canonical s) : Canonical (s.unpowered p) := filter_memory_wf hs _

theorem bringUp_canonical (hs : Canonical s) : Canonical s.bringUp :=
  writeAll_canonical rfl (foldl_canonical (fun _ _ ht => ite_canonical (record_canonical (record_canonical ht)) ht) hs)

theorem trainLinks_canonical (hs : Canonical s) : Canonical s.trainLinks :=
  foldl_canonical (fun _ _ ht => setLink_canonical ht) hs

theorem raiseMinimum_canonical {stage value} (hs : Canonical s) : Canonical (s.raiseMinimum stage value) :=
  ite_canonical hs (ite_canonical hs hs)

theorem execWindow_canonical {a} (hs : Canonical s) : CanonicalOut (execWindow a s) := by
  unfold execWindow
  split
  · exact ite_canonicalOut (raiseMinimum_canonical hs) trivial
  · exact hs

/-! Machine/Illegal. -/

theorem execWordThatDoesNotExecute_canonical {w} (hs : Canonical s) : CanonicalOut (execWordThatDoesNotExecute w s) := by
  unfold execWordThatDoesNotExecute
  dsimp only
  split
  · exact trivial
  · rename_i e
    split
    · exact takeTrap_canonical hs
    · exact guard_canonical hs (fun _ ht => takeTrap_canonical ht)

/-! Machine/Reliability. -/

theorem execEccCorrected_canonical {die frame} (hs : Canonical s) : CanonicalOut (execEccCorrected die frame s) := by
  refine ite_canonicalOut trivial ?_
  dsimp only
  split
  · exact hs
  · exact ite_canonicalOut trivial hs

theorem failCopy_canonical {die held i c st} (hs : Canonical s) : Canonical (s.failCopy die held i c st) := by
  unfold State.failCopy
  split
  · exact arriveRows_canonical hs
  · exact countCopy_canonical hs
  · exact endNode_canonical (countCopy_canonical hs)

theorem failDce_canonical {die c st} (hs : Canonical s) : Canonical (s.failDce die c st) :=
  endNode_canonical (complete_canonical hs)

theorem failUpd_canonical {die i c st} (hs : Canonical s) : Canonical (s.failUpd die i c st) := by
  refine endUpd_canonical ?_
  split
  · exact ite_canonical hs hs
  · exact hs

theorem failOp_canonical {op st} (hs : Canonical s) : Canonical (s.failOp op st) := by
  unfold State.failOp
  split
  · exact endOp_canonical hs
  · exact popHead_canonical hs

theorem failCommand_canonical {die seq c} (hs : Canonical s) : Canonical (s.failCommand die seq c) := by
  unfold State.failCommand
  dsimp only
  split
  · rename_i e0
    split
    · exact failCopy_canonical hs
    · exact hs
  · split
    · exact failCopy_canonical hs
    · exact hs
  · rename_i e0
    split
    · rename_i e1
      split
      · exact endBulk_canonical hs
      · exact hs
    · exact failDce_canonical hs
    · split
      · exact failUpd_canonical hs
      · exact hs
    · rename_i e1
      split
      · exact failOp_canonical hs
      · exact hs

theorem liftStalls_canonical {die} (hs : Canonical s) : Canonical (s.liftStalls die) :=
  foldl_canonical (fun _ _ ht => record_canonical ht) hs

theorem execReplicaCommit_canonical {i} (hs : Canonical s) : CanonicalOut (execReplicaCommit i s) := by
  unfold execReplicaCommit
  split
  · rename_i e
    exact ite_canonical (foldl_canonical (fun _ _ ht => liftStalls_canonical ht) (canonicalOut_next e
      (commitStep_canonical hs))) (canonicalOut_next e (commitStep_canonical hs))
  · exact commitStep_canonical hs

theorem execReplicaLockTimeout_canonical {die i} (hs : Canonical s) : CanonicalOut (execReplicaLockTimeout die i s) := by
  unfold execReplicaLockTimeout
  split
  · exact trivial
  · exact ite_canonicalOut (failCommand_canonical hs) trivial

theorem retrainLinks_canonical (hs : Canonical s) : Canonical s.retrainLinks :=
  foldl_canonical (fun _ _ ht => ite_canonical ht (setLink_canonical (setLink_canonical ht))) hs

theorem endByReset_canonical {l c} (hs : Canonical s) : Canonical (s.endByReset l c) :=
  finishLaunch_canonical (record_canonical (record_canonical (faultGraph_canonical hs)))

theorem countChk_canonical (hs : Canonical s) : Canonical s.countChk :=
  foldl_canonical (fun _ _ ht => ite_canonical (foldl_canonical (fun _ _ hu => ite_canonical
    (ctxWrite_canonical hu) hu) ht) ht) hs

theorem countChecker_canonical {die} (hs : Canonical s) : Canonical (s.countChecker die) :=
  countChk_canonical (ite_canonical hs hs)

theorem trapAgent_canonical {a c} (hs : Canonical s) : Canonical (s.trapAgent a c) :=
  ite_canonical (setAgent_canonical hs) (record_canonical (setAgent_canonical hs))

theorem deliveryMismatch_canonical {ctx id c} (hs : Canonical s) : CanonicalOut (s.deliveryMismatch ctx id c) :=
  runStep_canonical (fun _ _ ht => ite_canonicalOut trivial (record_canonical (tileDelivered_canonical (record_canonical
    (countChecker_canonical ht))))) hs

/-! Machine/Walker. -/

theorem walkRead_canonical {die w} (hs : Canonical s) : Canonical (s.walkRead die w) := by
  unfold State.walkRead
  dsimp only
  split
  · exact hs
  · exact ite_canonical hs (ite_canonical hs hs)

theorem walkCas_canonical {die w} (hs : Canonical s) : Canonical (s.walkCas die w) :=
  ite_canonical (record_canonical (sysWrite_canonical hs)) (ite_canonical hs (walkRead_canonical hs))

theorem grantSlot_canonical {die w} (hs : Canonical s) : CanonicalOut (s.grantSlot die w) :=
  ite_canonicalOut (walkRead_canonical hs) trivial

theorem execPageWalk_canonical {die ctx va write} (hs : Canonical s) : CanonicalOut (execPageWalk die ctx va write s) := by
  unfold execPageWalk
  split
  · exact ite_canonicalOut (walkCas_canonical hs) (grantSlot_canonical hs)
  · exact trivial

theorem execWalkSlotGrant_canonical {die} (hs : Canonical s) : CanonicalOut (execWalkSlotGrant die s) := by
  unfold execWalkSlotGrant
  split
  · exact trivial
  · exact grantSlot_canonical hs

/-! Machine/Rotation. -/

theorem performDue_canonical {w n} (hs : Canonical s) : Canonical (s.performDue w n) := by
  refine foldl_canonical (fun _ _ ht => ?_) hs
  split
  · exact ite_canonical (performOne_canonical ht) ht
  · exact ht

theorem atomicsDue_canonical {w t n} (hs : Canonical s) : Canonical (s.atomicsDue w t n) := by
  refine foldl_canonical (fun _ _ ht => ?_) hs
  split
  · exact ite_canonical (performPending_canonical ht) ht
  · exact ht

theorem arrivalsDue_canonical {w n} (hs : Canonical s) : Canonical (s.arrivalsDue w n) := by
  refine foldl_canonical (fun _ _ ht => ?_) hs
  split
  · rename_i e
    unfold Option.elim
    split
    · exact makeArrival_canonical ht
    · exact ht
  · exact ht

theorem endCycle_canonical {x} (hs : Canonical s) : Canonical (s.endCycle x) :=
  foldl_canonical (fun _ _ ht => foldl_canonical (fun _ _ hu => arrivalsDue_canonical hu) ht) hs

theorem settleCycle_canonical {u} (hs : Canonical s) : Canonical (s.settleCycle u) := ite_canonical hs hs

theorem nextCycle_canonical {x} (hs : Canonical s) : Canonical (s.nextCycle x) :=
  foldl_canonical (fun _ _ ht => atomicsDue_canonical ht) (foldl_canonical (fun _ _ hu => performDue_canonical hu)
    (record_canonical (settleCycle_canonical hs)))

theorem nextPlace_canonical {u} (hs : Canonical s) : Canonical (s.nextPlace u) := by
  unfold State.nextPlace
  dsimp only
  split
  · exact hs
  · rename_i e
    refine ite_canonical (nextCycle_canonical hs) ?_
    split
    · exact ite_canonical (endCycle_canonical hs) hs
    · exact record_canonical (ite_canonical (endCycle_canonical hs) hs)

theorem skipAbsent_canonical {n x} (hs : Canonical s) : Canonical (skipAbsent n x s) := by
  induction n generalizing x s with
  | zero =>
    unfold skipAbsent
    exact hs
  | succ n ih =>
    unfold skipAbsent
    split
    · exact hs
    · exact ite_canonical hs (ih (nextPlace_canonical hs))

/-! Machine/Issue. -/

theorem fetchTrap_canonical (hs : Canonical s) : Canonical (fetchTrap s) := takeTrapWith_canonical hs

theorem bookIssue_canonical {before after : State} {t : Nat} (hafter : Canonical after) :
    Canonical (before.bookIssue after t) := by
  unfold State.bookIssue
  split
  · exact record_canonical hafter
  · exact hafter

theorem settleRecords_canonical {old} (hs : Canonical s) : Canonical (State.settleRecords old s) := ite_canonical hs hs

end

end Sys2Proof.Proofs
end

section
/-!
PROOF. Memory stays in canonical form (O60), function by function: those whose intermediate states are named one after another.
-/
namespace Sys2Proof.Proofs

open Sys2Proof.Machine Sys2Proof.Laws

section

variable {s : State}

theorem canonical_pair {α : Type} {t : State} {x : α} (h : Canonical t) : Canonical (t, x).1 := h

theorem epiStep_canonical {op kind a out ctl scale flags divisor} (hs : Canonical s) :
    CanonicalOut (s.epiStep op kind a out ctl scale flags divisor) := by
  have hrun : Canonical (s.epiRun op kind a out ctl scale flags divisor).after := epiRun_canonical hs
  unfold State.epiStep
  extract_lets _ _ _ _ _ _ _ _ _ clean _ swept _ sent
  have hsent : Canonical sent := by
    have hclean : Canonical clean := cleanUnits_canonical (ite_canonical (commitWrites_canonical hrun) hrun)
    have hswept : Canonical swept := ite_canonical (record_canonical hclean) hclean
    exact ite_canonical (sendWrites_canonical hswept) hswept
  exact ite_canonicalOut (endOp_canonical hs) (ite_canonicalOut (record_canonical (sendReads_canonical hs))
    (ite_canonicalOut (stallHead_canonical hs) (ite_canonicalOut trivial (ite_canonicalOut hsent (endOp_canonical hsent)))))

theorem dattPage_canonical {c e sh hi bi} (hs : Canonical s) : Canonical (s.dattPage c e sh hi bi).1 := by
  unfold State.dattPage
  dsimp only
  exact areaSet_canonical (areaAll_canonical (fun _ _ ht => ite_canonicalFst ht (areaSet_canonical ht))
    (kvRows_canonical (kvRows_canonical hs fun _ _ ht => kvRow_canonical ht) fun _ _ ht => kvRow_canonical ht))

theorem distPage_canonical {c e j} (hs : Canonical s) : Canonical (s.distPage c e j).1 := by
  unfold State.distPage
  dsimp only
  exact areaSet_canonical (areaAll_canonical (fun _ _ ht => areaSet_canonical ht)
    (ite_canonicalFst (tensorRow_canonical hs) hs))

theorem topPage_canonical {c e q} (hs : Canonical s) : Canonical (s.topPage c e q).1 := by
  unfold State.topPage
  dsimp only
  exact areaSet_canonical (ite_canonicalFst hs (areaSet_canonical hs))

theorem appendFrame_canonical {c e sh h ks vs} (hs : Canonical s) : Canonical (s.appendFrame c e sh h ks vs).1 := by
  unfold State.appendFrame
  dsimp only
  refine ite_canonicalFst hs (ite_canonicalFst ?_ ?_)
  · dsimp only
    exact setTokens_canonical (frameRows_canonical hs)
  · split
    · exact hs
    · refine ite_canonicalFst hs ?_
      dsimp only
      exact setTokens_canonical (frameRows_canonical (copyOnWrite_canonical hs))

theorem appendEnd_canonical {c e hi code st} (hs : Canonical s) : Canonical (s.appendEnd c e hi code st).1 := by
  unfold State.appendEnd
  extract_lets t
  have ht : Canonical t.1 := areaSet_canonical hs
  clear_value t
  exact ht

theorem appendPage_canonical {c e sh hi} (hs : Canonical s) : Canonical (s.appendPage c e sh hi).after := by
  unfold State.appendPage
  extract_lets _ _ _ _ _ _ _ plain
  have hplain {x} (h : Canonical x.1) : Canonical (plain x).after := h
  clear_value plain
  split
  · exact hplain (appendEnd_canonical hs)
  · split
    · exact putRow_canonical (putRow_canonical hs)
    · exact hplain (appendEnd_canonical (appendFrame_canonical hs))

theorem dceStep_canonical {c die} (hs : Canonical s) : Canonical (s.dceStep c die).after := by
  unfold State.dceStep
  dsimp only
  split
  · dsimp only
    exact dattPage_canonical hs
  · dsimp only
    exact distPage_canonical hs
  · dsimp only
    exact topPage_canonical hs
  · exact appendPage_canonical hs

theorem endAppend_canonical {die c} (hs : Canonical s) : Canonical (s.endAppend die c) :=
  endPage_canonical (appendEnd_canonical hs)

theorem dcePage_canonical {die c} (hs : Canonical s) : CanonicalOut (s.dcePage die c) := by
  have hstep : Canonical (s.dceStep c die).after := dceStep_canonical hs
  unfold State.dcePage
  extract_lets _ _ _ r
  refine ite_canonicalOut trivial (ite_canonicalOut (endAppend_canonical hs) (ite_canonicalOut (record_canonical
    (sendReads_canonical hs)) (ite_canonicalOut hs (ite_canonicalOut (ite_canonicalOut trivial hs) ?_))))
  split
  · exact endPage_canonical hstep
  · exact ite_canonicalOut trivial (ite_canonicalOut (record_canonical (sendWrites_canonical hstep)) (ite_canonicalOut hstep
      (endAppend_canonical hstep)))

theorem execDcePage_canonical {die} (hs : Canonical s) : CanonicalOut (execDcePage die s) := by
  unfold execDcePage
  split
  · exact trivial
  · exact underRegs_canonical (fun _ ht => dcePage_canonical ht) hs

theorem deliverTile_canonical {ctx r i} (hs : Canonical s) : Canonical (s.deliverTile ctx r i).1 := by
  unfold State.deliverTile
  dsimp only
  exact updWrite_canonical (updWords_canonical (updWords_canonical (updWords_canonical hs)))

theorem deliver_canonical {ctx r} (hs : Canonical s) : CanonicalOut (s.deliver ctx r) := by
  unfold State.deliver
  extract_lets _ _ _ _ _ t u
  have ht : Canonical t.1 := deliverTile_canonical hs
  have hu : Canonical u := reportDelivery_canonical ht
  clear_value u t
  refine ite_canonicalOut (tileDelivered_canonical hs) (ite_canonicalOut (record_canonical (sendReads_canonical hs))
    (ite_canonicalOut hs (ite_canonicalOut trivial ?_)))
  split
  · exact record_canonical (sendWrites_canonical hu)
  · exact tileDelivered_canonical hu

theorem execDelivery_canonical {ctx id} (hs : Canonical s) : CanonicalOut (execDelivery ctx id s) :=
  runStep_canonical (fun _ _ ht => ite_canonicalOut trivial (deliver_canonical ht)) hs

theorem execMxeStep_canonical {die cluster} (hs : Canonical s) : CanonicalOut (execMxeStep die cluster s) := by
  unfold execMxeStep
  dsimp only
  split
  · exact trivial
  · split
    · exact mmaStep_canonical hs
    · exact epiStep_canonical hs
    · exact popHead_canonical hs
    · exact popHead_canonical hs

theorem rollback_canonical {l again} (hs : Canonical s) : Canonical (s.rollback l again) :=
  killWriters_canonical (record_canonical (record_canonical (record_canonical (restorePages_canonical hs))))

theorem execRollback_canonical {ctx id} (hs : Canonical s) : CanonicalOut (execRollback ctx id s) := by
  unfold execRollback
  split
  · exact trivial
  · split
    · exact ite_canonicalOut hs trivial
    · exact ite_canonicalOut (record_canonical (rollback_canonical hs)) trivial

theorem headStep_canonical {op} (hs : Canonical s) : CanonicalOut (s.headStep op) := by
  unfold State.headStep
  split
  · exact mmaStep_canonical hs
  · exact epiStep_canonical hs
  · exact trivial

theorem replayAfterReset_canonical {l} (hs : Canonical s) : Canonical (s.replayAfterReset l) :=
  ite_canonical (rollback_canonical hs) (ite_canonical hs hs)

theorem settleLaunches_canonical {c} (hs : Canonical s) : Canonical (s.settleLaunches c) := by
  refine foldl_canonical (fun _ _ ht => ?_) (foldl_canonical (fun _ _ hu => ?_) hs)
  · split
    · exact ite_canonical ht (replayAfterReset_canonical ht)
    · exact ht
  · split
    · exact ite_canonical hu (endByReset_canonical hu)
    · exact hu

theorem routeImage_canonical {va n} (hs : Canonical s) : Canonical (s.routeImage va n).1 := by
  induction n generalizing s va with
  | zero => exact hs
  | succ n ih =>
    unfold State.routeImage
    split
    rename_i e
    have ht := canonical_of_fst e (supAccess_canonical hs)
    split
    · exact ht
    · exact ht
    · split
      rename_i e'
      exact canonical_of_fst e' (ih ht)

theorem execRtchk_canonical {a d} (hs : Canonical s) : CanonicalOut (execRtchk a d s) := by
  refine guard_canonical hs fun _ ht => ?_
  dsimp only
  split
  · rename_i e
    exact canonical_of_fst e (routeImage_canonical ht)
  · rename_i e
    exact supTrap_canonical (canonical_of_fst e (routeImage_canonical ht))
  · rename_i e
    have hu := canonical_of_fst e (routeImage_canonical ht)
    exact ite_canonicalOut (sendReads_canonical hu) hu

theorem peerBytes_canonical {r bs} (hs : Canonical s) : Canonical (s.peerBytes r bs) := by
  unfold State.peerBytes
  split
  · generalize cellsAt r.key _ = cells
    exact writeAll_canonical rfl hs
  · exact hs

/- The definition is unfolded as a function, applied to nothing: asked whether `s.readAgain r` is its body, the kernel would run the
route of an open key. -/
theorem readAgain_canonical {r} (hs : Canonical s) : Canonical (s.readAgain r) := by
  have hbytes : Canonical (s.peerBytes r []) := peerBytes_canonical hs
  have hfun {f} (hf : f = State.readAgain) : Canonical (f s r) := by
    delta State.readAgain at hf
    subst hf
    beta_reduce
    split
    · exact sendUnit_canonical hs
    · split
      · exact trapPeer_canonical hs
      · exact noteCause_canonical hbytes
  exact hfun rfl

theorem settleRequest_canonical {r cause bs} (hs : Canonical s) : Canonical (s.settleRequest r cause bs) := by
  unfold State.settleRequest
  extract_lets _ t
  have ht : Canonical t := hs
  have hbytes {bs} : Canonical (t.peerBytes r bs) := peerBytes_canonical ht
  clear_value t
  refine ite_canonical (readAgain_canonical ht) ?_
  split
  · exact ite_canonical (routeArrived_canonical (imageArrived_canonical (wakePeer_canonical (ite_canonical ht hbytes))))
      (trapPeer_canonical ht)
  · exact ite_canonical hbytes (tellMma_canonical (noteCause_canonical hbytes))

theorem response_canonical {opc req i} (hs : Canonical s) : CanonicalOut (s.response opc req i) := by
  unfold State.response
  split
  · exact trivial
  · dsimp only
    split
    · exact hs
    · exact ite_canonical hs (settleRequest_canonical hs)

theorem execPeerRequestTimeout_canonical {i} (hs : Canonical s) : CanonicalOut (execPeerRequestTimeout i s) := by
  unfold execPeerRequestTimeout
  split
  · exact trivial
  · rename_i r _
    have ht : Canonical (s.settleRequest r 0xC3 []) := settleRequest_canonical hs
    refine ite_canonicalOut trivial ?_
    dsimp only
    generalize s.settleRequest r 0xC3 [] = t at ht ⊢
    exact ite_canonical ht ht

theorem clearLogic_canonical (hs : Canonical s) : Canonical s.clearLogic := by
  unfold State.clearLogic
  exact filter_memory_wf (foldl_canonical (fun _ _ ht => commitApply_canonical ht) hs) _

theorem warmReset_canonical {die c} (hs : Canonical s) : Canonical (s.warmReset die c) := by
  have hclear : Canonical s.clearLogic.retrainLinks := retrainLinks_canonical (clearLogic_canonical hs)
  unfold State.warmReset
  generalize s.clearLogic.retrainLinks = t at hclear ⊢
  dsimp only
  exact ite_canonical (record_canonical (unpowered_canonical hclear)) (record_canonical
    (settleLaunches_canonical (record_canonical hclear)))

theorem thermal_canonical {die} (hs : Canonical s) : Canonical (s.thermal die) :=
  ite_canonical (unpowered_canonical hs) (record_canonical (warmReset_canonical hs))

theorem execWarmReset_canonical {die cause} (hs : Canonical s) : CanonicalOut (execWarmReset die cause s) := by
  refine ite_canonicalOut trivial ?_
  split
  · exact warmReset_canonical hs
  · exact warmReset_canonical (countChecker_canonical hs)
  · exact warmReset_canonical (countChecker_canonical hs)
  · exact ite_canonicalOut (thermal_canonical hs) trivial
  · exact trivial

theorem execCheckerMismatch_canonical {site parity} (hs : Canonical s) : CanonicalOut (execCheckerMismatch site parity s) :=
    by
  unfold execCheckerMismatch
  dsimp only
  split
  · split
    · exact trivial
    · exact ite_canonicalOut (trapAgent_canonical (countChecker_canonical hs)) trivial
  · exact warmReset_canonical (countChk_canonical hs)
  · exact deliveryMismatch_canonical hs
  · split
    · exact trivial
    · split
      · exact trivial
      · exact failCommand_canonical (countChecker_canonical hs)

theorem execThermalLimit_canonical {die within} (hs : Canonical s) : CanonicalOut (execThermalLimit die within s) :=
  ite_canonicalOut trivial (thermal_canonical hs)

theorem execPacketForward_canonical {port header data} (hs : Canonical s) : CanonicalOut
    (execPacketForward port header data s) := by
  unfold execPacketForward
  dsimp only
  split
  · refine ite_canonicalOut trivial ?_
    split
    · rename_i e
      exact forwardAt_canonical hs e
    · exact trivial
  · refine ite_canonicalOut trivial (ite_canonicalOut hs (ite_canonicalOut trivial ?_))
    generalize ht : ({ s with packets := _ } : State).setPort port _ = t
    have htc : Canonical t := ht ▸ hs
    cases hp : t.forwardAt s.packets.length _ with
    | none => exact htc
    | some u => exact forwardAt_canonical htc hp

theorem execSubmissionRingTake_canonical {ctx} (hs : Canonical s) : CanonicalOut (execSubmissionRingTake ctx s) := by
  refine ite_canonicalOut trivial (ite_canonicalOut (goodProd_canonical hs)
    (ite_canonicalOut (ite_canonicalOut trivial hs) ?_))
  split
  · exact goodProd_canonical hs
  · exact ringTaken_canonical hs
  · rename_i e
    exact ringTaken_canonical (answer_canonical hs e)

end

end Sys2Proof.Proofs
end

section
/-!
PROOF. Memory stays in canonical form (O60), the instructions: each row of the opcode table.
-/
namespace Sys2Proof.Proofs

open Sys2Proof.Machine Sys2Proof.Laws

section

variable {s : State}

theorem execXlt_canonical {b a d} (hs : Canonical s) : CanonicalOut (execXlt b a d s) :=
  guard_canonical hs fun _ ht => ite_canonicalOut (record_canonical (record_canonical ht)) (ite_canonicalOut
    (record_canonical (myByte_canonical ht)) (record_canonical (record_canonical (myByte_canonical ht))))

theorem execBrv_canonical {x p} (hs : Canonical s) : CanonicalOut (execBrv x p s) :=
  guard_canonical hs fun _ ht => ite_canonicalOut (record_canonical ht) (ite_canonicalOut (record_canonical ht)
    (diverge_canonical ht))

theorem execBkpt_canonical (hs : Canonical s) : CanonicalOut (execBkpt s) :=
  guard_canonical hs fun _ ht => ite_canonicalOut (takeTrapAfter_canonical ht) (record_canonical ht)

theorem execMskip_canonical {x p} (hs : Canonical s) : CanonicalOut (execMskip x p s) :=
  guard_canonical hs fun _ ht => ite_canonicalOut (record_canonical ht) (record_canonical (record_canonical ht))

theorem execFence_canonical {c f} (hs : Canonical s) : CanonicalOut (execFence c f s) :=
  guard_canonical hs fun _ ht => ite_canonicalOut (record_canonical (ite_canonical ht (fenceAcquire_canonical ht)))
    (fenced_canonical (ite_canonical ht (fenceAcquire_canonical ht)) (fun _ hu => ite_canonicalOut (record_canonical hu)
    (record_canonical (record_canonical (ite_canonical (record_canonical hu) hu)))))

theorem execFenceE_canonical {c f} (hs : Canonical s) : CanonicalOut (execFenceE c f s) :=
  guard_canonical hs fun _ ht => ite_canonicalOut (record_canonical ht) (fenced_canonical ht (fun _ hu => ite_canonicalOut
    (record_canonical hu) (record_canonical (ite_canonical (record_canonical (passHold_canonical hu)) (passHold_canonical
    hu)))))

theorem execBfree_canonical {a} (hs : Canonical s) : CanonicalOut (execBfree a s) :=
  guard_canonical hs fun _ ht => withHandle_canonical ht (fun _ => record_canonical (unbind_canonical ht))

theorem execBexp_canonical {b a} (hs : Canonical s) : CanonicalOut (execBexp b a s) :=
  guard_canonical hs fun _ ht => withHandle_canonical ht (fun _ => ite_canonicalOut (overcount_canonical ht)
    (record_canonical (record_canonical ht)))

theorem execBarv_canonical {b a d} (hs : Canonical s) : CanonicalOut (execBarv b a d s) :=
  guard_canonical hs fun _ ht => withHandle_canonical ht (fun _ => ite_canonicalOut (overcount_canonical ht)
    (record_canonical (ite_canonical (record_canonical (handTo_canonical ht)) (record_canonical ht))))

theorem execBwait_canonical {b a d} (hs : Canonical s) : CanonicalOut (execBwait b a d s) :=
  guard_canonical hs fun _ ht => withHandle_canonical ht (fun _ => ite_canonicalOut (record_canonical (takeFrom_canonical
    ht)) (record_canonical ht))

theorem execBtest_canonical {a d} (hs : Canonical s) : CanonicalOut (execBtest a d s) :=
  guard_canonical hs fun _ ht => ite_canonicalOut (takeTrap_canonical ht) (withHandle_canonical ht (fun _ =>
    record_canonical (takeFrom_canonical ht)))

theorem execBref_canonical {b a d} (hs : Canonical s) : CanonicalOut (execBref b a d s) :=
  guard_canonical hs fun _ ht => ite_canonicalOut (takeTrap_canonical ht) (ite_canonicalOut (record_canonical ht)
    (record_canonical (record_canonical (record_canonical ht))))

theorem execKvreq_canonical {b a d} (hs : Canonical s) : CanonicalOut (execKvreq b a d s) :=
  guard_canonical hs fun _ ht => ite_canonicalOut (takeTrap_canonical ht) (record_canonical (ite_canonical (record_canonical
    (retainOpt_canonical ht)) (ite_canonical (arriveOpt_canonical (retainOpt_canonical ht)) ht)))

theorem execCancel_canonical {a d} (hs : Canonical s) : CanonicalOut (execCancel a d s) :=
  guard_canonical hs fun _ ht => ite_canonicalOut (takeTrap_canonical ht) (cancel_canonical (record_canonical ht))

theorem execWvpub_canonical {a d} (hs : Canonical s) : CanonicalOut (execWvpub a d s) :=
  guard_canonical hs fun _ ht => ite_canonicalOut (takeTrap_canonical ht) (ite_canonicalOut (takeTrap_canonical ht)
    (ite_canonicalOut (takeTrap_canonical ht) (wvpub_canonical ht)))

theorem execWvret_canonical {b a d} (hs : Canonical s) : CanonicalOut (execWvret b a d s) :=
  guard_canonical hs fun _ ht => ite_canonicalOut (takeTrap_canonical ht) (ite_canonicalOut (takeTrap_canonical ht)
    (ite_canonicalOut (takeTrap_canonical ht) (ite_canonicalOut (record_canonical (exposeUnit_canonical ht))
    (ite_canonicalOut (record_canonical (exposeUnit_canonical ht)) (record_canonical (setModel_canonical
    (exposeUnit_canonical ht)))))))

theorem execNorm_canonical {b a} (hs : Canonical s) : CanonicalOut (execNorm b a s) :=
  updForm_canonical hs fun _ _ _ _ _ ht => ite_canonical (takeTrap_canonical ht) (ite_canonical ht (record_canonical
    (acceptUpd_canonical ht)))

theorem execRegq_canonical {b a d} (hs : Canonical s) : CanonicalOut (execRegq b a d s) :=
  guard_canonical hs fun _ ht => ite_canonicalOut (record_canonical (record_canonical ht)) (record_canonical ht)

theorem execPgreq_canonical {b a d} (hs : Canonical s) : CanonicalOut (execPgreq b a d s) :=
  guard_canonical hs fun _ ht => ite_canonicalOut (record_canonical ht) (ite_canonicalOut (record_canonical ht)
    (record_canonical (ite_canonical (arriveOpt_canonical (retainOpt_canonical (pageOutcomes_canonical ht))) (ite_canonical
    (queuePage_canonical (pageOutcomes_canonical ht)) (pageOutcomes_canonical ht)))))

theorem execTrap_canonical {t a} (hs : Canonical s) : CanonicalOut (execTrap t a s) :=
  guard_canonical hs fun _ ht => takeTrapAfter_canonical ht

theorem execMquad_canonical {b a d} (hs : Canonical s) : CanonicalOut (execMquad b a d s) :=
  guard_canonical hs fun _ ht => ite_canonicalOut (subTrap_canonical ht) (ite_canonicalOut (record_canonical
    (record_canonical (record_canonical ht))) (record_canonical ht))

theorem execTlbi_canonical {b a} (hs : Canonical s) : CanonicalOut (execTlbi b a s) :=
  guard_canonical hs fun _ ht => invalidates_canonical ht (fun _ hu => record_canonical (dropTranslations_canonical hu))

theorem execTlbia_canonical {a} (hs : Canonical s) : CanonicalOut (execTlbia a s) :=
  guard_canonical hs fun _ ht => invalidates_canonical ht (fun _ hu => record_canonical (foldl_canonical (fun _ _ hv =>
    dropTranslations_canonical hv) hu))

theorem execHirq_canonical {a} (hs : Canonical s) : CanonicalOut (execHirq a s) :=
  guard_canonical hs fun _ ht => ite_canonicalOut (takeTrap_canonical ht) (record_canonical (record_canonical ht))

theorem execCtxld_canonical {b a d} (hs : Canonical s) : CanonicalOut (execCtxld b a d s) :=
  guard_canonical hs fun _ ht => ite_canonicalOut (takeTrap_canonical ht) (loadImage_canonical ht (fun _ _ hu =>
    record_canonical hu))

theorem execStagingBufferTake_canonical {ctx id} (hs : Canonical s) : CanonicalOut (execStagingBufferTake ctx id s) :=
  runStep_canonical (fun _ _ ht => takeBuffer_canonical ht) hs

theorem execBar0ControlWrite_canonical {port offset value} (hs : Canonical s) : CanonicalOut
    (execBar0ControlWrite port offset value s) :=
  ite_canonicalOut trivial (ite_canonicalOut (ite_canonical (claim_canonical hs) (releaseHsem_canonical hs))
    (ite_canonicalOut hs hs))

theorem execHostHdmAccess_canonical {port write pa data} (hs : Canonical s) : CanonicalOut
    (execHostHdmAccess port write pa data s) :=
  ite_canonicalOut trivial (ite_canonicalOut (writeAll_canonical rfl hs) hs)

theorem execRowRetire_canonical {pa} (hs : Canonical s) : CanonicalOut (execRowRetire pa s) :=
  ite_canonicalOut trivial (ite_canonicalOut (record_canonical (supWrite_canonical hs)) hs)

theorem execColdPowerOn_canonical (hs : Canonical s) : CanonicalOut (execColdPowerOn s) :=
  ite_canonicalOut trivial (ite_canonicalOut (record_canonical (record_canonical (unpowered_canonical hs)))
    (ite_canonicalOut (record_canonical (record_canonical (record_canonical (unpowered_canonical hs)))) (record_canonical
    (record_canonical (trainLinks_canonical (record_canonical (bringUp_canonical (record_canonical (record_canonical
    (record_canonical (unpowered_canonical hs)))))))))))

theorem exec_canonical {i} (hs : Canonical s) : CanonicalOut (exec i s) := by
  unfold exec
  cases i
  case iadd | isub | iadds | isubs | imul | imulhi | imulhiu | imin | imax | umin | umax | and | or | xor | andn | shl | shr
    | sra | rotl | bfx | bfi | udiv | urem | lea | lea2 | lea4 | lea8 | fadd | fsub | fmul | fmin | fmax | faddBf2 | fmulBf2
    | fmaxBf2 | faddHf2 | fmulHf2 | fmaxHf2 | fscale | cvtBf2 | cvtHf2 | unpBf | unpHf | unpE4 | unpE5 | unpE3m2 | unpE2m3 |
    unpE2m1 | icmpeq | icmplt | icmpltu | icmple | fcmpeq | fcmplt | fcmple | fcmpun =>
    exact lane2_canonical hs
  case imad | fma | fmaBf2 | fmaHf2 | fdot2Bf | fdot4E4 | fdot4E5 | fdot8E2m1 | cvtE4 | cvtE5 | cvtsrE4 | cvtsrE5 |
    cvtsrE3m2 | cvtsrE2m1 | cvtsrBf | cvtsrE2m3 | sel =>
    exact lane3_canonical hs
  case popc | clz | brev | iabs | fabs | fneg | frcp | frsq | fex2 | flg2 | ffloor | frint | i2f | u2f | f2i | f2u | mov =>
    exact lane1_canonical hs
  case raddF | rmaxF | raddI | rmaxI => exact reduce_canonical hs
  case cvtE3m2 | cvtE2m3 | cvtE2m1 => exact lane3One_canonical hs
  case ballot | matchLanes | laneid | rng4 | movg | movvg | movvgl | movi | movh | srd | mov16 | movi5 | nop | gmad | gaddi
    | gmovi | gshi16 | gsrd | gmov | bra | fuse | exit | emrd | yield | eret | halt =>
    exact guard_canonical hs fun _ ht => record_canonical ht
  case shfl | shflup | shfldn | shflx => exact shuffle_canonical hs
  case rngu | rngb => exact rngElement_canonical hs
  case iaddi | andi | ori | xori | shli | shri | srai | icmplti | icmpeqi | imuli => exact laneImm_canonical hs
  case iadd16 | isub16 | imul16 | and16 | or16 | xor16 | fadd16 | fsub16 | fmul16 | fmax16 | icmplt16 =>
    exact half2_canonical hs
  case shli16 | shri16 => exact halfImm_canonical hs
  case gadd | gsub | gmul | gand | gor | gxor | gandn | gshl | gshr | gsra | gmin | gcmpeq | gcmplt | gcmpltu | gmax =>
    exact group2_canonical hs
  case gswr | call | emwr | mbatch => exact guard_canonical hs fun _ ht => record_canonical (record_canonical ht)
  case xlt => exact execXlt_canonical hs
  case brg | brzg => exact guard_canonical hs fun _ ht => branchIf_canonical ht
  case brv => exact execBrv_canonical hs
  case ret | jmpg => exact guard_canonical hs fun _ ht => jumpReg_canonical ht
  case bkpt => exact execBkpt_canonical hs
  case mskip => exact execMskip_canonical hs
  case ld32 | ld64 | ld128 | ld16 | ld8 => exact laneLoad_canonical hs
  case st32 | st64 | st128 | st16 | st8 => exact laneStore_canonical hs
  case ldnb => exact execLdnb_canonical hs
  case stva => exact execStva_canonical hs
  case atadd | atmax | atxch | atcas | ator | atand | atfadd | atmin => exact atomic_canonical hs
  case fence => exact execFence_canonical hs
  case fenceE => exact execFenceE_canonical hs
  case ldaq => exact guard_canonical hs fun _ ht => loadLanes_canonical ht
  case strl => exact guard_canonical hs fun _ ht => storeLanes_canonical ht
  case gld | gldaq => exact guard_canonical hs fun _ ht => groupLoad_canonical ht
  case gst | gstrl => exact guard_canonical hs fun _ ht => groupStore_canonical ht
  case tdef => exact execTdef_canonical hs
  case tqry => exact execTqry_canonical hs
  case tfree => exact execTfree_canonical hs
  case tscl => exact execTscl_canonical hs
  case cpy => exact guard_canonical hs fun _ ht => copyTile_canonical ht
  case cpyt => exact execCpyt_canonical hs
  case gath | scat => exact rowCopy_canonical hs
  case balloc => exact execBalloc_canonical hs
  case bfree => exact execBfree_canonical hs
  case bexp => exact execBexp_canonical hs
  case barv => exact execBarv_canonical hs
  case bwait => exact execBwait_canonical hs
  case bwaitt => exact execBwaitt_canonical hs
  case btest => exact execBtest_canonical hs
  case bref => exact execBref_canonical hs
  case mfeed => exact execMfeed_canonical hs
  case mdrain => exact execMdrain_canonical hs
  case msig => exact execMsig_canonical hs
  case mrecv => exact execMrecv_canonical hs
  case datt | ddist | dtopk | dkvap => exact dceForm_canonical hs
  case kvres | ccnt =>
    exact guard_canonical hs fun _ ht => ite_canonicalOut (takeTrap_canonical ht) (ite_canonicalOut (takeTrap_canonical ht)
      (record_canonical ht))
  case kvreq => exact execKvreq_canonical hs
  case kvpin | kvrel => exact pinForm_canonical hs
  case lnch | lnchc => exact launchForm_canonical hs
  case cancel => exact execCancel_canonical hs
  case ticket => exact execTicket_canonical hs
  case redeem => exact execRedeem_canonical hs
  case tkqry => exact execTkqry_canonical hs
  case tkdrop => exact execTkdrop_canonical hs
  case upd => exact execUpd_canonical hs
  case wvpub => exact execWvpub_canonical hs
  case wvret => exact execWvret_canonical hs
  case norm => exact execNorm_canonical hs
  case regq => exact execRegq_canonical hs
  case snapm | zeroRange =>
    exact guard_canonical hs fun _ ht => ite_canonicalOut (record_canonical ht) (record_canonical ht)
  case pgreq => exact execPgreq_canonical hs
  case trap => exact execTrap_canonical hs
  case mma | mmaSp | mmaz | mmazSp => exact mmaForm_canonical hs
  case epq | epst | epov | accz => exact epiForm_canonical hs
  case mwait => exact execMwait_canonical hs
  case mclass => exact execMclass_canonical hs
  case myld => exact guard_canonical hs fun _ ht => acceptMx_canonical ht
  case mquad => exact execMquad_canonical hs
  case mscale => exact execMscale_canonical hs
  case csrr => exact execCsrr_canonical hs
  case csrw | csrs | csrc => exact csrForm_canonical hs
  case tlbi => exact execTlbi_canonical hs
  case tlbia => exact execTlbia_canonical hs
  case prefw => exact execPrefw_canonical hs
  case hirq => exact execHirq_canonical hs
  case rtchk => exact execRtchk_canonical hs
  case ctxsv => exact execCtxsv_canonical hs
  case ctxld => exact execCtxld_canonical hs
  case snapb => exact execSnapb_canonical hs
  case snapc => exact execSnapc_canonical hs
  case storePerform => exact execStorePerform_canonical hs
  case timedStorePerform => exact execTimedStorePerform_canonical hs
  case ldnbPerform => exact execLdnbPerform_canonical hs
  case gathStatusArrive => exact execGathStatusArrive_canonical hs
  case barvArrival => exact execBarvArrival_canonical hs
  case bwaitReturn => exact execBwaitReturn_canonical hs
  case bwaittTimeout => exact execBwaittTimeout_canonical hs
  case copyCommandComplete => exact execCopyCommandComplete_canonical hs
  case cpytWriteRelease => exact execCpytWriteRelease_canonical hs
  case bulkQueuePublish => exact execBulkQueuePublish_canonical hs
  case bulkEntryStart => exact execBulkEntryStart_canonical hs
  case bulkEntryComplete => exact execBulkEntryComplete_canonical hs
  case completionRecordWrite => exact execCompletionRecordWrite_canonical hs
  case pageRequestComplete => exact execPageRequestComplete_canonical hs
  case launchAnswer => exact execLaunchAnswer_canonical hs
  case unitAdmit => exact execUnitAdmit_canonical hs
  case launchBecomesBlocking => exact execLaunchBecomesBlocking_canonical hs
  case launchComplete => exact execLaunchComplete_canonical hs
  case launchCommit => exact execLaunchCommit_canonical hs
  case snapmRelease => exact execSnapmRelease_canonical hs
  case slotRelease => exact execSlotRelease_canonical hs
  case preemptionStop => exact execPreemptionStop_canonical hs
  case mxeStep => exact execMxeStep_canonical hs
  case mquadInstall => exact execMquadInstall_canonical hs
  case mwaitReturn => exact execMwaitReturn_canonical hs
  case mdrainRead => exact execMdrainRead_canonical hs
  case mrecvWake => exact execMrecvWake_canonical hs
  case dcePage => exact execDcePage_canonical hs
  case kvRequestComplete => exact execKvRequestComplete_canonical hs
  case kvVictimAction => exact execKvVictimAction_canonical hs
  case updStart => exact updStep_canonical (fun _ _ ht => startUpd_canonical ht) hs
  case updTileCommit => exact updStep_canonical (fun _ _ ht => stepUpd_canonical ht) hs
  case normApply => exact updStep_canonical (fun _ _ ht => stepNorm_canonical ht) hs
  case stagingBufferTake => exact execStagingBufferTake_canonical hs
  case delivery => exact execDelivery_canonical hs
  case replicaCommit => exact execReplicaCommit_canonical hs
  case replicaLockTimeout => exact execReplicaLockTimeout_canonical hs
  case pageWalk => exact execPageWalk_canonical hs
  case walkSlotGrant => exact execWalkSlotGrant_canonical hs
  case hsemClaim => exact execHsemClaim_canonical hs
  case hsemRelease => exact ite_canonicalOut (releaseHsem_canonical hs) trivial
  case hostLinkDown | attestationRequest | eccUncorrectable | throttleEnd => exact ite_canonicalOut hs trivial
  case bar0ControlWrite => exact execBar0ControlWrite_canonical hs
  case hostHdmAccess => exact execHostHdmAccess_canonical hs
  case submissionRingTake => exact execSubmissionRingTake_canonical hs
  case faultRecordDeliver => exact execFaultRecordDeliver_canonical hs
  case faultRingDrain => exact execFaultRingDrain_canonical hs
  case rollback => exact execRollback_canonical hs
  case contextCreate => exact execContextCreate_canonical hs
  case contextEnd => exact execContextEnd_canonical hs
  case asidChange => exact execAsidChange_canonical hs
  case factNone => exact execFactNone_canonical hs
  case factKill => exact execFactKill_canonical hs
  case factReplay => exact execFactReplay_canonical hs
  case factResume => exact execFactResume_canonical hs
  case topoReload | routesReload => exact mapReload_canonical hs
  case haltResume => exact execHaltResume_canonical hs
  case eccCorrected => exact execEccCorrected_canonical hs
  case rowRetire => exact execRowRetire_canonical hs
  case checkerMismatch => exact execCheckerMismatch_canonical hs
  case warmReset => exact execWarmReset_canonical hs
  case throttleEvent | linkLevelReplay | hostLinkUp => exact ite_canonicalOut trivial hs
  case thermalLimit => exact execThermalLimit_canonical hs
  case coldPowerOn => exact execColdPowerOn_canonical hs
  case digest => exact execDigest_canonical hs
  case digestTimeout => exact execDigestTimeout_canonical hs
  case read => exact execRead_canonical hs
  case write => exact execWrite_canonical hs
  case atomic => exact execAtomic_canonical hs
  case rddata | wrack | atrsp => exact response_canonical hs
  case sync => exact execSync_canonical hs
  case follow => exact execFollow_canonical hs
  case dreq => exact execDreq_canonical hs
  case drsp => exact execDrsp_canonical hs
  case packetForward => exact execPacketForward_canonical hs
  case flowStop | flowGo => exact ite_canonicalOut trivial (ite_canonicalOut (ite_canonicalOut hs trivial) hs)
  case linkDown | linkStateChange => exact ite_canonicalOut trivial (setLink_canonical hs)
  case peerRequestTimeout => exact execPeerRequestTimeout_canonical hs
  case timeExchangeStart => exact ite_canonicalOut trivial (ite_canonicalOut hs hs)
  case packageTimeExchange => exact ite_canonicalOut trivial (measure_canonical hs)
  case ptmSync => exact ite_canonicalOut (measure_canonical hs) trivial
  case disciplineLoss => exact ite_canonicalOut trivial (followMaster_canonical hs)
  case dieTimeTick => exact execDieTimeTick_canonical hs
  case wordThatDoesNotExecute => exact execWordThatDoesNotExecute_canonical hs
  case powerOff => exact ite_canonicalOut trivial (unpowered_canonical hs)
  case zeroComplete => exact execZeroComplete_canonical hs

end

end Sys2Proof.Proofs
end

section
/-!
PROOF. Memory stays in canonical form (O60), from an instruction to a step: the issue, the rotation, the turn and the agenda.
-/
namespace Sys2Proof.Proofs

open Sys2Proof.Machine Sys2Proof.Laws

section

variable {s : State}

theorem execLoad_canonical {o} (hs : Canonical s) : CanonicalOut (execLoad o s) := by
  refine ite_canonicalOut trivial (foldl_canonical (fun _ _ ht => ite_canonical ht ht)
    (foldl_canonical (fun _ _ ht => ite_canonical ht ht) (writeMemAs_canonical ?_)))
  exact foldl_canonical (fun _ _ ht => ite_canonical ht (zeroBytes_canonical ht))
    (foldl_canonical (fun _ _ ht => takeCore_canonical ht) hs)

theorem execFirmwareWrite_canonical {n value} (hs : Canonical s) : CanonicalOut (execFirmwareWrite n value s) :=
  ite_canonicalOut trivial (ite_canonicalOut hs (ite_canonicalOut trivial hs))

theorem execTlbEvict_canonical {die i} (hs : Canonical s) : CanonicalOut (execTlbEvict die i s) :=
  ite_canonicalOut hs trivial

theorem select_canonical {t : State} {w sub} (hs : Canonical s) (h : s.select w sub = some t) : Canonical t := by
  unfold State.select at h
  split at h
  · cases h
  · split at h
    · cases h
    · obtain rfl := Option.some.inj h
      exact ite_canonical hs hs

end

section

variable {s : State} {run : Instr → State → Out} (hrun : ∀ i t, Canonical t → CanonicalOut (run i t))

theorem afterIssue_canonical {o} (ho : CanonicalOut o) : CanonicalOut (afterIssue o) := by
  cases o with
  | next t => exact ho
  | fault | refused => trivial

theorem settleOut_canonical {old o} (ho : CanonicalOut o) : CanonicalOut (settleOut old o) := by
  cases o with
  | next t => exact settleRecords_canonical ho
  | fault | refused => trivial

include hrun

theorem fetchWith_canonical (hs : Canonical s) : CanonicalOut (fetchWith run s) := by
  have hbegins : Canonical s.begins := hs
  unfold fetchWith
  split
  · exact afterIssue_canonical (hrun _ _ hbegins)
  · exact fetchTrap_canonical hbegins
  · exact afterIssue_canonical (hrun _ _ hbegins)

theorem issueWith_canonical (hs : Canonical s) : CanonicalOut (issueWith run s) := by
  refine ite_canonicalOut ?_ trivial
  split
  · exact fetchWith_canonical hrun hs
  · trivial
  · exact hs

theorem offerWith_canonical {w n ids t b} (hs : Canonical s) (h : offerWith run w n ids s = .next (t, b)) : Canonical t := by
  induction ids generalizing s with
  | nil =>
    cases h
    exact hs
  | cons id ids ih =>
    rw [offerWith] at h
    split at h
    · exact ih hs h
    next u hu =>
      have hsel : Canonical u := select_canonical hs hu
      split at h
      · split at h
        next v hv =>
          have hissued : Canonical v := canonicalOut_next hv (issueWith_canonical hrun hsel)
          split at h
          · cases h
            exact bookIssue_canonical hissued
          · exact ih hissued h
        all_goals cases h
      · exact ih hsel h

theorem rotateWith_canonical {u w} (hs : Canonical s) : CanonicalOut (rotateWith run u w s) := by
  unfold rotateWith
  extract_lets before t
  have ht : Canonical t := skipAbsent_canonical hs
  clear_value t
  split
  · trivial
  · refine ite_canonicalOut (ite_canonicalOut trivial ht) ?_
    split
    next v _ hv =>
      have hoffered : Canonical v := offerWith_canonical hrun ht hv
      exact nextPlace_canonical hoffered
    all_goals trivial

theorem turnWith_canonical {w sub} (hs : Canonical s) : CanonicalOut (turnWith run w sub s) := by
  refine ite_canonicalOut trivial ?_
  split
  · exact rotateWith_canonical hrun hs
  · split
    next t ht => exact issueWith_canonical hrun (select_canonical hs ht)
    · trivial

theorem ownTurn_canonical (hs : Canonical s) : CanonicalOut (ownTurn run s) := by
  refine ite_canonicalOut trivial ?_
  split
  · exact rotateWith_canonical hrun hs
  · exact issueWith_canonical hrun hs

theorem eventWith_canonical {i} (hs : Canonical s) : CanonicalOut (eventWith run i s) :=
  ite_canonicalOut trivial (settleOut_canonical (hrun i s hs))

end

/-- Every step that comes about leaves memory canonical where it was: by what the power and the head of the agenda say. -/
theorem step_canonical {s : State} (hs : Canonical s) : CanonicalOut (step s) := by
  have hexec (i : Instr) (t : State) (ht : Canonical t) : CanonicalOut (exec i t) := exec_canonical ht
  have hpopped {r} : Canonical { s with agenda := r } := hs
  unfold step
  split
  · exact hexec _ _ hs
  · split
    · exact ownTurn_canonical hexec hs
    · exact eventWith_canonical hexec hpopped
    · exact turnWith_canonical hexec hpopped
    · exact execLoad_canonical hpopped
    · exact execFirmwareWrite_canonical hpopped
    · exact execTlbEvict_canonical hpopped
    · exact execWindow_canonical hpopped
  · split
    · exact hexec _ _ hpopped
    · exact hexec _ _ hpopped
    · exact execWindow_canonical hpopped
    · trivial
  · split
    · exact hexec _ _ hpopped
    · trivial

/-- Settles O60, by one lemma for each function of the model: it leaves memory in canonical form where it was, and a step is made of
such functions. -/
theorem memoryStaysCanonical : Obligations.MemoryStaysCanonical := by
  unfold Obligations.MemoryStaysCanonical
  intro s t hs ht
  exact canonicalOut_next ht (step_canonical hs)

end Sys2Proof.Proofs
end

section
/-!
PROOF. Stores (R133 to R135, R144, R170, R181): what a lane store queues by whether its lanes pass, what it stores, and the oldest
entry that performs.
-/
namespace Sys2Proof.Proofs
open Sys2Proof.Machine Sys2Proof.Laws

/-! The shape of a lane store. -/

/-- What `Obligations.LaneStoreResults` asks of a store of `w` bytes. -/
def StoreForm (i : BitVec 5 → BitVec 7 → BitVec 7 → Instr) (w : Nat) (rel : Option (BitVec 3))
    (need : BitVec 7 → BitVec 7 → Need) : Prop :=
  ∀ f a d s, Clear (need a d) s →
    let u := cleared (need a d) s
    let fault := fun ea bs => u.storeFault u.me ea bs
    (16 ≤ u.me.storeQ.length → exec (i f a d) s = .next u) ∧
    (u.me.storeQ.length < 16 → ∀ acc, LanesPass u w (f.toNat * w) a fault acc →
      let cells := (activeLanes u).flatMap fun l => placeBytes (acc l).bytes (u.me.storeBytes w d l)
      let r := widerScope rel u.me.relNext
      let due := u.storeDue w ((activeLanes u).map fun l => (acc l).ea)
      let m : Agent := { u.me with storeQ := u.me.storeQ ++ [⟨cells, r.getD 0, r.isSome, due⟩], relNext := none }
      exec (i f a d) s = .next { u with me := m.retire none (u.me.cur.pc + 4) true }) ∧
    (u.me.storeQ.length < 16 → ∀ e, LaneFails u w (f.toNat * w) a fault e → exec (i f a d) s = .next (laneTrap u e))

section
variable {u : State} {w off : Nat} {a d : BitVec 7} {rel : Option (BitVec 3)}

theorem storeLanes_full (hq : 16 ≤ u.me.storeQ.length) : u.storeLanes w off a d rel = u := if_pos hq

theorem storeLanes_pass {acc : Nat → Access} (hq : u.me.storeQ.length < 16)
    (h : LanesPass u w off a (fun ea bs => u.storeFault u.me ea bs) acc) :
    u.storeLanes w off a d rel = { u with
      me := (u.me.queueStore ((activeLanes u).flatMap fun l => placeBytes (acc l).bytes (u.me.storeBytes w d l)) rel
        (u.storeDue w ((activeLanes u).map fun l => (acc l).ea))).retire none (u.me.cur.pc + 4) true } := by
  unfold State.storeLanes
  simp only [lanes_pass h, Agent.storeCells, List.flatMap_map, List.map_map, Function.comp_def]
  exact if_neg (Nat.not_le.2 hq)

theorem storeLanes_fail {e : LaneFault} (hq : u.me.storeQ.length < 16)
    (h : LaneFails u w off a (fun ea bs => u.storeFault u.me ea bs) e) : u.storeLanes w off a d rel = laneTrap u e := by
  unfold State.storeLanes
  simp only [lanes_fail h]
  exact if_neg (Nat.not_le.2 hq)

end

/-- An instruction whose meaning is `storeLanes` behind its needs has the shape of a store. -/
theorem storeForm_of {i : BitVec 5 → BitVec 7 → BitVec 7 → Instr} {w : Nat} {rel : Option (BitVec 3)}
    {need : BitVec 7 → BitVec 7 → Need}
    (h : ∀ f a d s, exec (i f a d) s = Machine.guard (need a d) s fun s => .next (s.storeLanes w (f.toNat * w) a d rel)) :
    StoreForm i w rel need := by
  intro f a d s hc u fault
  have hexec : exec (i f a d) s = .next (u.storeLanes w (f.toNat * w) a d rel) := by rw [h, guard_clear hc]
  refine ⟨fun hq => ?full, fun hq acc hpass => ?pass, fun hq e hfail => ?fail⟩
  case full => rw [hexec, storeLanes_full hq]
  case pass =>
    rw [hexec, storeLanes_pass hq hpass]
    rfl
  case fail => rw [hexec, storeLanes_fail hq hfail]

/-! What a lane stores (R133, R135). -/

theorem getElem?_leBytes_word (x : Word) {n i : Nat} (hi : i < n) :
    (leBytes n x.toNat)[i]? = some (x.extractLsb' (8 * i) 8) := by
  have hlen : i < (leBytes n x.toNat).length := by simpa using hi
  rw [List.getElem?_eq_getElem hlen, getElem_leBytes, Option.some.injEq, ← BitVec.toNat_inj, BitVec.toNat_ofNat,
    BitVec.extractLsb'_toNat, Nat.shiftRight_eq_div_pow, Nat.pow_mul]

theorem storeBytes_narrow (a : Agent) (d : BitVec 7) (l : Nat) {i w : Nat} (hw : w ≤ 4) (hi : i < w) :
    (a.storeBytes w d l)[i]? = some ((a.src d l).extractLsb' (8 * i) 8) := by
  rw [Agent.storeBytes, if_pos hw, getElem?_leBytes_word _ hi]

theorem length_flatMap_leBytes (f : Nat → Word) (n : Nat) :
    ((List.range n).flatMap fun k => leBytes 4 (f k).toNat).length = 4 * n := by
  simp [List.length_flatMap, Nat.mul_comm]

/-- Byte i of words laid out one after another is byte i mod 4 of word i / 4. -/
theorem getElem?_flatMap_leBytes (f : Nat → Word) {n i : Nat} (hi : i < 4 * n) :
    ((List.range n).flatMap fun k => leBytes 4 (f k).toNat)[i]? = some ((f (i / 4)).extractLsb' (8 * (i % 4)) 8) := by
  induction n with
  | zero => omega
  | succ n ih =>
    have hlen := length_flatMap_leBytes f n
    rw [List.range_succ, List.flatMap_append, List.flatMap_singleton]
    by_cases hlast : 4 * n ≤ i
    · rw [List.getElem?_append_right (by omega), hlen, getElem?_leBytes_word _ (by omega),
        show i - 4 * n = i % 4 by omega, show i / 4 = n by omega]
    · rw [List.getElem?_append_left (by omega), ih (by omega)]

theorem storeBytes_wide (a : Agent) (d : BitVec 7) (l : Nat) {i w : Nat} (hw : w = 8 ∨ w = 16) (hi : i < w) :
    (a.storeBytes w d l)[i]? = some ((a.readV (d.toNat + i / 4) l).extractLsb' (8 * (i % 4)) 8) := by
  have hwide : ¬w ≤ 4 := by omega
  have hregs : i < 4 * accessRegs w := by
    rcases hw with rfl | rfl <;> simpa [accessRegs] using hi
  rw [Agent.storeBytes, if_neg hwide]
  exact getElem?_flatMap_leBytes (fun k => a.readV (d.toNat + k) l) hregs

theorem mem_placeBytes (bs : List OdaByte) (xs : List Byte) (k : Nat) (x : Byte) :
    (k, x) ∈ placeBytes bs xs ↔ ∃ i : Nat, bs[i]? = some (OdaByte.loc k) ∧ xs[i]? = some x := by
  have hkept : (k, x) ∈ placeBytes bs xs ↔ (OdaByte.loc k, x) ∈ bs.zip xs := by
    simp only [placeBytes, List.mem_filterMap]
    constructor
    · rintro ⟨⟨b, y⟩, hmem, hb⟩
      cases b with
      | loc j => cases hb; exact hmem
      | window => cases hb
    · exact fun hmem => ⟨_, hmem, rfl⟩
  simp only [hkept, List.mem_iff_getElem?, List.getElem?_zip_eq_some]

/-! Stores that perform (R135, R181). -/

theorem who_of_agent {s : State} {w : Who} {a : Agent} (h : s.agent w = some a) : a.who = w := by
  unfold State.agent at h
  split at h
  · obtain rfl := Option.some.inj h
    assumption
  · simpa using List.find?_some h

@[simp] theorem notePublish_mem (s : State) (a : Agent) (e : StoreEntry) : (s.notePublish a e).mem = s.mem := by
  unfold State.notePublish
  repeat' split
  all_goals rfl

@[simp] theorem releaseAt_mem (s : State) (a : Agent) (c : BitVec 3) (ks : List Nat) : (s.releaseAt a c ks).mem = s.mem :=
  foldl_keeps State.mem (fun s _ => mapMonitors_mem s _) _ s

theorem setAgent_units (s : State) (a : Agent) : (s.setAgent a).units = s.units := by
  unfold State.setAgent; split <;> rfl

theorem setAgent_launches (s : State) (a : Agent) : (s.setAgent a).launches = s.launches := by
  unfold State.setAgent; split <;> rfl

theorem setAgent_snapOf (s : State) (a : Agent) (u : UnitKey) : (s.setAgent a).snapOf u = s.snapOf u := by
  simp only [State.snapOf, State.unit, setAgent_units]

theorem setAgent_launch (s : State) (a : Agent) (c : Nat) (id : Word) : (s.setAgent a).launch c id = s.launch c id := by
  simp only [State.launch, setAgent_launches]

theorem programCells_subset {s : State} {a : Agent} {cells : List (Nat × Byte)} {c : Nat × Byte}
    (h : c ∈ s.programCells a cells) : c ∈ cells := by
  unfold State.programCells at h
  split at h
  · exact (List.mem_filter.1 h).1
  · exact h

/-- In memory, a store that performs is its unit's write of the bytes that take effect. -/
theorem performOne_mem (s : State) {a : Agent} {e : StoreEntry} {r : List StoreEntry} (h : a.storeQ = e :: r) :
    (s.performOne a).mem = ((s.setAgent { a with storeQ := r, arrivals := stepArrivals a.arrivals }).writeCells a.unit
      (s.programCells a e.cells)).mem := by
  simp only [State.performOne, h]
  have hrel (t : State) : (t.releaseSys a.holder).mem = t.mem := rfl
  split <;> split <;> simp [hrel, sendWrites_mem]

/-- A unit with a snapshot writes HBM and scratchpads in its snapshot alone. -/
theorem writeCells_snap {s : State} {u : UnitKey} {sn : Snapshot} (hs : s.snapOf u = some sn) (cells : List (Nat × Byte))
    {k : Nat} (hk : k < 2 ^ 52) : Memory.read (s.writeCells u cells).mem k = Memory.read s.mem k := by
  obtain ⟨x, hx, hsnap⟩ := Option.bind_eq_some_iff.1 hs
  simp only [State.writeCells, State.writeVia, hx, hsnap]
  refine (congrArg (Memory.read · k) (writeMemAs_mem ..)).trans (read_writeAll_other _ fun c hc => ?_)
  rintro rfl
  have hown := (List.mem_filter.1 hc).2
  simp [snapKey] at hown
  omega

theorem mayPerform_of {s : State} {a : Agent} {e : StoreEntry} {r : List StoreEntry} (h : a.storeQ = e :: r)
    (hpeer : e.rel = true → e.scope = 6 → s.peerWrites a.who = false)
    (hdue : ∀ r, s.rotationOf a = some r → e.due ≤ r.cycle) : s.mayPerform a = true := by
  have hgo : (e.rel && e.scope == 6 && s.peerWrites a.who) = false := by
    cases hr : e.rel with
    | false => rfl
    | true =>
      by_cases hc : e.scope = 6
      · rw [hpeer hr hc, Bool.and_false]
      · rw [beq_eq_false_iff_ne.2 hc, Bool.and_false, Bool.false_and]
  simp only [State.mayPerform, h, hgo, Bool.not_false, Bool.true_and]
  split
  · rfl
  next r hr => exact decide_eq_true (hdue r hr)

theorem storePerform_results {w : Who} {s : State} {a : Agent} {e : StoreEntry} {r : List StoreEntry}
    (ha : s.agent w = some a) (h : a.storeQ = e :: r) (hpeer : e.rel = true → e.scope = 6 → s.peerWrites a.who = false)
    (hdue : ∀ r, s.rotationOf a = some r → e.due ≤ r.cycle) :
    Answers (.storePerform w) s fun t =>
      (t.agent w).map (fun b => b.storeQ) = some r ∧
      (s.snapOf a.unit = none → (∀ l, s.launch a.unit.ctx a.unit.launch = some l → l.replay = none ∧ l.replayable = false) →
        t.mem = Memory.writeAll s.mem (s.programCells a e.cells) ∧
        ((∀ x ∈ s.units, s.inService x = false) → t.mem = Memory.writeAll s.mem e.cells) ∧
        ∀ k, (∀ c ∈ e.cells, c.1 ≠ k) → Memory.read t.mem k = Memory.read s.mem k) ∧
      (∀ sn, s.snapOf a.unit = some sn →
        ∀ k, k < 2 ^ 52 → Memory.read t.mem k = Memory.read s.mem k) := by
  have hexec : exec (.storePerform w) s = execStorePerform w s := rfl
  refine ⟨s.performOne a, ?_, ?queue, fun hsnap hplain => ?memory, fun sn hsnap k hk => ?snapshot⟩
  · rw [hexec, execStorePerform, ha]
    exact if_pos (mayPerform_of h hpeer hdue)
  case queue =>
    obtain rfl := who_of_agent ha
    have hagents := performOne_allAgents s h
    have hsame := agent_setAgent_same (a := { a with storeQ := r, arrivals := stepArrivals a.arrivals }) ha
    have hagent : (s.performOne a).agent a.who =
        (s.setAgent { a with storeQ := r, arrivals := stepArrivals a.arrivals }).agent a.who := by
      simp only [State.agent, me_of_allAgents hagents, agents_of_allAgents hagents]
    rw [hagent, hsame]
    rfl
  case memory =>
    have hmem : (s.performOne a).mem = Memory.writeAll s.mem (s.programCells a e.cells) := by
      rw [performOne_mem s h, writeCells_mem (by rw [setAgent_snapOf, hsnap]) (by simpa only [setAgent_launch] using hplain),
        setAgent_mem]
    refine ⟨hmem, fun hserve => by rw [hmem, programCells_all hserve], fun k hk => ?_⟩
    rw [hmem]
    exact read_writeAll_other _ fun c hc => hk c (programCells_subset hc)
  case snapshot =>
    rw [performOne_mem s h, writeCells_snap ((setAgent_snapOf ..).trans hsnap) _ hk, setAgent_mem]

/-- Settles O16: each store by whether its queue is full and its lanes pass; what a lane stores, byte by byte; and the oldest entry
by whether its unit has a snapshot. -/
theorem laneStoreResults : Obligations.LaneStoreResults := by
  unfold Obligations.LaneStoreResults
  have forms : StoreForm .st8 1 none (storeNeed 1) ∧ StoreForm .st16 2 none (storeNeed 2) ∧
      StoreForm .st32 4 none (storeNeed 4) ∧ StoreForm .st64 8 none (storeNeed 8) ∧ StoreForm .st128 16 none (storeNeed 16) ∧
      ∀ c : BitVec 3, StoreForm (.strl c) 4 (some c) fun a d => { storeNeed 4 a d with scope := c == 7 } :=
    ⟨storeForm_of fun _ _ _ _ => rfl, storeForm_of fun _ _ _ _ => rfl, storeForm_of fun _ _ _ _ => rfl,
      storeForm_of fun _ _ _ _ => rfl, storeForm_of fun _ _ _ _ => rfl, fun _ => storeForm_of fun _ _ _ _ => rfl⟩
  exact ⟨forms, ⟨fun a d l i w hw hi => storeBytes_narrow a d l (by omega) hi,
    fun a d l i w hw hi => storeBytes_wide a d l hw hi, mem_placeBytes⟩,
    fun w s a e r ha h hpeer hdue => storePerform_results ha h hpeer hdue⟩

end Sys2Proof.Proofs
end

section
/-!
PROOF. The tensor table (R119 to R125, R146): what a selector names, and TDEF, TQRY, TFREE and TSCL by what theirs names.
-/
namespace Sys2Proof.Proofs
open Sys2Proof.Machine Sys2Proof.Laws

/-! Selectors and the tables that they select from (R146). -/

theorem getLsbD_eq_decide (g : DWord) (i : Nat) : g.getLsbD i = decide (g.toNat / 2 ^ i % 2 = 1) := by
  rw [BitVec.getLsbD, Nat.testBit_eq_decide_div_mod_eq]

/-- What a selector names, by its value. -/
theorem selectorOf_eq (g : DWord) : selectorOf g =
    if g.toNat < 4096 then some (.tensor g.toNat)
    else if 2 ^ 16 ≤ g.toNat ∧ g.toNat < 2 ^ 16 + 16 then some (.window (g.toNat - 2 ^ 16))
    else none := by
  have hlt := g.isLt
  rw [selectorOf, getLsbD_eq_decide]
  unfold bitsOf
  simp only [ne_eq, decide_eq_true_eq]
  split
  · rw [if_neg (by omega), if_neg (by omega)]
  · split
    · split
      · rw [if_neg (by omega), if_neg (by omega)]
      · rw [if_neg (by omega), if_pos (by omega), show g.toNat / 2 ^ 0 % 2 ^ 4 = g.toNat - 2 ^ 16 by omega]
    · rw [if_pos (by omega), show g.toNat / 2 ^ 0 % 2 ^ 12 = g.toNat by omega]

theorem selectorOf_tensor {g : DWord} {id : Nat} (hg : g = BitVec.ofNat 64 id) (h : id < 4096) :
    selectorOf g = some (.tensor id) := by
  have hnat : g.toNat = id := by rw [hg, BitVec.toNat_ofNat]; omega
  rw [selectorOf_eq, hnat, if_pos h]

theorem selectorOf_window {g : DWord} {w : Nat} (hg : g = BitVec.ofNat 64 (2 ^ 16 + w)) (h : w < 16) :
    selectorOf g = some (.window w) := by
  have hnat : g.toNat = 2 ^ 16 + w := by rw [hg, BitVec.toNat_ofNat]; omega
  rw [selectorOf_eq, hnat, if_neg (by omega), if_pos (by omega), Nat.add_sub_cancel_left]

theorem selectorOf_none {g : DWord} (h : 4096 ≤ g.toNat) (hw : ¬(2 ^ 16 ≤ g.toNat ∧ g.toNat < 2 ^ 16 + 16)) :
    selectorOf g = none := by
  rw [selectorOf_eq, if_neg (by omega), if_neg hw]

/-- A selector from 4096 on names a window or nothing. -/
theorem selectorOf_high {g : DWord} (h : 4096 ≤ g.toNat) : selectorOf g = none ∨ ∃ w, selectorOf g = some (.window w) := by
  rw [selectorOf_eq, if_neg (by omega)]
  split
  · exact .inr ⟨_, rfl⟩
  · exact .inl rfl

theorem tensor_setTensor (s : State) (ctx i j : Nat) (r : BitVec 512) : ((s.setTensor ctx i r).context ctx).tensor j =
    if j = i then (if r = 0 then none else some r) else (s.context ctx).tensor j := by
  simp only [State.setTensor, context_setContext_same, Context.tensor, get_set]
  split <;> rfl

/-- A record with SCALE and GRAN replaced, bit by bit. -/
theorem getLsbD_setScale (r : BitVec 512) (x : DWord) {i : Nat} (hi : i < 512) :
    (setScale r x).getLsbD i = if 0x180 ≤ i ∧ i < 0x198 then x.getLsbD (i - 0x180) else r.getLsbD i := by
  have hmask (j : Nat) (hj : j < 512) : (0xFF_FFFF : BitVec 512).getLsbD j = decide (j < 24) := by
    have hones : (0xFF_FFFF : Nat).testBit j = decide (j < 24) := Nat.testBit_two_pow_sub_one 24 j
    rw [← hones, ← Bool.true_and (Nat.testBit _ _), ← decide_eq_true hj]
    exact BitVec.getLsbD_ofNat ..
  simp only [setScale, BitVec.getLsbD_or, BitVec.getLsbD_and, BitVec.getLsbD_not, BitVec.getLsbD_shiftLeft,
    BitVec.getLsbD_setWidth, hmask (i - 0x180) (by omega), hi, decide_true, Bool.true_and]
  by_cases hlo : i < 0x180
  · rw [if_neg (by omega), decide_eq_true hlo]
    simp
  · have hlow : i - 0x180 < 512 := by omega
    rw [decide_eq_false hlo, decide_eq_true hlow]
    by_cases hhi : i - 0x180 < 24
    · rw [if_pos (by omega), decide_eq_true hhi]
      simp
    · rw [if_neg (by omega), decide_eq_false hhi]
      simp

theorem setScale_fields (r : BitVec 512) (x : DWord) : (setScale r x).extractLsb' 0x180 24 = x.extractLsb' 0 24 ∧
    (setScale r x).extractLsb' 0 0x180 = r.extractLsb' 0 0x180 ∧
    (setScale r x).extractLsb' 0x198 104 = r.extractLsb' 0x198 104 := by
  refine ⟨?_, ?_, ?_⟩ <;> refine BitVec.eq_of_getLsbD_eq fun i hi => ?_
  · rw [BitVec.getLsbD_extractLsb', BitVec.getLsbD_extractLsb', getLsbD_setScale r x (by omega), if_pos (by omega)]
    simp
  · rw [BitVec.getLsbD_extractLsb', BitVec.getLsbD_extractLsb', getLsbD_setScale r x (by omega), if_neg (by omega)]
  · rw [BitVec.getLsbD_extractLsb', BitVec.getLsbD_extractLsb', getLsbD_setScale r x (by omega), if_neg (by omega)]

/-- A 64-bit word of a record. -/
theorem ofNat_recField {w : Nat} (r : BitVec w) (k : Nat) :
    BitVec.ofNat 64 (recField r (8 * k) 8) = BitVec.ofNat 64 (r.toNat / 2 ^ (64 * k)) := by
  rw [recField, ← Nat.mul_assoc, ← BitVec.toNat_inj, BitVec.toNat_ofNat, BitVec.toNat_ofNat]
  exact Nat.mod_mod _ _

/-! The instructions (R119 to R125, R146), behind decode. -/

/-- An instruction of group registers only finds the state as it stands. -/
theorem guard_gNeed {u : Units} {cs : List (BitVec 7)} {s : State} (hc : Clear (gNeed u cs) s) (k : State → Out) :
    Machine.guard (gNeed u cs) s k = k s := by
  rw [guard_clear hc, cleared_noreads s rfl]

section
variable {s : State} {a b d : BitVec 7}

theorem tdef_results (hc : Clear (gNeed .core [a, b]) s) :
    let ea := bitsOf (s.me.readG a.toNat) 0 32
    let sel := s.me.readG b.toNat
    (∀ id, sel = BitVec.ofNat 64 id → id < 4096 →
      (∀ bs, s.image ea 64 = .ok bs → recordCheck (BitVec.ofNat 512 (leNat bs)) = none →
        Answers (.tdef b a) s fun t =>
          FlowEffect (s.setTensor s.me.ctx id (BitVec.ofNat 512 (leNat bs))) t (s.me.cur.pc + 4) true) ∧
      (∀ bs n, s.image ea 64 = .ok bs → recordCheck (BitVec.ofNat 512 (leNat bs)) = some n →
        exec (.tdef b a) s = .next (subTrap s .tensorRecord n)) ∧
      (∀ c, s.image ea 64 = .error c → exec (.tdef b a) s = .next (addrTrap s c ea))) ∧
    (∀ w, sel = BitVec.ofNat 64 (2 ^ 16 + w) → w < 16 → ∀ bs, s.image ea 32 = .ok bs →
      (windowOk (BitVec.ofNat 256 (leNat bs)) = true → Answers (.tdef b a) s fun t =>
        FlowEffect (s.setWindow s.me.ctx w (BitVec.ofNat 256 (leNat bs))) t (s.me.cur.pc + 4) true) ∧
      (windowOk (BitVec.ofNat 256 (leNat bs)) = false → exec (.tdef b a) s = .next (subTrap s .tensorRecord 14))) ∧
    ((4096 ≤ sel.toNat → ¬(2 ^ 16 ≤ sel.toNat ∧ sel.toNat < 2 ^ 16 + 16) → Traps (.tdef b a) s .tensorId)) := by
  intro ea sel
  have hexec : exec (.tdef b a) s = execTdef b a s := rfl
  rw [execTdef, guard_gNeed hc] at hexec
  refine ⟨fun id hid hlt => ?tensor, fun w hw hlt bs himg => ?window, fun hhigh hw => ?none⟩
  case tensor =>
    have hsel : selectorOf (s.me.g7 b) = some (.tensor id) := selectorOf_tensor hid hlt
    simp only [hsel] at hexec
    refine ⟨fun bs himg hok => ⟨_, ?_, finish_effect _ true⟩, fun bs n himg hbad => ?_, fun c himg => ?_⟩
    all_goals have himg : s.image (bitsOf (s.me.g7 a) 0 32) 64 = _ := himg
    · simp only [hexec, himg, hok]
    · simp only [hexec, himg, hbad]
    · simp only [hexec, himg]
      rfl
  case window =>
    have hsel : selectorOf (s.me.g7 b) = some (.window w) := selectorOf_window hw hlt
    have himg : s.image (bitsOf (s.me.g7 a) 0 32) 32 = _ := himg
    simp only [hsel, himg] at hexec
    refine ⟨fun hok => ⟨_, ?_, finish_effect _ true⟩, fun hbad => ?_⟩
    · rw [hexec, if_pos hok]
    · rw [hexec, if_neg (Bool.eq_false_iff.1 hbad)]
  case none =>
    have hsel : selectorOf (s.me.g7 b) = none := selectorOf_none hhigh hw
    simp only [hsel] at hexec
    exact hexec

theorem tqry_results (hc : Clear (gNeed .core [d, a, b]) s) :
    let sel := s.me.readG a.toNat
    let w := (s.me.readG b.toNat).toNat
    (∀ id, sel = BitVec.ofNat 64 id → id < 4096 →
      (∀ r, s.queryTensor id = some r → Answers (.tqry b a d) s fun t =>
        GroupEffect s t d.toNat (BitVec.ofNat 64 (r.toNat / 2 ^ (64 * (w % 8)))) true) ∧
      (s.queryTensor id = none → Answers (.tqry b a d) s fun t =>
        GroupEffect s t d.toNat (if w % 8 = 0 then 0xC000_0000_0000_0000 else 0) true)) ∧
    (∀ k, sel = BitVec.ofNat 64 (2 ^ 16 + k) → k < 16 → Answers (.tqry b a d) s fun t =>
      GroupEffect s t d.toNat (BitVec.ofNat 64 (((s.context s.me.ctx).window k).toNat / 2 ^ (64 * (w % 4)))) true) ∧
    (4096 ≤ sel.toNat → ¬(2 ^ 16 ≤ sel.toNat ∧ sel.toNat < 2 ^ 16 + 16) → Traps (.tqry b a d) s .tensorId) := by
  intro sel w
  have hexec : exec (.tqry b a d) s = execTqry b a d s := rfl
  rw [execTqry, guard_gNeed hc] at hexec
  have hw8 : bitsOf (s.me.g7 b) 0 3 = w % 8 := by rw [bitsOf, Nat.pow_zero, Nat.div_one]; rfl
  have hw4 : bitsOf (s.me.g7 b) 0 2 = w % 4 := by rw [bitsOf, Nat.pow_zero, Nat.div_one]; rfl
  refine ⟨fun id hid hlt => ?tensor, fun k hk hlt => ?window, fun hhigh hw => ?none⟩
  case tensor =>
    have hsel : selectorOf (s.me.g7 a) = some (.tensor id) := selectorOf_tensor hid hlt
    simp only [hsel, hw8] at hexec
    refine ⟨fun r hr => ⟨_, ?_, finishG_effect s d _ true⟩, fun hr => ⟨_, ?_, finishG_effect s d _ true⟩⟩
    · rw [hexec, hr]
      simp only [ofNat_recField]
    · rw [hexec, hr]
      rfl
  case window =>
    have hsel : selectorOf (s.me.g7 a) = some (.window k) := selectorOf_window hk hlt
    simp only [hsel, hw4, ofNat_recField] at hexec
    exact ⟨_, hexec, finishG_effect s d _ true⟩
  case none =>
    have hsel : selectorOf (s.me.g7 a) = none := selectorOf_none hhigh hw
    simp only [hsel] at hexec
    exact hexec

theorem tfree_results (hc : Clear (gNeed .core [a]) s) :
    let sel := s.me.readG a.toNat
    (∀ id, sel = BitVec.ofNat 64 id → id < 4096 → Answers (.tfree a) s fun t =>
      FlowEffect (s.setTensor s.me.ctx id 0) t (s.me.cur.pc + 4) true) ∧
    (∀ w, sel = BitVec.ofNat 64 (2 ^ 16 + w) → w < 16 → Answers (.tfree a) s fun t =>
      FlowEffect (s.setWindow s.me.ctx w 0) t (s.me.cur.pc + 4) true) ∧
    (4096 ≤ sel.toNat → ¬(2 ^ 16 ≤ sel.toNat ∧ sel.toNat < 2 ^ 16 + 16) → Traps (.tfree a) s .tensorId) := by
  intro sel
  have hexec : exec (.tfree a) s = execTfree a s := rfl
  rw [execTfree, guard_gNeed hc] at hexec
  refine ⟨fun id hid hlt => ⟨_, ?_, finish_effect _ true⟩, fun w hw hlt => ⟨_, ?_, finish_effect _ true⟩, fun hhigh hw => ?_⟩
  · have hsel : selectorOf (s.me.g7 a) = some (.tensor id) := selectorOf_tensor hid hlt
    simp only [hexec, hsel]
  · have hsel : selectorOf (s.me.g7 a) = some (.window w) := selectorOf_window hw hlt
    simp only [hexec, hsel]
  · have hsel : selectorOf (s.me.g7 a) = none := selectorOf_none hhigh hw
    simp only [Traps, hexec, hsel]

theorem tscl_results (hc : Clear (gNeed .core [a, b]) s) :
    let x := s.me.readG b.toNat
    (∀ id, s.me.readG a.toNat = BitVec.ofNat 64 id → id < 4096 →
      ((s.context s.me.ctx).tensor id = none → Traps (.tscl b a) s .tensorId) ∧
      ∀ r, (s.context s.me.ctx).tensor id = some r →
        (2 < trGran (setScale r x) ∨ (trGran (setScale r x) ≠ 0 ∧ (trRef (setScale r x) 0x30).isNone = true) →
          exec (.tscl b a) s = .next (subTrap s .tensorRecord 9)) ∧
        (x.toNat < 2 ^ 24 → x.extractLsb' 12 3 = 0 →
          ¬(2 < trGran (setScale r x) ∨ (trGran (setScale r x) ≠ 0 ∧ (trRef (setScale r x) 0x30).isNone = true)) →
          Answers (.tscl b a) s fun t =>
          FlowEffect (s.setTensor s.me.ctx id (setScale r x)) t (s.me.cur.pc + 4) true)) ∧
    (4096 ≤ (s.me.readG a.toNat).toNat → Traps (.tscl b a) s .tensorId) := by
  intro x
  have hexec : exec (.tscl b a) s = execTscl b a s := rfl
  rw [execTscl, guard_gNeed hc] at hexec
  refine ⟨fun id hid hlt => ?tensor, fun hhigh => ?none⟩
  case tensor =>
    have hsel : selectorOf (s.me.g7 a) = some (.tensor id) := selectorOf_tensor hid hlt
    simp only [hsel] at hexec
    refine ⟨fun hr => ?_, fun r hr => ?_⟩
    · simp only [Traps, hexec, hr]
    · simp only [hr] at hexec
      refine ⟨fun hbad => hexec.trans (if_pos hbad), fun hx hgap hok => ⟨_, ?_, finish_effect _ true⟩⟩
      have hfields : ¬(bitsOf x 12 3 ≠ 0 ∨ bitsOf x 24 40 ≠ 0) := by
        have hgap : bitsOf x 12 3 = 0 := by
          have := congrArg BitVec.toNat hgap
          rwa [BitVec.extractLsb'_toNat, Nat.shiftRight_eq_div_pow] at this
        have hhigh : bitsOf x 24 40 = 0 := by rw [bitsOf]; omega
        simp [hgap, hhigh]
      exact hexec.trans ((if_neg hok).trans (if_neg hfields))
  case none =>
    rcases selectorOf_high hhigh with hsel | ⟨w, hsel⟩
    all_goals
      have hsel : selectorOf (s.me.g7 a) = _ := hsel
      simp only [Traps, hexec, hsel]

end

/-- Settles O22: what a selector names by its value, and each instruction by that. -/
theorem tensorTableResults : Obligations.TensorTableResults := by
  unfold Obligations.TensorTableResults
  exact ⟨tensor_setTensor, fun _ _ _ hc => tdef_results hc, fun _ _ _ _ hc => tqry_results hc, fun _ _ hc => tfree_results hc,
    fun _ _ _ hc => tscl_results hc, setScale_fields⟩

end Sys2Proof.Proofs
end

section
/-!
PROOF. Timed loads and stores (R128, R137 to R140, R175, R338): their issue, and the step in which each performs.
-/
namespace Sys2Proof.Proofs
open Sys2Proof.Machine Sys2Proof.Laws

/-! What a unit's write leaves beside memory (R181, R340 to R342). -/

theorem OnlyMemory.cores {s t : State} (h : OnlyMemory s t) : t.cores = s.cores := by
  obtain ⟨_, _, _, _, _, rfl⟩ := h
  rfl

theorem sendUnit_cores (s : State) (opc unit arg : Nat) (data : List Byte) (r : PeerRequest) :
    (s.sendUnit opc unit arg data r).cores = s.cores := by
  unfold State.sendUnit; split <;> rfl

theorem logExposures_cores (s : State) (l : Launch) (ws : List (Nat × Nat)) : (s.logExposures l ws).cores = s.cores := by
  induction ws generalizing s with
  | nil => rfl
  | cons w ws ih =>
    simp only [State.logExposures, ih]
    split
    · rfl
    · exact (writeMemAs_memory ..).cores

theorem sendOut_cores (s : State) (l : Launch) (cells : List (Nat × Byte)) {write : State → List (Nat × Byte) → State}
    (h : ∀ t ok, (write t ok).cores = t.cores) : (s.sendOut l cells write).cores = s.cores := by
  have hsent {ok ks r} : ((write s ok).sendWrites ks r).cores = s.cores :=
    (foldl_keeps State.cores (fun s _ => sendUnit_cores s ..) _ _).trans (h s ok)
  unfold State.sendOut
  dsimp only
  split
  · exact hsent
  · exact hsent

theorem expose_cores (s : State) (l : Launch) : (s.expose l).cores = s.cores := by
  unfold State.expose
  split
  · rfl
  · rw [logExposures_cores, sendOut_cores _ _ _ fun t ok => (writeMemAs_memory t _ ok).cores]
    rfl

theorem plainWrite_cores (s : State) (l : Launch) (va : Option Nat) (cells : List (Nat × Byte)) :
    (s.plainWrite l va cells).cores = s.cores := by
  unfold State.plainWrite
  dsimp only
  split
  · rw [logExposures_cores, (writeMemAs_memory ..).cores]
  · exact (writeMemAs_memory ..).cores

theorem launchWrite_cores (s : State) (ctx : Nat) (id : Word) (va : Option Nat) (cells : List (Nat × Byte)) :
    (s.launchWrite ctx id va cells).cores = s.cores := by
  unfold State.launchWrite
  split
  · exact (writeMemAs_memory ..).cores
  · dsimp only
    split
    · rw [plainWrite_cores]
      rfl
    · split
      · rw [plainWrite_cores, expose_cores]
        rfl
      · rw [(writeMemAs_memory ..).cores]
        rfl

theorem writeCells_cores (s : State) (u : UnitKey) (cells : List (Nat × Byte)) : (s.writeCells u cells).cores = s.cores := by
  unfold State.writeCells State.writeVia
  split
  · split
    · exact (writeMemAs_memory ..).cores
    · exact launchWrite_cores ..
  · exact (writeMemAs_memory ..).cores

/-- The write of a unit without a snapshot, whose launch is not replayable, is a write of memory, which the launch notes. -/
theorem writeCells_plain {s : State} {u : UnitKey} (hs : s.snapOf u = none)
    (hl : ∀ l, s.launch u.ctx u.launch = some l → l.replay = none ∧ l.replayable = false) (cells : List (Nat × Byte)) :
    ∃ ls, OnlyMemory { s with launches := ls } (s.writeCells u cells) := by
  have hlaunch : ∃ ls, OnlyMemory { s with launches := ls } (s.launchWrite u.ctx u.launch none cells) := by
    unfold State.launchWrite
    split
    · exact ⟨_, writeMemAs_memory s _ cells⟩
    next l h =>
      obtain ⟨hreplay, hplain⟩ := hl l h
      simp only [hreplay, State.plainWrite, hplain, Bool.false_and, Bool.false_eq_true, if_false]
      exact ⟨_, writeMemAs_memory ..⟩
  unfold State.writeCells State.writeVia
  split
  next x hx =>
    have hsnap : x.snap = none := by simpa [State.snapOf, hx] using hs
    simp only [hsnap]
    exact hlaunch
  · exact ⟨_, writeMemAs_memory s _ cells⟩

/-! Lateness (R139). -/

theorem reportLate_cores (s : State) (u : UnitKey) (die : Nat) (t thr : DWord) (pc : Word) :
    (s.reportLate u die t thr pc).cores = s.cores := by
  unfold State.reportLate
  dsimp only
  split
  · split <;> rfl
  · rfl

/-- An operation that has its time reports nothing. -/
theorem reportLate_inTime {s : State} {u : UnitKey} {die : Nat} {t : DWord} (thr : DWord) (pc : Word)
    (h : (s.die die).time.toNat ≤ t.toNat + bitsOf (s.ctxReg u.ctx 0x003) 0 32) : s.reportLate u die t thr pc = s := by
  have hlate : s.isLate u.ctx t (s.die die).time = false := decide_eq_false (Nat.not_lt.2 h)
  simp only [State.reportLate, hlate, Bool.false_eq_true, if_false]

/-! The issue of LDNB and STVA (R137, R138, R140). -/

section
variable {u : State}

theorem timedTrap_det (h : u.me.env.det = true) : timedTrap u = some .timedInDet := if_pos h

theorem timedTrap_undisciplined (h : u.me.env.det = false) (hd : (u.die u.me.place.die).disciplined = false) :
    timedTrap u = some .timeUndisciplined := by
  simp [timedTrap, h, hd]

theorem timedTrap_none (h : u.me.env.det = false) (hd : (u.die u.me.place.die).disciplined = true) : timedTrap u = none := by
  simp [timedTrap, h, hd]

end

section
variable {f : BitVec 5} {a d : BitVec 7} {s : State}

theorem ldnb_results (hc : Clear { loadNeed 4 a d with wide := srcWide a ++ gReg f.toNat } s) :
    let u := cleared { loadNeed 4 a d with wide := srcWide a ++ gReg f.toNat } s
    let fault := fun ea bs => u.loadFault u.me ea bs
    (u.me.env.det = true → exec (.ldnb f a d) s = .next (takeTrap u .timedInDet)) ∧
    (u.me.env.det = false → (u.die u.me.place.die).disciplined = false →
      exec (.ldnb f a d) s = .next (takeTrap u .timeUndisciplined)) ∧
    (u.me.env.det = false → (u.die u.me.place.die).disciplined = true → ∀ acc, LanesPass u 4 0 a fault acc →
      exec (.ldnb f a d) s = .next { u with me := u.me.setWait (.ldnb d.toNat ((activeLanes u).map fun l => (l, (acc l).ea))
        (u.me.readG f.toNat) (u.context u.me.ctx).windows (u.devReg (0x858 + u.me.place.die))) }) := by
  intro u fault
  have hexec : exec (.ldnb f a d) s = execLdnb f a d s := rfl
  rw [execLdnb, guard_clear hc] at hexec
  generalize hu : cleared _ s = v at hexec
  obtain rfl : u = v := hu
  clear_value u
  refine ⟨fun hdet => ?_, fun hdet hdis => ?_, fun hdet hdis acc hpass => ?_⟩
  · simp only [hexec, timedTrap_det hdet]
  · simp only [hexec, timedTrap_undisciplined hdet hdis]
  · have hlanes := lanes_pass (fault := fun ea bs => u.loadFault u.me ea bs) hpass
    simp only [hexec, timedTrap_none hdet hdis, hlanes, List.map_map, Function.comp_def]

theorem stva_results (hc : Clear { storeNeed 4 a d with wide := srcWide a ++ srcWide d ++ gReg f.toNat } s) :
    let u := cleared { storeNeed 4 a d with wide := srcWide a ++ srcWide d ++ gReg f.toNat } s
    let p := u.me.place
    let k := u.core p.die p.cluster p.core
    let fault := fun ea bs => u.storeFault u.me ea bs
    (u.me.env.det = true → exec (.stva f a d) s = .next (takeTrap u .timedInDet)) ∧
    (u.me.env.det = false → (u.die p.die).disciplined = false → exec (.stva f a d) s = .next (takeTrap u .timeUndisciplined)) ∧
    (u.me.env.det = false → (u.die p.die).disciplined = true → 32 ≤ k.timed.length → exec (.stva f a d) s = .next u) ∧
    (u.me.env.det = false → (u.die p.die).disciplined = true → k.timed.length < 32 → ∀ acc, LanesPass u 4 0 a fault acc →
      let cells := (activeLanes u).flatMap fun l => placeBytes (acc l).bytes (u.me.storeBytes 4 d l)
      Answers (.stva f a d) s fun t => ∃ e : TimedStore, e.cells = cells ∧ e.time = u.me.readG f.toNat ∧ e.who = u.me.who ∧
        e.unit = u.me.unit ∧
        FlowEffect (u.setCore p.die p.cluster p.core { k with timed := k.timed ++ [e] }) t (u.me.cur.pc + 4) true) := by
  intro u p k fault
  have hexec : exec (.stva f a d) s = execStva f a d s := rfl
  rw [execStva, guard_clear hc] at hexec
  generalize hu : cleared _ s = v at hexec
  obtain rfl : u = v := hu
  clear_value u
  refine ⟨fun hdet => ?_, fun hdet hdis => ?_, fun hdet hdis hfull => ?_, fun hdet hdis hroom acc hpass => ?_⟩
  · simp only [hexec, timedTrap_det hdet]
  · simp only [hexec, timedTrap_undisciplined hdet hdis]
  · simp only [hexec, timedTrap_none hdet hdis]
    exact if_pos hfull
  · intro cells
    have hcells : u.me.storeCells 4 d ((activeLanes u).map fun l => (l, acc l)) = cells := List.flatMap_map ..
    have hlanes := lanes_pass (fault := fun ea bs => u.storeFault u.me ea bs) hpass
    simp only [timedTrap_none hdet hdis, hlanes, hcells] at hexec
    have hroom : ¬32 ≤ (u.core u.me.place.die u.me.place.cluster u.me.place.core).timed.length := Nat.not_le.2 hroom
    rw [if_neg hroom] at hexec
    exact ⟨_, hexec, ⟨_, _, _, _, _, _, _⟩, rfl, rfl, rfl, rfl, finish_effect _ true⟩

end

/-! Timed stores perform (R138, R139, R142, R175). -/

section
variable {core : CoreId} {i : Nat} {s : State} {e : TimedStore}

theorem timedStore_early (he : (s.core core.die core.cluster core.core).timed[i]? = some e)
    (h : (s.die core.die).time.toNat < e.time.toNat) : exec (.timedStorePerform core i) s = .refused .notDue := by
  have hexec : exec (.timedStorePerform core i) s = execTimedStorePerform core i s := rfl
  simp only [hexec, execTimedStorePerform, he]
  exact if_pos (.inl h)

theorem timedStore_performs (he : (s.core core.die core.cluster core.core).timed[i]? = some e)
    (hdue : e.time.toNat ≤ (s.die core.die).time.toNat)
    (hgrace : (s.die core.die).time.toNat ≤ e.time.toNat + bitsOf (s.ctxReg e.unit.ctx 0x003) 0 32)
    (hfirst : let own := (e.time.toNat, (core.die * 4 + core.cluster) * 128 + core.core, i)
      (∀ x ∈ s.storesDue core.die, timedBefore x own = false) ∧ s.tieBefore e own = false) :
    Answers (.timedStorePerform core i) s fun t =>
      (t.core core.die core.cluster core.core).timed = (s.core core.die core.cluster core.core).timed.eraseIdx i ∧
      (s.snapOf e.unit = none → (∀ l, s.launch e.unit.ctx e.unit.launch = some l → l.replay = none ∧ l.replayable = false) →
        t.mem = Memory.writeAll s.mem (s.programCells s.me e.cells) ∧
        ((∀ x ∈ s.units, s.inService x = false) → t.mem = Memory.writeAll s.mem e.cells) ∧ t.pending = s.pending ∧ t.cr = s.cr) := by
  obtain ⟨hfirst, htie⟩ := hfirst
  let k := s.core core.die core.cluster core.core
  let left := s.setCore core.die core.cluster core.core { k with timed := k.timed.eraseIdx i }
  let cells := s.programCells s.me e.cells
  let written := (left.writeCells e.unit cells).holdLines (.agent e.who) (e.cells.map (·.1))
  have hexec : exec (.timedStorePerform core i) s =
      .next (written.reportLate e.unit core.die e.time e.throttle e.pc) := by
    have hmay : ¬((s.die core.die).time.toNat < e.time.toNat
        ∨ (s.inTime core.die e.ctx e.time ∧ (s.storesDue core.die).any fun x =>
            timedBefore x (e.time.toNat, (core.die * 4 + core.cluster) * 128 + core.core, i))
        ∨ s.tieBefore e (e.time.toNat, (core.die * 4 + core.cluster) * 128 + core.core, i)) := by
      rintro (hearly | ⟨-, hany⟩ | hbefore)
      · omega
      · obtain ⟨x, hx, hb⟩ := List.any_eq_true.1 hany
        rw [hfirst x hx] at hb
        cases hb
      · rw [htie] at hbefore
        cases hbefore
    have hrow : exec (.timedStorePerform core i) s = execTimedStorePerform core i s := rfl
    simp only [hrow, execTimedStorePerform, he]
    exact if_neg hmay
  refine ⟨_, hexec, ?table, fun hsnap hplain => ?memory⟩
  case table =>
    have hcores : (written.reportLate e.unit core.die e.time e.throttle e.pc).cores = left.cores := by
      rw [reportLate_cores]
      exact (OnlyNotes.memory (mapMonitors_notes ..)).cores.trans (writeCells_cores ..)
    have hcore : left.core core.die core.cluster core.core = { k with timed := k.timed.eraseIdx i } := core_setCore_same ..
    rw [State.core, hcores]
    exact congrArg Core.timed hcore
  case memory =>
    have hmem : written.mem = Memory.writeAll s.mem cells :=
      (holdLines_mem ..).trans (writeCells_mem (s := left) hsnap hplain cells)
    obtain ⟨ls, hwrite⟩ := writeCells_plain (s := left) hsnap hplain cells
    obtain ⟨_, _, _, _, _, hwritten⟩ := hwrite.trans (OnlyNotes.memory (mapMonitors_notes ..) : OnlyMemory _ written)
    have htime : written.die core.die = s.die core.die := by rw [hwritten]; rfl
    have hcr : written.cr = s.cr := by rw [hwritten]; rfl
    have hpending : written.pending = s.pending := by rw [hwritten]; rfl
    rw [reportLate_inTime _ _ (by rw [htime]; simpa only [State.ctxReg, hcr] using hgrace)]
    exact ⟨hmem, fun hserve => hmem.trans (by rw [show cells = e.cells from programCells_all hserve ..]), hpending, hcr⟩

end

/-! Timed loads perform (R128, R138, R139, R338). -/

theorem front_of_wait {a : Agent} {p : Wait → Bool} (h : p a.wait = true) : a.front p = a := if_pos h

theorem front_alone {a : Agent} (h : a.others = []) (p : Wait → Bool) : a.front p = a := by
  unfold Agent.front
  split
  · rfl
  · rw [h]
    rfl

@[simp] theorem setAgent_pending (s : State) (a : Agent) : (s.setAgent a).pending = s.pending := by
  unfold State.setAgent; split <;> rfl

section
variable {w : Who} {s : State} {a : Agent} {d : Nat} {lanes : List (Nat × Nat)} {T : DWord} {ws : Store (BitVec 256)} {thr : DWord}

theorem ldnb_early (ha : s.agent w = some a) (hw : a.wait = .ldnb d lanes T ws thr)
    (h : (s.die a.place.die).time.toNat < T.toNat) (hone : a.others = []) : exec (.ldnbPerform w) s = .refused .notDue := by
  have hexec : exec (.ldnbPerform w) s = execLdnbPerform w s := rfl
  simp only [hexec, execLdnbPerform, ha, Option.map_some, front_alone hone, hw]
  exact if_pos h

/-- What the LDNB does once its time has come. -/
theorem ldnb_due (hw : a.wait = .ldnb d lanes T ws thr)
    (h : T.toNat ≤ (s.die a.place.die).time.toNat) :
    a.front (s.ldnbDue a) = a ∧ ¬(s.die a.place.die).time.toNat < T.toNat := by
  refine ⟨front_of_wait ?_, Nat.not_lt.2 h⟩
  rw [hw]
  exact decide_eq_true h

theorem ldnb_reads (ha : s.agent w = some a) (hw : a.wait = .ldnb d lanes T ws thr)
    (h : T.toNat ≤ (s.die a.place.die).time.toNat) (hclean : ∀ x ∈ lanes, (s.ldnbLane a ws x.2).2 = false)
    (hgrace : (s.die a.place.die).time.toNat ≤ T.toNat + bitsOf (s.ctxReg a.ctx 0x003) 0 32) :
    ∃ r : Lanes, exec (.ldnbPerform w) s = .next ((s.missCopies (some a.place.die) T.toNat).setAgent
        (((a.setWait .none).writeV d a.cur.em r).retire (some r) (a.cur.pc + 4) true)) ∧
      ∀ l x, l < 32 → (lanes.find? fun y => y.1 == l) = some x → ∀ bs, s.checkOda a x.2 4 = .ok bs →
        a.cur.em.getLsbD l = true → r.at l = BitVec.ofNat 32 (leNat (bs.map (s.loadByteUnder a ws))) := by
  obtain ⟨hfront, hnow⟩ := ldnb_due hw h
  have hexec : exec (.ldnbPerform w) s = execLdnbPerform w s := rfl
  have hpoison : (lanes.map fun x => (x, s.ldnbLane a ws x.2)).find? (fun x => x.2.2) = none := by
    simpa [List.find?_map, List.find?_eq_none] using hclean
  have hlate : (s.missCopies (some a.place.die) T.toNat).isLate a.ctx T (s.die a.place.die).time = false :=
    decide_eq_false (Nat.not_lt.2 hgrace)
  simp only [execLdnbPerform, ha, Option.map_some, hfront, hw, hpoison, hlate, loadedLanes_zero, List.map_map] at hexec
  refine ⟨_, hexec.trans (if_neg hnow), fun l x hl hx bs hbs hem => ?_⟩
  have hval : (s.ldnbLane a ws x.2).1 = leNat (bs.map (s.loadByteUnder a ws)) := by simp only [State.ldnbLane, hbs]
  rw [laneResult, at_make, if_pos hl, if_pos hem, oldWord, ← hval]
  simp only [List.find?_map, Function.comp_def, hx, Option.map_some, Option.getD_some]

theorem ldnb_poisoned (ha : s.agent w = some a) (hw : a.wait = .ldnb d lanes T ws thr)
    (h : T.toNat ≤ (s.die a.place.die).time.toNat) {x : Nat × Nat} (hx : x ∈ lanes) (hbad : (s.ldnbLane a ws x.2).2 = true) :
    Answers (.ldnbPerform w) s fun t =>
      t.pending.length = s.pending.length + 1 ∧
      t.pending.getLast?.map (fun p => (p.cause, p.kind, p.who)) = some (.uncorrectable, .precise, some a.who) := by
  obtain ⟨hfront, hnow⟩ := ldnb_due hw h
  have hexec : exec (.ldnbPerform w) s = execLdnbPerform w s := rfl
  obtain ⟨y, hy⟩ : ∃ y, (lanes.map fun x => (x, s.ldnbLane a ws x.2)).find? (fun x => x.2.2) = some y :=
    Option.isSome_iff_exists.1 (List.find?_isSome.2 ⟨_, List.mem_map_of_mem hx, hbad⟩)
  simp only [execLdnbPerform, ha, Option.map_some, hfront, hw, hy] at hexec
  refine ⟨_, hexec.trans (if_neg hnow), ?_, ?_⟩
  · exact List.length_append
  · simp [pendingOf]

end

/-- Settles O17: the issue of each by mode, discipline and lanes; a timed store that performs as its unit's write, with nothing to
report; and an LDNB by its time and by whether what it reads is poisoned. -/
theorem timedAccessResults : Obligations.TimedAccessResults := by
  unfold Obligations.TimedAccessResults
  exact ⟨⟨fun _ _ _ _ hc => ldnb_results hc, fun _ _ _ _ hc => stva_results hc⟩,
    fun _ _ _ _ he hdue hgrace hfirst => timedStore_performs he hdue hgrace hfirst, fun _ _ _ _ he h => timedStore_early he h,
    fun _ _ _ _ _ _ _ _ ha hw h => ⟨ldnb_reads ha hw h, fun _ hx hbad => ldnb_poisoned ha hw h hx hbad,
      ldnb_early ha hw⟩⟩

end Sys2Proof.Proofs
end

section
/-!
PROOF. Copy commands are accepted (R113, R153 to R156, R176): the timed copies that a read misses, CPY and CPYT by their checks, and
GATH and SCAT by theirs.
-/
namespace Sys2Proof.Proofs
open Sys2Proof.Machine Sys2Proof.Laws

/-! Timed copies that a read misses (R176). -/

/-- The copy command, with the mark that it has if a read of time `t` goes ahead of it. -/
def missedBy (t : Nat) (c : CopyCmd) : CopyCmd :=
  { c with missed := c.missed || (c.time.any fun x => decide (x.toNat ≤ t)) }

theorem missedBy_missed (t : Nat) (c : CopyCmd) :
    (missedBy t c).missed = true ↔ c.missed = true ∨ ∃ T, c.time = some T ∧ T.toNat ≤ t := by
  simp [missedBy, Option.any_eq_true]

/-- A command that is accepted changes the marks of timed copies and of commits alone. -/
theorem missOnAccept_shape (s : State) (die : Nat) : ∃ cs ds, s.missOnAccept die = { s with commits := cs, dies := ds } := by
  unfold State.missOnAccept
  split
  · exact ⟨_, _, rfl⟩
  · exact ⟨_, _, rfl⟩

theorem missOnAccept_early {s : State} {die : Nat} (h : (s.die die).time.toNat < 8) : s.missOnAccept die = s := if_pos h

theorem missOnAccept_late {s : State} {die : Nat} (h : 8 ≤ (s.die die).time.toNat) :
    s.missOnAccept die = s.missCopies none ((s.die die).time.toNat - 8) := if_neg (Nat.not_lt.2 h)

/-- What a store gives of a number when a function is applied to all that it holds. -/
theorem get_map {α : Type} {dflt : α} {f : α → α} (hf : f dflt = dflt) (m : Store α) (n : Nat) :
    Store.get dflt (m.map fun x => (x.1, f x.2)) n = f (Store.get dflt m n) := by
  induction m with
  | nil => exact hf.symm
  | cons e m ih =>
    simp only [List.map_cons, Store.get, ih]
    split <;> rfl

theorem missCopies_die (s : State) (t p : Nat) : (s.missCopies none t).die p =
    { s.die p with copyQ := (s.die p).copyQ.map (missedBy t), heldT := (s.die p).heldT.map (missedBy t) } := by
  have hmiss : (fun c : CopyCmd => { c with missed := c.missed || (c.time.any fun x => decide (x.toNat ≤ t)) &&
      ((none : Option Nat).all fun d => d == c.dest) }) = missedBy t := by
    funext c
    simp only [Option.all_none, Bool.and_true, missedBy]
  have hget := get_map (dflt := Die.fresh) (f := fun d => { d with
    copyQ := d.copyQ.map (missedBy t), heldT := d.heldT.map (missedBy t) }) rfl s.dies p
  rw [← hmiss] at hget ⊢
  exact hget

/-- A copy that waits in a queue of any die stands there still when a command is accepted, missed if its time is eight or more
before the accepting die's. -/
theorem missOnAccept_copies {s : State} {die p i : Nat} {c : CopyCmd}
    (h : (s.die p).copyQ[i]? = some c ∨ (s.die p).heldT[i]? = some c) :
    let late := fun T : DWord => 8 ≤ (s.die die).time.toNat ∧ T.toNat ≤ (s.die die).time.toNat - 8
    ∃ c' : CopyCmd, (((s.missOnAccept die).die p).copyQ[i]? = some c' ∨ ((s.missOnAccept die).die p).heldT[i]? = some c') ∧
      (c'.missed = true ↔ c.missed = true ∨ ∃ T, c.time = some T ∧ late T) ∧ c' = { c with missed := c'.missed } := by
  intro late
  by_cases hnow : (s.die die).time.toNat < 8
  · rw [missOnAccept_early hnow]
    refine ⟨c, h, ⟨.inl, ?_⟩, rfl⟩
    rintro (hc | ⟨T, -, hlate, -⟩)
    · exact hc
    · omega
  · rw [missOnAccept_late (by omega), missCopies_die]
    refine ⟨missedBy ((s.die die).time.toNat - 8) c, ?_, ?_, rfl⟩
    · simp only [List.getElem?_map]
      exact h.imp (by rw [·]; rfl) (by rw [·]; rfl)
    · rw [missedBy_missed]
      have h8 : 8 ≤ (s.die die).time.toNat := by omega
      simp only [late, h8, true_and]

theorem missOnAccept_commits {s : State} {die i : Nat} {c : Commit} (h : s.commits[i]? = some c) :
    ∃ c' : Commit, (s.missOnAccept die).commits[i]? = some c' ∧ c' = { c with missed := c'.missed } ∧
      (c'.missed = true ↔ c.missed = true ∨ (c.locked = false ∧ ∃ t, c.timed = some t ∧ 8 ≤ (s.die die).time.toNat ∧
        t.1.toNat ≤ (s.die die).time.toNat - 8)) := by
  by_cases hnow : (s.die die).time.toNat < 8
  · rw [missOnAccept_early hnow]
    refine ⟨c, h, rfl, .inl, ?_⟩
    rintro (hc | ⟨-, t, -, hlate, -⟩)
    · exact hc
    · omega
  · have h8 : 8 ≤ (s.die die).time.toNat := by omega
    rw [missOnAccept_late h8]
    refine ⟨_, (List.getElem?_map ..).trans (congrArg _ h), rfl, ?_⟩
    simp [Option.any_eq_true, h8]

/-! Acceptance (R153). -/

section
variable {s : State} {work : CopyWork} {bar : Option Nat} {handle : Half} {time : Option DWord} {dest : Nat}

/-- The command that joins the queue, as the agent whose turn it is issues it. -/
def acceptedCopy (s : State) (work : CopyWork) (bar : Option Nat) (handle : Half) (time : Option DWord) (dest : Nat) : CopyCmd :=
  { seq := s.nextSeq, who := s.me.who, place := s.me.place, unit := s.me.unit, env := s.me.env, work := work, bar := bar,
    handle := handle, time := time, dest := dest, windows := (s.context s.me.ctx).windows,
    throttle := (s.missOnAccept s.me.place.die).devReg (0x858 + dest), codes := [], stage := 0, bytes := 0, status := 0,
    stall := none, missed := false }

theorem acceptCopy_eq : s.acceptCopy work bar handle time dest =
    let m := s.missOnAccept s.me.place.die
    ({ m with nextSeq := s.nextSeq + 1 }.retainOpt bar).setDie s.me.place.die { m.die s.me.place.die with
      copyQ := (m.die s.me.place.die).copyQ ++ [acceptedCopy s work bar handle time dest] } := by
  unfold State.acceptCopy acceptedCopy
  obtain ⟨cs, ds, hm⟩ := missOnAccept_shape s s.me.place.die
  rw [hm]
  rfl

theorem acceptCopy_me : (s.acceptCopy work bar handle time dest).me = s.me := by
  rw [acceptCopy_eq]
  obtain ⟨cs, ds, hm⟩ := missOnAccept_shape s s.me.place.die
  rw [hm]
  cases bar <;> rfl

end

/-! CPY and CPYT (R154, R155). -/

section
variable {s : State} {a b d : BitVec 7} {time : Option DWord}

theorem copyTile_error {e : Cause × Nat}
    (h : s.copyCheck (s.me.readG b.toNat) (s.me.readG a.toNat) (s.me.readG d.toNat) = .error e) :
    s.copyTile time b a d = subTrap s e.1 e.2 := by
  simp only [State.copyTile, Agent.g7, h]

theorem copyTile_full {x : Option Nat × Nat × TileRef × TileRef}
    (h : s.copyCheck (s.me.readG b.toNat) (s.me.readG a.toNat) (s.me.readG d.toNat) = .ok x)
    (hfull : 256 ≤ (s.die s.me.place.die).copyHeld) : s.copyTile time b a d = s := by
  simp only [State.copyTile, Agent.g7, h]
  exact if_pos hfull

theorem copyTile_room {bar : Option Nat} {op : Nat} {src dst : TileRef}
    (h : s.copyCheck (s.me.readG b.toNat) (s.me.readG a.toNat) (s.me.readG d.toNat) = .ok (bar, op, src, dst))
    (hroom : (s.die s.me.place.die).copyHeld < 256) : s.copyTile time b a d =
      (s.acceptCopy (.tile op src dst) bar ((s.me.readG b.toNat).extractLsb' 0 16) time
        (s.destDie s.me.place.die s.me.ctx dst)).finish true := by
  simp only [State.copyTile, Agent.g7, h]
  exact if_neg (Nat.not_le.2 hroom)

/-- What an accepted command leaves, and that the group goes on. -/
theorem acceptCopy_effect {work : CopyWork} {bar : Option Nat} {handle : Half} {dest : Nat} :
    let m := s.missOnAccept s.me.place.die
    FlowEffect (({ m with nextSeq := s.nextSeq + 1 }.retainOpt bar).setDie s.me.place.die { m.die s.me.place.die with
        copyQ := (m.die s.me.place.die).copyQ ++ [acceptedCopy s work bar handle time dest] })
      ((s.acceptCopy work bar handle time dest).finish true) (s.me.cur.pc + 4) true := by
  intro m
  have heffect := finish_effect (s.acceptCopy work bar handle time dest) true
  rw [acceptCopy_me] at heffect
  exact (congrArg (FlowEffect · _ _ _) acceptCopy_eq).mp heffect

theorem cpy_results (hc : Clear (gNeed .core [d, a, b]) s) :
    let p := s.me.place.die
    let h := (s.me.readG b.toNat).extractLsb' 0 16
    let x := s.copyCheck (s.me.readG b.toNat) (s.me.readG a.toNat) (s.me.readG d.toNat)
    (∀ e, x = .error e → exec (.cpy b a d) s = .next (subTrap s e.1 e.2)) ∧
    (∀ bar op src dst, x = .ok (bar, op, src, dst) →
      (256 ≤ (s.die p).copyHeld → exec (.cpy b a d) s = .next s) ∧
      ((s.die p).copyHeld < 256 → Answers (.cpy b a d) s fun t => ∃ c : CopyCmd,
        let m := s.missOnAccept p
        FlowEffect (({ m with nextSeq := s.nextSeq + 1 }.retainOpt bar).setDie p { m.die p with copyQ := (m.die p).copyQ ++ [c] }) t
          (s.me.cur.pc + 4) true ∧
        c.seq = s.nextSeq ∧ c.who = s.me.who ∧ c.unit = s.me.unit ∧ c.env = s.me.env ∧ c.work = .tile op src dst ∧ c.bar = bar ∧
        c.handle = h ∧ c.windows = (s.context s.me.ctx).windows ∧ c.time = none ∧ c.stage = 0 ∧ c.status = 0)) := by
  intro p h x
  have hexec : exec (.cpy b a d) s = execCpy b a d s := rfl
  rw [execCpy, guard_gNeed hc] at hexec
  refine ⟨fun e he => ?_, fun bar op src dst hx => ⟨fun hfull => ?_, fun hroom => ?_⟩⟩
  · rw [hexec, copyTile_error he]
  · rw [hexec, copyTile_full hx hfull]
  · rw [copyTile_room hx hroom] at hexec
    exact ⟨_, hexec, _, acceptCopy_effect, rfl, rfl, rfl, rfl, rfl, rfl, rfl, rfl, rfl, rfl, rfl⟩

theorem cpyt_results (hc : Clear { gNeed .core [d, a, b] with
      reg := badG d || badG a || decide (62 < b.toNat),
      wide := [d.toNat, a.toNat, b.toNat, b.toNat + 1].flatMap gReg } s) :
    let p := s.me.place.die
    let x := s.copyCheck (s.me.readG b.toNat) (s.me.readG a.toNat) (s.me.readG d.toNat)
    let ok := s.me.env.det = false ∧ (s.die p).disciplined = true
    (s.me.env.det = true → Traps (.cpyt b a d) s .timedInDet) ∧
    (s.me.env.det = false → (s.die p).disciplined = false → Traps (.cpyt b a d) s .timeUndisciplined) ∧
    (ok → ∀ e, x = .error e → exec (.cpyt b a d) s = .next (subTrap s e.1 e.2)) ∧
    (ok → ∀ bar op src dst, x = .ok (bar, op, src, dst) → (s.die p).copyHeld < 256 →
      Answers (.cpyt b a d) s fun t => ∃ c : CopyCmd,
        let m := s.missOnAccept p
        FlowEffect (({ m with nextSeq := s.nextSeq + 1 }.retainOpt bar).setDie p { m.die p with copyQ := (m.die p).copyQ ++ [c] }) t
          (s.me.cur.pc + 4) true ∧
        c.unit = s.me.unit ∧ c.work = .tile op src dst ∧ c.bar = bar ∧ c.time = some (s.me.readG (b.toNat + 1)) ∧
        c.dest = s.destDie p s.me.ctx dst ∧ c.missed = false ∧ c.throttle = (s.missOnAccept p).devReg (0x858 + c.dest)) := by
  intro p x ok
  have hexec : exec (.cpyt b a d) s = execCpyt b a d s := rfl
  rw [execCpyt, guard_clear hc, cleared_noreads s rfl] at hexec
  refine ⟨fun hdet => ?_, fun hdet hdis => ?_, fun hok e he => ?_, fun hok bar op src dst hx hroom => ?_⟩
  · simp only [Traps, hexec, timedTrap_det hdet]
  · simp only [Traps, hexec, timedTrap_undisciplined hdet hdis]
  · simp only [hexec, timedTrap_none hok.1 hok.2, copyTile_error he]
  · simp only [timedTrap_none hok.1 hok.2, copyTile_room hx hroom] at hexec
    exact ⟨_, hexec, _, acceptCopy_effect, rfl, rfl, rfl, rfl, rfl, rfl, rfl⟩

end

/-! GATH and SCAT (R113, R156). -/

/-- What `Obligations.CopyAcceptResults` asks of GATH and SCAT. -/
def RowsForm (i : BitVec 7 → BitVec 7 → BitVec 7 → Instr) (gather : Bool) : Prop :=
  ∀ b a d s, let n : Need := { units := .core, field := false, scope := false,
                               reg := badDest d || decide (120 ≤ a.toNat) || badG b, reads := srcReg a, writes := srcReg d, latches := [],
                               wide := gReg b.toNat ++ [xtReg ((s.me.readG b.toNat).extractLsb' 0 3).toNat] }
    Clear n s →
    let u := cleared n s
    let p := u.me.place
    let ctl := u.me.readG b.toNat
    let lbase := (ctl.extractLsb' 32 32).toNat
    let rowb := (ctl.extractLsb' 16 16).toNat
    let bad := ctl.extractLsb' 3 13 ≠ 0 ∨ lbase % 16 ≠ 0 ∨ rowb % 16 ≠ 0 ∨ rowb < 16 ∨ 4096 < rowb ∨
      0x80000 < lbase + 32 * rowb ∨ u.meetsSpill p lbase (32 * rowb) = true
    (bad → exec (i b a d) s = .next (takeTrap u .copyFault)) ∧
    (¬bad → u.meetsShared p lbase (32 * rowb) = true → exec (i b a d) s = .next (addrTrap u .range lbase)) ∧
    (¬bad → u.meetsShared p lbase (32 * rowb) = false → 256 ≤ (u.die p.die).copyHeld ∨ 8 ≤ u.me.gathOut →
      exec (i b a d) s = .next u) ∧
    (¬bad → u.meetsShared p lbase (32 * rowb) = false → (u.die p.die).copyHeld < 256 → u.me.gathOut < 8 → Answers (i b a d) s fun t => ∃ c : CopyCmd,
      let m : Agent := { u.me with gath := u.me.gath ++ [⟨d.toNat, false⟩] }
      let q : State := { u.missOnAccept p.die with me := m, nextSeq := u.nextSeq + 1 }
      FlowEffect (q.setDie p.die { q.die p.die with copyQ := (q.die p.die).copyQ ++ [c] }) t (u.me.cur.pc + 4) true ∧
      c.bar = none ∧ c.unit = u.me.unit ∧ ∃ offs : Lanes, (∀ l, l < 32 → offs.at l = u.me.readV a.toNat l) ∧
        c.work = .rows gather d.toNat u.me.cur.em offs lbase rowb (u.me.readXt (ctl.extractLsb' 0 3).toNat))

/-- What an accepted row command leaves: its register is reserved beside. -/
theorem acceptRows_effect {u : State} {work : CopyWork} (d : Nat) :
    let p := u.me.place.die
    let m : Agent := { u.me with gath := u.me.gath ++ [⟨d, false⟩] }
    let q : State := { u.missOnAccept p with me := m, nextSeq := u.nextSeq + 1 }
    let s := u.acceptCopy work none 0 none p
    FlowEffect (q.setDie p { q.die p with copyQ := (q.die p).copyQ ++ [acceptedCopy u work none 0 none p] })
      ({ s with me := { s.me with gath := s.me.gath ++ [GathDst.mk d false] } }.finish true) (u.me.cur.pc + 4) true := by
  intro p m q s
  have heffect := finish_effect { s with me := { s.me with gath := s.me.gath ++ [GathDst.mk d false] } } true
  have hpc : s.me.cur.pc = u.me.cur.pc := by rw [show s.me = u.me from acceptCopy_me]
  have hshape : { s with me := { s.me with gath := s.me.gath ++ [GathDst.mk d false] } } =
      q.setDie p { q.die p with copyQ := (q.die p).copyQ ++ [acceptedCopy u work none 0 none p] } := by
    have hs : s = _ := acceptCopy_eq (s := u) (work := work) (bar := none) (handle := 0) (time := none) (dest := p)
    obtain ⟨cs, ds, hm⟩ := missOnAccept_shape u p
    have hm : u.missOnAccept u.me.place.die = { u with commits := cs, dies := ds } := hm
    simp only [hs, q, m, p, hm]
    rfl
  rw [hpc] at heffect
  exact (congrArg (FlowEffect · _ _ _) hshape).mp heffect

theorem rowsForm_of {i : BitVec 7 → BitVec 7 → BitVec 7 → Instr} {gather : Bool}
    (h : ∀ b a d s, exec (i b a d) s = rowCopy gather b a d s) : RowsForm i gather := by
  intro b a d s n hc u p ctl lbase rowb bad
  have hexec := h b a d s
  simp only [rowCopy, Agent.g7, bitsOf_eq_extractLsb'] at hexec
  rw [guard_clear hc] at hexec
  generalize hu : cleared _ s = v at hexec
  obtain rfl : u = v := hu
  clear_value u
  have hbad : bad ↔ _ ∨ _ := or_congr_left (BitVec.toNat_ne (x := ctl.extractLsb' 3 13) (y := 0))
  refine ⟨fun h => ?_, fun h hs => ?_, fun h hs hfull => ?_, fun h hs hroom hgath => ?_⟩
  · exact hexec.trans (if_pos (hbad.1 h))
  · exact hexec.trans ((if_neg (mt hbad.2 h)).trans (if_pos hs))
  · exact hexec.trans ((if_neg (mt hbad.2 h)).trans ((if_neg (Bool.eq_false_iff.1 hs)).trans (if_pos hfull)))
  · have hfull : ¬(256 ≤ (u.die p.die).copyHeld ∨ 8 ≤ u.me.gathOut) := by omega
    let work := CopyWork.rows gather d.toNat u.me.cur.em (Lanes.make fun l => u.me.readV a.toNat l) lbase rowb
      (u.me.readXt (ctl.extractLsb' 0 3).toNat)
    refine ⟨_, hexec.trans ((if_neg (mt hbad.2 h)).trans ((if_neg (Bool.eq_false_iff.1 hs)).trans (if_neg hfull))), _,
      acceptRows_effect (work := work) d.toNat, rfl, rfl, _, fun l hl => ?_, rfl⟩
    rw [at_make, if_pos hl]

/-- Settles O26: timed copies by what an accepted command marks, CPY and CPYT by what their checks give, and the row forms by
theirs. -/
theorem copyAcceptResults : Obligations.CopyAcceptResults := by
  unfold Obligations.CopyAcceptResults
  have rows : RowsForm .gath true ∧ RowsForm .scat false := ⟨rowsForm_of fun _ _ _ _ => rfl, rowsForm_of fun _ _ _ _ => rfl⟩
  exact ⟨fun _ _ _ _ hc => cpy_results hc, fun _ _ _ _ _ h => missOnAccept_copies h, fun _ _ _ _ h => missOnAccept_commits h,
    fun _ _ _ _ hc => cpyt_results hc, rows⟩

end Sys2Proof.Proofs
end

section
/-!
PROOF. The supervisor (R284, R285, R296, R301, R302, R315, R317, R345, R352, R359): translations dropped and added, ZERO, HALT, HIRQ
and RTCHK with the steps that end them, and CTXSV, CTXLD, SNAPB and SNAPC.
-/
namespace Sys2Proof.Proofs
open Sys2Proof.Machine Sys2Proof.Laws

/-! Invalidations (R284, R315). -/

/-- What an invalidation of the VAs that `p` names waits for. -/
def InvalidationHeld (s : State) (p : Nat → Bool) : Prop :=
  s.peerWrites s.me.who = true ∨ (∃ c ∈ s.agents, c.kind = .sup ∧ c.storeQ ≠ []) ∨
    ∃ r ∈ s.requests, isPeerKey r.key = true ∧ p (peerVa r.key).toNat = true

section
variable {s : State} {p : Nat → Bool} (k : State → Out)

theorem invalidationHeld_iff : InvalidationHeld s p ↔
    (s.peerWrites s.me.who || (s.agents.any fun a => a.kind == .sup && !a.storeQ.isEmpty)
    || (s.requests.any fun r => isPeerKey r.key && p (peerVa r.key).toNat)) = true := by
  simp [InvalidationHeld, or_assoc]

/-- Where the thread has no stores of its own, an invalidation looks at once at what it waits for. -/
theorem invalidates_held (hq : s.me.storeQ = []) (h : InvalidationHeld s p) : s.invalidates p k = .next s := by
  have hdrain : s.drain = s := by rw [State.drain, hq]; rfl
  rw [State.invalidates, drained_empty (by rw [hdrain, hq]), hdrain]
  exact if_pos (invalidationHeld_iff.1 h)

theorem invalidates_free (hq : s.me.storeQ = []) (h : ¬InvalidationHeld s p) : s.invalidates p k = k (s.releaseSys .device) := by
  have hdrain : s.drain = s := by rw [State.drain, hq]; rfl
  rw [State.invalidates, drained_empty (by rw [hdrain, hq]), hdrain]
  exact if_neg (mt invalidationHeld_iff.2 h)

end

section
variable (s : State) (asid : Half) (p : TlbEntry → Bool) (q : Xt → Bool)

/-- A fold over the dies below `n` that keeps of each TLB what `keep` says. -/
theorem foldl_tlb {f : State → Nat → State} {keep : TlbEntry → Bool}
    (hf : ∀ t d e, ((f t d).die e).tlb = if e = d then (t.die d).tlb.filter keep else (t.die e).tlb) (n d : Nat) :
    (((List.range n).foldl f s).die d).tlb = if d < n then (s.die d).tlb.filter keep else (s.die d).tlb := by
  induction n with
  | zero => simp
  | succ n ih =>
    rw [List.range_succ, List.foldl_append, List.foldl_cons, List.foldl_nil, hf]
    by_cases hd : d = n
    · subst hd
      rw [if_pos rfl, ih, if_neg (Nat.lt_irrefl d), if_pos (Nat.lt_succ_self d)]
    · rw [if_neg hd, ih]
      congr 1
      exact propext ⟨fun h => by omega, fun h => by omega⟩

theorem dropTlb_tlb {d : Nat} (hd : d < 9) :
    ((s.dropTlb asid p).die d).tlb = (s.die d).tlb.filter fun t => !(t.asid == asid && p t) := by
  refine (foldl_tlb s (keep := fun t => !(t.asid == asid && p t)) (fun t d e => ?_) 9 d).trans (if_pos hd)
  rw [die_setDie]
  split <;> rfl

theorem dropXts_tlb (mine : Agent → Bool) (ctx : Nat → Bool) (d : Nat) : ((s.dropXts mine ctx q).die d).tlb = (s.die d).tlb := by
  have hdie := get_map (dflt := Die.fresh)
    (f := fun x => { x with copyQ := x.copyQ.map fun c => if ctx c.unit.ctx then c.dropXt q else c }) rfl s.dies d
  exact (congrArg Die.tlb hdie :)

theorem dropTranslations_tlb {d : Nat} (hd : d < 9) :
    ((s.dropTranslations asid p q).die d).tlb = (s.die d).tlb.filter fun t => !(t.asid == asid && p t) :=
  (dropXts_tlb ..).trans (dropTlb_tlb s asid p hd)

theorem dropTlb_mem : (s.dropTlb asid p).mem = s.mem := foldl_keeps State.mem (fun t d => setDie_mem t d _) _ s

theorem dropTlb_me : (s.dropTlb asid p).me = s.me := foldl_keeps State.me (fun t d => setDie_me t d _) _ s

theorem dropXts_mem (mine : Agent → Bool) (ctx : Nat → Bool) : (s.dropXts mine ctx q).mem = s.mem := rfl

theorem dropXts_cur (mine : Agent → Bool) (ctx : Nat → Bool) : (s.dropXts mine ctx q).me.cur = s.me.cur := by
  have hdrop (a : Agent) (b : Bool) : (if b = true then a.dropXt q else a).cur = a.cur := by split <;> rfl
  exact hdrop s.me (mine s.me)

theorem dropTranslations_mem : (s.dropTranslations asid p q).mem = s.mem := (dropXts_mem ..).trans (dropTlb_mem ..)

theorem dropTranslations_cur : (s.dropTranslations asid p q).me.cur = s.me.cur :=
  (dropXts_cur ..).trans (congrArg Agent.cur (dropTlb_me ..))

/-- No translation of any of these ASIDs is left, and none has come. -/
theorem foldl_dropTranslations {is : List Half} {d : Nat} (hd : d < 9) {e : TlbEntry}
    (h : e ∈ ((is.foldl (fun (s : State) i => s.dropTranslations i (fun _ => true) fun _ => true) s).die d).tlb) :
    e ∈ (s.die d).tlb ∧ e.asid ∉ is := by
  induction is generalizing s with
  | nil => exact ⟨h, List.not_mem_nil⟩
  | cons i is ih =>
    rw [List.foldl_cons] at h
    obtain ⟨hmem, hrest⟩ := ih (s.dropTranslations i (fun _ => true) fun _ => true) h
    rw [dropTranslations_tlb _ _ _ _ hd, List.mem_filter] at hmem
    obtain ⟨hmem, hasid⟩ := hmem
    have hne : e.asid ≠ i := by simpa using hasid
    exact ⟨hmem, fun h => (List.mem_cons.1 h).elim hne hrest⟩

end

theorem finish_mem (s : State) (ends : Bool) : (s.finish ends).mem = s.mem := rfl

theorem finish_die (s : State) (ends : Bool) (d : Nat) : (s.finish ends).die d = s.die d := rfl

theorem finish_pc (s : State) (ends : Bool) : (s.finish ends).me.cur.pc = s.me.cur.pc + 4 := retire_cur_pc ..

section
variable {s : State} {a b d : BitVec 7}

theorem tlbi_results (hc : Clear (gNeed .sup [a, b]) s) (hq : s.me.storeQ = []) :
    let asid := (s.me.readG a.toNat).extractLsb' 0 16
    let va := ((s.me.readG b.toNat).extractLsb' 0 56).toNat
    let held := s.peerWrites s.me.who = true ∨ (∃ c ∈ s.agents, c.kind = .sup ∧ c.storeQ ≠ []) ∨
      ∃ r ∈ s.requests, isPeerKey r.key = true ∧
        ∃ g ∈ s.pagesAt asid va, g.1 ≤ (peerVa r.key).toNat ∧ (peerVa r.key).toNat < g.1 + g.2
    (held → exec (.tlbi b a) s = .next s) ∧
    (¬held → Answers (.tlbi b a) s fun t => t.me.cur.pc = s.me.cur.pc + 4 ∧ t.mem = s.mem ∧
      ∀ d, d < 9 → ∀ e ∈ (t.die d).tlb, e ∈ (s.die d).tlb ∧
        (e.asid = asid → e.base.toNat / pageSize e.level ≠ va / pageSize e.level)) := by
  intro asid va held
  have hexec : exec (.tlbi b a) s = execTlbi b a s := rfl
  rw [execTlbi, guard_gNeed hc] at hexec
  simp only [Agent.g7, bitsOf_eq_extractLsb'] at hexec
  have hheld : held ↔ InvalidationHeld s fun v =>
      (s.pagesAt asid va).any fun g => decide (g.1 ≤ v) && decide (v < g.1 + g.2) := by
    simp only [held, InvalidationHeld, List.any_eq_true, Bool.and_eq_true, decide_eq_true_eq]
  refine ⟨fun h => hexec.trans (invalidates_held _ hq (hheld.1 h)), fun h => ?_⟩
  refine ⟨_, hexec.trans (invalidates_free _ hq (mt hheld.2 h)), ?_, ?_, fun d hd e he => ?_⟩
  · rw [finish_pc, dropTranslations_cur]
    rfl
  · rw [finish_mem, dropTranslations_mem]
    rfl
  · rw [finish_die, dropTranslations_tlb _ _ _ _ hd, List.mem_filter] at he
    obtain ⟨hmem, hkept⟩ := he
    simp only [Bool.not_eq_true', Bool.and_eq_false_iff, beq_eq_false_iff_ne] at hkept
    exact ⟨hmem, fun hasid => hkept.resolve_left (not_not_intro hasid)⟩

theorem tlbia_results (hc : Clear (gNeed .sup [a]) s) (hq : s.me.storeQ = []) :
    let x := s.me.readG a.toNat
    let held := s.peerWrites s.me.who = true ∨ (∃ c ∈ s.agents, c.kind = .sup ∧ c.storeQ ≠ []) ∨
      ∃ r ∈ s.requests, isPeerKey r.key = true
    (held → exec (.tlbia a) s = .next s) ∧
    (¬held → Answers (.tlbia a) s fun t => t.me.cur.pc = s.me.cur.pc + 4 ∧ t.mem = s.mem ∧
      (x.getLsbD 16 = true → ∀ d, d < 9 → (t.die d).tlb = []) ∧
      (x.getLsbD 16 = false → ∀ d, d < 9 → ∀ e ∈ (t.die d).tlb, e.asid ≠ x.extractLsb' 0 16)) := by
  intro x held
  have hexec : exec (.tlbia a) s = execTlbia a s := rfl
  rw [execTlbia, guard_gNeed hc] at hexec
  have hheld : held ↔ InvalidationHeld s fun _ => true := by
    simp only [held, InvalidationHeld, and_true]
  refine ⟨fun h => hexec.trans (invalidates_held _ hq (hheld.1 h)), fun h => ?_⟩
  let u := s.releaseSys .device
  let which := if x.getLsbD 16 then u.asids.eraseDups else [x.extractLsb' 0 16]
  refine ⟨_, hexec.trans (invalidates_free _ hq (mt hheld.2 h)), ?_, ?_, fun hall d hd => ?_, fun hone d hd e he => ?_⟩
  · rw [finish_pc]
    exact congrArg (·.pc + 4) (foldl_keeps (fun t => t.me.cur) (fun t i => dropTranslations_cur t i _ _) which u)
  · exact foldl_keeps State.mem (fun t i => dropTranslations_mem t i _ _) which u
  · refine List.eq_nil_iff_forall_not_mem.2 fun e he => ?_
    obtain ⟨hmem, hasid⟩ := foldl_dropTranslations u (is := which) hd he
    have hwhich : which = u.asids.eraseDups := if_pos hall
    refine hasid ?_
    rw [hwhich, List.mem_eraseDups]
    exact List.mem_append_right _ (List.mem_flatMap.2 ⟨d, List.mem_range.2 hd, List.mem_map_of_mem hmem⟩)
  · obtain ⟨-, hasid⟩ := foldl_dropTranslations u (is := which) hd he
    have hwhich : which = [x.extractLsb' 0 16] := if_neg (Bool.eq_false_iff.1 hone)
    rw [hwhich] at hasid
    exact fun h => hasid (List.mem_singleton.2 h)

/-! PREFW (R284, R317). -/

theorem toOption_eq_some {ε α : Type} {e : Except ε α} {x : α} : e.toOption = some x ↔ e = .ok x := by
  cases e <;> simp [Except.toOption]

/-- Whether PREFW adds a leaf that it has found to a die's TLB. -/
def newLeaf (s : State) (asid : Half) (k : Nat) (va : BitVec 56) (f : Found) : Bool :=
  f.leaf.getLsbD 2 && !f.leaf.getLsbD 11 &&
    !((s.die k).tlb.any fun e => !e.ptr && e.asid == asid && e.level == f.level && e.base == pageBase f.level va)

theorem newLeaf_iff {asid : Half} {k : Nat} {va : BitVec 56} {f : Found} : newLeaf s asid k va f = true ↔
    f.leaf.getLsbD 2 = true ∧ f.leaf.getLsbD 11 = false ∧
      ∀ e ∈ (s.die k).tlb, ¬(e.ptr = false ∧ e.asid = asid ∧ e.level = f.level ∧ e.base = pageBase f.level va) := by
  simp [newLeaf, and_assoc]

theorem prefw_results (hc : Clear (gNeed .sup [a, b]) s) : Answers (.prefw b a) s fun t =>
    let x := s.me.readG a.toNat
    let asid := x.extractLsb' 0 16
    let d := (x.extractLsb' 17 3).toNat
    let va := (s.me.readG b.toNat).extractLsb' 0 56
    let adds := fun f : Found => (∃ root, s.rootOfAsid asid = some root ∧ walkFrom s.mem s.poison va 3 root.toNat = .ok f) ∧
      f.leaf.getLsbD 2 = true ∧ f.leaf.getLsbD 11 = false ∧
      ∀ e ∈ (s.die d).tlb, ¬(e.ptr = false ∧ e.asid = asid ∧ e.level = f.level ∧ e.base = pageBase f.level va)
    t.me.cur.pc = s.me.cur.pc + 4 ∧ t.mem = s.mem ∧ (∀ k, k ≠ d → t.die k = s.die k) ∧
    (∀ f, adds f → t.die d = { s.die d with
      tlb := (s.die d).tlb ++ [⟨false, asid, pageBase f.level va, f.level, f.leaf⟩] }) ∧
    ((∀ f, ¬adds f) → t.die d = s.die d) := by
  let x := s.me.readG a.toNat
  let asid := x.extractLsb' 0 16
  let d := (x.extractLsb' 17 3).toNat
  let va := (s.me.readG b.toNat).extractLsb' 0 56
  have hexec : exec (.prefw b a) s = execPrefw b a s := rfl
  rw [execPrefw, guard_gNeed hc] at hexec
  simp only [Agent.g7, bitsOf_eq_extractLsb'] at hexec
  have hadds (f : Found) : (∃ root, s.rootOfAsid asid = some root ∧ walkFrom s.mem s.poison va 3 root.toNat = .ok f) ↔
      ((s.rootOfAsid asid).bind fun root => (walkFrom s.mem s.poison va 3 root.toNat).toOption) = some f := by
    simp only [Option.bind_eq_some_iff, toOption_eq_some]
  generalize ((s.rootOfAsid asid).bind fun root => (walkFrom s.mem s.poison va 3 root.toNat).toOption) = found at hexec hadds
  cases found with
  | none => exact ⟨_, hexec, finish_pc .., rfl, fun _ _ => rfl, fun f hf => (nomatch (hadds f).1 hf.1), fun _ => rfl⟩
  | some f =>
    have hexec : exec (.prefw b a) s = .next ((if newLeaf s asid d va f then s.setDie d { s.die d with
      tlb := (s.die d).tlb ++ [⟨false, asid, pageBase f.level va, f.level, f.leaf⟩] } else s).finish true) := hexec
    by_cases hnew : newLeaf s asid d va f = true
    · rw [if_pos hnew] at hexec
      refine ⟨_, hexec, finish_pc .., rfl, fun k hk => ?_, fun g hg => ?_, fun hno => ?_⟩
      · exact (die_setDie ..).trans (if_neg hk)
      · obtain rfl : f = g := Option.some.inj ((hadds g).1 hg.1)
        exact die_setDie_same ..
      · exact absurd ⟨(hadds f).2 rfl, newLeaf_iff.1 hnew⟩ (hno f)
    · rw [if_neg hnew] at hexec
      refine ⟨_, hexec, finish_pc .., rfl, fun _ _ => rfl, fun g hg => ?_, fun _ => rfl⟩
      obtain rfl : f = g := Option.some.inj ((hadds g).1 hg.1)
      exact absurd (newLeaf_iff.2 hg.2) hnew

end

/-! ZERO, HALT and HIRQ (R284, R285). -/

theorem read_filter (m : Memory) (p : Nat → Bool) (k : Nat) :
    Memory.read (m.filter fun c => p c.1) k = if p k then Memory.read m k else 0 := by
  induction m with
  | nil => simp [Memory.read, Store.get]
  | cons c m ih =>
    simp only [Memory.read] at ih ⊢
    rw [List.filter_cons]
    by_cases hk : c.1 = k
    · subst hk
      split <;> simp_all [Store.get]
    · split <;> simp_all [Store.get]

section
variable {s : State} {w : Who} {a : Agent}

theorem zeroComplete_results {d pa n : Nat} (ha : s.agent w = some a) (hw : a.wait = .zero d pa n) : ∃ u : State,
    exec (.zeroComplete w) s = .next (u.setAgent (a.wake d 0)) ∧
    (∀ k, Memory.read u.mem k = if pa ≤ k ∧ k < pa + n then 0 else Memory.read s.mem k) ∧ u.me = s.me ∧ u.dies = s.dies := by
  have hexec : exec (.zeroComplete w) s = execZeroComplete w s := rfl
  simp only [execZeroComplete, ha, hw] at hexec
  refine ⟨_, hexec, fun k => ?_, ?_, ?_⟩
  · rw [noteWrites_mem]
    refine (read_filter s.mem (fun k => !(decide (pa ≤ k) && decide (k < pa + n))) k).trans ?_
    by_cases hlo : pa ≤ k <;> by_cases hhi : k < pa + n <;> simp [hlo, hhi]
  · exact me_of_allAgents (noteWrites_allAgents ..)
  · obtain ⟨_, _, hnotes⟩ := noteWrites_notes (s.zeroBytes pa n) deviceWriter
      ((s.monitors.filter fun m => decide (pa ≤ m.1 * 64) && decide (m.1 * 64 < pa + n)).map fun m => (m.1 * 64, (0 : Byte)))
    rw [hnotes]
    rfl

theorem zeroComplete_refused (ha : s.agent w = some a) (h : ∀ d pa n, a.wait ≠ .zero d pa n) :
    exec (.zeroComplete w) s = .refused .notDue := by
  have hexec : exec (.zeroComplete w) s = execZeroComplete w s := rfl
  rw [hexec]
  simp only [execZeroComplete, ha]

theorem haltResume_results (ha : s.agent w = some a) :
    (a.wait ≠ .halt → exec (.haltResume w) s = .refused .notDue) ∧
    (a.wait = .halt → ∃ b : Agent, exec (.haltResume w) s = .next (s.setAgent b) ∧ b.who = a.who ∧ b.wait = .none ∧
      b.cur.pc = a.cur.pc + 4 ∧ ∀ k, b.readG k = a.readG k) := by
  have hexec : exec (.haltResume w) s = execHaltResume w s := rfl
  simp only [execHaltResume, ha] at hexec
  refine ⟨fun hw => hexec.trans (if_neg hw), fun hw =>
    ⟨_, hexec.trans (if_pos hw), retire_who .., ?_, retire_cur_pc .., fun k => ?_⟩⟩
  · exact retire_cur_wait ..
  · exact readG_retire ..

end

section
variable {s : State} {a b d : BitVec 7}

theorem zeroRange_results (hc : Clear (gNeed .sup [d, a, b]) s) :
    let pa := (s.me.readG a.toNat).toNat
    let n := (s.me.readG b.toNat).toNat
    (zeroRangeOk pa n = false → Answers (.zeroRange b a d) s fun t => GroupEffect s t d.toNat 1 true) ∧
    (zeroRangeOk pa n = true → exec (.zeroRange b a d) s = .next { s with me := s.me.setWait (.zero d.toNat pa n) }) := by
  intro pa n
  have hexec : exec (.zeroRange b a d) s = execZeroRange b a d s := rfl
  rw [execZeroRange, guard_gNeed hc] at hexec
  exact ⟨fun h => ⟨_, hexec.trans (if_neg (Bool.eq_false_iff.1 h)), finishG_effect ..⟩, fun h => hexec.trans (if_pos h)⟩

theorem halt_results (hc : Clear (Need.of .sup) s) : exec .halt s = .next { s with me := s.me.setWait .halt } := by
  have hexec : exec .halt s = execHalt s := rfl
  rw [hexec, execHalt, guard_clear hc, cleared_noreads s rfl]

theorem hirq_results (hc : Clear (gNeed .sup [a]) s) :
    let x := s.me.readG a.toNat
    let mbz := x.extractLsb' 11 5 ≠ 0 ∨ x.extractLsb' 17 47 ≠ 0
    (mbz → Traps (.hirq a) s .illegalField) ∧
    (¬mbz → Answers (.hirq a) s fun t =>
      FlowEffect { s with msix := s.msix ++ [(x.getLsbD 16, (x.extractLsb' 0 11).toNat)] } t (s.me.cur.pc + 4) true) := by
  intro x mbz
  have hexec : exec (.hirq a) s = execHirq a s := rfl
  rw [execHirq, guard_gNeed hc] at hexec
  simp only [Agent.g7, bitsOf_eq_extractLsb'] at hexec
  have hmbz : mbz ↔ _ ∨ _ := or_congr (BitVec.toNat_ne (x := x.extractLsb' 11 5) (y := 0)) (BitVec.toNat_ne (y := 0))
  exact ⟨fun h => hexec.trans (if_pos (hmbz.1 h)), fun h => ⟨_, hexec.trans (if_neg (mt hmbz.2 h)), finish_effect _ true⟩⟩

/-! RTCHK (R284, R359). -/

theorem rtchk_results (hc : Clear (gNeed .sup [d, a]) s) :
    let r := s.routeImage ((s.me.readG a.toNat).extractLsb' 0 56) 32
    (r.2 = .error none → exec (.rtchk a d) s = .next r.1) ∧
    (∀ c va, r.2 = .error (some (c, va)) → exec (.rtchk a d) s = .next (supTrap r.1 c va)) ∧
    (∀ ks, r.2 = .ok ks → (∃ k ∈ ks, isPeerKey k = true) → exec (.rtchk a d) s =
      .next ({ r.1 with me := r.1.me.setWait (.rtchk d.toNat ((s.me.readG a.toNat).extractLsb' 0 56)) }.sendReads
        (ks.filter isPeerKey) (supRequest r.1.me (r.1.die r.1.me.place.die).time))) ∧
    (∀ ks, r.2 = .ok ks → (∀ k ∈ ks, isPeerKey k = false) → Answers (.rtchk a d) s fun t =>
      GroupEffect r.1 t d.toNat
        (BitVec.ofNat 64 ((routeCheck r.1.topo (ks.map (Memory.read r.1.mem))).elim 0 Cause.code)) true) := by
  intro r
  have hexec : exec (.rtchk a d) s = execRtchk a d s := rfl
  rw [execRtchk, guard_gNeed hc] at hexec
  have hpair {res} (h : r.2 = res) : s.routeImage ((s.me.g7 a).extractLsb' 0 56) 32 = (r.1, res) := Prod.ext rfl h
  refine ⟨fun h => ?_, fun c va h => ?_, fun ks h hpeer => ?_, fun ks h hown => ⟨_, ?_, finishG_effect ..⟩⟩
  all_goals simp only [hpair h] at hexec
  · exact hexec
  · exact hexec
  · exact hexec.trans (if_pos (List.any_eq_true.2 hpeer))
  · refine hexec.trans (if_neg ?_)
    simpa using hown

end

/-! CTXSV (R296). -/

theorem bitsOf_eq_zero_iff {x : DWord} : bitsOf x 58 6 = 0 ↔ x.toNat < 2 ^ 58 := by
  have h := x.isLt
  rw [bitsOf_eq_extractLsb', BitVec.extractLsb'_toNat, Nat.shiftRight_eq_div_pow]
  omega

section
variable {s : State} {a b d : BitVec 7}

theorem ctxsv_results (hc : Clear (gNeed .sup [d, a, b]) s) :
    let x := s.me.readG a.toNat
    let va := (s.me.readG b.toNat).extractLsb' 0 56
    (2 ^ 58 ≤ x.toNat → Traps (.ctxsv b a d) s .illegalField) ∧
    (x.toNat < 2 ^ 58 → va.toNat % 256 ≠ 0 → exec (.ctxsv b a d) s = .next (supTrap s .align va)) ∧
    (x.toNat < 2 ^ 58 → va.toNat % 256 = 0 →
      (s.unit (saveTarget x) = none → Answers (.ctxsv b a d) s fun t => GroupEffect s t d.toNat 1 true) ∧
      ∀ u, s.unit (saveTarget x) = some u →
        let shut := u.ended = true ∨ u.saved = true ∨ u.kind = .sup ∨ u.preempt.isSome = true
        let mapped := s.supMapped va.toNat (s.imageLen u (s.liveAgents u.key)) true
        (shut → Answers (.ctxsv b a d) s fun t => GroupEffect s t d.toNat 1 true) ∧
        (¬shut → mapped = false → Answers (.ctxsv b a d) s fun t => GroupEffect s t d.toNat 2 true) ∧
        (¬shut → mapped = true → exec (.ctxsv b a d) s =
          .next { s.setUnit { u with preempt := some s.me.who } with me := s.me.setWait (.ctxsv d.toNat u.key va) })) := by
  intro x va
  have hexec : exec (.ctxsv b a d) s = execCtxsv b a d s := rfl
  rw [execCtxsv, guard_gNeed hc] at hexec
  refine ⟨fun h => ?_, fun h hva => ?_, fun h hva => ?_⟩
  · exact hexec.trans (if_pos fun h0 => absurd (bitsOf_eq_zero_iff.1 h0) (Nat.not_lt.2 h))
  · exact hexec.trans ((if_neg (not_not_intro (bitsOf_eq_zero_iff.2 h))).trans (if_pos hva))
  have hexec := hexec.trans ((if_neg (not_not_intro (bitsOf_eq_zero_iff.2 h))).trans (if_neg (not_not_intro hva)))
  refine ⟨fun hu => ?_, fun u hu => ?_⟩
  all_goals
    have hu' : s.unit (saveTarget (s.me.g7 a)) = _ := hu
    simp only [hu'] at hexec
  · exact ⟨_, hexec, finishG_effect ..⟩
  intro shut mapped
  have hshut : shut ↔ (u.ended || u.saved || u.kind == .sup || u.preempt.isSome) = true := by
    simp [shut, or_assoc]
  refine ⟨fun h => ⟨_, hexec.trans (if_pos (hshut.1 h)), finishG_effect ..⟩, fun h hm => ?_, fun h hm => ?_⟩
  all_goals
    rw [if_neg (mt hshut.2 h)] at hexec
    have hm' : s.supMapped ((s.me.g7 b).extractLsb' 0 56).toNat (s.imageLen u (s.liveAgents u.key)) true = _ := hm
    rw [hm'] at hexec
  · exact ⟨_, hexec, finishG_effect ..⟩
  · exact hexec

end

/-! A unit that is restored (R301, R302). -/

section
variable (s : State)

theorem takeCore_units (ctx d c k : Nat) : (s.takeCore ctx d c k).units = s.units := by
  unfold State.takeCore
  dsimp only
  split
  · rfl
  · split <;> rfl

theorem dropSlots_units (w : Who) : (s.dropSlots w).units = s.units := by
  refine foldl_keeps State.units (fun t i => ?_) _ s
  split <;> rfl

theorem restoreSlots_units (w : Who) (im : List Byte) (d c : Nat) : (s.restoreSlots w im d c).units = s.units := by
  unfold State.restoreSlots
  extract_lets places key refs captured kept dropped
  have hcaptured : captured.units = s.units := by
    refine foldl_keeps State.units (fun t p => ?_) places s
    split <;> rfl
  have hkept : kept.units = captured.units := foldl_keeps State.units (fun t i => setBarrier_units ..) _ captured
  have hdropped : dropped.units = kept.units := dropSlots_units kept w
  exact (foldl_keeps State.units (fun t i => setTable_units ..) _ dropped).trans (hdropped.trans (hkept.trans hcaptured))

theorem OnlyMemory.units {s t : State} (h : OnlyMemory s t) : t.units = s.units := by
  obtain ⟨_, _, _, _, _, rfl⟩ := h
  rfl

theorem OnlyMemory.contexts {s t : State} (h : OnlyMemory s t) : t.contexts = s.contexts := by
  obtain ⟨_, _, _, _, _, rfl⟩ := h
  rfl

theorem restoreAgents_units (x : WorkUnit) (im : List Byte) (d c : Nat) (cores : List Nat) :
    (s.restoreAgents x im d c cores).units = s.units :=
  (writeMemAs_memory ..).units.trans (foldl_keeps State.units setAgent_units _ s)

theorem rebindQuad_units (x : WorkUnit) (im : List Byte) (d c : Nat) : (s.rebindQuad x im d c).units = s.units := by
  unfold State.rebindQuad
  dsimp only
  split <;> rfl

theorem unit_setUnit_ne {u : UnitKey} {y : WorkUnit} (h : y.key ≠ u) : (s.setUnit y).unit u = s.unit u := by
  unfold State.setUnit State.unit
  dsimp only
  induction s.units with
  | nil => rfl
  | cons z zs ih =>
    have hne {v : WorkUnit} (hv : v.key = y.key) (l : List WorkUnit) :
        (v :: l).find? (fun x => x.key == u) = l.find? fun x => x.key == u :=
      List.find?_cons_of_neg (by simpa [hv] using h)
    rw [List.map_cons]
    by_cases hz : z.key = y.key
    · rw [if_pos hz, hne rfl, hne hz, ih]
    · rw [if_neg hz, List.find?_cons, List.find?_cons, ih]

/-- Where a unit has just been set, clearing the requests that its launch waits changes its rotation alone. -/
theorem clearAsked_unit {u : UnitKey} {x y : WorkUnit} (h : s.unit u = some x) (hk : y.key = u) (ctx : Nat) (id : Word) :
    ∃ r, ((s.setUnit y).clearAsked ctx id).unit u = some { y with rot := r } := by
  refine List.foldlRecOn (motive := fun t : State => ∃ r, t.unit u = some { y with rot := r }) _ _
    ⟨y.rot, unit_setUnit h hk⟩ fun t ht z hz => ?_
  dsimp only
  split
  · exact ht
  · obtain ⟨r, hr⟩ := ht
    obtain ⟨hz, -⟩ := mem_unitsOf.1 hz
    obtain ⟨v, -, hv⟩ := List.mem_map.1 hz
    by_cases hvk : v.key = y.key
    · obtain rfl : y = z := (if_pos hvk).symm.trans hv
      exact ⟨_, unit_setUnit hr hk⟩
    · obtain rfl : v = z := (if_neg hvk).symm.trans hv
      exact ⟨r, Eq.trans (unit_setUnit_ne t fun hu => hvk (hu.trans hk.symm)) hr⟩

/-- What a restored unit is once its windows and the bytes that its block shares stand again. -/
theorem restored_unit {u : UnitKey} {x y : WorkUnit} (h : s.unit u = some x) (hk : y.key = u) (ctx : Nat) (id : Word)
    (z : WorkUnit) (cells : List (Nat × Byte)) :
    ((((((s.setUnit y).clearAsked ctx id).restoreWindows z).writeMem cells).unit u).map
      fun v => (v.saved, v.preempt, v.die, v.cluster, v.cores)) = some (y.saved, y.preempt, y.die, y.cluster, y.cores) := by
  obtain ⟨r, hr⟩ := clearAsked_unit s h hk ctx id
  have hwrite := (writeMemAs_memory (((s.setUnit y).clearAsked ctx id).restoreWindows z) deviceWriter cells).units
  rw [State.unit, State.writeMem, hwrite]
  exact congrArg _ hr

theorem restoreUnit_results {x : WorkUnit} (h : s.unit x.key = some x) (im : List Byte) (d c : Nat) (cores : List Nat) :
    let t := s.restoreUnit x im d c cores
    (t.unit x.key).map (fun y => (y.saved, y.preempt, y.die, y.cluster, y.cores)) = some (false, none, d, c, cores) ∧
      (t.context x.key.ctx).windows = x.windows := by
  unfold State.restoreUnit
  extract_lets n runs taken v draw shown env y shared t
  have htaken : taken.units = s.units := foldl_keeps State.units (fun t k => takeCore_units t ..) cores s
  have hv : v.units = taken.units := (rebindQuad_units ..).trans ((restoreAgents_units ..).trans (restoreSlots_units ..))
  have hunit : v.unit x.key = some x := (congrArg (List.find? _) (hv.trans htaken)).trans h
  refine ⟨restored_unit v (y := y) hunit rfl .., ?_⟩
  have hwrite : t.contexts = _ := (writeMemAs_memory ..).contexts
  rw [State.context, hwrite]
  exact congrArg Context.windows (context_setContext_same ..)

end

/-! CTXLD (R301), stage by stage. -/

section
variable {s : State} {a : Agent} {d upto : Nat} {va : BitVec 56} {w : DWord} {fin : State → DWord → State}

/-- How far the image of a VA reaches, as its header says. -/
def headerSize (s : State) (va : BitVec 56) : Nat := numAt (s.imageRead va.toNat 256) 0x18 4

/-- The header is mapped, none of it is a peer's that has not been asked, and no byte of it is poisoned. -/
def HeaderHere (s : State) (va : BitVec 56) : Prop :=
  s.supMapped va.toNat 256 false = true ∧ s.imagePeers va.toNat 256 = [] ∧ s.supPoisoned va.toNat 256 = none

/-- An image has a length that one can have, and is mapped. -/
def Sized (s : State) (va : BitVec 56) : Prop :=
  0x1100 ≤ headerSize s va ∧ headerSize s va ≤ 2 ^ 24 ∧ s.supMapped va.toNat (headerSize s va) false = true

/-- The state in which a CTXLD has asked the peers for `n` bytes of the image. -/
def askPeers (s : State) (a : Agent) (d : Nat) (va : BitVec 56) (w : DWord) (n : Nat) : State :=
  (s.setAgent (a.setWait (.ctxld d va w n))).sendReads (s.imagePeers va.toNat n) (supRequest a (s.die a.place.die).time)

theorem away_iff {ks : List Nat} {n : Nat} (h : upto < n) : (decide (upto < n) && !ks.isEmpty) = true ↔ ks ≠ [] := by
  simp [h]

theorem unsized_iff : (headerSize s va < 0x1100 ∨ 2 ^ 24 < headerSize s va ∨
    (!s.supMapped va.toNat (headerSize s va) false) = true) ↔ ¬Sized s va := by
  rw [Sized, not_and_or, not_and_or, Nat.not_le, Nat.not_le, Bool.not_eq_true, Bool.not_eq_true']

theorem loadImage_unmapped (h : s.supMapped va.toNat 256 false = false) : s.loadImage a d va w upto fin = fin s 4 :=
  if_pos (by rw [h]; rfl)

theorem loadImage_mapped (h : s.supMapped va.toNat 256 false = true) (hp : s.imagePeers va.toNat 256 ≠ []) :
    s.loadImage a d va w 0 fin = askPeers s a d va w 256 := by
  unfold State.loadImage
  rw [h]
  exact if_pos ((away_iff (by decide)).2 hp)

theorem loadImage_header_poisoned (h : s.supMapped va.toNat 256 false = true) (hp : s.imagePeers va.toNat 256 = [])
    {v : BitVec 56} (hv : s.supPoisoned va.toNat 256 = some v) :
    s.loadImage a d va w upto fin = s.trapThread a .uncorrectable { FaultInfo.none with addr := v.setWidth 64 } := by
  unfold State.loadImage
  simp [h, hp, hv]

theorem loadImage_unsized (h : HeaderHere s va) (hs : ¬Sized s va) : s.loadImage a d va w upto fin = fin s 4 := by
  obtain ⟨hm, hp, hv⟩ := h
  simp only [State.loadImage, hm, hp, hv, List.isEmpty_nil, Bool.not_true, Bool.and_false, Bool.false_eq_true, if_false]
  exact if_pos (unsized_iff.2 hs)

theorem loadImage_sized (h : HeaderHere s va) (hs : Sized s va) (hp : s.imagePeers va.toNat (headerSize s va) ≠ []) :
    s.loadImage a d va w 0 fin = askPeers s a d va w (headerSize s va) := by
  obtain ⟨hm, hnear, hv⟩ := h
  simp only [State.loadImage, hm, hnear, hv, List.isEmpty_nil, Bool.not_true, Bool.and_false, Bool.false_eq_true, if_false]
  have hpos : 0 < headerSize s va := lt_of_lt_of_le (by decide) hs.1
  exact (if_neg (not_not_intro hs ∘ unsized_iff.1)).trans (if_pos ((away_iff hpos).2 hp))

theorem loadImage_poisoned (h : HeaderHere s va) (hs : Sized s va) (hp : s.imagePeers va.toNat (headerSize s va) = [])
    {v : BitVec 56} (hv : s.supPoisoned va.toNat (headerSize s va) = some v) :
    s.loadImage a d va w upto fin = s.trapThread a .uncorrectable { FaultInfo.none with addr := v.setWidth 64 } := by
  obtain ⟨hm, hnear, hclean⟩ := h
  simp only [State.loadImage, hm, hnear, hclean, List.isEmpty_nil, Bool.not_true, Bool.and_false, Bool.false_eq_true, if_false]
  refine (if_neg (not_not_intro hs ∘ unsized_iff.1)).trans ?_
  simp only [headerSize] at hp hv
  simp [hp, hv]

/-- An image is in the package's own memory as a whole, with no poisoned byte. -/
def ImageHere (s : State) (va : BitVec 56) : Prop :=
  HeaderHere s va ∧ Sized s va ∧ s.imagePeers va.toNat (headerSize s va) = [] ∧
    s.supPoisoned va.toNat (headerSize s va) = none

theorem loadImage_noUnit (h : ImageHere s va) (hx : s.unit (imageUnit (s.imageRead va.toNat (headerSize s va))) = none) :
    s.loadImage a d va w upto fin = fin s 4 := by
  obtain ⟨⟨hm, hnear, hclean⟩, hs, hp, hv⟩ := h
  simp only [State.loadImage, hm, hnear, hclean, List.isEmpty_nil, Bool.not_true, Bool.and_false, Bool.false_eq_true, if_false]
  refine (if_neg (not_not_intro hs ∘ unsized_iff.1)).trans ?_
  simp only [headerSize] at hp hv hx
  simp [hp, hv, hx]

theorem loadImage_unit (h : ImageHere s va) {x : WorkUnit}
    (hx : s.unit (imageUnit (s.imageRead va.toNat (headerSize s va))) = some x) :
    let cores := if x.kind = .csq then [] else placeCores w x.cores.length
    let im := s.imageRead va.toNat (headerSize s va)
    let st := s.restoreStatus x im (bitsOf w 0 3) (bitsOf w 3 2) cores
    let t := fin s (BitVec.ofNat 64 st)
    s.loadImage a d va w upto fin = if st = 0 then t.restoreUnit x im (bitsOf w 0 3) (bitsOf w 3 2) cores else t := by
  obtain ⟨⟨hm, hnear, hclean⟩, hs, hp, hv⟩ := h
  simp only [State.loadImage, hm, hnear, hclean, List.isEmpty_nil, Bool.not_true, Bool.and_false, Bool.false_eq_true, if_false]
  refine (if_neg (not_not_intro hs ∘ unsized_iff.1)).trans ?_
  simp only [headerSize] at hp hv hx ⊢
  simp [hp, hv, hx] <;> rfl

end

section
variable {s : State} {a b d : BitVec 7}

theorem ctxld_results (hc : Clear (gNeed .sup [d, a, b]) s) :
    let va := (s.me.readG a.toNat).extractLsb' 0 56
    let w := s.me.readG b.toNat
    let die := (w.extractLsb' 0 3).toNat
    let cl := (w.extractLsb' 3 2).toNat
    let size := numAt (s.imageRead va.toNat 256) 0x18 4
    let im := s.imageRead va.toNat size
    let plain := w.extractLsb' 5 3 = 0
    let header := s.supMapped va.toNat 256 false = true
    let sized := 0x1100 ≤ size ∧ size ≤ 2 ^ 24 ∧ s.supMapped va.toNat size false = true
    let asks := fun n : Nat => exec (.ctxld b a d) s = .next ((s.setAgent (s.me.setWait (.ctxld d.toNat va w n))).sendReads
      (s.imagePeers va.toNat n) (supRequest s.me (s.die s.me.place.die).time))
    let near := plain ∧ header ∧ s.imagePeers va.toNat 256 = []
    let clean := near ∧ s.supPoisoned va.toNat 256 = none
    let whole := clean ∧ sized ∧ s.imagePeers va.toNat size = []
    let there := whole ∧ s.supPoisoned va.toNat size = none
    let poisoned := fun v : BitVec 56 => exec (.ctxld b a d) s =
      .next (s.trapThread s.me .uncorrectable { FaultInfo.none with addr := v.setWidth 64 })
    (¬plain → Traps (.ctxld b a d) s .illegalField) ∧
    (plain → ¬header → Answers (.ctxld b a d) s fun t => GroupEffect s t d.toNat 4 true) ∧
    (plain → header → s.imagePeers va.toNat 256 ≠ [] → asks 256) ∧
    (near → ∀ v, s.supPoisoned va.toNat 256 = some v → poisoned v) ∧
    (clean → ¬sized → Answers (.ctxld b a d) s fun t => GroupEffect s t d.toNat 4 true) ∧
    (clean → sized → s.imagePeers va.toNat size ≠ [] → asks size) ∧
    (whole → ∀ v, s.supPoisoned va.toNat size = some v → poisoned v) ∧
    (there → s.unit (imageUnit im) = none → Answers (.ctxld b a d) s fun t => GroupEffect s t d.toNat 4 true) ∧
    (there → ∀ x, s.unit (imageUnit im) = some x →
      let cores := if x.kind = .csq then [] else placeCores w x.cores.length
      let st := s.restoreStatus x im die cl cores
      (st ≠ 0 → Answers (.ctxld b a d) s fun t => GroupEffect s t d.toNat (BitVec.ofNat 64 st) true) ∧
      (st = 0 → Answers (.ctxld b a d) s fun t =>
        (t.unit x.key).map (fun y => (y.saved, y.preempt, y.die, y.cluster, y.cores)) = some (false, none, die, cl, cores) ∧
        (t.context x.key.ctx).windows = x.windows)) := by
  intro va w die cl size im plain header sized asks near clean whole there poisoned
  have hexec : exec (.ctxld b a d) s = execCtxld b a d s := rfl
  rw [execCtxld, guard_gNeed hc] at hexec
  have hmbz : plain ↔ ¬bitsOf (s.me.g7 b) 5 3 ≠ 0 := by
    rw [bitsOf_eq_extractLsb']
    exact (BitVec.toNat_inj (y := 0)).symm.trans not_not.symm
  have hload (h : plain) : exec (.ctxld b a d) s = .next (s.loadImage s.me d.toNat va w 0 fun s x => s.finishG d x true) :=
    hexec.trans (if_neg (hmbz.1 h))
  have hfin {x} (h : plain) (hl : s.loadImage s.me d.toNat va w 0 (fun s x => s.finishG d x true) = s.finishG d x true) :
      Answers (.ctxld b a d) s fun t => GroupEffect s t d.toNat x true :=
    ⟨_, (hload h).trans (congrArg _ hl), finishG_effect ..⟩
  have hplain : clean → plain := fun ⟨⟨h, _⟩, _⟩ => h
  have hhere : clean → HeaderHere s va := fun ⟨⟨_, hm, hp⟩, hv⟩ => ⟨hm, hp, hv⟩
  refine ⟨fun h => hexec.trans (if_pos (not_not.1 (mt hmbz.2 h))), fun h hm => ?_, fun h hm hp => ?_,
    fun ⟨h, hm, hp⟩ v hv => ?_, fun h hs => ?_, fun h hs hp => ?_, fun ⟨h, hs, hp⟩ v hv => ?_,
    fun ⟨⟨h, hs, hp⟩, hv⟩ hx => ?_, fun ⟨⟨h, hs, hp⟩, hv⟩ x hx => ?_⟩
  · exact hfin h (loadImage_unmapped (Bool.eq_false_iff.2 hm))
  · exact (hload h).trans (congrArg _ (loadImage_mapped hm hp))
  · exact (hload h).trans (congrArg _ (loadImage_header_poisoned hm hp hv))
  · exact hfin (hplain h) (loadImage_unsized (hhere h) hs)
  · exact (hload (hplain h)).trans (congrArg _ (loadImage_sized (hhere h) hs hp))
  · exact (hload (hplain h)).trans (congrArg _ (loadImage_poisoned (hhere h) hs hp hv))
  · exact hfin (hplain h) (loadImage_noUnit ⟨hhere h, hs, hp, hv⟩ hx)
  · intro cores st
    have hunit := loadImage_unit (a := s.me) (d := d.toNat) (w := w) (upto := 0) (fin := fun s x => s.finishG d x true)
      ⟨hhere h, hs, hp, hv⟩ hx
    simp only [bitsOf_eq_extractLsb'] at hunit
    refine ⟨fun hst => hfin (hplain h) (hunit.trans (if_neg hst)), fun hst => ?_⟩
    refine ⟨_, (hload (hplain h)).trans (congrArg _ (hunit.trans (if_pos hst))), ?_⟩
    have hx : (s.finishG d (BitVec.ofNat 64 st) true).unit x.key = some x := by
      rw [unit_key hx]
      exact hx
    exact restoreUnit_results _ hx im die cl cores

end

/-! SNAPB and SNAPC (R345, R352). -/

section
variable {s : State} {a b d : BitVec 7}

theorem snapb_results (hc : Clear (gNeed .sup [d, a]) s) :
    let x := s.me.readG a.toNat
    let r := s.launchById (x.extractLsb' 0 32)
    (r = none → Answers (.snapb a d) s fun t => GroupEffect s t d.toNat 1 true) ∧
    (∀ l, r = some l → l.next ≠ 0 → Answers (.snapb a d) s fun t => GroupEffect s.useFree t d.toNat 1 true) ∧
    (∀ l, r = some l → l.next = 0 → s.launch l.ctx l.id = some l → Answers (.snapb a d) s fun t => t.me.cur.pc = s.me.cur.pc + 4 ∧
      (t.launch l.ctx l.id).map (fun k => k.replay.isSome && k.replayable) = some true) := by
  intro x r
  have hexec : exec (.snapb a d) s = execSnapb a d s := rfl
  rw [execSnapb, guard_gNeed hc] at hexec
  refine ⟨fun hr => ?_, fun l hr hn => ?_, fun l hr hn hl => ?_⟩
  all_goals
    have hr' : s.launchById ((s.me.g7 a).extractLsb' 0 32) = _ := hr
    simp only [hr'] at hexec
  · exact ⟨_, hexec, finishG_effect ..⟩
  · exact ⟨_, hexec.trans (if_pos hn), finishG_effect ..⟩
  · refine ⟨_, hexec.trans (if_neg (not_not_intro hn)), retire_cur_pc .., ?_⟩
    let k : Launch := { l with replayable := true, replay := if l.replay.isSome then l.replay else some ⟨[], [], []⟩ }
    have hset : (s.useFree.setLaunch k).launch l.ctx l.id = some k := launch_setLaunch hl rfl rfl rfl
    refine (congrArg (Option.map _) hset).trans (congrArg some ?_)
    have hreplay : k.replay.isSome = true := by
      by_cases h : l.replay.isSome = true <;> simp [k, h]
    exact Bool.and_eq_true_iff.2 ⟨hreplay, rfl⟩

theorem snapc_results (hc : Clear (gNeed .sup [d, a, b]) s) :
    let r := s.launchById ((s.me.readG a.toNat).extractLsb' 0 32)
    let u := s.useFree
    (r = none → Answers (.snapc b a d) s fun t => GroupEffect s t d.toNat 1 true) ∧
    ∀ l, r = some l →
      let back := (s.me.readG b.toNat).getLsbD 0
      let held := l.rollback.isSome = true ∨ u.awaitsDigest l.ctx l.id = true
      (l.replay = none → Answers (.snapc b a d) s fun t => GroupEffect u t d.toNat 1 true) ∧
      (l.replay ≠ none → back = false → held → exec (.snapc b a d) s = .next s) ∧
      (l.replay ≠ none → back = false → ¬held → Answers (.snapc b a d) s fun t =>
        GroupEffect (u.commitLaunch l) t d.toNat 0 true) ∧
      (l.replay ≠ none → back = true → exec (.snapc b a d) s =
        let t := u.startRollback l false
        .next { t with me := t.me.setWait (.snapc d.toNat l.ctx l.id) }) := by
  intro r u
  have hexec : exec (.snapc b a d) s = execSnapc b a d s := rfl
  rw [execSnapc, guard_gNeed hc] at hexec
  refine ⟨fun hr => ?_, fun l hr => ?_⟩
  all_goals
    have hr' : s.launchById ((s.me.g7 a).extractLsb' 0 32) = _ := hr
    simp only [hr'] at hexec
  · exact ⟨_, hexec, finishG_effect ..⟩
  intro back held
  have hnone : l.replay.isNone = true ↔ l.replay = none := Option.isNone_iff_eq_none
  refine ⟨fun h => ⟨_, hexec.trans (if_pos (hnone.2 h)), finishG_effect ..⟩, fun h hb hh => ?_, fun h hb hh => ?_, fun h hb => ?_⟩
  all_goals
    rw [if_neg (mt hnone.1 h)] at hexec
    have hb' : (s.useFree.me.g7 b).getLsbD 0 = _ := hb
    simp only [hb', Bool.not_false, Bool.not_true, Bool.true_and, Bool.false_and, Bool.or_eq_true] at hexec
  · exact hexec.trans (if_pos hh)
  · exact ⟨_, hexec.trans (if_neg hh), finishG_effect ..⟩
  · exact hexec

end

/-- Settles O44, instruction by instruction: each goes by the outcomes that its operands and the state select. -/
theorem supervisorResults : Obligations.SupervisorResults := by
  refine ⟨⟨fun b a s hc hq => tlbi_results hc hq, fun a s hc hq => tlbia_results hc hq, fun b a s hc => prefw_results hc,
    fun b a d s hc => zeroRange_results hc, fun w s a d pa n ha hw _ => zeroComplete_results ha hw,
    fun w s a ha h => zeroComplete_refused ha h, fun s hc => halt_results hc, fun w s a ha => haltResume_results ha,
    fun a s hc => hirq_results hc, fun a d s hc => rtchk_results hc⟩,
    fun b a d s hc => ctxsv_results hc, fun b a d s hc => ctxld_results hc, fun a d s hc => snapb_results hc,
    fun b a d s hc => snapc_results hc⟩

end Sys2Proof.Proofs
end

section
/-!
PROOF. Loads (R134, R135, R144, R169): what a lane load leaves by whether its lanes pass, and the byte that a load reads behind its
agent's own queued stores.
-/
namespace Sys2Proof.Proofs
open Sys2Proof.Machine Sys2Proof.Laws

/-! What a lane load leaves (R135, R144). -/

/-- What `Obligations.LaneLoadResults` asks of a load of `w` bytes into `k` registers. -/
def LoadForm (i : BitVec 5 → BitVec 7 → BitVec 7 → Instr) (w k : Nat) (acq : Option (BitVec 3))
    (need : BitVec 7 → BitVec 7 → Need) : Prop :=
  ∀ f a d s, Clear (need a d) s →
    let u := cleared (need a d) s
    let fault := fun ea bs => u.loadFault u.me ea bs
    (∀ acc, LanesPass u w (f.toNat * w) a fault acc → Answers (i f a d) s fun t =>
      SpanEffect (u.acquired acq ((activeLanes u).map fun l => (acc l).bytes)) t d.toNat k
        (fun j l => BitVec.ofNat 32 (u.loadValue u.me (acc l).bytes / 2 ^ (32 * j))) acq.isSome) ∧
    (∀ e, LaneFails u w (f.toNat * w) a fault e → exec (i f a d) s = .next (laneTrap u e))

@[simp] theorem acquired_me (s : State) (acq : Option (BitVec 3)) (xs : List (List OdaByte)) : (s.acquired acq xs).me = s.me := by
  cases acq with
  | none => rfl
  | some c => exact me_of_allAgents (acquire_allAgents s s.me c _)

/-- A lane result is what its function gives in the active lanes. -/
theorem laneResult_congr {em : Word} {f g : Nat → Word} (h : ∀ l, l < 32 → em.getLsbD l = true → f l = g l) :
    laneResult em f = laneResult em g := by
  simp only [laneResult, Lanes.make]
  congr 1
  funext i
  split
  next he => exact h i.val i.isLt he
  next => rfl

section
variable {u : State} {w off : Nat} {a d : BitVec 7} {acq : Option (BitVec 3)}

theorem loadLanes_fail {e : LaneFault} (h : LaneFails u w off a (fun ea bs => u.loadFault u.me ea bs) e) :
    u.loadLanes w off a d acq = laneTrap u e := by
  simp only [State.loadLanes, lanes_fail h]

/-- Word `j` of what the active lanes have loaded. -/
theorem loadedLanes_active (g : Nat → Nat) (j : Nat) :
    loadedLanes u.me.cur.em ((activeLanes u).map fun l => (l, g l)) j =
      laneResult u.me.cur.em fun l => BitVec.ofNat 32 (g l / 2 ^ (32 * j)) :=
  laneResult_congr fun l hl he => by rw [laneVal_active hl he]

theorem loadLanes_pass {acc : Nat → Access} (h : LanesPass u w off a (fun ea bs => u.loadFault u.me ea bs) acc) :
    SpanEffect (u.acquired acq ((activeLanes u).map fun l => (acc l).bytes)) (u.loadLanes w off a d acq) d.toNat (accessRegs w)
      (fun j l => BitVec.ofNat 32 (u.loadValue u.me (acc l).bytes / 2 ^ (32 * j))) acq.isSome := by
  have heffect := span_effect (u.acquired acq ((activeLanes u).map fun l => (acc l).bytes)) d.toNat (accessRegs w)
    (fun j l => BitVec.ofNat 32 (u.loadValue u.me (acc l).bytes / 2 ^ (32 * j))) acq.isSome
  simp only [acquired_me] at heffect
  simp only [State.loadLanes, lanes_pass h, List.map_map, Function.comp_def]
  simpa only [loadedLanes_active fun l => u.loadValue u.me (acc l).bytes] using heffect

end

/-- An instruction whose meaning is `loadLanes` behind its needs has the shape of a load. -/
theorem loadForm_of {i : BitVec 5 → BitVec 7 → BitVec 7 → Instr} {w : Nat} {acq : Option (BitVec 3)}
    {need : BitVec 7 → BitVec 7 → Need}
    (h : ∀ f a d s, exec (i f a d) s = Machine.guard (need a d) s fun s => .next (s.loadLanes w (f.toNat * w) a d acq)) :
    LoadForm i w (accessRegs w) acq need := by
  intro f a d s hc u fault
  have hexec : exec (i f a d) s = .next (u.loadLanes w (f.toNat * w) a d acq) := by rw [h, guard_clear hc]
  exact ⟨fun acc hpass => ⟨_, hexec, loadLanes_pass hpass⟩, fun e hfail => by rw [hexec, loadLanes_fail hfail]⟩

/-! What a load reads behind its agent's queued stores (R135). -/

/-- The last cell of a list at a location, if it has one. -/
def lastCell (cells : List (Nat × Byte)) (k : Nat) : Option Byte := (cells.reverse.find? fun c => c.1 == k).map (·.2)

theorem lastCell_of_split {pre post : List (Nat × Byte)} {k : Nat} (x : Byte) (h : ∀ c ∈ post, c.1 ≠ k) :
    lastCell (pre ++ (k, x) :: post) k = some x := by
  have hpost : post.reverse.find? (fun c => c.1 == k) = none := by simpa using fun a b hc => h (a, b) hc
  simp [lastCell, List.find?_append, hpost]

theorem lastCell_none {cells : List (Nat × Byte)} {k : Nat} (h : ∀ c ∈ cells, c.1 ≠ k) : lastCell cells k = none := by
  simpa [lastCell] using fun a b hc => h (a, b) hc

/-- The newest entry of a queue goes before the others. -/
theorem queuedByte_append (q : List StoreEntry) (e : StoreEntry) (k : Nat) :
    queuedByte (q ++ [e]) k = (lastCell e.cells k).or (queuedByte q k) := by
  induction q with
  | nil => simp [queuedByte, lastCell]
  | cons y q ih =>
    rw [List.cons_append, queuedByte, ih, queuedByte]
    cases lastCell e.cells k with
    | none => rfl
    | some x => rfl

theorem loadByte_queued (s : State) (a : Agent) (e : StoreEntry) (k : Nat) :
    s.loadByte { a with storeQ := a.storeQ ++ [e] } (.loc k) = (lastCell e.cells k).getD (s.loadByte a (.loc k)) := by
  simp only [State.loadByte, queuedByte_append]
  cases lastCell e.cells k with
  | none => rfl
  | some x => rfl

/-- Settles O15: each load by whether its lanes pass, and the byte that it reads by the newest entry of its own queue. -/
theorem laneLoadResults : Obligations.LaneLoadResults := by
  unfold Obligations.LaneLoadResults
  have forms : LoadForm .ld8 1 1 none (loadNeed 1) ∧ LoadForm .ld16 2 1 none (loadNeed 2) ∧ LoadForm .ld32 4 1 none (loadNeed 4) ∧
      LoadForm .ld64 8 2 none (loadNeed 8) ∧ LoadForm .ld128 16 4 none (loadNeed 16) ∧
      ∀ c : BitVec 3, LoadForm (.ldaq c) 4 1 (some c) fun a d => { loadNeed 4 a d with scope := c == 7 } :=
    ⟨loadForm_of fun _ _ _ _ => rfl, loadForm_of fun _ _ _ _ => rfl, loadForm_of fun _ _ _ _ => rfl,
      loadForm_of fun _ _ _ _ => rfl, loadForm_of fun _ _ _ _ => rfl, fun _ => loadForm_of fun _ _ _ _ => rfl⟩
  refine ⟨forms, fun s a e pre post k => ⟨fun x hcells hpost => ?newest, fun hnone => ?older, fun hempty => ?memory⟩⟩
  case newest => rw [loadByte_queued, hcells, lastCell_of_split x hpost, Option.getD_some]
  case older => rw [loadByte_queued, lastCell_none hnone, Option.getD_none]
  case memory => simp only [State.loadByte, hempty, queuedByte, Option.getD_none]

end Sys2Proof.Proofs
end

section
/-!
PROOF. Fences (R143, R170, R172): what a fence waits for, and what it leaves once that has come.
-/
namespace Sys2Proof.Proofs
open Sys2Proof.Machine Sys2Proof.Laws

section
variable {s : State}

/-- A fence goes on where the agent's stores and atomics have performed. -/
theorem fenced_empty (hq : s.drain.me.storeQ = []) (ha : s.drain.me.atomics = []) (k : State → Out) : s.fenced k = k s.drain :=
  if_pos (by simp [hq, ha])

theorem fenced_waits (h : s.drain.me.storeQ ≠ [] ∨ s.drain.me.atomics ≠ []) (k : State → Out) :
    s.fenced k = .next s.drain.holdGroup :=
  if_neg fun hb => by
    obtain ⟨hq, ha⟩ := Bool.and_eq_true_iff.1 hb
    exact h.elim (absurd (List.isEmpty_iff.1 hq)) (absurd (List.isEmpty_iff.1 ha))

@[simp] theorem fenceAcquire_me (a : Agent) (c : BitVec 3) : (s.fenceAcquire a c).me = s.me :=
  me_of_allAgents (passHold_allAgents s _ _)

/-- What a fence waits for beside its agent's stores and atomics: it then stays as it would for them. -/
theorem fenced_held {k : State → Out} {p : Prop} (hk : p → k s.drain = .next s.drain.holdGroup)
    (h : s.drain.me.storeQ ≠ [] ∨ s.drain.me.atomics ≠ [] ∨ p) : s.fenced k = .next s.drain.holdGroup := by
  by_cases hwait : s.drain.me.storeQ ≠ [] ∨ s.drain.me.atomics ≠ []
  · exact fenced_waits hwait k
  · obtain ⟨hq, ha⟩ := not_or.1 hwait
    rw [fenced_empty (not_not.1 hq) (not_not.1 ha), hk]
    tauto

/-- What `Obligations.FenceResults` asks of a FENCE, of a scope and a kind that the instruction's fields can hold. -/
def FenceForm (c : BitVec 3) (f : BitVec 5) : Prop :=
  ∀ s, Clear { Need.of .coreSup with field := !(f == 1 || f == 2 || f == 3), scope := c == 7 } s →
    let x := if c = 0 ∨ f = 2 then s else s.fenceAcquire s.me c
    let v := x.drain
    (c = 0 ∨ f = 1 → Answers (.fence c f) s fun t => FlowEffect x t (s.me.cur.pc + 4) true) ∧
    (¬(c = 0 ∨ f = 1) → v.me.storeQ = [] → v.me.atomics = [] → ¬(c = 6 ∧ v.peerWrites v.me.who = true) →
      Answers (.fence c f) s fun t =>
        let u := if c = 6 then v.releaseSys v.me.holder else v
        FlowEffect { u with me := { u.me with relNext := widerScope u.me.relNext (some c) } } t (u.me.cur.pc + 4) true) ∧
    (¬(c = 0 ∨ f = 1) → v.me.storeQ ≠ [] ∨ v.me.atomics ≠ [] ∨ (c = 6 ∧ v.peerWrites v.me.who = true) →
      exec (.fence c f) s = .next v.holdGroup)

/-- Whether a holder is an engine command of an agent. -/
def ownCommand (w : Who) : Holder → Bool
  | .command x _ => x == w
  | _ => false

/-- What `Obligations.FenceResults` asks of a FENCE.E, of a scope and a kind that the instruction's fields can hold. -/
def FenceEForm (c : BitVec 3) (f : BitVec 5) : Prop :=
  ∀ s, Clear { Need.of .coreSup with field := !(f == 2 || f == 3), scope := c == 7 } s →
    (c = 0 → Answers (.fenceE c f) s fun t => FlowEffect s t (s.me.cur.pc + 4) true) ∧
    let v := s.drain
    (c ≠ 0 → v.me.storeQ = [] → v.me.atomics = [] → v.hasCommands = false → ¬(c = 6 ∧ v.peerWrites v.me.who = true) →
      Answers (.fenceE c f) s fun t =>
        let p := v.passHold (ownCommand v.me.who) v.me.holder
        let u := if c = 6 then p.releaseSys p.me.holder else p
        FlowEffect u t (u.me.cur.pc + 4) true) ∧
    (c ≠ 0 → v.me.storeQ ≠ [] ∨ v.me.atomics ≠ [] ∨ v.hasCommands = true ∨ (c = 6 ∧ v.peerWrites v.me.who = true) →
      exec (.fenceE c f) s = .next v.holdGroup)

theorem fence_form (c : BitVec 3) (f : BitVec 5) : FenceForm c f := by
  intro s hc x v
  have hexec : exec (.fence c f) s = execFence c f s := rfl
  rw [execFence, guard_clear hc, cleared_noreads s rfl] at hexec
  have hme : x.me = s.me := by
    by_cases h : c = 0 ∨ f = 2
    · rw [show x = s from if_pos h]
    · rw [show x = s.fenceAcquire s.me c from if_neg h, fenceAcquire_me]
  refine ⟨fun h => ⟨_, hexec.trans (if_pos h), ?_⟩, fun h hq ha hp => ?_, fun h hw => ?_⟩
  · have heffect := finish_effect x true
    rwa [hme] at heffect
  · rw [if_neg h, fenced_empty hq ha, if_neg hp] at hexec
    exact ⟨_, hexec, finish_effect ..⟩
  · rw [if_neg h] at hexec
    exact hexec.trans (fenced_held (fun hp => if_pos hp) hw)

theorem fenceE_form (c : BitVec 3) (f : BitVec 5) : FenceEForm c f := by
  intro s hc
  have hexec : exec (.fenceE c f) s = execFenceE c f s := rfl
  rw [execFenceE, guard_clear hc, cleared_noreads s rfl] at hexec
  refine ⟨fun h => ⟨_, hexec.trans (if_pos h), finish_effect s true⟩, fun h hq ha hcmd hp => ?_, fun h hw => ?_⟩
  · have hgo : ¬(s.drain.hasCommands || (c == 6 && s.drain.peerWrites s.drain.me.who)) = true := by
      simpa [hcmd] using hp
    rw [if_neg h, fenced_empty hq ha, if_neg hgo] at hexec
    exact ⟨_, hexec, finish_effect ..⟩
  · rw [if_neg h] at hexec
    exact hexec.trans (fenced_held (fun hp => if_pos (by simpa using hp)) hw)

end

/-- What `Obligations.FenceResults` says of the instructions does hold, of every scope and kind that their fields can hold. -/
theorem fence_forms : (∀ c f, FenceForm c f) ∧ ∀ c f, FenceEForm c f := ⟨fence_form, fenceE_form⟩

theorem relNext_of_flowEffect {s t : State} {pc : Word} {ends : Bool} (h : FlowEffect s t pc ends) :
    t.me.relNext = s.me.relNext := by
  obtain ⟨⟨ht, -⟩, -⟩ := h
  exact (congrArg (fun u : State => u.me.relNext) ht).trans rfl

/-- Refutes O19: its `c` and `f` are natural numbers, cast to the fields of the instruction. Scope 8 is none of the exceptions that
the statement makes, but as a field it is 0, `.lane`: the supervisor thread's FENCE of scope 8 and kind 3 then asks for no release,
where the statement has its next store become one. -/
theorem not_fenceResults : ¬ Obligations.FenceResults := by
  unfold Obligations.FenceResults
  rintro ⟨hfence, -, -⟩
  have hclear {n : Need} (hn : n = Need.of .coreSup) : Clear n { State.reset with power := .up } := by
    subst hn
    exact (clear_noreads rfl rfl rfl rfl).2 rfl
  obtain ⟨-, hrelease, -⟩ := hfence 8 3 { State.reset with power := .up } (hclear rfl)
  obtain ⟨t, hexec, heffect⟩ := hrelease (by decide) rfl rfl (by decide)
  obtain ⟨u, hlane, hplain⟩ := (fence_forms.1 0 3 { State.reset with power := .up } (hclear rfl)).1 (.inl rfl)
  obtain rfl : t = u := Host.Outcome.next.inj (hexec.symm.trans hlane)
  have hnone : t.me.relNext = none := relNext_of_flowEffect hplain
  have hsome : t.me.relNext = some 0 := relNext_of_flowEffect heffect
  exact Option.some_ne_none _ (hsome.symm.trans hnone)

end Sys2Proof.Proofs
end

section
/-!
PROOF. Group-wide loads and stores of a unit's agent (R145).
-/
namespace Sys2Proof.Proofs
open Sys2Proof.Machine Sys2Proof.Laws

/-- The address of a group-wide access (R145). -/
def groupEa (s : State) (a : BitVec 7) (f : BitVec 5) : Nat :=
  ((s.me.readG a.toNat).extractLsb' 0 32 + BitVec.ofNat 32 (f.toNat * 8)).toNat

/-- What `Obligations.GroupAccessResults` asks of a load. -/
def GroupLoadForm (i : BitVec 5 → BitVec 7 → BitVec 7 → Instr) (acq : Option (BitVec 3))
    (need : BitVec 7 → BitVec 7 → Need) : Prop :=
  ∀ f a d s, s.me.kind ≠ .sup → Clear (need a d) s →
    let ea := groupEa s a f
    (∀ x, s.laneAccess s.me 8 (fun ea bs => s.loadFault s.me ea bs) 0 ea = .ok x →
      Answers (i f a d) s fun t =>
        GroupEffect (s.acquired acq [x.bytes]) t d.toNat (BitVec.ofNat 64 (s.loadValue s.me x.bytes)) acq.isSome) ∧
    (∀ e, s.laneAccess s.me 8 (fun ea bs => s.loadFault s.me ea bs) 0 ea = .error e →
      exec (i f a d) s = .next (addrTrap s e.cause ea))

/-- What `Obligations.GroupAccessResults` asks of a store. -/
def GroupStoreForm (i : BitVec 5 → BitVec 7 → BitVec 7 → Instr) (rel : Option (BitVec 3))
    (need : BitVec 7 → BitVec 7 → Need) : Prop :=
  ∀ f a d s, s.me.kind ≠ .sup → Clear (need a d) s →
    let ea := groupEa s a f
    let r := widerScope rel s.me.relNext
    (16 ≤ s.me.storeQ.length → exec (i f a d) s = .next s) ∧
    (∀ x, s.me.storeQ.length < 16 → s.laneAccess s.me 8 (fun ea bs => s.storeFault s.me ea bs) 0 ea = .ok x →
      let q : StoreEntry := ⟨placeBytes x.bytes (leBytes 8 (s.me.readG d.toNat).toNat), r.getD 0, r.isSome,
        s.storeDue 8 [ea]⟩
      let m : Agent := { s.me with storeQ := s.me.storeQ ++ [q], relNext := none }
      exec (i f a d) s = .next { s with me := m.retire none (s.me.cur.pc + 4) true }) ∧
    (∀ e, s.me.storeQ.length < 16 → s.laneAccess s.me 8 (fun ea bs => s.storeFault s.me ea bs) 0 ea = .error e →
      exec (i f a d) s = .next (addrTrap s e.cause ea))

section
variable {s : State} {a d : BitVec 7} {f : BitVec 5} {acq rel : Option (BitVec 3)} (hs : s.me.kind ≠ .sup)
include hs

theorem groupLoad_pass {x : Access}
    (h : s.laneAccess s.me 8 (fun ea bs => s.loadFault s.me ea bs) 0 (groupEa s a f) = .ok x) :
    s.groupLoad f a d acq = (s.acquired acq [x.bytes]).finishG d (BitVec.ofNat 64 (s.loadValue s.me x.bytes)) acq.isSome := by
  rw [State.groupLoad, if_neg hs]
  simp only [show s.me.gea a f = groupEa s a f from rfl, h]

theorem groupLoad_fail {e : LaneFault}
    (h : s.laneAccess s.me 8 (fun ea bs => s.loadFault s.me ea bs) 0 (groupEa s a f) = .error e) :
    s.groupLoad f a d acq = addrTrap s e.cause (groupEa s a f) := by
  rw [State.groupLoad, if_neg hs]
  simp only [show s.me.gea a f = groupEa s a f from rfl, h]

theorem groupStore_pass {x : Access} (hq : s.me.storeQ.length < 16)
    (h : s.laneAccess s.me 8 (fun ea bs => s.storeFault s.me ea bs) 0 (groupEa s a f) = .ok x) :
    s.groupStore f a d rel = { s with me := (s.me.queueStore (placeBytes x.bytes (leBytes 8 (s.me.readG d.toNat).toNat)) rel
      (s.storeDue 8 [groupEa s a f])).retire none (s.me.nextPc 4) true } := by
  rw [State.groupStore, if_neg (show ¬storeDepth ≤ _ from Nat.not_le.2 hq), if_neg hs]
  simp only [show s.me.gea a f = groupEa s a f from rfl, h]
  rfl

theorem groupStore_fail {e : LaneFault} (hq : s.me.storeQ.length < 16)
    (h : s.laneAccess s.me 8 (fun ea bs => s.storeFault s.me ea bs) 0 (groupEa s a f) = .error e) :
    s.groupStore f a d rel = addrTrap s e.cause (groupEa s a f) := by
  rw [State.groupStore, if_neg (show ¬storeDepth ≤ _ from Nat.not_le.2 hq), if_neg hs]
  simp only [show s.me.gea a f = groupEa s a f from rfl, h]

end

/-- An instruction whose meaning is `groupLoad` behind needs with no lane register has the shape of a group-wide load. -/
theorem groupLoadForm_of {i : BitVec 5 → BitVec 7 → BitVec 7 → Instr} {acq : Option (BitVec 3)}
    {need : BitVec 7 → BitVec 7 → Need} (hreads : ∀ a d, (need a d).reads = [])
    (h : ∀ f a d s, exec (i f a d) s = Machine.guard (need a d) s fun s => .next (s.groupLoad f a d acq)) :
    GroupLoadForm i acq need := by
  intro f a d s hs hc ea
  have hexec : exec (i f a d) s = .next (s.groupLoad f a d acq) := by
    rw [h, guard_clear hc, cleared_noreads s (hreads a d)]
  refine ⟨fun x hx => ⟨_, hexec, ?_⟩, fun e he => by rw [hexec, groupLoad_fail hs he]⟩
  rw [groupLoad_pass hs hx]
  exact finishG_effect ..

/-- An instruction whose meaning is `groupStore` behind needs with no lane register has the shape of a group-wide store. -/
theorem groupStoreForm_of {i : BitVec 5 → BitVec 7 → BitVec 7 → Instr} {rel : Option (BitVec 3)}
    {need : BitVec 7 → BitVec 7 → Need} (hreads : ∀ a d, (need a d).reads = [])
    (h : ∀ f a d s, exec (i f a d) s = Machine.guard (need a d) s fun s => .next (s.groupStore f a d rel)) :
    GroupStoreForm i rel need := by
  intro f a d s hs hc ea r
  have hexec : exec (i f a d) s = .next (s.groupStore f a d rel) := by
    rw [h, guard_clear hc, cleared_noreads s (hreads a d)]
  refine ⟨fun hq => ?full, fun x hq hx => ?pass, fun e hq he => ?fail⟩
  case full => rw [hexec, State.groupStore, if_pos (show storeDepth ≤ _ from hq)]
  case pass =>
    rw [hexec, groupStore_pass hs hq hx]
    rfl
  case fail => rw [hexec, groupStore_fail hs hq he]

/-- Settles O20: each access by whether its address passes the checks, and a store also by whether the queue has room. -/
theorem groupAccessResults : Obligations.GroupAccessResults := by
  unfold Obligations.GroupAccessResults
  have forms : GroupLoadForm .gld none (fun a d => gNeed .all [a, d]) ∧ GroupStoreForm .gst none (fun a d => gNeed .all [a, d]) ∧
      ∀ c : BitVec 3, GroupLoadForm (.gldaq c) (some c) (fun a d => { gNeed .all [a, d] with scope := c == 7 }) ∧
        GroupStoreForm (.gstrl c) (some c) (fun a d => { gNeed .all [a, d] with scope := c == 7 }) :=
    ⟨groupLoadForm_of (fun _ _ => rfl) fun _ _ _ _ => rfl, groupStoreForm_of (fun _ _ => rfl) fun _ _ _ _ => rfl, fun _ =>
      ⟨groupLoadForm_of (fun _ _ => rfl) fun _ _ _ _ => rfl, groupStoreForm_of (fun _ _ => rfl) fun _ _ _ _ => rfl⟩⟩
  exact forms

end Sys2Proof.Proofs
end

section
/-!
PROOF. Barriers (R149 to R152): the status words that commands report, the flip and the references of an entry, and the steps in
which a wait at a barrier ends and a held arrival is made.
-/
namespace Sys2Proof.Proofs
open Sys2Proof.Machine Sys2Proof.Laws

/-! Status words (R152). -/

/-- The lower of what two commands report, where both do. -/
theorem lowest_comm (p q : Bool) (x y : Nat) :
    (if (p && q) = true then min x y else if p = true then x else if q = true then y else 0) =
      if (q && p) = true then min y x else if q = true then y else if p = true then x else 0 := by
  cases p <;> cases q <;> simp [Nat.min_comm]

/-- Status words are gathered in any order. -/
theorem statusMerge_comm (x y : DWord) : statusMerge x y = statusMerge y x := by
  simp only [statusMerge]
  rw [lowest_comm (x.getLsbD 7 || _), lowest_comm ((x.extractLsb' 8 8).toNat != 0), Nat.add_comm (x.extractLsb' 56 7).toNat,
    BitVec.or_comm x]

/-- The model's own bits of a status word, 4 to 7. -/
theorem ownBits_bit (i : Nat) : (0xF0 : DWord).getLsbD i = (decide (4 ≤ i) && decide (i < 8)) := by
  have hbits : (0xF0 : Nat).testBit i = (decide (4 ≤ i) && decide (i - 4 < 4)) := by
    rw [show 0xF0 = 2 ^ 4 * (2 ^ 4 - 1) from rfl, Nat.testBit_two_pow_mul, Nat.testBit_two_pow_sub_one]
  rw [show (0xF0 : DWord) = BitVec.ofNat 64 0xF0 from rfl, BitVec.getLsbD_ofNat, hbits]
  by_cases hlo : 4 ≤ i <;> by_cases hhi : i < 8 <;> simp [hlo, hhi] <;> omega

theorem statusWord_bit (x : DWord) (i : Nat) :
    (statusWord x).getLsbD i = (x.getLsbD i && !(decide (4 ≤ i) && decide (i < 8))) := by
  rw [statusWord, BitVec.getLsbD_and, BitVec.getLsbD_not, ownBits_bit]
  by_cases hi : i < 64
  · simp [hi]
  · simp [BitVec.getLsbD_of_ge x i (Nat.not_lt.1 hi)]

/-! The entry (R149, R150). -/

theorem settle_flips {b : Barrier} (hlive : b.live = true) (hp : b.pending = 0) (hc : b.counted = b.expected) :
    b.settle = { b with phase := !b.phase, last := statusWord b.cur, cur := 0, pending := b.ea, expected := b.eb, counted := 0 } :=
  if_pos ⟨hlive, hp, hc⟩

theorem settle_stays {b : Barrier} (h : ¬(b.live = true ∧ b.pending = 0 ∧ b.counted = b.expected)) : b.settle = b := if_neg h

theorem release_shared {b : Barrier} (h : 1 < b.refs) : b.release = { b with refs := b.refs - 1 } := if_neg (Nat.not_le.2 h)

theorem release_last {b : Barrier} (h : b.refs ≤ 1) : b.release = { Barrier.fresh with gen := nextGen b.gen } := if_pos h

theorem arrive_barrier (s : State) (k n j : Nat) : (s.arrive k n).barrier j =
    if j = k then ({ s.barrier k with pending := (s.barrier k).pending - n } : Barrier).settle else s.barrier j :=
  barrier_setBarrier s k j _

section
variable {s : State} {k bytes arr : Nat} {st : DWord} {r : Reporter}

theorem countInto_fits (hc : (s.barrier k).counted + bytes ≤ (s.barrier k).expected) (ha : arr ≤ (s.barrier k).pending) :
    s.countInto k bytes arr st r = s.setBarrier k
      ({ s.barrier k with counted := (s.barrier k).counted + bytes, pending := (s.barrier k).pending - arr,
                          cur := statusMerge (s.barrier k).cur st } : Barrier).settle.release := if_pos ⟨hc, ha⟩

/-- A count that would pass its target is reported. -/
theorem countInto_over (h : (s.barrier k).expected < (s.barrier k).counted + bytes) :
    (s.countInto k bytes arr st r).pending.length = s.pending.length + 1 ∧
    (s.countInto k bytes arr st r).pending.getLast?.map (fun p => p.cause) = some .barrierOvercount := by
  rw [State.countInto, if_neg fun hfit => Nat.not_le.2 h hfit.1]
  simp [raiseAsync, State.setBarrier]

end

/-! Waits at a barrier end (R151). -/

theorem wake_pos (a : Agent) (d : Nat) (x : DWord) : (a.wake d x).cur.pos = 0 := by
  rw [Agent.wake, retire_cur_pos]
  exact if_pos (by simp [chainEnds])

theorem wake_em (a : Agent) (d : Nat) (x : DWord) : (a.wake d x).cur.em = a.cur.em := by
  simp [Agent.wake, Agent.setWait]

theorem wake_readV (a : Agent) (d : Nat) (x : DWord) (k : Nat) {l : Nat} (hl : l < 32) :
    (a.wake d x).readV k l = a.readV k l := by
  rw [Agent.wake, readV_retire _ _ _ _ _ _ hl, readV_writeG]
  rfl

section
variable {w : Who} {s : State} {a : Agent} {d k : Nat} {p : Bool} {t : Option DWord}

theorem bwait_flips (ha : s.agent w = some a) (hw : a.wait = .bwait d k p t) (h : (s.barrier k).phase ≠ p) :
    exec (.bwaitReturn w) s = .next ((s.takeFrom a k).setAgent (s.oweWide (a.wake d (s.barrier k).last) d 4)) := by
  have hexec : exec (.bwaitReturn w) s = execBwaitReturn w s := rfl
  have hfront : a.front s.flipped = a := front_of_wait (by rw [hw]; exact bne_iff_ne.2 h)
  simp only [execBwaitReturn, State.waiting, ha, Option.map_some, hfront, hw] at hexec
  exact hexec.trans (if_pos (bne_iff_ne.2 h))

theorem bwait_stays (ha : s.agent w = some a) (hw : a.wait = .bwait d k p t) (h : (s.barrier k).phase = p)
    (hone : a.others = []) : exec (.bwaitReturn w) s = .refused .notDue := by
  have hexec : exec (.bwaitReturn w) s = execBwaitReturn w s := rfl
  simp only [execBwaitReturn, State.waiting, ha, Option.map_some, front_alone hone, hw] at hexec
  exact hexec.trans (if_neg (by simp [h]))

theorem bwaitt_timesOut {T : DWord} (ha : s.agent w = some a) (hw : a.wait = .bwait d k p (some T))
    (h : (s.barrier k).phase = p) (hT : T.toNat ≤ (s.die a.place.die).time.toNat) :
    exec (.bwaittTimeout w) s = .next (s.setAgent (a.wake d (0x8000_0000_0000_0000 ||| statusWord (s.barrier k).cur))) := by
  have hexec : exec (.bwaittTimeout w) s = execBwaittTimeout w s := rfl
  have hover : ((s.barrier k).phase == p && decide (T.toNat ≤ (s.die a.place.die).time.toNat)) = true := by simp [h, hT]
  have hfront : a.front (s.timedOut a.place.die) = a := front_of_wait (by rw [hw]; exact hover)
  simp only [execBwaittTimeout, ha, Option.map_some, hfront, hw] at hexec
  exact hexec.trans (if_pos hover)

theorem bwaitt_early {T : DWord} (ha : s.agent w = some a) (hw : a.wait = .bwait d k p (some T))
    (hT : (s.die a.place.die).time.toNat < T.toNat) (hone : a.others = []) :
    exec (.bwaittTimeout w) s = .refused .notDue := by
  have hexec : exec (.bwaittTimeout w) s = execBwaittTimeout w s := rfl
  simp only [execBwaittTimeout, ha, Option.map_some, front_alone hone, hw] at hexec
  exact hexec.trans (if_neg (by simp [Nat.not_le.2 hT]))

end

theorem oweWide_plain {s : State} {a : Agent} (d n : Nat) (h : ((s.unit a.unit).bind fun u => u.rot) = none) :
    s.oweWide a d n = a := by
  simp only [State.oweWide, h]

/-! Held arrivals (R150). -/

@[simp] theorem setAgent_barrier (s : State) (a : Agent) (k : Nat) : (s.setAgent a).barrier k = s.barrier k := by
  unfold State.setAgent; split <;> rfl

/-- The oldest held arrival whose stores have performed is made, unless its entry has been freed. -/
theorem barvArrival_makes {w : Who} {s : State} {a : Agent} {h : HeldArrival} {r : List HeldArrival} (ha : s.agent w = some a)
    (hh : a.arrivals = h :: r) (hz : h.ahead = 0) (hrot : s.rotates a = false) :
    let u := s.setAgent { a with arrivals := r }
    exec (.barvArrival w) s =
      .next (if (s.barrier h.bar).gen = h.gen then (u.handTo a h.bar).arrive h.bar h.count else u) := by
  intro u
  have hexec : exec (.barvArrival w) s = execBarvArrival w s := rfl
  have hfind : a.arrivals.find? (fun h => h.ahead == 0) = some h := by simp [hh, hz]
  have hrest : a.arrivals.erase h = r := by simp [hh]
  simp only [execBarvArrival, ha, hfind, hrot, State.makeArrival, hrest, setAgent_barrier] at hexec
  exact hexec

/-- What an arrival hands on, and an observation takes up, is notes of monitored lines. -/
theorem OnlyNotes.barrier_eq {s t : State} (h : OnlyNotes s t) (k : Nat) : t.barrier k = s.barrier k := by
  obtain ⟨m, n, rfl⟩ := h
  rfl

theorem handTo_notes (s : State) (a : Agent) (k : Nat) : OnlyNotes s (s.handTo a k) := passHold_notes s _ _

theorem takeFrom_notes (s : State) (a : Agent) (k : Nat) : OnlyNotes s (s.takeFrom a k) := passHold_notes s _ _

/-- Settles O23: an entry by whether its phase is complete and whether a reference is the last, a wait by its phase and its
deadline, and a held arrival by whether its entry still stands. -/
theorem barrierPhases : Obligations.BarrierPhases := by
  unfold Obligations.BarrierPhases
  refine ⟨⟨fun b hl hp hc => settle_flips hl hp hc, statusWord_bit, fun b h => settle_stays h, fun b h => release_shared h,
    fun b h => by rw [release_last h]; exact ⟨rfl, rfl⟩, arrive_barrier, statusMerge_comm,
    fun s k bytes arr st r hc ha => ?fits, fun s k bytes arr st r h => countInto_over h⟩,
    fun a d x => ⟨wake_wait a d x, wake_pc a d x, wake_pos a d x, wake_em a d x, wake_readG a d x,
      fun k l hl => wake_readV a d x k hl⟩,
    fun w s a d k p t ha hw => ⟨bwait_flips ha hw, bwait_stays ha hw⟩, fun s a d n h => oweWide_plain d n h,
    fun w s a d k p T ha hw => ⟨bwaitt_timesOut ha hw, bwaitt_early ha hw⟩, fun w s a h r ha hh hz hrot => ?arrival,
    fun s a k => ⟨(handTo_notes s a k).mem_eq, (takeFrom_notes s a k).mem_eq,
      fun j => ⟨(handTo_notes s a k).barrier_eq j, (takeFrom_notes s a k).barrier_eq j⟩⟩⟩
  case fits =>
    rw [countInto_fits hc ha]
    exact ⟨barrier_setBarrier_same .., rfl⟩
  case arrival =>
    have hmakes := barvArrival_makes ha hh hz hrot
    exact ⟨fun hg => hmakes.trans (congrArg _ (if_pos hg)), fun hg => hmakes.trans (congrArg _ (if_neg hg))⟩

end Sys2Proof.Proofs
end

section
/-!
PROOF. Copy commands perform (R154 to R156, R176, R178, R179): a tile command by its reads and its writes, a CPYT whose writes are
held by its time, and rows by what their moves report.
-/
namespace Sys2Proof.Proofs
open Sys2Proof.Machine Sys2Proof.Laws

/-! A command's place in its queue, and a command that cannot go on (R179, R311). -/

theorem dropCopy_die (s : State) (die : Nat) (held : Bool) (i : Nat) :
    (s.dropCopy die held i).die die = (s.die die).withCopy held (((s.die die).copies held).eraseIdx i) := die_setDie_same ..

section
variable {s t : State} {die i : Nat} {held : Bool} {c : CopyCmd} {st : DWord}

theorem stallCopy_waits (h : metWait st = true) : s.stallCopy t die held i c st = .next (s.keepMisses t die) := if_pos h

theorem stallCopy_again (h : metWait st = false) (hc : c.stall.isSome = true) :
    s.stallCopy t die held i c st = .refused .notDue := (if_neg (Bool.eq_false_iff.1 h)).trans (if_pos hc)

theorem stallCopy_first (h : metWait st = false) (hc : c.stall = none) :
    s.stallCopy t die held i c st = .next (s.setCopy die held i { c with stall := some (s.die die).time }) :=
  (if_neg (Bool.eq_false_iff.1 h)).trans (if_neg (by simp [hc]))

/-- What a status that meets a lock and no wait leaves of the command. -/
theorem stallCopy_locked (h : metWait st = false) :
    (c.stall.isSome = true → s.stallCopy t die held i c st = .refused .notDue) ∧
    (c.stall = none → s.stallCopy t die held i c st =
      .next (s.setCopy die held i { c with stall := some (s.die die).time })) := ⟨stallCopy_again h, stallCopy_first h⟩

end

/-! What a command's writes leave (R150, R178). -/

@[simp] theorem cleanUnits_goesOut (s : State) (u v : UnitKey) (ks : List Nat) : (s.cleanUnits u ks).goesOut v = s.goesOut v := by
  unfold State.cleanUnits; split <;> rfl

/-- A command that asks no peer to write counts and leaves. -/
theorem endCopy_counts {before s : State} {die i : Nat} {held : Bool} {c : CopyCmd} {ks : List Nat}
    (h : s.goesOut c.unit = false ∨ ks.any isPeerKey = false) :
    State.endCopy before s die held i c false ks =
      ((s.cleanUnits c.unit ks).dropCopy die held i).complete c.completion (s.die die).time := by
  simp only [State.endCopy, Bool.false_eq_true, if_false, cleanUnits_goesOut]
  refine if_neg ?_
  rintro ⟨hgoes, hpeer⟩
  rcases h with h | h
  · rw [h] at hgoes
    exact absurd hgoes Bool.false_ne_true
  · rw [h] at hpeer
    exact absurd hpeer Bool.false_ne_true

/-- The bytes that a command has written to a replicated page become a commit, and memory takes the old ones back. -/
theorem commitWrites_plain {before after : State} {e : Issuer} {ks : List Nat} {timed : Option (DWord × DWord × Nat)}
    {done : Completion} (h : after.snapOf e.agent.unit = none) :
    let own := ks.eraseDups.map fun k => (k - e.die * 2 ^ 37, after.readByte e.agent.unit k)
    let a := after.copyReplicas e.agent.unit e.die own
    (State.commitWrites before after e ks timed done).commits =
      a.commits ++ [⟨e.seq, own, a.replicaDies e.agent.unit.ctx, false, 0, done, timed, false⟩] ∧
    (State.commitWrites before after e ks timed done).mem =
      Memory.writeAll a.mem (ks.map fun k => (k, Memory.read before.mem k)) := by
  simp only [State.commitWrites, h, Option.isSome_none, Bool.false_eq_true, if_false, and_self]

section
variable {s : State} {die i : Nat} {held : Bool} {c : CopyCmd} {op : Nat} {src dst : TileRef} {cs : List (Nat × Nat × Nat)}
  {st : DWord}

theorem performTile_stalls
    (h : metWait (s.writeTile (c.issuer die) op src dst cs).2.2 = true ∨ metLock (s.writeTile (c.issuer die) op src dst cs).2.2 = true) :
    s.performTile die held i c op src dst cs st =
      s.stallCopy (s.writeTile (c.issuer die) op src dst cs).1 die held i c (s.writeTile (c.issuer die) op src dst cs).2.2 :=
  if_pos (Bool.or_eq_true_iff.2 h)

section
variable (hlock : metLock (s.writeTile (c.issuer die) op src dst cs).2.2 = false)
  (hwait : metWait (s.writeTile (c.issuer die) op src dst cs).2.2 = false)
include hlock hwait

/-- The command as it stands once its writes have performed. -/
theorem performTile_plain (hrepl : trRepl dst.record = false) : s.performTile die held i c op src dst cs st =
    .next (State.endCopy s (s.writeTile (c.issuer die) op src dst cs).1 die held i
      { c with bytes := dst.byteCount,
               status := statusMerge c.status (statusMerge st (s.writeTile (c.issuer die) op src dst cs).2.2) } false
      (s.writeTile (c.issuer die) op src dst cs).2.1) := by
  simp only [State.performTile, hlock, hwait, hrepl, Bool.or_self, Bool.false_and, Bool.false_eq_true, if_false, false_and]

theorem performTile_replicated (hrepl : trRepl dst.record = true) (hdet : c.env.det = false) :
    s.performTile die held i c op src dst cs st =
      if s.commitPending die (s.writeTile (c.issuer die) op src dst cs).2.1 = true then .refused .notDue
      else .next (State.endCopy s (s.writeTile (c.issuer die) op src dst cs).1 die held i
        { c with bytes := dst.byteCount,
                 status := statusMerge c.status (statusMerge st (s.writeTile (c.issuer die) op src dst cs).2.2) } true
        (s.writeTile (c.issuer die) op src dst cs).2.1) := by
  simp only [State.performTile, hlock, hwait, hrepl, hdet, Bool.or_self, Bool.not_false, Bool.true_and, Bool.false_eq_true,
    if_false, and_false]

end

end

/-! A tile command performs (R154, R155). -/

section
variable {die i : Nat} {s : State} {c : CopyCmd} {op : Nat} {src dst : TileRef} (hi : (s.die die).copyQ[i]? = some c)
  (hw : c.work = .tile op src dst)
include hi

theorem copyComplete_unanswered (ha : s.answered die c.seq = false) :
    exec (.copyCommandComplete die i) s = .refused .notDue := by
  have hexec : exec (.copyCommandComplete die i) s = execCopyCommandComplete die i s := rfl
  simp only [execCopyCommandComplete, hi, ha] at hexec
  exact hexec

include hw

theorem copyComplete_acknowledged (ha : s.answered die c.seq = true) (hstage : c.stage = 2) :
    exec (.copyCommandComplete die i) s = .next ((s.dropCopy die false i).complete c.completion (s.die die).time) := by
  have hexec : exec (.copyCommandComplete die i) s = execCopyCommandComplete die i s := rfl
  simp only [execCopyCommandComplete, hi, ha, hw, Bool.not_true, Bool.false_eq_true, if_false] at hexec
  exact hexec.trans (if_pos hstage)

/-- A command that asks no peer reads its source; what it meets there stalls it, and a CPYT's writes are held from then on. -/
theorem copyComplete_reads (ha : s.answered die c.seq = true) (hstage : c.stage = 0)
    (hsrc : s.peerKeysOf (c.issuer die) (trSpace src.record) (src.addrs dst.positions) = [])
    (hdst : op ≠ 0 → s.peerKeysOf (c.issuer die) (trSpace dst.record) (dst.addrs dst.positions) = []) :
    let r := s.readCodes (c.issuer die) src dst.positions
    exec (.copyCommandComplete die i) s =
      if (metLock r.2.2 || metWait r.2.2) = true then s.stallCopy r.1 die false i c r.2.2
      else if c.time.isSome = true then
        .next ((r.1.dropCopy die false i).setDie die { (r.1.dropCopy die false i).die die with
          heldT := ((r.1.dropCopy die false i).die die).heldT ++ [{ c with codes := r.2.1, status := statusMerge c.status r.2.2 }] })
      else r.1.performTile die false i c op src dst r.2.1 r.2.2 := by
  intro r
  have hexec : exec (.copyCommandComplete die i) s = execCopyCommandComplete die i s := rfl
  have hpeers : (if op = 0 then [] else s.peerKeysOf (c.issuer die) (trSpace dst.record) (dst.addrs dst.positions)) = [] := by
    split
    · rfl
    next h => exact hdst h
  simp only [execCopyCommandComplete, hi, ha, hw, hsrc, hpeers, Bool.not_true, Bool.false_eq_true, if_false, List.append_nil,
    List.isEmpty_nil, and_false] at hexec
  rw [hw]
  exact hexec.trans (if_neg (by omega))

end

section
variable {die i : Nat} {s : State} {c : CopyCmd} {op : Nat} {src dst : TileRef}

/-- What a command to a replicated page leaves, where no other commit of its bytes is under way. -/
theorem endCopy_commits {before after : State} {ks : List Nat} (h : after.snapOf c.unit = none) :
    let own := ks.eraseDups.map fun k => (k - die * 2 ^ 37, after.readByte c.unit k)
    let t := State.endCopy before after die false i c true ks
    ∃ k : Commit, t.commits = (after.copyReplicas c.unit die own).commits ++ [k] ∧ k.seq = c.seq ∧ k.locked = false ∧
      k.cells = own ∧
      t.mem = Memory.writeAll (after.copyReplicas c.unit die own).mem (ks.map fun k => (k, Memory.read before.mem k)) := by
  intro own t
  obtain ⟨hcommits, hmem⟩ := commitWrites_plain (before := before) (e := c.issuer die) (ks := ks)
    (timed := c.time.map fun t => (t, c.throttle, c.dest)) (done := c.completion) h
  exact ⟨_, hcommits, rfl, rfl, rfl, hmem⟩

/-- The clauses of `Obligations.CopyPerformResults` on a tile command. -/
theorem copyComplete_results (hi : (s.die die).copyQ[i]? = some c) (hw : c.work = .tile op src dst) :
    (s.answered die c.seq = false → exec (.copyCommandComplete die i) s = .refused .notDue) ∧
    (s.answered die c.seq = true → c.stage = 2 → exec (.copyCommandComplete die i) s = .next
      ((s.dropCopy die false i).complete c.completion (s.die die).time)) ∧
    (s.answered die c.seq = true → c.stage = 0 → s.peerKeysOf (c.issuer die) (trSpace src.record) (src.addrs dst.positions) = [] →
      (op ≠ 0 → s.peerKeysOf (c.issuer die) (trSpace dst.record) (dst.addrs dst.positions) = []) →
      let r := s.readCodes (c.issuer die) src dst.positions
      let w := r.1.writeTile (c.issuer die) op src dst r.2.1
      let goesOn' := metLock w.2.2 = false ∧ metWait w.2.2 = false
      let goesOn := metLock r.2.2 = false ∧ metWait r.2.2 = false
      (metWait r.2.2 = true → exec (.copyCommandComplete die i) s = .next (s.keepMisses r.1 die)) ∧
      (metWait r.2.2 = false → metLock r.2.2 = true →
        (c.stall.isSome = true → exec (.copyCommandComplete die i) s = .refused .notDue) ∧
        (c.stall = none → exec (.copyCommandComplete die i) s =
          .next (s.setCopy die false i { c with stall := some (s.die die).time }))) ∧
      (goesOn → c.time = none → metWait w.2.2 = true → exec (.copyCommandComplete die i) s = .next (r.1.keepMisses w.1 die)) ∧
      (goesOn → c.time = none → metWait w.2.2 = false → metLock w.2.2 = true →
        (c.stall.isSome = true → exec (.copyCommandComplete die i) s = .refused .notDue) ∧
        (c.stall = none → exec (.copyCommandComplete die i) s =
          .next (r.1.setCopy die false i { c with stall := some (r.1.die die).time }))) ∧
      (goesOn → c.time = none → goesOn' → trRepl dst.record = false → exec (.copyCommandComplete die i) s =
        .next (State.endCopy r.1 w.1 die false i
          { c with bytes := dst.byteCount, status := statusMerge c.status (statusMerge r.2.2 w.2.2) } false w.2.1)) ∧
      (goesOn → c.time = none → goesOn' → trRepl dst.record = true → c.env.det = false →
        (r.1.commitPending die w.2.1 = true → exec (.copyCommandComplete die i) s = .refused .notDue) ∧
        (r.1.commitPending die w.2.1 = false → w.1.snapOf c.unit = none → Answers (.copyCommandComplete die i) s fun t => ∃ k : Commit,
          let own := w.2.1.eraseDups.map fun k => (k - die * 2 ^ 37, w.1.readByte c.unit k)
          t.commits = (w.1.copyReplicas c.unit die own).commits ++ [k] ∧ k.seq = c.seq ∧ k.locked = false ∧ k.cells = own ∧
          t.mem = Memory.writeAll (w.1.copyReplicas c.unit die own).mem (w.2.1.map fun k => (k, Memory.read r.1.mem k)))) ∧
      (goesOn → c.time.isSome = true → Answers (.copyCommandComplete die i) s fun t =>
        (t.die die).heldT = (r.1.die die).heldT ++ [{ c with codes := r.2.1, status := statusMerge c.status r.2.2 }] ∧
        (t.die die).copyQ = (r.1.die die).copyQ.eraseIdx i ∧ t.mem = r.1.mem)) := by
  refine ⟨copyComplete_unanswered hi, copyComplete_acknowledged hi hw, fun ha hstage hsrc hdst => ?_⟩
  intro r w goesOn' goesOn
  have hexec := copyComplete_reads hi hw ha hstage hsrc hdst
  have hstalls (h : metWait r.2.2 = true ∨ metLock r.2.2 = true) :
      exec (.copyCommandComplete die i) s = s.stallCopy r.1 die false i c r.2.2 :=
    hexec.trans (if_pos (Bool.or_eq_true_iff.2 h.symm))
  have hgoes (h : goesOn) : ¬(metLock r.2.2 || metWait r.2.2) = true := by simp [h.1, h.2]
  have hwrites (h : goesOn) (ht : c.time = none) :
      exec (.copyCommandComplete die i) s = r.1.performTile die false i c op src dst r.2.1 r.2.2 :=
    hexec.trans ((if_neg (hgoes h)).trans (if_neg (by simp [ht])))
  refine ⟨fun h => ?waits, fun hwait h => ?locked, fun h ht hwait => ?writeWaits, fun h ht hwait hlock => ?writeLocked,
    fun h ht hon hrepl => ?plain, fun h ht hon hrepl hdet => ⟨fun hp => ?pending, fun hp hsnap => ?commits⟩,
    fun h ht => ?held⟩
  case waits => rw [hstalls (.inl h), stallCopy_waits h]
  case locked =>
    rw [hstalls (.inr h)]
    exact stallCopy_locked hwait
  case writeWaits => rw [hwrites h ht, performTile_stalls (.inl hwait), stallCopy_waits hwait]
  case writeLocked =>
    rw [hwrites h ht, performTile_stalls (.inr hlock)]
    exact stallCopy_locked hwait
  case plain => rw [hwrites h ht, performTile_plain hon.1 hon.2 hrepl]
  case pending => rw [hwrites h ht, performTile_replicated hon.1 hon.2 hrepl hdet, if_pos hp]
  case commits =>
    have hnext := hwrites h ht
    rw [performTile_replicated hon.1 hon.2 hrepl hdet, if_neg (Bool.eq_false_iff.1 hp)] at hnext
    exact ⟨_, hnext, endCopy_commits hsnap⟩
  case held =>
    refine ⟨_, hexec.trans ((if_neg (hgoes h)).trans (if_pos ht)), ?_, ?_, rfl⟩
    · rw [die_setDie_same, dropCopy_die]
      rfl
    · rw [die_setDie_same, dropCopy_die]
      rfl

theorem copyComplete_badNode {raw : BitVec 256} (hi : (s.die die).copyQ[i]? = some c) (hw : c.work = .node raw)
    (ha : s.answered die c.seq = true) (hstage : c.stage ≠ 2) (hbad : bulkOk raw true = false) :
    exec (.copyCommandComplete die i) s = .next ((s.dropCopy die false i).endNode c.unit) := by
  have hexec : exec (.copyCommandComplete die i) s = execCopyCommandComplete die i s := rfl
  simp only [execCopyCommandComplete, hi, ha, hw, hbad, Bool.not_true, Bool.false_eq_true, if_false] at hexec
  exact hexec.trans ((if_neg hstage).trans (if_pos rfl))

end

/-! A CPYT whose writes are held (R155, R176). -/

section
variable {die i : Nat} {s : State} {c : CopyCmd} {op : Nat} {src dst : TileRef} {T : DWord}
  (hi : (s.die die).heldT[i]? = some c) (hw : c.work = .tile op src dst) (ht : c.time = some T)
include hi hw ht

theorem cpytRelease_early (hT : (s.die c.dest).time.toNat < T.toNat) :
    exec (.cpytWriteRelease die i) s = .refused .notDue := by
  have hexec : exec (.cpytWriteRelease die i) s = execCpytWriteRelease die i s := rfl
  simp only [execCpytWriteRelease, hi, hw, ht] at hexec
  exact hexec.trans (if_pos (.inl hT))

section
variable (hT : T.toNat ≤ (s.die c.dest).time.toNat) (ha : s.answered die c.seq = true) (hstage : c.stage = 0)
include hT ha hstage

theorem cpytRelease_missed (hm : c.missed = true) (hlate : s.isLate c.unit.ctx T (s.die c.dest).time = false) :
    exec (.cpytWriteRelease die i) s = .refused .notDue := by
  have hexec : exec (.cpytWriteRelease die i) s = execCpytWriteRelease die i s := rfl
  have hdue : ¬((s.die c.dest).time.toNat < T.toNat ∨ (!s.answered die c.seq) = true) := by simp [ha, hT]
  simp only [execCpytWriteRelease, hi, hw, ht] at hexec
  exact hexec.trans ((if_neg hdue).trans ((if_neg (by omega)).trans (if_pos (by simp [hm, hlate]))))

theorem cpytRelease_performs (hm : c.missed = false ∨ s.isLate c.unit.ctx T (s.die c.dest).time = true)
    (hrepl : trRepl dst.record = false) (hwait : metWait (s.writeTile (c.issuer die) op src dst c.codes).2.2 = false)
    (hlock : metLock (s.writeTile (c.issuer die) op src dst c.codes).2.2 = false) :
    let late := s.isLate c.unit.ctx T (s.die c.dest).time
    let w := s.writeTile (c.issuer die) op src dst c.codes
    let t := State.endCopy s w.1 die true i
      { c with bytes := dst.byteCount,
               status := statusMerge (if late = true then c.status ||| 8 else c.status) (statusMerge 0 w.2.2) } false w.2.1
    (t.die die).heldT.length < (s.die die).heldT.length → t.commits? c.seq = false →
      exec (.cpytWriteRelease die i) s = .next (t.reportLate c.unit c.dest T c.throttle 0) := by
  intro late w t hleft hcommit
  have hexec : exec (.cpytWriteRelease die i) s = execCpytWriteRelease die i s := rfl
  have hdue : ¬((s.die c.dest).time.toNat < T.toNat ∨ (!s.answered die c.seq) = true) := by simp [ha, hT]
  have hgoes : ¬(c.missed && !s.isLate c.unit.ctx T (s.die c.dest).time) = true := by
    rcases hm with h | h <;> simp [h]
  have hperf : s.performTile die true i { c with status := if late = true then c.status ||| 8 else c.status } op src dst c.codes 0
      = .next t := performTile_plain hlock hwait hrepl
  rw [hw, ht] at hperf
  simp only [execCpytWriteRelease, hi, hw, ht] at hexec
  refine hexec.trans ((if_neg hdue).trans ((if_neg (by omega)).trans ((if_neg hgoes).trans ?_)))
  rw [hperf]
  exact congrArg _ (if_pos (by simp [hleft, hcommit]))

end

end

/-! Rows move (R156). -/

/-- The statuses of rows that ask no peer, as they are joined. -/
theorem rowStatuses (xs : List (Nat × Nat)) :
    (([] : List (Nat × Nat × Nat)) ++ xs.map fun x : Nat × Nat => (x.1, x.2, 0)).map (fun x : Nat × Nat × Nat => (x.1, x.2.1)) =
      xs := by
  simp [Function.comp_def]

section
variable {die i : Nat} {s : State} {c : CopyCmd} {gather : Bool} {d : Nat} {em : Word} {offs : Lanes} {lbase rowb : Nat} {xt : Xt}

theorem gathArrive_results (hi : (s.die die).copyQ[i]? = some c) (hw : c.work = .rows gather d em offs lbase rowb xt)
    (ha : s.answered die c.seq = true) (hstage : c.stage ≠ 2) :
    let lanes := allLanes.filter fun l => em.getLsbD l
    let e := c.issuer die
    s.rowPeers e offs rowb xt lanes = [] → c.codes = [] →
    let r := s.moveRows e gather offs lbase rowb xt lanes
    let any := BitVec.ofNat 64 (r.2.2.foldl (fun n x => n ||| x.2) 0)
    (metWait any = true → exec (.gathStatusArrive die i) s = .next (s.keepMisses r.1 die)) ∧
    (metLock any = false → metWait any = false → r.2.1.any isPeerKey = false → exec (.gathStatusArrive die i) s =
      .next ((r.1.cleanUnits c.unit r.2.1).endRows die i c d em (joinRows lanes r.2.2))) := by
  intro lanes e hpeers hcodes r any
  have hexec : exec (.gathStatusArrive die i) s = execGathStatusArrive die i s := rfl
  simp only [execGathStatusArrive, hi, hw, ha, hcodes, Bool.not_true, Bool.false_eq_true, if_false, rowStatuses] at hexec
  have hasks : ¬(gather = true ∧ c.stage = 0 ∧ (!(s.rowPeers e offs rowb xt lanes).isEmpty) = true) := by simp [hpeers]
  refine ⟨fun h => ?_, fun hlock hwait hlocal => ?_⟩
  · refine hexec.trans ((if_neg hstage).trans ((if_neg hasks).trans ((if_pos ?_).trans (stallCopy_waits h))))
    exact Bool.or_eq_true_iff.2 (.inr h)
  · refine hexec.trans ((if_neg hstage).trans ((if_neg hasks).trans ((if_neg ?_).trans (if_neg ?_))))
    · exact Bool.eq_false_iff.1 (Bool.or_eq_false_iff.2 ⟨hlock, hwait⟩)
    · exact fun hpeer => Bool.eq_false_iff.1 hlocal hpeer.2.2

theorem endRows_clean {sts : List (Nat × Nat)} (h : (sts.any fun x => x.2 / 32 % 2 == 1) = false) :
    s.endRows die i c d em sts = ((s.dropCopy die false i).forget c.seq).arriveRows c.who d em sts :=
  if_neg (Bool.eq_false_iff.1 h)

end

theorem forget_mem (s : State) (n : Nat) : (s.forget n).mem = s.mem := by
  unfold State.forget; split <;> rfl

theorem forget_agents (s : State) (n : Nat) : (s.forget n).agents = s.agents := by
  unfold State.forget; split <;> rfl

/-- The status of a lane's row, as it goes to v[D]. -/
theorem oldWord_statuses (sts : List (Nat × Nat)) (l : Nat) :
    oldWord (sts.map fun x => (x.1, x.2 % 16)) l = BitVec.ofNat 32 (((sts.find? fun x => x.1 == l).elim 0 fun x => x.2) % 16) := by
  rw [oldWord, List.find?_map, Function.comp_def]
  cases sts.find? fun x => x.1 == l with
  | none => rfl
  | some x => rfl

/-- An agent that is changed in the state is the one the state then names by the same identity. -/
theorem agent_setAgent_who {s : State} {a b : Agent} (ha : s.agent a.who = some a) (hb : b.who = a.who) :
    (s.setAgent b).agent a.who = some b := by
  rw [← hb] at ha ⊢
  exact agent_setAgent_same ha

theorem arriveRows_results {s : State} {w : Who} {a : Agent} (d : Nat) (em : Word) (sts : List (Nat × Nat))
    (ha : s.agent w = some a) :
    ((s.arriveRows w d em sts).agent w).map (fun b => b.gath) =
      some (a.gath.map fun g => if g.reg = d then { g with arrived := true } else g) ∧
    (∀ l, l < 32 → ((s.arriveRows w d em sts).agent w).map (fun b => (Store.get Lanes.zero b.v d).at l) =
      some (if em.getLsbD l = true then BitVec.ofNat 32 (((sts.find? fun x => x.1 == l).elim 0 fun x => x.2) % 16)
            else (Store.get Lanes.zero a.v d).at l)) ∧
    (s.arriveRows w d em sts).mem = s.mem := by
  obtain rfl := who_of_agent ha
  simp only [State.arriveRows, ha]
  refine ⟨?_, fun l hl => ?_, setAgent_mem ..⟩
  · rw [agent_setAgent_who ha]
    · rfl
    · rfl
  · rw [agent_setAgent_who ha, Option.map_some, get_set_same, Lanes.merge, at_make, if_pos hl, loadedLanes_zero, laneResult,
      at_make, if_pos hl, oldWord_statuses]
    · split <;> rfl
    · rfl

/-- Settles O27: a tile command by what its reads and its writes meet, a held CPYT by its time and by whether a read has gone ahead
of it, and rows by what their moves report. -/
theorem copyPerformResults : Obligations.CopyPerformResults := by
  unfold Obligations.CopyPerformResults
  exact ⟨fun die i s c op src dst hi hw => copyComplete_results hi hw,
    fun die i s c raw hi hw ha hstage hbad => copyComplete_badNode hi hw ha hstage hbad,
    fun die i s c op src dst T hi hw ht => ⟨cpytRelease_early hi hw ht, fun hT ha hstage =>
      ⟨cpytRelease_missed hi hw ht hT ha hstage, fun hm hrepl hwait hlock _ =>
        cpytRelease_performs hi hw ht hT ha hstage hm hrepl hwait hlock⟩⟩,
    fun before s die held i c ks h => endCopy_counts h,
    fun die i s c gather d em offs lbase rowb xt hi hw ha hstage => gathArrive_results hi hw ha hstage,
    fun s die i c d em sts h => endRows_clean h, fun s n => ⟨forget_mem s n, forget_agents s n⟩,
    fun s w a d em sts ha => arriveRows_results d em sts ha⟩

end Sys2Proof.Proofs
end

section
/-!
PROOF. Page requests (R157, R318) and the bulk queue of a block (R158 to R161, R202): what is answered, what is taken, which entry
starts, and the record of its completion.
-/
namespace Sys2Proof.Proofs
open Sys2Proof.Machine Sys2Proof.Laws

/-! Page requests (R157, R318). -/

/-- The state that PGREQ answers in, by the status of its pages: a present range has arrived, an absent one is asked for. -/
def pageAnswer (t : State) (st : Nat) (va : Option Nat) (len : Nat) (bar : Option Nat) (r : Reporter) : State :=
  if st = 1 then (t.retainOpt bar).arriveOpt bar 0 r else if st = 0 then t.queuePage (va.getD 0) len bar else t

section
variable {t : State} {st len : Nat} {va : Option Nat} {bar : Option Nat} {r : Reporter}

theorem pageAnswer_fails (h : st = 3 ∨ st = 2) : pageAnswer t st va len bar r = t := by
  rcases h with rfl | rfl <;> rfl

theorem pageAnswer_present : pageAnswer t 1 va len bar r = (t.retainOpt bar).arriveOpt bar 0 r := rfl

theorem pageAnswer_absent : pageAnswer t 0 va len bar r = t.queuePage (va.getD 0) len bar := rfl

end

theorem elim_eq_getD {α : Type} (o : Option α) (f : α → Nat) : (o.elim 0 f) = (o.map f).getD 0 := by
  cases o <;> rfl

/-- PGREQ by what its operands are and what the walks of its pages come to. -/
theorem pgreq_results {b a d : BitVec 7} {s : State} (hc : Clear (gNeed .core [d, a, b]) s) :
    let ctl := s.me.readG b.toNat
    let len := (ctl.extractLsb' 0 32).toNat
    let va := ((s.me.readG a.toNat).extractLsb' 0 56).toNat
    let bar := s.handle (ctl.extractLsb' 32 16)
    let bad := len = 0 ∨ 2 ^ 30 < len ∨ ctl.extractLsb' 48 16 ≠ 0 ∨ 2 ^ 56 < va + len
    (bad → Answers (.pgreq b a d) s fun t => GroupEffect s t d.toNat 3 true) ∧
    (¬bad →
      let q := s.pageOutcomes s.me.unit (.agent s.me.who) s.me.place.die s.me.ctx ((va + len - 1) / 2 ^ 16 + 1 - va / 2 ^ 16) (va / 2 ^ 16)
      let waits := (q.2.any fun x => x.2 == .waits) = true
      (waits → exec (.pgreq b a d) s = .next (s.keepMisses q.1 s.me.place.die)) ∧
      (¬waits →
        (q.1.pgStatus q.2 = 3 ∨ q.1.pgStatus q.2 = 2 → Answers (.pgreq b a d) s fun t =>
          GroupEffect q.1 t d.toNat (BitVec.ofNat 64 (q.1.pgStatus q.2)) true) ∧
        (q.1.pgStatus q.2 = 1 → bar = none → Answers (.pgreq b a d) s fun t => GroupEffect q.1 t d.toNat 1 true) ∧
        (q.1.pgStatus q.2 = 1 → ∀ k, bar = some k → Answers (.pgreq b a d) s fun t =>
          GroupEffect ((q.1.setBarrier k (q.1.barrier k).retain).arriveOpt (some k) 0
            ⟨s.me.ctx, s.me.unit.launch, some s.me.unit.index, s.me.env.det, (ctl.extractLsb' 32 16).setWidth 64, s.now⟩)
            t d.toNat 1 true) ∧
        (q.1.pgStatus q.2 = 0 → ∀ va', (q.2.find? fun x => x.2 == .notPresent).map (fun x => x.1 * 2 ^ 16) = some va' →
          exec (.pgreq b a d) s = .next ((q.1.queuePage va' len bar).finishG d 0 true)))) := by
  intro ctl len va bar bad
  have hexec : exec (.pgreq b a d) s = execPgreq b a d s := rfl
  simp only [execPgreq, guard_gNeed hc, Agent.g7, bitsOf_eq_extractLsb'] at hexec
  have hbad : (len = 0 ∨ 2 ^ 30 < len ∨ (ctl.extractLsb' 48 16).toNat ≠ 0 ∨ 2 ^ 56 < va + len) ↔ bad := by
    simp only [bad, ne_eq, BitVec.toNat_eq, BitVec.ofNat_eq_ofNat, BitVec.toNat_ofNat, Nat.zero_mod, len, va]
  refine ⟨fun h => ⟨_, hexec.trans (if_pos (hbad.2 h)), finishG_effect ..⟩, fun h => ?_⟩
  intro q waits
  have hgood := hexec.trans (if_neg (hbad.not.2 h))
  refine ⟨fun hw => hgood.trans (if_pos hw), fun hw => ?_⟩
  have hanswers : exec (.pgreq b a d) s = .next ((pageAnswer q.1 (q.1.pgStatus q.2)
      ((q.2.find? fun x => x.2 == .notPresent).map fun x => x.1 * 2 ^ 16) len bar
      ⟨s.me.ctx, s.me.unit.launch, some s.me.unit.index, s.me.env.det, (ctl.extractLsb' 32 16).setWidth 64, s.now⟩).finishG d
      (BitVec.ofNat 64 (q.1.pgStatus q.2)) true) := by
    rw [pageAnswer, ← elim_eq_getD]
    exact hgood.trans (if_neg hw)
  refine ⟨fun hst => ?fails, fun hst hbar => ?present, fun hst k hbar => ?arrives, fun hst va' hva => ?queued⟩
  case fails =>
    rw [pageAnswer_fails hst] at hanswers
    exact ⟨_, hanswers, finishG_effect ..⟩
  case present =>
    rw [hst, pageAnswer_present, hbar] at hanswers
    exact ⟨_, hanswers, finishG_effect q.1 d 1 true⟩
  case arrives =>
    rw [hst, pageAnswer_present, hbar] at hanswers
    exact ⟨_, hanswers, finishG_effect _ d 1 true⟩
  case queued =>
    rw [hst, pageAnswer_absent, hva] at hanswers
    exact hanswers

/-- A page request joins the ring of its partition (R318). -/
theorem queuePage_part (s : State) (va len : Nat) (bar : Option Nat) :
    let p := s.partOf s.me.ctx
    (s.queuePage va len bar).part p =
      { s.part p with requests := (s.part p).requests ++ [⟨s.me.ctx, bar, (s.part p).pgTail.toNat % 256⟩],
                      pgTail := (s.part p).pgTail + 1 } := part_setPart_same ..

theorem OnlyArrivals.part {s t : State} (h : OnlyArrivals s t) (p : Nat) : t.part p = s.part p := by
  obtain ⟨_, _, rfl⟩ := h
  rfl

theorem OnlyArrivals.mem {s t : State} (h : OnlyArrivals s t) : t.mem = s.mem := by
  obtain ⟨_, _, rfl⟩ := h
  rfl

theorem pageRequest_results {p i : Nat} {s : State} {r : PageRequest} (hr : (s.part p).requests[i]? = some r) :
    let done := s.supRead (s.pgRing p + 64 + 32 * r.slot + 13) 1 = [1] ∨ (s.ctxReg r.ctx 0x000).getLsbD 0 = false
    (¬done → exec (.pageRequestComplete p i) s = .refused .notDue) ∧
    (done → Answers (.pageRequestComplete p i) s fun t => (t.part p).requests = (s.part p).requests.eraseIdx i ∧
      t.mem = s.mem ∧
      (∀ k, r.bar = some k → 1 ≤ (s.barrier k).pending → (s.barrier k).counted ≤ (s.barrier k).expected →
        t.barrier k = ({ s.barrier k with pending := (s.barrier k).pending - 1,
                                          cur := statusMerge (s.barrier k).cur 0 } : Barrier).settle.release)) := by
  intro done
  have hexec : exec (.pageRequestComplete p i) s = execPageRequestComplete p i s := rfl
  have hdone : (s.supRead (s.pgRing p + 64 + 32 * r.slot + 13) 1 == [1] || !(s.ctxReg r.ctx 0x000).getLsbD 0) = true ↔ done := by
    simp only [done, Bool.or_eq_true, beq_iff_eq, Bool.not_eq_true']
  simp only [execPageRequestComplete, hr] at hexec
  refine ⟨fun h => hexec.trans (if_neg (hdone.not.2 h)), fun h => ⟨_, hexec.trans (if_pos (hdone.2 h)), ?_⟩⟩
  have harrive := arriveOpt_arrivals (s.setPart p { s.part p with requests := (s.part p).requests.eraseIdx i }) r.bar 0
    ⟨r.ctx, 0, none, false, 0, (s.die 8).time⟩
  refine ⟨?_, harrive.mem, fun k hk hpending hcounted => ?_⟩
  · exact congrArg Partition.requests ((harrive.part p).trans (part_setPart_same ..))
  · rw [hk]
    exact arriveOpt_barrier _ _ hpending hcounted

/-! A publication (R158, R159). -/

theorem setBulk_keeps (s : State) (u : UnitKey) (q : BulkQueue) :
    (s.setBulk u q).pending = s.pending ∧ (s.setBulk u q).mem = s.mem := by
  unfold State.setBulk; split <;> exact ⟨rfl, rfl⟩

theorem queuePoison_mem (s : State) (x : WorkUnit) (e : Issuer) (ps : List (Nat × Nat)) : (s.queuePoison x e ps).mem = s.mem := by
  unfold State.queuePoison; split <;> rfl

/-- A queue fault is one record more, which names QUEUE_ENTRY. -/
theorem queueFault_setBulk (s : State) (u : UnitKey) (q : BulkQueue) (x : WorkUnit) :
    let t := (s.setBulk u q).queueFault x
    t.pending.getLast?.map (fun p => p.cause) = some .queueEntry ∧ t.pending.length = s.pending.length + 1 ∧ t.mem = s.mem := by
  obtain ⟨hpending, hmem⟩ := setBulk_keeps s u q
  refine ⟨?_, ?_, hmem⟩
  · simp only [State.queueFault, raiseFor, raiseAsync, List.getLast?_concat, Option.map_some]
  · simp only [State.queueFault, raiseFor, raiseAsync, List.length_append, List.length_singleton, hpending]

theorem bulkPublish_due {x : WorkUnit} {b : BulkQueue} (hp : b.published = true) (hs : x.saved = false) :
    ¬(!b.published || x.saved) = true := by simp [hp, hs]

section
variable {u : UnitKey} {s : State} {x : WorkUnit} {b : BulkQueue} (hu : s.unit u = some x) (hb : x.bulk = some b)
include hu hb

theorem bulkPublish_refused (h : b.published = false ∨ x.saved = true) : exec (.bulkQueuePublish u) s = .refused .notDue := by
  have hexec : exec (.bulkQueuePublish u) s = execBulkQueuePublish u s := rfl
  simp only [execBulkQueuePublish, hu, hb] at hexec
  refine hexec.trans (if_pos ?_)
  rcases h with h | h <;> simp [h]

section
variable (hp : b.published = true) (hs : x.saved = false)
include hp hs

theorem bulkPublish_badControl (hserving : b.serving = false) :
    let q := s.readControl (s.bulkIssuer x) b.control
    let m := s.queuePoison x (s.bulkIssuer x) [(b.control, 32)]
    m.controlOk (s.bulkIssuer x) q = false → Answers (.bulkQueuePublish u) s fun t =>
      t.pending.getLast?.map (fun p => p.cause) = some .queueEntry ∧ t.pending.length = m.pending.length + 1 ∧ t.mem = s.mem := by
  intro q m hbad
  have hexec : exec (.bulkQueuePublish u) s = execBulkQueuePublish u s := rfl
  simp only [execBulkQueuePublish, hu, hb, if_neg (Bool.eq_false_iff.1 hserving)] at hexec
  obtain ⟨hcause, hlen, hmem⟩ := queueFault_setBulk m u { b with published := false } x
  exact ⟨_, hexec.trans ((if_neg (bulkPublish_due hp hs)).trans (if_pos ⟨Bool.not_eq_true' _ ▸ hserving, Bool.not_eq_true' _ ▸ hbad⟩)), hcause, hlen,
    hmem.trans (queuePoison_mem ..)⟩

theorem bulkPublish_takes (hserving : b.serving = true) :
    let e := s.bulkIssuer x
    let m := s.queuePoison x e [(b.control, 32)]
    let prod := m.prodOf e b.control
    let n := (prod - b.cons).toNat
    let v := m.queuePoison x e ((List.range n).map fun i => (b.ringBase.toNat + 32 * ((b.cons.toNat + i) % b.nent), 32))
    (b.nent < n → Answers (.bulkQueuePublish u) s fun t =>
      t.pending.getLast?.map (fun p => p.cause) = some .queueEntry ∧ t.mem = s.mem) ∧
    (n ≤ b.nent → Answers (.bulkQueuePublish u) s fun t =>
      t = (((v.takeEntries x e { b with published := false } n b.cons).bulkSet e (b.control + 12) 4
        prod.toNat).setBulk u { b with published := false, cons := prod })) := by
  intro e m prod n v
  have hexec : exec (.bulkQueuePublish u) s = execBulkQueuePublish u s := rfl
  simp only [execBulkQueuePublish, hu, hb, if_pos hserving] at hexec
  have htakes := hexec.trans ((if_neg (bulkPublish_due hp hs)).trans (if_neg (by simp [hserving])))
  refine ⟨fun h => ⟨_, htakes.trans (if_pos h), ?_⟩, fun h => ⟨_, htakes.trans (if_neg (Nat.not_lt.2 h)), rfl⟩⟩
  obtain ⟨hcause, -, hmem⟩ := queueFault_setBulk m u { b with published := false } x
  exact ⟨hcause, hmem.trans (queuePoison_mem ..)⟩

end

end

/-! The entry that starts (R160). -/

theorem deadlineBefore_self (a : Option Nat) : deadlineBefore a a = false := by
  cases a with
  | none => rfl
  | some a => exact decide_eq_false (Nat.lt_irrefl a)

theorem deadlineBefore_trans {a b c : Option Nat} (hab : deadlineBefore a b = true) (hbc : deadlineBefore b c = true) :
    deadlineBefore a c = true := by
  match a, b, c with
  | none, _, _ => exact hab
  | some _, none, _ => exact absurd hbc Bool.false_ne_true
  | some _, some _, none => rfl
  | some _, some _, some _ =>
    simp only [deadlineBefore, decide_eq_true_eq] at hab hbc ⊢
    exact Nat.lt_trans hab hbc

/-- What the scan for the entry to start has found among the entries it has seen: none that is ready, or one that is, before whose
deadline no other ready one's comes. -/
def Scanned (s : State) (q : List BulkEntry) (seen : List (Nat × BulkEntry)) : Option (Nat × BulkEntry) → Prop
  | none => ∀ x ∈ seen, bulkReady q x.1 x.2 = false
  | some y => y ∈ seen ∧ bulkReady q y.1 y.2 = true ∧
      ∀ x ∈ seen, bulkReady q x.1 x.2 = true → deadlineBefore (s.deadlineOf x.2) (s.deadlineOf y.2) = false

section
variable {s : State} {q : List BulkEntry} {seen : List (Nat × BulkEntry)} {x y : Nat × BulkEntry}

theorem Scanned.skip {best : Option (Nat × BulkEntry)} (h : Scanned s q seen best) (hx : bulkReady q x.1 x.2 = false) :
    Scanned s q (seen ++ [x]) best := by
  cases best with
  | none => exact List.forall_mem_append.2 ⟨h, List.forall_mem_singleton.2 hx⟩
  | some y =>
    obtain ⟨hmem, hready, hleast⟩ := h
    refine ⟨List.mem_append_left _ hmem, hready, List.forall_mem_append.2 ⟨hleast, List.forall_mem_singleton.2 fun h => ?_⟩⟩
    exact absurd (hx.symm.trans h) Bool.false_ne_true

theorem Scanned.first (h : Scanned s q seen none) (hx : bulkReady q x.1 x.2 = true) : Scanned s q (seen ++ [x]) (some x) := by
  refine ⟨List.mem_append_right _ (List.mem_singleton_self x), hx, List.forall_mem_append.2 ⟨fun z hz hready => ?_,
    List.forall_mem_singleton.2 fun _ => deadlineBefore_self _⟩⟩
  exact absurd ((h z hz).symm.trans hready) Bool.false_ne_true

theorem Scanned.earlier (h : Scanned s q seen (some y)) (hx : bulkReady q x.1 x.2 = true)
    (hb : deadlineBefore (s.deadlineOf x.2) (s.deadlineOf y.2) = true) : Scanned s q (seen ++ [x]) (some x) := by
  obtain ⟨-, -, hleast⟩ := h
  refine ⟨List.mem_append_right _ (List.mem_singleton_self x), hx, List.forall_mem_append.2 ⟨fun z hz hready => ?_,
    List.forall_mem_singleton.2 fun _ => deadlineBefore_self _⟩⟩
  exact Bool.eq_false_iff.2 fun hzx => Bool.eq_false_iff.1 (hleast z hz hready) (deadlineBefore_trans hzx hb)

theorem Scanned.later (h : Scanned s q seen (some y)) (hb : deadlineBefore (s.deadlineOf x.2) (s.deadlineOf y.2) = false) :
    Scanned s q (seen ++ [x]) (some y) := by
  obtain ⟨hmem, hready, hleast⟩ := h
  exact ⟨List.mem_append_left _ hmem, hready, List.forall_mem_append.2 ⟨hleast, List.forall_mem_singleton.2 fun _ => hb⟩⟩

end

theorem nextBulk_scanned (s : State) (q : List BulkEntry) (r : List (Nat × BulkEntry)) :
    ∀ (seen : List (Nat × BulkEntry)) (best : Option (Nat × BulkEntry)), Scanned s q seen best →
      Scanned s q (seen ++ r) (s.nextBulk q r best) := by
  induction r with
  | nil =>
    intro seen best h
    rw [List.append_nil]
    exact h
  | cons x r ih =>
    intro seen best h
    rw [List.append_cons]
    obtain ⟨i, b⟩ := x
    simp only [State.nextBulk]
    split
    next hx =>
      cases best with
      | none => exact ih _ _ (h.first hx)
      | some y =>
        refine ih _ _ ?_
        obtain ⟨k, c⟩ := y
        split
        next hb => exact h.earlier hx hb
        next hb => exact h.later (Bool.eq_false_iff.2 hb)
    next hx => exact ih _ _ (h.skip (Bool.eq_false_iff.2 hx))

theorem mem_numbered {α : Type} {xs : List α} {i : Nat} {x : α} : (i, x) ∈ numbered xs ↔ xs[i]? = some x := by
  rw [numbered, List.mem_iff_getElem?]
  constructor
  · rintro ⟨k, hk⟩
    obtain ⟨hrange, hx⟩ := List.getElem?_zip_eq_some.1 hk
    obtain ⟨hk, hrange⟩ := List.getElem?_eq_some_iff.1 hrange
    obtain rfl : k = i := (List.getElem_range hk).symm.trans hrange
    exact hx
  · intro h
    obtain ⟨hi, -⟩ := List.getElem?_eq_some_iff.1 h
    exact ⟨i, List.getElem?_zip_eq_some.2 ⟨List.getElem?_range hi, h⟩⟩

theorem bulkEntryStart_earliest {die : Nat} {s : State}
    (h : ∃ b ∈ numbered (s.die die).bulkQ, bulkReady (s.die die).bulkQ b.1 b.2 = true) :
    Answers (.bulkEntryStart die) s fun t => ∃ i b, (s.die die).bulkQ[i]? = some b ∧ bulkReady (s.die die).bulkQ i b = true ∧
      (t.die die).bulkQ = (s.die die).bulkQ.set i { b with started := true } ∧ t.mem = s.mem ∧
      ∀ k c, (s.die die).bulkQ[k]? = some c → bulkReady (s.die die).bulkQ k c = true →
        deadlineBefore (s.deadlineOf c) (s.deadlineOf b) = false := by
  have hscan := nextBulk_scanned s (s.die die).bulkQ (numbered (s.die die).bulkQ) [] none (by simp [Scanned])
  have hexec : exec (.bulkEntryStart die) s = execBulkEntryStart die s := rfl
  rw [List.nil_append] at hscan
  obtain ⟨x, hx, hready⟩ := h
  cases hnext : s.nextBulk (s.die die).bulkQ (numbered (s.die die).bulkQ) none with
  | none =>
    rw [hnext] at hscan
    exact absurd ((hscan x hx).symm.trans hready) Bool.false_ne_true
  | some y =>
    obtain ⟨i, b⟩ := y
    rw [hnext] at hscan
    simp only [execBulkEntryStart, hnext] at hexec
    obtain ⟨hmem, hready, hleast⟩ := hscan
    exact ⟨_, hexec, i, b, mem_numbered.1 hmem, hready, by rw [die_setDie_same], rfl,
      fun k c hk => hleast (k, c) (mem_numbered.2 hk)⟩

/-! An entry completes (R159, R161). -/

section
variable {die i : Nat} {s : State} {b : BulkEntry} {x : WorkUnit} (hi : (s.die die).bulkQ[i]? = some b) (hu : s.unit b.unit = some x)
include hi hu

theorem bulkComplete_unstarted (hstart : b.started = false) : exec (.bulkEntryComplete die i) s = .refused .notDue := by
  have hexec : exec (.bulkEntryComplete die i) s = execBulkEntryComplete die i s := rfl
  simp only [execBulkEntryComplete, hi, hu] at hexec
  exact hexec.trans (if_pos (.inl (by simp [hstart])))

section
variable (hstart : b.started = true) (ha : s.answered die b.seq = true)
include hstart ha

theorem bulkComplete_bad {c : Cause} (hbad : b.bad = some c) :
    exec (.bulkEntryComplete die i) s = .next (s.endBulk die i b (errStatus c)) := by
  have hexec : exec (.bulkEntryComplete die i) s = execBulkEntryComplete die i s := rfl
  simp only [execBulkEntryComplete, hi, hu, hbad] at hexec
  exact hexec.trans (if_neg (by simp [hstart, ha]))

theorem bulkComplete_moves (hbad : b.bad = none) (hstage : b.stage = 0) :
    let e : Issuer := { s.bulkIssuer x with windows := b.windows, seq := b.seq }
    s.bulkPeers e b.raw = [] →
    let r := s.bulkSource e b.raw
    let w := r.1.bulkMove e b.raw r.2.1
    (metWait r.2.2 = true ∨ metWait w.2.2 = true → exec (.bulkEntryComplete die i) s = .next (s.keepMisses w.1 die)) ∧
    (metWait r.2.2 = false → metWait w.2.2 = false → metLock r.2.2 = false → metLock w.2.2 = false → w.2.1.any isPeerKey = false →
      exec (.bulkEntryComplete die i) s =
        .next ((w.1.cleanUnits b.unit w.2.1).endBulk die i b (statusMerge b.status (statusMerge r.2.2 w.2.2)))) := by
  intro e hpeers r w
  have hexec : exec (.bulkEntryComplete die i) s = execBulkEntryComplete die i s := rfl
  have hdue : ¬((!b.started) = true ∨ (!s.answered die b.seq) = true) := by simp [hstart, ha]
  have hasks : ¬(b.stage = 0 ∧ (!(s.bulkPeers e b.raw).isEmpty) = true) := by simp [hpeers]
  simp only [execBulkEntryComplete, hi, hu, hbad] at hexec
  have hgoes := hexec.trans ((if_neg hdue).trans ((if_neg (by omega)).trans (if_neg hasks)))
  refine ⟨fun h => hgoes.trans (if_pos (Bool.or_eq_true_iff.2 h)), fun hr hw hrl hwl hlocal => ?_⟩
  refine hgoes.trans ((if_neg ?_).trans ((if_neg ?_).trans (if_neg ?_)))
  · exact Bool.eq_false_iff.1 (Bool.or_eq_false_iff.2 ⟨hr, hw⟩)
  · exact Bool.eq_false_iff.1 (Bool.or_eq_false_iff.2 ⟨hrl, hwl⟩)
  · exact fun hpeer => Bool.eq_false_iff.1 hlocal hpeer.2

end

end

/-! Completion records (R161, R202). -/

theorem recordWrite_results {u : UnitKey} {s : State} {x : WorkUnit} {q : BulkQueue} (hu : s.unit u = some x) (hq : x.bulk = some q) :
    let head := BitVec.ofNat 32 (s.bulkNum (s.bulkIssuer x) (q.control + 28) 4)
    (x.saved = true ∨ q.heldRecs = [] ∨ (q.crTail - head).toNat = q.crn →
      exec (.completionRecordWrite u) s = .refused .notDue) ∧
    (x.saved = false → q.heldRecs ≠ [] → (q.crTail - head).toNat ≠ q.crn → Answers (.completionRecordWrite u) s fun t =>
      t = (s.queuePoison x (s.bulkIssuer x) [(q.control + 28, 4)]).writeRecords x (s.bulkIssuer x) q.heldRecs.length q) := by
  intro head
  have hexec : exec (.completionRecordWrite u) s = execCompletionRecordWrite u s := rfl
  simp only [execCompletionRecordWrite, hu, hq, List.isEmpty_iff] at hexec
  refine ⟨fun h => hexec.trans (if_pos h), fun hs hheld hroom => ⟨_, hexec.trans (if_neg ?_), rfl⟩⟩
  rintro (h | h | h)
  · exact Bool.eq_false_iff.1 hs h
  · exact hheld h
  · exact hroom h

theorem leNat_append (xs ys : List Byte) : leNat (xs ++ ys) = leNat xs + 256 ^ xs.length * leNat ys := by
  induction xs with
  | nil => simp [leNat]
  | cons x xs ih =>
    simp only [List.cons_append, leNat, ih, List.length_cons, Nat.pow_succ']
    ring

theorem leNat_leBytes (n x : Nat) : leNat (leBytes n x) = x % 256 ^ n := by
  induction n generalizing x with
  | zero => simp [leNat, leBytes, Nat.mod_one]
  | succ n ih =>
    rw [leBytes, leNat, ih, BitVec.toNat_ofNat, Nat.mod_mod, Nat.pow_succ', Nat.mod_mul]

/-- The low four bits of a status, one by one. -/
theorem statusBits (st : DWord) : (bit64 (st.getLsbD 0)).toNat + 2 * (bit64 (st.getLsbD 1)).toNat + 4 * (bit64 (st.getLsbD 2)).toNat +
    8 * (bit64 (st.getLsbD 3)).toNat = st.toNat % 16 := by
  have hbit (i : Nat) : (bit64 (st.getLsbD i)).toNat = st.toNat / 2 ^ i % 2 := by
    rw [← BitVec.testBit_toNat, Nat.testBit_eq_decide_div_mod_eq, bit64]
    have := Nat.mod_two_eq_zero_or_one (st.toNat / 2 ^ i)
    rcases this with h | h <;> simp [h]
  simp only [hbit]
  omega

/-- The fields of a completion record, as a number. -/
theorem bulkRecord_toNat (b : BulkEntry) (st time : DWord) : ∃ sub, sub < 2 ^ 16 ∧
    (bulkRecord b st time).toNat = beCompl b.raw % 2 ^ 32 + 2 ^ 32 * (st.toNat % 16 + 2 ^ 16 * (sub + 2 ^ 16 * time.toNat)) := by
  have hsub : (if st.getLsbD 1 = true then bitsOf st 8 8 else 0) < 2 ^ 16 := by
    unfold bitsOf
    split <;> omega
  have htime := time.isLt
  refine ⟨_, hsub, ?_⟩
  simp only [bulkRecord, statusBits, leNat_append, leNat_leBytes, length_leBytes, List.length_append, BitVec.toNat_ofNat]
  omega

theorem bulkRecord_fields (b : BulkEntry) (st time : DWord) : (bulkRecord b st time).extractLsb' 64 64 = time ∧
    (bulkRecord b st time).extractLsb' 0 32 = BitVec.ofNat 32 (beCompl b.raw) ∧
    ((bulkRecord b st time).extractLsb' 32 16).toNat = st.toNat % 16 := by
  obtain ⟨sub, hsub, hrecord⟩ := bulkRecord_toNat b st time
  have htime := time.isLt
  refine ⟨BitVec.eq_of_toNat_eq ?_, BitVec.eq_of_toNat_eq ?_, ?_⟩
  all_goals
    simp only [BitVec.extractLsb'_toNat, Nat.shiftRight_eq_div_pow, BitVec.toNat_ofNat, hrecord]
    omega

/-- Settles O28: page requests by their walks, a publication by its control block, the start by the scan for the earliest deadline, and
the completion by what its transfer meets. -/
theorem pageAndBulkResults : Obligations.PageAndBulkResults := by
  unfold Obligations.PageAndBulkResults
  refine ⟨⟨fun b a d s hc => pgreq_results hc, fun s va len bar => ?_, fun p i s r hr => pageRequest_results hr⟩,
    fun u s x b hu hb => ⟨bulkPublish_refused hu hb, fun hp hs hserving => bulkPublish_badControl hu hb hp hs hserving,
      fun hp hs hserving => bulkPublish_takes hu hb hp hs hserving⟩,
    fun die s h => bulkEntryStart_earliest h,
    fun die i s b x hi hu => ⟨bulkComplete_unstarted hi hu, fun hstart ha c hbad => bulkComplete_bad hi hu hstart ha hbad,
      fun hstart ha hbad hstage => bulkComplete_moves hi hu hstart ha hbad hstage⟩,
    fun u s x q hu hq => recordWrite_results hu hq, bulkRecord_fields⟩
  have hpart := queuePage_part s va len bar
  exact ⟨congrArg Partition.requests hpart, congrArg Partition.pgTail hpart⟩

end Sys2Proof.Proofs
end
